-- ==== Sys2Proof/Word.lean ====
section
/-! DEFINITION. The words of the device and their plainest arithmetic. -/

namespace Sys2Proof

/-- A byte. -/
abbrev Byte := BitVec 8

/-- A 32-bit word. -/
abbrev W32 := BitVec 32

/-- A 64-bit word. -/
abbrev W64 := BitVec 64

/-- An instant: device time in steps of 12.5 ps, 32 to a tick of 400 ps (R20). -/
abbrev Stamp := BitVec 64

/-- The number a word stands for, as a signed number. -/
abbrev sInt {n : Nat} (w : BitVec n) : Int := w.toInt

end Sys2Proof
end

