-- ==== Sys2Proof/Syntax.lean ====
section
/-! DEFINITION. The commands the device takes from outside, one constructor for each row of spec/opcode_table.json, and
the small types of their operands. -/

namespace Sys2Proof

/-- Who makes a setup access: a host link (PCIe, parallel host port, JTAG; R451) or the loader, whose REG records
write with Warden privilege (R504). -/
inductive Writer where
  | pcie | php | jtag | loader
  deriving DecidableEq, Repr

/-- What an operation of the NAND array served (R547, R551): ring n's descriptor; the formatting that ring n's FORMAT asked
for, with the blocks whose factory mark says bad; a record of the stewards by its key; the image the loader reads; the
controller's start, with what it found (the targets that answer, those of another geometry, the page code, the logarithm of the
pages of a block, LUNs minus 1, blocks of a LUN, the interfaces the part declares, the boot map copies that are valid);
or background work. -/
inductive NandUse where
  | job (n : Fin 64)
  | format (n : Fin 64) (bad : List Nat)
  | record (key : Fin 6)
  | image
  | start (present ignored : BitVec 4) (page pages : Fin 16) (luns : Fin 8) (blocks : BitVec 24) (modes : BitVec 3) (copies : Fin 9)
  | background
  deriving DecidableEq, Repr

/-- An operation of the NAND array, with its outcome (R551, R553, R555): a page read with the most bits corrected in one of its
codewords (above 72: uncorrectable), a page program, a block erase; each in a block of the medium. -/
inductive NandOp where
  | read (block : BitVec 24) (bits : Byte)
  | program (block : BitVec 24) (ok : Bool)
  | erase (block : BitVec 24) (ok : Bool)
  deriving DecidableEq, Repr

/-- The commands: one constructor for each row of spec/opcode_table.json, in the table's order, with the rule the
table names. -/
inductive Instr where
  /-- REGISTER_WRITE (R8): A write to a setup register that has no row of its own, judged by its access code, RWW/RWL privilege and locks. -/
  | registerWrite (w : Writer) (dword : BitVec 21) (mask : Byte) (v : W64)
  /-- SHADOW_LOW_READ (R5): A 32-bit read of a 64-bit register's low word returns it and copies the high word into the requester's shadow. -/
  | shadowLowRead (w : Writer) (off : BitVec 24)
  /-- SHADOW_LOW_WRITE (R6): A 32-bit write of a 64-bit register's low word is held in the requester's write shadow without changing the register. -/
  | shadowLowWrite (w : Writer) (off : BitVec 24) (v : W32)
  /-- SHADOW_HIGH_WRITE (R6): A high-word write from a requester holding a low word writes the whole 64-bit value at once, or is discarded if none is held. -/
  | shadowHighWrite (w : Writer) (off : BitVec 24) (v : W32)
  /-- ALARM_ACK (R588): The Warden writes 1 to STW_ALARM pending bits, and ALARM_N rises once no alarm is pending. -/
  | alarmAck (w : Writer) (bits : BitVec 9)
  /-- VIEW_INTERVAL (R37): Each 1 µs interval, the stewards exchange lead views and judge agreement, disagreement or a missing view. -/
  | viewInterval (goodWest goodEast claimWest claimEast : Bool)
  /-- HANDOVER (R43): The Warden writes STW_LEAD.HANDOVER to move the lead to the other half, or the request is refused. -/
  | handover (w : Writer) (v : W32)
  /-- DEVICE_ACTION_HOLD_TIMEOUT (R42): A device-wide action that has waited at a step boundary for 1 ms without agreement completes with ABORTED. -/
  | deviceActionHoldTimeout
  /-- STEWARD_ACTION_RESUME (R41): A device-wide action raised by the stewards starts once the leadership state returns to AGREED. -/
  | stewardActionResume
  /-- LOAD_WINDOW (R31): Each 10 µs window completes and updates STW_LOAD.LOAD and PEAK. -/
  | loadWindow (h : Fin 2) (load : Fin 1001)
  /-- LOAD_PEAK_CLR (R31): PEAK_CLR sets PEAK to the current LOAD. -/
  | loadPeakClr (w : Writer) (h : Fin 2)
  /-- QUAD_EDGE (R51): A filtered edge on A or B of a QUAD source arrives, is stamped, and is judged against the 25 ns spacing. -/
  | quadEdge (n : Fin 32) (onB a b : Bool) (t : Stamp)
  /-- QUAD_COUNT_COMMIT (R53): An edge with no neighbour within 25 ns is counted 25 ns after it arrived, at its own stamp. -/
  | quadCountCommit (n : Fin 32)
  /-- INDEX_EDGE (R55): A rising index edge latches TB_IDX_POS and checks the distance against TB_REV. -/
  | indexEdge (n : Fin 32) (t : Stamp)
  /-- ADC_SAMPLE (R58): An analog front samples S and C together and forms the interpolated phase step. -/
  | adcSample (k : Fin 16) (sc cc : BitVec 14) (t : Stamp)
  /-- SERIAL_FRAME_START (R62): Every PERIOD × 100 ns the device starts an SSI or QCS frame with its latch edge. -/
  | serialFrameStart (n : Fin 32) (t : Stamp)
  /-- SSI_FRAME_END (R62): An SSI frame completes and is decoded, parity-checked and unwrapped, or counted as bad. -/
  | ssiFrameEnd (n : Fin 32) (data : BitVec 48) (parity silent : Bool)
  /-- QCS_FRAME_END (R63): A QCS frame completes and is checked for START, SEQ and CRC, with status flags applied. -/
  | qcsFrameEnd (n : Fin 32) (start : Bool) (status : BitVec 4) (pos : BitVec 40) (seq : BitVec 4) (crc : BitVec 8) (silent : Bool)
  /-- STEP_EDGE (R67): A step edge of a PULSE_DIR source counts ±1 by the direction level, or is rejected under the rate rule. -/
  | stepEdge (n : Fin 32) (dir wide : Bool) (t : Stamp)
  /-- ZERO_CROSSING (R68): A comparator crossing in ZERO_X counts under EDGE and LOCKOUT for each timebase taking the front. -/
  | zeroCrossing (k : Fin 16) (rising : Bool) (t : Stamp)
  /-- TB_TIMEOUT_EXPIRY (R70): No crossing or software write for TB_TIMEOUT µs raises SIG_LOSS with cause NO_FRAME. -/
  | tbTimeoutExpiry (n : Fin 32)
  /-- TBPOS (R72): A received tether position message is converted to local DT and applied as a software write. -/
  | tbposMsg (lane : Fin 2) (idx seq : Byte) (p v a stamp : W64) (good : Bool)
  /-- TETHER_MSG_TIMEOUT (R72): Three consecutive expected tether messages missing or failing raise TETHER_LOSS MISSING. -/
  | tetherMsgTimeout (n : Fin 32)
  /-- TIMEBASE_UPDATE (R76): At each 100 ns update instant every timebase runs its estimator, gearing and fault checks and publishes. -/
  | timebaseUpdate
  /-- COAST_LIMIT_EXPIRY (R80): A fault still active after 2^COAST_MAX µs of COAST makes the timebase proceed as FAIL. -/
  | coastLimitExpiry (n : Fin 32)
  /-- TB_ENABLE (R89): EN = 1 checks source, port, gear chain and lock, and starts the timebase at its preset or geared position. -/
  | tbEnable (w : Writer) (n : Fin 32)
  /-- TB_DISABLE (R91): EN = 0 moves the timebase to STOPPING, and at the next update its events complete with TB_DISABLED. -/
  | tbDisable (w : Writer) (n : Fin 32)
  /-- PRESET_GO (R90): PRESET_GO sets the position to TB_PRESET at the next update and sets REF. -/
  | presetGo (w : Writer) (n : Fin 32)
  /-- GEAR_GO (R75): GEAR_GO applies the held ratio and offset together at the next update. -/
  | gearGo (w : Writer) (n : Fin 32)
  /-- ERRCNT_CLR (R95): ERRCNT_CLR sets TB_ERRCNT to 0. -/
  | errcntClr (w : Writer) (n : Fin 32)
  /-- TB_CFG_WRITE (R89): A write to TB_CFG, TB_SRC or TB_SRCP is judged for its values and then for the lock. -/
  | tbCfgWrite (w : Writer) (n : Fin 32) (which : Fin 3) (v : W32)
  /-- TB_ANA_CAL_WRITE (R59): A calibration write is judged by AUTO before and after, and is refused with SRC_BUSY if it changes fields under AUTO. -/
  | tbAnaCalWrite (w : Writer) (n : Fin 32) (v : W32)
  /-- TB_SNAP_GO (R88): GO requests a coherent snapshot of the timebases in TB_SNAP_MASK. -/
  | tbSnapGo (w : Writer)
  /-- TB_SNAP_DONE (R88): The snapshot copies arrive together by SNAP crossing and DONE is set. -/
  | tbSnapDone
  /-- FABRIC_ARM (R109): An ARM command and its four image words on a fabric arm channel are checked and the reply is returned. -/
  | fabricArm (k : Fin 32) (port : Fin 80) (cmd w0 w1 w2 w3 : W64)
  /-- FABRIC_CANCEL (R109): A CANCEL command on a fabric arm channel cancels a slot and is answered. -/
  | fabricCancel (k : Fin 32) (port : Fin 80) (cmd : W64)
  /-- FABRIC_REPLY_TAKEN (R109): The fabric takes a waiting reply word, and the scheduler may acknowledge the next command. -/
  | fabricReplyTaken (k : Fin 32) (completion : Bool)
  /-- SCHED_PUBLICATION (R113): A publication reaches the scheduler 40 ns after its stamp, and armed events are predicted, enter or leave the horizon, commit or are withdrawn. -/
  | schedPublication
  /-- EVENT_FIRE (R119): At its placed instant an event performs its action (line edge, pulse start, token, wake, DAC, capture window or mark) and completes. -/
  | eventFire (n : Fin 4096) (t : Stamp)
  /-- PULSE_END (R119): A pulse's end arrives after its time width or at its position crossing, and the line's pulse count falls. -/
  | pulseEnd (n : Fin 4096) (t : Stamp)
  /-- WIDTH_LIMIT_EXPIRY (R120): A position-width pulse or window not ended within 2^TMAX µs is ended with WIDTH_LIMIT. -/
  | widthLimitExpiry (n : Fin 4096) (t : Stamp)
  /-- EVENT_EXPIRY (R126): An event not committed by its EXPIRY deadline completes with EXPIRED. -/
  | eventExpiry (n : Fin 4096)
  /-- CAPTURE_EDGE (R134): An input edge on a capture unit with an open window is stamped and converted to a position, or counted as extra. -/
  | captureEdge (k : Fin 64) (rising : Bool) (t : Stamp)
  /-- CAPTURE_WINDOW_CLOSE (R135): A capture window closes by time or position and its completion is delivered. -/
  | captureWindowClose (k : Fin 64)
  /-- EVENT_TOKEN_DRAIN (R121): An event token channel's buffer hands its oldest token to the spine toward its bound sector. -/
  | eventTokenDrain (k : Fin 64)
  /-- CAL_MEASURE_DONE (R133): A 51.2 µs measurement of a placer or capture delay line completes. -/
  | calMeasureDone (u : Fin 128)
  /-- CAL_ROLE_SWAP (R133): The two delay lines change roles at the first tick with no edge due within 20 ns. -/
  | calRoleSwap (u : Fin 128)
  /-- CAL_AGE_EXPIRY (R133): A serving line unswapped for 10 ms sets CAL_AGED. -/
  | calAgeExpiry (u : Fin 128)
  /-- EVT_KILL_GO (R128): The Warden's kill ends matching events and sets the named lines to KILL_LEVEL within 40 ns. -/
  | evtKillGo (w : Writer) (v : W32)
  /-- EVT_CFG_WRITE (R146): An EVT_CFG write sets horizon, calibration and TMAX, refusing values not allowed. -/
  | evtCfgWrite (w : Writer) (h : Fin 2) (v : W32)
  /-- EVT_CNT_CLR (R146): CNT_CLR sets EVT_CNT to 0 and clears DISCARDED. -/
  | evtCntClr (w : Writer) (h : Fin 2)
  /-- EVT_SLOT_SEL (R149): A write of SLOT starts a coherent copy of that slot's image, state and prediction. -/
  | evtSlotSel (w : Writer) (slot : Fin 4096)
  /-- SLOT_COPY_DONE (R149): The slot readback copy arrives and DONE is set. -/
  | slotCopyDone
  /-- EVT_LINE_CFG_WRITE (R150): A line configuration write is refused with LINE_BUSY if it changes locked fields while events are armed. -/
  | evtLineCfgWrite (w : Writer) (n : Fin 64) (v : W32)
  /-- EVT_CAP_CFG_WRITE (R152): A capture unit configuration write is refused while its window is open or events are armed. -/
  | evtCapCfgWrite (w : Writer) (k : Fin 64) (v : W32)
  /-- HANDSHAKE_WORD (R156): A word passes over a fabric channel by one full four-phase handshake. -/
  | handshakeWord (c : Fin 655360) (onZ : Bool)
  /-- CELL_TOKEN (R159): A cell's used inputs become complete and it computes, latches and presents its output in its mode. -/
  | cellToken (n : Fin 655360) (a b c d : Option Bool)
  /-- BUNDLED_TRANSFER (R169): A bundled stage takes single-rail data on its delayed request under the four-phase bundled handshake. -/
  | bundledTransfer (n : Fin 655360) (a b c d : Option Bool)
  /-- ARBITER_REQUEST (R179): A request rises at a cluster arbiter and a grant is resolved. -/
  | arbiterRequest (k : Fin 81920) (side1 : Bool)
  /-- ARBITER_RELEASE (R180): A request falls, its grant falls, and a waiting request is granted. -/
  | arbiterRelease (k : Fin 81920) (side1 : Bool)
  /-- SECTOR_URST (R191): A write of STW_SEC_HOLD.URST asserts or releases the sector's software reset. -/
  | sectorUrst (w : Writer) (sec : Fin 80) (on : Bool)
  /-- CELL_RESET_INPUT (R191): A cell's RI wire asserts or releases its reset. -/
  | cellResetInput (c : Fin 655360) (on : Bool)
  /-- SPINE_READ (R211): A READ transaction is accepted whole at a spine port. -/
  | spineRead (p : Fin 80) (hd : W64)
  /-- SPINE_WRITE (R211): A posted WRITE transaction is accepted whole at a spine port. -/
  | spineWrite (p : Fin 80) (hd : W64) (data : List W64)
  /-- SPINE_WRITE_ACK (R211): A WRITE_ACK transaction is accepted whole at a spine port. -/
  | spineWriteAck (p : Fin 80) (hd : W64) (data : List W64)
  /-- SPINE_ADD (R211): An ADD atomic transaction is accepted whole at a spine port. -/
  | spineAdd (p : Fin 80) (hd v : W64)
  /-- SPINE_SWAP (R211): A SWAP atomic transaction is accepted whole at a spine port. -/
  | spineSwap (p : Fin 80) (hd v : W64)
  /-- SPINE_MSG (R213): A MSG token transaction to a token endpoint is accepted whole at a spine port. -/
  | spineMsg (p : Fin 80) (hd v : W64)
  /-- SPINE_HEADER_ADMIT (R218): A header held for pool room or a busy TAG is accepted once room appears. -/
  | spineHeaderAdmit (p : Fin 80)
  /-- TRANSACTION_DELIVERY (R224): A transaction is presented whole at its destination port after its spine transfer. -/
  | transactionDelivery (k : Fin 2048) (lost : Fin 4) (taken : Bool)
  /-- SPINE_RESPONSE (R212): A response returns to its master's port and is matched by TAG or discarded. -/
  | spineResponse (fabric : Bool) (k : Fin 2048) (sec : Fin 80) (tag : Byte) (status : BitVec 16) (data : List W64)
  /-- SPORT_TIMEOUT (R226): An inbound transaction not taken or answered within TIMEOUT is ended with ABORTED or discarded. -/
  | sportTimeout (sec : Fin 80) (tag : Byte)
  /-- SPORT_CNT_CLR (R232): CNT_CLR sets a port's STW_SPORT_CNT to 0. -/
  | sportCntClr (w : Writer) (p : Fin 106)
  /-- SPORT_PEAK_CLR (R233): PEAK_CLR sets a port's PEAK to INFLIGHT. -/
  | sportPeakClr (w : Writer) (p : Fin 106)
  /-- SPINE_PEAK_CLR (R234): PEAK_CLR sets the spine pool PEAK to INFLIGHT. -/
  | spinePeakClr (w : Writer)
  /-- TOK_DEST_WRITE (R235): A write binds an event token channel to a sector, refusing sectors above 79. -/
  | tokDestWrite (w : Writer) (c : Fin 64) (v : W32)
  /-- BANK_ACCESS_READ (R240): A bank takes a READ from one of its sides and returns the words, marked if bad. -/
  | bankAccessRead (b : Fin 1280) (hd : W64) (lost : Fin 4)
  /-- BANK_ACCESS_WRITE (R240): A bank takes a WRITE or WRITE_ACK, checks the owner and writes words with fresh parity. -/
  | bankAccessWrite (b : Fin 1280) (ack : Bool) (hd : W64) (data : List W64) (lost : Fin 4)
  /-- BANK_ACCESS_ADD (R242): A bank takes an ADD atomic over two cycles, returning the old word. -/
  | bankAccessAdd (b : Fin 1280) (hd v : W64) (lost : Fin 4)
  /-- BANK_ACCESS_SWAP (R246): A bank takes a SWAP atomic, storing the new word and returning the old one. -/
  | bankAccessSwap (b : Fin 1280) (hd v : W64) (lost : Fin 4)
  /-- HOST_BAR2_READ (R35): A host read through BAR2 returns a bank or engine memory word. -/
  | hostBar2Read (w : Writer) (word : BitVec 22) (lost : Fin 4)
  /-- HOST_BAR2_WRITE (R35): A host write through BAR2 to a bank or engine memory is checked and performed or refused. -/
  | hostBar2Write (w : Writer) (word : BitVec 22) (v : W64) (mask : Byte) (lost : Fin 4)
  /-- BANK_OWN_WRITE (R249): A Warden write that changes a bank's owner starts a handover drain. -/
  | bankOwnWrite (w : Writer) (b : Fin 1280) (v : W32)
  /-- BANK_DRAIN_DONE (R249): Accesses taken before the handover finish, DRAINING clears and the new owner is admitted. -/
  | bankDrainDone (b : Fin 1280)
  /-- BANK_RETENTION_REQUEST (R255): RET = 1 moves a bank to ENTERING, or is latched during WAKING. -/
  | bankRetentionRequest (w : Writer) (b : Fin 1280)
  /-- BANK_WAKE_REQUEST (R255): RET = 0 moves a retained bank to WAKING, or is latched as PEND during ENTERING. -/
  | bankWakeRequest (w : Writer) (b : Fin 1280)
  /-- BANK_ENTRY_DONE (R255): Retention entry completes after the last access and the bank is RETAINED. -/
  | bankEntryDone (b : Fin 1280)
  /-- BANK_WAKE_DONE (R255): After 12 µs of WAKING the bank is ON. -/
  | bankWakeDone (b : Fin 1280)
  /-- PARITY_INJECT (R247): PINJ makes the next write to the bank store byte 0's parity inverted. -/
  | parityInject (w : Writer) (b : Fin 1280)
  /-- BANK_CNT_CLR (R276): CNT_CLR sets BNK_CNT to 0. -/
  | bankCntClr (w : Writer) (b : Fin 1280)
  /-- CONF_CLR (R280): CONF_CLR sets every BNK_CONF to 0. -/
  | confClr (w : Writer)
  /-- QPUSH (R261): A word pushed on a queue's fabric channel enters the queue, or waits while the queue is full. -/
  | qpush (q : Fin 160) (v : W64) (last : Bool)
  /-- QPOP_WAIT (R263): A WAIT pop request on the fabric channel is answered with the next word, now or when one arrives. -/
  | qpopWait (q : Fin 160)
  /-- QPOP_NOW (R263): A NOW pop request is answered at once, with the last value on an empty queue. -/
  | qpopNow (q : Fin 160)
  /-- QUE_PUSH (R262): A window PUSH enters its words together, or is refused or dropped if they do not fit. -/
  | quePush (q : Fin 160) (ack : Bool) (tag : Byte) (data : List W64)
  /-- QUE_PUSH_END (R262): A window PUSH_END pushes its words with END on the last. -/
  | quePushEnd (q : Fin 160) (ack : Bool) (tag : Byte) (data : List W64)
  /-- QUE_POP (R262): A window POP pops one word as NOW. -/
  | quePop (q : Fin 160) (tag : Byte)
  /-- QUE_POP_TAGGED (R262): A window POP_TAGGED pops one word and returns its tag word. -/
  | quePopTagged (q : Fin 160) (tag : Byte)
  /-- QUE_FLUSH (R266): FLUSH empties a running queue and arranges for the cut item to be discarded or marked. -/
  | queFlush (w : Writer) (q : Fin 160)
  /-- QUE_ENABLE (R271): EN = 1 checks the banks are ON and starts their drain to bind the queue. -/
  | queEnable (w : Writer) (q : Fin 160)
  /-- QUE_ENABLE_DONE (R271): The banks' accesses have drained; the banks are bound and the queue is RUN and empty. -/
  | queEnableDone (q : Fin 160)
  /-- QUE_DISABLE (R272): EN = 0 moves the queue to STOPPING and stops acknowledging its channels. -/
  | queDisable (w : Writer) (q : Fin 160)
  /-- QUE_STOP_DONE (R272): Accesses under way finish, the banks are released and the queue is OFF. -/
  | queStopDone (q : Fin 160)
  /-- QUE_WM_WRITE (R267): A watermark write is checked and evaluated at once against FILL. -/
  | queWmWrite (w : Writer) (q : Fin 160) (v : W32)
  /-- QUE_CFG_WRITE (R281): A queue configuration write is refused with QUE_BUSY if it changes locked fields while not OFF. -/
  | queCfgWrite (w : Writer) (q : Fin 160) (v : W32)
  /-- QUE_CNT_CLR (R282): CNT_CLR sets QUE_CNT to 0. -/
  | queCntClr (w : Writer) (q : Fin 160)
  /-- OSC_DELAY_EXPIRY (R291): The oscillator start delay ends and the leading steward takes a reference source. -/
  | oscDelayExpiry (xtal refin : Bool)
  /-- ROOT_SOURCE_RETRY (R292): With no source taken, the steward tries XTAL and REFIN again every 1 ms. -/
  | rootSourceRetry (xtal refin : Bool)
  /-- ROOT_LOCK (R292): The root PLL locks, DT starts or continues, and the LOCK step completes. -/
  | rootLock
  /-- REF_MISSING_EDGE (R294): No reference edge for 200 ns fails the source in use with cause MISSING. -/
  | refMissingEdge (k : Fin 4)
  /-- FREQ_WINDOW (R294): A 40 µs monitor window ends, and the reference counts are checked and READY flags updated. -/
  | freqWindow (count : BitVec 11) (agree : Bool) (ready : BitVec 4)
  /-- PLL_UNLOCK (R294): The phase detector reports loss of lock for more than 1 µs, failing the source with UNLOCK. -/
  | pllUnlock
  /-- HOLDOVER_TO_INTOSC (R295): The root PLL completes its change to 25 × the internal oscillator and ACTIVE becomes INTOSC. -/
  | holdoverToIntosc
  /-- AUTO_RETURN_START (R298): The SEL source has been READY for 10 ms under AUTO_RET and the return starts. -/
  | autoReturnStart
  /-- CLK_SRC_SWITCH (R300): A write of CLK_SRC.SEL is judged and starts a switch or is refused. -/
  | clkSrcSwitch (w : Writer) (sel : Fin 4) (auto : Bool)
  /-- ROOT_SLEW_DONE (R301): The root has settled on its new reference; ACTIVE names it and ROOT_RESTORED may be raised. -/
  | rootSlewDone
  /-- CLK_GATE_ON (R302): MODE ON makes the domain's clock run. -/
  | clkGateOn (w : Writer) (g : Fin 15) (idle : Byte)
  /-- CLK_GATE_AUTO (R302): MODE AUTO lets the domain's clock stop after IDLE × 16 idle cycles. -/
  | clkGateAuto (w : Writer) (g : Fin 15) (idle : Byte)
  /-- CLK_GATE_OFF (R302): MODE OFF stops the clock once every unit is stopped, or is refused with CLK_GATE_BUSY. -/
  | clkGateOff (w : Writer) (g : Fin 15) (idle : Byte)
  /-- CLK_GATE_IDLE_STOP (R302): An AUTO domain idle for its count stops its clock. -/
  | clkGateIdleStop (g : Fin 15)
  /-- CLK_GATE_WAKE (R303): A crossing's wake request starts a stopped AUTO domain's clock at its next aligned edge. -/
  | clkGateWake (g : Fin 15)
  /-- CLK_GATE_STOP_DONE (R304): A stopping domain's clock stops, and a PEND restart then runs. -/
  | clkGateStopDone (g : Fin 15)
  /-- CROSSING_RELEASE (R314): A reset side is released, the crossing sets its pointers to 0 and reports ready. -/
  | crossingRelease (x : Fin 27) (items : BitVec 16)
  /-- CLK_MIN_CLR (R320): MIN_CLR sets MIN_COUNT to REF_COUNT. -/
  | clkMinClr (w : Writer)
  /-- CLK_CNT_CLR (R323): CNT_CLR sets every CLK_XING_CNT to 0. -/
  | clkCntClr (w : Writer)
  /-- ENGINE_ENABLE (R354): EN = 1 on an OFF engine makes it RUN and AUTOSTART contexts READY. -/
  | engineEnable (w : Writer) (n : Fin 96)
  /-- ENGINE_DISABLE (R355): EN = 0 stops every context and moves the engine to STOPPING. -/
  | engineDisable (w : Writer) (n : Fin 96)
  /-- ENGINE_STOP_DONE (R355): Outstanding accesses and transfers end and the engine is OFF. -/
  | engineStopDone (n : Fin 96)
  /-- ENGINE_CNT_CLR (R358): CNT_CLR sets ENG_CNT to 0. -/
  | engineCntClr (w : Writer) (n : Fin 96)
  /-- CONTEXT_START (R354): START makes an OFF, STOPPED or FAULTED context READY, or a STOPPING one PEND. -/
  | contextStart (w : Writer) (n : Fin 96) (c : Fin 4)
  /-- CONTEXT_STOP (R354): STOP makes a context STOPPED, or STOPPING until its bundle boundary. -/
  | contextStop (w : Writer) (n : Fin 96) (c : Fin 4)
  /-- CTX_PC_WRITE (R357): A write of ENG_CTX_PC is accepted only while the context is OFF, STOPPED or FAULTED. -/
  | ctxPcWrite (w : Writer) (n : Fin 96) (c : Fin 4) (v : W32)
  /-- CTX_CFG_WRITE (R360): A context configuration write is refused with ENG_BUSY if it changes locked fields while running. -/
  | ctxCfgWrite (w : Writer) (n : Fin 96) (c : Fin 4) (v : W32)
  /-- CTX_EVQ_WRITE (R357): A write of a completion queue descriptor or its RD pointer is checked and applied. -/
  | ctxEvqWrite (w : Writer) (n : Fin 96) (c : Fin 4) (ptr : Bool) (v : W32)
  /-- CTX_GREG_ACCESS (R357): A host access to a context register is served only while the context is stopped. -/
  | ctxGregAccess (w : Writer) (n : Fin 96) (c : Fin 4) (r : Fin 32) (write : Option W64)
  /-- OCH_DEST_WRITE (R340): A write binds an engine output channel to a destination, refusing unknown targets. -/
  | ochDestWrite (w : Writer) (n : Fin 96) (k : Fin 8) (v : W32)
  /-- CONTEXT_SWITCH (R335): At a bundle boundary the engine switches to the highest-priority READY context over 24 cycles. -/
  | contextSwitch (n : Fin 96)
  /-- ACCESS_RESPONSE (R349): A response to an engine access arrives, writes its pending registers and may charge a fault. -/
  | accessResponse (k : Fin 2048)
  /-- FAULT_DELIVERY (R352): A recorded fault is delivered at the context's bundle boundary, stopping it or entering the handler. -/
  | faultDelivery (n : Fin 96)
  /-- WATCHDOG_EXPIRY (R337): A context READY or RUNNING for WDOG µs without waiting takes WATCHDOG. -/
  | watchdogExpiry (n : Fin 96) (c : Fin 4)
  /-- CONTEXT_TIMER_EXPIRY (R393): DT reaches a waiting context's timer value and its TIMER condition holds. -/
  | contextTimerExpiry (n : Fin 96) (c : Fin 4)
  /-- LONG_OP_COMPLETE (R372): A long division or square root produces its result and its bundle completes. -/
  | longOpComplete (n : Fin 96)
  /-- ENGINE_TOKEN_IN (R341): A MSG token is delivered into an engine input channel. -/
  | engineTokenIn (k : Fin 2048)
  /-- ENGINE_MSG_ADMIT (R341): A MSG held at the head of an engine's group-port queue enters its input channel once it has room. -/
  | engineMsgAdmit (n : Fin 96)
  /-- OUTPUT_CHANNEL_DRAIN (R341): An output channel buffer hands a token to the spine as it accepts. -/
  | outputChannelDrain (n : Fin 96) (k : Fin 8)
  /-- EVQ_BUFFER_DRAIN (R347): A buffered completion is written once its queue has room. -/
  | evqBufferDrain (n : Fin 96)
  /-- XFER_END (R350): An engine block transfer ends, stalls or aborts, freeing its XFER condition. -/
  | xferEnd (n : Fin 96) (c : Fin 4) (lost : Fin 4)
  /-- NOP (R368): No operation. -/
  | kNop (n : Fin 96)
  /-- ADD (R375): 64-bit wrapping addition. -/
  | kAdd (n : Fin 96)
  /-- SUB (R375): 64-bit wrapping subtraction. -/
  | kSub (n : Fin 96)
  /-- AND (R375): Bitwise AND. -/
  | kAnd (n : Fin 96)
  /-- OR (R375): Bitwise OR. -/
  | kOr (n : Fin 96)
  /-- XOR (R375): Bitwise exclusive OR. -/
  | kXor (n : Fin 96)
  /-- SHL (R375): Left shift by gRB[5:0]. -/
  | kShl (n : Fin 96)
  /-- SHR (R375): Logical right shift. -/
  | kShr (n : Fin 96)
  /-- SAR (R375): Arithmetic right shift. -/
  | kSar (n : Fin 96)
  /-- ROR (R375): Right rotate. -/
  | kRor (n : Fin 96)
  /-- SLT (R375): Signed less-than test. -/
  | kSlt (n : Fin 96)
  /-- SLTU (R375): Unsigned less-than test. -/
  | kSltu (n : Fin 96)
  /-- SEQ (R375): Equality test. -/
  | kSeq (n : Fin 96)
  /-- MIN (R375): Signed minimum. -/
  | kMin (n : Fin 96)
  /-- MAX (R375): Signed maximum. -/
  | kMax (n : Fin 96)
  /-- MINU (R375): Unsigned minimum. -/
  | kMinu (n : Fin 96)
  /-- MAXU (R375): Unsigned maximum. -/
  | kMaxu (n : Fin 96)
  /-- MUL (R375): Low 64 bits of the product. -/
  | kMul (n : Fin 96)
  /-- MULH (R375): High 64 bits of the signed product. -/
  | kMulh (n : Fin 96)
  /-- MULHU (R375): High 64 bits of the unsigned product. -/
  | kMulhu (n : Fin 96)
  /-- DIV (R376): Signed division toward zero, with divide-by-zero and overflow results. -/
  | kDiv (n : Fin 96)
  /-- DIVU (R376): Unsigned division. -/
  | kDivu (n : Fin 96)
  /-- REM (R376): Signed remainder. -/
  | kRem (n : Fin 96)
  /-- REMU (R376): Unsigned remainder. -/
  | kRemu (n : Fin 96)
  /-- CLZ (R375): Count of leading zeros. -/
  | kClz (n : Fin 96)
  /-- POPC (R375): Count of ones. -/
  | kPopc (n : Fin 96)
  /-- ADDV (R375): Addition that raises IOV on signed overflow. -/
  | kAddv (n : Fin 96)
  /-- SUBV (R375): Subtraction that raises IOV on signed overflow. -/
  | kSubv (n : Fin 96)
  /-- CMOVNZ (R375): Conditional move when gRB is non-zero. -/
  | kCmovnz (n : Fin 96)
  /-- CMOVZ (R375): Conditional move when gRB is zero. -/
  | kCmovz (n : Fin 96)
  /-- ADDI (R375): Add a sign-extended immediate. -/
  | kAddi (n : Fin 96)
  /-- ANDI (R375): AND with a zero-extended immediate. -/
  | kAndi (n : Fin 96)
  /-- ORI (R375): OR with a zero-extended immediate. -/
  | kOri (n : Fin 96)
  /-- XORI (R375): XOR with a zero-extended immediate. -/
  | kXori (n : Fin 96)
  /-- SLTI (R375): Signed less-than against an immediate. -/
  | kSlti (n : Fin 96)
  /-- SLTIU (R375): Unsigned less-than against an immediate. -/
  | kSltiu (n : Fin 96)
  /-- SHI (R375): Shift or rotate by an immediate amount. -/
  | kShi (n : Fin 96)
  /-- LDI (R375): Load a sign-extended immediate. -/
  | kLdi (n : Fin 96)
  /-- INSH (R375): Insert a 16-bit immediate into a register half-word. -/
  | kInsh (n : Fin 96)
  /-- QADD (R377): Saturating Q32.32 addition. -/
  | kQadd (n : Fin 96)
  /-- QSUB (R377): Saturating Q32.32 subtraction. -/
  | kQsub (n : Fin 96)
  /-- QMUL (R377): Rounded saturating Q32.32 multiplication. -/
  | kQmul (n : Fin 96)
  /-- QDIV (R377): Rounded saturating Q32.32 division. -/
  | kQdiv (n : Fin 96)
  /-- QSHL (R377): Saturating fixed-point left shift by register. -/
  | kQshl (n : Fin 96)
  /-- QSHR (R377): Rounded arithmetic fixed-point right shift by register. -/
  | kQshr (n : Fin 96)
  /-- QABS (R377): Saturating fixed-point absolute value. -/
  | kQabs (n : Fin 96)
  /-- QNEG (R377): Saturating fixed-point negation. -/
  | kQneg (n : Fin 96)
  /-- QSHLI (R377): Saturating fixed-point left shift by an immediate. -/
  | kQshli (n : Fin 96)
  /-- QSHRI (R377): Rounded fixed-point right shift by an immediate. -/
  | kQshri (n : Fin 96)
  /-- FADD (R378): binary64 addition. -/
  | kFadd (n : Fin 96)
  /-- FSUB (R378): binary64 subtraction. -/
  | kFsub (n : Fin 96)
  /-- FMUL (R378): binary64 multiplication. -/
  | kFmul (n : Fin 96)
  /-- FDIV (R378): binary64 division. -/
  | kFdiv (n : Fin 96)
  /-- FSQRT (R378): binary64 square root. -/
  | kFsqrt (n : Fin 96)
  /-- FMA (R378): Fused multiply-add, rounded once. -/
  | kFma (n : Fin 96)
  /-- FMIN (R378): binary64 minimum. -/
  | kFmin (n : Fin 96)
  /-- FMAX (R378): binary64 maximum. -/
  | kFmax (n : Fin 96)
  /-- FNEG (R378): Sign inversion. -/
  | kFneg (n : Fin 96)
  /-- FABS (R378): Sign clear. -/
  | kFabs (n : Fin 96)
  /-- FEQ (R378): binary64 equality comparison. -/
  | kFeq (n : Fin 96)
  /-- FLT (R378): binary64 less-than comparison. -/
  | kFlt (n : Fin 96)
  /-- FLE (R378): binary64 less-or-equal comparison. -/
  | kFle (n : Fin 96)
  /-- FROUND (R378): Round to an integral value under RM. -/
  | kFround (n : Fin 96)
  /-- FCVT_FX (R379): Convert signed fixed point to binary64. -/
  | kFcvtFx (n : Fin 96)
  /-- FCVT_XF (R379): Convert binary64 to signed fixed point. -/
  | kFcvtXf (n : Fin 96)
  /-- FCVT_FXU (R379): Convert unsigned fixed point to binary64. -/
  | kFcvtFxu (n : Fin 96)
  /-- LDL (R380): Load from DMEM. -/
  | kLdl (n : Fin 96)
  /-- STL (R380): Store to DMEM. -/
  | kStl (n : Fin 96)
  /-- LDML (R381): Load several words from DMEM. -/
  | kLdml (n : Fin 96)
  /-- STML (R381): Store several words to DMEM. -/
  | kStml (n : Fin 96)
  /-- LD (R384): Translated load of one word, optionally with status. -/
  | kLd (n : Fin 96)
  /-- ST (R384): Translated posted store, or WRITE_ACK with status. -/
  | kSt (n : Fin 96)
  /-- LDM (R385): Translated multi-word load within one 64-byte line. -/
  | kLdm (n : Fin 96)
  /-- STM (R385): Translated multi-word posted store. -/
  | kStm (n : Fin 96)
  /-- ATOM_ADD (R386): Atomic ADD on a translated or local word. -/
  | kAtomAdd (n : Fin 96)
  /-- ATOM_SWAP (R386): Atomic SWAP on a translated or local word. -/
  | kAtomSwap (n : Fin 96)
  /-- MCPY (R387): Restartable word copy between local and translated memory. -/
  | kMcpy (n : Fin 96)
  /-- BR (R389): Unconditional branch. -/
  | kBr (n : Fin 96)
  /-- BEQ (R389): Branch if equal. -/
  | kBeq (n : Fin 96)
  /-- BNE (R389): Branch if not equal. -/
  | kBne (n : Fin 96)
  /-- BLT (R389): Branch if signed less. -/
  | kBlt (n : Fin 96)
  /-- BGE (R389): Branch if signed greater or equal. -/
  | kBge (n : Fin 96)
  /-- BLTU (R389): Branch if unsigned less. -/
  | kBltu (n : Fin 96)
  /-- BGEU (R389): Branch if unsigned greater or equal. -/
  | kBgeu (n : Fin 96)
  /-- BZ (R389): Branch if zero. -/
  | kBz (n : Fin 96)
  /-- BNZ (R389): Branch if not zero. -/
  | kBnz (n : Fin 96)
  /-- CALL (R390): Link PC + 8 and branch. -/
  | kCall (n : Fin 96)
  /-- JR (R390): Jump to a register, optionally linking. -/
  | kJr (n : Fin 96)
  /-- WAIT_TOKEN (R393): Wait until an input channel holds a token. -/
  | kWaitToken (n : Fin 96)
  /-- WAIT_ROOM (R393): Wait until an output channel has room. -/
  | kWaitRoom (n : Fin 96)
  /-- WAIT_WAKE (R393): Wait for a wake and take its value. -/
  | kWaitWake (n : Fin 96)
  /-- WAIT_COMPLETION (R393): Wait until the completion queue is not empty. -/
  | kWaitCompletion (n : Fin 96)
  /-- WAIT_TIMER (R393): Wait until DT reaches a value. -/
  | kWaitTimer (n : Fin 96)
  /-- WAIT_XFER (R393): Wait until the context's transfer is not RUNNING. -/
  | kWaitXfer (n : Fin 96)
  /-- RECV (R394): Take the oldest token of an input channel, waiting if empty. -/
  | kRecv (n : Fin 96)
  /-- SEND (R394): Send a token on an output channel, blocking or not. -/
  | kSend (n : Fin 96)
  /-- CHAV (R394): Read channel availability flags. -/
  | kChav (n : Fin 96)
  /-- SNAP (R395): Coherent snapshot of up to four timebases into registers. -/
  | kSnap (n : Fin 96)
  /-- TBW (R396): Software write to a SOFTWARE timebase. -/
  | kTbw (n : Fin 96)
  /-- EVSET (R397): Arm an event from four registers. -/
  | kEvset (n : Fin 96)
  /-- EVCAN (R397): Cancel an event slot. -/
  | kEvcan (n : Fin 96)
  /-- TKWAKE (R398): Take a pending wake without waiting. -/
  | kTkwake (n : Fin 96)
  /-- EVQ_HEAD (R398): Return the DMEM offset of the completion queue head entry. -/
  | kEvqHead (n : Fin 96)
  /-- EVQ_POP (R398): Advance the completion queue's RD pointer. -/
  | kEvqPop (n : Fin 96)
  /-- DACW (R399): Write a code to an AOUT output. -/
  | kDacw (n : Fin 96)
  /-- XFER_START (R402): Hand a block transfer to a mover. -/
  | kXferStart (n : Fin 96)
  /-- XFER_RESUME (R402): Resume a STALLED transfer. -/
  | kXferResume (n : Fin 96)
  /-- XFER_ABORT (R402): Abort a running or stalled transfer. -/
  | kXferAbort (n : Fin 96)
  /-- XFER_STATUS (R402): Read the transfer's state and bytes done. -/
  | kXferStatus (n : Fin 96)
  /-- RDDT (R400): Read the DT of the issuing cycle. -/
  | kRddt (n : Fin 96)
  /-- CSR_READ (R403): Read a control register. -/
  | kCsrRead (n : Fin 96)
  /-- CSR_WRITE (R403): Write a control register, returning the old value. -/
  | kCsrWrite (n : Fin 96)
  /-- CSR_SET (R403): Set bits of a control register. -/
  | kCsrSet (n : Fin 96)
  /-- CSR_CLEAR (R403): Clear bits of a control register. -/
  | kCsrClear (n : Fin 96)
  /-- FENCE (R404): Wait before issue until every access and posted write is complete. -/
  | kFence (n : Fin 96)
  /-- YIELD (R404): Give the engine to another READY context of equal priority. -/
  | kYield (n : Fin 96)
  /-- HALT (R404): Stop the context at the next bundle. -/
  | kHalt (n : Fin 96)
  /-- RFH (R411): Return from the fault handler to EPC. -/
  | kRfh (n : Fin 96)
  /-- CTXSTART (R404): Start another context of this engine. -/
  | kCtxstart (n : Fin 96)
  /-- CTXSTOP (R404): Stop a context of this engine. -/
  | kCtxstop (n : Fin 96)
  /-- PINR (R401): Read a word of field port input levels. -/
  | kPinr (n : Fin 96)
  /-- LINK_RETRAIN (R419): The PCIe link retrains and movers wait. -/
  | linkRetrain
  /-- LINK_DOWN (R419): Link down, hot reset or HL_PERST_N ends mover host accesses and stops their rings. -/
  | linkDown
  /-- LINK_UP (R419): The PCIe link has trained and UP reads 1. -/
  | linkUp (rate : Fin 4) (width : Fin 3)
  /-- FUNCTION_LEVEL_RESET (R419): FLR acts as a hot reset and returns every RNG_ register to its cold value. -/
  | functionLevelReset
  /-- PHP_READ (R420): A parallel host port half-word read, assembled per R423. -/
  | phpRead (a : BitVec 15) (lost : Fin 4)
  /-- PHP_WRITE (R423): A parallel host port half-word write, held or assembled into a whole register. -/
  | phpWrite (a : BitVec 15) (v : BitVec 16) (both : Bool) (lost : Fin 4) (merged : Bool)
  /-- PHP_TIMEOUT (R421): A PHP target unanswered for 20 µs ends the access. -/
  | phpTimeout (write : Bool)
  /-- PHP_PAGE_WRITE (R422): A write of RNG_PHP_PAGE selects the page a window slot shows. -/
  | phpPageWrite (k : Fin 16) (v : W32)
  /-- PHP_STAT_CLR (R425): CLR sets the PHP error counts to 0. -/
  | phpStatClr
  /-- DOORBELL (R429): A doorbell write sets HOST_IDX of a ring and starts fetching or frees record room. -/
  | doorbell (n : Fin 64) (off : Fin 4096) (full : Bool) (v : W32) (merged : Bool)
  /-- DESCRIPTOR_FETCH (R431): A mover fetches a descriptor from a command ring. -/
  | descriptorFetch (n : Fin 64) (lost : Fin 4)
  /-- DESC_NOP (R433): Descriptor NOP completes at once. -/
  | descNop (n : Fin 64)
  /-- COPY (R436): Descriptor COPY moves LEN bytes from SRC to DST. -/
  | descCopy (n : Fin 64) (lost : Fin 4)
  /-- MSG (R433): Descriptor MSG sends a token to a target. -/
  | descMsg (n : Fin 64)
  /-- ARM_SHORT (R434): Descriptor arm with word 3 and TARGET, other fields defaulted. -/
  | armShort (n : Fin 64)
  /-- ARM_INLINE (R434): Descriptor arm carrying words 0, 2, 3 and PAYLOAD. -/
  | armInline (n : Fin 64)
  /-- ARM_IMG (R434): Descriptor arming COUNT images read from memory, with replies written. -/
  | armImg (n : Fin 64) (lost : Fin 4)
  /-- CANCEL (R433): Descriptor cancel of a slot. -/
  | descCancel (n : Fin 64)
  /-- TB_WRITE (R435): Descriptor software timebase write from a 32-byte record. -/
  | tbWrite (n : Fin 64) (lost : Fin 4)
  /-- LOAD (R494): Descriptor delivering configuration stream bytes to the loader. -/
  | descLoad (n : Fin 64) (lost : Fin 4)
  /-- SHEET (R447): Descriptor writing one contact sheet on demand. -/
  | descSheet (n : Fin 64)
  /-- HOST_READ_COMPLETION (R438): A host read completion returns to a mover, with data or an error that ends the descriptor. -/
  | hostReadCompletion (k : Fin 4096) (ok : Bool) (data : List W64)
  /-- RING_RESUME (R438): RESUME continues a STALLED ring from BYTES_DONE. -/
  | ringResume (w : Writer) (n : Fin 64)
  /-- RING_ABORT (R438): ABORT completes a STALLED ring's descriptor with ABORTED. -/
  | ringAbort (w : Writer) (n : Fin 64)
  /-- RING_ENABLE (R440): EN = 1 starts a ring from OFF or ERROR with indices 0. -/
  | ringEnable (w : Writer) (n : Fin 64)
  /-- RING_DISABLE (R441): EN = 0 stops fetching and ends descriptors under way. -/
  | ringDisable (w : Writer) (n : Fin 64)
  /-- RING_STOP_DONE (R441): A stopping ring reaches OFF, and a PEND restart then runs. -/
  | ringStopDone (n : Fin 64)
  /-- RING_CNT_CLR (R449): CNT_CLR sets RNG_CNT to 0. -/
  | ringCntClr (w : Writer) (n : Fin 64)
  /-- RING_CFG_WRITE (R449): A ring configuration or base write is checked for owner, lock and values. -/
  | ringCfgWrite (w : Writer) (n : Fin 64) (base : Bool) (v : W64)
  /-- RING_OWN_WRITE (R458): A Warden write of RNG_OWN is checked for lock and owner code. -/
  | ringOwnWrite (w : Writer) (n : Fin 64) (v : W32)
  /-- VECTOR_MOD_TIMER (R445): TIME µs after the first unsignalled record, the ring's vector is raised. -/
  | vectorModTimer (n : Fin 64)
  /-- SHEET_CAPTURE (R446): At a due update instant a contact sheet is taken and written, or skipped. -/
  | sheetCapture
  /-- SHEET_CFG_WRITE (R446): A write of RNG_SHEET_CFG sets interval and enable, refusing intervals outside range. -/
  | sheetCfgWrite (w : Writer) (v : W32)
  /-- LINK_PRIV_WRITE (R452): A write of WTU_LINK sets a host link's privilege, refused if it leaves no Warden link. -/
  | linkPrivWrite (w : Writer) (l : Fin 3) (v : W32)
  /-- SPACE_WRITE (R471): A write of WTU_SPACE sets an address space and invalidates it. -/
  | spaceWrite (w : Writer) (a : Fin 256) (v : W64)
  /-- INV_ADDRESS (R470): GO with MODE ADDRESS invalidates one page of one space in every cache. -/
  | invAddress (w : Writer) (asid : Byte)
  /-- INV_SPACE (R470): GO with MODE SPACE invalidates every entry of one space. -/
  | invSpace (w : Writer) (asid : Byte)
  /-- INV_ALL (R470): GO with MODE ALL invalidates every entry. -/
  | invAll (w : Writer) (asid : Byte)
  /-- INVALIDATE_DONE (R470): No selected entry, walk or access remains and DONE is set. -/
  | invalidateDone
  /-- TABLE_READ_DONE (R467): A walker's table read returns and the walk goes on, caches a leaf, or faults. -/
  | tableReadDone (k : Fin 16) (first own : W64) (err : Bool)
  /-- SVN_WRITE (R476): A Warden write raises WTU_SVN, consuming one count. -/
  | svnWrite (w : Writer) (v : W32)
  /-- KEY_COMMIT (R477): COMMIT stores the staged key in a slot and clears the staging words. -/
  | keyCommit (w : Writer) (k : Fin 4)
  /-- BOOT_LOCK_WRITE (R478): A Warden write sets the boot-source lock within its count. -/
  | bootLockWrite (w : Writer) (v : W32)
  /-- DEBUG_DISABLE (R479): DISABLE = 1 turns the JTAG port off for good. -/
  | debugDisable (w : Writer)
  /-- LIFE_STORE_DONE (R475): The antifuse store has taken a lifetime write and LIFE_BUSY clears. -/
  | lifeStoreDone
  /-- WTU_CNT_CLR (R480): CNT_CLR sets WTU_CNT to 0. -/
  | wtuCntClr (w : Writer)
  /-- LEADER (R498): A stream leader is taken whole and checked before anything is written. -/
  | streamLeader
  /-- RECORD_NOP (R502): A NOP record is skipped. -/
  | recordNop
  /-- FRAMES (R510): A FRAMES record's frames are checked and written to a sector. -/
  | framesRecord
  /-- BANK_RECORD (R502): A BANK record writes initial words to a bank. -/
  | bankRecord
  /-- EMEM (R502): An EMEM record writes engine memory words. -/
  | ememRecord
  /-- REG_RECORD (R504): A REG record writes registers with Warden privilege, or holds them for a partial exit. -/
  | regRecord
  /-- SECTION (R523): A SECTION record's contents are applied only by its device. -/
  | sectionRecord
  /-- END_RECORD (R510): The END record closes the body and the loader checks wire classes. -/
  | endRecord
  /-- SEGMENT_TAG (R514): An encrypted segment's GCM tag is verified and its records are applied. -/
  | segmentTag
  /-- TRAILER (R506): The trailer CRC is checked and GATE is released or the load fails. -/
  | streamTrailer
  /-- STREAM_SOURCE_END (R495): The source ends before STREAM_LEN and the load fails with STREAM_SHORT. -/
  | streamSourceEnd (source : Fin 5)
  /-- STREAM_STALL_TIMEOUT (R495): No byte for IDLE_TMO ms fails the load with STREAM_STALL. -/
  | streamStallTimeout
  /-- GATE_HIGH (R521): GATE reads high for 8 port clocks and the first start-up gap begins. -/
  | gateHigh
  /-- GATE_TIMEOUT (R521): GATE not high within GATE_TMO fails the load. -/
  | gateTimeout
  /-- STARTUP_OUTS (R520): The OUTS step lifts the output hold. -/
  | startupOuts
  /-- STARTUP_WRITES (R520): The WRITES step lifts the write hold and starts queues. -/
  | startupWrites
  /-- STARTUP_RESETS (R520): The RESETS step releases cells, engines, rings and the scheduler. -/
  | startupResets
  /-- RESET_WAVE_COLUMN (R519): Under RST_WAVE, the next sector column is released. -/
  | resetWaveColumn
  /-- LOAD_ABORT (R533): LDR_CTL.ABORT ends the load with ABORTED. -/
  | loadAbort (w : Writer)
  /-- LOAD_DISCARD (R534): LDR_CTL.DISCARD releases sectors held after a PARTIAL failure. -/
  | loadDiscard (w : Writer)
  /-- CONFIG_CHECK (R535): LDR_CHECK.GO starts a CRC readback check of every sector. -/
  | configCheck (w : Writer)
  /-- CONFIG_CHECK_DONE (R535): The check completes and differing sectors are reported. -/
  | configCheckDone
  /-- READBACK (R536): LDR_RB_SEL.GO copies one frame into LDR_RB_DATA or is refused. -/
  | readback (w : Writer) (v : W32)
  /-- NAND_OP_DONE (R547): A NAND read, program or erase completes on a target, and results are judged. -/
  | nandOpDone (op : NandOp) (use : NandUse)
  /-- PATROL_READ (R554): The patrol reads its next page on its schedule. -/
  | patrolRead (block : BitVec 24) (bits : Byte) (last : Bool)
  /-- PATROL_GO (R554): PATROL_GO starts one patrol pass at the fastest rate. -/
  | patrolGo (w : Writer)
  /-- PATROL_PLACE_SAVE (R554): Every 10 minutes the patrol place is saved in the record store. -/
  | patrolPlaceSave
  /-- ARC_READ (R563): Read sectors of the data area. -/
  | arcRead (n : Fin 64) (lost : Fin 4)
  /-- ARC_WRITE (R564): Write sectors of the data area. -/
  | arcWrite (n : Fin 64) (lost : Fin 4)
  /-- ARC_TRIM (R563): Trim sectors so they read as 0. -/
  | arcTrim (n : Fin 64)
  /-- REC_READ (R562): Read the newest version of a record. -/
  | recRead (n : Fin 64) (lost : Fin 4)
  /-- REC_WRITE (R561): Write a new version of a record in two copies. -/
  | recWrite (n : Fin 64) (lost : Fin 4)
  /-- REC_DELETE (R562): Make a record key read as absent. -/
  | recDelete (n : Fin 64)
  /-- IMG_OPEN (R558): Open staging for an image slot. -/
  | imgOpen (n : Fin 64)
  /-- IMG_WRITE (R558): Append bytes to a slot's staging. -/
  | imgWrite (n : Fin 64) (lost : Fin 4)
  /-- IMG_COMMIT (R558): Check the staged image and swap it into the slot. -/
  | imgCommit (n : Fin 64)
  /-- IMG_READ (R559): Read bytes of an image slot. -/
  | imgRead (n : Fin 64) (lost : Fin 4)
  /-- SLOT_SELECT (R560): Set the preferred image slot. -/
  | slotSelect (n : Fin 64)
  /-- LOAD_SLOT (R560): Hand an image slot to the loader as an ARCHIVE source. -/
  | loadSlot (n : Fin 64)
  /-- FORMAT (R568): Format the archive medium. -/
  | arcFormat (n : Fin 64)
  /-- ARCHIVE_ENABLE (R570): ARC_CTL.EN = 1 restarts the controller from step 3 of its start. -/
  | archiveEnable (w : Writer)
  /-- ARCHIVE_DISABLE (R570): ARC_CTL.EN = 0 moves the controller to STOPPING. -/
  | archiveDisable (w : Writer)
  /-- ARCHIVE_STOP_DONE (R570): Operations under way end and the controller is OFF with ARC_WP_N low. -/
  | archiveStopDone
  /-- ARC_IF_WRITE (R547): A write of ARC_IF sets the interface, refusing modes the part does not declare. -/
  | arcIfWrite (w : Writer) (v : W32)
  /-- ARC_CFG_WRITE (R572): A write of ARC_CFG sets refresh and patrol settings, refusing values not allowed. -/
  | arcCfgWrite (w : Writer) (v : W32)
  /-- ARC_CNT_CLR (R572): CNT_CLR sets ARC_CNT to 0. -/
  | arcCntClr (w : Writer)
  /-- POWER_VALID (R621): VSUP has been above 1.65 V for 1 ms, the rails start and a cold start begins. -/
  | powerValid (straps : Byte) (held : Bool)
  /-- XRESET_RISE (R575): XRESET_N rises, the straps are sampled and a warm or cold start begins. -/
  | xresetRise (straps : Byte)
  /-- XRESET_ASSERT (R685): XRESET_N goes low, ending any load or start under way. -/
  | xresetAssert
  /-- START_WARM (R577): STW_START.WARM requests a warm start. -/
  | startWarm (w : Writer)
  /-- START_RELOAD (R577): STW_START.RELOAD requests a warm start with reload. -/
  | startReload (w : Writer)
  /-- START_COLD (R577): STW_START.COLD requests a cold start. -/
  | startCold (w : Writer)
  /-- BOOT_CONFIRM (R585): The Warden confirms the start and the fail counts are cleared. -/
  | bootConfirm (w : Writer)
  /-- CONFIRM_TIMEOUT_EXPIRY (R585): No confirmation within CONFIRM_TMO makes the start fail. -/
  | confirmTimeoutExpiry
  /-- START_DONE_TIMEOUT (R585): No DONE within 1 s of lock makes a counted start fail. -/
  | startDoneTimeout
  /-- START_RETRY (R586): 100 ms after a failure, or on return to agreement, the stewards begin a RETRY start. -/
  | startRetry
  /-- CONFIRM_TMO_WRITE (R613): A write of CONFIRM_TMO raises a write of the boot counters record. -/
  | confirmTmoWrite (w : Writer) (v : BitVec 16)
  /-- OPERATING_HOUR (R609): Each whole hour of valid VSUP counts and is saved in the boot counters. -/
  | operatingHour
  /-- BIST_SECTOR (R589): GO with UNIT SECTOR tests a sector in a freeze window. -/
  | bistSector (w : Writer) (k : Fin 128)
  /-- BIST_ENGINE (R589): GO with UNIT ENGINE tests an engine under save and restore. -/
  | bistEngine (w : Writer) (k : Fin 128)
  /-- BIST_ANALOG (R593): GO with UNIT ANALOG tests a front and its DAC by loop-back. -/
  | bistAnalog (w : Writer) (k : Fin 128)
  /-- BIST_DEVICE (R589): GO with UNIT DEVICE tests every sector and engine in turn. -/
  | bistDevice (w : Writer)
  /-- BIST_UNIT_DONE (R591): A unit's test ends, its state is restored and failures go to the fixer. -/
  | bistUnitDone (h : Fin 2) (failed : Bool) (fails : List W64)
  /-- DENSITOMETER_SWEEP (R596): Every SWEEP seconds each steward measures its tiles' slowdown. -/
  | densitometerSweep (h : Fin 2) (ms : List (Fin 5120 × Int)) (bad : List (Fin 1280))
  /-- HEALTH_CFG_WRITE (R597): A write of STW_HEALTH_CFG is refused if its margins are not allowed. -/
  | healthCfgWrite (w : Writer) (v : W32)
  /-- ENGINE_PATH_MONITOR (R598): An engine's timing slack falls below 10 % and a planned substitution is triggered. -/
  | enginePathMonitor (n : Fin 96) (low : Bool)
  /-- FIX_GO (R600): STW_FIX.GO runs every queued planned substitution. -/
  | fixGo (w : Writer)
  /-- SUBSTITUTION_DONE (R602): A substitution completes, enters the spare map and FIX_DONE is raised. -/
  | substitutionDone (h : Fin 2)
  /-- SUPPLY_LOW_DETECT (R629): VSUP below LOW_THR for 10 µs raises SUPPLY_LOW, and may enter DARK. -/
  | supplyLowDetect (vsup : BitVec 10)
  /-- BROWN_OUT (R629): VSUP below 1.55 V for 2 µs asserts every hold and stops the regulators. -/
  | brownOut
  /-- TEMP_UPDATE (R630): Every 100 µs TEMP is updated and DIE_HOT, the rail cap and the thermal trip are judged. -/
  | tempUpdate (west east : BitVec 10)
  /-- BACKLOG_INTERVAL (R623): Every 1 µs each steward raises, lowers or holds VFAB by the backlog. -/
  | backlogInterval (h : Fin 2) (backlog : Fin 1001)
  /-- PHASE_MONITOR (R626): A regulator phase current anomaly triggers a phase substitution. -/
  | phaseMonitor (h : Fin 2) (k : Fin 4)
  /-- VFAB_WRITE (R625): A write of PWR_VFAB sets policy and levels, or is refused with RAIL_RANGE. -/
  | vfabWrite (w : Writer) (h : Fin 2) (v : W32)
  /-- REQ_RUN (R631): REQ = RUN returns the device to RUN or is latched during entry. -/
  | reqRun (w : Writer)
  /-- REQ_IDLE (R633): REQ = IDLE freezes the fabric and lowers VFAB. -/
  | reqIdle (w : Writer)
  /-- REQ_SAFELIGHT (R634): REQ = safelight enters the low-power watch state. -/
  | reqSafelight (w : Writer)
  /-- REQ_DARK (R634): REQ = DARK enters DARK. -/
  | reqDark (w : Writer)
  /-- POWER_ENTRY_DONE (R632): Entry to IDLE, safelight or DARK completes, and a latched wake then runs. -/
  | powerEntryDone
  /-- WAKE_N_EDGE (R637): A falling edge of WAKE_N wakes the device. -/
  | wakeNEdge
  /-- WAKE_PORT_EDGE (R637): An edge on a wake port slot's field port wakes the device. -/
  | wakePortEdge (k : Fin 4) (rising : Bool)
  /-- WAKE_TB_RANGE (R637): A wake timebase's position leaves LO to HI and wakes the device. -/
  | wakeTbRange (j : Fin 2)
  /-- WAKE_DT (R637): DT reaches PWR_WAKE_DT and wakes the device. -/
  | wakeDt
  /-- HOST_REQUEST_WAKE (R637): A host request with HOST_EN wakes the device. -/
  | hostRequestWake
  /-- ACTIVITY_WAKE (R637): A doorbell, BAR2 access or WAKE/TOKEN action wakes the device from IDLE. -/
  | activityWake
  /-- POWER_WAKE_DONE (R638): The wake from IDLE, safelight or DARK completes and the device is in RUN. -/
  | powerWakeDone
  /-- VBANK_WRITE (R628): A write of PWR_VBANK sets the output level, slewing at 0.5 V per ms. -/
  | vbankWrite (w : Writer) (b : Fin 4) (v : W32)
  /-- VBANK_SAVE (R627): SAVE writes the supply record. -/
  | vbankSave (w : Writer) (b : Fin 4)
  /-- SUPPLY_CFG_WRITE (R641): A write of PWR_SUP sets LOW_THR and LOW_ACT, refusing thresholds outside range. -/
  | supplyCfgWrite (w : Writer) (v : W32)
  /-- TEMP_PEAK_CLR (R641): PEAK_CLR sets PEAK to TEMP. -/
  | tempPeakClr (w : Writer)
  /-- PIN_CFG_WRITE (R645): A write of PIN_CFG is checked for values, owner and DIFF lock. -/
  | pinCfgWrite (w : Writer) (n : Fin 144) (v : W32)
  /-- PIN_MUX_WRITE (R648): A write of PIN_MUX selects a new function, taking effect at the second port-clock edge. -/
  | pinMuxWrite (w : Writer) (n : Fin 144) (v : W32)
  /-- PIN_SWITCH_EDGE (R648): At the second port-clock edge after a PIN_MUX write, F takes the new function. -/
  | pinSwitchEdge (n : Fin 144)
  /-- PIN_OVL_WRITE (R646): A write of PIN_OVL changes the overlay at the second port-clock edge. -/
  | pinOvlWrite (w : Writer) (n : Fin 144) (v : W32)
  /-- PIN_OWN_WRITE (R657): A write of PIN_OWN changes a port's owner, refused if a function would be disallowed. -/
  | pinOwnWrite (w : Writer) (n : Fin 144) (v : W32)
  /-- PIN_OUT_WRITE (R649): An owner's write of PIN_OUT sets GPIO levels and drives. -/
  | pinOutWrite (w : Writer) (n : Fin 144) (v : W32)
  /-- PIN_PWM_WRITE (R657): An owner's write of PIN_PWM sets period and high time from the next period. -/
  | pinPwmWrite (w : Writer) (n : Fin 144) (v : W32)
  /-- PIN_INPUT_CHANGE (R651): A pad input level changes and passes the glitch filter to its consumers. -/
  | pinInputChange (n : Fin 144) (b level : Bool)
  /-- DEBOUNCE_EXPIRY (R651): A level held for DEBOUNCE × 100 µs passes the debouncer. -/
  | debounceExpiry (n : Fin 144) (b : Bool)
  /-- LINE_FAULT_DETECT (R653): An open or shorted differential line for 1 µs sets or clears LINE_FAULT. -/
  | lineFaultDetect (n : Fin 144) (on : Bool)
  /-- SLICE_DRIVE_CHECK (R658): A driven pad mismatching its level for 2 port clocks sets OVERLOAD or triggers the fixer. -/
  | sliceDriveCheck (n : Fin 144) (b overload : Bool)
  /-- DAC_CODE_WRITE (R659): An owner's write of PIN_DAC_CODE sets the output code at the second port-clock edge. -/
  | dacCodeWrite (w : Writer) (k : Fin 16) (v : W32)
  /-- DAC_CFG_WRITE (R659): A write of PIN_DAC_CFG sets owner, enable and sleep code, refusing owner changes while events are armed. -/
  | dacCfgWrite (w : Writer) (k : Fin 16) (v : W32)
  /-- AIN_CFG_WRITE (R662): A write of PIN_AIN_CFG sets a front's mode, refused while a timebase uses it. -/
  | ainCfgWrite (w : Writer) (k : Fin 16) (v : W32)
  /-- PIN_SAVE (R656): PIN_GCTL.SAVE writes the port settings record. -/
  | pinSave (w : Writer)
  /-- LANE_CNT_CLR (R676): CNT_CLR sets every PIN_LANE_CNT to 0. -/
  | laneCntClr (w : Writer)
  /-- LANE_ENABLE (R663): EN = 1 starts lane training, or is refused for RATE or queues. -/
  | laneEnable (w : Writer) (l : Fin 4) (v : W32)
  /-- LANE_DISABLE (R663): EN = 0 moves the lane to STOPPING. -/
  | laneDisable (w : Writer) (l : Fin 4) (v : W32)
  /-- LANE_STOP_DONE (R663): The lane sends its idle sets, powers down and is OFF. -/
  | laneStopDone (l : Fin 4)
  /-- LANE_LINK_LOSS (R664): Code violations or silence lose the link and the lane retrains. -/
  | laneLinkLoss (l : Fin 4) (codes : BitVec 16)
  /-- IDENT (R665): An IDENT message is received, giving the peer's identity and chain index. -/
  | identMsg (l : Fin 2) (identity : W32) (index : Byte) (ack good : Bool)
  /-- TIME (R667): A TIME message is received and the offset and delay are updated. -/
  | timeMsg (l : Fin 2) (tSend tEcho tRecv d : W64) (good : Bool)
  /-- TIME_SEND_TIMER (R667): Every 10 µs each side sends a TIME message. -/
  | timeSendTimer (l : Fin 2)
  /-- STREAM (R668): A STREAM message of configuration bytes is received and forwarded. -/
  | streamMsg (seq : BitVec 16) (data : List Byte) (good : Bool)
  /-- ACK (R668): An ACK or NAK returns credits or asks for a resend. -/
  | ackMsg (seq : BitVec 16) (credits : Byte) (nak good : Bool)
  /-- EOS (R668): EOS marks the end of the tether stream. -/
  | eosMsg (total : W64) (good : Bool)
  /-- STREAM_ACK_TIMEOUT (R668): No ACK for 100 µs makes the sender resend from its oldest unacknowledged message. -/
  | streamAckTimeout
  /-- LANE_WORD_RX (R670): A fabric lane receives a word and pushes it to its queue, or discards it. -/
  | laneWordRx (l : Fin 2) (v : W64) (sync : BitVec 2)
  /-- LANE_WORD_TX (R670): A fabric lane takes a word from its queue and sends it, or sends idle. -/
  | laneWordTx (l : Fin 2)
  /-- JTAG_RESET (R700): Power-up or TRST_N resets the test access port to IDCODE. -/
  | jtagReset
  /-- EXTEST (R704): EXTEST drives the balls from boundary cells only while every sector is held. -/
  | jtagExtest (balls shifted : Nat)
  /-- SAMPLE_PRELOAD (R701): SAMPLE/PRELOAD captures and preloads the boundary register. -/
  | jtagSamplePreload (balls shifted : Nat)
  /-- IDCODE (R700): IDCODE selects the 32-bit identification register. -/
  | jtagIdcode
  /-- BYPASS (R701): BYPASS selects the 1-bit bypass register. -/
  | jtagBypass (code : Byte)
  /-- CFG_LOAD (R702): CFG_LOAD opens JTAG as a stream source for the loader. -/
  | cfgLoad (bs : List Byte)
  /-- CFG_READ (R702): CFG_READ copies and shifts out one frame under the readback rules. -/
  | cfgRead (sel : BitVec 16)
  /-- SETUP_RW_READ (R702): SETUP_RW with WRITE 0 reads a setup or BAR2 word at Update-DR. -/
  | setupRwRead (bar2 : Bool) (word : BitVec 23) (lost : Fin 4)
  /-- SETUP_RW_WRITE (R702): SETUP_RW with WRITE 1 writes a setup or BAR2 word at Update-DR. -/
  | setupRwWrite (bar2 : Bool) (word : BitVec 23) (v : W32) (lost : Fin 4)
  /-- LANE_LOCK (R671): A lane receiver gains its footing in the line: 256 consecutive valid symbols or K28.5 comma lock for 8b/10b, or block lock after 64 valid sync headers for 64b/66b. -/
  | laneLock (l : Fin 4)
  /-- TIME_MISSING (R667): Three consecutive expected TIME messages missing or failing their CRC clear OFS_VALID, raise OFS_LOST and make TETHER timebases raise TETHER_LOSS UNALIGNED. -/
  | timeMissing (l : Fin 2)
  /-- IDENT_SEND_TIMER (R664): During alignment a tether lane sends IDENT every 1 µs. -/
  | identSendTimer (l : Fin 2)
  /-- ACK_SEND_TIMER (R668): While a stream is active the receiver returns an ACK at least every 1 µs. -/
  | ackSendTimer
  /-- ACTIVE_CLOCK_EDGE (R173): On each active edge of its clock tap or routed clock, a CLOCKED cell's Q takes its next value. -/
  | activeClockEdge (n : Fin 655360) (a b c d : Bool)
  /-- PWM_PERIOD (R657): A port's PWM generator starts a new period, at which a new PIN_PWM value takes effect. -/
  | pwmPeriod (n : Fin 144)
  /-- RAIL_SLEW_DONE (R628): A VFAB or VBANK rail finishes slewing to its new setting, so SLEWING clears and VBANK OK is set again. -/
  | railSlewDone (r : Fin 6)
  deriving DecidableEq, Repr

end Sys2Proof
end

