-- ==== Sys2Proof/Decode.lean ====
section
/-! DEFINITION. The commands a word of the table's bits spells: the table gives its rows no bits, so no word spells
one. -/

namespace Sys2Proof

/-- The command a word of `nbits` bits spells by the table: the table gives no row bits, so there is none. -/
def decodeTableWord (_nbits _w : Nat) : Option Instr := none

end Sys2Proof
end

