-- ==== Sys2Proof/Config.lean ====
section
/-! DEFINITION. What an implementation fixes, and the free values: constants with no body, so that no proof can see
what they are. Each is applied to a plain counter of State (`freeCount`) or to the operands it depends on. -/

namespace Sys2Proof

/-- A value the spec leaves open, fresh for each count (log entry 1). -/
opaque Config.freeWord : Nat → BitVec 64

/-- A truth value the spec leaves open, fresh for each count (log entry 1). -/
opaque Config.freeBit : Nat → Bool

/-- A number the spec leaves open, fresh for each count (log entry 1). -/
opaque Config.freeNat : Nat → Nat

/-- An integer the spec leaves open, fresh for each count (log entry 1). -/
opaque Config.freeInt : Nat → Int

/-- The estimator's correction (R76) of position, velocity and acceleration: the spec gives the continuous equivalent
and no discrete formula. Arguments: BW, p, v, a, the innovation e (not 0), the time since the last correction
(log entry 5). -/
opaque Config.correctP : Nat → Int → Int → Int → Int → Nat → Int
opaque Config.correctV : Nat → Int → Int → Int → Int → Nat → Int
opaque Config.correctA : Nat → Int → Int → Int → Int → Nat → Int

/-- The phase code, below 16,384 after reduction, of corrected samples S and C, each in 1/1,024 of an ADC code (R58):
the spec does not state how the phase is rounded (log entry 6). -/
opaque Config.phase : Int → Int → Nat

/-- Does FMA of zero times infinity raise NV where the addend is a quiet NaN? IEEE 754 leaves it to the implementation
(log entry 14). -/
opaque Config.fmaNanInvalid : Bool

/-- The key with which a slot that holds none decrypts: R501 accepts encrypted streams before any key is set, and no rule
says what key that is (log entry 16). -/
opaque Config.emptyKey : Nat → BitVec 256

/-- The verdict on a routing frame (R201, R508, R510): 0 accepted, 1 a select names no candidate, 2 a dual-rail pair misplaced, 3
an unused bit set. The places of the selects in a frame are the frame map's, which the spec does not give (log entry 8).
Arguments: the frame index and its 64 words. -/
opaque Config.routeVerdict : Nat → List (BitVec 64) → Nat

/-- Does a border frame break R513 in what depends on the classes of the tracks? Arguments: the sector, the frame's words,
and the sector's other frames (log entry 8). -/
opaque Config.borderVerdict : Nat → List (BitVec 64) → List (Nat × BitVec 64) → Bool

/-- Do the frames join wires of different classes (R154, R510)? Arguments: the sectors written, and every frame word
(log entry 8). -/
opaque Config.classVerdict : List Nat → List (Nat × BitVec 64) → Bool

/-- The offset, in 12.5 ps units, that a tether lane predicts for an instant from its last exchanges, newest first, each an
instant with the offset it measured: the spec says that a lane fits the offset and its rate of change, and not how (R667, log
entry 17). -/
opaque Config.laneFit : List (Nat × Int) → Nat → Int

end Sys2Proof
end

