-- ==== Sys2Proof/Machine/Codes.lean ====
section
/-! DEFINITION. The status codes of the device (R15): 16 bits, the high byte naming the family. Each family's table
is the one its chapter of spec/ gives. -/

namespace Sys2Proof.Machine

/-- OK (R16). -/
def Code.ok : Nat := 0x0000
/-- PEND (R16). -/
def Code.pend : Nat := 0x0001
/-- BAD_RESERVED (R16). -/
def Code.badReserved : Nat := 0x0002
/-- BAD_OPCODE (R16). -/
def Code.badOpcode : Nat := 0x0003
/-- CANCELLED (R16). -/
def Code.cancelled : Nat := 0x0004
/-- ABORTED (R16). -/
def Code.aborted : Nat := 0x0005
/-- HELD (R16). -/
def Code.held : Nat := 0x0006
/-- ARM_PARTIAL (10 status codes). -/
def Code.armPartial : Nat := 0x0100
/-- DB_RANGE (10 status codes). -/
def Code.dbRange : Nat := 0x0101
/-- FETCH_FAULT (10 status codes). -/
def Code.fetchFault : Nat := 0x0102
/-- CPL_LOST (10 status codes). -/
def Code.cplLost : Nat := 0x0103
/-- LOG_LOST (10 status codes). -/
def Code.logLost : Nat := 0x0104
/-- XFER_STALLED (10 status codes). -/
def Code.xferStalled : Nat := 0x0105
/-- LINK_DOWN (10 status codes). -/
def Code.linkDown : Nat := 0x0106
/-- SHEET_SKIPPED (10 status codes). -/
def Code.sheetSkipped : Nat := 0x0107
/-- SHEET_DONE (10 status codes). -/
def Code.sheetDone : Nat := 0x0108
/-- PHP_ORDER (10 status codes). -/
def Code.phpOrder : Nat := 0x0109
/-- PHP_TIMEOUT (10 status codes). -/
def Code.phpTimeout : Nat := 0x010A
/-- HOST_ERR (10 status codes). -/
def Code.hostErr : Nat := 0x010B
/-- RING_PRIV (10 status codes). -/
def Code.ringPriv : Nat := 0x010C
/-- RING_BAD_CFG (10 status codes). -/
def Code.ringBadCfg : Nat := 0x010D
/-- RING_BUSY (10 status codes). -/
def Code.ringBusy : Nat := 0x010E
/-- NOT_OWNER (11 status codes). -/
def Code.notOwner : Nat := 0x0200
/-- WARDEN_ONLY (11 status codes). -/
def Code.wardenOnly : Nat := 0x0201
/-- OWNER_BAD (11 status codes). -/
def Code.ownerBad : Nat := 0x0202
/-- ADDR_RANGE (11 status codes). -/
def Code.addrRange : Nat := 0x0203
/-- SPACE_OFF (11 status codes). -/
def Code.spaceOff : Nat := 0x0204
/-- NOT_MAPPED (11 status codes). -/
def Code.notMapped : Nat := 0x0205
/-- TBL_RESERVED (11 status codes). -/
def Code.tblReserved : Nat := 0x0206
/-- TBL_READ_ERR (11 status codes). -/
def Code.tblReadErr : Nat := 0x0207
/-- PERM_USER (11 status codes). -/
def Code.permUser : Nat := 0x0208
/-- PERM_READ (11 status codes). -/
def Code.permRead : Nat := 0x0209
/-- PERM_WRITE (11 status codes). -/
def Code.permWrite : Nat := 0x020A
/-- NO_TARGET (11 status codes). -/
def Code.noTarget : Nat := 0x020B
/-- HOST_ATOMIC (11 status codes). -/
def Code.hostAtomic : Nat := 0x020C
/-- FAB_OFF (11 status codes). -/
def Code.fabOff : Nat := 0x020D
/-- WARDEN_LAST (11 status codes). -/
def Code.wardenLast : Nat := 0x020E
/-- INV_BUSY (11 status codes). -/
def Code.invBusy : Nat := 0x020F
/-- LIFE_SPENT (11 status codes). -/
def Code.lifeSpent : Nat := 0x0210
/-- LIFE_BUSY (11 status codes). -/
def Code.lifeBusy : Nat := 0x0211
/-- LIFE_BAD (11 status codes). -/
def Code.lifeBad : Nat := 0x0212
/-- DEBUG_OFF (11 status codes). -/
def Code.debugOff : Nat := 0x0213
/-- LOAD_DONE (R545). -/
def Code.loadDone : Nat := 0x0300
/-- LOAD_FAIL (R545). -/
def Code.loadFail : Nat := 0x0301
/-- LEADER_BAD (R545). -/
def Code.leaderBad : Nat := 0x0302
/-- ID_MISMATCH (R545). -/
def Code.idMismatch : Nat := 0x0303
/-- SRC_LOCKED (R545). -/
def Code.srcLocked : Nat := 0x0304
/-- SVN_OLD (R545). -/
def Code.svnOld : Nat := 0x0305
/-- PLAIN_REFUSED (R545). -/
def Code.plainRefused : Nat := 0x0306
/-- KEY_MISMATCH (R545). -/
def Code.keyMismatch : Nat := 0x0307
/-- LDR_BUSY (R545). -/
def Code.ldrBusy : Nat := 0x0308
/-- SECTOR_BUSY (R545). -/
def Code.sectorBusy : Nat := 0x0309
/-- DEV_INDEX (R545). -/
def Code.devIndex : Nat := 0x030A
/-- CHAIN_BROKEN (R545). -/
def Code.chainBroken : Nat := 0x030B
/-- RECORD_BAD (R545). -/
def Code.recordBad : Nat := 0x030C
/-- REG_RANGE (R545). -/
def Code.regRange : Nat := 0x030D
/-- REG_REFUSED (R545). -/
def Code.regRefused : Nat := 0x030E
/-- CELL_BAD (R545). -/
def Code.cellBad : Nat := 0x030F
/-- ROUTE_MULTI_DRIVER (R545). -/
def Code.routeMultiDriver : Nat := 0x0310
/-- ROUTE_CLASS (R545). -/
def Code.routeClass : Nat := 0x0311
/-- ROUTE_PAIR (R545). -/
def Code.routePair : Nat := 0x0312
/-- BORDER_BAD (R545). -/
def Code.borderBad : Nat := 0x0313
/-- TAG_FAIL (R545). -/
def Code.tagFail : Nat := 0x0314
/-- CRC_FAIL (R545). -/
def Code.crcFail : Nat := 0x0315
/-- STREAM_SHORT (R545). -/
def Code.streamShort : Nat := 0x0316
/-- STREAM_STALL (R545). -/
def Code.streamStall : Nat := 0x0317
/-- STREAM_LONG (R545). -/
def Code.streamLong : Nat := 0x0318
/-- SECTOR_INCOMPLETE (R545). -/
def Code.sectorIncomplete : Nat := 0x0319
/-- GATE_TIMEOUT (R545). -/
def Code.gateTimeout : Nat := 0x031A
/-- CFG_LOADING (R545). -/
def Code.cfgLoading : Nat := 0x031B
/-- CFG_CHECK_FAIL (R545). -/
def Code.cfgCheckFail : Nat := 0x031C
/-- ARC_UNCORRECTABLE (R574). -/
def Code.arcUncorrectable : Nat := 0x0400
/-- ARC_RANGE (R574). -/
def Code.arcRange : Nat := 0x0401
/-- ARC_FULL (R574). -/
def Code.arcFull : Nat := 0x0402
/-- ARC_OFF (R574). -/
def Code.arcOff : Nat := 0x0403
/-- ARC_NO_MEDIUM (R574). -/
def Code.arcNoMedium : Nat := 0x0404
/-- ARC_NO_BOOT (R574). -/
def Code.arcNoBoot : Nat := 0x0405
/-- ARC_GEOMETRY (R574). -/
def Code.arcGeometry : Nat := 0x0406
/-- ARC_SLOT_EMPTY (R574). -/
def Code.arcSlotEmpty : Nat := 0x0407
/-- ARC_SLOT_BUSY (R574). -/
def Code.arcSlotBusy : Nat := 0x0408
/-- ARC_IMAGE_BAD (R574). -/
def Code.arcImageBad : Nat := 0x0409
/-- ARC_GOLDEN_LOCKED (R574). -/
def Code.arcGoldenLocked : Nat := 0x040A
/-- ARC_KEY_RESERVED (R574). -/
def Code.arcKeyReserved : Nat := 0x040B
/-- ARC_NO_RECORD (R574). -/
def Code.arcNoRecord : Nat := 0x040C
/-- ARC_REC_SIZE (R574). -/
def Code.arcRecSize : Nat := 0x040D
/-- ARC_REC_FULL (R574). -/
def Code.arcRecFull : Nat := 0x040E
/-- ARC_BAD_CFG (R574). -/
def Code.arcBadCfg : Nat := 0x040F
/-- ARC_WORN (R574). -/
def Code.arcWorn : Nat := 0x0410
/-- ARC_BLOCK_RETIRED (R574). -/
def Code.arcBlockRetired : Nat := 0x0411
/-- ARC_BOOTMAP_DEGRADED (R574). -/
def Code.arcBootmapDegraded : Nat := 0x0412
/-- LATE (R153 and R103). -/
def Code.late : Nat := 0x0500
/-- MISSED (R153 and R103). -/
def Code.missed : Nat := 0x0501
/-- PASSED (R153 and R103). -/
def Code.passed : Nat := 0x0502
/-- EXPIRED (R153 and R103). -/
def Code.expired : Nat := 0x0503
/-- COLLIDED (R153 and R103). -/
def Code.collided : Nat := 0x0504
/-- OVERRUN (R153 and R103). -/
def Code.overrun : Nat := 0x0505
/-- WAKE_MERGED (R153 and R103). -/
def Code.wakeMerged : Nat := 0x0506
/-- NO_EDGE (R153 and R103). -/
def Code.noEdge : Nat := 0x0507
/-- WIDTH_LIMIT (R153 and R103). -/
def Code.widthLimit : Nat := 0x0508
/-- CLK_DEGRADED (R153 and R103). -/
def Code.clkDegraded : Nat := 0x0509
/-- NO_SLOT (R153 and R103). -/
def Code.noSlot : Nat := 0x050A
/-- SLOT_BUSY (R153 and R103). -/
def Code.slotBusy : Nat := 0x050B
/-- DEST_NOT_OWNED (R153 and R103). -/
def Code.destNotOwned : Nat := 0x050C
/-- NOT_ARMER (R153 and R103). -/
def Code.notArmer : Nat := 0x050D
/-- HALF_MISMATCH (R153 and R103). -/
def Code.halfMismatch : Nat := 0x050E
/-- BAD_EVENT (R153 and R103). -/
def Code.badEvent : Nat := 0x050F
/-- BAD_WIDTH (R153 and R103). -/
def Code.badWidth : Nat := 0x0510
/-- NOT_ARMED (R153 and R103). -/
def Code.notArmed : Nat := 0x0511
/-- TOO_LATE_CANCEL (R153 and R103). -/
def Code.tooLateCancel : Nat := 0x0512
/-- LINE_BUSY (R153 and R103). -/
def Code.lineBusy : Nat := 0x0513
/-- SCHED_OFF (R153 and R103). -/
def Code.schedOff : Nat := 0x0514
/-- SIG_LOSS (R153 and R103). -/
def Code.sigLoss : Nat := 0x0580
/-- AMP_RANGE (R153 and R103). -/
def Code.ampRange : Nat := 0x0581
/-- LOST_COUNT (R153 and R103). -/
def Code.lostCount : Nat := 0x0582
/-- ACCEL_LIMIT (R153 and R103). -/
def Code.accelLimit : Nat := 0x0583
/-- SERIAL_CRC (R153 and R103). -/
def Code.serialCrc : Nat := 0x0584
/-- TETHER_LOSS (R153 and R103). -/
def Code.tetherLoss : Nat := 0x0585
/-- TB_DISABLED (R153 and R103). -/
def Code.tbDisabled : Nat := 0x0586
/-- BAD_SRC (R153 and R103). -/
def Code.badSrc : Nat := 0x0587
/-- GEAR_LOOP (R153 and R103). -/
def Code.gearLoop : Nat := 0x0588
/-- SRC_BUSY (R153 and R103). -/
def Code.srcBusy : Nat := 0x0589
/-- SER_TOO_FAST (R153 and R103). -/
def Code.serTooFast : Nat := 0x058A
/-- PORT_MISMATCH (R153 and R103). -/
def Code.portMismatch : Nat := 0x058B
/-- STALE_WRITE (R153 and R103). -/
def Code.staleWrite : Nat := 0x058C
/-- NOT_SOFTWARE (R153 and R103). -/
def Code.notSoftware : Nat := 0x058D
/-- EXPORT_FULL (R153 and R103). -/
def Code.exportFull : Nat := 0x058E
/-- GEAR_DEPTH (R153 and R103). -/
def Code.gearDepth : Nat := 0x058F
/-- ENG_FAULT (R363). -/
def Code.engFault : Nat := 0x0600
/-- ILLEGAL_OP (R363). -/
def Code.illegalOp : Nat := 0x0601
/-- MISALIGNED (R363). -/
def Code.misaligned : Nat := 0x0602
/-- LOCAL_RANGE (R363). -/
def Code.localRange : Nat := 0x0603
/-- LOCAL_ECC (R363). -/
def Code.localEcc : Nat := 0x0604
/-- PRIV_OP (R363). -/
def Code.privOp : Nat := 0x0605
/-- DOUBLE_FAULT (R363). -/
def Code.doubleFault : Nat := 0x0606
/-- WATCHDOG (R363). -/
def Code.watchdog : Nat := 0x0607
/-- ARITH_TRAP (R363). -/
def Code.arithTrap : Nat := 0x0608
/-- CHAN_NOT_BOUND (R363). -/
def Code.chanNotBound : Nat := 0x0609
/-- CHAN_FULL (R363). -/
def Code.chanFull : Nat := 0x060A
/-- EVQ_LOST (R363). -/
def Code.evqLost : Nat := 0x060B
/-- DAC_NOT_OWNED (R363). -/
def Code.dacNotOwned : Nat := 0x060C
/-- IMEM_BUSY (R363). -/
def Code.imemBusy : Nat := 0x060D
/-- ENG_BUSY (R363). -/
def Code.engBusy : Nat := 0x060E
/-- ENG_BAD_CFG (R363). -/
def Code.engBadCfg : Nat := 0x060F
/-- ENG_RETIRED (R363). -/
def Code.engRetired : Nat := 0x0610
/-- POISONED (06 status codes). -/
def Code.poisoned : Nat := 0x0700
/-- ATOMIC_POISONED (06 status codes). -/
def Code.atomicPoisoned : Nat := 0x0701
/-- BNK_ASLEEP (06 status codes). -/
def Code.bnkAsleep : Nat := 0x0702
/-- QUEUE_BOUND (06 status codes). -/
def Code.queueBound : Nat := 0x0703
/-- QUE_FULL (06 status codes). -/
def Code.queFull : Nat := 0x0704
/-- QUE_UNDERRUN (06 status codes). -/
def Code.queUnderrun : Nat := 0x0705
/-- QUE_OFF (06 status codes). -/
def Code.queOff : Nat := 0x0706
/-- QUE_PORT (06 status codes). -/
def Code.quePort : Nat := 0x0707
/-- QUE_BAD_CFG (06 status codes). -/
def Code.queBadCfg : Nat := 0x0708
/-- QUE_BUSY (06 status codes). -/
def Code.queBusy : Nat := 0x0709
/-- QUE_HIGH (06 status codes). -/
def Code.queHigh : Nat := 0x070A
/-- QUE_LOW (06 status codes). -/
def Code.queLow : Nat := 0x070B
/-- CLOCK_LOSS (07 status codes). -/
def Code.clockLoss : Nat := 0x0800
/-- CLK_SW_REFUSED (07 status codes). -/
def Code.clkSwRefused : Nat := 0x0801
/-- XING_OVERRUN (07 status codes). -/
def Code.xingOverrun : Nat := 0x0802
/-- XING_DISCARD (07 status codes). -/
def Code.xingDiscard : Nat := 0x0803
/-- CLK_BAD_CFG (07 status codes). -/
def Code.clkBadCfg : Nat := 0x0804
/-- CLK_GATE_BUSY (07 status codes). -/
def Code.clkGateBusy : Nat := 0x0805
/-- INTOSC_FAIL (07 status codes). -/
def Code.intoscFail : Nat := 0x0806
/-- ROOT_RESTORED (07 status codes). -/
def Code.rootRestored : Nat := 0x0807
/-- PWR_BAD_STATE (07 status codes). -/
def Code.pwrBadState : Nat := 0x0880
/-- RAIL_RANGE (07 status codes). -/
def Code.railRange : Nat := 0x0881
/-- NO_WAKE (07 status codes). -/
def Code.noWake : Nat := 0x0882
/-- PIN_BAD_CFG (R677). -/
def Code.pinBadCfg : Nat := 0x0900
/-- PIN_BUSY (R677). -/
def Code.pinBusy : Nat := 0x0901
/-- PIN_FN_OWNER (R677). -/
def Code.pinFnOwner : Nat := 0x0902
/-- PIN_OVERLOAD (R677). -/
def Code.pinOverload : Nat := 0x0903
/-- PIN_LINE_FAULT (R677). -/
def Code.pinLineFault : Nat := 0x0904
/-- LANE_DOWN (R677). -/
def Code.laneDown : Nat := 0x0905
/-- LANE_RX_DROP (R677). -/
def Code.laneRxDrop : Nat := 0x0906
/-- OFS_LOST (R677). -/
def Code.ofsLost : Nat := 0x0907
/-- LEAD_CONFLICT (R617). -/
def Code.leadConflict : Nat := 0x0A00
/-- HALF_SPLIT (R617). -/
def Code.halfSplit : Nat := 0x0A01
/-- START_BUSY (R617). -/
def Code.startBusy : Nat := 0x0A02
/-- START_FAILED (R617). -/
def Code.startFailed : Nat := 0x0A03
/-- CONFIRM_TIMEOUT (R617). -/
def Code.confirmTimeout : Nat := 0x0A04
/-- WARM_TO_COLD (R617). -/
def Code.warmToCold : Nat := 0x0A05
/-- BOOT_FALLBACK (R617). -/
def Code.bootFallback : Nat := 0x0A06
/-- BOOT_EXHAUSTED (R617). -/
def Code.bootExhausted : Nat := 0x0A07
/-- BIST_FAIL (R617). -/
def Code.bistFail : Nat := 0x0A08
/-- BIST_LIMIT (R617). -/
def Code.bistLimit : Nat := 0x0A09
/-- BIST_BUSY (R617). -/
def Code.bistBusy : Nat := 0x0A0A
/-- BIST_IN_USE (R617). -/
def Code.bistInUse : Nat := 0x0A0B
/-- TILE_SLOW (R617). -/
def Code.tileSlow : Nat := 0x0A0C
/-- FIX_PLANNED (R617). -/
def Code.fixPlanned : Nat := 0x0A0D
/-- FIX_DONE (R617). -/
def Code.fixDone : Nat := 0x0A0E
/-- SPARE_EXHAUSTED (R617). -/
def Code.spareExhausted : Nat := 0x0A0F
/-- SECTOR_FAILED (R617). -/
def Code.sectorFailed : Nat := 0x0A10
/-- SPARE_MAP_FULL (R617). -/
def Code.spareMapFull : Nat := 0x0A11
/-- HEALTH_BAD_CFG (R617). -/
def Code.healthBadCfg : Nat := 0x0A12
/-- DIE_HOT (R617). -/
def Code.dieHot : Nat := 0x0A13
/-- SUPPLY_LOW (R617). -/
def Code.supplyLow : Nat := 0x0A14

/-- The family of a code (R15). -/
def Code.family (c : Nat) : Nat := c / 256

end Sys2Proof.Machine
end

