-- ==== Sys2Proof/Machine/RegMap.lean ====
section
/-! DEFINITION. The setup registers of the device (BAR0), from the register tables of spec/: for each register its
offset, its index ranges, its width, which bits each kind of write reaches, its cold value and what a warm start
leaves; and for each field its place. A register of the parallel host port's own page 0 (R425) stands at
0x1000000 + its window offset, outside BAR0. The context registers ENG_CTX_GREG
are the contexts' own registers (State) and have no entry here. -/

namespace Sys2Proof.Machine

/-- One register or array of registers: element (i, j) stands at base + i * stride + j * stride2. `rw`, `rww`, `rwl`,
`w1c`, `w1s` are the bits of each access code (R8); `keep` the bits a warm start keeps and `warm` what it sets the
others to (R12). -/
structure Reg where
  base    : Nat
  stride  : Nat
  count   : Nat
  stride2 : Nat
  count2  : Nat
  wide    : Bool
  cold    : BitVec 64
  rw      : BitVec 64
  rww     : BitVec 64
  rwl     : BitVec 64
  w1c     : BitVec 64
  w1s     : BitVec 64
  keep    : BitVec 64
  warm    : BitVec 64
  deriving DecidableEq, Repr

/-- A field of a register: its lowest bit and its width. -/
structure Fld where
  reg : Reg
  lo  : Nat
  len : Nat
  deriving DecidableEq, Repr

/-- TB_CFG[32] (R93). -/
def Reg.tbCfg : Reg := ⟨0x40000, 0x100, 32, 0x0, 1, false, 0x0, 0xFFFFFF, 0x0, 0x0, 0x0, 0x0, 0xFFFFFF, 0x0⟩
/-- TB_CFG.SRC. -/
def Fld.tbCfgSrc : Fld := ⟨Reg.tbCfg, 0, 4⟩
/-- TB_CFG.BW. -/
def Fld.tbCfgBw : Fld := ⟨Reg.tbCfg, 4, 4⟩
/-- TB_CFG.STOP_ACT. -/
def Fld.tbCfgStopAct : Fld := ⟨Reg.tbCfg, 8, 2⟩
/-- TB_CFG.SUSPECT_ACT. -/
def Fld.tbCfgSuspectAct : Fld := ⟨Reg.tbCfg, 10, 1⟩
/-- TB_CFG.DIR_INV. -/
def Fld.tbCfgDirInv : Fld := ⟨Reg.tbCfg, 11, 1⟩
/-- TB_CFG.COAST_MAX. -/
def Fld.tbCfgCoastMax : Fld := ⟨Reg.tbCfg, 12, 4⟩
/-- TB_CFG.MASTER. -/
def Fld.tbCfgMaster : Fld := ⟨Reg.tbCfg, 16, 5⟩
/-- TB_CFG.OFS_HOLD. -/
def Fld.tbCfgOfsHold : Fld := ⟨Reg.tbCfg, 21, 1⟩
/-- TB_CFG.REF_ON_INDEX. -/
def Fld.tbCfgRefOnIndex : Fld := ⟨Reg.tbCfg, 22, 1⟩
/-- TB_CFG.NOTE_EN. -/
def Fld.tbCfgNoteEn : Fld := ⟨Reg.tbCfg, 23, 1⟩

/-- TB_CTL[32] (R93). -/
def Reg.tbCtl : Reg := ⟨0x40004, 0x100, 32, 0x0, 1, false, 0x0, 0x31, 0x0, 0x0, 0x0, 0xE, 0x31, 0x0⟩
/-- TB_CTL.EN. -/
def Fld.tbCtlEn : Fld := ⟨Reg.tbCtl, 0, 1⟩
/-- TB_CTL.PRESET_GO. -/
def Fld.tbCtlPresetGo : Fld := ⟨Reg.tbCtl, 1, 1⟩
/-- TB_CTL.GEAR_GO. -/
def Fld.tbCtlGearGo : Fld := ⟨Reg.tbCtl, 2, 1⟩
/-- TB_CTL.ERRCNT_CLR. -/
def Fld.tbCtlErrcntClr : Fld := ⟨Reg.tbCtl, 3, 1⟩
/-- TB_CTL.EXPORT. -/
def Fld.tbCtlExport : Fld := ⟨Reg.tbCtl, 4, 2⟩

/-- TB_STAT[32] (R93). -/
def Reg.tbStat : Reg := ⟨0x40008, 0x100, 32, 0x0, 1, false, 0x0, 0x0, 0x0, 0x0, 0x0, 0x0, 0xFFFFFF7F, 0x0⟩
/-- TB_STAT.STATE. -/
def Fld.tbStatState : Fld := ⟨Reg.tbStat, 0, 2⟩
/-- TB_STAT.REF. -/
def Fld.tbStatRef : Fld := ⟨Reg.tbStat, 2, 1⟩
/-- TB_STAT.COASTING. -/
def Fld.tbStatCoasting : Fld := ⟨Reg.tbStat, 3, 1⟩
/-- TB_STAT.HELD. -/
def Fld.tbStatHeld : Fld := ⟨Reg.tbStat, 4, 1⟩
/-- TB_STAT.CLK_DEGRADED. -/
def Fld.tbStatClkDegraded : Fld := ⟨Reg.tbStat, 5, 1⟩
/-- TB_STAT.INHERITED. -/
def Fld.tbStatInherited : Fld := ⟨Reg.tbStat, 6, 1⟩
/-- TB_STAT.CAUSE. -/
def Fld.tbStatCause : Fld := ⟨Reg.tbStat, 8, 4⟩
/-- TB_STAT.ENC_STATUS. -/
def Fld.tbStatEncStatus : Fld := ⟨Reg.tbStat, 12, 4⟩
/-- TB_STAT.LAST_CODE. -/
def Fld.tbStatLastCode : Fld := ⟨Reg.tbStat, 16, 16⟩

/-- TB_SRC[32] (R93). -/
def Reg.tbSrc : Reg := ⟨0x4000C, 0x100, 32, 0x0, 1, false, 0x0, 0x7FFFFFFF, 0x0, 0x0, 0x0, 0x0, 0x7FFFFFFF, 0x0⟩
/-- TB_SRC.IN0. -/
def Fld.tbSrcIn0 : Fld := ⟨Reg.tbSrc, 0, 8⟩
/-- TB_SRC.IN1. -/
def Fld.tbSrcIn1 : Fld := ⟨Reg.tbSrc, 8, 8⟩
/-- TB_SRC.IN2. -/
def Fld.tbSrcIn2 : Fld := ⟨Reg.tbSrc, 16, 8⟩
/-- TB_SRC.AIN. -/
def Fld.tbSrcAin : Fld := ⟨Reg.tbSrc, 24, 4⟩
/-- TB_SRC.TAP. -/
def Fld.tbSrcTap : Fld := ⟨Reg.tbSrc, 28, 1⟩
/-- TB_SRC.INDEX_EN. -/
def Fld.tbSrcIndexEn : Fld := ⟨Reg.tbSrc, 29, 1⟩
/-- TB_SRC.EDGE. -/
def Fld.tbSrcEdge : Fld := ⟨Reg.tbSrc, 30, 1⟩

/-- TB_SRCP[32] (R93). -/
def Reg.tbSrcp : Reg := ⟨0x40010, 0x100, 32, 0x0, 1, false, 0x0, 0xFFFFFFFF, 0x0, 0x0, 0x0, 0x0, 0xFFFFFFFF, 0x0⟩
/-- TB_SRCP.VALUE. -/
def Fld.tbSrcpValue : Fld := ⟨Reg.tbSrcp, 0, 32⟩

/-- TB_ANA_CAL[32] (R93). -/
def Reg.tbAnaCal : Reg := ⟨0x40014, 0x100, 32, 0x0, 1, false, 0x0, 0xFFFFFFFF, 0x0, 0x0, 0x0, 0x0, 0xFFFFFFFF, 0x0⟩
/-- TB_ANA_CAL.OFS_S. -/
def Fld.tbAnaCalOfsS : Fld := ⟨Reg.tbAnaCal, 0, 12⟩
/-- TB_ANA_CAL.OFS_C. -/
def Fld.tbAnaCalOfsC : Fld := ⟨Reg.tbAnaCal, 12, 12⟩
/-- TB_ANA_CAL.GAIN_C. -/
def Fld.tbAnaCalGainC : Fld := ⟨Reg.tbAnaCal, 24, 7⟩
/-- TB_ANA_CAL.AUTO. -/
def Fld.tbAnaCalAuto : Fld := ⟨Reg.tbAnaCal, 31, 1⟩

/-- TB_GEAR_NUM[32] (R93). -/
def Reg.tbGearNum : Reg := ⟨0x40018, 0x100, 32, 0x0, 1, false, 0x1, 0xFFFFFFFF, 0x0, 0x0, 0x0, 0x0, 0xFFFFFFFF, 0x0⟩
/-- TB_GEAR_NUM.VALUE. -/
def Fld.tbGearNumValue : Fld := ⟨Reg.tbGearNum, 0, 32⟩

/-- TB_GEAR_DEN[32] (R93). -/
def Reg.tbGearDen : Reg := ⟨0x4001C, 0x100, 32, 0x0, 1, false, 0x1, 0xFFFFFFFF, 0x0, 0x0, 0x0, 0x0, 0xFFFFFFFF, 0x0⟩
/-- TB_GEAR_DEN.VALUE. -/
def Fld.tbGearDenValue : Fld := ⟨Reg.tbGearDen, 0, 32⟩

/-- TB_GEAR_OFS[32] (R93). -/
def Reg.tbGearOfs : Reg := ⟨0x40020, 0x100, 32, 0x0, 1, true, 0x0, 0xFFFFFFFFFFFFFFFF, 0x0, 0x0, 0x0, 0x0, 0xFFFFFFFFFFFFFFFF, 0x0⟩
/-- TB_GEAR_OFS.VALUE. -/
def Fld.tbGearOfsValue : Fld := ⟨Reg.tbGearOfs, 0, 64⟩

/-- TB_POS[32] (R93). -/
def Reg.tbPos : Reg := ⟨0x40028, 0x100, 32, 0x0, 1, true, 0x0, 0x0, 0x0, 0x0, 0x0, 0x0, 0xFFFFFFFFFFFFFFFF, 0x0⟩
/-- TB_POS.VALUE. -/
def Fld.tbPosValue : Fld := ⟨Reg.tbPos, 0, 64⟩

/-- TB_VEL[32] (R93). -/
def Reg.tbVel : Reg := ⟨0x40030, 0x100, 32, 0x0, 1, true, 0x0, 0x0, 0x0, 0x0, 0x0, 0x0, 0xFFFFFFFFFFFFFFFF, 0x0⟩
/-- TB_VEL.VALUE. -/
def Fld.tbVelValue : Fld := ⟨Reg.tbVel, 0, 64⟩

/-- TB_ACC[32] (R93). -/
def Reg.tbAcc : Reg := ⟨0x40038, 0x100, 32, 0x0, 1, true, 0x0, 0x0, 0x0, 0x0, 0x0, 0x0, 0xFFFFFFFFFFFFFFFF, 0x0⟩
/-- TB_ACC.VALUE. -/
def Fld.tbAccValue : Fld := ⟨Reg.tbAcc, 0, 64⟩

/-- TB_STAMP[32] (R93). -/
def Reg.tbStamp : Reg := ⟨0x40040, 0x100, 32, 0x0, 1, true, 0x0, 0x0, 0x0, 0x0, 0x0, 0x0, 0xFFFFFFFFFFFFFFFF, 0x0⟩
/-- TB_STAMP.VALUE. -/
def Fld.tbStampValue : Fld := ⟨Reg.tbStamp, 0, 64⟩

/-- TB_PRESET[32] (R93). -/
def Reg.tbPreset : Reg := ⟨0x40048, 0x100, 32, 0x0, 1, true, 0x0, 0xFFFFFFFFFFFFFFFF, 0x0, 0x0, 0x0, 0x0, 0xFFFFFFFFFFFFFFFF, 0x0⟩
/-- TB_PRESET.VALUE. -/
def Fld.tbPresetValue : Fld := ⟨Reg.tbPreset, 0, 64⟩

/-- TB_IDX_POS[32] (R93). -/
def Reg.tbIdxPos : Reg := ⟨0x40050, 0x100, 32, 0x0, 1, true, 0x0, 0x0, 0x0, 0x0, 0x0, 0x0, 0xFFFFFFFFFFFFFFFF, 0x0⟩
/-- TB_IDX_POS.VALUE. -/
def Fld.tbIdxPosValue : Fld := ⟨Reg.tbIdxPos, 0, 64⟩

/-- TB_ACC_MAX[32] (R93). -/
def Reg.tbAccMax : Reg := ⟨0x40058, 0x100, 32, 0x0, 1, true, 0x0, 0xFFFFFFFFFFFFFFFF, 0x0, 0x0, 0x0, 0x0, 0xFFFFFFFFFFFFFFFF, 0x0⟩
/-- TB_ACC_MAX.VALUE. -/
def Fld.tbAccMaxValue : Fld := ⟨Reg.tbAccMax, 0, 64⟩

/-- TB_INNOV_MAX[32] (R93). -/
def Reg.tbInnovMax : Reg := ⟨0x40060, 0x100, 32, 0x0, 1, false, 0x0, 0xFFFFFFFF, 0x0, 0x0, 0x0, 0x0, 0xFFFFFFFF, 0x0⟩
/-- TB_INNOV_MAX.VALUE. -/
def Fld.tbInnovMaxValue : Fld := ⟨Reg.tbInnovMax, 0, 32⟩

/-- TB_REV[32] (R93). -/
def Reg.tbRev : Reg := ⟨0x40064, 0x100, 32, 0x0, 1, false, 0x0, 0xFFFFFFFF, 0x0, 0x0, 0x0, 0x0, 0xFFFFFFFF, 0x0⟩
/-- TB_REV.VALUE. -/
def Fld.tbRevValue : Fld := ⟨Reg.tbRev, 0, 32⟩

/-- TB_TIMEOUT[32] (R93). -/
def Reg.tbTimeout : Reg := ⟨0x40068, 0x100, 32, 0x0, 1, false, 0x0, 0xFFFFFFFF, 0x0, 0x0, 0x0, 0x0, 0xFFFFFFFF, 0x0⟩
/-- TB_TIMEOUT.VALUE. -/
def Fld.tbTimeoutValue : Fld := ⟨Reg.tbTimeout, 0, 32⟩

/-- TB_FAULT[32] (R93). -/
def Reg.tbFault : Reg := ⟨0x4006C, 0x100, 32, 0x0, 1, false, 0x0, 0x0, 0x0, 0x0, 0x3F, 0x0, 0x3F3F, 0x0⟩
/-- TB_FAULT.LATCHED. -/
def Fld.tbFaultLatched : Fld := ⟨Reg.tbFault, 0, 6⟩
/-- TB_FAULT.ACTIVE. -/
def Fld.tbFaultActive : Fld := ⟨Reg.tbFault, 8, 6⟩

/-- TB_ERRCNT[32] (R93). -/
def Reg.tbErrcnt : Reg := ⟨0x40070, 0x100, 32, 0x0, 1, false, 0x0, 0x0, 0x0, 0x0, 0x0, 0x0, 0xFFFFFFFF, 0x0⟩
/-- TB_ERRCNT.BAD_FRAMES. -/
def Fld.tbErrcntBadFrames : Fld := ⟨Reg.tbErrcnt, 0, 16⟩
/-- TB_ERRCNT.LOST_EDGES. -/
def Fld.tbErrcntLostEdges : Fld := ⟨Reg.tbErrcnt, 16, 16⟩

/-- TB_DT (R93). -/
def Reg.tbDt : Reg := ⟨0x42000, 0x0, 1, 0x0, 1, true, 0x0, 0x0, 0x0, 0x0, 0x0, 0x0, 0xFFFFFFFFFFFFFFFF, 0x0⟩
/-- TB_DT.VALUE. -/
def Fld.tbDtValue : Fld := ⟨Reg.tbDt, 0, 64⟩

/-- TB_REFUSE (R93). -/
def Reg.tbRefuse : Reg := ⟨0x42008, 0x0, 1, 0x0, 1, false, 0x0, 0x0, 0x0, 0x0, 0x80000000, 0x0, 0x0, 0x0⟩
/-- TB_REFUSE.CODE. -/
def Fld.tbRefuseCode : Fld := ⟨Reg.tbRefuse, 0, 16⟩
/-- TB_REFUSE.TB. -/
def Fld.tbRefuseTb : Fld := ⟨Reg.tbRefuse, 16, 5⟩
/-- TB_REFUSE.COUNT. -/
def Fld.tbRefuseCount : Fld := ⟨Reg.tbRefuse, 24, 4⟩
/-- TB_REFUSE.VALID. -/
def Fld.tbRefuseValid : Fld := ⟨Reg.tbRefuse, 31, 1⟩

/-- TB_SNAP_MASK (R93). -/
def Reg.tbSnapMask : Reg := ⟨0x42010, 0x0, 1, 0x0, 1, false, 0x0, 0xFFFFFFFF, 0x0, 0x0, 0x0, 0x0, 0xFFFFFFFF, 0x0⟩
/-- TB_SNAP_MASK.VALUE. -/
def Fld.tbSnapMaskValue : Fld := ⟨Reg.tbSnapMask, 0, 32⟩

/-- TB_SNAP_CTL (R93). -/
def Reg.tbSnapCtl : Reg := ⟨0x42014, 0x0, 1, 0x0, 1, false, 0x0, 0x0, 0x0, 0x0, 0x0, 0x1, 0x0, 0x0⟩
/-- TB_SNAP_CTL.GO. -/
def Fld.tbSnapCtlGo : Fld := ⟨Reg.tbSnapCtl, 0, 1⟩
/-- TB_SNAP_CTL.DONE. -/
def Fld.tbSnapCtlDone : Fld := ⟨Reg.tbSnapCtl, 1, 1⟩

/-- TB_SNAP_DT (R93). -/
def Reg.tbSnapDt : Reg := ⟨0x42018, 0x0, 1, 0x0, 1, true, 0x0, 0x0, 0x0, 0x0, 0x0, 0x0, 0x0, 0x0⟩
/-- TB_SNAP_DT.VALUE. -/
def Fld.tbSnapDtValue : Fld := ⟨Reg.tbSnapDt, 0, 64⟩

/-- TB_SNAP_POS[32] (R93). -/
def Reg.tbSnapPos : Reg := ⟨0x42100, 0x20, 32, 0x0, 1, true, 0x0, 0x0, 0x0, 0x0, 0x0, 0x0, 0x0, 0x0⟩
/-- TB_SNAP_POS.VALUE. -/
def Fld.tbSnapPosValue : Fld := ⟨Reg.tbSnapPos, 0, 64⟩

/-- TB_SNAP_VEL[32] (R93). -/
def Reg.tbSnapVel : Reg := ⟨0x42108, 0x20, 32, 0x0, 1, true, 0x0, 0x0, 0x0, 0x0, 0x0, 0x0, 0x0, 0x0⟩
/-- TB_SNAP_VEL.VALUE. -/
def Fld.tbSnapVelValue : Fld := ⟨Reg.tbSnapVel, 0, 64⟩

/-- TB_SNAP_ACC[32] (R93). -/
def Reg.tbSnapAcc : Reg := ⟨0x42110, 0x20, 32, 0x0, 1, true, 0x0, 0x0, 0x0, 0x0, 0x0, 0x0, 0x0, 0x0⟩
/-- TB_SNAP_ACC.VALUE. -/
def Fld.tbSnapAccValue : Fld := ⟨Reg.tbSnapAcc, 0, 64⟩

/-- TB_SNAP_STAT[32] (R93). -/
def Reg.tbSnapStat : Reg := ⟨0x42118, 0x20, 32, 0x0, 1, false, 0x0, 0x0, 0x0, 0x0, 0x0, 0x0, 0x0, 0x0⟩
/-- TB_SNAP_STAT.VALUE. -/
def Fld.tbSnapStatValue : Fld := ⟨Reg.tbSnapStat, 0, 32⟩

/-- EVT_CFG[2] (R145). -/
def Reg.evtCfg : Reg := ⟨0x50000, 0x4, 2, 0x0, 1, false, 0xA48, 0x11F7F, 0x0, 0x0, 0x0, 0x20000, 0x11F7F, 0x0⟩
/-- EVT_CFG.HORIZON. -/
def Fld.evtCfgHorizon : Fld := ⟨Reg.evtCfg, 0, 6⟩
/-- EVT_CFG.CAL_EN. -/
def Fld.evtCfgCalEn : Fld := ⟨Reg.evtCfg, 6, 1⟩
/-- EVT_CFG.TMAX. -/
def Fld.evtCfgTmax : Fld := ⟨Reg.evtCfg, 8, 5⟩
/-- EVT_CFG.NOTE_EN. -/
def Fld.evtCfgNoteEn : Fld := ⟨Reg.evtCfg, 16, 1⟩
/-- EVT_CFG.CNT_CLR. -/
def Fld.evtCfgCntClr : Fld := ⟨Reg.evtCfg, 17, 1⟩

/-- EVT_KILL (R145). -/
def Reg.evtKill : Reg := ⟨0x50008, 0x0, 1, 0x0, 1, false, 0x0, 0x0, 0x3F03, 0x0, 0x0, 0x80000000, 0x0, 0x0⟩
/-- EVT_KILL.MODE. -/
def Fld.evtKillMode : Fld := ⟨Reg.evtKill, 0, 2⟩
/-- EVT_KILL.INDEX. -/
def Fld.evtKillIndex : Fld := ⟨Reg.evtKill, 8, 6⟩
/-- EVT_KILL.GO. -/
def Fld.evtKillGo : Fld := ⟨Reg.evtKill, 31, 1⟩

/-- EVT_REFUSE (R145). -/
def Reg.evtRefuse : Reg := ⟨0x5000C, 0x0, 1, 0x0, 1, false, 0x0, 0x0, 0x0, 0x0, 0x80000000, 0x0, 0x0, 0x0⟩
/-- EVT_REFUSE.CODE. -/
def Fld.evtRefuseCode : Fld := ⟨Reg.evtRefuse, 0, 16⟩
/-- EVT_REFUSE.INDEX. -/
def Fld.evtRefuseIndex : Fld := ⟨Reg.evtRefuse, 16, 8⟩
/-- EVT_REFUSE.COUNT. -/
def Fld.evtRefuseCount : Fld := ⟨Reg.evtRefuse, 24, 4⟩
/-- EVT_REFUSE.VALID. -/
def Fld.evtRefuseValid : Fld := ⟨Reg.evtRefuse, 31, 1⟩

/-- EVT_STAT[2] (R145). -/
def Reg.evtStat : Reg := ⟨0x50010, 0x4, 2, 0x0, 1, false, 0x0, 0x0, 0x0, 0x0, 0x0, 0x0, 0x200000, 0x800000⟩
/-- EVT_STAT.ARMED. -/
def Fld.evtStatArmed : Fld := ⟨Reg.evtStat, 0, 12⟩
/-- EVT_STAT.IN_HORIZON. -/
def Fld.evtStatInHorizon : Fld := ⟨Reg.evtStat, 12, 9⟩
/-- EVT_STAT.CLK_DEGRADED. -/
def Fld.evtStatClkDegraded : Fld := ⟨Reg.evtStat, 21, 1⟩
/-- EVT_STAT.CAL_AGED. -/
def Fld.evtStatCalAged : Fld := ⟨Reg.evtStat, 22, 1⟩
/-- EVT_STAT.DISCARDED. -/
def Fld.evtStatDiscarded : Fld := ⟨Reg.evtStat, 23, 1⟩

/-- EVT_CNT[2] (R145). -/
def Reg.evtCnt : Reg := ⟨0x50018, 0x8, 2, 0x0, 1, true, 0x0, 0x0, 0x0, 0x0, 0x0, 0x0, 0xFFFFFFFFFFFFFFFF, 0x0⟩
/-- EVT_CNT.LATE. -/
def Fld.evtCntLate : Fld := ⟨Reg.evtCnt, 0, 16⟩
/-- EVT_CNT.MISSED. -/
def Fld.evtCntMissed : Fld := ⟨Reg.evtCnt, 16, 16⟩
/-- EVT_CNT.COLLIDED. -/
def Fld.evtCntCollided : Fld := ⟨Reg.evtCnt, 32, 16⟩
/-- EVT_CNT.OVERRUN. -/
def Fld.evtCntOverrun : Fld := ⟨Reg.evtCnt, 48, 16⟩

/-- EVT_SLOT_SEL (R145). -/
def Reg.evtSlotSel : Reg := ⟨0x50040, 0x0, 1, 0x0, 1, false, 0x0, 0xFFF, 0x0, 0x0, 0x0, 0x0, 0x0, 0x0⟩
/-- EVT_SLOT_SEL.SLOT. -/
def Fld.evtSlotSelSlot : Fld := ⟨Reg.evtSlotSel, 0, 12⟩
/-- EVT_SLOT_SEL.DONE. -/
def Fld.evtSlotSelDone : Fld := ⟨Reg.evtSlotSel, 16, 1⟩

/-- EVT_SLOT_STAT (R145). -/
def Reg.evtSlotStat : Reg := ⟨0x50048, 0x0, 1, 0x0, 1, false, 0x0, 0x0, 0x0, 0x0, 0x0, 0x0, 0x0, 0x0⟩
/-- EVT_SLOT_STAT.STATE. -/
def Fld.evtSlotStatState : Fld := ⟨Reg.evtSlotStat, 0, 3⟩
/-- EVT_SLOT_STAT.REMAIN. -/
def Fld.evtSlotStatRemain : Fld := ⟨Reg.evtSlotStat, 4, 16⟩
/-- EVT_SLOT_STAT.ARMER. -/
def Fld.evtSlotStatArmer : Fld := ⟨Reg.evtSlotStat, 20, 8⟩

/-- EVT_SLOT_PRED (R145). -/
def Reg.evtSlotPred : Reg := ⟨0x50050, 0x0, 1, 0x0, 1, true, 0x0, 0x0, 0x0, 0x0, 0x0, 0x0, 0x0, 0x0⟩
/-- EVT_SLOT_PRED.VALUE. -/
def Fld.evtSlotPredValue : Fld := ⟨Reg.evtSlotPred, 0, 64⟩

/-- EVT_SLOT_IMG[4] (R145). -/
def Reg.evtSlotImg : Reg := ⟨0x50060, 0x8, 4, 0x0, 1, true, 0x0, 0x0, 0x0, 0x0, 0x0, 0x0, 0x0, 0x0⟩
/-- EVT_SLOT_IMG.VALUE. -/
def Fld.evtSlotImgValue : Fld := ⟨Reg.evtSlotImg, 0, 64⟩

/-- EVT_LINE_CFG[64] (R145). -/
def Reg.evtLineCfg : Reg := ⟨0x51000, 0x10, 64, 0x0, 1, false, 0xFF000, 0xFF000, 0x7FF, 0x0, 0x0, 0x0, 0xFF7FF, 0x0⟩
/-- EVT_LINE_CFG.OWNER. -/
def Fld.evtLineCfgOwner : Fld := ⟨Reg.evtLineCfg, 0, 8⟩
/-- EVT_LINE_CFG.SHARED. -/
def Fld.evtLineCfgShared : Fld := ⟨Reg.evtLineCfg, 8, 1⟩
/-- EVT_LINE_CFG.KILL_LEVEL. -/
def Fld.evtLineCfgKillLevel : Fld := ⟨Reg.evtLineCfg, 9, 2⟩
/-- EVT_LINE_CFG.COMP_PORT. -/
def Fld.evtLineCfgCompPort : Fld := ⟨Reg.evtLineCfg, 12, 8⟩

/-- EVT_LINE_STAT[64] (R145). -/
def Reg.evtLineStat : Reg := ⟨0x51004, 0x10, 64, 0x0, 1, false, 0x0, 0x0, 0x0, 0x0, 0x0, 0x0, 0x0, 0x0⟩
/-- EVT_LINE_STAT.LEVEL. -/
def Fld.evtLineStatLevel : Fld := ⟨Reg.evtLineStat, 0, 1⟩
/-- EVT_LINE_STAT.OUT. -/
def Fld.evtLineStatOut : Fld := ⟨Reg.evtLineStat, 1, 1⟩
/-- EVT_LINE_STAT.PULSES. -/
def Fld.evtLineStatPulses : Fld := ⟨Reg.evtLineStat, 2, 4⟩
/-- EVT_LINE_STAT.QUEUE. -/
def Fld.evtLineStatQueue : Fld := ⟨Reg.evtLineStat, 6, 5⟩
/-- EVT_LINE_STAT.CAL_AGED. -/
def Fld.evtLineStatCalAged : Fld := ⟨Reg.evtLineStat, 11, 1⟩

/-- EVT_CAP_CFG[64] (R145). -/
def Reg.evtCapCfg : Reg := ⟨0x52000, 0x10, 64, 0x0, 1, false, 0x0, 0x7FF, 0xFF800, 0x0, 0x0, 0x0, 0xFFFFF, 0x0⟩
/-- EVT_CAP_CFG.INPUT. -/
def Fld.evtCapCfgInput : Fld := ⟨Reg.evtCapCfg, 0, 8⟩
/-- EVT_CAP_CFG.FABRIC. -/
def Fld.evtCapCfgFabric : Fld := ⟨Reg.evtCapCfg, 8, 1⟩
/-- EVT_CAP_CFG.EDGE. -/
def Fld.evtCapCfgEdge : Fld := ⟨Reg.evtCapCfg, 9, 2⟩
/-- EVT_CAP_CFG.OWNER. -/
def Fld.evtCapCfgOwner : Fld := ⟨Reg.evtCapCfg, 11, 8⟩
/-- EVT_CAP_CFG.SHARED. -/
def Fld.evtCapCfgShared : Fld := ⟨Reg.evtCapCfg, 19, 1⟩

/-- EVT_CAP_STAT[64] (R145). -/
def Reg.evtCapStat : Reg := ⟨0x52004, 0x10, 64, 0x0, 1, false, 0x0, 0x0, 0x0, 0x0, 0x0, 0x0, 0x0, 0x0⟩
/-- EVT_CAP_STAT.OPEN. -/
def Fld.evtCapStatOpen : Fld := ⟨Reg.evtCapStat, 0, 1⟩
/-- EVT_CAP_STAT.CAL_AGED. -/
def Fld.evtCapStatCalAged : Fld := ⟨Reg.evtCapStat, 1, 1⟩

/-- STW_SPORT_CFG[106] (R231). -/
def Reg.stwSportCfg : Reg := ⟨0xF0800, 0x10, 106, 0x0, 1, false, 0x4, 0xF, 0x0, 0x0, 0x0, 0x10, 0xF, 0x0⟩
/-- STW_SPORT_CFG.URGENT. -/
def Fld.stwSportCfgUrgent : Fld := ⟨Reg.stwSportCfg, 0, 1⟩
/-- STW_SPORT_CFG.IN_EN. -/
def Fld.stwSportCfgInEn : Fld := ⟨Reg.stwSportCfg, 1, 1⟩
/-- STW_SPORT_CFG.TIMEOUT. -/
def Fld.stwSportCfgTimeout : Fld := ⟨Reg.stwSportCfg, 2, 2⟩
/-- STW_SPORT_CFG.CNT_CLR. -/
def Fld.stwSportCfgCntClr : Fld := ⟨Reg.stwSportCfg, 4, 1⟩

/-- STW_SPORT_STAT[106] (R231). -/
def Reg.stwSportStat : Reg := ⟨0xF0804, 0x10, 106, 0x0, 1, false, 0x0, 0x0, 0x0, 0x0, 0x0, 0x80000000, 0x0, 0x0⟩
/-- STW_SPORT_STAT.INFLIGHT. -/
def Fld.stwSportStatInflight : Fld := ⟨Reg.stwSportStat, 0, 9⟩
/-- STW_SPORT_STAT.DARK. -/
def Fld.stwSportStatDark : Fld := ⟨Reg.stwSportStat, 9, 1⟩
/-- STW_SPORT_STAT.WAITING. -/
def Fld.stwSportStatWaiting : Fld := ⟨Reg.stwSportStat, 10, 1⟩
/-- STW_SPORT_STAT.PEAK. -/
def Fld.stwSportStatPeak : Fld := ⟨Reg.stwSportStat, 16, 9⟩
/-- STW_SPORT_STAT.PEAK_CLR. -/
def Fld.stwSportStatPeakClr : Fld := ⟨Reg.stwSportStat, 31, 1⟩

/-- STW_SPORT_CNT[106] (R231). -/
def Reg.stwSportCnt : Reg := ⟨0xF0808, 0x10, 106, 0x0, 1, true, 0x0, 0x0, 0x0, 0x0, 0x0, 0x0, 0xFFFFFFFFFFFFFFFF, 0x0⟩
/-- STW_SPORT_CNT.DISCARD. -/
def Fld.stwSportCntDiscard : Fld := ⟨Reg.stwSportCnt, 0, 16⟩
/-- STW_SPORT_CNT.TIMEOUT. -/
def Fld.stwSportCntTimeout : Fld := ⟨Reg.stwSportCnt, 16, 16⟩
/-- STW_SPORT_CNT.REFUSED. -/
def Fld.stwSportCntRefused : Fld := ⟨Reg.stwSportCnt, 32, 16⟩
/-- STW_SPORT_CNT.POOL_WAIT. -/
def Fld.stwSportCntPoolWait : Fld := ⟨Reg.stwSportCnt, 48, 16⟩

/-- STW_SPINE_STAT (R231). -/
def Reg.stwSpineStat : Reg := ⟨0xF0F00, 0x0, 1, 0x0, 1, false, 0x0, 0x0, 0x0, 0x0, 0x0, 0x80000000, 0x0, 0x0⟩
/-- STW_SPINE_STAT.INFLIGHT. -/
def Fld.stwSpineStatInflight : Fld := ⟨Reg.stwSpineStat, 0, 12⟩
/-- STW_SPINE_STAT.PEAK. -/
def Fld.stwSpineStatPeak : Fld := ⟨Reg.stwSpineStat, 12, 12⟩
/-- STW_SPINE_STAT.PEAK_CLR. -/
def Fld.stwSpineStatPeakClr : Fld := ⟨Reg.stwSpineStat, 31, 1⟩

/-- STW_TOK_DEST[64] (R231). -/
def Reg.stwTokDest : Reg := ⟨0xF0F40, 0x4, 64, 0x0, 1, false, 0x0, 0xFF, 0x0, 0x0, 0x0, 0x0, 0xFF, 0x0⟩
/-- STW_TOK_DEST.SECTOR. -/
def Fld.stwTokDestSector : Fld := ⟨Reg.stwTokDest, 0, 7⟩
/-- STW_TOK_DEST.BOUND. -/
def Fld.stwTokDestBound : Fld := ⟨Reg.stwTokDest, 7, 1⟩

/-- BNK_OWN[1280] (R274). -/
def Reg.bnkOwn : Reg := ⟨0x60000, 0x10, 1280, 0x0, 1, false, 0x0, 0x0, 0x7FFF, 0x0, 0x0, 0x0, 0x7FFF, 0x0⟩
/-- BNK_OWN.OWNER. -/
def Fld.bnkOwnOwner : Fld := ⟨Reg.bnkOwn, 0, 8⟩
/-- BNK_OWN.FAB_SECTOR. -/
def Fld.bnkOwnFabSector : Fld := ⟨Reg.bnkOwn, 8, 7⟩

/-- BNK_CTL[1280] (R274). -/
def Reg.bnkCtl : Reg := ⟨0x60004, 0x10, 1280, 0x0, 1, false, 0x0, 0x1, 0x2, 0x0, 0x0, 0x4, 0x1, 0x0⟩
/-- BNK_CTL.RET. -/
def Fld.bnkCtlRet : Fld := ⟨Reg.bnkCtl, 0, 1⟩
/-- BNK_CTL.PINJ. -/
def Fld.bnkCtlPinj : Fld := ⟨Reg.bnkCtl, 1, 1⟩
/-- BNK_CTL.CNT_CLR. -/
def Fld.bnkCtlCntClr : Fld := ⟨Reg.bnkCtl, 2, 1⟩

/-- BNK_STAT[1280] (R274). -/
def Reg.bnkStat : Reg := ⟨0x60008, 0x10, 1280, 0x0, 1, false, 0x0, 0x0, 0x0, 0x0, 0x0, 0x0, 0x77, 0x0⟩
/-- BNK_STAT.PSTATE. -/
def Fld.bnkStatPstate : Fld := ⟨Reg.bnkStat, 0, 3⟩
/-- BNK_STAT.DRAINING. -/
def Fld.bnkStatDraining : Fld := ⟨Reg.bnkStat, 3, 1⟩
/-- BNK_STAT.QBOUND. -/
def Fld.bnkStatQbound : Fld := ⟨Reg.bnkStat, 4, 1⟩
/-- BNK_STAT.DUAL. -/
def Fld.bnkStatDual : Fld := ⟨Reg.bnkStat, 5, 1⟩
/-- BNK_STAT.SLEEP_PEND. -/
def Fld.bnkStatSleepPend : Fld := ⟨Reg.bnkStat, 6, 1⟩

/-- BNK_CNT[1280] (R274). -/
def Reg.bnkCnt : Reg := ⟨0x6000C, 0x10, 1280, 0x0, 1, false, 0x0, 0x0, 0x0, 0x0, 0x0, 0x0, 0xFFFFFFFF, 0x0⟩
/-- BNK_CNT.PERR. -/
def Fld.bnkCntPerr : Fld := ⟨Reg.bnkCnt, 0, 16⟩
/-- BNK_CNT.DROPPED. -/
def Fld.bnkCntDropped : Fld := ⟨Reg.bnkCnt, 16, 16⟩

/-- BNK_CONF[209] (R274). -/
def Reg.bnkConf : Reg := ⟨0x66000, 0x4, 209, 0x0, 1, false, 0x0, 0x0, 0x0, 0x0, 0x0, 0x0, 0xFFFF, 0x0⟩
/-- BNK_CONF.LOSSES. -/
def Fld.bnkConfLosses : Fld := ⟨Reg.bnkConf, 0, 16⟩

/-- BNK_PERR (R274). -/
def Reg.bnkPerr : Reg := ⟨0x66400, 0x0, 1, 0x0, 1, false, 0x0, 0x0, 0x0, 0x0, 0x80000000, 0x0, 0xFFFFFFFF, 0x0⟩
/-- BNK_PERR.WORD. -/
def Fld.bnkPerrWord : Fld := ⟨Reg.bnkPerr, 0, 9⟩
/-- BNK_PERR.BANK. -/
def Fld.bnkPerrBank : Fld := ⟨Reg.bnkPerr, 9, 11⟩
/-- BNK_PERR.BYTES. -/
def Fld.bnkPerrBytes : Fld := ⟨Reg.bnkPerr, 20, 8⟩
/-- BNK_PERR.SIDE. -/
def Fld.bnkPerrSide : Fld := ⟨Reg.bnkPerr, 28, 2⟩
/-- BNK_PERR.MULTI. -/
def Fld.bnkPerrMulti : Fld := ⟨Reg.bnkPerr, 30, 1⟩
/-- BNK_PERR.VALID. -/
def Fld.bnkPerrValid : Fld := ⟨Reg.bnkPerr, 31, 1⟩

/-- BNK_REFUSE (R274). -/
def Reg.bnkRefuse : Reg := ⟨0x66404, 0x0, 1, 0x0, 1, false, 0x0, 0x0, 0x0, 0x0, 0x80000000, 0x0, 0x0, 0x0⟩
/-- BNK_REFUSE.CODE. -/
def Fld.bnkRefuseCode : Fld := ⟨Reg.bnkRefuse, 0, 16⟩
/-- BNK_REFUSE.INDEX. -/
def Fld.bnkRefuseIndex : Fld := ⟨Reg.bnkRefuse, 16, 11⟩
/-- BNK_REFUSE.KIND. -/
def Fld.bnkRefuseKind : Fld := ⟨Reg.bnkRefuse, 27, 1⟩
/-- BNK_REFUSE.COUNT. -/
def Fld.bnkRefuseCount : Fld := ⟨Reg.bnkRefuse, 28, 3⟩
/-- BNK_REFUSE.VALID. -/
def Fld.bnkRefuseValid : Fld := ⟨Reg.bnkRefuse, 31, 1⟩

/-- BNK_GCTL (R274). -/
def Reg.bnkGctl : Reg := ⟨0x66408, 0x0, 1, 0x0, 1, false, 0x0, 0x1, 0x0, 0x0, 0x0, 0x2, 0x1, 0x0⟩
/-- BNK_GCTL.NOTE_EN. -/
def Fld.bnkGctlNoteEn : Fld := ⟨Reg.bnkGctl, 0, 1⟩
/-- BNK_GCTL.CONF_CLR. -/
def Fld.bnkGctlConfClr : Fld := ⟨Reg.bnkGctl, 1, 1⟩

/-- QUE_CFG[160] (R274). -/
def Reg.queCfg : Reg := ⟨0x70000, 0x20, 160, 0x0, 1, false, 0x0, 0x1FFFFF, 0x0, 0x0, 0x0, 0x0, 0x1FFFFF, 0x0⟩
/-- QUE_CFG.PROD_PORT. -/
def Fld.queCfgProdPort : Fld := ⟨Reg.queCfg, 0, 1⟩
/-- QUE_CFG.CONS_PORT. -/
def Fld.queCfgConsPort : Fld := ⟨Reg.queCfg, 1, 1⟩
/-- QUE_CFG.PROD_OWNER. -/
def Fld.queCfgProdOwner : Fld := ⟨Reg.queCfg, 2, 8⟩
/-- QUE_CFG.CONS_OWNER. -/
def Fld.queCfgConsOwner : Fld := ⟨Reg.queCfg, 10, 8⟩
/-- QUE_CFG.FLOW_POL. -/
def Fld.queCfgFlowPol : Fld := ⟨Reg.queCfg, 18, 1⟩
/-- QUE_CFG.NOTE_EN. -/
def Fld.queCfgNoteEn : Fld := ⟨Reg.queCfg, 19, 1⟩
/-- QUE_CFG.ITEMS. -/
def Fld.queCfgItems : Fld := ⟨Reg.queCfg, 20, 1⟩

/-- QUE_CTL[160] (R274). -/
def Reg.queCtl : Reg := ⟨0x70004, 0x20, 160, 0x0, 1, false, 0x0, 0x1, 0x0, 0x0, 0x0, 0x6, 0x1, 0x0⟩
/-- QUE_CTL.EN. -/
def Fld.queCtlEn : Fld := ⟨Reg.queCtl, 0, 1⟩
/-- QUE_CTL.FLUSH. -/
def Fld.queCtlFlush : Fld := ⟨Reg.queCtl, 1, 1⟩
/-- QUE_CTL.CNT_CLR. -/
def Fld.queCtlCntClr : Fld := ⟨Reg.queCtl, 2, 1⟩

/-- QUE_WM[160] (R274). -/
def Reg.queWm : Reg := ⟨0x70008, 0x20, 160, 0x0, 1, false, 0x0, 0x7FF07FF, 0x0, 0x0, 0x0, 0x0, 0x7FF07FF, 0x0⟩
/-- QUE_WM.HIGH. -/
def Fld.queWmHigh : Fld := ⟨Reg.queWm, 0, 11⟩
/-- QUE_WM.LOW. -/
def Fld.queWmLow : Fld := ⟨Reg.queWm, 16, 11⟩

/-- QUE_STAT[160] (R274). -/
def Reg.queStat : Reg := ⟨0x7000C, 0x20, 160, 0x0, 1, false, 0x4, 0x0, 0x0, 0x0, 0x1C0, 0x0, 0x1C0, 0x4⟩
/-- QUE_STAT.STATE. -/
def Fld.queStatState : Fld := ⟨Reg.queStat, 0, 2⟩
/-- QUE_STAT.EMPTY. -/
def Fld.queStatEmpty : Fld := ⟨Reg.queStat, 2, 1⟩
/-- QUE_STAT.FULL. -/
def Fld.queStatFull : Fld := ⟨Reg.queStat, 3, 1⟩
/-- QUE_STAT.XOFF. -/
def Fld.queStatXoff : Fld := ⟨Reg.queStat, 4, 1⟩
/-- QUE_STAT.FILLING. -/
def Fld.queStatFilling : Fld := ⟨Reg.queStat, 5, 1⟩
/-- QUE_STAT.UNDERRUN. -/
def Fld.queStatUnderrun : Fld := ⟨Reg.queStat, 6, 1⟩
/-- QUE_STAT.POISONED. -/
def Fld.queStatPoisoned : Fld := ⟨Reg.queStat, 7, 1⟩
/-- QUE_STAT.OVERFLOW. -/
def Fld.queStatOverflow : Fld := ⟨Reg.queStat, 8, 1⟩
/-- QUE_STAT.CUT_PEND. -/
def Fld.queStatCutPend : Fld := ⟨Reg.queStat, 9, 1⟩
/-- QUE_STAT.FILL. -/
def Fld.queStatFill : Fld := ⟨Reg.queStat, 10, 11⟩

/-- QUE_CNT[160] (R274). -/
def Reg.queCnt : Reg := ⟨0x70010, 0x20, 160, 0x0, 1, true, 0x0, 0x0, 0x0, 0x0, 0x0, 0x0, 0xFFFFFFFFFFFFFFFF, 0x0⟩
/-- QUE_CNT.DROPPED. -/
def Fld.queCntDropped : Fld := ⟨Reg.queCnt, 0, 16⟩
/-- QUE_CNT.UNDERRUNS. -/
def Fld.queCntUnderruns : Fld := ⟨Reg.queCnt, 16, 16⟩
/-- QUE_CNT.POISONED. -/
def Fld.queCntPoisoned : Fld := ⟨Reg.queCnt, 32, 16⟩
/-- QUE_CNT.FLUSHES. -/
def Fld.queCntFlushes : Fld := ⟨Reg.queCnt, 48, 16⟩

/-- QUE_LAST[160] (R274). -/
def Reg.queLast : Reg := ⟨0x70018, 0x20, 160, 0x0, 1, true, 0x0, 0x0, 0x0, 0x0, 0x0, 0x0, 0x0, 0x0⟩
/-- QUE_LAST.VALUE. -/
def Fld.queLastValue : Fld := ⟨Reg.queLast, 0, 64⟩

/-- CLK_SRC (R317). -/
def Reg.clkSrc : Reg := ⟨0x20000, 0x0, 1, 0x0, 1, false, 0x8, 0x0, 0xB, 0x0, 0x0, 0x0, 0x7B, 0x0⟩
/-- CLK_SRC.SEL. -/
def Fld.clkSrcSel : Fld := ⟨Reg.clkSrc, 0, 2⟩
/-- CLK_SRC.AUTO_RET. -/
def Fld.clkSrcAutoRet : Fld := ⟨Reg.clkSrc, 3, 1⟩
/-- CLK_SRC.ACTIVE. -/
def Fld.clkSrcActive : Fld := ⟨Reg.clkSrc, 4, 3⟩
/-- CLK_SRC.SWITCHING. -/
def Fld.clkSrcSwitching : Fld := ⟨Reg.clkSrc, 7, 1⟩

/-- CLK_STAT (R317). -/
def Reg.clkStat : Reg := ⟨0x20004, 0x0, 1, 0x0, 1, false, 0x0, 0x0, 0x0, 0x0, 0x30000, 0x0, 0xFF03FEFF, 0x0⟩
/-- CLK_STAT.ROOT_LOCKED. -/
def Fld.clkStatRootLocked : Fld := ⟨Reg.clkStat, 0, 1⟩
/-- CLK_STAT.XTAL_READY. -/
def Fld.clkStatXtalReady : Fld := ⟨Reg.clkStat, 1, 1⟩
/-- CLK_STAT.REFIN_READY. -/
def Fld.clkStatRefinReady : Fld := ⟨Reg.clkStat, 2, 1⟩
/-- CLK_STAT.TETHER0_READY. -/
def Fld.clkStatTether0Ready : Fld := ⟨Reg.clkStat, 3, 1⟩
/-- CLK_STAT.TETHER1_READY. -/
def Fld.clkStatTether1Ready : Fld := ⟨Reg.clkStat, 4, 1⟩
/-- CLK_STAT.INTOSC_OK. -/
def Fld.clkStatIntoscOk : Fld := ⟨Reg.clkStat, 5, 1⟩
/-- CLK_STAT.LOSS. -/
def Fld.clkStatLoss : Fld := ⟨Reg.clkStat, 6, 1⟩
/-- CLK_STAT.HOLDOVER. -/
def Fld.clkStatHoldover : Fld := ⟨Reg.clkStat, 7, 1⟩
/-- CLK_STAT.SLEWING. -/
def Fld.clkStatSlewing : Fld := ⟨Reg.clkStat, 8, 1⟩
/-- CLK_STAT.LOSS_CAUSE. -/
def Fld.clkStatLossCause : Fld := ⟨Reg.clkStat, 9, 3⟩
/-- CLK_STAT.OSC_DLY. -/
def Fld.clkStatOscDly : Fld := ⟨Reg.clkStat, 12, 3⟩
/-- CLK_STAT.XTAL_RUN. -/
def Fld.clkStatXtalRun : Fld := ⟨Reg.clkStat, 15, 1⟩
/-- CLK_STAT.INTOSC_FAIL. -/
def Fld.clkStatIntoscFail : Fld := ⟨Reg.clkStat, 16, 1⟩
/-- CLK_STAT.LOSS_SEEN. -/
def Fld.clkStatLossSeen : Fld := ⟨Reg.clkStat, 17, 1⟩
/-- CLK_STAT.LOSS_COUNT. -/
def Fld.clkStatLossCount : Fld := ⟨Reg.clkStat, 24, 8⟩

/-- CLK_MON (R317). -/
def Reg.clkMon : Reg := ⟨0x20008, 0x0, 1, 0x0, 1, false, 0x0, 0x0, 0x0, 0x0, 0x0, 0x80000000, 0x7FF07FF, 0x0⟩
/-- CLK_MON.REF_COUNT. -/
def Fld.clkMonRefCount : Fld := ⟨Reg.clkMon, 0, 11⟩
/-- CLK_MON.MIN_COUNT. -/
def Fld.clkMonMinCount : Fld := ⟨Reg.clkMon, 16, 11⟩
/-- CLK_MON.MIN_CLR. -/
def Fld.clkMonMinClr : Fld := ⟨Reg.clkMon, 31, 1⟩

/-- CLK_REFUSE (R317). -/
def Reg.clkRefuse : Reg := ⟨0x2000C, 0x0, 1, 0x0, 1, false, 0x0, 0x0, 0x0, 0x0, 0x80000000, 0x0, 0x0, 0x0⟩
/-- CLK_REFUSE.CODE. -/
def Fld.clkRefuseCode : Fld := ⟨Reg.clkRefuse, 0, 16⟩
/-- CLK_REFUSE.CAUSE. -/
def Fld.clkRefuseCause : Fld := ⟨Reg.clkRefuse, 16, 3⟩
/-- CLK_REFUSE.INDEX. -/
def Fld.clkRefuseIndex : Fld := ⟨Reg.clkRefuse, 19, 5⟩
/-- CLK_REFUSE.COUNT. -/
def Fld.clkRefuseCount : Fld := ⟨Reg.clkRefuse, 24, 4⟩
/-- CLK_REFUSE.VALID. -/
def Fld.clkRefuseValid : Fld := ⟨Reg.clkRefuse, 31, 1⟩

/-- CLK_GCTL (R317). -/
def Reg.clkGctl : Reg := ⟨0x20010, 0x0, 1, 0x0, 1, false, 0x0, 0x1, 0x0, 0x0, 0x0, 0x2, 0x1, 0x0⟩
/-- CLK_GCTL.NOTE_EN. -/
def Fld.clkGctlNoteEn : Fld := ⟨Reg.clkGctl, 0, 1⟩
/-- CLK_GCTL.CNT_CLR. -/
def Fld.clkGctlCntClr : Fld := ⟨Reg.clkGctl, 1, 1⟩

/-- CLK_GATE[15] (R317). -/
def Reg.clkGate : Reg := ⟨0x20040, 0x4, 15, 0x0, 1, false, 0x10, 0x3FF, 0x0, 0x0, 0x0, 0x0, 0x3FF, 0x0⟩
/-- CLK_GATE.MODE. -/
def Fld.clkGateMode : Fld := ⟨Reg.clkGate, 0, 2⟩
/-- CLK_GATE.IDLE. -/
def Fld.clkGateIdle : Fld := ⟨Reg.clkGate, 2, 8⟩
/-- CLK_GATE.STATE. -/
def Fld.clkGateState : Fld := ⟨Reg.clkGate, 10, 2⟩

/-- CLK_XING_CNT[27] (R317). -/
def Reg.clkXingCnt : Reg := ⟨0x20100, 0x8, 27, 0x0, 1, true, 0x0, 0x0, 0x0, 0x0, 0x0, 0x0, 0xFFFFFFFFFFFFFFFF, 0x0⟩
/-- CLK_XING_CNT.OVERRUN. -/
def Fld.clkXingCntOverrun : Fld := ⟨Reg.clkXingCnt, 0, 16⟩
/-- CLK_XING_CNT.DISCARD. -/
def Fld.clkXingCntDiscard : Fld := ⟨Reg.clkXingCnt, 16, 16⟩
/-- CLK_XING_CNT.MERGED. -/
def Fld.clkXingCntMerged : Fld := ⟨Reg.clkXingCnt, 32, 16⟩
/-- CLK_XING_CNT.WAKES. -/
def Fld.clkXingCntWakes : Fld := ⟨Reg.clkXingCnt, 48, 16⟩

/-- ENG_CTL[96] (R357). -/
def Reg.engCtl : Reg := ⟨0x80000, 0x1000, 96, 0x0, 1, false, 0x0, 0x5, 0x0, 0x0, 0x0, 0x2, 0x5, 0x0⟩
/-- ENG_CTL.EN. -/
def Fld.engCtlEn : Fld := ⟨Reg.engCtl, 0, 1⟩
/-- ENG_CTL.CNT_CLR. -/
def Fld.engCtlCntClr : Fld := ⟨Reg.engCtl, 1, 1⟩
/-- ENG_CTL.NOTE_EN. -/
def Fld.engCtlNoteEn : Fld := ⟨Reg.engCtl, 2, 1⟩

/-- ENG_STAT[96] (R357). -/
def Reg.engStat : Reg := ⟨0x80004, 0x1000, 96, 0x0, 1, false, 0x0, 0x0, 0x0, 0x0, 0x0, 0x0, 0xF004, 0x0⟩
/-- ENG_STAT.STATE. -/
def Fld.engStatState : Fld := ⟨Reg.engStat, 0, 2⟩
/-- ENG_STAT.RETIRED. -/
def Fld.engStatRetired : Fld := ⟨Reg.engStat, 2, 1⟩
/-- ENG_STAT.BUSY. -/
def Fld.engStatBusy : Fld := ⟨Reg.engStat, 3, 1⟩
/-- ENG_STAT.CUR_CTX. -/
def Fld.engStatCurCtx : Fld := ⟨Reg.engStat, 4, 2⟩
/-- ENG_STAT.READY. -/
def Fld.engStatReady : Fld := ⟨Reg.engStat, 8, 4⟩
/-- ENG_STAT.FAULTED. -/
def Fld.engStatFaulted : Fld := ⟨Reg.engStat, 12, 4⟩
/-- ENG_STAT.ICH_NONEMPTY. -/
def Fld.engStatIchNonempty : Fld := ⟨Reg.engStat, 16, 8⟩

/-- ENG_REFUSE[96] (R357). -/
def Reg.engRefuse : Reg := ⟨0x80008, 0x1000, 96, 0x0, 1, false, 0x0, 0x0, 0x0, 0x0, 0x80000000, 0x0, 0x0, 0x0⟩
/-- ENG_REFUSE.CODE. -/
def Fld.engRefuseCode : Fld := ⟨Reg.engRefuse, 0, 16⟩
/-- ENG_REFUSE.CTX. -/
def Fld.engRefuseCtx : Fld := ⟨Reg.engRefuse, 16, 5⟩
/-- ENG_REFUSE.COUNT. -/
def Fld.engRefuseCount : Fld := ⟨Reg.engRefuse, 24, 4⟩
/-- ENG_REFUSE.VALID. -/
def Fld.engRefuseValid : Fld := ⟨Reg.engRefuse, 31, 1⟩

/-- ENG_CNT[96] (R357). -/
def Reg.engCnt : Reg := ⟨0x80010, 0x1000, 96, 0x0, 1, true, 0x0, 0x0, 0x0, 0x0, 0x0, 0x0, 0xFFFFFFFFFFFFFFFF, 0x0⟩
/-- ENG_CNT.ECC_CORR. -/
def Fld.engCntEccCorr : Fld := ⟨Reg.engCnt, 0, 16⟩
/-- ENG_CNT.ECC_UNCORR. -/
def Fld.engCntEccUncorr : Fld := ⟨Reg.engCnt, 16, 16⟩
/-- ENG_CNT.EVQ_LOST. -/
def Fld.engCntEvqLost : Fld := ⟨Reg.engCnt, 32, 16⟩
/-- ENG_CNT.CHAN_STALL. -/
def Fld.engCntChanStall : Fld := ⟨Reg.engCnt, 48, 16⟩

/-- ENG_ICH_STAT[96] (R357). -/
def Reg.engIchStat : Reg := ⟨0x80018, 0x1000, 96, 0x0, 1, false, 0x0, 0x0, 0x0, 0x0, 0x0, 0x0, 0x0, 0x0⟩
/-- ENG_ICH_STAT.VALUE. -/
def Fld.engIchStatValue : Fld := ⟨Reg.engIchStat, 0, 32⟩

/-- ENG_OCH_DEST[96][8] (R357). -/
def Reg.engOchDest : Reg := ⟨0x80040, 0x1000, 96, 0x8, 8, false, 0x0, 0x1FFFF, 0x0, 0x0, 0x0, 0x0, 0x1FFFF, 0x0⟩
/-- ENG_OCH_DEST.TARGET. -/
def Fld.engOchDestTarget : Fld := ⟨Reg.engOchDest, 0, 16⟩
/-- ENG_OCH_DEST.BOUND. -/
def Fld.engOchDestBound : Fld := ⟨Reg.engOchDest, 16, 1⟩

/-- ENG_CTX_CFG[96][4] (R357). -/
def Reg.engCtxCfg : Reg := ⟨0x80100, 0x1000, 96, 0x40, 4, false, 0x0, 0xFF3FFF, 0x0, 0x0, 0x0, 0x0, 0xFF3FFF, 0x0⟩
/-- ENG_CTX_CFG.PRIO. -/
def Fld.engCtxCfgPrio : Fld := ⟨Reg.engCtxCfg, 0, 2⟩
/-- ENG_CTX_CFG.PRIV. -/
def Fld.engCtxCfgPriv : Fld := ⟨Reg.engCtxCfg, 2, 1⟩
/-- ENG_CTX_CFG.ASID. -/
def Fld.engCtxCfgAsid : Fld := ⟨Reg.engCtxCfg, 3, 8⟩
/-- ENG_CTX_CFG.FAULT_ACT. -/
def Fld.engCtxCfgFaultAct : Fld := ⟨Reg.engCtxCfg, 11, 1⟩
/-- ENG_CTX_CFG.AUTOSTART. -/
def Fld.engCtxCfgAutostart : Fld := ⟨Reg.engCtxCfg, 12, 1⟩
/-- ENG_CTX_CFG.XFER_POLICY. -/
def Fld.engCtxCfgXferPolicy : Fld := ⟨Reg.engCtxCfg, 13, 1⟩
/-- ENG_CTX_CFG.WDOG. -/
def Fld.engCtxCfgWdog : Fld := ⟨Reg.engCtxCfg, 16, 8⟩

/-- ENG_CTX_CTL[96][4] (R357). -/
def Reg.engCtxCtl : Reg := ⟨0x80104, 0x1000, 96, 0x40, 4, false, 0x0, 0x0, 0x0, 0x0, 0x0, 0x3, 0x0, 0x0⟩
/-- ENG_CTX_CTL.START. -/
def Fld.engCtxCtlStart : Fld := ⟨Reg.engCtxCtl, 0, 1⟩
/-- ENG_CTX_CTL.STOP. -/
def Fld.engCtxCtlStop : Fld := ⟨Reg.engCtxCtl, 1, 1⟩

/-- ENG_CTX_STAT[96][4] (R357). -/
def Reg.engCtxStat : Reg := ⟨0x80108, 0x1000, 96, 0x40, 4, false, 0x0, 0x0, 0x0, 0x0, 0x0, 0x0, 0x40, 0x0⟩
/-- ENG_CTX_STAT.STATE. -/
def Fld.engCtxStatState : Fld := ⟨Reg.engCtxStat, 0, 3⟩
/-- ENG_CTX_STAT.WAIT_ON. -/
def Fld.engCtxStatWaitOn : Fld := ⟨Reg.engCtxStat, 3, 3⟩
/-- ENG_CTX_STAT.WAKE_PEND. -/
def Fld.engCtxStatWakePend : Fld := ⟨Reg.engCtxStat, 6, 1⟩
/-- ENG_CTX_STAT.FAULT_PEND. -/
def Fld.engCtxStatFaultPend : Fld := ⟨Reg.engCtxStat, 7, 1⟩
/-- ENG_CTX_STAT.IN_HANDLER. -/
def Fld.engCtxStatInHandler : Fld := ⟨Reg.engCtxStat, 8, 1⟩
/-- ENG_CTX_STAT.PENDING. -/
def Fld.engCtxStatPending : Fld := ⟨Reg.engCtxStat, 9, 4⟩

/-- ENG_CTX_PC[96][4] (R357). -/
def Reg.engCtxPc : Reg := ⟨0x8010C, 0x1000, 96, 0x40, 4, false, 0x0, 0x7FF8, 0x0, 0x0, 0x0, 0x0, 0x7FF8, 0x0⟩
/-- ENG_CTX_PC.PC. -/
def Fld.engCtxPcPc : Fld := ⟨Reg.engCtxPc, 3, 12⟩

/-- ENG_CTX_VEC[96][4] (R357). -/
def Reg.engCtxVec : Reg := ⟨0x80110, 0x1000, 96, 0x40, 4, false, 0x0, 0x7FF87FF8, 0x0, 0x0, 0x0, 0x0, 0x7FF87FF8, 0x0⟩
/-- ENG_CTX_VEC.ENTRY. -/
def Fld.engCtxVecEntry : Fld := ⟨Reg.engCtxVec, 3, 12⟩
/-- ENG_CTX_VEC.HANDLER. -/
def Fld.engCtxVecHandler : Fld := ⟨Reg.engCtxVec, 19, 12⟩

/-- ENG_CTX_EVQ[96][4] (R357). -/
def Reg.engCtxEvq : Reg := ⟨0x80114, 0x1000, 96, 0x40, 4, false, 0x0, 0x1FFFE0, 0x0, 0x0, 0x0, 0x0, 0x1FFFE0, 0x0⟩
/-- ENG_CTX_EVQ.BASE. -/
def Fld.engCtxEvqBase : Fld := ⟨Reg.engCtxEvq, 5, 11⟩
/-- ENG_CTX_EVQ.SIZE. -/
def Fld.engCtxEvqSize : Fld := ⟨Reg.engCtxEvq, 16, 4⟩
/-- ENG_CTX_EVQ.EN. -/
def Fld.engCtxEvqEn : Fld := ⟨Reg.engCtxEvq, 20, 1⟩

/-- ENG_CTX_EVQ_PTR[96][4] (R357). -/
def Reg.engCtxEvqPtr : Reg := ⟨0x80118, 0x1000, 96, 0x40, 4, false, 0x0, 0xFFFF0000, 0x0, 0x0, 0x0, 0x0, 0xFFFFFFFF, 0x0⟩
/-- ENG_CTX_EVQ_PTR.WR. -/
def Fld.engCtxEvqPtrWr : Fld := ⟨Reg.engCtxEvqPtr, 0, 16⟩
/-- ENG_CTX_EVQ_PTR.RD. -/
def Fld.engCtxEvqPtrRd : Fld := ⟨Reg.engCtxEvqPtr, 16, 16⟩

/-- ENG_CTX_WAKE[96][4] (R357). -/
def Reg.engCtxWake : Reg := ⟨0x8011C, 0x1000, 96, 0x40, 4, false, 0x0, 0x0, 0x0, 0x0, 0x0, 0x0, 0xBFFFFFFF, 0x0⟩
/-- ENG_CTX_WAKE.VALUE. -/
def Fld.engCtxWakeValue : Fld := ⟨Reg.engCtxWake, 0, 30⟩
/-- ENG_CTX_WAKE.PEND. -/
def Fld.engCtxWakePend : Fld := ⟨Reg.engCtxWake, 31, 1⟩

/-- ENG_CTX_FAULT[96][4] (R357). -/
def Reg.engCtxFault : Reg := ⟨0x80120, 0x1000, 96, 0x40, 4, true, 0x0, 0x0, 0x0, 0x0, 0x8000000000000000, 0x0, 0x80000003FFFFFFFF, 0x0⟩
/-- ENG_CTX_FAULT.CODE. -/
def Fld.engCtxFaultCode : Fld := ⟨Reg.engCtxFault, 0, 16⟩
/-- ENG_CTX_FAULT.PC. -/
def Fld.engCtxFaultPc : Fld := ⟨Reg.engCtxFault, 16, 15⟩
/-- ENG_CTX_FAULT.OP. -/
def Fld.engCtxFaultOp : Fld := ⟨Reg.engCtxFault, 31, 1⟩
/-- ENG_CTX_FAULT.DEFERRED. -/
def Fld.engCtxFaultDeferred : Fld := ⟨Reg.engCtxFault, 32, 1⟩
/-- ENG_CTX_FAULT.MULTI. -/
def Fld.engCtxFaultMulti : Fld := ⟨Reg.engCtxFault, 33, 1⟩
/-- ENG_CTX_FAULT.VALID. -/
def Fld.engCtxFaultValid : Fld := ⟨Reg.engCtxFault, 63, 1⟩

/-- ENG_CTX_FADDR[96][4] (R357). -/
def Reg.engCtxFaddr : Reg := ⟨0x80128, 0x1000, 96, 0x40, 4, true, 0x0, 0x0, 0x0, 0x0, 0x0, 0x0, 0xFFFFFFFFFFFF, 0x0⟩
/-- ENG_CTX_FADDR.ADDR. -/
def Fld.engCtxFaddrAddr : Fld := ⟨Reg.engCtxFaddr, 0, 48⟩

/-- RNG_PHP_PAGE[16] (R425). -/
def Reg.rngPhpPage : Reg := ⟨0x1000000, 0x4, 16, 0x0, 1, false, 0x0, 0x3FFF, 0x0, 0x0, 0x0, 0x0, 0x3FFF, 0x0⟩
/-- RNG_PHP_PAGE.PAGE. -/
def Fld.rngPhpPagePage : Fld := ⟨Reg.rngPhpPage, 0, 13⟩
/-- RNG_PHP_PAGE.BAR. -/
def Fld.rngPhpPageBar : Fld := ⟨Reg.rngPhpPage, 13, 1⟩

/-- RNG_PHP_STAT (R425). -/
def Reg.rngPhpStat : Reg := ⟨0x1000040, 0x0, 1, 0x0, 1, false, 0x0, 0x0, 0x0, 0x0, 0x0, 0x80000000, 0x7FFFFFFF, 0x0⟩
/-- RNG_PHP_STAT.PHP_ORDER. -/
def Fld.rngPhpStatPhpOrder : Fld := ⟨Reg.rngPhpStat, 0, 16⟩
/-- RNG_PHP_STAT.PHP_TIMEOUT. -/
def Fld.rngPhpStatPhpTimeout : Fld := ⟨Reg.rngPhpStat, 16, 15⟩
/-- RNG_PHP_STAT.CLR. -/
def Fld.rngPhpStatClr : Fld := ⟨Reg.rngPhpStat, 31, 1⟩

/-- RNG_BASE[64] (R448). -/
def Reg.rngBase : Reg := ⟨0x110000, 0x40, 64, 0x0, 1, true, 0x0, 0xFFFFFFFFFFFF, 0x0, 0x0, 0x0, 0x0, 0xFFFFFFFFFFFF, 0x0⟩
/-- RNG_BASE.ADDR. -/
def Fld.rngBaseAddr : Fld := ⟨Reg.rngBase, 0, 48⟩

/-- RNG_CFG[64] (R448). -/
def Reg.rngCfg : Reg := ⟨0x110008, 0x40, 64, 0x0, 1, false, 0x20, 0xFFFFFFF, 0x0, 0x0, 0x0, 0x0, 0xFFFFFFF, 0x0⟩
/-- RNG_CFG.TYPE. -/
def Fld.rngCfgType : Fld := ⟨Reg.rngCfg, 0, 2⟩
/-- RNG_CFG.FORMAT. -/
def Fld.rngCfgFormat : Fld := ⟨Reg.rngCfg, 2, 1⟩
/-- RNG_CFG.SIZE. -/
def Fld.rngCfgSize : Fld := ⟨Reg.rngCfg, 3, 5⟩
/-- RNG_CFG.CPL. -/
def Fld.rngCfgCpl : Fld := ⟨Reg.rngCfg, 8, 6⟩
/-- RNG_CFG.HALF. -/
def Fld.rngCfgHalf : Fld := ⟨Reg.rngCfg, 14, 1⟩
/-- RNG_CFG.MOVER. -/
def Fld.rngCfgMover : Fld := ⟨Reg.rngCfg, 15, 4⟩
/-- RNG_CFG.FAULT_POLICY. -/
def Fld.rngCfgFaultPolicy : Fld := ⟨Reg.rngCfg, 19, 1⟩
/-- RNG_CFG.VEC. -/
def Fld.rngCfgVec : Fld := ⟨Reg.rngCfg, 20, 8⟩

/-- RNG_OWN[64] (R448). -/
def Reg.rngOwn : Reg := ⟨0x11000C, 0x40, 64, 0x0, 1, false, 0x0, 0x0, 0x3FFFF, 0x0, 0x0, 0x0, 0x3FFFF, 0x0⟩
/-- RNG_OWN.OWNER. -/
def Fld.rngOwnOwner : Fld := ⟨Reg.rngOwn, 0, 8⟩
/-- RNG_OWN.ASID. -/
def Fld.rngOwnAsid : Fld := ⟨Reg.rngOwn, 8, 8⟩
/-- RNG_OWN.PRIV. -/
def Fld.rngOwnPriv : Fld := ⟨Reg.rngOwn, 16, 2⟩

/-- RNG_CTL[64] (R448). -/
def Reg.rngCtl : Reg := ⟨0x110010, 0x40, 64, 0x0, 1, false, 0x0, 0x1, 0x0, 0x0, 0x0, 0xE, 0x1, 0x0⟩
/-- RNG_CTL.EN. -/
def Fld.rngCtlEn : Fld := ⟨Reg.rngCtl, 0, 1⟩
/-- RNG_CTL.RESUME. -/
def Fld.rngCtlResume : Fld := ⟨Reg.rngCtl, 1, 1⟩
/-- RNG_CTL.ABORT. -/
def Fld.rngCtlAbort : Fld := ⟨Reg.rngCtl, 2, 1⟩
/-- RNG_CTL.CNT_CLR. -/
def Fld.rngCtlCntClr : Fld := ⟨Reg.rngCtl, 3, 1⟩

/-- RNG_STAT[64] (R448). -/
def Reg.rngStat : Reg := ⟨0x110014, 0x40, 64, 0x0, 1, false, 0x0, 0x0, 0x0, 0x0, 0x0, 0x0, 0xFFFF0008, 0x0⟩
/-- RNG_STAT.STATE. -/
def Fld.rngStatState : Fld := ⟨Reg.rngStat, 0, 3⟩
/-- RNG_STAT.PHASE. -/
def Fld.rngStatPhase : Fld := ⟨Reg.rngStat, 3, 1⟩
/-- RNG_STAT.WAIT_CPL. -/
def Fld.rngStatWaitCpl : Fld := ⟨Reg.rngStat, 4, 1⟩
/-- RNG_STAT.CODE. -/
def Fld.rngStatCode : Fld := ⟨Reg.rngStat, 16, 16⟩

/-- RNG_IDX[64] (R448). -/
def Reg.rngIdx : Reg := ⟨0x110018, 0x40, 64, 0x0, 1, false, 0x0, 0x0, 0x0, 0x0, 0x0, 0x0, 0xFFFFFFFF, 0x0⟩
/-- RNG_IDX.DEV_IDX. -/
def Fld.rngIdxDevIdx : Fld := ⟨Reg.rngIdx, 0, 16⟩
/-- RNG_IDX.HOST_IDX. -/
def Fld.rngIdxHostIdx : Fld := ⟨Reg.rngIdx, 16, 16⟩

/-- RNG_MOD[64] (R448). -/
def Reg.rngMod : Reg := ⟨0x11001C, 0x40, 64, 0x0, 1, false, 0x0, 0xFFFFFF, 0x0, 0x0, 0x0, 0x0, 0xFFFFFF, 0x0⟩
/-- RNG_MOD.TIME. -/
def Fld.rngModTime : Fld := ⟨Reg.rngMod, 0, 16⟩
/-- RNG_MOD.COUNT. -/
def Fld.rngModCount : Fld := ⟨Reg.rngMod, 16, 8⟩

/-- RNG_FAULT[64] (R448). -/
def Reg.rngFault : Reg := ⟨0x110020, 0x40, 64, 0x0, 1, true, 0x0, 0x0, 0x0, 0x0, 0x8000000000000000, 0x0, 0xFFFFFFFFFFFFFFFF, 0x0⟩
/-- RNG_FAULT.CODE. -/
def Fld.rngFaultCode : Fld := ⟨Reg.rngFault, 0, 16⟩
/-- RNG_FAULT.INDEX. -/
def Fld.rngFaultIndex : Fld := ⟨Reg.rngFault, 16, 16⟩
/-- RNG_FAULT.BYTES_DONE. -/
def Fld.rngFaultBytesDone : Fld := ⟨Reg.rngFault, 32, 31⟩
/-- RNG_FAULT.VALID. -/
def Fld.rngFaultValid : Fld := ⟨Reg.rngFault, 63, 1⟩

/-- RNG_FADDR[64] (R448). -/
def Reg.rngFaddr : Reg := ⟨0x110028, 0x40, 64, 0x0, 1, true, 0x0, 0x0, 0x0, 0x0, 0x0, 0x0, 0xFFFFFFFFFFFF, 0x0⟩
/-- RNG_FADDR.ADDR. -/
def Fld.rngFaddrAddr : Fld := ⟨Reg.rngFaddr, 0, 48⟩

/-- RNG_CNT[64] (R448). -/
def Reg.rngCnt : Reg := ⟨0x110030, 0x40, 64, 0x0, 1, true, 0x0, 0x0, 0x0, 0x0, 0x0, 0x0, 0xFFFFFFFFFFFFFFFF, 0x0⟩
/-- RNG_CNT.ERRORS. -/
def Fld.rngCntErrors : Fld := ⟨Reg.rngCnt, 0, 16⟩
/-- RNG_CNT.LOST. -/
def Fld.rngCntLost : Fld := ⟨Reg.rngCnt, 16, 16⟩
/-- RNG_CNT.STALLS. -/
def Fld.rngCntStalls : Fld := ⟨Reg.rngCnt, 32, 16⟩
/-- RNG_CNT.DB_MERGED. -/
def Fld.rngCntDbMerged : Fld := ⟨Reg.rngCnt, 48, 16⟩

/-- RNG_GCTL (R448). -/
def Reg.rngGctl : Reg := ⟨0x111000, 0x0, 1, 0x0, 1, false, 0x0, 0x7F, 0x0, 0x0, 0x0, 0x0, 0x7F, 0x0⟩
/-- RNG_GCTL.LOG_RING. -/
def Fld.rngGctlLogRing : Fld := ⟨Reg.rngGctl, 0, 6⟩
/-- RNG_GCTL.LOG_EN. -/
def Fld.rngGctlLogEn : Fld := ⟨Reg.rngGctl, 6, 1⟩

/-- RNG_REFUSE (R448). -/
def Reg.rngRefuse : Reg := ⟨0x111004, 0x0, 1, 0x0, 1, false, 0x0, 0x0, 0x0, 0x0, 0x80000000, 0x0, 0x0, 0x0⟩
/-- RNG_REFUSE.CODE. -/
def Fld.rngRefuseCode : Fld := ⟨Reg.rngRefuse, 0, 16⟩
/-- RNG_REFUSE.RING. -/
def Fld.rngRefuseRing : Fld := ⟨Reg.rngRefuse, 16, 6⟩
/-- RNG_REFUSE.COUNT. -/
def Fld.rngRefuseCount : Fld := ⟨Reg.rngRefuse, 24, 4⟩
/-- RNG_REFUSE.VALID. -/
def Fld.rngRefuseValid : Fld := ⟨Reg.rngRefuse, 31, 1⟩

/-- RNG_LINK (R448). -/
def Reg.rngLink : Reg := ⟨0x111008, 0x0, 1, 0x0, 1, false, 0x0, 0x0, 0x0, 0x0, 0x0, 0x0, 0xFFFF7F, 0x0⟩
/-- RNG_LINK.RATE. -/
def Fld.rngLinkRate : Fld := ⟨Reg.rngLink, 0, 3⟩
/-- RNG_LINK.WIDTH. -/
def Fld.rngLinkWidth : Fld := ⟨Reg.rngLink, 3, 3⟩
/-- RNG_LINK.UP. -/
def Fld.rngLinkUp : Fld := ⟨Reg.rngLink, 6, 1⟩
/-- RNG_LINK.RETRAINS. -/
def Fld.rngLinkRetrains : Fld := ⟨Reg.rngLink, 8, 8⟩
/-- RNG_LINK.DOWNS. -/
def Fld.rngLinkDowns : Fld := ⟨Reg.rngLink, 16, 8⟩

/-- RNG_SHEET_BASE (R448). -/
def Reg.rngSheetBase : Reg := ⟨0x111010, 0x0, 1, 0x0, 1, true, 0x0, 0x0, 0xFFFFFFFFFFFFFF, 0x0, 0x0, 0x0, 0xFFFFFFFFFFFFFF, 0x0⟩
/-- RNG_SHEET_BASE.ADDR. -/
def Fld.rngSheetBaseAddr : Fld := ⟨Reg.rngSheetBase, 0, 48⟩
/-- RNG_SHEET_BASE.ASID. -/
def Fld.rngSheetBaseAsid : Fld := ⟨Reg.rngSheetBase, 48, 8⟩

/-- RNG_SHEET_CFG (R448). -/
def Reg.rngSheetCfg : Reg := ⟨0x111018, 0x0, 1, 0x0, 1, false, 0x0, 0x3FFFFF, 0x0, 0x0, 0x0, 0x0, 0x3FFFFF, 0x0⟩
/-- RNG_SHEET_CFG.INTERVAL. -/
def Fld.rngSheetCfgInterval : Fld := ⟨Reg.rngSheetCfg, 0, 20⟩
/-- RNG_SHEET_CFG.EN. -/
def Fld.rngSheetCfgEn : Fld := ⟨Reg.rngSheetCfg, 20, 1⟩
/-- RNG_SHEET_CFG.NOTE. -/
def Fld.rngSheetCfgNote : Fld := ⟨Reg.rngSheetCfg, 21, 1⟩

/-- RNG_SHEET_STAT (R448). -/
def Reg.rngSheetStat : Reg := ⟨0x111020, 0x0, 1, 0x0, 1, true, 0x0, 0x0, 0x0, 0x0, 0x0, 0x0, 0xFFFFFFFFFFFF, 0x0⟩
/-- RNG_SHEET_STAT.SEQ. -/
def Fld.rngSheetStatSeq : Fld := ⟨Reg.rngSheetStat, 0, 32⟩
/-- RNG_SHEET_STAT.SKIPPED. -/
def Fld.rngSheetStatSkipped : Fld := ⟨Reg.rngSheetStat, 32, 16⟩

/-- RNG_NOTE_VEC[11] (R448). -/
def Reg.rngNoteVec : Reg := ⟨0x111040, 0x4, 11, 0x0, 1, false, 0x0, 0x1FF, 0x0, 0x0, 0x0, 0x0, 0x1FF, 0x0⟩
/-- RNG_NOTE_VEC.VEC. -/
def Fld.rngNoteVecVec : Fld := ⟨Reg.rngNoteVec, 0, 8⟩
/-- RNG_NOTE_VEC.EN. -/
def Fld.rngNoteVecEn : Fld := ⟨Reg.rngNoteVec, 8, 1⟩

/-- RNG_MOV_STAT[32] (R448). -/
def Reg.rngMovStat : Reg := ⟨0x111100, 0x4, 32, 0x0, 1, false, 0x0, 0x0, 0x0, 0x0, 0x0, 0x0, 0x0, 0x0⟩
/-- RNG_MOV_STAT.BUSY. -/
def Fld.rngMovStatBusy : Fld := ⟨Reg.rngMovStat, 0, 1⟩
/-- RNG_MOV_STAT.STALLED. -/
def Fld.rngMovStatStalled : Fld := ⟨Reg.rngMovStat, 1, 1⟩
/-- RNG_MOV_STAT.SERVING. -/
def Fld.rngMovStatServing : Fld := ⟨Reg.rngMovStat, 2, 7⟩

/-- RNG_VEC[256] (R448). -/
def Reg.rngVec : Reg := ⟨0x112000, 0x4, 256, 0x0, 1, false, 0x0, 0x2, 0x0, 0x0, 0x1, 0x0, 0x3, 0x0⟩
/-- RNG_VEC.PEND. -/
def Fld.rngVecPend : Fld := ⟨Reg.rngVec, 0, 1⟩
/-- RNG_VEC.PHP_EN. -/
def Fld.rngVecPhpEn : Fld := ⟨Reg.rngVec, 1, 1⟩

/-- WTU_LINK[3] (R480). -/
def Reg.wtuLink : Reg := ⟨0x0, 0x4, 3, 0x0, 1, false, 0x2, 0x0, 0x3, 0x0, 0x0, 0x0, 0x3, 0x0⟩
/-- WTU_LINK.PRIV. -/
def Fld.wtuLinkPriv : Fld := ⟨Reg.wtuLink, 0, 2⟩

/-- WTU_SVN (R480). -/
def Reg.wtuSvn : Reg := ⟨0x100, 0x0, 1, 0x0, 1, false, 0x8000, 0x0, 0x0, 0xFF, 0x0, 0x0, 0xFFFF, 0x0⟩
/-- WTU_SVN.SVN. -/
def Fld.wtuSvnSvn : Fld := ⟨Reg.wtuSvn, 0, 8⟩
/-- WTU_SVN.REMAIN. -/
def Fld.wtuSvnRemain : Fld := ⟨Reg.wtuSvn, 8, 8⟩

/-- WTU_KEY_CTL[4] (R480). -/
def Reg.wtuKeyCtl : Reg := ⟨0x110, 0x8, 4, 0x0, 1, false, 0x40000, 0x0, 0x0, 0x80000000, 0x0, 0x0, 0xFFFFF, 0x0⟩
/-- WTU_KEY_CTL.KCV. -/
def Fld.wtuKeyCtlKcv : Fld := ⟨Reg.wtuKeyCtl, 0, 16⟩
/-- WTU_KEY_CTL.REMAIN. -/
def Fld.wtuKeyCtlRemain : Fld := ⟨Reg.wtuKeyCtl, 16, 3⟩
/-- WTU_KEY_CTL.SET. -/
def Fld.wtuKeyCtlSet : Fld := ⟨Reg.wtuKeyCtl, 19, 1⟩
/-- WTU_KEY_CTL.COMMIT. -/
def Fld.wtuKeyCtlCommit : Fld := ⟨Reg.wtuKeyCtl, 31, 1⟩

/-- WTU_KEY_DATA[8] (R480). -/
def Reg.wtuKeyData : Reg := ⟨0x140, 0x4, 8, 0x0, 1, false, 0x0, 0x0, 0xFFFFFFFF, 0x0, 0x0, 0x0, 0x0, 0x0⟩
/-- WTU_KEY_DATA.VALUE. -/
def Fld.wtuKeyDataValue : Fld := ⟨Reg.wtuKeyData, 0, 32⟩

/-- WTU_BOOT_LOCK (R480). -/
def Reg.wtuBootLock : Reg := ⟨0x180, 0x0, 1, 0x0, 1, false, 0x20, 0x0, 0x0, 0x7, 0x0, 0x0, 0x37, 0x0⟩
/-- WTU_BOOT_LOCK.LOCK. -/
def Fld.wtuBootLockLock : Fld := ⟨Reg.wtuBootLock, 0, 3⟩
/-- WTU_BOOT_LOCK.REMAIN. -/
def Fld.wtuBootLockRemain : Fld := ⟨Reg.wtuBootLock, 4, 2⟩

/-- WTU_DEBUG (R480). -/
def Reg.wtuDebug : Reg := ⟨0x184, 0x0, 1, 0x0, 1, false, 0x2, 0x0, 0x0, 0x1, 0x0, 0x0, 0x3, 0x0⟩
/-- WTU_DEBUG.DISABLE. -/
def Fld.wtuDebugDisable : Fld := ⟨Reg.wtuDebug, 0, 1⟩
/-- WTU_DEBUG.REMAIN. -/
def Fld.wtuDebugRemain : Fld := ⟨Reg.wtuDebug, 1, 1⟩

/-- WTU_LIFE_STAT (R480). -/
def Reg.wtuLifeStat : Reg := ⟨0x188, 0x0, 1, 0x0, 1, false, 0x0, 0x0, 0x0, 0x0, 0x0, 0x0, 0x0, 0x0⟩
/-- WTU_LIFE_STAT.LIFE_BUSY. -/
def Fld.wtuLifeStatLifeBusy : Fld := ⟨Reg.wtuLifeStat, 0, 1⟩

/-- WTU_SPACE[256] (R480). -/
def Reg.wtuSpace : Reg := ⟨0xE0000, 0x8, 256, 0x0, 1, true, 0x0, 0x0, 0xFFFFFFFFFF007, 0x0, 0x0, 0x0, 0xFFFFFFFFFF007, 0x0⟩
/-- WTU_SPACE.EN. -/
def Fld.wtuSpaceEn : Fld := ⟨Reg.wtuSpace, 0, 1⟩
/-- WTU_SPACE.DEV. -/
def Fld.wtuSpaceDev : Fld := ⟨Reg.wtuSpace, 1, 1⟩
/-- WTU_SPACE.CLASS. -/
def Fld.wtuSpaceClass : Fld := ⟨Reg.wtuSpace, 2, 1⟩
/-- WTU_SPACE.ROOT. -/
def Fld.wtuSpaceRoot : Fld := ⟨Reg.wtuSpace, 12, 40⟩

/-- WTU_FAB[80] (R480). -/
def Reg.wtuFab : Reg := ⟨0xE0800, 0x4, 80, 0x0, 1, false, 0x0, 0x0, 0x7FF, 0x0, 0x0, 0x0, 0x7FF, 0x0⟩
/-- WTU_FAB.ASID. -/
def Fld.wtuFabAsid : Fld := ⟨Reg.wtuFab, 0, 8⟩
/-- WTU_FAB.PRIV. -/
def Fld.wtuFabPriv : Fld := ⟨Reg.wtuFab, 8, 2⟩
/-- WTU_FAB.EN. -/
def Fld.wtuFabEn : Fld := ⟨Reg.wtuFab, 10, 1⟩

/-- WTU_INV (R480). -/
def Reg.wtuInv : Reg := ⟨0xE0A00, 0x0, 1, 0x0, 1, false, 0x0, 0x0, 0xFF03, 0x0, 0x0, 0x80000000, 0x0, 0x0⟩
/-- WTU_INV.MODE. -/
def Fld.wtuInvMode : Fld := ⟨Reg.wtuInv, 0, 2⟩
/-- WTU_INV.ASID. -/
def Fld.wtuInvAsid : Fld := ⟨Reg.wtuInv, 8, 8⟩
/-- WTU_INV.DONE. -/
def Fld.wtuInvDone : Fld := ⟨Reg.wtuInv, 30, 1⟩
/-- WTU_INV.GO. -/
def Fld.wtuInvGo : Fld := ⟨Reg.wtuInv, 31, 1⟩

/-- WTU_INV_VA (R480). -/
def Reg.wtuInvVa : Reg := ⟨0xE0A08, 0x0, 1, 0x0, 1, true, 0x0, 0x0, 0xFFFFFFFFF000, 0x0, 0x0, 0x0, 0x0, 0x0⟩
/-- WTU_INV_VA.VA. -/
def Fld.wtuInvVaVa : Fld := ⟨Reg.wtuInvVa, 12, 36⟩

/-- WTU_DENY (R480). -/
def Reg.wtuDeny : Reg := ⟨0xE0A10, 0x0, 1, 0x0, 1, true, 0x0, 0x0, 0x0, 0x0, 0x8000000000000000, 0x0, 0x800F0FFF07FFFFFF, 0x0⟩
/-- WTU_DENY.CODE. -/
def Fld.wtuDenyCode : Fld := ⟨Reg.wtuDeny, 0, 16⟩
/-- WTU_DENY.WRITER. -/
def Fld.wtuDenyWriter : Fld := ⟨Reg.wtuDeny, 16, 8⟩
/-- WTU_DENY.KIND. -/
def Fld.wtuDenyKind : Fld := ⟨Reg.wtuDeny, 24, 3⟩
/-- WTU_DENY.INDEX. -/
def Fld.wtuDenyIndex : Fld := ⟨Reg.wtuDeny, 32, 12⟩
/-- WTU_DENY.COUNT. -/
def Fld.wtuDenyCount : Fld := ⟨Reg.wtuDeny, 48, 4⟩
/-- WTU_DENY.VALID. -/
def Fld.wtuDenyValid : Fld := ⟨Reg.wtuDeny, 63, 1⟩

/-- WTU_FLOG (R480). -/
def Reg.wtuFlog : Reg := ⟨0xE0A18, 0x0, 1, 0x0, 1, true, 0x0, 0x0, 0x0, 0x0, 0x8000000000000000, 0x0, 0xC00007FF00FFFFFF, 0x0⟩
/-- WTU_FLOG.CODE. -/
def Fld.wtuFlogCode : Fld := ⟨Reg.wtuFlog, 0, 16⟩
/-- WTU_FLOG.ASID. -/
def Fld.wtuFlogAsid : Fld := ⟨Reg.wtuFlog, 16, 8⟩
/-- WTU_FLOG.MASTER. -/
def Fld.wtuFlogMaster : Fld := ⟨Reg.wtuFlog, 32, 8⟩
/-- WTU_FLOG.PRIV. -/
def Fld.wtuFlogPriv : Fld := ⟨Reg.wtuFlog, 40, 2⟩
/-- WTU_FLOG.WRITE. -/
def Fld.wtuFlogWrite : Fld := ⟨Reg.wtuFlog, 42, 1⟩
/-- WTU_FLOG.MULTI. -/
def Fld.wtuFlogMulti : Fld := ⟨Reg.wtuFlog, 62, 1⟩
/-- WTU_FLOG.VALID. -/
def Fld.wtuFlogValid : Fld := ⟨Reg.wtuFlog, 63, 1⟩

/-- WTU_FLOG_VA (R480). -/
def Reg.wtuFlogVa : Reg := ⟨0xE0A20, 0x0, 1, 0x0, 1, true, 0x0, 0x0, 0x0, 0x0, 0x0, 0x0, 0xFFFFFFFFFFFFFFFF, 0x0⟩
/-- WTU_FLOG_VA.VA. -/
def Fld.wtuFlogVaVa : Fld := ⟨Reg.wtuFlogVa, 0, 48⟩
/-- WTU_FLOG_VA.HIGH. -/
def Fld.wtuFlogVaHigh : Fld := ⟨Reg.wtuFlogVa, 48, 16⟩

/-- WTU_GCTL (R480). -/
def Reg.wtuGctl : Reg := ⟨0xE0A28, 0x0, 1, 0x0, 1, false, 0x0, 0x1, 0x0, 0x0, 0x0, 0x2, 0x1, 0x0⟩
/-- WTU_GCTL.NOTE_EN. -/
def Fld.wtuGctlNoteEn : Fld := ⟨Reg.wtuGctl, 0, 1⟩
/-- WTU_GCTL.CNT_CLR. -/
def Fld.wtuGctlCntClr : Fld := ⟨Reg.wtuGctl, 1, 1⟩

/-- WTU_CNT (R480). -/
def Reg.wtuCnt : Reg := ⟨0xE0A30, 0x0, 1, 0x0, 1, true, 0x0, 0x0, 0x0, 0x0, 0x0, 0x0, 0xFFFFFFFFFFFFFFFF, 0x0⟩
/-- WTU_CNT.WALKS. -/
def Fld.wtuCntWalks : Fld := ⟨Reg.wtuCnt, 0, 16⟩
/-- WTU_CNT.FAULTS. -/
def Fld.wtuCntFaults : Fld := ⟨Reg.wtuCnt, 16, 16⟩
/-- WTU_CNT.DENIES. -/
def Fld.wtuCntDenies : Fld := ⟨Reg.wtuCnt, 32, 16⟩
/-- WTU_CNT.INVALIDATIONS. -/
def Fld.wtuCntInvalidations : Fld := ⟨Reg.wtuCnt, 48, 16⟩

/-- LDR_CTL (R537). -/
def Reg.ldrCtl : Reg := ⟨0xF2000, 0x0, 1, 0x0, 1, false, 0x0, 0x0, 0x0, 0x0, 0x0, 0x3, 0x0, 0x0⟩
/-- LDR_CTL.ABORT. -/
def Fld.ldrCtlAbort : Fld := ⟨Reg.ldrCtl, 0, 1⟩
/-- LDR_CTL.DISCARD. -/
def Fld.ldrCtlDiscard : Fld := ⟨Reg.ldrCtl, 1, 1⟩

/-- LDR_CFG (R537). -/
def Reg.ldrCfg : Reg := ⟨0xF2004, 0x0, 1, 0x0, 1, false, 0x64, 0x100, 0xFF, 0x0, 0x0, 0x0, 0x1FF, 0x0⟩
/-- LDR_CFG.IDLE_TMO. -/
def Fld.ldrCfgIdleTmo : Fld := ⟨Reg.ldrCfg, 0, 8⟩
/-- LDR_CFG.NOTE_EN. -/
def Fld.ldrCfgNoteEn : Fld := ⟨Reg.ldrCfg, 8, 1⟩

/-- LDR_STAT (R537). -/
def Reg.ldrStat : Reg := ⟨0xF2008, 0x0, 1, 0x0, 1, false, 0x2000, 0x0, 0x0, 0x0, 0x0, 0x0, 0xFFFF7FFF, 0x0⟩
/-- LDR_STAT.STATE. -/
def Fld.ldrStatState : Fld := ⟨Reg.ldrStat, 0, 3⟩
/-- LDR_STAT.SOURCE. -/
def Fld.ldrStatSource : Fld := ⟨Reg.ldrStat, 3, 3⟩
/-- LDR_STAT.CLASS. -/
def Fld.ldrStatClass : Fld := ⟨Reg.ldrStat, 6, 2⟩
/-- LDR_STAT.STEPS. -/
def Fld.ldrStatSteps : Fld := ⟨Reg.ldrStat, 8, 4⟩
/-- LDR_STAT.GATE_IN. -/
def Fld.ldrStatGateIn : Fld := ⟨Reg.ldrStat, 12, 1⟩
/-- LDR_STAT.GATE_OUT. -/
def Fld.ldrStatGateOut : Fld := ⟨Reg.ldrStat, 13, 1⟩
/-- LDR_STAT.ENC. -/
def Fld.ldrStatEnc : Fld := ⟨Reg.ldrStat, 14, 1⟩
/-- LDR_STAT.LOADS. -/
def Fld.ldrStatLoads : Fld := ⟨Reg.ldrStat, 16, 16⟩

/-- LDR_ERR (R537). -/
def Reg.ldrErr : Reg := ⟨0xF2010, 0x0, 1, 0x0, 1, true, 0x0, 0x0, 0x0, 0x0, 0x8000000000000000, 0x0, 0xFFFFFFFFFFFFFFFF, 0x0⟩
/-- LDR_ERR.CODE. -/
def Fld.ldrErrCode : Fld := ⟨Reg.ldrErr, 0, 16⟩
/-- LDR_ERR.DETAIL. -/
def Fld.ldrErrDetail : Fld := ⟨Reg.ldrErr, 16, 16⟩
/-- LDR_ERR.OFFSET. -/
def Fld.ldrErrOffset : Fld := ⟨Reg.ldrErr, 32, 31⟩
/-- LDR_ERR.VALID. -/
def Fld.ldrErrValid : Fld := ⟨Reg.ldrErr, 63, 1⟩

/-- LDR_PROG (R537). -/
def Reg.ldrProg : Reg := ⟨0xF2018, 0x0, 1, 0x0, 1, true, 0x0, 0x0, 0x0, 0x0, 0x0, 0x0, 0xFFFFFFFFFFFFFFFF, 0x0⟩
/-- LDR_PROG.VALUE. -/
def Fld.ldrProgValue : Fld := ⟨Reg.ldrProg, 0, 64⟩

/-- LDR_LEADER[16] (R537). -/
def Reg.ldrLeader : Reg := ⟨0xF2020, 0x8, 16, 0x0, 1, true, 0x0, 0x0, 0x0, 0x0, 0x0, 0x0, 0xFFFFFFFFFFFFFFFF, 0x0⟩
/-- LDR_LEADER.VALUE. -/
def Fld.ldrLeaderValue : Fld := ⟨Reg.ldrLeader, 0, 64⟩

/-- LDR_HELD[3] (R537). -/
def Reg.ldrHeld : Reg := ⟨0xF20A0, 0x4, 3, 0x0, 1, false, 0x0, 0x0, 0x0, 0x0, 0x0, 0x0, 0xFFFFFFFF, 0x0⟩
/-- LDR_HELD.VALUE. -/
def Fld.ldrHeldValue : Fld := ⟨Reg.ldrHeld, 0, 32⟩

/-- LDR_CHAIN (R537). -/
def Reg.ldrChain : Reg := ⟨0xF20B0, 0x0, 1, 0x0, 1, false, 0x0, 0x0, 0x0, 0x0, 0x0, 0x0, 0x7FF, 0x0⟩
/-- LDR_CHAIN.INDEX. -/
def Fld.ldrChainIndex : Fld := ⟨Reg.ldrChain, 0, 4⟩
/-- LDR_CHAIN.COUNT. -/
def Fld.ldrChainCount : Fld := ⟨Reg.ldrChain, 4, 5⟩
/-- LDR_CHAIN.UP_OK. -/
def Fld.ldrChainUpOk : Fld := ⟨Reg.ldrChain, 9, 1⟩
/-- LDR_CHAIN.DOWN_OK. -/
def Fld.ldrChainDownOk : Fld := ⟨Reg.ldrChain, 10, 1⟩
/-- LDR_CHAIN.FORWARD. -/
def Fld.ldrChainForward : Fld := ⟨Reg.ldrChain, 11, 1⟩

/-- LDR_CHECK (R537). -/
def Reg.ldrCheck : Reg := ⟨0xF20B4, 0x0, 1, 0x0, 1, false, 0x0, 0x0, 0x0, 0x0, 0x0, 0x1, 0x0, 0x0⟩
/-- LDR_CHECK.GO. -/
def Fld.ldrCheckGo : Fld := ⟨Reg.ldrCheck, 0, 1⟩
/-- LDR_CHECK.DONE. -/
def Fld.ldrCheckDone : Fld := ⟨Reg.ldrCheck, 1, 1⟩
/-- LDR_CHECK.REFUSED. -/
def Fld.ldrCheckRefused : Fld := ⟨Reg.ldrCheck, 2, 1⟩
/-- LDR_CHECK.FAILS. -/
def Fld.ldrCheckFails : Fld := ⟨Reg.ldrCheck, 8, 7⟩

/-- LDR_CHECK_FAIL[3] (R537). -/
def Reg.ldrCheckFail : Reg := ⟨0xF20C0, 0x4, 3, 0x0, 1, false, 0x0, 0x0, 0x0, 0x0, 0x0, 0x0, 0x0, 0x0⟩
/-- LDR_CHECK_FAIL.VALUE. -/
def Fld.ldrCheckFailValue : Fld := ⟨Reg.ldrCheckFail, 0, 32⟩

/-- LDR_RB_SEL (R537). -/
def Reg.ldrRbSel : Reg := ⟨0xF2100, 0x0, 1, 0x0, 1, false, 0x0, 0x0, 0xFFFF, 0x0, 0x0, 0x80000000, 0x0, 0x0⟩
/-- LDR_RB_SEL.SECTOR. -/
def Fld.ldrRbSelSector : Fld := ⟨Reg.ldrRbSel, 0, 7⟩
/-- LDR_RB_SEL.FRAME. -/
def Fld.ldrRbSelFrame : Fld := ⟨Reg.ldrRbSel, 7, 9⟩
/-- LDR_RB_SEL.REFUSED. -/
def Fld.ldrRbSelRefused : Fld := ⟨Reg.ldrRbSel, 16, 1⟩
/-- LDR_RB_SEL.CAUSE. -/
def Fld.ldrRbSelCause : Fld := ⟨Reg.ldrRbSel, 17, 2⟩
/-- LDR_RB_SEL.DONE. -/
def Fld.ldrRbSelDone : Fld := ⟨Reg.ldrRbSel, 30, 1⟩
/-- LDR_RB_SEL.GO. -/
def Fld.ldrRbSelGo : Fld := ⟨Reg.ldrRbSel, 31, 1⟩

/-- LDR_RB_DATA[64] (R537). -/
def Reg.ldrRbData : Reg := ⟨0xF2200, 0x8, 64, 0x0, 1, true, 0x0, 0x0, 0x0, 0x0, 0x0, 0x0, 0x0, 0x0⟩
/-- LDR_RB_DATA.VALUE. -/
def Fld.ldrRbDataValue : Fld := ⟨Reg.ldrRbData, 0, 64⟩

/-- LDR_SEC_CRC[80] (R537). -/
def Reg.ldrSecCrc : Reg := ⟨0xF2400, 0x4, 80, 0x0, 1, false, 0x0, 0x0, 0x0, 0x0, 0x0, 0x0, 0xFFFFFFFF, 0x0⟩
/-- LDR_SEC_CRC.VALUE. -/
def Fld.ldrSecCrcValue : Fld := ⟨Reg.ldrSecCrc, 0, 32⟩

/-- ARC_CTL (R571). -/
def Reg.arcCtl : Reg := ⟨0x100000, 0x0, 1, 0x0, 1, false, 0x1, 0x1, 0x2, 0x0, 0x0, 0xC, 0x1, 0x0⟩
/-- ARC_CTL.EN. -/
def Fld.arcCtlEn : Fld := ⟨Reg.arcCtl, 0, 1⟩
/-- ARC_CTL.GOLDEN_WE. -/
def Fld.arcCtlGoldenWe : Fld := ⟨Reg.arcCtl, 1, 1⟩
/-- ARC_CTL.PATROL_GO. -/
def Fld.arcCtlPatrolGo : Fld := ⟨Reg.arcCtl, 2, 1⟩
/-- ARC_CTL.CNT_CLR. -/
def Fld.arcCtlCntClr : Fld := ⟨Reg.arcCtl, 3, 1⟩

/-- ARC_CFG (R571). -/
def Reg.arcCfg : Reg := ⟨0x100004, 0x0, 1, 0x0, 1, false, 0x7003250, 0xFFFFFFFF, 0x0, 0x0, 0x0, 0x0, 0xFFFFFFFF, 0x0⟩
/-- ARC_CFG.NOTE_EN. -/
def Fld.arcCfgNoteEn : Fld := ⟨Reg.arcCfg, 0, 1⟩
/-- ARC_CFG.REFRESH_BITS. -/
def Fld.arcCfgRefreshBits : Fld := ⟨Reg.arcCfg, 1, 7⟩
/-- ARC_CFG.RD_LIMIT. -/
def Fld.arcCfgRdLimit : Fld := ⟨Reg.arcCfg, 8, 16⟩
/-- ARC_CFG.PATROL_DAYS. -/
def Fld.arcCfgPatrolDays : Fld := ⟨Reg.arcCfg, 24, 8⟩

/-- ARC_STAT (R571). -/
def Reg.arcStat : Reg := ⟨0x100008, 0x0, 1, 0x0, 1, false, 0x8, 0x0, 0x0, 0x0, 0x0, 0x0, 0xFF1F, 0x0⟩
/-- ARC_STAT.STATE. -/
def Fld.arcStatState : Fld := ⟨Reg.arcStat, 0, 2⟩
/-- ARC_STAT.FORMATTED. -/
def Fld.arcStatFormatted : Fld := ⟨Reg.arcStat, 2, 1⟩
/-- ARC_STAT.WP. -/
def Fld.arcStatWp : Fld := ⟨Reg.arcStat, 3, 1⟩
/-- ARC_STAT.PATROL. -/
def Fld.arcStatPatrol : Fld := ⟨Reg.arcStat, 4, 1⟩
/-- ARC_STAT.CE_PRESENT. -/
def Fld.arcStatCePresent : Fld := ⟨Reg.arcStat, 8, 4⟩
/-- ARC_STAT.CE_IGNORED. -/
def Fld.arcStatCeIgnored : Fld := ⟨Reg.arcStat, 12, 4⟩
/-- ARC_STAT.QUEUED. -/
def Fld.arcStatQueued : Fld := ⟨Reg.arcStat, 16, 7⟩

/-- ARC_IF (R571). -/
def Reg.arcIf : Reg := ⟨0x10000C, 0x0, 1, 0x0, 1, false, 0xC0, 0xFF, 0x0, 0x0, 0x0, 0x0, 0xFF, 0x0⟩
/-- ARC_IF.IF. -/
def Fld.arcIfIf : Fld := ⟨Reg.arcIf, 0, 2⟩
/-- ARC_IF.CYC. -/
def Fld.arcIfCyc : Fld := ⟨Reg.arcIf, 2, 5⟩
/-- ARC_IF.AUTO. -/
def Fld.arcIfAuto : Fld := ⟨Reg.arcIf, 7, 1⟩

/-- ARC_GEOM (R571). -/
def Reg.arcGeom : Reg := ⟨0x100010, 0x0, 1, 0x0, 1, true, 0x0, 0x0, 0x0, 0x0, 0x0, 0x0, 0xFFFFFF3F03, 0x0⟩
/-- ARC_GEOM.PAGE. -/
def Fld.arcGeomPage : Fld := ⟨Reg.arcGeom, 0, 2⟩
/-- ARC_GEOM.PAGES. -/
def Fld.arcGeomPages : Fld := ⟨Reg.arcGeom, 8, 4⟩
/-- ARC_GEOM.LUNS. -/
def Fld.arcGeomLuns : Fld := ⟨Reg.arcGeom, 12, 2⟩
/-- ARC_GEOM.BLOCKS. -/
def Fld.arcGeomBlocks : Fld := ⟨Reg.arcGeom, 16, 24⟩

/-- ARC_DATA (R571). -/
def Reg.arcData : Reg := ⟨0x100018, 0x0, 1, 0x0, 1, true, 0x0, 0x0, 0x0, 0x0, 0x0, 0x0, 0xFFFFFFFFFFFFFFFF, 0x0⟩
/-- ARC_DATA.DATA_SECTORS. -/
def Fld.arcDataDataSectors : Fld := ⟨Reg.arcData, 0, 32⟩
/-- ARC_DATA.FREE_BLOCKS. -/
def Fld.arcDataFreeBlocks : Fld := ⟨Reg.arcData, 32, 16⟩
/-- ARC_DATA.BAD_BLOCKS. -/
def Fld.arcDataBadBlocks : Fld := ⟨Reg.arcData, 48, 16⟩

/-- ARC_WEAR (R571). -/
def Reg.arcWear : Reg := ⟨0x100020, 0x0, 1, 0x0, 1, true, 0x0, 0x0, 0x0, 0x0, 0x0, 0x0, 0xFFFFFFFFFFFFFFFF, 0x0⟩
/-- ARC_WEAR.ERASE_MIN. -/
def Fld.arcWearEraseMin : Fld := ⟨Reg.arcWear, 0, 24⟩
/-- ARC_WEAR.ERASE_MAX. -/
def Fld.arcWearEraseMax : Fld := ⟨Reg.arcWear, 24, 24⟩
/-- ARC_WEAR.WORST. -/
def Fld.arcWearWorst : Fld := ⟨Reg.arcWear, 48, 16⟩

/-- ARC_WL (R571). -/
def Reg.arcWl : Reg := ⟨0x100028, 0x0, 1, 0x0, 1, false, 0x3E8, 0xFFFF, 0x0, 0x0, 0x0, 0x0, 0xFFFF, 0x0⟩
/-- ARC_WL.SPREAD. -/
def Fld.arcWlSpread : Fld := ⟨Reg.arcWl, 0, 16⟩

/-- ARC_CNT (R571). -/
def Reg.arcCnt : Reg := ⟨0x100030, 0x0, 1, 0x0, 1, true, 0x0, 0x0, 0x0, 0x0, 0x0, 0x0, 0xFFFFFFFFFFFFFFFF, 0x0⟩
/-- ARC_CNT.UNCORR. -/
def Fld.arcCntUncorr : Fld := ⟨Reg.arcCnt, 0, 16⟩
/-- ARC_CNT.REFRESHES. -/
def Fld.arcCntRefreshes : Fld := ⟨Reg.arcCnt, 16, 16⟩
/-- ARC_CNT.RETIRED. -/
def Fld.arcCntRetired : Fld := ⟨Reg.arcCnt, 32, 16⟩
/-- ARC_CNT.PATROL_PASSES. -/
def Fld.arcCntPatrolPasses : Fld := ⟨Reg.arcCnt, 48, 16⟩

/-- ARC_BOOT (R571). -/
def Reg.arcBoot : Reg := ⟨0x100038, 0x0, 1, 0x0, 1, false, 0x0, 0x0, 0x0, 0x0, 0x0, 0x0, 0xFFFF00FF, 0x0⟩
/-- ARC_BOOT.PREFERRED. -/
def Fld.arcBootPreferred : Fld := ⟨Reg.arcBoot, 0, 2⟩
/-- ARC_BOOT.LOADED. -/
def Fld.arcBootLoaded : Fld := ⟨Reg.arcBoot, 2, 2⟩
/-- ARC_BOOT.COPIES. -/
def Fld.arcBootCopies : Fld := ⟨Reg.arcBoot, 4, 4⟩
/-- ARC_BOOT.GEN. -/
def Fld.arcBootGen : Fld := ⟨Reg.arcBoot, 16, 16⟩

/-- ARC_SLOT[3] (R571). -/
def Reg.arcSlot : Reg := ⟨0x100040, 0x8, 3, 0x0, 1, true, 0x0, 0x0, 0x0, 0x0, 0x0, 0x0, 0xFFFFFF07FFFFFFFF, 0x0⟩
/-- ARC_SLOT.LEN. -/
def Fld.arcSlotLen : Fld := ⟨Reg.arcSlot, 0, 32⟩
/-- ARC_SLOT.VALID. -/
def Fld.arcSlotValid : Fld := ⟨Reg.arcSlot, 32, 1⟩
/-- ARC_SLOT.OPEN. -/
def Fld.arcSlotOpen : Fld := ⟨Reg.arcSlot, 33, 1⟩
/-- ARC_SLOT.LOADING. -/
def Fld.arcSlotLoading : Fld := ⟨Reg.arcSlot, 34, 1⟩
/-- ARC_SLOT.OPEN_RING. -/
def Fld.arcSlotOpenRing : Fld := ⟨Reg.arcSlot, 40, 8⟩
/-- ARC_SLOT.SVN. -/
def Fld.arcSlotSvn : Fld := ⟨Reg.arcSlot, 48, 16⟩

/-- ARC_REFUSE (R571). -/
def Reg.arcRefuse : Reg := ⟨0x100060, 0x0, 1, 0x0, 1, false, 0x0, 0x0, 0x0, 0x0, 0x80000000, 0x0, 0x0, 0x0⟩
/-- ARC_REFUSE.CODE. -/
def Fld.arcRefuseCode : Fld := ⟨Reg.arcRefuse, 0, 16⟩
/-- ARC_REFUSE.INDEX. -/
def Fld.arcRefuseIndex : Fld := ⟨Reg.arcRefuse, 16, 5⟩
/-- ARC_REFUSE.COUNT. -/
def Fld.arcRefuseCount : Fld := ⟨Reg.arcRefuse, 24, 4⟩
/-- ARC_REFUSE.VALID. -/
def Fld.arcRefuseValid : Fld := ⟨Reg.arcRefuse, 31, 1⟩

/-- STW_ALARM (R610). -/
def Reg.stwAlarm : Reg := ⟨0x200, 0x0, 1, 0x0, 1, true, 0x0, 0x0, 0x0, 0x0, 0x1FF, 0x0, 0xFF000001FF, 0x0⟩
/-- STW_ALARM.PEND. -/
def Fld.stwAlarmPend : Fld := ⟨Reg.stwAlarm, 0, 9⟩
/-- STW_ALARM.COUNT. -/
def Fld.stwAlarmCount : Fld := ⟨Reg.stwAlarm, 32, 8⟩

/-- STW_START (R610). -/
def Reg.stwStart : Reg := ⟨0xF3000, 0x0, 1, 0x0, 1, false, 0x0, 0x0, 0x0, 0x0, 0x0, 0x7, 0xFFFF0000, 0x0⟩
/-- STW_START.WARM. -/
def Fld.stwStartWarm : Fld := ⟨Reg.stwStart, 0, 1⟩
/-- STW_START.RELOAD. -/
def Fld.stwStartReload : Fld := ⟨Reg.stwStart, 1, 1⟩
/-- STW_START.COLD. -/
def Fld.stwStartCold : Fld := ⟨Reg.stwStart, 2, 1⟩
/-- STW_START.PHASE. -/
def Fld.stwStartPhase : Fld := ⟨Reg.stwStart, 8, 4⟩
/-- STW_START.LAST_CODE. -/
def Fld.stwStartLastCode : Fld := ⟨Reg.stwStart, 16, 16⟩

/-- STW_RST_CAUSE (R610). -/
def Reg.stwRstCause : Reg := ⟨0xF3004, 0x0, 1, 0x0, 1, false, 0x1, 0x0, 0x0, 0x0, 0x0, 0x0, 0x77, 0x8⟩
/-- STW_RST_CAUSE.CAUSE. -/
def Fld.stwRstCauseCause : Fld := ⟨Reg.stwRstCause, 0, 3⟩
/-- STW_RST_CAUSE.KIND. -/
def Fld.stwRstCauseKind : Fld := ⟨Reg.stwRstCause, 3, 1⟩
/-- STW_RST_CAUSE.WARM_EN. -/
def Fld.stwRstCauseWarmEn : Fld := ⟨Reg.stwRstCause, 4, 1⟩
/-- STW_RST_CAUSE.RELOADED. -/
def Fld.stwRstCauseReloaded : Fld := ⟨Reg.stwRstCause, 5, 1⟩
/-- STW_RST_CAUSE.BIST_SKIPPED. -/
def Fld.stwRstCauseBistSkipped : Fld := ⟨Reg.stwRstCause, 6, 1⟩
/-- STW_RST_CAUSE.MAP_REBUILT. -/
def Fld.stwRstCauseMapRebuilt : Fld := ⟨Reg.stwRstCause, 7, 1⟩

/-- STW_BOOT (R610). -/
def Reg.stwBoot : Reg := ⟨0xF3008, 0x0, 1, 0x0, 1, true, 0x0, 0x0, 0xFFFF0000, 0x0, 0x0, 0x100, 0xFFFFFFFFFF00FF, 0x0⟩
/-- STW_BOOT.WARM_FAILS. -/
def Fld.stwBootWarmFails : Fld := ⟨Reg.stwBoot, 0, 2⟩
/-- STW_BOOT.COLD_FAILS. -/
def Fld.stwBootColdFails : Fld := ⟨Reg.stwBoot, 2, 2⟩
/-- STW_BOOT.SLOT. -/
def Fld.stwBootSlot : Fld := ⟨Reg.stwBoot, 4, 2⟩
/-- STW_BOOT.EXHAUSTED. -/
def Fld.stwBootExhausted : Fld := ⟨Reg.stwBoot, 6, 1⟩
/-- STW_BOOT.VOLATILE. -/
def Fld.stwBootVolatile : Fld := ⟨Reg.stwBoot, 7, 1⟩
/-- STW_BOOT.CONFIRM. -/
def Fld.stwBootConfirm : Fld := ⟨Reg.stwBoot, 8, 1⟩
/-- STW_BOOT.CONFIRMED. -/
def Fld.stwBootConfirmed : Fld := ⟨Reg.stwBoot, 9, 1⟩
/-- STW_BOOT.CONFIRM_TMO. -/
def Fld.stwBootConfirmTmo : Fld := ⟨Reg.stwBoot, 16, 16⟩
/-- STW_BOOT.HOURS. -/
def Fld.stwBootHours : Fld := ⟨Reg.stwBoot, 32, 24⟩

/-- STW_FIX (R610). -/
def Reg.stwFix : Reg := ⟨0xF3010, 0x0, 1, 0x0, 1, false, 0x0, 0x0, 0x3, 0x0, 0x0, 0x4, 0xFFFF0003, 0x0⟩
/-- STW_FIX.MODE. -/
def Fld.stwFixMode : Fld := ⟨Reg.stwFix, 0, 2⟩
/-- STW_FIX.GO. -/
def Fld.stwFixGo : Fld := ⟨Reg.stwFix, 2, 1⟩
/-- STW_FIX.RUNNING. -/
def Fld.stwFixRunning : Fld := ⟨Reg.stwFix, 3, 1⟩
/-- STW_FIX.QUEUED. -/
def Fld.stwFixQueued : Fld := ⟨Reg.stwFix, 4, 7⟩
/-- STW_FIX.LAST_CODE. -/
def Fld.stwFixLastCode : Fld := ⟨Reg.stwFix, 16, 16⟩

/-- STW_HEALTH_CFG (R610). -/
def Reg.stwHealthCfg : Reg := ⟨0xF3014, 0x0, 1, 0x0, 1, false, 0x46280A, 0x1FFFFFF, 0x0, 0x0, 0x0, 0x0, 0x1FFFFFF, 0x0⟩
/-- STW_HEALTH_CFG.SWEEP. -/
def Fld.stwHealthCfgSweep : Fld := ⟨Reg.stwHealthCfg, 0, 8⟩
/-- STW_HEALTH_CFG.PLAN_MARGIN. -/
def Fld.stwHealthCfgPlanMargin : Fld := ⟨Reg.stwHealthCfg, 8, 8⟩
/-- STW_HEALTH_CFG.NOW_MARGIN. -/
def Fld.stwHealthCfgNowMargin : Fld := ⟨Reg.stwHealthCfg, 16, 8⟩
/-- STW_HEALTH_CFG.NOTE_EN. -/
def Fld.stwHealthCfgNoteEn : Fld := ⟨Reg.stwHealthCfg, 24, 1⟩

/-- STW_WEAR[2] (R610). -/
def Reg.stwWear : Reg := ⟨0xF3018, 0x8, 2, 0x0, 1, true, 0x192804A0, 0x0, 0x0, 0x0, 0x0, 0x0, 0xFFFF7FFF1F3F07FF, 0x0⟩
/-- STW_WEAR.TILES_LEFT. -/
def Fld.stwWearTilesLeft : Fld := ⟨Reg.stwWear, 0, 8⟩
/-- STW_WEAR.ENGINES_LEFT. -/
def Fld.stwWearEnginesLeft : Fld := ⟨Reg.stwWear, 8, 3⟩
/-- STW_WEAR.BANKS_LEFT. -/
def Fld.stwWearBanksLeft : Fld := ⟨Reg.stwWear, 16, 6⟩
/-- STW_WEAR.SLICES_LEFT. -/
def Fld.stwWearSlicesLeft : Fld := ⟨Reg.stwWear, 24, 4⟩
/-- STW_WEAR.PHASE_LEFT. -/
def Fld.stwWearPhaseLeft : Fld := ⟨Reg.stwWear, 28, 1⟩
/-- STW_WEAR.WORST. -/
def Fld.stwWearWorst : Fld := ⟨Reg.stwWear, 32, 8⟩
/-- STW_WEAR.WORST_SECTOR. -/
def Fld.stwWearWorstSector : Fld := ⟨Reg.stwWear, 40, 7⟩
/-- STW_WEAR.SUBS. -/
def Fld.stwWearSubs : Fld := ⟨Reg.stwWear, 48, 16⟩

/-- STW_SEC_HEALTH[80] (R610). -/
def Reg.stwSecHealth : Reg := ⟨0xF3100, 0x4, 80, 0x0, 1, false, 0xC, 0x0, 0x0, 0x0, 0x0, 0x0, 0x6FFFFFFF, 0x0⟩
/-- STW_SEC_HEALTH.TILES_LEFT. -/
def Fld.stwSecHealthTilesLeft : Fld := ⟨Reg.stwSecHealth, 0, 3⟩
/-- STW_SEC_HEALTH.BANK_LEFT. -/
def Fld.stwSecHealthBankLeft : Fld := ⟨Reg.stwSecHealth, 3, 1⟩
/-- STW_SEC_HEALTH.CELLS_USED. -/
def Fld.stwSecHealthCellsUsed : Fld := ⟨Reg.stwSecHealth, 4, 8⟩
/-- STW_SEC_HEALTH.TRACKS_USED. -/
def Fld.stwSecHealthTracksUsed : Fld := ⟨Reg.stwSecHealth, 12, 8⟩
/-- STW_SEC_HEALTH.WORST. -/
def Fld.stwSecHealthWorst : Fld := ⟨Reg.stwSecHealth, 20, 8⟩
/-- STW_SEC_HEALTH.FROZEN. -/
def Fld.stwSecHealthFrozen : Fld := ⟨Reg.stwSecHealth, 28, 1⟩
/-- STW_SEC_HEALTH.PLANNED. -/
def Fld.stwSecHealthPlanned : Fld := ⟨Reg.stwSecHealth, 29, 1⟩
/-- STW_SEC_HEALTH.FAILED. -/
def Fld.stwSecHealthFailed : Fld := ⟨Reg.stwSecHealth, 30, 1⟩
/-- STW_SEC_HEALTH.BIST. -/
def Fld.stwSecHealthBist : Fld := ⟨Reg.stwSecHealth, 31, 1⟩

/-- BIST_CTL (R610). -/
def Reg.bistCtl : Reg := ⟨0xF4000, 0x0, 1, 0x0, 1, false, 0x0, 0x7F7, 0x0, 0x0, 0x0, 0x80000000, 0x0, 0x0⟩
/-- BIST_CTL.UNIT. -/
def Fld.bistCtlUnit : Fld := ⟨Reg.bistCtl, 0, 3⟩
/-- BIST_CTL.INDEX. -/
def Fld.bistCtlIndex : Fld := ⟨Reg.bistCtl, 4, 7⟩
/-- BIST_CTL.GO. -/
def Fld.bistCtlGo : Fld := ⟨Reg.bistCtl, 31, 1⟩

/-- BIST_STAT (R610). -/
def Reg.bistStat : Reg := ⟨0xF4004, 0x0, 1, 0x0, 1, false, 0x0, 0x0, 0x0, 0x0, 0x0, 0x0, 0x0, 0x0⟩
/-- BIST_STAT.STATE. -/
def Fld.bistStatState : Fld := ⟨Reg.bistStat, 0, 2⟩
/-- BIST_STAT.FAILED. -/
def Fld.bistStatFailed : Fld := ⟨Reg.bistStat, 2, 1⟩
/-- BIST_STAT.CAUSE. -/
def Fld.bistStatCause : Fld := ⟨Reg.bistStat, 4, 2⟩
/-- BIST_STAT.UNITS_FAILED. -/
def Fld.bistStatUnitsFailed : Fld := ⟨Reg.bistStat, 8, 8⟩
/-- BIST_STAT.CODE. -/
def Fld.bistStatCode : Fld := ⟨Reg.bistStat, 16, 16⟩

/-- PWR_STATE (R640). -/
def Reg.pwrState : Reg := ⟨0x20400, 0x0, 1, 0x0, 1, false, 0x0, 0x0, 0x3, 0x0, 0x0, 0x0, 0xFFFF0000, 0x0⟩
/-- PWR_STATE.REQ. -/
def Fld.pwrStateReq : Fld := ⟨Reg.pwrState, 0, 2⟩
/-- PWR_STATE.CUR. -/
def Fld.pwrStateCur : Fld := ⟨Reg.pwrState, 2, 3⟩
/-- PWR_STATE.LAST_CODE. -/
def Fld.pwrStateLastCode : Fld := ⟨Reg.pwrState, 16, 16⟩

/-- PWR_REFUSE (R640). -/
def Reg.pwrRefuse : Reg := ⟨0x20404, 0x0, 1, 0x0, 1, false, 0x0, 0x0, 0x0, 0x0, 0x80000000, 0x0, 0x0, 0x0⟩
/-- PWR_REFUSE.CODE. -/
def Fld.pwrRefuseCode : Fld := ⟨Reg.pwrRefuse, 0, 16⟩
/-- PWR_REFUSE.INDEX. -/
def Fld.pwrRefuseIndex : Fld := ⟨Reg.pwrRefuse, 16, 5⟩
/-- PWR_REFUSE.COUNT. -/
def Fld.pwrRefuseCount : Fld := ⟨Reg.pwrRefuse, 24, 4⟩
/-- PWR_REFUSE.VALID. -/
def Fld.pwrRefuseValid : Fld := ⟨Reg.pwrRefuse, 31, 1⟩

/-- PWR_VFAB[2] (R640). -/
def Reg.pwrVfab : Reg := ⟨0x20410, 0x4, 2, 0x0, 1, false, 0x143C2D8E, 0xFFFF3FFF, 0x0, 0x0, 0x0, 0x0, 0xFFFF3FFF, 0x0⟩
/-- PWR_VFAB.POLICY. -/
def Fld.pwrVfabPolicy : Fld := ⟨Reg.pwrVfab, 0, 2⟩
/-- PWR_VFAB.LEVEL. -/
def Fld.pwrVfabLevel : Fld := ⟨Reg.pwrVfab, 2, 6⟩
/-- PWR_VFAB.MAX. -/
def Fld.pwrVfabMax : Fld := ⟨Reg.pwrVfab, 8, 6⟩
/-- PWR_VFAB.UP. -/
def Fld.pwrVfabUp : Fld := ⟨Reg.pwrVfab, 16, 8⟩
/-- PWR_VFAB.DOWN. -/
def Fld.pwrVfabDown : Fld := ⟨Reg.pwrVfab, 24, 8⟩

/-- PWR_RAIL[2] (R640). -/
def Reg.pwrRail : Reg := ⟨0x20418, 0x4, 2, 0x0, 1, false, 0xC0023, 0x0, 0x0, 0x0, 0x0, 0x0, 0x1FFFFF, 0x0⟩
/-- PWR_RAIL.VFAB. -/
def Fld.pwrRailVfab : Fld := ⟨Reg.pwrRail, 0, 6⟩
/-- PWR_RAIL.SLEWING. -/
def Fld.pwrRailSlewing : Fld := ⟨Reg.pwrRail, 6, 1⟩
/-- PWR_RAIL.CAPPED. -/
def Fld.pwrRailCapped : Fld := ⟨Reg.pwrRail, 7, 1⟩
/-- PWR_RAIL.BACKLOG. -/
def Fld.pwrRailBacklog : Fld := ⟨Reg.pwrRail, 8, 10⟩
/-- PWR_RAIL.PHASES. -/
def Fld.pwrRailPhases : Fld := ⟨Reg.pwrRail, 18, 2⟩
/-- PWR_RAIL.SPARE_USED. -/
def Fld.pwrRailSpareUsed : Fld := ⟨Reg.pwrRail, 20, 1⟩

/-- PWR_VBANK[4] (R640). -/
def Reg.pwrVbank : Reg := ⟨0x20420, 0x4, 4, 0x0, 1, false, 0x0, 0x0, 0x7, 0x0, 0x0, 0x8, 0x27, 0x0⟩
/-- PWR_VBANK.LEVEL. -/
def Fld.pwrVbankLevel : Fld := ⟨Reg.pwrVbank, 0, 2⟩
/-- PWR_VBANK.DARK_ON. -/
def Fld.pwrVbankDarkOn : Fld := ⟨Reg.pwrVbank, 2, 1⟩
/-- PWR_VBANK.SAVE. -/
def Fld.pwrVbankSave : Fld := ⟨Reg.pwrVbank, 3, 1⟩
/-- PWR_VBANK.SLEWING. -/
def Fld.pwrVbankSlewing : Fld := ⟨Reg.pwrVbank, 4, 1⟩
/-- PWR_VBANK.OK. -/
def Fld.pwrVbankOk : Fld := ⟨Reg.pwrVbank, 5, 1⟩

/-- PWR_SUP (R640). -/
def Reg.pwrSup : Reg := ⟨0x20430, 0x0, 1, 0x0, 1, false, 0x54000, 0x1FFC00, 0x0, 0x0, 0x0, 0x0, 0x3FFFFF, 0x0⟩
/-- PWR_SUP.VSUP. -/
def Fld.pwrSupVsup : Fld := ⟨Reg.pwrSup, 0, 10⟩
/-- PWR_SUP.LOW_THR. -/
def Fld.pwrSupLowThr : Fld := ⟨Reg.pwrSup, 10, 10⟩
/-- PWR_SUP.LOW_ACT. -/
def Fld.pwrSupLowAct : Fld := ⟨Reg.pwrSup, 20, 1⟩
/-- PWR_SUP.LOW. -/
def Fld.pwrSupLow : Fld := ⟨Reg.pwrSup, 21, 1⟩

/-- PWR_TEMP (R640). -/
def Reg.pwrTemp : Reg := ⟨0x20434, 0x0, 1, 0x0, 1, false, 0x5F00000, 0xFF00000, 0x0, 0x0, 0x0, 0x10000000, 0x6FFFFFFF, 0x0⟩
/-- PWR_TEMP.TEMP. -/
def Fld.pwrTempTemp : Fld := ⟨Reg.pwrTemp, 0, 10⟩
/-- PWR_TEMP.PEAK. -/
def Fld.pwrTempPeak : Fld := ⟨Reg.pwrTemp, 10, 10⟩
/-- PWR_TEMP.HOT_THR. -/
def Fld.pwrTempHotThr : Fld := ⟨Reg.pwrTemp, 20, 8⟩
/-- PWR_TEMP.PEAK_CLR. -/
def Fld.pwrTempPeakClr : Fld := ⟨Reg.pwrTemp, 28, 1⟩
/-- PWR_TEMP.HOT. -/
def Fld.pwrTempHot : Fld := ⟨Reg.pwrTemp, 29, 1⟩
/-- PWR_TEMP.TRIPPED. -/
def Fld.pwrTempTripped : Fld := ⟨Reg.pwrTemp, 30, 1⟩

/-- PWR_WAKE (R640). -/
def Reg.pwrWake : Reg := ⟨0x20440, 0x0, 1, 0x0, 1, false, 0x0, 0x3FF, 0x0, 0x0, 0x0, 0x0, 0x3FF, 0x0⟩
/-- PWR_WAKE.WAKE_N_EN. -/
def Fld.pwrWakeWakeNEn : Fld := ⟨Reg.pwrWake, 0, 1⟩
/-- PWR_WAKE.PORT_EN. -/
def Fld.pwrWakePortEn : Fld := ⟨Reg.pwrWake, 1, 4⟩
/-- PWR_WAKE.TB_EN. -/
def Fld.pwrWakeTbEn : Fld := ⟨Reg.pwrWake, 5, 2⟩
/-- PWR_WAKE.DT_EN. -/
def Fld.pwrWakeDtEn : Fld := ⟨Reg.pwrWake, 7, 1⟩
/-- PWR_WAKE.HOST_EN. -/
def Fld.pwrWakeHostEn : Fld := ⟨Reg.pwrWake, 8, 1⟩
/-- PWR_WAKE.XTAL_KEEP. -/
def Fld.pwrWakeXtalKeep : Fld := ⟨Reg.pwrWake, 9, 1⟩

/-- PWR_WAKE_STAT (R640). -/
def Reg.pwrWakeStat : Reg := ⟨0x20444, 0x0, 1, 0x0, 1, false, 0x0, 0x0, 0x0, 0x0, 0x0, 0x0, 0x3F, 0x0⟩
/-- PWR_WAKE_STAT.SOURCE. -/
def Fld.pwrWakeStatSource : Fld := ⟨Reg.pwrWakeStat, 0, 4⟩
/-- PWR_WAKE_STAT.INDEX. -/
def Fld.pwrWakeStatIndex : Fld := ⟨Reg.pwrWakeStat, 4, 2⟩

/-- PWR_WAKE_PORT[4] (R640). -/
def Reg.pwrWakePort : Reg := ⟨0x20450, 0x4, 4, 0x0, 1, false, 0x0, 0x3FF, 0x0, 0x0, 0x0, 0x0, 0x3FF, 0x0⟩
/-- PWR_WAKE_PORT.PORT. -/
def Fld.pwrWakePortPort : Fld := ⟨Reg.pwrWakePort, 0, 8⟩
/-- PWR_WAKE_PORT.EDGE. -/
def Fld.pwrWakePortEdge : Fld := ⟨Reg.pwrWakePort, 8, 2⟩

/-- PWR_WAKE_TB[2] (R640). -/
def Reg.pwrWakeTb : Reg := ⟨0x20480, 0x20, 2, 0x0, 1, false, 0x0, 0x1F, 0x0, 0x0, 0x0, 0x0, 0x1F, 0x0⟩
/-- PWR_WAKE_TB.TB. -/
def Fld.pwrWakeTbTb : Fld := ⟨Reg.pwrWakeTb, 0, 5⟩

/-- PWR_WAKE_LO[2] (R640). -/
def Reg.pwrWakeLo : Reg := ⟨0x20488, 0x20, 2, 0x0, 1, true, 0x0, 0xFFFFFFFFFFFFFFFF, 0x0, 0x0, 0x0, 0x0, 0xFFFFFFFFFFFFFFFF, 0x0⟩
/-- PWR_WAKE_LO.VALUE. -/
def Fld.pwrWakeLoValue : Fld := ⟨Reg.pwrWakeLo, 0, 64⟩

/-- PWR_WAKE_HI[2] (R640). -/
def Reg.pwrWakeHi : Reg := ⟨0x20490, 0x20, 2, 0x0, 1, true, 0x0, 0xFFFFFFFFFFFFFFFF, 0x0, 0x0, 0x0, 0x0, 0xFFFFFFFFFFFFFFFF, 0x0⟩
/-- PWR_WAKE_HI.VALUE. -/
def Fld.pwrWakeHiValue : Fld := ⟨Reg.pwrWakeHi, 0, 64⟩

/-- PWR_WAKE_DT (R640). -/
def Reg.pwrWakeDt : Reg := ⟨0x204C0, 0x0, 1, 0x0, 1, true, 0x0, 0xFFFFFFFFFFFFFFFF, 0x0, 0x0, 0x0, 0x0, 0xFFFFFFFFFFFFFFFF, 0x0⟩
/-- PWR_WAKE_DT.VALUE. -/
def Fld.pwrWakeDtValue : Fld := ⟨Reg.pwrWakeDt, 0, 64⟩

/-- PIN_CFG[144] (R672). -/
def Reg.pinCfg : Reg := ⟨0x30000, 0x20, 144, 0x0, 1, false, 0x0, 0x0, 0x1FFFFFF, 0x0, 0x0, 0x0, 0x1FFFFFF, 0x0⟩
/-- PIN_CFG.DIFF. -/
def Fld.pinCfgDiff : Fld := ⟨Reg.pinCfg, 0, 1⟩
/-- PIN_CFG.TERM. -/
def Fld.pinCfgTerm : Fld := ⟨Reg.pinCfg, 1, 1⟩
/-- PIN_CFG.PULL_A. -/
def Fld.pinCfgPullA : Fld := ⟨Reg.pinCfg, 2, 2⟩
/-- PIN_CFG.PULL_B. -/
def Fld.pinCfgPullB : Fld := ⟨Reg.pinCfg, 4, 2⟩
/-- PIN_CFG.DRIVE. -/
def Fld.pinCfgDrive : Fld := ⟨Reg.pinCfg, 6, 2⟩
/-- PIN_CFG.SLOW. -/
def Fld.pinCfgSlow : Fld := ⟨Reg.pinCfg, 8, 1⟩
/-- PIN_CFG.FILT. -/
def Fld.pinCfgFilt : Fld := ⟨Reg.pinCfg, 9, 2⟩
/-- PIN_CFG.DEBOUNCE. -/
def Fld.pinCfgDebounce : Fld := ⟨Reg.pinCfg, 11, 8⟩
/-- PIN_CFG.INV_A. -/
def Fld.pinCfgInvA : Fld := ⟨Reg.pinCfg, 19, 1⟩
/-- PIN_CFG.INV_B. -/
def Fld.pinCfgInvB : Fld := ⟨Reg.pinCfg, 20, 1⟩
/-- PIN_CFG.SLEEP_A. -/
def Fld.pinCfgSleepA : Fld := ⟨Reg.pinCfg, 21, 2⟩
/-- PIN_CFG.SLEEP_B. -/
def Fld.pinCfgSleepB : Fld := ⟨Reg.pinCfg, 23, 2⟩

/-- PIN_MUX[144] (R672). -/
def Reg.pinMux : Reg := ⟨0x30004, 0x20, 144, 0x0, 1, false, 0x0, 0x0, 0xFFFFFF, 0x0, 0x0, 0x0, 0xFFFFFF, 0x0⟩
/-- PIN_MUX.FN_A. -/
def Fld.pinMuxFnA : Fld := ⟨Reg.pinMux, 0, 4⟩
/-- PIN_MUX.SEL_A. -/
def Fld.pinMuxSelA : Fld := ⟨Reg.pinMux, 4, 8⟩
/-- PIN_MUX.FN_B. -/
def Fld.pinMuxFnB : Fld := ⟨Reg.pinMux, 12, 4⟩
/-- PIN_MUX.SEL_B. -/
def Fld.pinMuxSelB : Fld := ⟨Reg.pinMux, 16, 8⟩

/-- PIN_OVL[144] (R672). -/
def Reg.pinOvl : Reg := ⟨0x30008, 0x20, 144, 0x0, 1, false, 0x0, 0x0, 0xFFF, 0x0, 0x0, 0x0, 0xFFF, 0x0⟩
/-- PIN_OVL.LINE_A. -/
def Fld.pinOvlLineA : Fld := ⟨Reg.pinOvl, 0, 5⟩
/-- PIN_OVL.EN_A. -/
def Fld.pinOvlEnA : Fld := ⟨Reg.pinOvl, 5, 1⟩
/-- PIN_OVL.LINE_B. -/
def Fld.pinOvlLineB : Fld := ⟨Reg.pinOvl, 6, 5⟩
/-- PIN_OVL.EN_B. -/
def Fld.pinOvlEnB : Fld := ⟨Reg.pinOvl, 11, 1⟩

/-- PIN_OWN[144] (R672). -/
def Reg.pinOwn : Reg := ⟨0x3000C, 0x20, 144, 0x0, 1, false, 0x0, 0x0, 0xFF, 0x0, 0x0, 0x0, 0xFF, 0x0⟩
/-- PIN_OWN.OWNER. -/
def Fld.pinOwnOwner : Fld := ⟨Reg.pinOwn, 0, 8⟩

/-- PIN_OUT[144] (R672). -/
def Reg.pinOut : Reg := ⟨0x30010, 0x20, 144, 0x0, 1, false, 0x0, 0xF, 0x0, 0x0, 0x0, 0x0, 0xF, 0x0⟩
/-- PIN_OUT.LEVEL_A. -/
def Fld.pinOutLevelA : Fld := ⟨Reg.pinOut, 0, 1⟩
/-- PIN_OUT.OE_A. -/
def Fld.pinOutOeA : Fld := ⟨Reg.pinOut, 1, 1⟩
/-- PIN_OUT.LEVEL_B. -/
def Fld.pinOutLevelB : Fld := ⟨Reg.pinOut, 2, 1⟩
/-- PIN_OUT.OE_B. -/
def Fld.pinOutOeB : Fld := ⟨Reg.pinOut, 3, 1⟩

/-- PIN_PWM[144] (R672). -/
def Reg.pinPwm : Reg := ⟨0x30014, 0x20, 144, 0x0, 1, false, 0x0, 0xFFFFFFFF, 0x0, 0x0, 0x0, 0x0, 0xFFFFFFFF, 0x0⟩
/-- PIN_PWM.PERIOD. -/
def Fld.pinPwmPeriod : Fld := ⟨Reg.pinPwm, 0, 16⟩
/-- PIN_PWM.HIGH. -/
def Fld.pinPwmHigh : Fld := ⟨Reg.pinPwm, 16, 16⟩

/-- PIN_STAT[144] (R672). -/
def Reg.pinStat : Reg := ⟨0x30018, 0x20, 144, 0x0, 1, false, 0x1, 0x0, 0x0, 0x0, 0x18, 0x0, 0x1FC, 0x1⟩
/-- PIN_STAT.SAFE. -/
def Fld.pinStatSafe : Fld := ⟨Reg.pinStat, 0, 1⟩
/-- PIN_STAT.SLEEP. -/
def Fld.pinStatSleep : Fld := ⟨Reg.pinStat, 1, 1⟩
/-- PIN_STAT.LINE_FAULT. -/
def Fld.pinStatLineFault : Fld := ⟨Reg.pinStat, 2, 1⟩
/-- PIN_STAT.OVERLOAD_A. -/
def Fld.pinStatOverloadA : Fld := ⟨Reg.pinStat, 3, 1⟩
/-- PIN_STAT.OVERLOAD_B. -/
def Fld.pinStatOverloadB : Fld := ⟨Reg.pinStat, 4, 1⟩
/-- PIN_STAT.SPARE_A. -/
def Fld.pinStatSpareA : Fld := ⟨Reg.pinStat, 5, 1⟩
/-- PIN_STAT.SPARE_B. -/
def Fld.pinStatSpareB : Fld := ⟨Reg.pinStat, 6, 1⟩
/-- PIN_STAT.DEAD_A. -/
def Fld.pinStatDeadA : Fld := ⟨Reg.pinStat, 7, 1⟩
/-- PIN_STAT.DEAD_B. -/
def Fld.pinStatDeadB : Fld := ⟨Reg.pinStat, 8, 1⟩
/-- PIN_STAT.SWITCHING. -/
def Fld.pinStatSwitching : Fld := ⟨Reg.pinStat, 9, 1⟩

/-- PIN_CAL[144] (R672). -/
def Reg.pinCal : Reg := ⟨0x3001C, 0x20, 144, 0x0, 1, false, 0x0, 0x0, 0x0, 0x0, 0x0, 0x0, 0xFFFFFFFF, 0x0⟩
/-- PIN_CAL.T_OUT. -/
def Fld.pinCalTOut : Fld := ⟨Reg.pinCal, 0, 16⟩
/-- PIN_CAL.T_IN. -/
def Fld.pinCalTIn : Fld := ⟨Reg.pinCal, 16, 16⟩

/-- PIN_IN[9] (R672). -/
def Reg.pinIn : Reg := ⟨0x32000, 0x4, 9, 0x0, 1, false, 0x0, 0x0, 0x0, 0x0, 0x0, 0x0, 0xFFFFFFFF, 0x0⟩
/-- PIN_IN.VALUE. -/
def Fld.pinInValue : Fld := ⟨Reg.pinIn, 0, 32⟩

/-- PIN_DAC_CFG[16] (R672). -/
def Reg.pinDacCfg : Reg := ⟨0x33000, 0x10, 16, 0x0, 1, false, 0x0, 0x0, 0xFFFF01FF, 0x0, 0x0, 0x0, 0xFFFF01FF, 0x0⟩
/-- PIN_DAC_CFG.OWNER. -/
def Fld.pinDacCfgOwner : Fld := ⟨Reg.pinDacCfg, 0, 8⟩
/-- PIN_DAC_CFG.EN. -/
def Fld.pinDacCfgEn : Fld := ⟨Reg.pinDacCfg, 8, 1⟩
/-- PIN_DAC_CFG.SLEEP_CODE. -/
def Fld.pinDacCfgSleepCode : Fld := ⟨Reg.pinDacCfg, 16, 16⟩

/-- PIN_DAC_CODE[16] (R672). -/
def Reg.pinDacCode : Reg := ⟨0x33004, 0x10, 16, 0x0, 1, false, 0x8000, 0xFFFF, 0x0, 0x0, 0x0, 0x0, 0xFFFF, 0x0⟩
/-- PIN_DAC_CODE.CODE. -/
def Fld.pinDacCodeCode : Fld := ⟨Reg.pinDacCode, 0, 16⟩

/-- PIN_AIN_CFG[16] (R672). -/
def Reg.pinAinCfg : Reg := ⟨0x34000, 0x10, 16, 0x0, 1, false, 0x0, 0x0, 0x3F, 0x0, 0x0, 0x0, 0x3F, 0x0⟩
/-- PIN_AIN_CFG.MODE. -/
def Fld.pinAinCfgMode : Fld := ⟨Reg.pinAinCfg, 0, 2⟩
/-- PIN_AIN_CFG.TERM. -/
def Fld.pinAinCfgTerm : Fld := ⟨Reg.pinAinCfg, 2, 1⟩
/-- PIN_AIN_CFG.HYST. -/
def Fld.pinAinCfgHyst : Fld := ⟨Reg.pinAinCfg, 3, 2⟩
/-- PIN_AIN_CFG.ATTEN. -/
def Fld.pinAinCfgAtten : Fld := ⟨Reg.pinAinCfg, 5, 1⟩

/-- PIN_AIN_RAW[16] (R672). -/
def Reg.pinAinRaw : Reg := ⟨0x34004, 0x10, 16, 0x0, 1, false, 0x0, 0x0, 0x0, 0x0, 0x0, 0x0, 0x0, 0x0⟩
/-- PIN_AIN_RAW.S. -/
def Fld.pinAinRawS : Fld := ⟨Reg.pinAinRaw, 0, 14⟩
/-- PIN_AIN_RAW.C. -/
def Fld.pinAinRawC : Fld := ⟨Reg.pinAinRaw, 16, 14⟩

/-- PIN_LANE_CFG[4] (R672). -/
def Reg.pinLaneCfg : Reg := ⟨0x35000, 0x40, 4, 0x0, 1, false, 0x0, 0x0, 0xFFFFFF, 0x0, 0x0, 0x0, 0xFFFFFF, 0x0⟩
/-- PIN_LANE_CFG.RATE. -/
def Fld.pinLaneCfgRate : Fld := ⟨Reg.pinLaneCfg, 0, 3⟩
/-- PIN_LANE_CFG.EN. -/
def Fld.pinLaneCfgEn : Fld := ⟨Reg.pinLaneCfg, 3, 1⟩
/-- PIN_LANE_CFG.PCS. -/
def Fld.pinLaneCfgPcs : Fld := ⟨Reg.pinLaneCfg, 4, 1⟩
/-- PIN_LANE_CFG.RX_INV. -/
def Fld.pinLaneCfgRxInv : Fld := ⟨Reg.pinLaneCfg, 5, 1⟩
/-- PIN_LANE_CFG.TX_INV. -/
def Fld.pinLaneCfgTxInv : Fld := ⟨Reg.pinLaneCfg, 6, 1⟩
/-- PIN_LANE_CFG.DROP_IDLE. -/
def Fld.pinLaneCfgDropIdle : Fld := ⟨Reg.pinLaneCfg, 7, 1⟩
/-- PIN_LANE_CFG.QTX. -/
def Fld.pinLaneCfgQtx : Fld := ⟨Reg.pinLaneCfg, 8, 8⟩
/-- PIN_LANE_CFG.QRX. -/
def Fld.pinLaneCfgQrx : Fld := ⟨Reg.pinLaneCfg, 16, 8⟩

/-- PIN_LANE_STAT[4] (R672). -/
def Reg.pinLaneStat : Reg := ⟨0x35004, 0x40, 4, 0x0, 1, false, 0x0, 0x0, 0x0, 0x0, 0x0, 0x0, 0xFFFF07FF, 0x0⟩
/-- PIN_LANE_STAT.STATE. -/
def Fld.pinLaneStatState : Fld := ⟨Reg.pinLaneStat, 0, 3⟩
/-- PIN_LANE_STAT.OFS_VALID. -/
def Fld.pinLaneStatOfsValid : Fld := ⟨Reg.pinLaneStat, 3, 1⟩
/-- PIN_LANE_STAT.PEER_INDEX. -/
def Fld.pinLaneStatPeerIndex : Fld := ⟨Reg.pinLaneStat, 4, 4⟩
/-- PIN_LANE_STAT.EXPORTS. -/
def Fld.pinLaneStatExports : Fld := ⟨Reg.pinLaneStat, 8, 3⟩
/-- PIN_LANE_STAT.LAST_CODE. -/
def Fld.pinLaneStatLastCode : Fld := ⟨Reg.pinLaneStat, 16, 16⟩

/-- PIN_LANE_CNT[4] (R672). -/
def Reg.pinLaneCnt : Reg := ⟨0x35008, 0x40, 4, 0x0, 1, true, 0x0, 0x0, 0x0, 0x0, 0x0, 0x0, 0xFFFFFFFFFFFFFFFF, 0x0⟩
/-- PIN_LANE_CNT.CODE_ERR. -/
def Fld.pinLaneCntCodeErr : Fld := ⟨Reg.pinLaneCnt, 0, 16⟩
/-- PIN_LANE_CNT.CRC_ERR. -/
def Fld.pinLaneCntCrcErr : Fld := ⟨Reg.pinLaneCnt, 16, 16⟩
/-- PIN_LANE_CNT.RX_DROP. -/
def Fld.pinLaneCntRxDrop : Fld := ⟨Reg.pinLaneCnt, 32, 16⟩
/-- PIN_LANE_CNT.RETRAINS. -/
def Fld.pinLaneCntRetrains : Fld := ⟨Reg.pinLaneCnt, 48, 16⟩

/-- PIN_LANE_OFS[4] (R672). -/
def Reg.pinLaneOfs : Reg := ⟨0x35010, 0x40, 4, 0x0, 1, true, 0x0, 0x0, 0x0, 0x0, 0x0, 0x0, 0xFFFFFFFFFFFFFFFF, 0x0⟩
/-- PIN_LANE_OFS.VALUE. -/
def Fld.pinLaneOfsValue : Fld := ⟨Reg.pinLaneOfs, 0, 64⟩

/-- PIN_LANE_DLY[4] (R672). -/
def Reg.pinLaneDly : Reg := ⟨0x35018, 0x40, 4, 0x0, 1, false, 0x0, 0x0, 0x0, 0x0, 0x0, 0x0, 0xFFFFFFFF, 0x0⟩
/-- PIN_LANE_DLY.VALUE. -/
def Fld.pinLaneDlyValue : Fld := ⟨Reg.pinLaneDly, 0, 32⟩

/-- PIN_LANE_ASYM[4] (R672). -/
def Reg.pinLaneAsym : Reg := ⟨0x3501C, 0x40, 4, 0x0, 1, false, 0x0, 0x0, 0xFFFF, 0x0, 0x0, 0x0, 0xFFFF, 0x0⟩
/-- PIN_LANE_ASYM.ASYM. -/
def Fld.pinLaneAsymAsym : Fld := ⟨Reg.pinLaneAsym, 0, 16⟩

/-- PIN_REFUSE (R672). -/
def Reg.pinRefuse : Reg := ⟨0x36000, 0x0, 1, 0x0, 1, false, 0x0, 0x0, 0x0, 0x0, 0x80000000, 0x0, 0x0, 0x0⟩
/-- PIN_REFUSE.CODE. -/
def Fld.pinRefuseCode : Fld := ⟨Reg.pinRefuse, 0, 16⟩
/-- PIN_REFUSE.INDEX. -/
def Fld.pinRefuseIndex : Fld := ⟨Reg.pinRefuse, 16, 8⟩
/-- PIN_REFUSE.COUNT. -/
def Fld.pinRefuseCount : Fld := ⟨Reg.pinRefuse, 24, 4⟩
/-- PIN_REFUSE.KIND. -/
def Fld.pinRefuseKind : Fld := ⟨Reg.pinRefuse, 28, 2⟩
/-- PIN_REFUSE.VALID. -/
def Fld.pinRefuseValid : Fld := ⟨Reg.pinRefuse, 31, 1⟩

/-- PIN_GCTL (R672). -/
def Reg.pinGctl : Reg := ⟨0x36004, 0x0, 1, 0x0, 1, false, 0x0, 0x1, 0x0, 0x0, 0x0, 0x6, 0x1, 0x0⟩
/-- PIN_GCTL.NOTE_EN. -/
def Fld.pinGctlNoteEn : Fld := ⟨Reg.pinGctl, 0, 1⟩
/-- PIN_GCTL.CNT_CLR. -/
def Fld.pinGctlCntClr : Fld := ⟨Reg.pinGctl, 1, 1⟩
/-- PIN_GCTL.SAVE. -/
def Fld.pinGctlSave : Fld := ⟨Reg.pinGctl, 2, 1⟩

/-- STW_DEV_ID (R698). -/
def Reg.stwDevId : Reg := ⟨0xF0000, 0x0, 1, 0x0, 1, false, 0x51196AB0, 0x0, 0x0, 0x0, 0x0, 0x0, 0xFFFFFFFF, 0x0⟩
/-- STW_DEV_ID.STEP. -/
def Fld.stwDevIdStep : Fld := ⟨Reg.stwDevId, 0, 8⟩
/-- STW_DEV_ID.PART. -/
def Fld.stwDevIdPart : Fld := ⟨Reg.stwDevId, 8, 12⟩
/-- STW_DEV_ID.FAMILY. -/
def Fld.stwDevIdFamily : Fld := ⟨Reg.stwDevId, 20, 4⟩
/-- STW_DEV_ID.VENDOR. -/
def Fld.stwDevIdVendor : Fld := ⟨Reg.stwDevId, 24, 8⟩

/-- STW_DEV_INFO (R698). -/
def Reg.stwDevInfo : Reg := ⟨0xF0004, 0x0, 1, 0x0, 1, false, 0x100, 0x0, 0x0, 0x0, 0x0, 0x0, 0xFF03, 0x0⟩
/-- STW_DEV_INFO.GRADE. -/
def Fld.stwDevInfoGrade : Fld := ⟨Reg.stwDevInfo, 0, 2⟩
/-- STW_DEV_INFO.PACKAGE. -/
def Fld.stwDevInfoPackage : Fld := ⟨Reg.stwDevInfo, 8, 8⟩

/-- STW_DEV_SERIAL (R698). -/
def Reg.stwDevSerial : Reg := ⟨0xF0008, 0x0, 1, 0x0, 1, true, 0x0, 0x0, 0x0, 0x0, 0x0, 0x0, 0xFFFFFFFFFFFFFFFF, 0x0⟩
/-- STW_DEV_SERIAL.VALUE. -/
def Fld.stwDevSerialValue : Fld := ⟨Reg.stwDevSerial, 0, 64⟩

/-- STW_LEAD (R44). -/
def Reg.stwLead : Reg := ⟨0xF0100, 0x0, 1, 0x0, 1, false, 0x0, 0x0, 0x100, 0x0, 0xE00, 0x0, 0xFFFF0601, 0x0⟩
/-- STW_LEAD.LEADER. -/
def Fld.stwLeadLeader : Fld := ⟨Reg.stwLead, 0, 1⟩
/-- STW_LEAD.STATE. -/
def Fld.stwLeadState : Fld := ⟨Reg.stwLead, 2, 2⟩
/-- STW_LEAD.DISAGREE. -/
def Fld.stwLeadDisagree : Fld := ⟨Reg.stwLead, 4, 2⟩
/-- STW_LEAD.HANDOVER. -/
def Fld.stwLeadHandover : Fld := ⟨Reg.stwLead, 8, 1⟩
/-- STW_LEAD.SPLIT_SEEN. -/
def Fld.stwLeadSplitSeen : Fld := ⟨Reg.stwLead, 9, 1⟩
/-- STW_LEAD.CONFLICT_SEEN. -/
def Fld.stwLeadConflictSeen : Fld := ⟨Reg.stwLead, 10, 1⟩
/-- STW_LEAD.HANDOVER_REFUSED. -/
def Fld.stwLeadHandoverRefused : Fld := ⟨Reg.stwLead, 11, 1⟩
/-- STW_LEAD.CONFLICT_COUNT. -/
def Fld.stwLeadConflictCount : Fld := ⟨Reg.stwLead, 16, 8⟩
/-- STW_LEAD.SPLIT_COUNT. -/
def Fld.stwLeadSplitCount : Fld := ⟨Reg.stwLead, 24, 8⟩

/-- STW_LOAD[2] (R31). -/
def Reg.stwLoad : Reg := ⟨0xF0140, 0x4, 2, 0x0, 1, false, 0x0, 0x0, 0x0, 0x0, 0x0, 0x80000000, 0x0, 0x0⟩
/-- STW_LOAD.LOAD. -/
def Fld.stwLoadLoad : Fld := ⟨Reg.stwLoad, 0, 10⟩
/-- STW_LOAD.PEAK. -/
def Fld.stwLoadPeak : Fld := ⟨Reg.stwLoad, 16, 10⟩
/-- STW_LOAD.PEAK_CLR. -/
def Fld.stwLoadPeakClr : Fld := ⟨Reg.stwLoad, 31, 1⟩

/-- STW_SEC_HOLD[80] (R193). -/
def Reg.stwSecHold : Reg := ⟨0xF0400, 0x4, 80, 0x0, 1, false, 0x7, 0x10, 0x0, 0x0, 0x0, 0x0, 0x0, 0x7⟩
/-- STW_SEC_HOLD.OUT_HELD. -/
def Fld.stwSecHoldOutHeld : Fld := ⟨Reg.stwSecHold, 0, 1⟩
/-- STW_SEC_HOLD.WR_HELD. -/
def Fld.stwSecHoldWrHeld : Fld := ⟨Reg.stwSecHold, 1, 1⟩
/-- STW_SEC_HOLD.RST_HELD. -/
def Fld.stwSecHoldRstHeld : Fld := ⟨Reg.stwSecHold, 2, 1⟩
/-- STW_SEC_HOLD.DARK. -/
def Fld.stwSecHoldDark : Fld := ⟨Reg.stwSecHold, 3, 1⟩
/-- STW_SEC_HOLD.URST. -/
def Fld.stwSecHoldUrst : Fld := ⟨Reg.stwSecHold, 4, 1⟩
/-- STW_SEC_HOLD.URST_ACT. -/
def Fld.stwSecHoldUrstAct : Fld := ⟨Reg.stwSecHold, 5, 1⟩
/-- STW_SEC_HOLD.TAP_ACTIVE. -/
def Fld.stwSecHoldTapActive : Fld := ⟨Reg.stwSecHold, 8, 4⟩

/-- MSIX_ADDR[256] (R416). -/
def Reg.msixAddr : Reg := ⟨0x118000, 0x10, 256, 0x0, 1, true, 0x0, 0xFFFFFFFFFFFFFFFF, 0x0, 0x0, 0x0, 0x0, 0xFFFFFFFFFFFFFFFF, 0x0⟩
/-- MSIX_ADDR.VALUE. -/
def Fld.msixAddrValue : Fld := ⟨Reg.msixAddr, 0, 64⟩

/-- MSIX_DATA[256] (R416). -/
def Reg.msixData : Reg := ⟨0x118008, 0x10, 256, 0x0, 1, false, 0x0, 0xFFFFFFFF, 0x0, 0x0, 0x0, 0x0, 0xFFFFFFFF, 0x0⟩
/-- MSIX_DATA.VALUE. -/
def Fld.msixDataValue : Fld := ⟨Reg.msixData, 0, 32⟩

/-- MSIX_CTRL[256] (R416). -/
def Reg.msixCtrl : Reg := ⟨0x11800C, 0x10, 256, 0x0, 1, false, 0x1, 0x1, 0x0, 0x0, 0x0, 0x0, 0x1, 0x0⟩
/-- MSIX_CTRL.MASK. -/
def Fld.msixCtrlMask : Fld := ⟨Reg.msixCtrl, 0, 1⟩

/-- MSIX_PBA[4] (R416). -/
def Reg.msixPba : Reg := ⟨0x119000, 0x8, 4, 0x0, 1, true, 0x0, 0x0, 0x0, 0x0, 0x0, 0x0, 0xFFFFFFFFFFFFFFFF, 0x0⟩
/-- MSIX_PBA.VALUE. -/
def Fld.msixPbaValue : Fld := ⟨Reg.msixPba, 0, 64⟩

/-- Part 0 of the list of all registers. -/
def RegMap.part0 : List Reg :=
  [Reg.tbCfg, Reg.tbCtl, Reg.tbStat, Reg.tbSrc, Reg.tbSrcp,
   Reg.tbAnaCal, Reg.tbGearNum, Reg.tbGearDen, Reg.tbGearOfs, Reg.tbPos,
   Reg.tbVel, Reg.tbAcc, Reg.tbStamp, Reg.tbPreset, Reg.tbIdxPos,
   Reg.tbAccMax, Reg.tbInnovMax, Reg.tbRev, Reg.tbTimeout, Reg.tbFault,
   Reg.tbErrcnt, Reg.tbDt, Reg.tbRefuse, Reg.tbSnapMask, Reg.tbSnapCtl]

/-- Part 1 of the list of all registers. -/
def RegMap.part1 : List Reg :=
  [Reg.tbSnapDt, Reg.tbSnapPos, Reg.tbSnapVel, Reg.tbSnapAcc, Reg.tbSnapStat,
   Reg.evtCfg, Reg.evtKill, Reg.evtRefuse, Reg.evtStat, Reg.evtCnt,
   Reg.evtSlotSel, Reg.evtSlotStat, Reg.evtSlotPred, Reg.evtSlotImg, Reg.evtLineCfg,
   Reg.evtLineStat, Reg.evtCapCfg, Reg.evtCapStat, Reg.stwSportCfg, Reg.stwSportStat,
   Reg.stwSportCnt, Reg.stwSpineStat, Reg.stwTokDest, Reg.bnkOwn, Reg.bnkCtl]

/-- Part 2 of the list of all registers. -/
def RegMap.part2 : List Reg :=
  [Reg.bnkStat, Reg.bnkCnt, Reg.bnkConf, Reg.bnkPerr, Reg.bnkRefuse,
   Reg.bnkGctl, Reg.queCfg, Reg.queCtl, Reg.queWm, Reg.queStat,
   Reg.queCnt, Reg.queLast, Reg.clkSrc, Reg.clkStat, Reg.clkMon,
   Reg.clkRefuse, Reg.clkGctl, Reg.clkGate, Reg.clkXingCnt, Reg.engCtl,
   Reg.engStat, Reg.engRefuse, Reg.engCnt, Reg.engIchStat, Reg.engOchDest]

/-- Part 3 of the list of all registers. -/
def RegMap.part3 : List Reg :=
  [Reg.engCtxCfg, Reg.engCtxCtl, Reg.engCtxStat, Reg.engCtxPc, Reg.engCtxVec,
   Reg.engCtxEvq, Reg.engCtxEvqPtr, Reg.engCtxWake, Reg.engCtxFault, Reg.engCtxFaddr,
   Reg.rngPhpPage, Reg.rngPhpStat, Reg.rngBase, Reg.rngCfg, Reg.rngOwn,
   Reg.rngCtl, Reg.rngStat, Reg.rngIdx, Reg.rngMod, Reg.rngFault,
   Reg.rngFaddr, Reg.rngCnt, Reg.rngGctl, Reg.rngRefuse, Reg.rngLink]

/-- Part 4 of the list of all registers. -/
def RegMap.part4 : List Reg :=
  [Reg.rngSheetBase, Reg.rngSheetCfg, Reg.rngSheetStat, Reg.rngNoteVec, Reg.rngMovStat,
   Reg.rngVec, Reg.wtuLink, Reg.wtuSvn, Reg.wtuKeyCtl, Reg.wtuKeyData,
   Reg.wtuBootLock, Reg.wtuDebug, Reg.wtuLifeStat, Reg.wtuSpace, Reg.wtuFab,
   Reg.wtuInv, Reg.wtuInvVa, Reg.wtuDeny, Reg.wtuFlog, Reg.wtuFlogVa,
   Reg.wtuGctl, Reg.wtuCnt, Reg.ldrCtl, Reg.ldrCfg, Reg.ldrStat]

/-- Part 5 of the list of all registers. -/
def RegMap.part5 : List Reg :=
  [Reg.ldrErr, Reg.ldrProg, Reg.ldrLeader, Reg.ldrHeld, Reg.ldrChain,
   Reg.ldrCheck, Reg.ldrCheckFail, Reg.ldrRbSel, Reg.ldrRbData, Reg.ldrSecCrc,
   Reg.arcCtl, Reg.arcCfg, Reg.arcStat, Reg.arcIf, Reg.arcGeom,
   Reg.arcData, Reg.arcWear, Reg.arcWl, Reg.arcCnt, Reg.arcBoot,
   Reg.arcSlot, Reg.arcRefuse, Reg.stwAlarm, Reg.stwStart, Reg.stwRstCause]

/-- Part 6 of the list of all registers. -/
def RegMap.part6 : List Reg :=
  [Reg.stwBoot, Reg.stwFix, Reg.stwHealthCfg, Reg.stwWear, Reg.stwSecHealth,
   Reg.bistCtl, Reg.bistStat, Reg.pwrState, Reg.pwrRefuse, Reg.pwrVfab,
   Reg.pwrRail, Reg.pwrVbank, Reg.pwrSup, Reg.pwrTemp, Reg.pwrWake,
   Reg.pwrWakeStat, Reg.pwrWakePort, Reg.pwrWakeTb, Reg.pwrWakeLo, Reg.pwrWakeHi,
   Reg.pwrWakeDt, Reg.pinCfg, Reg.pinMux, Reg.pinOvl, Reg.pinOwn]

/-- Part 7 of the list of all registers. -/
def RegMap.part7 : List Reg :=
  [Reg.pinOut, Reg.pinPwm, Reg.pinStat, Reg.pinCal, Reg.pinIn,
   Reg.pinDacCfg, Reg.pinDacCode, Reg.pinAinCfg, Reg.pinAinRaw, Reg.pinLaneCfg,
   Reg.pinLaneStat, Reg.pinLaneCnt, Reg.pinLaneOfs, Reg.pinLaneDly, Reg.pinLaneAsym,
   Reg.pinRefuse, Reg.pinGctl, Reg.stwDevId, Reg.stwDevInfo, Reg.stwDevSerial,
   Reg.stwLead, Reg.stwLoad, Reg.stwSecHold, Reg.msixAddr, Reg.msixData]

/-- Part 8 of the list of all registers. -/
def RegMap.part8 : List Reg :=
  [Reg.msixCtrl, Reg.msixPba]

/-- Every register of the tables. -/
def RegMap.all : List Reg :=
  RegMap.part0 ++ RegMap.part1 ++ RegMap.part2 ++ RegMap.part3 ++ RegMap.part4 ++ RegMap.part5 ++ RegMap.part6 ++ RegMap.part7 ++ RegMap.part8

/-- The offset of element (i, j). -/
def Reg.addr (r : Reg) (i j : Nat) : Nat := r.base + i * r.stride + j * r.stride2

/-- The indices (i, j) of the element whose first byte stands at `off`, if there is one. -/
def Reg.find (r : Reg) (off : Nat) : Option (Nat × Nat) :=
  if off < r.base then none else
    let d := off - r.base
    let i := if r.stride = 0 then 0 else d / r.stride
    let e := d - i * r.stride
    let j := if r.stride2 = 0 then 0 else e / r.stride2
    if i < r.count ∧ j < r.count2 ∧ r.addr i j = off then some (i, j) else none

/-- The register at an offset, with its indices. -/
def RegMap.findIn : List Reg → Nat → Option (Reg × Nat × Nat)
  | [], _ => none
  | r :: rest, off =>
    match r.find off with
    | some ij => some (r, ij)
    | none => RegMap.findIn rest off

/-- The register at an offset of the whole map. -/
def RegMap.find (off : Nat) : Option (Reg × Nat × Nat) := RegMap.findIn RegMap.all off

/-- The cold value of element i of a register, where the tables give it by index: STW_SPORT_CFG.URGENT is 1 for ports
90 to 101, 104 and 105 (R232), BNK_OWN.FAB_SECTOR is n / 16 (R275), BNK_STAT.DUAL is 1 for bank offsets 0 and 1
(R277). Every other element has the register's own cold value. -/
def Reg.coldAt (r : Reg) (i : Nat) : BitVec 64 :=
  if r.base = Reg.stwSportCfg.base then
    (if (90 ≤ i ∧ i ≤ 101) ∨ 104 ≤ i then r.cold ||| 1 else r.cold)
  else if r.base = Reg.bnkOwn.base then r.cold ||| (BitVec.ofNat 64 (i / 16) <<< 8)
  else if r.base = Reg.bnkStat.base then (if i % 16 < 2 then r.cold ||| 0x20 else r.cold)
  else r.cold

end Sys2Proof.Machine
end

