-- ==== Sys2Proof/Machine/Bits.lean ====
section
/-! DEFINITION. Bit fields, byte order and signed numbers: the helpers every family uses. -/

namespace Sys2Proof.Machine

/-- Bits [lo + len - 1 : lo] of a number. -/
def bitsOf (v lo len : Nat) : Nat := v / 2 ^ lo % 2 ^ len

/-- Bits [lo + len - 1 : lo] of a word, as a number. -/
def bitsW {n : Nat} (v : BitVec n) (lo len : Nat) : Nat := bitsOf v.toNat lo len

/-- Bit `i` of a number. -/
def bitOf (v i : Nat) : Bool := v / 2 ^ i % 2 == 1

/-- The mask of `len` bits from bit `lo` on. -/
def maskW (lo len : Nat) : W64 := BitVec.ofNat 64 ((2 ^ len - 1) * 2 ^ lo)

/-- A word with bits [lo + len - 1 : lo] replaced. -/
def putBits (w : W64) (lo len v : Nat) : W64 :=
  (w &&& ~~~(maskW lo len)) ||| BitVec.ofNat 64 (v % 2 ^ len * 2 ^ lo)

/-- A truth value as a number. -/
def b2n (b : Bool) : Nat := if b then 1 else 0

/-- A number of `len` bits read as two's complement. -/
def signed (len v : Nat) : Int :=
  if v % 2 ^ len < 2 ^ (len - 1) then (v % 2 ^ len : Nat) else (v % 2 ^ len : Nat) - (2 ^ len : Nat)

/-- An integer as `len` bits of two's complement. -/
def unsigned (len : Nat) (v : Int) : Nat := (v % (2 ^ len : Nat)).toNat

/-- An integer as a 64-bit word. -/
def wOfInt (v : Int) : W64 := BitVec.ofInt 64 v

/-- An integer held between two bounds. -/
def clamp (lo hi v : Int) : Int := if v < lo then lo else if hi < v then hi else v

/-- A sum that stops at `2 ^ len - 1`. -/
def satAdd (len a b : Nat) : Nat := if a + b < 2 ^ len then a + b else 2 ^ len - 1

/-- Floor of the base 2 logarithm by a search from `fuel` down. -/
def log2Down : Nat → Nat → Nat
  | 0, _ => 0
  | k + 1, v => if 2 ^ (k + 1) ≤ v then k + 1 else log2Down k v

/-- Division toward zero. -/
def tdiv (a b : Int) : Int := Int.tdiv a b

/-- Division toward minus infinity. -/
def fdiv (a b : Int) : Int := Int.fdiv a b

/-- The bytes of a number, byte 0 first (R13). -/
def bytesLE : Nat → Nat → List Byte
  | 0, _ => []
  | k + 1, v => BitVec.ofNat 8 v :: bytesLE k (v / 256)

/-- The number a list of bytes spells, byte 0 first (R13). -/
def natLE : List Byte → Nat
  | [] => 0
  | b :: t => b.toNat + 256 * natLE t

/-- The words of 64 bits of a list of bytes, byte 0 first; `fuel` words. -/
def wordsLE : Nat → List Byte → List W64
  | 0, _ => []
  | k + 1, bs => BitVec.ofNat 64 (natLE (bs.take 8)) :: wordsLE k (bs.drop 8)

/-- The bytes of a list of words. -/
def bytesOfWords : List W64 → List Byte
  | [] => []
  | w :: t => bytesLE 8 w.toNat ++ bytesOfWords t

/-- The word at place `k` of a list; 0 beyond its end. -/
def wordAt (ws : List W64) (k : Nat) : W64 := ws.getD k 0

/-- Count upward from `a`, `k` numbers. -/
def upFrom : Nat → Nat → List Nat
  | _, 0 => []
  | a, k + 1 => a :: upFrom (a + 1) k

/-- A list with the entry at place `k` replaced. -/
def setAt {α : Type} (l : List α) (k : Nat) (v : α) : List α := l.set k v

/-- A list without the entry at place `k`. -/
def dropAt {α : Type} (l : List α) (k : Nat) : List α := l.eraseIdx k

end Sys2Proof.Machine
end

