-- ==== Sys2Proof/Machine/Table.lean ====
section
/-! DEFINITION. Sparse tables: a list of (key, value) pairs, keys strictly rising, no entry equal to what an unlisted
key reads as. Every large collection of the device (registers, cells, banks, slots, contexts) is one. -/

namespace Sys2Proof.Machine

/-- A sparse table. -/
abbrev Tab (α : Type) := List (Nat × α)

/-- The value at a key; `d` where the key is not listed. -/
def Tab.get {α : Type} (d : α) : Tab α → Nat → α
  | [], _ => d
  | (a, v) :: t, k => if k = a then v else Tab.get d t k

/-- Is the key listed? -/
def Tab.has {α : Type} : Tab α → Nat → Bool
  | [], _ => false
  | (a, _) :: t, k => k == a || Tab.has t k

/-- The table with the key's entry put in its place. -/
def Tab.put {α : Type} : Tab α → Nat → α → Tab α
  | [], k, v => [(k, v)]
  | (a, w) :: t, k, v =>
    if k < a then (k, v) :: (a, w) :: t
    else if k = a then (k, v) :: t
    else (a, w) :: Tab.put t k v

/-- The table without the key's entry. -/
def Tab.del {α : Type} : Tab α → Nat → Tab α
  | [], _ => []
  | (a, w) :: t, k => if k = a then t else (a, w) :: Tab.del t k

/-- The table with the key's value set: writing what an unlisted key reads as removes the entry. -/
def Tab.set {α : Type} [DecidableEq α] (d : α) (t : Tab α) (k : Nat) (v : α) : Tab α :=
  if v = d then t.del k else t.put k v

/-- The table with the key's value changed by a function. -/
def Tab.upd {α : Type} [DecidableEq α] (d : α) (t : Tab α) (k : Nat) (f : α → α) : Tab α :=
  t.set d k (f (t.get d k))

/-- Keys strictly rising from `lo` on. -/
def Tab.rising {α : Type} : Nat → Tab α → Bool
  | _, [] => true
  | lo, (a, _) :: t => decide (lo ≤ a) && Tab.rising (a + 1) t

/-- No entry equal to what an unlisted key reads as. -/
def Tab.noDefault {α : Type} [DecidableEq α] (d : α) (t : Tab α) : Bool :=
  t.all (fun e => decide (e.2 ≠ d))

/-- The canonical form of a table. -/
def Tab.wf {α : Type} [DecidableEq α] (d : α) (t : Tab α) : Bool :=
  t.rising 0 && t.noDefault d

end Sys2Proof.Machine
end

