-- ==== Sys2Proof/Machine/State.lean ====
section
/-! DEFINITION. The state of the device, as plain data: the setup registers, the addressed RAM, and what the spec gives
each block beside its registers; and the machine right after reset. -/

namespace Sys2Proof.Machine

/-- Reasons a step stops with a fault. -/
inductive Fault where
  /-- A command whose operands no such command can carry. No meaning raises it: every command of the table completes, and a
  command that is not well formed (WellFormed.lean) is one that no wire or message can bring. Safe: nothing depends on it. -/
  | malformed
  deriving DecidableEq, Repr

/-- Reasons a step is refused. -/
inductive Refusal where
  /-- The command has no meaning yet, by its name in the table: for an arm of `exec` alone. No arm raises it: every command of
  the table has its meaning. Safe. -/
  | notModelled (mnemonic : String)
  deriving DecidableEq, Repr

/-- What a host link or requester holds of a 64-bit register taken as two words (R5, R6). -/
structure Shadow where
  who : Writer
  off : Nat
  val : W32
  deriving DecidableEq, Repr

/-- The levels of the straps as sampled when XRESET_N rose (R12, R685). -/
structure Straps where
  bootSel  : Nat := 0
  leadSel  : Bool := false
  oscDly   : Nat := 0
  safePull : Bool := false
  warmEn   : Bool := false
  deriving DecidableEq, Repr

/-- The setup space and the stewards' common state: the access error counter (R4, R34), the shadows (R5, R6), the
straps (R12), the ALARM_N ball (R18) and other balls, whether the PCIe link retrains (R419), and the word the host has
read. -/
structure Sys where
  accessErrors : Nat := 0
  readShadow   : List Shadow := []
  writeShadow  : List Shadow := []
  readData     : W64 := 0
  straps       : Straps := {}
  alarmN       : Bool := true
  xresetN      : Bool := true
  retraining   : Bool := false
  deriving DecidableEq, Repr

/-- A step of a device-wide action the stewards have under way or keep waiting (R41, R42). -/
inductive Action where
  | recordSpares | recordBoot | recordSupply | recordPorts | load | start | power | clockReturn | slotChange | bist
  deriving DecidableEq, Repr

/-- The leadership between the halves beside STW_LEAD: the consecutive intervals in which each steward received no good
view and the consecutive good ones in a split (R37, R40), the phase of a handover (0 none, 1 offer, 2 accept, 3 switch;
R43), the actions the stewards raised that wait for agreement (R41), the actions under way, and those held at a step
boundary with the leader they had (R42). -/
structure Lead where
  badWest    : Nat := 0
  badEast    : Nat := 0
  goodRun    : Nat := 0
  handover   : Nat := 0
  waiting    : List Action := []
  underWay   : List Action := []
  held       : List Action := []
  heldLeader : Nat := 0
  deriving DecidableEq, Repr

/-- The kinds of spine transaction (R211). -/
inductive TOp where
  | read | write | writeAck | add | swap | msg
  deriving DecidableEq, Repr

/-- What asked for a memory access, so that its response finds its way (R212, R349, R438): a spine port by TAG, an
engine context, a mover's transfer (by its place, see `Job`); a record of a ring, or a contact sheet, for the outcome of a fault (R472); or nobody. -/
inductive Asker where
  | none
  | port (p : Nat)
  | context (eng ctx : Nat)
  | mover (j : Nat)
  | record (ring : Nat)
  | sheet
  deriving DecidableEq, Repr

/-- What the address of a transaction names (R459, R463): a device-virtual address, a device-physical one (for a MSG, a
token endpoint), or a host physical one. -/
inductive Space where
  | virt | dev | host
  deriving DecidableEq, Repr

/-- A transaction on its way: accepted whole at a spine port and not yet delivered (R211, R215), or a mover's write not
yet translated. `addr` is an address of `space`; `asid`, `priv` and `va` are those of its translation; `marked` says
that a running invalidation waits for it (R470). -/
structure Trans where
  port   : Nat
  master : Nat
  owner  : Nat
  tag    : Nat
  op     : TOp
  len    : Nat
  addr   : Nat
  space  : Space
  asid   : Nat
  priv   : Nat
  va     : Nat
  marked : Bool
  data   : List W64
  asker  : Asker
  deriving DecidableEq, Repr

/-- One leaf held by a translation cache (R468). Caches: 0 to 95 the engines', 96 to 107 the groups', 108 and 109 the
movers' of each half, 110 to 119 the column switches'. -/
structure Tlb where
  cache : Nat
  asid  : Nat
  base  : Nat
  size  : Nat
  frame : Nat
  r     : Bool
  w     : Bool
  u     : Bool
  dev   : Bool
  deriving DecidableEq, Repr

/-- Who a walk is for (R467, R472): a transaction, an engine context's next bundle, or a mover's line. -/
inductive WalkFor where
  | trans (t : Trans)
  | context (eng ctx : Nat)
  | mover (j : Nat)
  deriving DecidableEq, Repr

/-- A walk of the tables under way, or waiting for one of the 16 walkers (R467): the access it is for, its cache
path's caches, the level being read, the table, whether it is selected by an invalidation that came after its start,
and whether a running invalidation waits for it (R470). -/
structure Walk where
  who    : WalkFor
  caches : List Nat
  master : Nat
  asid   : Nat
  priv   : Nat
  write  : Bool
  va     : Nat
  level  : Nat
  table  : Nat
  dev    : Bool
  noKeep : Bool
  atGo   : Bool
  deriving DecidableEq, Repr

/-- The translation unit beside its registers: the cached leaves, the walks, the key slots' keys (R477), and the value
that a lifetime write under way replaces (R475): the register's offset and its former value. -/
structure Wtu where
  cache : List Tlb := []
  walks : List Walk := []
  keys  : Tab (List W32) := []
  life  : Option (Nat × W64 × List W32) := none
  deriving DecidableEq, Repr

/-! ### Memory banks and queues -/

/-- A queue controller beside its registers (R259 to R272): for each bank of the pair, the END flags of the words it
holds, oldest first, and the index of the oldest; whether the producer has pushed, or the consumer taken, part of an
item; whether the next word delivered carries CUT; a word held on QPUSH; a WAIT request not yet answered; the word
last delivered on QPOP_DATA. -/
structure Que where
  ends0   : List Bool := []
  at0     : Nat := 0
  ends1   : List Bool := []
  at1     : Nat := 0
  inItem  : Bool := false
  outItem : Bool := false
  cut     : Bool := false
  held    : Option (W64 × Bool) := none
  waiting : Bool := false
  out     : Option (BitVec 68) := none
  deriving DecidableEq, Repr

/-! ### The spine -/

/-- A request presented on a sector's IN_REQ and not ended (R210, R226): its spine-assigned TAG, whether it expects a
response, and where the response goes. -/
structure Inb where
  sector : Nat
  tag    : Nat
  wants  : Bool
  port   : Nat
  mtag   : Nat
  len    : Nat
  asker  : Asker
  deriving DecidableEq, Repr

/-- The spine beside its registers: headers held for room or a busy TAG with their data (R218), TAGs outstanding at
each port, requests presented to fabric targets, and the words last presented on each port's OUT_RSP and IN_REQ (a
bank's local response port b stands at 106 + b). -/
structure Spine where
  held    : Tab (List W64) := []
  tags    : Tab (List Nat) := []
  inbound : List Inb := []
  out     : Tab (List W64) := []
  inn     : Tab (List W64) := []
  deriving DecidableEq, Repr

/-- A response on its way to its master's port (R212). -/
structure Rsp where
  port    : Nat
  tag     : Nat
  status  : Nat
  hasData : Bool
  data    : List W64
  asker   : Asker
  deriving DecidableEq, Repr

/-- What leaves the host link (R438, R445): posted writes to host memory, read requests, and MSI-X messages, in
posted order. -/
inductive HostOut where
  | write (addr : Nat) (words : List W64)
  | read (addr : Nat) (words : Nat) (port : Nat) (tag : Nat) (asker : Asker)
  | message (vector : Nat)
  deriving DecidableEq, Repr

/-- A ring beside its registers: records lost before the next log record (R444), records since the vector was last
raised and the instant of the first (R445), a fetch under way, descriptors fetched and not started with their indices, and
a completion record waiting for room (R443). -/
structure RingHid where
  dropped  : Nat := 0
  modCount : Nat := 0
  modAt    : Nat := 0
  fetching : Bool := false
  fetched  : List (Nat × List W64) := []
  record   : Option (List W64) := none
  deriving DecidableEq, Repr

/-- A transfer of a mover under way: a descriptor's (for ring n at place n) or an engine context's (at 64 + 4 × engine +
context). The descriptor and its index; source, destination, length and bytes done; the words of the present line read;
whether the line is being written, and how many of its words have been; whether a host read or a fabric target's answer is
awaited; the status so far with the byte offset of the first bad word (R439); what the completion's RESULT will hold; a
count the operation keeps; words between memory and the archive, or of a contact sheet (R447, R566). -/
structure Job where
  on     : Bool := false
  desc   : List W64 := []
  index  : Nat := 0
  src    : Nat := 0
  dst    : Nat := 0
  len    : Nat := 0
  done   : Nat := 0
  buf    : List W64 := []
  put    : Bool := false
  sent   : Nat := 0
  await  : Bool := false
  status : Nat := 0
  bad    : Nat := 0
  result : W64 := 0
  count  : Nat := 0
  acc    : List W64 := []
  deriving DecidableEq, Repr

/-! ### Timebases -/

/-- A measurement waiting for the next update: the position in 2^-24 counts and its stamp (R76). -/
structure Meas where
  x : Int
  t : Nat
  deriving DecidableEq, Repr

/-- A software write or tether message applied to a timebase (R69, R72). -/
structure SoftWrite where
  t : Nat
  p : Int
  v : Int
  a : Int
  deriving DecidableEq, Repr

/-- A timebase beside its registers. Positions and counts are in 2^-24 counts, velocities and accelerations in 2^-16
counts per second (squared), instants in 12.5 ps steps. The estimator (R76): p, v, a, the instant reached and that of
the last correction. The decoder: the count, the counts taken since enable, the edge that waits
25 ns, the last filtered edge and the input it came on (R53), the last direction, the last index edge (R55). Sources:
the runs of samples out of and below the amplitude limits (R60), the last phase and sample instant (R58), the last
automatic adjustment (R59), the run of bad frames, the last SEQ and value, the frame under way (R62 to R66), the last
counted crossing (R68), the last write applied and those waiting (R69, R70), the run of missing messages (R72), the
start of the present TIMEOUT. Measurements waiting for the update (R76). Faults: conditions seen since the last update
and causes whose condition lasts, runs of updates without each condition (R82), the start of coasting and the last good
publication (R80), proceeding as FAIL (R80), the count held when a fault began (R82), updates above the acceleration
limit (R79), faults inherited from a master (R83). Gearing: the applied ratio and offset, the exact position times the
denominator and the master's last position (R73, R75). The position of the last publication but one; a preset
and a gear change that wait for the update (R75, R90); an absolute source not yet initialised (R66, R82); a jump since the last publication; the export
sequence number (R71). -/
structure TbHid where
  p         : Int := 0
  v         : Int := 0
  a         : Int := 0
  reached   : Nat := 0
  corrAt    : Nat := 0
  count     : Int := 0
  taken     : Int := 0
  waitEdge  : Option (Nat × Int) := none
  lastEdge  : Option (Nat × Bool) := none
  dirUp     : Bool := true
  lastIndex : Option (Int × Bool) := none
  ampRun    : Nat := 0
  lowRun    : Nat := 0
  phase     : Option Nat := none
  sampleAt  : Nat := 0
  calAt     : Nat := 0
  badRun    : Nat := 0
  lastSeq   : Option Nat := none
  lastVal   : Nat := 0
  frameAt   : Option Nat := none
  lastCross : Option Nat := none
  write     : Option SoftWrite := none
  queued    : List SoftWrite := []
  missing   : Nat := 0
  sinceAt   : Nat := 0
  meas      : List Meas := []
  seen      : Nat := 0
  stuck     : Nat := 0
  absent    : List Nat := [0, 0, 0, 0, 0, 0]
  coastAt   : Nat := 0
  goodP     : W64 := 0
  goodV     : W64 := 0
  goodAt    : Nat := 0
  failed    : Bool := false
  heldCount : Int := 0
  accRun    : Nat := 0
  inherited : Nat := 0
  gearNum   : Int := 1
  gearDen   : Nat := 1
  gearOfs   : Int := 0
  gearAcc   : Int := 0
  masterPos : W64 := 0
  gearInit  : Bool := false
  prevPos   : W64 := 0
  presetReq : Bool := false
  gearNext  : Option (Int × Nat × Int) := none
  needInit  : Bool := false
  jumped    : Bool := false
  expSeq    : Nat := 0
  deriving DecidableEq, Repr

/-- A message on its way out of a lane, or taken by it: its TYPE and payload bytes (R665). -/
structure LaneMsg where
  kind : Nat
  data : List Byte
  deriving DecidableEq, Repr

/-! ### The event scheduler -/

/-- The arming party of an event (R107, R108): a ring, an engine context, a fabric arm channel (32: 16 West, then 16
East). -/
inductive Armer where
  | none
  | ring (n : Nat)
  | context (eng ctx : Nat)
  | channel (k : Nat)
  deriving DecidableEq, Repr

/-- An event slot (R105, R113 to R116, R124 to R127, R149): the image with the current TARGET in word 0; STATE 0 FREE,
1 ARMED, 2 HORIZON, 3 COMMITTED, 4 PULSING, 5 WINDOW; firings to come and done; the arming party and its owner code;
the acceptance instant, the deadline, the predicted or committed crossing and its direction; whether a prediction has
been made since insertion, whether it waited for a full horizon, the LATE cause, the flags of R139 so far, whether it
fires at once (PASSED FIRE, or a late crossing), and the start of its pulse or window. -/
structure Slot where
  w0       : W64 := 0
  w1       : W64 := 0
  w2       : W64 := 0
  w3       : W64 := 0
  st       : Nat := 0
  remain   : Nat := 0
  fired    : Nat := 0
  armer    : Armer := .none
  owner    : Nat := 0
  accepted : Nat := 0
  deadline : Option Nat := none
  pred     : Option Nat := none
  rising   : Bool := true
  known    : Bool := false
  waited   : Bool := false
  late     : Nat := 0
  flags    : Nat := 0
  atOnce   : Bool := false
  startAt  : Nat := 0
  startPos : W64 := 0
  lateBy   : Nat := 0
  deriving DecidableEq, Repr

/-- A pulse or a capture window in progress (R119, R135): the slot of its event, the event as it stood at the firing,
whether it was the event's last firing (the slot then shows PULSING or WINDOW until the end), the first captured edge
with its position, and the later edges. -/
structure Run where
  slot  : Nat
  img   : Slot
  held  : Bool
  edge  : Option (Nat × W64) := none
  extra : Nat := 0
  deriving DecidableEq, Repr

/-- A fabric arm channel (R109): the command that waits for image words with the words taken, the reply and completion
words waiting, the sector port it last heard from. -/
structure Chan where
  cmd    : Option W64 := none
  words  : List W64 := []
  reply  : Option W64 := none
  compl  : Option W64 := none
  port   : Nat := 0
  deriving DecidableEq, Repr

/-- A placer or capture unit's calibration (R133): a measurement is complete and waits for its role change. -/
structure Cal where
  measured : Bool := false
  servedAt : Nat := 0
  deriving DecidableEq, Repr

/-- The scheduler beside its registers: the slots, the instant each line's output last changed, pulses and windows in progress, arm
channels, token channel buffers, calibrations, EVENT records waiting for room in each half (R443), events waiting for
slot readback. -/
structure Sched where
  slots    : Tab Slot := []
  lineAt   : Tab Nat := []
  runs     : List Run := []
  chans    : Tab Chan := []
  tokens   : Tab (List W64) := []
  cals     : Tab Cal := []
  evtWest  : List (Nat × List W64) := []
  evtEast  : List (Nat × List W64) := []
  copyPend : Bool := false
  snapPend : Bool := false
  deriving DecidableEq, Repr

/-! ### Engines -/

/-- An access of a context that has not been answered (R349, R383): its place among the context's eight, its first
register and how many (none for the read-ahead of MCPY, `copy`), the status register of a status form, whether it
loads, and the issuing bundle's address and place. -/
structure Acc where
  slot   : Nat
  copy   : Bool
  dst    : Nat
  count  : Nat
  stReg  : Option Nat
  load   : Bool
  pc     : Nat
  second : Bool
  addr   : Nat
  deriving DecidableEq, Repr

/-- The block transfer of a context (R350, R402): 0 IDLE, 1 RUNNING, 2 STALLED, 3 ENDED; the code it ended with. -/
structure Xfer where
  st     : Nat := 0
  src    : Nat := 0
  dst    : Nat := 0
  len    : Nat := 0
  done   : Nat := 0
  status : Nat := 0
  pc     : Nat := 0
  deriving DecidableEq, Repr

/-- An engine context beside its registers (R364 to R366): general registers, pending marks, control registers, its
outstanding accesses and posted writes, the value its timer waits for and the channel it waits on, the start of its
watchdog count, its transfer, whether its bundle waits for a long operation (R372), and the answer to MCPY's read of
its next word: its status and word (R387). -/
structure Ctx where
  g       : Tab W64 := []
  pend    : List Nat := []
  rm      : Nat := 0
  stall   : Bool := false
  flags   : Nat := 0
  trapen  : Nat := 0
  epc     : Nat := 0
  tcause  : Nat := 0
  scratch : W64 := 0
  bundles : W64 := 0
  accs    : List Acc := []
  posted  : Nat := 0
  timer   : W64 := 0
  waitCh  : Nat := 0
  wdogAt  : Nat := 0
  xfer    : Xfer := {}
  long    : Bool := false
  copied  : Option (Nat × Option W64) := none
  deriving DecidableEq, Repr

/-- An engine beside its registers (R339 to R341, R347): the tokens in its input and output channels (an output token with
the destination it was sent to, R340), the group port's
queue of messages for it, the completion buffer with each entry's context, the entry counter, and the DT at which it
last left OFF. -/
structure Eng where
  ich     : Tab (List W64) := []
  och     : Tab (List (Nat × W64)) := []
  inq     : List (Nat × W64) := []
  evqBuf  : List (Nat × List W64) := []
  seq     : Nat := 0
  leftOff : W64 := 0
  deriving DecidableEq, Repr

/-- A handshake cell beside its configuration (R159 to R168, R173): the tokens its outputs hold, its level outputs
(bit 0 Y, Q or the first data level, bits 1 to 3 the other data levels, bit 4 the request level), its RI input, the
active edges since its reset was released (R178), and when its level last changed (R168). -/
structure CellHid where
  y      : Option Bool := none
  z      : Option Bool := none
  levels : Nat := 0
  ri     : Bool := false
  edges  : Nat := 0
  since  : Nat := 0
  deriving DecidableEq, Repr

/-- A cluster arbiter (R179, R180): requests, grants, and the side granted last. -/
structure Arb where
  req0  : Bool := false
  req1  : Bool := false
  gnt0  : Bool := false
  gnt1  : Bool := false
  last1 : Bool := true
  deriving DecidableEq, Repr

/-- The clock root beside its registers (R292 to R301, R313): at a cold start, whether a source has been taken; the
source a switch or return moves to; the windows in a row in which the reference and the internal oscillator disagree;
the crossings with a side in reset. -/
structure Clk where
  taken  : Bool := false
  target : Option Nat := none
  bad    : Nat := 0
  reset  : List Nat := []
  deriving DecidableEq, Repr

/-- The loader beside its registers (R490 to R536): the number of the present stream; its bytes taken and not yet applied,
and the verified plaintext of an encrypted body; the running CRC; body bytes applied; segments done and the present
segment's key (R515); the rest of an open SECTION with whether it is this device's (R523); whether END has been reached; the
frames written of each sector, one bit each (R531), the sectors the load has entered (R528); the REG words held (R505) and
those whose field waits for a step; start-up steps still to come with their gaps, and the sector columns released by a
reset wave (R519); the loading ring (R516); the archive slot read and the bytes taken from it (R490); bytes of a failed stream still to be discarded (R532); NO_READBACK of the last
FULL or MULTI stream (R536); the start-up steps with their gaps, and RST_WAVE, of the last FULL or MULTI leader (R519, R638);
whether a configuration check runs (R535), and whether the start-up steps under way are those of a start that loads nothing; whether a refused stream is still being forwarded (R524); whether every bank, or some
banks, answer CFG_LOADING (R512, R530); the border frames of a PARTIAL stream by sector × 64 + word, which come into force at the
exit (R528, R531). -/
structure Ldr where
  gen     : Nat := 0
  raw     : List Byte := []
  plain   : List Byte := []
  crc     : Nat := 0xFFFFFFFF
  body    : Nat := 0
  seg     : Nat := 0
  key     : List Byte := []
  sect    : Option (Nat × Bool) := none
  ended   : Bool := false
  wrote   : Tab Nat := []
  entered : List Nat := []
  held    : List (Nat × W32) := []
  later   : List (Nat × W32) := []
  steps   : List (Nat × Nat) := []
  wave    : Nat := 0
  ring    : Option Nat := none
  slot    : Nat := 0
  slotAt  : Nat := 0
  skip    : Nat := 0
  noRead  : Bool := false
  order   : List (Nat × Nat) := [(1, 0), (2, 1), (3, 1)]
  period  : Nat := 0
  check   : Bool := false
  bare    : Bool := false
  passOn  : Bool := false
  allBanks : Bool := false
  banks   : List Nat := []
  border  : Tab W64 := []
  deriving DecidableEq, Repr

/-- A block of the archive medium (R552, R555): its erase count, its reads and the highest corrected-bit count since that
erase, whether it is retired, and whether it holds data. -/
structure Block where
  erases : Nat := 0
  reads  : Nat := 0
  worst  : Nat := 0
  bad    : Bool := false
  used   : Bool := false
  deriving DecidableEq, Repr

/-- The archive medium and its controller beside the registers (R546 to R574). The medium: the data area by word (sector × 512
+ word), the records by key, the committed images, whether it holds a boot map with its generation, the block counts
FORMAT set, the wear of each block. The controller: the staging area (ring, slot, length, bytes so far; R558), the jobs in
its queue, oldest first (R565), whether its start is under way (R569), the patrol's place (R554), why the medium cannot be used
(R548, R556), the interfaces the part declares (R547), the blocks set aside at FORMAT and the erases every good block has had from
FORMATs (R568). -/
structure Arc where
  data       : Tab W64 := []
  recs       : Tab (List W64) := []
  images     : Tab (List Byte) := []
  mapped     : Bool := false
  gen        : Nat := 0
  preferred  : Nat := 0
  sectors    : Nat := 0
  slotBlocks : Nat := 0
  rsBlocks   : Nat := 0
  blocks     : Tab Block := []
  staging    : Option (Nat × Nat × Nat × List Byte) := none
  queue      : List Nat := []
  starting   : Bool := false
  patrolAt   : Nat := 0
  fault      : Nat := 0
  modes      : Nat := 0
  reserved   : Nat := 0
  base       : Nat := 0
  deriving DecidableEq, Repr

/-- The start under way, or the last one (R575 to R587): whether it is counted and not yet judged, warm, with a load whose
stream the loader has accepted or takes from the archive; the failed start to be tried again, warm or cold (R586); the
units each steward has tested (R578 step 6, R580 step 5); whether the boot counters wait for their record; whether the
present start awaits its confirmation; the phase at which a split holds it (R583). The retention copies: the boot counters record and the spare map's entries with
its generation, and whether retention has been held (R576, R584, R606). STARTS
and FALLBACKS of the boot counters; whether the present cold start took a failing warm one's place, whose WARM_FAILS is then 0
(R587). -/
structure Sta where
  starts   : Nat := 0
  falls    : Nat := 0
  zeroed   : Bool := false
  counted  : Bool := false
  warm     : Bool := false
  reload   : Bool := false
  stream   : Bool := false
  retry    : Option Bool := none
  west     : Nat := 0
  east     : Nat := 0
  writing  : Bool := false
  confirm  : Bool := false
  was      : Nat := 0
  retained : Bool := false
  mirror   : Option (List W64) := none
  mapGen   : Nat := 0
  map      : List W64 := []
  deriving DecidableEq, Repr

/-- What the stewards know of the silicon beside the registers (R589 to R608). Each tile's slowdown in 0.1 % by sector × 64 +
tile, and its last eight measurements in parts per million, oldest first, where any was not 0; the sweeps made in each
half, up to 8; the PERR count of each bank and the ECC_UNCORR count of each engine as last looked at; the tiles whose
TILE_SLOW has been raised; planned substitutions, and those under way or to follow, each as a spare map entry (R605); the
units a BIST request or a start has still to test in each half (0 to 79 a sector, 80 to 175 an engine, 176 to 191 an analog
front, 192 and 193 a half's ports and links); the engines paused for a test or a substitution (R326), the banks being
copied to a spare (R601). -/
structure Hea where
  slow    : Tab Nat := []
  meas    : Tab (List Int) := []
  sweeps  : Tab Nat := []
  perr    : Tab Nat := []
  ecc     : Tab Nat := []
  told    : List Nat := []
  planned : List W64 := []
  work    : List W64 := []
  west    : List Nat := []
  east    : List Nat := []
  paused  : List Nat := []
  moving  : List Nat := []
  deriving DecidableEq, Repr

/-- The power states and rails beside the registers (R622 to R638). The state being entered, or entered and not yet left (1 IDLE,
2 safelight, 3 DARK); a wake latched meanwhile: its source and slot; whether the device is in DARK, whether the clocks and
sectors stand still for IDLE, whether a brown-out has stopped the regulators; the run of intervals below DOWN in each half; the
updates in a row with TEMP at the trip level; the engine contexts an entry stopped, by 4 × engine + context; the timebases'
positions and DT's as an entry to safelight left them; whether the grade is E. The level each half's rail slews to, plus 1 (R625); the
halves capped for temperature (R624), and those with a phase in use past its failure (R626). -/
structure Pwr where
  entering : Nat := 0
  latched  : Option (Nat × Nat) := none
  dark     : Bool := false
  idle     : Bool := false
  off      : Bool := false
  downs    : Tab Nat := []
  hot      : Nat := 0
  stopped  : List Nat := []
  left     : List W64 := []
  gradeE   : Bool := false
  aim      : Tab Nat := []
  hotCap   : List Nat := []
  lame     : List Nat := []
  deriving DecidableEq, Repr

/-! ### Field ports, lanes and the test access port -/

/-- A field port beside its registers (R646 to R657): the functions and selects in force, in PIN_MUX's layout; the filtered
level of each pin with the instant from which it has stood (R651); the PWM period in force, in PIN_PWM's layout, with the
instant it began; the pad level each pin keeps while SLEEP is KEEP (R655). -/
structure PinHid where
  mux    : Nat := 0
  levelA : Bool := false
  levelB : Bool := false
  sinceA : Nat := 0
  sinceB : Nat := 0
  pwm    : Nat := 0
  pwmAt  : Nat := 0
  keepA  : Bool := false
  keepB  : Bool := false
  deriving DecidableEq, Repr

/-- A lane beside its registers. Alignment (R664, R671): the receiver has its footing, a valid IDENT has come, the lane's own
was acknowledged. Time (R667): T_SEND and the local stamp of the last TIME received; the last 16 exchanges, newest first, as
instant and offset; good exchanges in a row. A stream's sender (R668): the pieces
that wait for a credit, the next SEQ, the messages not yet acknowledged, oldest first, the credits, whether EOS is to
follow, the bytes sent in total. Its receiver: the SEQ that comes next, the pieces in its buffers, whether a stream is active, whether EOS has
come. -/
structure LaneHid where
  locked  : Bool := false
  heard   : Bool := false
  acked   : Bool := false
  echo    : W64 := 0
  recv    : W64 := 0
  hist    : List (Nat × Int) := []
  good    : Nat := 0
  waiting : List (List Byte) := []
  nextSeq : Nat := 0
  unacked : List (Nat × List Byte) := []
  credits : Nat := 16
  ending  : Bool := false
  sent    : Nat := 0
  expect  : Nat := 0
  bufs    : List (List Byte) := []
  active  : Bool := false
  eos     : Bool := false
  deriving DecidableEq, Repr

/-- The test access port (R700 to R704): the instruction register, the boundary register's captured and preloaded levels,
whether EXTEST has been loaded where it may drive the balls, whether CFG_LOAD has begun a stream since it was loaded, the answer
to the last SETUP_RW or the identification register, the status word's code, its refusal and cause, and the frame CFG_READ has
copied. -/
structure Jtag where
  ir      : Nat := 2
  capture : Nat := 0
  preload : Nat := 0
  extest  : Bool := false
  opened  : Bool := false
  dr      : W64 := 0
  code    : Nat := 0
  refused : Bool := false
  cause   : Nat := 0
  frame   : List W64 := []
  deriving DecidableEq, Repr

/-- The parallel host port's assembly of half-words (R423): the target of the half-words held, lowest first, and of the
shadow, each as BAR and offset. -/
structure Php where
  held   : Option (Bool × Nat × List Nat) := none
  shadow : Option (Bool × Nat × W64) := none
  deriving DecidableEq, Repr

/-- The state of the device. -/
structure State where
  /-- The commands waiting, first in, first out (the block form of the model). -/
  pending   : List Instr
  /-- The model's own counter of free values taken (log entry 1). -/
  freeCount : Nat
  /-- Each setup register's difference (exclusive or) from its cold value, by offset: an unlisted register stands at
  its cold value. -/
  regs      : Tab W64
  /-- The addressed RAM, by BAR2 byte offset (R33): banks and engine memories. -/
  mem       : List Host.Cell
  /-- Device time in ticks and its fine field (R20). -/
  dt        : W64
  fine      : BitVec 5
  sys       : Sys
  lead      : Lead
  rings     : Tab RingHid
  jobs      : Tab Job
  trans     : List Trans
  wtu       : Wtu
  spine     : Spine
  /-- Bytes of banks stored with inverted parity, by BAR2 byte offset (R247). -/
  parity    : Tab Bool
  /-- Words of engine memories with a bit error, by BAR2 byte offset: 1 a single bit, 2 a double-bit error (R328). -/
  ecc       : Tab Nat
  ques      : Tab Que
  rsps      : List Rsp
  hostOut   : List HostOut
  tbs       : Tab TbHid
  sched     : Sched
  ctxs      : Tab Ctx
  engs      : Tab Eng
  clk       : Clk
  ldr       : Ldr
  arc       : Arc
  sta       : Sta
  hea       : Hea
  pwr       : Pwr
  pins      : Tab PinHid
  lanes     : Tab LaneHid
  /-- The messages each tether lane has put on the line, oldest first (R665). -/
  laneOut   : Tab (List LaneMsg)
  jtag      : Jtag
  php       : Php
  /-- The configuration frames, by word: (sector × 416 + frame) × 64 + word (R507). -/
  frames    : Tab W64
  /-- The cells, by sector × 8192 + tile × 128 + cluster × 8 + cell. -/
  cells     : Tab CellHid
  /-- The cluster arbiters, by sector × 1024 + tile × 16 + cluster. -/
  arbs      : Tab Arb
  deriving DecidableEq, Repr

/-- The machine right after a cold reset. -/
def State.reset : State where
  pending := []
  freeCount := 0
  regs := []
  mem := []
  dt := 0
  fine := 0
  sys := {}
  lead := {}
  rings := []
  jobs := []
  trans := []
  wtu := {}
  spine := {}
  parity := []
  ecc := []
  ques := []
  rsps := []
  hostOut := []
  tbs := []
  sched := {}
  ctxs := []
  engs := []
  clk := {}
  ldr := {}
  arc := {}
  sta := {}
  hea := {}
  pwr := {}
  pins := []
  lanes := []
  laneOut := []
  jtag := {}
  php := {}
  frames := []
  cells := []
  arbs := []

end Sys2Proof.Machine
end

