-- ==== Sys2Proof/Machine/Ops.lean ====
section
/-! DEFINITION. The named operations every family uses: registers and their fields, free values, the access error
counter, refusals and denials, records on rings, vectors, notices and alarms, and device-wide actions. -/

namespace Sys2Proof.Machine

/-- What a meaning answers. -/
abbrev Out := Host.Outcome State Fault Refusal

/-! ### Registers -/

/-- The value of element (i, j) of a register. -/
def State.reg (s : State) (r : Reg) (i : Nat := 0) (j : Nat := 0) : W64 :=
  Tab.get 0 s.regs (r.addr i j) ^^^ r.coldAt i

/-- Element (i, j) of a register set to a value. -/
def State.setReg (s : State) (r : Reg) (v : W64) (i : Nat := 0) (j : Nat := 0) : State :=
  { s with regs := Tab.set 0 s.regs (r.addr i j) (v ^^^ r.coldAt i) }

/-- A field of element (i, j), as a number. -/
def State.fld (s : State) (f : Fld) (i : Nat := 0) (j : Nat := 0) : Nat :=
  bitsW (s.reg f.reg i j) f.lo f.len

/-- A field of element (i, j) set to a number, cut to the field's width. -/
def State.setFld (s : State) (f : Fld) (v : Nat) (i : Nat := 0) (j : Nat := 0) : State :=
  s.setReg f.reg (putBits (s.reg f.reg i j) f.lo f.len v) i j

/-- Is a field other than 0? -/
def State.flag (s : State) (f : Fld) (i : Nat := 0) (j : Nat := 0) : Bool := s.fld f i j != 0

/-- A one-bit field set or cleared. -/
def State.setFlag (s : State) (f : Fld) (b : Bool) (i : Nat := 0) (j : Nat := 0) : State :=
  s.setFld f (b2n b) i j

/-- A count field raised by `k`, stopping at its largest value. -/
def State.bump (s : State) (f : Fld) (i : Nat := 0) (j : Nat := 0) (k : Nat := 1) : State :=
  s.setFld f (satAdd f.len (s.fld f i j) k) i j

/-- The bits of a plain write to an element: RW bits take the value, W1C bits written 1 clear, RWW bits take the value
when the writer is the Warden (R8); every other bit keeps its value. -/
def Reg.plain (r : Reg) (old v : W64) (warden : Bool) : W64 :=
  let take := r.rw ||| (if warden then r.rww else 0)
  ((old &&& ~~~take) ||| (v &&& take)) &&& ~~~(v &&& r.w1c)

/-- Do the RWW or RWL bits of a write differ from the value held? (A write that leaves them alone asks for nothing.) -/
def Reg.touchesRww (r : Reg) (old v : W64) : Bool := (old ^^^ v) &&& (r.rww ||| r.rwl) != 0

/-! ### Time and free values -/

/-- The present instant in 12.5 ps steps (R20). -/
def State.now (s : State) : Nat := (s.dt.toNat * 32 + s.fine.toNat) % 2 ^ 64

/-- A free value taken: the next one is another (log entry 1). -/
def State.tookFree (s : State) : State := { s with freeCount := s.freeCount + 1 }

/-- The free word of the present count. -/
def State.freeWord (s : State) : W64 := Config.freeWord s.freeCount

/-- The free truth value of the present count. -/
def State.freeBit (s : State) : Bool := Config.freeBit s.freeCount

/-- The free integer of the present count. -/
def State.freeInt (s : State) : Int := Config.freeInt s.freeCount

/-- The free number of the present count. -/
def State.freeNat (s : State) : Nat := Config.freeNat s.freeCount

/-! ### Access errors -/

/-- A write or access counted in the Supervisor block's access error counter (R4, R34). -/
def State.accessError (s : State) : State :=
  { s with sys := { s.sys with accessErrors := s.sys.accessErrors + 1 } }

/-! ### Writers -/

/-- The link number of a host writer (WTU_LINK, R480). -/
def writerLink : Writer → Nat
  | .pcie => 0
  | .php => 1
  | .jtag => 2
  | .loader => 0

/-- The privilege of a writer: 0 NONE, 1 Supervisor, 2 Warden (R452); the loader writes as the Warden (R504). -/
def State.priv (s : State) (w : Writer) : Nat :=
  if w = .loader then 2 else s.fld Fld.wtuLinkPriv (writerLink w)

/-- Is the writer the Warden? -/
def State.warden (s : State) (w : Writer) : Bool := s.priv w == 2

/-- The owner code a writer writes under: WARDEN 0x00, SUPERVISOR 0x01, none 0xFF (R455). -/
def State.ownerCode (s : State) (w : Writer) : Nat :=
  if s.priv w = 2 then 0x00 else if s.priv w = 1 then 0x01 else 0xFF

/-- Is an owner code one of R454's? -/
def ownerValid (c : Nat) : Bool := c == 0 || c == 1 || c == 2 || (0x10 ≤ c && c ≤ 0x6F)

/-! ### Rings: records, vectors, notices and alarms -/

/-- The hidden part of a ring. -/
def State.ring (s : State) (n : Nat) : RingHid := Tab.get {} s.rings n

/-- The hidden part of a ring set. -/
def State.setRing (s : State) (n : Nat) (h : RingHid) : State := { s with rings := Tab.set {} s.rings n h }

/-- The entries of a ring, 2^SIZE (R426). -/
def State.ringSize (s : State) (n : Nat) : Nat := 2 ^ s.fld Fld.rngCfgSize n

/-- The mover that serves a ring, 0 to 31 (R437). -/
def State.ringMover (s : State) (n : Nat) : Nat := s.fld Fld.rngCfgHalf n * 16 + s.fld Fld.rngCfgMover n

/-- Is there no room for a record on a completion or log ring? (R427) -/
def State.ringFull (s : State) (n : Nat) : Bool :=
  (s.fld Fld.rngIdxDevIdx n + 1) % s.ringSize n == s.fld Fld.rngIdxHostIdx n

/-- Is the ring a running one of a type: 0 COMMAND, 1 COMPLETION, 2 LOG? (R426, R449) -/
def State.ringOpen (s : State) (n ty : Nat) : Bool := s.fld Fld.rngStatState n == 1 && s.fld Fld.rngCfgType n == ty

/-- A vector raised: PEND is set, and its MSI-X message goes out if the table allows; while the table masks it, the
pending bit of the array is set (R445, R416). Without a link no message goes out. -/
def State.raiseVector (s : State) (v : Nat) : State :=
  let s := s.setFlag Fld.rngVecPend true v
  if s.flag Fld.msixCtrlMask v then
    s.setReg Reg.msixPba (s.reg Reg.msixPba (v / 64) ||| BitVec.ofNat 64 (2 ^ (v % 64))) (v / 64)
  else if s.flag Fld.rngLinkUp then { s with hostOut := s.hostOut ++ [.message v] }
  else s

/-- A posted write of a mover, in the address space of an owner: accepted for the spine and delivered by its own
command (R443, R446). -/
def State.postWrite (s : State) (mover owner asid priv addr : Nat) (ws : List W64) (asker : Asker) : State :=
  { s with trans := s.trans ++
      [⟨102 + mover / 16, 176 + mover, owner, 0, .write, ws.length, addr, .virt, asid, priv, addr, false, ws, asker⟩] }

/-- A record written at DEV_IDX of a completion or log ring that has room: the phase goes into byte 2 bit 7, DEV_IDX
moves on, PHASE inverts at the wrap, and the ring's vector is raised under its moderation (R442, R445). -/
def State.putRecord (s : State) (n : Nat) (ws : List W64) : State :=
  let i := s.fld Fld.rngIdxDevIdx n
  let w0 := putBits (wordAt ws 0) 23 1 (s.fld Fld.rngStatPhase n)
  let s := s.postWrite (s.ringMover n) (s.fld Fld.rngOwnOwner n) (s.fld Fld.rngOwnAsid n) (s.fld Fld.rngOwnPriv n)
    (s.fld Fld.rngBaseAddr n + 32 * i) (w0 :: ws.drop 1) (.record n)
  let next := (i + 1) % s.ringSize n
  let s := s.setFld Fld.rngIdxDevIdx next n
  let s := if next = 0 then s.setFld Fld.rngStatPhase (1 - s.fld Fld.rngStatPhase n) n else s
  let k := (s.ring n).modCount + 1
  let s := if k = 1 then s.setRing n { s.ring n with modAt := s.now } else s
  if s.fld Fld.rngModCount n ≤ k then
    (s.setRing n { s.ring n with modCount := 0 }).raiseVector (s.fld Fld.rngCfgVec n)
  else s.setRing n { s.ring n with modCount := k }

/-- The log ring's record of a notice or alarm, or its loss (R444), which raises the vector of LOG_LOST's family (R450). -/
def State.log (s : State) (alarm : Bool) (code src : Nat) : State :=
  if s.flag Fld.rngGctlLogEn then
    let n := s.fld Fld.rngGctlLogRing
    if s.ringOpen n 2 && !s.ringFull n then
      let w0 := BitVec.ofNat 64 (code + 2 * 2 ^ 16 + b2n alarm * 2 ^ 24 + src % 2 ^ 16 * 2 ^ 32)
      let s := s.putRecord n [w0, s.dt, BitVec.ofNat 64 ((s.ring n).dropped % 2 ^ 32), 0]
      s.setRing n { s.ring n with dropped := 0 }
    else
      let s := (s.bump Fld.rngCntLost n).setRing n { s.ring n with dropped := (s.ring n).dropped + 1 }
      if s.flag Fld.rngNoteVecEn (Code.family Code.logLost) then
        s.raiseVector (s.fld Fld.rngNoteVecVec (Code.family Code.logLost))
      else s
  else s

/-- A notice raised: its log record, and the vector of its family (R17, R444, R445). -/
def State.notice (s : State) (code src : Nat) : State :=
  let s := s.log false code src
  if s.flag Fld.rngNoteVecEn (Code.family code) then s.raiseVector (s.fld Fld.rngNoteVecVec (Code.family code)) else s

/-- A notice raised if its enable is set. -/
def State.noticeIf (s : State) (b : Bool) (code src : Nat) : State := if b then s.notice code src else s

/-- An alarm raised: its pending bit, the count, ALARM_N low, and its log record (R18, R444, R588). -/
def State.alarm (s : State) (bit code src : Nat) : State :=
  let s := s.setFld Fld.stwAlarmPend (s.fld Fld.stwAlarmPend ||| 2 ^ bit)
  let s := s.bump Fld.stwAlarmCount
  let s := { s with sys := { s.sys with alarmN := false } }
  s.log true code src

/-! ### Refusals and denials -/

/-- A refusal for ownership or privilege: WTU_DENY keeps the first since VALID was cleared and counts the rest, DENIES
gains one, and the notice is raised under NOTE_EN (R456, R485, R487). -/
def State.deny (s : State) (code writer kind index : Nat) : State :=
  let s := if s.flag Fld.wtuDenyValid then s.bump Fld.wtuDenyCount
    else s.setReg Reg.wtuDeny (BitVec.ofNat 64 (code % 2 ^ 16 + writer % 2 ^ 8 * 2 ^ 16 + kind % 8 * 2 ^ 24
      + index % 2 ^ 12 * 2 ^ 32 + 2 ^ 48 + 2 ^ 63))
  let s := s.bump Fld.wtuCntDenies
  s.noticeIf (s.flag Fld.wtuGctlNoteEn) code index

/-- A refusal in a block's own record (TB_REFUSE, EVT_REFUSE, ENG_REFUSE, RNG_REFUSE, ARC_REFUSE, PWR_REFUSE,
CLK_REFUSE, PIN_REFUSE): the last refused write with its index in bits [23:16], `top` in bits [30:28], COUNT in [27:24]
and VALID (R101). -/
def State.refuse (s : State) (r : Reg) (code index : Nat) (i : Nat := 0) (top : Nat := 0) : State :=
  let c := bitsW (s.reg r i) 24 4
  s.setReg r (BitVec.ofNat 64 (code % 2 ^ 16 + index % 2 ^ 8 * 2 ^ 16 + satAdd 4 c 1 * 2 ^ 24 + top % 8 * 2 ^ 28
    + 2 ^ 31)) i

/-- BNK_REFUSE's own layout (R279): INDEX [26:16], KIND [27], COUNT [30:28]. -/
def State.refuseBank (s : State) (code index kind : Nat) : State :=
  s.setReg Reg.bnkRefuse (BitVec.ofNat 64 (code % 2 ^ 16 + index % 2 ^ 11 * 2 ^ 16 + kind % 2 * 2 ^ 27
    + satAdd 3 (s.fld Fld.bnkRefuseCount) 1 * 2 ^ 28 + 2 ^ 31))

/-- A write by a host writer that is not the Warden to what only the Warden may write: refused, recorded as WARDEN_ONLY
with the BAR0 offset's bits [23:12] (R8, R453, R485). -/
def State.denyWarden (s : State) (w : Writer) (off : Nat) : State :=
  s.deny Code.wardenOnly (s.ownerCode w) 0 (off / 2 ^ 12)

/-- The state `f s` if the writer is the Warden; otherwise the refusal of R8 (WARDEN_ONLY), the register unchanged. -/
def State.wardenOr (s : State) (w : Writer) (off : Nat) (f : State → State) : State :=
  if s.warden w then f s else s.denyWarden w off

/-- An access on a link at NONE: refused with WARDEN_ONLY under no owner code, recorded by its link (R452, R455, R485). -/
def State.denyLink (s : State) (w : Writer) : State := s.deny Code.wardenOnly 0xFF 6 (writerLink w)

/-- The state `f s` if the writer's link has any privilege; otherwise the access is refused with WARDEN_ONLY (R452), whatever
the offset it names. -/
def State.linked (s : State) (w : Writer) (_off : Nat) (f : State → State) : State :=
  if s.priv w = 0 then s.denyLink w else f s

/-! ### Freeze windows and power states -/

/-- Is a sector in a freeze window? (R592) -/
def State.frozen (s : State) (sec : Nat) : Bool := s.flag Fld.stwSecHealthFrozen sec

/-- Does a sector's fabric offer nothing to the blocks outside: the output hold, or a freeze window? (R188, R592) -/
def State.mute (s : State) (sec : Nat) : Bool := s.flag Fld.stwSecHoldOutHeld sec || s.frozen sec

/-- Do rings fetch and start descriptors: not while a power state is being entered, is left, or stands (R633, R634) -/
def State.ringsGo (s : State) : Bool := s.fld Fld.pwrStateCur == 0

/-- Is the device in safelight or DARK, or not yet back in RUN from one of them? (R634, R638) -/
def State.asleep (s : State) : Bool :=
  s.pwr.dark || s.fld Fld.pwrStateCur == 2 || (s.fld Fld.pwrStateCur == 5 && 2 ≤ s.pwr.entering)

/-! ### Device-wide actions -/

/-- Is STW_LEAD.STATE AGREED? (R44) -/
def State.agreed (s : State) : Bool := s.fld Fld.stwLeadState == 0

/-- A device-wide action the stewards raise themselves: it starts at once under agreement and otherwise waits (R41). -/
def State.raiseAction (s : State) (a : Action) : State :=
  if s.agreed then { s with lead := { s.lead with underWay := s.lead.underWay ++ [a] } }
  else { s with lead := { s.lead with waiting := s.lead.waiting ++ [a] } }

end Sys2Proof.Machine
end

