-- ==== Sys2Proof/Machine/Cells.lean ====
section
/-! DEFINITION. The fabric: handshake cells, bundled stages, clocked cells, cluster arbiters and resets
(04_fabric_cells R154 to R193). The places of the routing selects in the frames are Torarn Studio's (R507), so the
commands bring a cell's inputs with them (log entry 8). -/

namespace Sys2Proof.Machine

/-! ### Configuration (R162, R509) -/

/-- The sector of a cell. -/
def cellSector (c : Nat) : Nat := c / 8192

/-- The key of a cell's record in the frames: frame 2t + cluster / 8, word (cluster mod 8) × 8 + cell. -/
def cellKey (c : Nat) : Nat :=
  let tile := c / 128 % 64
  let cluster := c / 8 % 16
  (cellSector c * 416 + 2 * tile + cluster / 8) * 64 + cluster % 8 * 8 + c % 8

/-- The cell a frame word describes; only words of frames 0 to 127 are cell records. -/
def keyCell (k : Nat) : Option Nat :=
  let sector := k / 64 / 416
  let frame := k / 64 % 416
  let w := k % 64
  if frame < 128 then some (sector * 8192 + frame / 2 * 128 + (frame % 2 * 8 + w / 8) * 8 + w % 8) else none

/-- A cell's record. -/
def State.cellCfg (s : State) (c : Nat) : W64 := Tab.get 0 s.frames (cellKey c)

def cellMode (r : W64) : Nat := bitsW r 0 2
def cellUse (r : W64) : Nat := bitsW r 2 4
def cellParam (r : W64) : Nat := bitsW r 6 32
def cellZen (r : W64) : Bool := bitsW r 38 1 == 1
def cellInit (r : W64) : Nat := bitsW r 39 2
def cellInitY (r : W64) : Bool := bitsW r 41 1 == 1
def cellInitZ (r : W64) : Bool := bitsW r 42 1 == 1
def cellRstSel (r : W64) : Nat := bitsW r 45 2

/-- A cell. -/
def State.cell (s : State) (c : Nat) : CellHid := Tab.get {} s.cells c

/-- A cell set. -/
def State.setCell (s : State) (c : Nat) (x : CellHid) : State := { s with cells := Tab.set {} s.cells c x }

/-! ### Resets (R188 to R192) -/

/-- Does a cell drive level outputs? STEER LEVEL, CLOCKED, BUNDLED B_LATCH and B_FROM_DR (R154). -/
def levelOut (r : W64) : Bool :=
  match cellMode r with
  | 1 => bitsOf (cellParam r) 0 3 == 5
  | 2 => bitsOf (cellParam r) 0 2 != 1
  | 3 => true
  | _ => false

/-- Is a cell in reset: the start-up reset of its sector, which the darkroom asserts too, or a source RST_SEL names? (R189, R191) -/
def State.cellReset (s : State) (c : Nat) : Bool :=
  let sec := cellSector c
  let sel := cellRstSel (s.cellCfg c)
  s.flag Fld.stwSecHoldRstHeld sec || (bitOf sel 0 && s.flag Fld.stwSecHoldUrstAct sec)
    || (bitOf sel 1 && (s.cell c).ri)

/-- A cell as its reset is asserted: a token its output holds stays until it is acknowledged; levels take INIT_Y
(R189). -/
def resetCell (s : State) (c : Nat) : State :=
  let r := s.cellCfg c
  s.setCell c { s.cell c with levels := b2n (levelOut r && cellInitY r), edges := 0 }

/-- A cell as its reset is released: it presents its INIT state (R163, R189). -/
def releaseCell (s : State) (c : Nat) : State :=
  let r := s.cellCfg c
  let x := { s.cell c with levels := b2n (levelOut r && cellInitY r), edges := 0 }
  if cellInit r = 1 ∧ !levelOut r then
    s.setCell c { x with y := some (cellInitY r), z := if cellZen r then some (cellInitZ r) else x.z }
  else s.setCell c x

/-- The cells of a sector that have a record other than zero. -/
def State.sectorCells (s : State) (sec : Nat) : List Nat :=
  (s.frames.filterMap fun e => keyCell e.1).filter fun c => cellSector c == sec

/-- A sector's cells as the start-up reset reaches them: every receiver inside is in reset too, so outputs return to
spacer; the arbiters return to their reset state (R189, R190). -/
def resetSector (s : State) (sec : Nat) : State :=
  let s := { s with cells := s.cells.filter fun e => cellSector e.1 != sec || e.2.ri }
  let s := { s with arbs := s.arbs.filter fun e => e.1 / 1024 != sec }
  (s.sectorCells sec).foldl (fun s c => resetCell (s.setCell c { s.cell c with y := none, z := none }) c) s

/-- A sector's cells released from the start-up reset; cells another source holds stay in reset (R190, R191). -/
def releaseSector (s : State) (sec : Nat) : State :=
  ((s.sectorCells sec).filter fun c => !s.cellReset c).foldl releaseCell s

/-- The software reset of a sector asserted or released in its cells (R191, R193). -/
def applyUrst (sec : Nat) (on : Bool) (s : State) : State :=
  let hit := (s.sectorCells sec).filter fun c => bitOf (cellRstSel (s.cellCfg c)) 0
  let s := s.setFlag Fld.stwSecHoldUrstAct on sec
  if on then hit.foldl resetCell s else (hit.filter fun c => !s.cellReset c).foldl releaseCell s

/-- SECTOR_URST (R193): URST written; in the darkroom it takes effect when the sector leaves it. -/
def sectorUrst (sec : Nat) (on : Bool) (s : State) : State :=
  let s := s.setFlag Fld.stwSecHoldUrst on sec
  if s.flag Fld.stwSecHoldDark sec || s.flag Fld.stwSecHoldUrstAct sec == on then s else applyUrst sec on s

def execSectorUrst (w : Writer) (sec : Fin 80) (on : Bool) (s : State) : Out :=
  .next (s.linked w (Reg.stwSecHold.addr sec.val 0) (sectorUrst sec.val on))

/-- CELL_RESET_INPUT (R191): the cell's RI wire. -/
def cellRi (c : Nat) (on : Bool) (s : State) : State :=
  let was := s.cellReset c
  let s := s.setCell c { s.cell c with ri := on }
  let now := s.cellReset c
  if now && !was then resetCell s c else if was && !now then releaseCell s c else s

def execCellResetInput (c : Fin 655360) (on : Bool) (s : State) : Out := .next (cellRi c.val on s)

/-! ### Tokens (R156 to R169) -/

/-- HANDSHAKE_WORD (R156, R157): the token on a cell's output is acknowledged by its receivers and returns to spacer:
the channel of Y (with Z where one bit channel carries both), or Z's own channel (SPLIT). A border in DRAIN completes
it likewise and discards the token (R529). -/
def execHandshakeWord (c : Fin 655360) (onZ : Bool) (s : State) : Out :=
  if s.frozen (cellSector c.val) then .next s else
  let r := s.cellCfg c.val
  let x := s.cell c.val
  let split := cellMode r == 1 && bitsOf (cellParam r) 0 3 == 0
  .next (s.setCell c.val (if onZ then { x with z := none } else if split then { x with y := none }
    else { x with y := none, z := none }))

/-- The index i of the function tables; an input not enabled enters as 0 (R164). -/
def tableIndex (use : Nat) (a b c d : Bool) : Nat :=
  b2n (a && bitOf use 0) + 2 * b2n (b && bitOf use 1) + 4 * b2n (c && bitOf use 2) + 8 * b2n (d && bitOf use 3)

/-- Is every used input valid? (R159) -/
def usedValid (use : Nat) (a b c d : Option Bool) : Bool :=
  (!bitOf use 0 || a.isSome) && (!bitOf use 1 || b.isSome) && (!bitOf use 2 || c.isSome) && (!bitOf use 3 || d.isSome)

/-- A FUNCTION cell on complete inputs (R164). -/
def functionCell (r : W64) (a b c d : Option Bool) (x : CellHid) : CellHid :=
  if !usedValid (cellUse r) a b c d ∨ x.y.isSome ∨ x.z.isSome then x
  else
    let i := tableIndex (cellUse r) (a.getD false) (b.getD false) (c.getD false) (d.getD false)
    { x with y := some (bitOf (cellParam r) i),
             z := if cellZen r then some (bitOf (cellParam r) (16 + i)) else none }

/-- The level a LEVEL cell drives; it never holds a value for less than 2.0 ns (R168). -/
def driveLevel (b : Bool) (now : Nat) (x : CellHid) : CellHid :=
  if bitOf x.levels 0 == b then x
  else { x with levels := b2n b, since := if x.since = 0 then now else max now (x.since + 160) }

/-- A STEER cell on the inputs its function needs (R165 to R168); an output that still holds a token makes it wait. -/
def steerCell (r : W64) (now : Nat) (a b c d : Option Bool) (x : CellHid) : CellHid :=
  let p := cellParam r
  match bitsOf p 0 3, a, b with
  | 0, some v, some sel =>
    if sel then (if x.z.isSome then x else { x with z := some v }) else (if x.y.isSome then x else { x with y := some v })
  | 1, _, some sel =>
    if x.y.isSome then x
    else match (if sel then c else a) with
      | some v => { x with y := some v }
      | none => x
  | 2, some v, _ => if x.y.isSome then x else { x with y := some v }
  | 2, none, _ =>
    match c with
    | some v => if x.y.isSome then x else { x with y := some v }
    | none => x
  | 3, some _, _ =>
    match d with
    | some l => if x.y.isSome then x else { x with y := some l }
    | none => x
  | 4, some v, _ => if d = some (bitOf p 3) ∧ x.y.isNone then { x with y := some v } else x
  | 5, some v, _ => driveLevel v now x
  | 6, _, _ => if x.y.isSome then x else { x with y := some (bitOf p 3) }
  | _, _, _ => x

/-- CELL_TOKEN (R159, R163 to R168): a cell's inputs A to D, each valid, or spacer; a level input is its level. -/
def cellToken (n : Nat) (a b c d : Option Bool) (s : State) : State :=
  let r := s.cellCfg n
  if s.cellReset n || s.frozen (cellSector n) then s
  else
    let x := s.cell n
    match cellMode r with
    | 0 => s.setCell n (functionCell r a b c d x)
    | 1 => s.setCell n (steerCell r s.now a b c d x)
    | _ => s

def execCellToken (n : Fin 655360) (a b c d : Option Bool) (s : State) : Out := .next (cellToken n.val a b c d s)

/-- BUNDLED_TRANSFER (R169): the data levels or tokens a bundled stage takes; B_LATCH and B_TO_DR wait under the write
hold (R188). -/
def bundled (n : Nat) (a b c d : Option Bool) (s : State) : State :=
  let r := s.cellCfg n
  let x := s.cell n
  let held := s.flag Fld.stwSecHoldWrHeld (cellSector n)
  let bit (o : Option Bool) : Nat := b2n (o.getD false)
  if s.cellReset n ∨ s.frozen (cellSector n) ∨ cellMode r ≠ 2 then s
  else match bitsOf (cellParam r) 0 2 with
    | 0 => if held then s else s.setCell n { x with levels := bit a + 2 * bit b + 4 * bit c + 16 }
    | 1 =>
      if held ∨ x.y.isSome ∨ x.z.isSome then s
      else s.setCell n { x with y := some (a.getD false), z := some (b.getD false) }
    | 2 =>
      if usedValid (cellUse r) a b c d then
        s.setCell n { x with levels := bit a + 2 * bit b + 4 * bit c + 8 * bit d + 16 }
      else s
    | _ => s

def execBundledTransfer (n : Fin 655360) (a b c d : Option Bool) (s : State) : Out :=
  .next (bundled n.val a b c d s)

/-- ACTIVE_CLOCK_EDGE (R173, R174, R178): an active edge of a CLOCKED cell's clock with the levels at A to D. -/
def clockEdge (n : Nat) (a b c d : Bool) (s : State) : State :=
  let r := s.cellCfg n
  let p := cellParam r
  let x := s.cell n
  if s.cellReset n ∨ s.frozen (cellSector n) ∨ cellMode r ≠ 3 ∨ s.flag Fld.stwSecHoldWrHeld (cellSector n) then s
  else if bitsOf p 19 3 < 4 ∧ x.edges < 3 then s.setCell n { x with edges := x.edges + 1 }
  else
    let q := bitOf x.levels 0
    let c := if bitOf p 18 then q else c
    let use := if bitOf p 18 then cellUse r ||| 4 else cellUse r
    let d := d && bitsOf p 19 3 != 4
    s.setCell n { x with levels := b2n (bitOf p (tableIndex use a b c d)) }

def execActiveClockEdge (n : Fin 655360) (a b c d : Bool) (s : State) : Out := .next (clockEdge n.val a b c d s)

/-! ### Arbiters (R179 to R182) -/

/-- Are all the cells of a cluster in reset? (R189) -/
def State.clusterReset (s : State) (k : Nat) : Bool := (upFrom (8 * k) 8).all s.cellReset

/-- The next grant where none is held: to the waiting side, or of two to the one not granted last (R180). -/
def Arb.grant (x : Arb) : Arb :=
  if x.gnt0 || x.gnt1 then x
  else if x.req0 && (!x.req1 || x.last1) then { x with gnt0 := true, last1 := false }
  else if x.req1 then { x with gnt1 := true, last1 := true }
  else x

/-- ARBITER_REQUEST (R179): a request rises. -/
def execArbiterRequest (k : Fin 81920) (side1 : Bool) (s : State) : Out :=
  if s.frozen (k.val / 1024) then .next s else
  let x := Tab.get {} s.arbs k.val
  let x := if side1 then { x with req1 := true } else { x with req0 := true }
  .next { s with arbs := Tab.set {} s.arbs k.val (if s.clusterReset k.val then { x with gnt0 := false, gnt1 := false, last1 := true } else x.grant) }

/-- ARBITER_RELEASE (R179, R180, R182): a request falls, its grant falls, and a waiting request is granted. -/
def execArbiterRelease (k : Fin 81920) (side1 : Bool) (s : State) : Out :=
  if s.frozen (k.val / 1024) then .next s else
  let x := Tab.get {} s.arbs k.val
  let x := if side1 then { x with req1 := false, gnt1 := false } else { x with req0 := false, gnt0 := false }
  .next { s with arbs := Tab.set {} s.arbs k.val (if s.clusterReset k.val then { x with gnt0 := false, gnt1 := false, last1 := true } else x.grant) }

end Sys2Proof.Machine
end

