-- ==== Sys2Proof/Machine/Deliver.lean ====
section
/-! DEFINITION. The addressed RAM by word, the waking of engine contexts, and the delivery of event completions to
contexts, rings and fabric channels (08_motion_engines R331 to R347, 10_host_link_and_rings R442 and R443,
03_event_scheduler R109 and R140). -/

namespace Sys2Proof.Machine

/-! ### Memory -/

/-- The canonical form of the addressed RAM: addresses strictly rising, and no byte listed that equals what an unlisted
address reads as. -/
def Memory.wf (m : List Host.Cell) : Bool := Tab.wf 0 m

/-- One byte of the addressed RAM, by BAR2 byte offset; a byte nothing has written reads as 0 (log entry 2). -/
def State.memByte (s : State) (a : Nat) : Byte := Tab.get 0 s.mem a

/-- One byte of memory written. -/
def setByte (m : List Host.Cell) (a : Nat) (b : Byte) : List Host.Cell := Tab.set 0 m a b

/-- Consecutive bytes of memory written from `a` on. -/
def setBytes (m : List Host.Cell) : Nat → List Byte → List Host.Cell
  | _, [] => m
  | a, b :: t => setBytes (setByte m a b) (a + 1) t

/-- `k` bytes of memory from `a` on. -/
def State.memBytes (s : State) (a k : Nat) : List Byte := (upFrom a k).map s.memByte

/-- The word of eight bytes at `a` (R13). -/
def State.memWord (s : State) (a : Nat) : W64 := BitVec.ofNat 64 (natLE (s.memBytes a 8))

/-- The word of eight bytes at `a` written. -/
def State.setMemWord (s : State) (a : Nat) (w : W64) : State := { s with mem := setBytes s.mem a (bytesLE 8 w.toNat) }

/-- Consecutive words written from `a` on. -/
def State.setMemWords (s : State) (a : Nat) (ws : List W64) : State :=
  { s with mem := setBytes s.mem a (bytesOfWords ws) }

/-- `k` words from `a` on. -/
def State.memWords (s : State) (a k : Nat) : List W64 := (upFrom 0 k).map fun i => s.memWord (a + 8 * i)

/-- The BAR2 offset of bank b (R33). -/
def bankBase (b : Nat) : Nat := b * 0x1000

/-- The BAR2 offset of engine n's instruction memory (R33). -/
def imemBase (n : Nat) : Nat := 0x800000 + n * 0x20000

/-- The BAR2 offset of engine n's data memory (R33). -/
def dmemBase (n : Nat) : Nat := imemBase n + 0x10000

/-! ### Engines and contexts -/

/-- The hidden part of an engine. -/
def State.eng (s : State) (n : Nat) : Eng := Tab.get {} s.engs n

/-- The hidden part of an engine set. -/
def State.setEng (s : State) (n : Nat) (e : Eng) : State := { s with engs := Tab.set {} s.engs n e }

/-- Context c of engine n. -/
def State.ctx (s : State) (n c : Nat) : Ctx := Tab.get {} s.ctxs (4 * n + c)

/-- Context c of engine n set. -/
def State.setCtx (s : State) (n c : Nat) (x : Ctx) : State := { s with ctxs := Tab.set {} s.ctxs (4 * n + c) x }

/-- The STATE of a context (R331). -/
def State.ctxState (s : State) (n c : Nat) : Nat := s.fld Fld.engCtxStatState n c

/-- One bit of a field of bits set to a truth value. -/
def putBit (v i : Nat) (b : Bool) : Nat := if b then v ||| 2 ^ i else v &&& (2 ^ 16 - 1 - 2 ^ i)

/-- The STATE of a context set, with the READY, FAULTED and BUSY bits of ENG_STAT that show it (R331, R359). -/
def State.setCtxState (s : State) (n c st : Nat) : State :=
  let s := s.setFld Fld.engCtxStatState st n c
  let s := if st = 3 then s else s.setFld Fld.engCtxStatWaitOn 0 n c
  let s := s.setFld Fld.engStatReady (putBit (s.fld Fld.engStatReady n) c (st == 1)) n
  let s := s.setFld Fld.engStatFaulted (putBit (s.fld Fld.engStatFaulted n) c (st == 5)) n
  let s := if st = 2 then s.setFld Fld.engStatCurCtx c n else s
  s.setFlag Fld.engStatBusy ((upFrom 0 4).any fun k => let t := s.ctxState n k; t == 2 || t == 6 || t == 7) n

/-- A context waiting on a condition becomes READY once it holds (R332); the watchdog's count begins again (R337). -/
def State.wakeCtx (s : State) (n c on : Nat) : State :=
  if s.ctxState n c = 3 ∧ s.fld Fld.engCtxStatWaitOn n c = on then
    (s.setCtxState n c 1).setCtx n c { s.ctx n c with wdogAt := s.now }
  else s

/-! ### Completions -/

/-- The completion of an event (R139). -/
structure Compl where
  status   : Nat
  slot     : Nat
  cause    : Nat
  flags    : Nat
  fired    : W64
  position : W64
  lateness : Nat
  count    : Nat
  extra    : Nat
  deriving DecidableEq, Repr

/-- The queue entry of a completion (R347). -/
def evqEntry (k : Compl) (seq : Nat) : List W64 :=
  [BitVec.ofNat 64 (k.status % 2 ^ 16 + k.slot % 2 ^ 12 * 2 ^ 16 + k.cause % 16 * 2 ^ 28 + k.flags % 64 * 2 ^ 32
      + k.extra % 16 * 2 ^ 40 + k.count % 2 ^ 16 * 2 ^ 48),
   k.fired, k.position, BitVec.ofNat 64 (min k.lateness (2 ^ 32 - 1) + seq % 2 ^ 32 * 2 ^ 32)]

/-- The EVENT record of a completion for the ring that armed the event (R442). -/
def eventRecord (k : Compl) (ring : Nat) : List W64 :=
  [BitVec.ofNat 64 (k.status % 2 ^ 16 + 2 ^ 16 + ring % 2 ^ 8 * 2 ^ 24 + k.slot % 2 ^ 12 * 2 ^ 32
      + k.cause % 16 * 2 ^ 44 + k.flags % 64 * 2 ^ 48 + k.extra % 16 * 2 ^ 56),
   k.fired, k.position, BitVec.ofNat 64 (min k.lateness (2 ^ 32 - 1) + k.count % 2 ^ 16 * 2 ^ 32)]

/-- The completion word of a fabric arm channel (R109). -/
def channelWord (k : Compl) : W64 :=
  BitVec.ofNat 64 (k.status % 2 ^ 16 + k.slot % 2 ^ 12 * 2 ^ 16 + k.cause % 16 * 2 ^ 28
    + min k.lateness (2 ^ 32 - 1) * 2 ^ 32)

/-- The entries a context's completion queue holds, WR − RD (R347). -/
def State.evqHeld (s : State) (n c : Nat) : Nat :=
  (s.fld Fld.engCtxEvqPtrWr n c + 2 ^ 16 - s.fld Fld.engCtxEvqPtrRd n c) % 2 ^ 16

/-- Is a context's completion queue full? -/
def State.evqFull (s : State) (n c : Nat) : Bool := 2 ^ s.fld Fld.engCtxEvqSize n c ≤ s.evqHeld n c

/-- An entry written at WR mod 2^SIZE in DMEM, WR advanced, SEQ given, a context waiting on COMPLETION made READY
(R347). -/
def evqWrite (n c : Nat) (ws : List W64) (s : State) : State :=
  let e := s.eng n
  let i := s.fld Fld.engCtxEvqPtrWr n c % 2 ^ s.fld Fld.engCtxEvqSize n c
  let w3 := putBits (wordAt ws 3) 32 32 e.seq
  let s := s.setMemWords (dmemBase n + s.fld Fld.engCtxEvqBase n c * 32 + 32 * i) (ws.take 3 ++ [w3])
  let s := s.setEng n { e with seq := (e.seq + 1) % 2 ^ 32 }
  let s := s.setFld Fld.engCtxEvqPtrWr ((s.fld Fld.engCtxEvqPtrWr n c + 1) % 2 ^ 16) n c
  s.wakeCtx n c 4

/-- A completion lost at an engine: EVQ_LOST counts, and is raised under NOTE_EN (R347). -/
def evqLost (n c : Nat) (s : State) : State :=
  (s.bump Fld.engCntEvqLost n).noticeIf (s.flag Fld.engCtlNoteEn n) Code.evqLost (4 * n + c)

/-- A completion for a context: written, buffered, or discarded (R347). A completion does not pass one of its own
context that waits in the buffer. -/
def deliverEvq (n c : Nat) (ws : List W64) (s : State) : State :=
  if !s.flag Fld.engCtxEvqEn n c then evqLost n c s
  else
    let e := s.eng n
    if !s.evqFull n c && !e.evqBuf.any (fun p => p.1 == c) then evqWrite n c ws s
    else if e.evqBuf.length < 16 then s.setEng n { e with evqBuf := e.evqBuf ++ [(c, ws)] }
    else evqLost n c s

/-- The EVENT records of a half waiting for room (R443). -/
def Sched.evt (q : Sched) (h : Nat) : List (Nat × List W64) := if h = 0 then q.evtWest else q.evtEast

/-- The EVENT records of a half set. -/
def Sched.setEvt (q : Sched) (h : Nat) (l : List (Nat × List W64)) : Sched :=
  if h = 0 then { q with evtWest := l } else { q with evtEast := l }

/-- An EVENT record for a ring's completion ring: written, held for room, or lost (R443). -/
def deliverRecord (h ring : Nat) (ws : List W64) (s : State) : State :=
  let c := s.fld Fld.rngCfgCpl ring
  if !s.ringOpen c 1 then s.bump Fld.rngCntLost ring
  else
    let l := s.sched.evt h
    if !s.ringFull c && !l.any (fun p => p.1 == c) then s.putRecord c ws
    else if l.length < 256 then { s with sched := s.sched.setEvt h (l ++ [(c, ws)]) }
    else (s.bump Fld.rngCntLost c).notice Code.cplLost c

/-- A fabric arm channel. -/
def State.chan (s : State) (k : Nat) : Chan := Tab.get {} s.sched.chans k

/-- A fabric arm channel set. -/
def State.setChan (s : State) (k : Nat) (c : Chan) : State :=
  { s with sched := { s.sched with chans := Tab.set {} s.sched.chans k c } }

/-- A completion word for an arm channel: an untaken older word is dropped and counts as OVERRUN (R109). -/
def deliverWord (k : Nat) (w : W64) (s : State) : State :=
  let c := s.chan k
  let s := if c.compl.isSome then s.bump Fld.evtCntOverrun (k / 16) else s
  s.setChan k { c with compl := some w }

/-- A completion delivered to the arming party (R140). -/
def deliverCompl (armer : Armer) (k : Compl) (s : State) : State :=
  match armer with
  | .none => s
  | .ring r => deliverRecord (k.slot / 2048) r (eventRecord k r) s
  | .context n c => deliverEvq n c (evqEntry k 0) s
  | .channel ch => deliverWord ch (channelWord k) s

end Sys2Proof.Machine
end

