-- ==== Sys2Proof/Machine/Clocks.lean ====
section
/-! DEFINITION. The clock root, its monitor and its sources, gating and wake, and the crossings' resets
(07_crossings_and_clocks R286 to R324). -/

namespace Sys2Proof.Machine

/-! ### The root and the monitor (R290 to R298) -/

/-- STW_START.PHASE (R611): 0 none, 1 OSC, 2 LOCK, 3 ARCHIVE, 4 BIST, 5 MAP, 6 LOAD or CHECK, 7 GATE, 8 STARTUP,
9 HELD. -/
def State.phase (s : State) : Nat := s.fld Fld.stwStartPhase

/-- STW_START.PHASE set. -/
def State.setPhase (s : State) (p : Nat) : State := s.setFld Fld.stwStartPhase p

/-- The READY flag of source k, 0 to 3 (R290). -/
def State.srcReady (s : State) (k : Nat) : Bool := bitOf (s.reg Reg.clkStat).toNat (1 + k)

/-- The READY flag of a source set. -/
def State.setReady (s : State) (k : Nat) (b : Bool) : State :=
  s.setReg Reg.clkStat (putBits (s.reg Reg.clkStat) (1 + k) 1 (b2n b))

/-- CLK_DEGRADED in every timebase and scheduler half (R86, R130). -/
def setDegraded (b : Bool) (s : State) : State :=
  let s := (upFrom 0 32).foldl (fun s n => s.setFlag Fld.tbStatClkDegraded b n) s
  (s.setFlag Fld.evtStatClkDegraded b 0).setFlag Fld.evtStatClkDegraded b 1

/-- Is CLK_GCTL.NOTE_EN set? -/
def State.clkNotes (s : State) : Bool := s.flag Fld.clkGctlNoteEn

/-- The clock's refusals: the cause in bits [18:16], the domain in [23:19] (R321). -/
def clkRefused (code cause g : Nat) (s : State) : State := s.refuse Reg.clkRefuse code (cause + 8 * g)

/-- CLK_SW_REFUSED with its cause, and its notice (R300). -/
def switchRefused (cause : Nat) (s : State) : State :=
  (clkRefused Code.clkSwRefused cause 0 s).noticeIf s.clkNotes Code.clkSwRefused 0

/-- The device-wide action of a clock switch or return ends. -/
def dropClockAction (s : State) : State :=
  { s with lead := { s.lead with underWay := s.lead.underWay.erase .clockReturn
                                 held := s.lead.held.erase .clockReturn } }

/-- The source in use fails (R295): holdover, the loss recorded, the alarm, and CLK_DEGRADED. A switch under way ends. -/
def clockLoss (cause : Nat) (s : State) : State :=
  let s := ((s.setFld Fld.clkSrcActive 5).setFlag Fld.clkStatHoldover true).setFlag Fld.clkStatRootLocked false
  let s := ((s.setFlag Fld.clkSrcSwitching false).setFlag Fld.clkStatSlewing false)
  let s := dropClockAction { s with clk := { s.clk with target := none, bad := 0 } }
  let s := ((s.setFlag Fld.clkStatLoss true).setFld Fld.clkStatLossCause cause).setFlag Fld.clkStatLossSeen true
  setDegraded true ((s.bump Fld.clkStatLossCount).alarm 0 Code.clockLoss 0)

/-- The source in use, where it is an external one to which the root is locked. -/
def State.inUse (s : State) (k : Nat) : Bool := s.flag Fld.clkStatRootLocked && s.fld Fld.clkSrcActive == k

/-- A source is no longer READY; the target of a switch that loses READY ends the switch with LOST and the root falls
back (R300). The spec names no cause of the loss for that, and LOSS_CAUSE is free (log entry 13). -/
def sourceGone (k : Nat) (s : State) : State :=
  let s := s.setReady k false
  if s.clk.target = some k then clockLoss (s.freeNat % 5) (switchRefused 3 s.tookFree) else s

/-- REF_MISSING_EDGE (R294): no edge of source k for 200 ns. -/
def execRefMissingEdge (k : Fin 4) (s : State) : Out :=
  .next (if s.inUse k.val then clockLoss 1 (s.setReady k.val false) else sourceGone k.val s)

/-- PLL_UNLOCK (R294): loss of lock for more than 1 µs. -/
def execPllUnlock (s : State) : Out :=
  .next (if s.flag Fld.clkStatRootLocked && s.fld Fld.clkSrcActive < 4 then clockLoss 3 s else s)

/-- The READY flags a window leaves: the monitor's verdict on each source (R290, R294). -/
def readyFlags (ready : BitVec 4) (s : State) : State :=
  (upFrom 0 4).foldl (fun s k => if bitOf ready.toNat k then s.setReady k true
    else if s.inUse k then s.setReady k false else sourceGone k s) s

/-- FREQ_WINDOW (R294, R297, R320): a window ends with the count of the reference in use, whether a third clock agrees
with it, and the monitor's verdict on each source. Two windows in a row outside 990 to 1,010 are a disagreement. -/
def freqWindow (count : BitVec 11) (agree : Bool) (ready : BitVec 4) (s : State) : State :=
  let n := count.toNat
  let s := s.setFld Fld.clkMonRefCount n
  let s := if n < s.fld Fld.clkMonMinCount then s.setFld Fld.clkMonMinCount n else s
  let s := readyFlags ready s
  if !s.flag Fld.clkStatRootLocked || 4 ≤ s.fld Fld.clkSrcActive then s
  else if 990 ≤ n ∧ n ≤ 1010 then { s with clk := { s.clk with bad := 0 } }
  else if s.clk.bad = 0 then { s with clk := { s.clk with bad := 1 } }
  else if agree then
    let s := { s with clk := { s.clk with bad := 0 } }
    if s.flag Fld.clkStatIntoscFail then s
    else
      let s := (s.setFlag Fld.clkStatIntoscFail true).setFlag Fld.clkStatIntoscOk false
      s.noticeIf s.clkNotes Code.intoscFail 0
  else clockLoss 2 s

def execFreqWindow (count : BitVec 11) (agree : Bool) (ready : BitVec 4) (s : State) : Out :=
  .next (freqWindow count agree ready s)

/-- HOLDOVER_TO_INTOSC (R295): the root takes 25 × the internal oscillator, unless INTOSC_FAIL is latched (R297). -/
def execHoldoverToIntosc (s : State) : Out :=
  .next (if s.fld Fld.clkSrcActive = 5 ∧ !s.flag Fld.clkStatIntoscFail then
      ((s.setFld Fld.clkSrcActive 4).setFlag Fld.clkStatHoldover false).setFlag Fld.clkStatRootLocked true
    else s)

/-! ### The root at a start (R291 to R293) -/

/-- The steward takes XTAL if its amplifier oscillates, otherwise REFIN if REFCLK toggles, otherwise waits (R292). -/
def takeSource (xtal refin : Bool) (s : State) : State :=
  if s.clk.taken ∨ s.flag Fld.clkStatRootLocked then s
  else if xtal ∨ refin then
    let k := if xtal then 0 else 1
    let s := ((s.setFld Fld.clkSrcSel k).setFld Fld.clkSrcActive k).setPhase 2
    { s with clk := { s.clk with taken := true } }
  else s

/-- OSC_DELAY_EXPIRY (R291, R292): the oscillator start delay of a cold start ends. -/
def execOscDelayExpiry (xtal refin : Bool) (s : State) : Out :=
  .next (if s.phase = 1 then takeSource xtal refin (s.setPhase 2) else s)

/-- ROOT_SOURCE_RETRY (R292): XTAL and REFIN are tried again. -/
def execRootSourceRetry (xtal refin : Bool) (s : State) : Out :=
  .next (if s.phase = 2 then takeSource xtal refin s else s)

/-! ### Switches and returns (R298 to R301) -/

/-- A switch or return starts: SWITCHING and SLEWING read 1 (R301). -/
def beginSwitch (k : Nat) (s : State) : State :=
  let s := (s.setFlag Fld.clkSrcSwitching true).setFlag Fld.clkStatSlewing true
  { s with clk := { s.clk with target := some k }, lead := { s.lead with underWay := s.lead.underWay ++ [.clockReturn] } }

/-- AUTO_RETURN_START (R298): the stewards raise the return, which waits while the leadership state is not AGREED. -/
def autoReturn (s : State) : State :=
  let k := s.fld Fld.clkSrcSel
  if !s.flag Fld.clkStatLoss || !s.flag Fld.clkSrcAutoRet || s.flag Fld.clkSrcSwitching || !s.srcReady k then s
  else if s.agreed then
    beginSwitch k { s with lead := { s.lead with waiting := s.lead.waiting.filter (· != .clockReturn)
                                                 underWay := s.lead.underWay.filter (· != .clockReturn) } }
  else if s.lead.waiting.contains .clockReturn then s
  else s.raiseAction .clockReturn

def execAutoReturnStart (s : State) : Out := .next (autoReturn s)

/-- A write of CLK_SRC (R300), judged in R300's order; AUTO_RET takes its value with a write that is not refused. -/
def clkSrcWrite (sel : Nat) (auto : Bool) (w : Writer) (s : State) : State :=
  s.wardenOr w Reg.clkSrc.base fun s =>
    let take (s : State) := s.setFlag Fld.clkSrcAutoRet auto
    if !s.agreed then clkRefused Code.held 0 0 s
    else if s.flag Fld.clkSrcSwitching then switchRefused 2 s
    else if sel = s.fld Fld.clkSrcActive then take s
    else if !s.srcReady sel then switchRefused 1 s
    else beginSwitch sel (take (s.setFld Fld.clkSrcSel sel))

/-- CLK_SRC_SWITCH (R300). -/
def execClkSrcSwitch (w : Writer) (sel : Fin 4) (auto : Bool) (s : State) : Out :=
  .next (s.linked w Reg.clkSrc.base (clkSrcWrite sel.val auto w))

/-- ROOT_SLEW_DONE (R298, R301): ACTIVE names the source; a return ends the loss. -/
def slewDone (s : State) : State :=
  match s.clk.target with
  | none => s
  | some k =>
    let s := ((s.setFld Fld.clkSrcActive k).setFlag Fld.clkSrcSwitching false).setFlag Fld.clkStatSlewing false
    let s := (s.setFlag Fld.clkStatRootLocked true).setFlag Fld.clkStatHoldover false
    let s := dropClockAction { s with clk := { s.clk with target := none } }
    if s.flag Fld.clkStatLoss then
      (setDegraded false (s.setFlag Fld.clkStatLoss false)).noticeIf s.clkNotes Code.rootRestored 0
    else s

def execRootSlewDone (s : State) : Out := .next (slewDone s)

/-! ### Gating (R302 to R304, R322) -/

/-- The crossing that counts a domain's wakes (R323). -/
def gateCrossing (g : Nat) : Nat := if g < 12 then g else if g = 12 then 16 else 10 + g

/-- Is every unit of a gated domain stopped? (R302): the engines of a group, the archive controller, a fabric lane. -/
def State.gateStopped (s : State) (g : Nat) : Bool :=
  if g < 12 then (upFrom (8 * g) 8).all fun n => s.fld Fld.engStatState n == 0
  else if g = 12 then s.fld Fld.arcStatState == 0
  else s.fld Fld.pinLaneStatState (g - 11) == 0

/-- Has a gated domain no work? (R302): no context of a group READY or running, no archive operation, nothing for a lane
to send. -/
def State.gateIdle (s : State) (g : Nat) : Bool :=
  if g < 12 then (upFrom (8 * g) 8).all fun n => (upFrom 0 4).all fun c =>
    let t := s.ctxState n c; t == 0 || t == 3 || t == 4 || t == 5
  else if g = 12 then s.fld Fld.arcStatQueued == 0 && !s.flag Fld.arcStatPatrol
  else s.flag Fld.queStatEmpty (s.fld Fld.pinLaneCfgQtx (g - 11))

/-- The clock starts, or will once its stop has completed (R304). -/
def gateRun (g : Nat) (s : State) : State :=
  match s.fld Fld.clkGateState g with
  | 1 => s.setFld Fld.clkGateState 0 g
  | 2 => s.setFld Fld.clkGateState 3 g
  | _ => s

/-- A write of CLK_GATE[g] (R302, R304). Leaving OFF by AUTO starts the clock as ON does. -/
def gateWrite (g mode idle : Nat) (s : State) : State :=
  let old := s.fld Fld.clkGateMode g
  if mode = 3 then clkRefused Code.clkBadCfg 0 g s
  else if mode = 2 ∧ !s.gateStopped g then clkRefused Code.clkGateBusy 0 g s
  else
    let s := (s.setFld Fld.clkGateMode mode g).setFld Fld.clkGateIdle idle g
    match mode with
    | 0 => gateRun g s
    | 1 => if old = 2 ∨ s.fld Fld.clkGateState g = 2 then gateRun g s else s
    | _ =>
      match s.fld Fld.clkGateState g with
      | 0 => s.setFld Fld.clkGateState 2 g
      | 3 => s.setFld Fld.clkGateState 2 g
      | _ => s

/-- CLK_GATE_ON (R302). -/
def execClkGateOn (w : Writer) (g : Fin 15) (idle : Byte) (s : State) : Out :=
  .next (s.linked w (Reg.clkGate.addr g.val 0) (gateWrite g.val 0 idle.toNat))

/-- CLK_GATE_AUTO (R302). -/
def execClkGateAuto (w : Writer) (g : Fin 15) (idle : Byte) (s : State) : Out :=
  .next (s.linked w (Reg.clkGate.addr g.val 0) (gateWrite g.val 1 idle.toNat))

/-- CLK_GATE_OFF (R302). -/
def execClkGateOff (w : Writer) (g : Fin 15) (idle : Byte) (s : State) : Out :=
  .next (s.linked w (Reg.clkGate.addr g.val 0) (gateWrite g.val 2 idle.toNat))

/-- CLK_GATE_IDLE_STOP (R302): an AUTO domain with no work for its count begins to stop. -/
def execClkGateIdleStop (g : Fin 15) (s : State) : Out :=
  .next (if s.fld Fld.clkGateMode g.val = 1 ∧ s.fld Fld.clkGateState g.val = 0 ∧ s.gateIdle g.val then
      s.setFld Fld.clkGateState 2 g.val
    else s)

/-- CLK_GATE_WAKE (R303): each start of the clock counts once in WAKES; a wake that meets the stop waits for it. -/
def gateWake (g : Nat) (s : State) : State :=
  let st := s.fld Fld.clkGateState g
  if s.fld Fld.clkGateMode g ≠ 1 ∨ (st ≠ 1 ∧ st ≠ 2) then s
  else (gateRun g s).bump Fld.clkXingCntWakes (gateCrossing g)

def execClkGateWake (g : Fin 15) (s : State) : Out := .next (gateWake g.val s)

/-- CLK_GATE_STOP_DONE (R304): the clock is stopped, and a latched restart then runs. -/
def execClkGateStopDone (g : Fin 15) (s : State) : Out :=
  .next (match s.fld Fld.clkGateState g.val with
    | 2 => s.setFld Fld.clkGateState 1 g.val
    | 3 => s.setFld Fld.clkGateState 0 g.val
    | _ => s)

/-! ### Crossings (R313, R314) -/

/-- One side of a crossing goes into reset. -/
def resetCrossing (x : Nat) (s : State) : State :=
  { s with clk := { s.clk with reset := s.clk.reset.filter (· != x) ++ [x] } }

/-- CROSSING_RELEASE (R313, R314): the side is released; what was discarded meanwhile is counted, and the first discard
raises XING_DISCARD. -/
def crossingRelease (x items : Nat) (s : State) : State :=
  if !s.clk.reset.contains x then s
  else
    let s := { s with clk := { s.clk with reset := s.clk.reset.filter (· != x) } }
    if items = 0 then s
    else (s.bump Fld.clkXingCntDiscard x 0 items).noticeIf s.clkNotes Code.xingDiscard x

def execCrossingRelease (x : Fin 27) (items : BitVec 16) (s : State) : Out :=
  .next (crossingRelease x.val items.toNat s)

/-! ### Counters (R320, R323) -/

def clkMinClr (s : State) : State := s.setFld Fld.clkMonMinCount (s.fld Fld.clkMonRefCount)

/-- CLK_MIN_CLR (R320). -/
def execClkMinClr (w : Writer) (s : State) : Out := .next (s.linked w Reg.clkMon.base clkMinClr)

def clkCntClr (s : State) : State := (upFrom 0 27).foldl (fun s x => s.setReg Reg.clkXingCnt 0 x) s

/-- CLK_CNT_CLR (R323). -/
def execClkCntClr (w : Writer) (s : State) : Out := .next (s.linked w Reg.clkGctl.base clkCntClr)

end Sys2Proof.Machine
end

