-- ==== Sys2Proof/Machine/Crypto.lean ====
section
/-! DEFINITION. The checks and ciphers the device computes: CRC-32C of streams (R506), AES-256 and its Galois/counter mode
(R514, R515, R477). AES is that of FIPS 197 and GCM that of NIST SP 800-38D, which the spec names and does not restate. -/

namespace Sys2Proof.Machine

/-! ### CRC-32C (R506) -/

/-- Eight steps of the reflected Castagnoli polynomial. -/
def crcStep : Nat → Nat → Nat
  | 0, c => c
  | k + 1, c => crcStep k (if c % 2 = 1 then c / 2 ^^^ 0x82F63B78 else c / 2)

/-- The running CRC after one byte. -/
def crcByte (c : Nat) (b : Byte) : Nat := crcStep 8 (c ^^^ b.toNat)

/-- The running CRC after a list of bytes. -/
def crcBytes (c : Nat) (bs : List Byte) : Nat := bs.foldl crcByte c

/-- The CRC of a running value. -/
def crcEnd (c : Nat) : Nat := c ^^^ 0xFFFFFFFF

/-- CRC-32C of a list of bytes. -/
def crc32c (bs : List Byte) : Nat := crcEnd (crcBytes 0xFFFFFFFF bs)

/-! ### AES-256 -/

/-- Multiplication by x in GF(2^8). -/
def xtime (a : Nat) : Nat := if a < 128 then 2 * a else (2 * a - 256) ^^^ 0x1B

/-- Multiplication in GF(2^8), over `k` bits of b. -/
def gmul : Nat → Nat → Nat → Nat
  | 0, _, _ => 0
  | k + 1, a, b => (if b % 2 = 1 then a else 0) ^^^ gmul k (xtime a) (b / 2)

/-- A square in GF(2^8). -/
def gsq (a : Nat) : Nat := gmul 8 a a

/-- a^254, the inverse in GF(2^8) with 0 for 0. -/
def ginv (a : Nat) : Nat :=
  let a2 := gsq a
  let a3 := gmul 8 a2 a
  let a12 := gsq (gsq a3)
  let a15 := gmul 8 a12 a3
  let a240 := gsq (gsq (gsq (gsq a15)))
  let a252 := gmul 8 a240 a12
  gmul 8 a252 a2

/-- A byte turned left by k bits. -/
def rotByte (a k : Nat) : Nat := (a * 2 ^ k) % 256 + a / 2 ^ (8 - k)

/-- SubBytes of one byte. -/
def aesSub (a : Nat) : Nat :=
  let i := ginv a
  i ^^^ rotByte i 1 ^^^ rotByte i 2 ^^^ rotByte i 3 ^^^ rotByte i 4 ^^^ 0x63

/-- Exclusive or of two lists of bytes. -/
def xorBytes (a b : List Nat) : List Nat := List.zipWith (· ^^^ ·) a b

/-- The key schedule: four-byte words, newest first, `k` more from word number `i` on. -/
def aesExpand : Nat → Nat → List (List Nat) → List (List Nat)
  | 0, _, ws => ws
  | k + 1, i, ws =>
    let t := ws.headD []
    let t := if i % 8 = 0 then
        let r := (t.drop 1 ++ t.take 1).map aesSub
        xorBytes r [2 ^ (i / 8 - 1), 0, 0, 0]
      else if i % 8 = 4 then t.map aesSub else t
    aesExpand k (i + 1) (xorBytes (ws.getD 7 []) t :: ws)

/-- A list cut into pieces of `n`, `k` of them. -/
def pieces {α : Type} (n : Nat) : Nat → List α → List (List α)
  | 0, _ => []
  | k + 1, l => l.take n :: pieces n k (l.drop n)

/-- The fifteen round keys of a 32-byte key. -/
def aesKeys (key : List Nat) : List (List Nat) :=
  let words := aesExpand 52 8 (pieces 4 8 key).reverse
  (pieces 4 15 words.reverse).map List.flatten

/-- ShiftRows. -/
def shiftRows (b : List Nat) : List Nat := (upFrom 0 16).map fun i => b.getD ((i + 4 * (i % 4)) % 16) 0

/-- MixColumns of one column. -/
def mixColumn (c : List Nat) : List Nat :=
  let g (i : Nat) : Nat := c.getD (i % 4) 0
  (upFrom 0 4).map fun i => xtime (g i) ^^^ (xtime (g (i + 1)) ^^^ g (i + 1)) ^^^ g (i + 2) ^^^ g (i + 3)

/-- The rounds: every round key but the last mixes the columns. -/
def aesRounds : List (List Nat) → List Nat → List Nat
  | [], b => b
  | [k], b => xorBytes (shiftRows (b.map aesSub)) k
  | k :: ks, b => aesRounds ks (xorBytes (((pieces 4 4 (shiftRows (b.map aesSub))).map mixColumn).flatten) k)

/-- One block of 16 bytes under round keys. -/
def aesBlockWith (ks : List (List Nat)) (block : List Nat) : List Nat := aesRounds (ks.drop 1) (xorBytes block (ks.headD []))

/-- AES-256 of one block. -/
def aesBlock (key block : List Byte) : List Byte :=
  (aesBlockWith (aesKeys (key.map BitVec.toNat)) (block.map BitVec.toNat)).map (BitVec.ofNat 8)

/-! ### GCM -/

/-- The number a list of bytes spells, byte 0 most significant. -/
def natBE (bs : List Nat) : Nat := bs.foldl (fun n b => n * 256 + b) 0

/-- The `k` bytes of a number, byte 0 most significant. -/
def bytesBE : Nat → Nat → List Nat
  | 0, _ => []
  | k + 1, v => v / 256 ^ k % 256 :: bytesBE k v

/-- Multiplication in GF(2^128) as GCM orders its bits: `k` bits of x are left, z is the product so far. -/
def ghashMul : Nat → Nat → Nat → Nat → Nat
  | 0, _, _, z => z
  | k + 1, x, v, z =>
    ghashMul k x (if v % 2 = 1 then v / 2 ^^^ (0xE1 * 2 ^ 120) else v / 2) (if bitOf x k then z ^^^ v else z)

/-- The running hash after the blocks of a list of bytes padded with zeros, `k` of them. -/
def ghashBlocks (h : Nat) : Nat → List Nat → Nat → Nat
  | 0, _, y => y
  | k + 1, bs, y =>
    let b := bs.take 16
    ghashBlocks h k (bs.drop 16) (ghashMul 128 (y ^^^ natBE (b ++ List.replicate (16 - b.length) 0)) h 0)

/-- Blocks of 16 that hold n bytes. -/
def blocks16 (n : Nat) : Nat := (n + 15) / 16

/-- The counter-mode stream over `k` blocks from counter c. -/
def ctrStream (ks : List (List Nat)) (iv : List Nat) : Nat → Nat → List Nat
  | 0, _ => []
  | k + 1, c => aesBlockWith ks (iv ++ bytesBE 4 (c % 2 ^ 32)) ++ ctrStream ks iv k (c + 1)

/-- AES-256-GCM decryption with a 12-byte IV: the plaintext, and whether the tag verifies. -/
def gcmOpen (key iv aad cipher tag : List Byte) : List Byte × Bool :=
  let n (l : List Byte) : List Nat := l.map BitVec.toNat
  let ks := aesKeys (n key)
  let h := natBE (aesBlockWith ks (List.replicate 16 0))
  let y := ghashBlocks h (blocks16 aad.length) (n aad) 0
  let y := ghashBlocks h (blocks16 cipher.length) (n cipher) y
  let y := ghashMul 128 (y ^^^ (8 * aad.length * 2 ^ 64 + 8 * cipher.length)) h 0
  let t := xorBytes (bytesBE 16 y) (aesBlockWith ks (n iv ++ [0, 0, 0, 1]))
  let p := xorBytes (n cipher) (ctrStream ks (n iv) (blocks16 cipher.length) 2)
  (p.map (BitVec.ofNat 8), t == n tag)

end Sys2Proof.Machine
end

