-- ==== Sys2Proof/Machine/Predict.lean ====
section
/-! DEFINITION. Trajectories: the crossing a publication predicts, and the position a publication extrapolates to
(03_event_scheduler R112 and R136, 02_timebases R47). Positions are in 2^-24 counts, velocities and accelerations in
2^-16 counts per second (squared), times in steps of 12.5 ps, 8 * 10^10 to a second. -/

namespace Sys2Proof.Machine

/-- Steps of 12.5 ps in a second. -/
def perSecond : Nat := 80000000000

/-- Steps of 12.5 ps in a microsecond. -/
def perMicro : Nat := 80000

/-- The whole square root of `v`, bit by bit from bit `k` down, `r` already taken. -/
def isqrtFrom : Nat → Nat → Nat → Nat
  | 0, r, v => if (r + 1) * (r + 1) ≤ v then r + 1 else r
  | k + 1, r, v =>
    let t := r + 2 ^ (k + 1)
    isqrtFrom k (if t * t ≤ v then t else r) v

/-- The whole square root of a number below 2^256. -/
def isqrt (v : Nat) : Nat := isqrtFrom 127 0 v

/-- The difference of two positions, modulo 2^64 as a signed number (R47). -/
def posDiff (a b : W64) : Int := (a - b).toInt

/-- A publication as the scheduler uses it: the instant of its stamp, position, velocity and acceleration. -/
structure Pub where
  inst : Nat
  p    : W64
  v    : Int
  a    : Int
  deriving DecidableEq, Repr

/-- One root of A t² + B t + C = 0 (A not 0), the one with slope of sign `up`, if it lies after `e`: rounded to the
nearest step, a half upward. The slope there is +√D or −√D, D = B² − 4AC > 0. -/
def rootAfter (A B C e : Int) (up : Bool) : Option Int :=
  let D := B * B - 4 * A * C
  if D ≤ 0 then none
  else
    -- t = (-B ± √D) / (2A); with M = |2A|: t = (K ± √D) / M
    let M := if A < 0 then -(2 * A) else 2 * A
    let K := if A < 0 then B else -B
    let plus := if A < 0 then !up else up
    let X := e * M - K
    let after := if plus then decide (X < 0 ∨ X * X < D) else decide (X < 0 ∧ D < X * X)
    if !after then none
    else
      let r := isqrt (4 * D).toNat
      if plus then some (Int.fdiv (2 * K + M + r) (2 * M))
      else
        let c : Int := if r * r = (4 * D).toNat then r else r + 1
        some (Int.fdiv (2 * K + M - c) (2 * M))

/-- The first crossing after `e` steps from the stamp of p + v t + a t²/2 = target with a slope of sign `up` (R112). -/
def crossingUp (q : Pub) (target : W64) (e : Int) (up : Bool) : Option Int :=
  let d := posDiff target q.p
  let A := 256 * q.a
  let B := 2 * (perSecond : Int) * 256 * q.v
  let C := -(2 * (perSecond : Int) * perSecond * d)
  if A = 0 then
    if B = 0 ∨ decide (0 < B) ≠ up then none
    else
      let M := if B < 0 then -B else B
      let K := if B < 0 then C else -C
      if e * M < K then some (Int.fdiv (2 * K + M) (2 * M)) else none
  else rootAfter A B C e up

/-- The crossing in an event's direction (0 rising, 1 falling, 2 either) with its slope's sign: the smallest one after
`e` steps (R112). -/
def crossing (q : Pub) (target : W64) (e : Int) (dir : Nat) : Option (Int × Bool) :=
  if dir = 0 then (crossingUp q target e true).map (·, true)
  else if dir = 1 then (crossingUp q target e false).map (·, false)
  else
    match crossingUp q target e true, crossingUp q target e false with
    | none, none => none
    | some t, none => some (t, true)
    | none, some t => some (t, false)
    | some t, some u => if t ≤ u then some (t, true) else some (u, false)

/-- The position `d` steps from a stamp (d may be negative), in 2^-24 counts; a fraction is dropped or raised as `up`
says, for the spec states no rounding (log entry 3). -/
def extrapolate (p v a d : Int) (up : Bool) : Int :=
  let n := 2 * (perSecond : Int) * 256 * v * d + 256 * a * d * d
  let m := 2 * (perSecond : Int) * perSecond
  p + Int.fdiv n m + (if up && Int.fmod n m != 0 then 1 else 0)

/-- The velocity `d` steps from a stamp, rounded likewise. -/
def extrapolateV (v a d : Int) (up : Bool) : Int :=
  v + Int.fdiv (a * d) perSecond + (if up && Int.fmod (a * d) perSecond != 0 then 1 else 0)

end Sys2Proof.Machine
end

