-- ==== Sys2Proof/Machine/Float.lean ====
section
/-! DEFINITION. binary64 arithmetic of the engines: IEEE 754 with the choices of 09_kell_instruction_set R378, and the
conversions of R379. A finite number is a sign, a whole significand and an exponent of 2; every operation is computed
exactly, or with a sticky bit below the last place, and rounded once. -/

namespace Sys2Proof.Machine

/-- The flags in CSTAT.FLAGS order (R366). -/
def fNX : Nat := 1
def fUF : Nat := 2
def fOF : Nat := 4
def fDZ : Nat := 8
def fNV : Nat := 16
def fSAT : Nat := 32
def fIDZ : Nat := 64
def fIOV : Nat := 128

/-- Flags of two sources together. -/
def orFlags (a b : Nat) : Nat := a ||| b

/-- A result and the flags it raises. -/
abbrev FRes := W64 × Nat

/-- The quiet NaN every NaN result is (R378). -/
def qNaN : W64 := 0x7FF8000000000000

def fSign (a : W64) : Bool := bitsW a 63 1 == 1
def fExp (a : W64) : Nat := bitsW a 52 11
def fFrac (a : W64) : Nat := bitsW a 0 52
def isNaN (a : W64) : Bool := fExp a == 2047 && fFrac a != 0
def isSNaN (a : W64) : Bool := isNaN a && fFrac a < 2 ^ 51
def isInf (a : W64) : Bool := fExp a == 2047 && fFrac a == 0
def isZero (a : W64) : Bool := fExp a == 0 && fFrac a == 0

/-- The significand of a finite number, and its exponent: the value is significand × 2^exponent. -/
def fMant (a : W64) : Nat := if fExp a = 0 then fFrac a else fFrac a + 2 ^ 52
def fPow (a : W64) : Int := if fExp a = 0 then -1074 else (fExp a : Int) - 1075

/-- A number put together from its fields. -/
def fPack (neg : Bool) (e f : Nat) : W64 := BitVec.ofNat 64 (b2n neg * 2 ^ 63 + e * 2 ^ 52 + f)
def fInf (neg : Bool) : W64 := fPack neg 2047 0
def fZero (neg : Bool) : W64 := fPack neg 0 0

/-- The number of bits of `v`. -/
def bitLen (v : Nat) : Nat := if v = 0 then 0 else Nat.log2 v + 1

/-- Is a number rounded away from zero, its last kept bit, the dropped part against half of a place (less, equal,
more) and whether anything is dropped at all given? Rounding RM (R366). -/
def roundUp (rm : Nat) (neg odd : Bool) (half : Ordering) (some : Bool) : Bool :=
  match rm with
  | 0 => half == .gt || (half == .eq && odd)
  | 1 => false
  | 2 => some && !neg
  | _ => some && neg

/-- A significand of `m` × 2^−drop rounded to a whole number, `sticky` saying that something lies below: the rounded
number, and whether it is inexact. -/
def roundShift (rm : Nat) (neg : Bool) (m drop : Nat) (sticky : Bool) : Nat × Bool :=
  let q := m / 2 ^ drop
  let r := m % 2 ^ drop
  let half := if drop = 0 then .lt
    else match compare (2 * r) (2 ^ drop) with
      | .eq => if sticky then .gt else .eq
      | o => o
  let inexact := r != 0 || sticky
  (if roundUp rm neg (q % 2 == 1) half inexact then q + 1 else q, inexact)

/-- The overflowed result (R378): infinity, or the largest finite number where RM rounds toward it. -/
def overflowed (rm : Nat) (neg : Bool) : W64 :=
  if rm = 0 ∨ (rm = 2 ∧ !neg) ∨ (rm = 3 ∧ neg) then fInf neg else fPack neg 2046 (2 ^ 52 - 1)

/-- The number ± m × 2^e, with something below where `sticky`, rounded to binary64 (R378); tininess is detected after
rounding. `m` is not 0. -/
def roundPack (rm : Nat) (neg : Bool) (m : Nat) (e : Int) (sticky : Bool) : FRes :=
  let n := bitLen m
  let free : Int := e + (n : Int) - 53
  let lsb := if free < -1074 then -1074 else free
  let at_ (q : Int) : Nat × Bool :=
    if q ≤ e then (m * 2 ^ (e - q).toNat, sticky) else roundShift rm neg m (q - e).toNat sticky
  let (r, inexact) := at_ lsb
  let (u, _) := at_ free
  let tiny := decide (free + (bitLen u : Int) ≤ -1022)
  let top := lsb + (bitLen r : Int)
  if 1024 < top then (overflowed rm neg, fOF + fNX)
  else
    let flags := b2n inexact * fNX + b2n (tiny && inexact) * fUF
    if r = 0 then (fZero neg, flags)
    else if bitLen r < 53 then (fPack neg 0 r, flags)
    else
      let (r, lsb) := if bitLen r = 54 then (r / 2, lsb + 1) else (r, lsb)
      (fPack neg (lsb + 1075).toNat (r - 2 ^ 52), flags)

/-- A whole number v × 2^e rounded, an exact zero taking the sign given. -/
def roundInt (rm : Nat) (v : Int) (e : Int) (zeroNeg : Bool) : FRes :=
  if v = 0 then (fZero zeroNeg, 0) else roundPack rm (v < 0) v.natAbs e false

/-- NV where any operand is a signalling NaN. -/
def snanFlag (l : List W64) : Nat := if l.any isSNaN then fNV else 0

/-- The signed significand of a finite number. -/
def fInt (a : W64) : Int := if fSign a then -(fMant a : Int) else fMant a

/-- The exact sum of x × 2^ex and y × 2^ey rounded; a zero sum of operands of signs `sx` and `sy`. -/
def addExact (rm : Nat) (x : Int) (ex : Int) (y : Int) (ey : Int) (sx sy : Bool) : FRes :=
  let e := if ex < ey then ex else ey
  let v := x * (2 : Int) ^ (ex - e).toNat + y * (2 : Int) ^ (ey - e).toNat
  roundInt rm v e (if sx == sy then sx else rm == 3)

/-- FADD (R378). -/
def fAdd (rm : Nat) (a b : W64) : FRes :=
  if isNaN a || isNaN b then (qNaN, snanFlag [a, b])
  else if isInf a && isInf b then if fSign a == fSign b then (a, 0) else (qNaN, fNV)
  else if isInf a then (a, 0)
  else if isInf b then (b, 0)
  else addExact rm (fInt a) (fPow a) (fInt b) (fPow b) (fSign a) (fSign b)

/-- The sign of a number inverted. -/
def fNegate (a : W64) : W64 := a ^^^ 0x8000000000000000

/-- FSUB (R378). -/
def fSub (rm : Nat) (a b : W64) : FRes :=
  if isNaN b then (qNaN, snanFlag [a, b]) else fAdd rm a (fNegate b)

/-- FMUL (R378). -/
def fMul (rm : Nat) (a b : W64) : FRes :=
  let neg := fSign a != fSign b
  if isNaN a || isNaN b then (qNaN, snanFlag [a, b])
  else if isInf a || isInf b then if isZero a || isZero b then (qNaN, fNV) else (fInf neg, 0)
  else if isZero a || isZero b then (fZero neg, 0)
  else roundPack rm neg (fMant a * fMant b) (fPow a + fPow b) false

/-- FDIV (R378). -/
def fDiv (rm : Nat) (a b : W64) : FRes :=
  let neg := fSign a != fSign b
  if isNaN a || isNaN b then (qNaN, snanFlag [a, b])
  else if isInf a then if isInf b then (qNaN, fNV) else (fInf neg, 0)
  else if isInf b then (fZero neg, 0)
  else if isZero b then if isZero a then (qNaN, fNV) else (fInf neg, fDZ)
  else if isZero a then (fZero neg, 0)
  else
    let n := fMant a * 2 ^ 118
    roundPack rm neg (n / fMant b) (fPow a - fPow b - 118) (n % fMant b != 0)

/-- FSQRT (R378). -/
def fSqrt (rm : Nat) (a : W64) : FRes :=
  if isNaN a then (qNaN, snanFlag [a])
  else if isZero a then (a, 0)
  else if fSign a then (qNaN, fNV)
  else if isInf a then (a, 0)
  else
    let k : Nat := if fPow a % 2 = 0 then 120 else 121
    let n := fMant a * 2 ^ k
    let r := isqrt n
    roundPack rm false r ((fPow a - (k : Int)) / 2) (r * r != n)

/-- FMA (R378): a × b + c rounded once. -/
def fMulAdd (rm : Nat) (a b c : W64) : FRes :=
  let neg := fSign a != fSign b
  let zeroInf := (isInf a && isZero b) || (isZero a && isInf b)
  if isNaN a || isNaN b then (qNaN, snanFlag [a, b, c])
  else if isNaN c then
    (qNaN, if isSNaN c || (zeroInf && Config.fmaNanInvalid) then fNV else 0)
  else if zeroInf then (qNaN, fNV)
  else if isInf a || isInf b then if isInf c && fSign c != neg then (qNaN, fNV) else (fInf neg, 0)
  else if isInf c then (c, 0)
  else
    let p : Int := fInt a * fInt b
    addExact rm p (fPow a + fPow b) (fInt c) (fPow c) neg (fSign c)

/-- Is a less than b? Neither is a NaN; zeros of either sign are equal. -/
def fLess (a b : W64) : Bool :=
  let key (x : W64) : Int := if fSign x then -((x.toNat % 2 ^ 63 : Nat) : Int) else ((x.toNat % 2 ^ 63 : Nat) : Int)
  decide (key a < key b)

/-- Is a equal to b? Neither is a NaN. -/
def fEqual (a b : W64) : Bool := a == b || (isZero a && isZero b)

/-- FMIN and FMAX (R378): −0 is less than +0. -/
def fMinMax (max : Bool) (a b : W64) : FRes :=
  let flags := snanFlag [a, b]
  if isNaN a && isNaN b then (qNaN, flags)
  else if isNaN a then (b, flags)
  else if isNaN b then (a, flags)
  else
    let aLess := fLess a b || (isZero a && isZero b && fSign a && !fSign b)
    (if aLess != max then a else b, flags)

/-- FEQ, FLT and FLE (R378). -/
def fCmpEq (a b : W64) : FRes :=
  if isNaN a || isNaN b then (0, snanFlag [a, b]) else (if fEqual a b then 1 else 0, 0)
def fCmpLt (a b : W64) : FRes := if isNaN a || isNaN b then (0, fNV) else (if fLess a b then 1 else 0, 0)
def fCmpLe (a b : W64) : FRes :=
  if isNaN a || isNaN b then (0, fNV) else (if fLess a b || fEqual a b then 1 else 0, 0)

/-- A finite number times 2^k rounded to a whole number: its magnitude, and whether that is inexact. -/
def fWhole (rm : Nat) (a : W64) (k : Nat) : Nat × Bool :=
  let e := fPow a + (k : Int)
  if 0 ≤ e then (fMant a * 2 ^ e.toNat, false) else roundShift rm (fSign a) (fMant a) (-e).toNat false

/-- FROUND (R378): NX is not raised. -/
def fRound (rm : Nat) (a : W64) : FRes :=
  if isNaN a then (qNaN, snanFlag [a])
  else if isInf a || isZero a || 0 ≤ fPow a then (a, 0)
  else
    let (m, _) := fWhole rm a 0
    if m = 0 then (fZero (fSign a), 0) else ((roundPack rm (fSign a) m 0 false).1, 0)

/-- FCVT.FX and FCVT.FXU (R379): v × 2^−fb. -/
def fFromFixed (rm : Nat) (v : Int) (fb : Nat) : FRes := roundInt rm v (-(fb : Int)) false

/-- FCVT.XF (R379): the signed fixed value with fb fraction bits; NX is not among the flags R379 gives it. -/
def fToFixed (rm : Nat) (a : W64) (fb : Nat) : FRes :=
  let extreme (neg : Bool) : W64 := if neg then 0x8000000000000000 else 0x7FFFFFFFFFFFFFFF
  if isNaN a then (0, fNV)
  else if isInf a then (extreme (fSign a), fNV)
  else
    let (m, _) := fWhole rm a fb
    if m < 2 ^ 63 ∨ (fSign a ∧ m = 2 ^ 63) then (wOfInt (if fSign a then -(m : Int) else m), 0)
    else (extreme (fSign a), fNV)

end Sys2Proof.Machine
end

