-- ==== Sys2Proof/Machine/Kell.lean ====
section
/-! DEFINITION. The encoding of the engines' operations: the fields of an operation word, the operation it names, and
the fields that must be 0 (09_kell_instruction_set R368 to R374, R413, R414). -/

namespace Sys2Proof.Machine

/-- The operations of the Kell instruction set, as spec/opcode_table.json names them. -/
inductive Mn where
  | nop | add | sub | and_ | or_ | xor | shl | shr | sar | ror | slt | sltu | seq | min | max | minu | maxu |
  mul | mulh | mulhu | div | divu | rem | remu | clz | popc | addv | subv | cmovnz | cmovz | addi | andi | ori |
  xori | slti | sltiu | shi | ldi | insh | qadd | qsub | qmul | qdiv | qshl | qshr | qabs | qneg | qshli | qshri
  | fadd | fsub | fmul | fdiv | fsqrt | fma | fmin | fmax | fneg | fabs | feq | flt | fle | fround | fcvtFx |
  fcvtXf | fcvtFxu | ldl | stl | ldml | stml | ld | st | ldm | stm | atomAdd | atomSwap | mcpy | br | beq | bne
  | blt | bge | bltu | bgeu | bz | bnz | call | jr | waitToken | waitRoom | waitWake | waitCompletion |
  waitTimer | waitXfer | recv | send | chav | snap | tbw | evset | evcan | tkwake | evqHead | evqPop | dacw |
  xferStart | xferResume | xferAbort | xferStatus | rddt | csrRead | csrWrite | csrSet | csrClear | fence |
  yield | halt | rfh | ctxstart | ctxstop | pinr
  deriving DecidableEq, Repr

/-! ### Fields (R374) -/

def opMaj (w : W32) : Nat := bitsW w 26 6
def opRd (w : W32) : Nat := bitsW w 21 5
def opRa (w : W32) : Nat := bitsW w 16 5
def opRb (w : W32) : Nat := bitsW w 11 5
def opFn (w : W32) : Nat := bitsW w 0 11
def opImm (w : W32) : Nat := bitsW w 0 16
def opK (w : W32) : Nat := bitsW w 19 2
def opSz (w : W32) : Nat := bitsW w 13 3
def opS (w : W32) : Bool := bitsW w 15 1 == 1

/-- The N of an N-format operation, and of SNAP (R374, R395). -/
def opN (w : W32) : Nat := bitsW w 13 3 + 1
def snapN (w : W32) : Nat := bitsW w 0 2 + 1

/-- The signed byte offset of formats M, N and T, the sign-extended immediate, and a B-format offset in bundles. -/
def opOff (w : W32) : Int := signed 13 (bitsW w 0 13)
def opSImm (w : W32) : Int := signed 16 (opImm w)

/-- The B format's RA and RB stand where RD and RA stand elsewhere (R374). -/
def opBa (w : W32) : Nat := opRd w
def opBb (w : W32) : Nat := opRa w

/-! ### The operation a word names (R413, R414) -/

/-- The integer operations by FN. -/
def intOps : List Mn :=
  [.add, .sub, .and_, .or_, .xor, .shl, .shr, .sar, .ror, .slt, .sltu, .seq, .min, .max, .minu, .maxu, .mul, .mulh,
   .mulhu, .div, .divu, .rem, .remu, .clz, .popc, .addv, .subv, .cmovnz, .cmovz]

/-- The fixed-point operations by FN below 8. -/
def qfxOps : List Mn := [.qadd, .qsub, .qmul, .qdiv, .qshl, .qshr, .qabs, .qneg]

/-- The binary64 operations by FN. -/
def fpOps : List Mn :=
  [.fadd, .fsub, .fmul, .fdiv, .fsqrt, .fma, .fmin, .fmax, .fneg, .fabs, .feq, .flt, .fle, .fround]

/-- The functions of SYS by FN[3:0], of WAIT by RB, of XFER and CSR by FN[1:0]. -/
def sysOps : List Mn := [.fence, .yield, .halt, .rfh, .ctxstart, .ctxstop]
def waitOps : List Mn := [.waitToken, .waitRoom, .waitWake, .waitCompletion, .waitTimer, .waitXfer]
def xferOps : List Mn := [.xferStart, .xferResume, .xferAbort, .xferStatus]
def csrOps : List Mn := [.csrRead, .csrWrite, .csrSet, .csrClear]

/-- The fixed-point operation of an FN. -/
def qfxOp (fn : Nat) : Option Mn :=
  if fn < 8 then qfxOps[fn]?
  else if 0x40 ≤ fn ∧ fn < 0x80 then some .qshli
  else if 0x80 ≤ fn ∧ fn < 0xC0 then some .qshri
  else none

/-- The operation an operation word names, by its major opcode and function; none where they are undefined. -/
def opMn (w : W32) : Option Mn :=
  match opMaj w with
  | 0x00 => some .nop
  | 0x01 => intOps[opFn w]?
  | 0x02 => qfxOp (opFn w)
  | 0x03 => fpOps[opFn w]?
  | 0x04 => ([.fcvtFx, .fcvtXf, .fcvtFxu] : List Mn)[bitsW w 6 3]?
  | 0x08 => some .addi | 0x09 => some .andi | 0x0A => some .ori | 0x0B => some .xori
  | 0x0C => some .slti | 0x0D => some .sltiu | 0x0E => some .shi | 0x0F => some .ldi | 0x10 => some .insh
  | 0x14 => some .ldl | 0x15 => some .stl | 0x16 => some .ldml | 0x17 => some .stml
  | 0x18 => some .ld | 0x19 => some .st | 0x1A => some .ldm | 0x1B => some .stm
  | 0x1C => if bitsW w 0 1 = 0 then some .atomAdd else some .atomSwap
  | 0x1D => some .mcpy
  | 0x20 => some .br | 0x21 => some .beq | 0x22 => some .bne | 0x23 => some .blt | 0x24 => some .bge
  | 0x25 => some .bltu | 0x26 => some .bgeu | 0x27 => some .bz | 0x28 => some .bnz
  | 0x29 => some .call | 0x2A => some .jr
  | 0x30 => if opRb w = 0 then none else waitOps[opRb w - 1]?
  | 0x31 => some .recv | 0x32 => some .send | 0x33 => some .chav | 0x34 => some .snap | 0x35 => some .tbw
  | 0x36 => some .evset | 0x37 => some .evcan | 0x38 => some .tkwake
  | 0x39 => if bitsW w 0 1 = 0 then some .evqHead else some .evqPop
  | 0x3A => some .dacw
  | 0x3B => xferOps[bitsW w 0 2]?
  | 0x3C => some .rddt
  | 0x3D => csrOps[bitsW w 0 2]?
  | 0x3E => sysOps[bitsW w 0 4]?
  | 0x3F => some .pinr
  | _ => none

/-- The register range rd to rd + k − 1 lies within g0 to g31 (R373). -/
def rangeOk (rd k : Nat) : Bool := rd + k ≤ 32

/-- Is every field of the operation that must be 0 so, and every register range and sub-field allowed (R373, R375,
R380, R384, R386, R387, R390, R393, R395, R398, R401 to R404, R413, R414)? Otherwise it gives ILLEGAL_OP. A bit of FN
that the encoding gives no use makes an FN value the table does not define; a register field it gives no use is not
looked at (log entry 15). -/
def fieldsOk (m : Mn) (w : W32) : Bool :=
  let rd := opRd w
  let ra := opRa w
  let rb := opRb w
  let fn := opFn w
  match m with
  | .nop => bitsW w 0 26 == 0
  | .clz | .popc | .qabs | .qneg | .qshli | .qshri | .fsqrt | .fneg | .fabs | .fround => rb == 0
  | .fcvtFx | .fcvtXf | .fcvtFxu => rb == 0 && bitsW w 9 2 == 0
  | .shi => bitsW w 10 6 == 0
  | .ldi => opK w == 0 && bitsW w 16 3 == 0
  | .insh => bitsW w 16 3 == 0
  | .ldl => opSz w != 7
  | .stl => opSz w % 2 == 0
  | .ldml | .stml | .ldm | .stm => rangeOk rd (opN w)
  | .ld | .st => bitsW w 13 2 == 0 && (!opS w || rd ≤ 30)
  | .atomAdd | .atomSwap =>
    bitsW w 3 8 == 0 && (bitsW w 1 1 == 0 || (bitsW w 2 1 == 0 && rd ≤ 30))
  | .mcpy => bitsW w 2 9 == 0 && rd != ra && rd != rb && ra != rb
  | .br => opBa w == 0 && opBb w == 0
  | .bz | .bnz => opBb w == 0
  | .call => ra == 0
  | .jr => rb == 0 && bitsW w 1 10 == 0 && (bitsW w 0 1 == 1 || rd == 0)
  | .waitToken | .waitRoom | .waitCompletion | .waitXfer | .waitTimer => rd == 0 && bitsW w 3 8 == 0
  | .waitWake => bitsW w 3 8 == 0
  | .recv => ra == 0 && rb == 0 && bitsW w 3 8 == 0
  | .send => rb == 0 && bitsW w 4 7 == 0
  | .chav | .tkwake | .rddt => ra == 0 && rb == 0 && fn == 0
  | .snap => rb == 0 && bitsW w 2 9 == 0 && rd + 4 * snapN w ≤ 31
  | .tbw => fn == 0 && rangeOk rb 4
  | .evset => rb == 0 && fn == 0 && rangeOk ra 4
  | .evcan => rb == 0 && fn == 0
  | .evqHead => ra == 0 && rb == 0 && fn == 0
  | .evqPop => ra == 0 && rb == 0 && fn == 1 && rd == 0
  | .dacw => rb == 0 && bitsW w 4 7 == 0
  | .xferStart => rb == 0 && bitsW w 2 9 == 0 && rd == 0 && rangeOk ra 3
  | .xferResume | .xferAbort | .xferStatus => rb == 0 && bitsW w 2 9 == 0
  | .csrRead => bitsW w 2 9 == 0 && rb ≤ 9
  | .csrWrite | .csrSet | .csrClear => bitsW w 2 9 == 0 && (rb == 0 || rb == 1 || rb == 6 || rb == 9)
  | .fence | .yield | .halt | .rfh => rd == 0 && ra == 0 && bitsW w 4 7 == 0
  | .ctxstart | .ctxstop => rd == 0 && bitsW w 4 7 == 0
  | .pinr => ra == 0 && rb == 0 && bitsW w 4 7 == 0 && bitsW w 0 4 ≤ 8
  | _ => true

/-- May the operation stand in operation 1? (R369) -/
def op1Ok (w : W32) : Bool := opMaj w < 0x14

/-- A long operation (R371, R372). -/
def longMn : Mn → Bool
  | .div | .divu | .rem | .remu | .qdiv | .fdiv | .fsqrt => true
  | _ => false

/-! ### Registers read and written (R370, R383) -/

/-- The registers rd to rd + k − 1. -/
def regRange (rd k : Nat) : List Nat := upFrom rd k

/-- The registers an operation reads. -/
def opReads (m : Mn) (w : W32) : List Nat :=
  let rd := opRd w
  let ra := opRa w
  let rb := opRb w
  match m with
  | .nop | .ldi | .br | .call | .waitToken | .waitRoom | .waitWake | .waitCompletion | .waitXfer | .recv | .chav
  | .tkwake | .evqHead | .evqPop | .xferResume | .xferAbort | .xferStatus | .rddt | .csrRead | .fence | .yield | .halt
  | .rfh | .pinr => []
  | .insh => [rd]
  | .clz | .popc | .qabs | .qneg | .qshli | .qshri | .fsqrt | .fneg | .fabs | .fround | .fcvtFx | .fcvtXf | .fcvtFxu
  | .addi | .andi | .ori | .xori | .slti | .sltiu | .shi | .ldl | .ldml | .ld | .ldm | .jr | .waitTimer | .send | .snap
  | .evcan | .dacw | .csrWrite | .csrSet | .csrClear | .ctxstart | .ctxstop => [ra]
  | .cmovnz | .cmovz | .fma => [ra, rb, rd]
  | .stl | .st => [ra, rd]
  | .stml | .stm => ra :: regRange rd (opN w)
  | .mcpy => [ra, rb, rd]
  | .bz | .bnz => [opBa w]
  | .beq | .bne | .blt | .bge | .bltu | .bgeu => [opBa w, opBb w]
  | .tbw => ra :: regRange rb 4
  | .evset => regRange ra 4
  | .xferStart => regRange ra 3
  | _ => [ra, rb]

/-- The registers an operation writes. -/
def opWrites (m : Mn) (w : W32) : List Nat :=
  let rd := opRd w
  match m with
  | .nop | .stl | .stml | .stm | .br | .beq | .bne | .blt | .bge | .bltu | .bgeu | .bz | .bnz | .waitToken | .waitRoom
  | .waitCompletion | .waitTimer | .waitXfer | .evqPop | .xferStart | .xferResume | .xferAbort | .fence | .yield | .halt
  | .rfh | .ctxstart | .ctxstop => []
  | .st => if opS w then [rd + 1] else []
  | .ld => if opS w then [rd, rd + 1] else [rd]
  | .atomAdd | .atomSwap => if bitsW w 1 1 = 1 then [rd, rd + 1] else [rd]
  | .ldml | .ldm => regRange rd (opN w)
  | .mcpy => [opRa w, opRb w, rd]
  | .jr => if bitsW w 0 1 = 1 then [rd] else []
  | .snap => regRange rd (1 + 4 * snapN w)
  | _ => [rd]

end Sys2Proof.Machine
end

