-- ==== Sys2Proof/Machine/Alu.lean ====
section
/-! DEFINITION. The results and flags of the arithmetic, logic, fixed-point, binary64, conversion and immediate
operations of the engines (09_kell_instruction_set R375 to R379). -/

namespace Sys2Proof.Machine

/-! ### Integers (R375, R376) -/

/-- A truth value as a word. -/
def wBool (b : Bool) : W64 := if b then 1 else 0

/-- The four shifts: 0 SHL, 1 SHR, 2 SAR, 3 ROR. -/
def shiftBy (kind : Nat) (a : W64) (k : Nat) : W64 :=
  match kind with
  | 0 => a <<< k
  | 1 => a >>> k
  | 2 => a.sshiftRight k
  | _ => a.rotateRight k

/-- DIV (R376). -/
def intDiv (a b : W64) : FRes :=
  if b = 0 then (BitVec.allOnes 64, fIDZ)
  else if a.toInt = -(2 ^ 63 : Nat) ∧ b.toInt = -1 then (a, fIOV)
  else (wOfInt (tdiv a.toInt b.toInt), 0)

/-- REM (R376): the sign of the dividend. -/
def intRem (a b : W64) : FRes :=
  if b = 0 then (a, fIDZ) else (wOfInt (Int.tmod a.toInt b.toInt), 0)

/-- DIVU and REMU (R376). -/
def natDiv (a b : W64) : FRes := if b = 0 then (BitVec.allOnes 64, fIDZ) else (BitVec.ofNat 64 (a.toNat / b.toNat), 0)
def natRem (a b : W64) : FRes := if b = 0 then (a, fIDZ) else (BitVec.ofNat 64 (a.toNat % b.toNat), 0)

/-- CLZ and POPC (R375). -/
def leadingZeros (a : W64) : Nat := 64 - bitLen a.toNat
def onesCount (a : W64) : Nat := (upFrom 0 64).foldl (fun n i => n + bitsW a i 1) 0

/-- A sum judged for signed overflow (R375). -/
def withIov (v : Int) : FRes := (wOfInt v, if v < -(2 ^ 63 : Nat) ∨ (2 ^ 63 : Nat) ≤ v then fIOV else 0)

/-! ### Fixed point (R377) -/

/-- A value held within the format, SAT raised where it lies outside. -/
def saturate (v : Int) : FRes :=
  if v < -(2 ^ 63 : Nat) then (0x8000000000000000, fSAT)
  else if (2 ^ 63 : Nat) ≤ v then (0x7FFFFFFFFFFFFFFF, fSAT)
  else (wOfInt v, 0)

/-- num / den rounded to nearest, ties to even; den above 0. -/
def roundDiv (num : Int) (den : Nat) : Int :=
  let q := num / (den : Int)
  let r := (num % (den : Int)).toNat
  if den < 2 * r ∨ (2 * r = den ∧ q % 2 = 1) then q + 1 else q

/-- QDIV (R377). -/
def fixDiv (a b : W64) : FRes :=
  if b = 0 then ((if a = 0 then 0 else (saturate (if a.toInt < 0 then -(2 ^ 64 : Nat) else (2 ^ 64 : Nat))).1), fIDZ)
  else
    let n := a.toInt * (2 ^ 32 : Nat)
    saturate (roundDiv (if b.toInt < 0 then -n else n) b.toInt.natAbs)

/-- QSHL and QSHR (R377). -/
def fixShl (a : W64) (k : Nat) : FRes := saturate (a.toInt * (2 ^ k : Nat))
def fixShr (a : W64) (k : Nat) : FRes := saturate (roundDiv a.toInt (2 ^ k))

/-! ### The operations that may stand in either place (R369) -/

/-- The immediate inserted in a half-word (R375). -/
def insertHalf (d : W64) (k imm : Nat) : W64 := putBits d (16 * k) 16 imm

/-- The result in gRD and the flags raised, from gRA, gRB and gRD as they stood, under rounding RM. -/
def alu (m : Mn) (w : W32) (rm : Nat) (a b d : W64) : FRes :=
  let imm := wOfInt (opSImm w)
  let zimm : W64 := BitVec.ofNat 64 (opImm w)
  let sh := bitsW b 0 6
  let fb := bitsW w 0 6
  match m with
  | .add => (a + b, 0)
  | .sub => (a - b, 0)
  | .and_ => (a &&& b, 0)
  | .or_ => (a ||| b, 0)
  | .xor => (a ^^^ b, 0)
  | .shl => (shiftBy 0 a sh, 0)
  | .shr => (shiftBy 1 a sh, 0)
  | .sar => (shiftBy 2 a sh, 0)
  | .ror => (shiftBy 3 a sh, 0)
  | .slt => (wBool (a.slt b), 0)
  | .sltu => (wBool (a.ult b), 0)
  | .seq => (wBool (a == b), 0)
  | .min => (if a.slt b then a else b, 0)
  | .max => (if a.slt b then b else a, 0)
  | .minu => (if a.ult b then a else b, 0)
  | .maxu => (if a.ult b then b else a, 0)
  | .mul => (a * b, 0)
  | .mulh => (wOfInt (a.toInt * b.toInt / (2 ^ 64 : Nat)), 0)
  | .mulhu => (BitVec.ofNat 64 (a.toNat * b.toNat / 2 ^ 64), 0)
  | .div => intDiv a b
  | .divu => natDiv a b
  | .rem => intRem a b
  | .remu => natRem a b
  | .clz => (BitVec.ofNat 64 (leadingZeros a), 0)
  | .popc => (BitVec.ofNat 64 (onesCount a), 0)
  | .addv => withIov (a.toInt + b.toInt)
  | .subv => withIov (a.toInt - b.toInt)
  | .cmovnz => (if b = 0 then d else a, 0)
  | .cmovz => (if b = 0 then a else d, 0)
  | .addi => (a + imm, 0)
  | .andi => (a &&& zimm, 0)
  | .ori => (a ||| zimm, 0)
  | .xori => (a ^^^ zimm, 0)
  | .slti => (wBool (a.slt imm), 0)
  | .sltiu => (wBool (a.ult imm), 0)
  | .shi => (shiftBy (bitsW w 8 2) a fb, 0)
  | .ldi => (imm, 0)
  | .insh => (insertHalf d (opK w) (opImm w), 0)
  | .qadd => saturate (a.toInt + b.toInt)
  | .qsub => saturate (a.toInt - b.toInt)
  | .qmul => saturate (roundDiv (a.toInt * b.toInt) (2 ^ 32))
  | .qdiv => fixDiv a b
  | .qshl => fixShl a sh
  | .qshr => fixShr a sh
  | .qabs => saturate (a.toInt.natAbs : Int)
  | .qneg => saturate (-a.toInt)
  | .qshli => fixShl a fb
  | .qshri => fixShr a fb
  | .fadd => fAdd rm a b
  | .fsub => fSub rm a b
  | .fmul => fMul rm a b
  | .fdiv => fDiv rm a b
  | .fsqrt => fSqrt rm a
  | .fma => fMulAdd rm a b d
  | .fmin => fMinMax false a b
  | .fmax => fMinMax true a b
  | .fneg => (fNegate a, 0)
  | .fabs => (a &&& 0x7FFFFFFFFFFFFFFF, 0)
  | .feq => fCmpEq a b
  | .flt => fCmpLt a b
  | .fle => fCmpLe a b
  | .fround => fRound rm a
  | .fcvtFx => fFromFixed rm a.toInt fb
  | .fcvtXf => fToFixed rm a fb
  | .fcvtFxu => fFromFixed rm a.toNat fb
  | _ => (d, 0)

end Sys2Proof.Machine
end

