-- ==== Sys2Proof/Machine/SpineCore.lean ====
section
/-! DEFINITION. The spine's pool of transactions in flight, its header word and its responses (05_routing_and_spine
R208 to R218). -/

namespace Sys2Proof.Machine

/-- The most transactions a port holds in flight (R217). -/
def portLimit (p : Nat) : Nat := if p < 90 then 64 else if p < 102 then 128 else if p < 104 then 256 else 64

/-- Pool entries in use beyond each port's 8 reserved ones (R217). -/
def State.sharedUsed (s : State) : Nat :=
  (upFrom 0 106).foldl (fun n p => n + (s.fld Fld.stwSportStatInflight p - 8)) 0

/-- Has port p room for one more transaction in flight? (R217, R218) -/
def State.poolRoom (s : State) (p : Nat) : Bool :=
  let k := s.fld Fld.stwSportStatInflight p
  k < portLimit p && (k < 8 || s.sharedUsed < 1200)

/-- A field raised to a value it has not reached. -/
def State.peak (s : State) (f : Fld) (v : Nat) (i : Nat := 0) : State := if s.fld f i < v then s.setFld f v i else s

/-- A pool entry taken for port p (R217, R233, R234). -/
def State.occupy (s : State) (p : Nat) : State :=
  let s := s.setFld Fld.stwSportStatInflight (s.fld Fld.stwSportStatInflight p + 1) p
  let s := s.setFld Fld.stwSpineStatInflight (s.fld Fld.stwSpineStatInflight + 1)
  (s.peak Fld.stwSportStatPeak (s.fld Fld.stwSportStatInflight p) p).peak Fld.stwSpineStatPeak
    (s.fld Fld.stwSpineStatInflight)

/-- A pool entry of port p freed (R217). -/
def State.release (s : State) (p : Nat) : State :=
  let s := s.setFld Fld.stwSportStatInflight (s.fld Fld.stwSportStatInflight p - 1) p
  s.setFld Fld.stwSpineStatInflight (s.fld Fld.stwSpineStatInflight - 1)

/-- A transaction put behind those accepted before it. -/
def State.putTrans (s : State) (t : Trans) : State := { s with trans := s.trans ++ [t] }

/-- A response put on its way to its master's port. -/
def State.putRsp (s : State) (r : Rsp) : State := { s with rsps := s.rsps ++ [r] }

/-! ### The header word (R211) -/

def hdrOp (h : W64) : Nat := bitsW h 0 4
def hdrLen (h : W64) : Nat := bitsW h 4 3 + 1
def hdrTag (h : W64) : Nat := bitsW h 8 8
def hdrAddr (h : W64) : Nat := bitsW h 16 48

/-- The operation's code in a header. -/
def opCode : TOp → Nat
  | .read => 1 | .write => 2 | .writeAck => 3 | .add => 4 | .swap => 5 | .msg => 6

/-- Does the operation get a response? (R212) -/
def TOp.answered : TOp → Bool
  | .write => false | .msg => false | _ => true

/-- Does the operation write? -/
def TOp.writes : TOp → Bool
  | .read => false | _ => true

/-- Data words a header's transaction carries (R211). -/
def opWords (op : TOp) (len : Nat) : Nat :=
  match op with
  | .read => 0 | .write => len | .writeAck => len | _ => 1

/-- What R211 answers a header of operation `op` with; OK if nothing is wrong. BAD_RESERVED is judged first. -/
def hdrCheck (op : TOp) (h : W64) : Nat :=
  let bad := bitsW h 7 1 ≠ 0
  match op with
  | .msg =>
    if bad ∨ bitsW h 32 32 ≠ 0 then Code.badReserved
    else if hdrLen h ≠ 1 then Code.badOpcode else Code.ok
  | _ =>
    if bad ∨ hdrAddr h % 8 ≠ 0 then Code.badReserved
    else if 64 < hdrAddr h % 64 + 8 * hdrLen h ∨ ((op = .add ∨ op = .swap) ∧ hdrLen h ≠ 1) then Code.badOpcode
    else Code.ok

/-- A response's words (R212). -/
def rspWords (r : Rsp) : List W64 :=
  BitVec.ofNat 64 (r.status % 2 ^ 16 + r.tag % 2 ^ 8 * 2 ^ 16 + (r.data.length - 1) % 8 * 2 ^ 24
    + b2n r.hasData * 2 ^ 27) :: (if r.hasData then r.data else [])

end Sys2Proof.Machine
end

