-- ==== Sys2Proof/Machine/WtuCore.lean ====
section
/-! DEFINITION. Translation: the device-physical map, table entries, the caches, walks and invalidation, and the record
of a translation fault (11_translation_and_protection R459 to R472, R486, R487). -/

namespace Sys2Proof.Machine

/-! ### The device-physical map (R463) -/

/-- What a device-physical address reaches. -/
inductive Target where
  | bank (b word : Nat)
  | imem (n off : Nat)
  | dmem (n off : Nat)
  | queue (q off : Nat)
  | fabric (sec off : Nat)
  | nothing
  deriving DecidableEq, Repr

/-- The target of a device-physical address (R463, R33). The reserved part of an engine's 128 KiB is no target (log
entry 9). -/
def targetOf (a : Nat) : Target :=
  if a < 0x500000 then .bank (a / 0x1000) (a % 0x1000 / 8)
  else if 0x800000 ≤ a ∧ a < 0x1400000 then
    let n := (a - 0x800000) / 0x20000
    let o := (a - 0x800000) % 0x20000
    if o < 0x8000 then .imem n o else if 0x10000 ≤ o then .dmem n (o - 0x10000) else .nothing
  else if 0x2000000 ≤ a ∧ a < 0x200A000 then .queue ((a - 0x2000000) / 0x100) (a % 0x100)
  else if 0x3000000 ≤ a ∧ a < 0x3500000 then .fabric ((a - 0x3000000) / 0x10000) (a % 0x10000)
  else .nothing

/-- The spine port a target lies behind (R208). -/
def targetPort : Target → Nat
  | .bank b _ => 80 + b / 128
  | .imem n _ => 90 + n / 8
  | .dmem n _ => 90 + n / 8
  | .queue q _ => 80 + q / 16
  | .fabric sec _ => sec
  | .nothing => 0

/-! ### Table entries (R460 to R462) -/

/-- The address bits below a level's index. -/
def levelShift : Nat → Nat
  | 3 => 39 | 2 => 30 | 1 => 21 | _ => 12

/-- A level's index of an address. -/
def levelIndex (level va : Nat) : Nat := va / 2 ^ levelShift level % 512

/-- What a level's entry gives: a fault, the next table, or a leaf of a page of 2^size bytes. -/
inductive Step3 where
  | fault (code : Nat)
  | table (addr : Nat) (dev : Bool)
  | leaf (size frame : Nat) (r w u dev : Bool)
  deriving DecidableEq, Repr

/-- A valid entry judged as a leaf of a page of 2^size bytes. -/
def leafOf (e : W64) (size : Nat) : Step3 :=
  let frame := bitsW e 12 40 * 4096
  if frame % 2 ^ size ≠ 0 then .fault Code.tblReserved
  else .leaf size frame (bitOf e.toNat 2) (bitOf e.toNat 3) (bitOf e.toNat 4) (bitOf e.toNat 5)

/-- An entry of a level above L0. -/
def upperEntry (level : Nat) (e : W64) : Step3 :=
  if !bitOf e.toNat 0 then .fault Code.notMapped
  else if bitsW e 6 6 ≠ 0 ∨ bitsW e 52 12 ≠ 0 then .fault Code.tblReserved
  else if bitOf e.toNat 1 then
    if level = 3 then .fault Code.tblReserved else leafOf e (levelShift level)
  else if bitsW e 2 3 ≠ 0 then .fault Code.tblReserved
  else
    let a := bitsW e 12 40 * 4096
    if bitOf e.toNat 5 ∧ 0x500000 ≤ a then .fault Code.noTarget else .table a (bitOf e.toNat 5)

/-- The L0 entries of an address: the first of its aligned group of 16, and its own. The first decides if it is valid
and has SZ64 set; otherwise the address's own entry decides, its SZ64 bit ignored (R462). -/
def lowestEntry (first own : W64) : Step3 :=
  let judge (e : W64) (size : Nat) : Step3 :=
    if !bitOf e.toNat 0 then .fault Code.notMapped
    else if bitsW e 7 5 ≠ 0 ∨ bitsW e 52 12 ≠ 0 ∨ !bitOf e.toNat 1 then .fault Code.tblReserved
    else leafOf e size
  if bitOf first.toNat 0 && bitOf first.toNat 6 then judge first 16 else judge own 12

/-! ### Translation (R466, R468) -/

/-- What translating an access gives. -/
inductive Xl where
  | ok (space : Space) (addr : Nat)
  | miss
  | fault (code : Nat)
  deriving DecidableEq, Repr

/-- The checks on a leaf (R466, points 4 to 6), at privilege `priv` (0 User). -/
def leafXl (base frame : Nat) (r w u dev : Bool) (priv : Nat) (op : TOp) (va : Nat) : Xl :=
  let a := frame + (va - base)
  let atomic := op == .add || op == .swap
  if priv = 0 ∧ !u then .fault Code.permUser
  else if (op = .read ∨ atomic) ∧ !r then .fault Code.permRead
  else if op ≠ .read ∧ !w then .fault Code.permWrite
  else if dev then
    if targetOf a = .nothing then .fault Code.noTarget else .ok .dev a
  else if atomic then .fault Code.hostAtomic
  else .ok .host a

/-- Does a cached leaf hold the page of an address? -/
def Tlb.holds (e : Tlb) (asid va : Nat) : Bool := e.asid == asid && e.base ≤ va && va < e.base + 2 ^ e.size

/-- An access translated through the caches of its path, in R466's order. -/
def State.translate (s : State) (caches : List Nat) (asid priv : Nat) (op : TOp) (va : Nat) : Xl :=
  if 2 ^ 48 ≤ va then .fault Code.addrRange
  else if !s.flag Fld.wtuSpaceEn asid then .fault Code.spaceOff
  else match s.wtu.cache.find? fun e => caches.contains e.cache && e.holds asid va with
    | none => .miss
    | some e => leafXl e.base e.frame e.r e.w e.u e.dev priv op va

/-- The caches on an engine's path, a mover's and a sector's (R468). -/
def engineCaches (n : Nat) : List Nat := [n, 96 + n / 8]
def moverCaches (m : Nat) : List Nat := [108 + m / 16]
def fabricCaches (sec : Nat) : List Nat := [110 + sec / 8]

/-- The entries a cache holds at most (R468). -/
def cacheSize (c : Nat) : Nat := if c < 96 then 64 else if c < 108 then 1024 else if c < 110 then 512 else 256

/-- A translation fault recorded: WTU_FLOG keeps the first since VALID was cleared (R486), FAULTS counts, and the
notice of its code is raised under NOTE_EN. -/
def State.xlFault (s : State) (code asid va master priv : Nat) (write : Bool) : State :=
  let s := if s.flag Fld.wtuFlogValid then s.setFlag Fld.wtuFlogMulti true
    else
      let s := s.setReg Reg.wtuFlog (BitVec.ofNat 64 (code % 2 ^ 16 + asid % 2 ^ 8 * 2 ^ 16 + master % 2 ^ 8 * 2 ^ 32
        + priv % 4 * 2 ^ 40 + b2n write * 2 ^ 42 + 2 ^ 63))
      s.setReg Reg.wtuFlogVa (BitVec.ofNat 64 (va % 2 ^ 48 + if code = Code.addrRange then va / 2 ^ 48 * 2 ^ 48 else 0))
  let s := s.bump Fld.wtuCntFaults
  s.noticeIf (s.flag Fld.wtuGctlNoteEn) code master

/-! ### Walks (R467) -/

/-- A walk begun at the root of the access's space, or queued behind 16 others; WALKS counts those that begin. -/
def State.startWalk (s : State) (who : WalkFor) (caches : List Nat) (master asid priv : Nat) (write : Bool)
    (va : Nat) : State :=
  let s := if s.wtu.walks.length < 16 then s.bump Fld.wtuCntWalks else s
  { s with wtu := { s.wtu with walks := s.wtu.walks ++
      [⟨who, caches, master, asid, priv, write, va, 3, s.fld Fld.wtuSpaceRoot asid * 4096, s.flag Fld.wtuSpaceDev asid,
        false, false⟩] } }

/-- Walk k taken off the list; the seventeenth, if any, begins. -/
def State.endWalk (s : State) (k : Nat) : State :=
  let s := if 16 < s.wtu.walks.length then s.bump Fld.wtuCntWalks else s
  { s with wtu := { s.wtu with walks := dropAt s.wtu.walks k } }

/-- A walk's next level (R467). -/
def State.walkOn (s : State) (k : Nat) (x : Walk) (table : Nat) (dev : Bool) : State :=
  { s with wtu := { s.wtu with walks := setAt s.wtu.walks k { x with level := x.level - 1, table := table, dev := dev } } }

/-- A leaf put into one cache: over its size, an entry gives way, and the spec does not say which. -/
def putLeaf (s : State) (e : Tlb) : State :=
  let mine := s.wtu.cache.filter fun x => x.cache == e.cache
  if mine.length < cacheSize e.cache then { s with wtu := { s.wtu with cache := s.wtu.cache ++ [e] } }
  else
    let gone := mine.getD (s.freeNat % mine.length) e
    { s.tookFree with wtu := { s.wtu with cache := s.wtu.cache.filter (fun x => x != gone) ++ [e] } }

/-- Does a running invalidation select a page of a space? (R470) -/
def State.invSelects (s : State) (asid base size : Nat) : Bool :=
  match s.fld Fld.wtuInvMode with
  | 0 =>
    let va := s.fld Fld.wtuInvVaVa * 4096
    asid == s.fld Fld.wtuInvAsid && base ≤ va && va < base + 2 ^ size
  | 1 => asid == s.fld Fld.wtuInvAsid
  | _ => true

/-- The leaf a walk found, put into the caches of its path unless an invalidation selects it (R469, R470). -/
def State.keepLeaf (s : State) (x : Walk) (size frame : Nat) (r w u dev : Bool) : State :=
  let base := x.va / 2 ^ size * 2 ^ size
  if x.noKeep || (x.atGo && s.invSelects x.asid base size) then s
  else x.caches.foldl (fun s c => putLeaf s ⟨c, x.asid, base, size, frame, r, w, u, dev⟩) s

/-! ### Invalidation (R470, R471) -/

/-- Every selected entry removed from every cache; accesses already translated with one are marked. -/
def State.dropLeaves (s : State) (sel : Tlb → Bool) (mark : Bool) : State :=
  let gone := s.wtu.cache.filter sel
  { s with
    wtu := { s.wtu with cache := s.wtu.cache.filter fun e => !sel e }
    trans := if mark then s.trans.map fun t =>
        if t.space ≠ .virt ∧ t.op ≠ .msg ∧ gone.any (fun e => e.holds t.asid t.va) then { t with marked := true } else t
      else s.trans }

/-- GO (R470): selected entries go, and the walks under way are waited for. -/
def State.invalidate (s : State) : State :=
  let s := s.dropLeaves (fun e => s.invSelects e.asid e.base e.size) true
  { s with wtu := { s.wtu with walks := s.wtu.walks.map fun x => { x with atGo := true } } }

/-- The invalidation a write of WTU_SPACE[a] acts as (R471). -/
def State.invalidateSpace (s : State) (a : Nat) : State :=
  let s := s.dropLeaves (fun e => e.asid == a) false
  { s with wtu := { s.wtu with walks := s.wtu.walks.map fun x => if x.asid = a then { x with noKeep := true } else x } }

end Sys2Proof.Machine
end

