-- ==== Sys2Proof/Machine/Banks.lean ====
section
/-! DEFINITION. Memory banks: words and parity, ownership and its handover, the operations from every side, the local
ports, host accesses through BAR2, and retention (06_memory_and_queues R236 to R257, R274 to R280). -/

namespace Sys2Proof.Machine

/-! ### Words and parity -/

/-- The BAR2 offset of word w of bank b. -/
def bankAddr (b w : Nat) : Nat := bankBase b + 8 * w

/-- The failing bytes of a bank word, one bit for each (R244). -/
def State.badBytes (s : State) (b w : Nat) : Nat :=
  (upFrom 0 8).foldl (fun m k => m + b2n (Tab.get false s.parity (bankAddr b w + k)) * 2 ^ k) 0

/-- A bad word read: counted, recorded, and its notice raised (R247, R278). -/
def recordBad (b w side bytes : Nat) (s : State) : State :=
  let s := s.bump Fld.bnkCntPerr b
  let s := if s.flag Fld.bnkPerrValid then s.setFlag Fld.bnkPerrMulti true
    else s.setReg Reg.bnkPerr (BitVec.ofNat 64 (w % 512 + b % 2 ^ 11 * 2 ^ 9 + bytes % 256 * 2 ^ 20
      + side % 4 * 2 ^ 28 + 2 ^ 31))
  s.noticeIf (s.flag Fld.bnkGctlNoteEn) Code.poisoned b

/-- A word read with its parity checked: the word, and whether it is bad (R244). -/
def bankRead (b w side : Nat) (s : State) : State × W64 × Bool :=
  let bad := s.badBytes b w
  (if bad = 0 then s else recordBad b w side bad s, s.memWord (bankAddr b w), bad != 0)

/-- Words w to w + k − 1 read in order: the words, and whether any is bad. -/
def bankReads (b side : Nat) : Nat → Nat → State → State × List W64 × Bool
  | _, 0, s => (s, [], false)
  | w, k + 1, s =>
    let (s, v, bad) := bankRead b w side s
    let (s, vs, bads) := bankReads b side (w + 1) k s
    (s, v :: vs, bad || bads)

/-- The bytes a mask enables written with fresh parity; a parity test inverts byte 0's if byte 0 is written (R240,
R247). -/
def bankWriteBytes (b w : Nat) (v : W64) (mask : Nat) (s : State) : State :=
  let one (s : State) (k : Nat) : State :=
    if bitOf mask k then
      { s with mem := setByte s.mem (bankAddr b w + k) (BitVec.ofNat 8 (bitsW v (8 * k) 8)),
               parity := Tab.set false s.parity (bankAddr b w + k) false }
    else s
  let s := (upFrom 0 8).foldl one s
  if s.flag Fld.bnkCtlPinj b && bitOf mask 0 then
    { s.setFlag Fld.bnkCtlPinj false b with parity := Tab.set false s.parity (bankAddr b w) true }
  else s

/-- A whole word written. -/
def bankWrite (b w : Nat) (v : W64) (s : State) : State := bankWriteBytes b w v 255 s

/-- Consecutive words written (R242). -/
def bankWrites (b : Nat) : Nat → List W64 → State → State
  | _, [], s => s
  | w, v :: vs, s => bankWrites b (w + 1) vs (bankWrite b w v s)

/-! ### Accesses (R238 to R250) -/

/-- Is a party the bank's owner? FABRIC stands for the fabric of FAB_SECTOR alone (R248). -/
def State.bankOwned (s : State) (b owner sector : Nat) : Bool :=
  s.fld Fld.bnkOwnOwner b == owner && (owner != 2 || s.fld Fld.bnkOwnFabSector b == sector)

/-- An access as a bank takes it: its side (0 LOCAL, 1 FAR), the owner code it is made under with the fabric's sector,
the operation, the first word, the words of a READ, and the data. -/
structure BankAcc where
  side   : Nat
  owner  : Nat
  sector : Nat
  op     : TOp
  word   : Nat
  len    : Nat
  data   : List W64
  deriving DecidableEq, Repr

/-- What a target answers an access with: it must wait, or the status and the data delivered. -/
inductive Ans where
  | wait
  | done (status : Nat) (data : Option (List W64))
  deriving DecidableEq, Repr

/-- A posted WRITE discarded at a bank (R238, R248, R255). -/
def bankDropped (b : Nat) (op : TOp) (s : State) : State :=
  if op = .write then s.bump Fld.bnkCntDropped b else s

/-- The operation itself on a bank that serves it (R240, R245, R246). -/
def bankPerform (b : Nat) (a : BankAcc) (s : State) : State × Ans :=
  match a.op with
  | .read =>
    let (s, vs, bad) := bankReads b a.side a.word a.len s
    (s, .done (if bad then Code.poisoned else Code.ok) (some vs))
  | .add =>
    let (s, v, bad) := bankRead b a.word a.side s
    if bad then (s, .done Code.atomicPoisoned (some [v]))
    else (bankWrite b a.word (v + wordAt a.data 0) s, .done Code.ok (some [v]))
  | .swap =>
    let (s, v, bad) := bankRead b a.word a.side s
    (bankWrite b a.word (wordAt a.data 0) s, .done (if bad then Code.poisoned else Code.ok) (some [v]))
  | .msg => (s, .done Code.badOpcode none)
  | _ => (bankWrites b a.word a.data s, .done Code.ok none)

/-- Is a bank being loaded? (R512, R530) -/
def State.bankLoading (s : State) (b : Nat) : Bool := s.ldr.allBanks || s.ldr.banks.contains b

/-- A bank takes an access from its LOCAL or FAR side: ownership first (R248, R466), a new owner's write waiting while
the bank drains (R249), then the bank's own refusals (R238, R255). -/
def bankTake (b : Nat) (a : BankAcc) (s : State) : State × Ans :=
  if a.op ≠ .read ∧ !s.bankOwned b a.owner a.sector then
    (bankDropped b a.op (s.deny Code.notOwner a.owner 1 b), .done Code.notOwner none)
  else if a.op ≠ .read ∧ s.flag Fld.bnkStatDraining b then (s, .wait)
  else if s.bankLoading b then (bankDropped b a.op s, .done Code.cfgLoading none)
  else if s.flag Fld.bnkStatQbound b then (bankDropped b a.op s, .done Code.queueBound none)
  else if s.hea.moving.contains b then (s, .wait)
  else if s.fld Fld.bnkStatPstate b ≠ 0 then (bankDropped b a.op s, .done Code.bnkAsleep none)
  else bankPerform b a s

/-- Contests a master lost at banks (R254). -/
def lostContests (m k : Nat) (s : State) : State := if k = 0 then s else s.bump Fld.bnkConfLosses m 0 k

/-! ### Local ports (R239) -/

/-- What a local port answers a header of an operation with; OK if nothing is wrong. -/
def localCheck (op : TOp) (h : W64) : Nat :=
  if bitsW h 7 1 ≠ 0 ∨ bitsW h 25 39 ≠ 0 then Code.badReserved
  else if op = .msg ∨ 8 < bitsW h 16 9 % 8 + hdrLen h ∨ ((op = .add ∨ op = .swap) ∧ hdrLen h ≠ 1) then Code.badOpcode
  else Code.ok

/-- A response presented on the local port of a bank (R239, R212). -/
def localAnswer (b : Nat) (op : TOp) (tag status : Nat) (data : Option (List W64)) (s : State) : State :=
  if op.answered then
    let ws := rspWords ⟨106 + b, tag, status, data.isSome, data.getD [], .none⟩
    { s with spine := { s.spine with out := Tab.set [] s.spine.out (106 + b) ws } }
  else s

/-- A request on the local port of bank b under the header `h`, with the contests it lost. Under the write hold, what
would write waits (R188). A word channel carries whole transactions, so one with the wrong number of data words is no
request yet (R215). -/
def localPort (b : Nat) (op : TOp) (h : W64) (data : List W64) (lost : Nat) (s : State) : State :=
  let sec := b / 16
  let known := 1 ≤ hdrOp h ∧ hdrOp h ≤ 5
  if known ∧ hdrOp h ≠ opCode op then s
  else if !known then localAnswer b .read (hdrTag h) Code.badOpcode none s
  else if data.length ≠ opWords op (hdrLen h) then s
  else if s.frozen sec || (op.writes && s.flag Fld.stwSecHoldWrHeld sec) then s
  else
    let code := localCheck op h
    if code ≠ Code.ok then localAnswer b op (hdrTag h) code none s
    else match bankTake b ⟨0, 2, sec, op, bitsW h 16 9, hdrLen h, data⟩ s with
      | (_, .wait) => s
      | (s, .done status d) => localAnswer b op (hdrTag h) status d (lostContests sec lost s)

/-- BANK_ACCESS_READ (R240): a READ on a bank's local port. -/
def execBankAccessRead (b : Fin 1280) (hd : W64) (lost : Fin 4) (s : State) : Out :=
  .next (localPort b.val .read hd [] lost.val s)

/-- BANK_ACCESS_WRITE (R240): a WRITE or WRITE_ACK on a bank's local port. -/
def execBankAccessWrite (b : Fin 1280) (ack : Bool) (hd : W64) (data : List W64) (lost : Fin 4) (s : State) : Out :=
  .next (localPort b.val (if ack then .writeAck else .write) hd data lost.val s)

/-- BANK_ACCESS_ADD (R242). -/
def execBankAccessAdd (b : Fin 1280) (hd v : W64) (lost : Fin 4) (s : State) : Out :=
  .next (localPort b.val .add hd [v] lost.val s)

/-- BANK_ACCESS_SWAP (R246). -/
def execBankAccessSwap (b : Fin 1280) (hd v : W64) (lost : Fin 4) (s : State) : Out :=
  .next (localPort b.val .swap hd [v] lost.val s)

/-! ### Host accesses through BAR2 (R33 to R35, R240, R255, R330) -/

/-- A word of an engine memory read: a single-bit error is corrected and counted, a double-bit one counted (R328). The
flag says that the word is uncorrectable. -/
def engRead (n a : Nat) (s : State) : State × W64 × Bool :=
  match Tab.get 0 s.ecc a with
  | 0 => (s, s.memWord a, false)
  | 1 => ({ s.bump Fld.engCntEccCorr n with ecc := Tab.set 0 s.ecc a 0 }, s.memWord a, false)
  | _ => (s.bump Fld.engCntEccUncorr n, s.memWord a, true)

/-- Bytes of a word of an engine memory written under the check bits: a whole word is fresh (R328, R330). -/
def engWrite (a : Nat) (v : W64) (mask : Nat) (s : State) : State :=
  let one (m : List Host.Cell) (k : Nat) : List Host.Cell :=
    if bitOf mask k then setByte m (a + k) (BitVec.ofNat 8 (bitsW v (8 * k) 8)) else m
  { s with mem := (upFrom 0 8).foldl one s.mem, ecc := if mask = 255 then Tab.set 0 s.ecc a 0 else s.ecc }

/-- An IMEM write while the engine is not OFF: refused with IMEM_BUSY, recorded and counted (R330). -/
def imemBusy (n : Nat) (s : State) : State := (s.refuse Reg.engRefuse Code.imemBusy 0 n).accessError

/-- A host read of the word at a BAR2 offset: the state and the word (R34, R35, R255, R512). A read that a bound bank answers
with QUEUE_BOUND delivers no data, and the word the host sees is free (log entry 10). -/
def hostRead (off : Nat) (s : State) : State × W64 :=
  match targetOf off with
  | .bank b w =>
    if s.fld Fld.bnkStatPstate b ≠ 0 ∨ s.bankLoading b then (s.accessError, 0)
    else if s.flag Fld.bnkStatQbound b then (s.tookFree, s.freeWord)
    else let (s, v, _) := bankRead b w 1 s; (s, v)
  | .imem n o => let (s, v, _) := engRead n (imemBase n + o) s; (s, v)
  | .dmem n o => let (s, v, _) := engRead n (dmemBase n + o) s; (s, v)
  | _ => (s, 0)

/-- A host write of the bytes a mask enables at a BAR2 offset, under owner code `owner` (R34, R35, R240). -/
def hostWrite (off : Nat) (v : W64) (mask owner : Nat) (s : State) : State :=
  match targetOf off with
  | .bank b w =>
    if s.fld Fld.bnkStatPstate b ≠ 0 ∨ s.bankLoading b then s.accessError
    else if !s.bankOwned b owner 80 then s.deny Code.notOwner owner 1 b
    else if s.flag Fld.bnkStatDraining b || s.flag Fld.bnkStatQbound b then s
    else bankWriteBytes b w v mask s
  | .imem n o => if s.fld Fld.engStatState n ≠ 0 then imemBusy n s else engWrite (imemBase n + o) v mask s
  | .dmem n o => engWrite (dmemBase n + o) v mask s
  | _ => s.accessError

/-- HOST_BAR2_READ (R35): the word the host reads is in `readData`; on a link at NONE the read is refused and returns 0
(R452). -/
def execHostBar2Read (w : Writer) (word : BitVec 22) (lost : Fin 4) (s : State) : Out :=
  .next (if s.priv w = 0 then
      let s := s.denyLink w
      { s with sys := { s.sys with readData := 0 } }
    else
      let (s, v) := hostRead (8 * word.toNat) (lostContests 208 lost.val s)
      { s with sys := { s.sys with readData := v } })

/-- HOST_BAR2_WRITE (R35): a write of the bytes `mask` enables. -/
def execHostBar2Write (w : Writer) (word : BitVec 22) (v : W64) (mask : Byte) (lost : Fin 4) (s : State) : Out :=
  .next (if s.priv w = 0 then s.denyLink w
    else hostWrite (8 * word.toNat) v mask.toNat (s.ownerCode w) (lostContests 208 lost.val s))

/-! ### Ownership (R248 to R251, R275) -/

/-- A write of BNK_OWN[n]: Warden only, an owner code of R454's, a sector below 80 (R458, R275); a change starts a
handover (R249, R251). -/
def bankOwn (b owner sector : Nat) (w : Writer) (s : State) : State :=
  s.wardenOr w (Reg.bnkOwn.addr b 0) fun s =>
    if 79 < sector then s.accessError
    else if !ownerValid owner then (s.deny Code.ownerBad (s.ownerCode w) 1 b).refuseBank Code.ownerBad b 0
    else if s.fld Fld.bnkOwnOwner b = owner ∧ s.fld Fld.bnkOwnFabSector b = sector then s
    else ((s.setFld Fld.bnkOwnOwner owner b).setFld Fld.bnkOwnFabSector sector b).setFlag Fld.bnkStatDraining true b

/-- BANK_OWN_WRITE (R249). -/
def execBankOwnWrite (w : Writer) (b : Fin 1280) (v : W32) (s : State) : Out :=
  .next (s.linked w (Reg.bnkOwn.addr b.val 0) (bankOwn b.val (bitsW v 0 8) (bitsW v 8 7) w))

/-- BANK_DRAIN_DONE (R249, R271): DRAINING clears and the new owner is admitted. -/
def execBankDrainDone (b : Fin 1280) (s : State) : Out := .next (s.setFlag Fld.bnkStatDraining false b.val)

/-! ### Retention (R255, R256) -/

/-- RET = 1 (R255, R256). -/
def bankSleep (b : Nat) (s : State) : State :=
  if s.flag Fld.bnkCtlRet b then s
  else if s.flag Fld.bnkStatQbound b then s.refuseBank Code.queueBound b 0
  else
    let s := s.setFlag Fld.bnkCtlRet true b
    match s.fld Fld.bnkStatPstate b with
    | 0 => s.setFld Fld.bnkStatPstate 1 b
    | 3 => s.setFlag Fld.bnkStatSleepPend true b
    | 4 => s.setFld Fld.bnkStatPstate 1 b
    | _ => s

/-- RET = 0 (R255, R256). -/
def bankWake (b : Nat) (s : State) : State :=
  if !s.flag Fld.bnkCtlRet b then s
  else
    let s := s.setFlag Fld.bnkCtlRet false b
    match s.fld Fld.bnkStatPstate b with
    | 1 => s.setFld Fld.bnkStatPstate 4 b
    | 2 => s.setFld Fld.bnkStatPstate 3 b
    | 3 => s.setFlag Fld.bnkStatSleepPend false b
    | _ => s

/-- BANK_RETENTION_REQUEST (R255). -/
def execBankRetentionRequest (w : Writer) (b : Fin 1280) (s : State) : Out :=
  .next (s.linked w (Reg.bnkCtl.addr b.val 0) (bankSleep b.val))

/-- BANK_WAKE_REQUEST (R255). -/
def execBankWakeRequest (w : Writer) (b : Fin 1280) (s : State) : Out :=
  .next (s.linked w (Reg.bnkCtl.addr b.val 0) (bankWake b.val))

/-- BANK_ENTRY_DONE (R255, R256): an entry waits for a handover's drain. -/
def bankEntered (b : Nat) (s : State) : State :=
  if s.flag Fld.bnkStatDraining b then s
  else match s.fld Fld.bnkStatPstate b with
    | 1 => s.setFld Fld.bnkStatPstate 2 b
    | 4 => s.setFld Fld.bnkStatPstate 3 b
    | _ => s

def execBankEntryDone (b : Fin 1280) (s : State) : Out := .next (bankEntered b.val s)

/-- BANK_WAKE_DONE (R255, R256): a latched entry then begins. -/
def bankWoken (b : Nat) (s : State) : State :=
  if s.fld Fld.bnkStatPstate b ≠ 3 then s
  else if s.flag Fld.bnkStatSleepPend b then
    (s.setFlag Fld.bnkStatSleepPend false b).setFld Fld.bnkStatPstate 1 b
  else s.setFld Fld.bnkStatPstate 0 b

def execBankWakeDone (b : Fin 1280) (s : State) : Out := .next (bankWoken b.val s)

/-- A write of PINJ = 1 by the Warden (R247). -/
def parityInject (b : Nat) (w : Writer) (s : State) : State :=
  s.wardenOr w (Reg.bnkCtl.addr b 0) (·.setFlag Fld.bnkCtlPinj true b)

/-- PARITY_INJECT (R247). -/
def execParityInject (w : Writer) (b : Fin 1280) (s : State) : Out :=
  .next (s.linked w (Reg.bnkCtl.addr b.val 0) (parityInject b.val w))

/-- BNK_CNT[n] set to 0 (R276). -/
def bankCntClr (b : Nat) (s : State) : State := s.setReg Reg.bnkCnt 0 b

/-- BANK_CNT_CLR (R276). -/
def execBankCntClr (w : Writer) (b : Fin 1280) (s : State) : Out :=
  .next (s.linked w (Reg.bnkCtl.addr b.val 0) (bankCntClr b.val))

/-- Every BNK_CONF set to 0 (R280). -/
def confClr (s : State) : State := (upFrom 0 209).foldl (fun s m => s.setReg Reg.bnkConf 0 m) s

/-- CONF_CLR (R280). -/
def execConfClr (w : Writer) (s : State) : Out := .next (s.linked w Reg.bnkGctl.base confClr)

end Sys2Proof.Machine
end

