-- ==== Sys2Proof/Machine/Queues.lean ====
section
/-! DEFINITION. Queue controllers: the ping-pong pair, pushes and pops at the fabric channels and the window, watermarks,
flushes, and their control (06_memory_and_queues R258 to R273, R281 to R285). -/

namespace Sys2Proof.Machine

/-- The hidden part of a queue controller. -/
def State.que (s : State) (q : Nat) : Que := Tab.get {} s.ques q

/-- The hidden part of a queue controller set. -/
def State.setQue (s : State) (q : Nat) (x : Que) : State := { s with ques := Tab.set {} s.ques q x }

/-- The sector of queue q, and the lower bank of its pair (R258). -/
def queSector (q : Nat) : Nat := q / 2
def queBank (q : Nat) : Nat := 16 * (q / 2) + 12 + 2 * (q % 2)

/-- Is the higher bank of the pair the filling one? -/
def State.upFills (s : State) (q : Nat) : Bool := s.flag Fld.queStatFilling q

/-- The words held in the filling and in the draining bank. -/
def State.fillEnds (s : State) (q : Nat) : List Bool := if s.upFills q then (s.que q).ends1 else (s.que q).ends0
def State.drainEnds (s : State) (q : Nat) : List Bool := if s.upFills q then (s.que q).ends0 else (s.que q).ends1

/-- An empty draining bank and a filling bank with a word exchange roles (R259); the bank that fills next is filled
from its first word on (log entry 11). -/
def queExchange (q : Nat) (s : State) : State :=
  if s.drainEnds q = [] ∧ s.fillEnds q ≠ [] then
    let x := s.que q
    let s := s.setQue q (if s.upFills q then { x with ends0 := [], at0 := 0 } else { x with ends1 := [], at1 := 0 })
    s.setFlag Fld.queStatFilling (!s.upFills q) q
  else s

/-- FILL, EMPTY and FULL as the two banks stand (R259, R263). -/
def queShow (q : Nat) (s : State) : State :=
  let k := (s.fillEnds q).length + (s.drainEnds q).length
  let s := (s.setFld Fld.queStatFill k q).setFlag Fld.queStatEmpty (k == 0) q
  s.setFlag Fld.queStatFull ((s.fillEnds q).length == 512 && (s.drainEnds q).length != 0) q

/-- XOFF judged when a push raised FILL (R267). -/
def xoffUp (q : Nat) (s : State) : State :=
  let high := s.fld Fld.queWmHigh q
  if high ≠ 0 ∧ high ≤ s.fld Fld.queStatFill q ∧ !s.flag Fld.queStatXoff q then
    (s.setFlag Fld.queStatXoff true q).noticeIf (s.flag Fld.queCfgNoteEn q) Code.queHigh q
  else s

/-- XOFF judged when a pop or flush lowered FILL (R267). -/
def xoffDown (q : Nat) (s : State) : State :=
  if s.fld Fld.queStatFill q ≤ s.fld Fld.queWmLow q ∧ s.flag Fld.queStatXoff q then
    (s.setFlag Fld.queStatXoff false q).noticeIf (s.flag Fld.queCfgNoteEn q) Code.queLow q
  else s

/-- Room for more words, the draining bank being empty only when both are (R259, R262). -/
def State.queRoom (s : State) (q : Nat) : Nat := 512 - (s.fillEnds q).length

/-- Is the queue RUN? -/
def State.queRuns (s : State) (q : Nat) : Bool := s.fld Fld.queStatState q == 1

/-- One word enters the queue, or is discarded as the rest of a cut item (R265, R266). There is room. -/
def queEnter (q : Nat) (v : W64) (e : Bool) (s : State) : State :=
  let e := e || !s.flag Fld.queCfgItems q
  if s.flag Fld.queStatCutPend q then
    (s.bump Fld.queCntDropped q).setFlag Fld.queStatCutPend (!e) q
  else
    let x := { s.que q with inItem := !e }
    let up := s.upFills q
    let b := queBank q + b2n up
    let w := if up then x.at1 + x.ends1.length else x.at0 + x.ends0.length
    let s := bankWrite b w v s
    let s := s.setQue q (if up then { x with ends1 := x.ends1 ++ [e] } else { x with ends0 := x.ends0 ++ [e] })
    xoffUp q (queShow q (queExchange q s))

/-- Words entered together: the last carries the END given, the others none (R262). -/
def queEnterAll (q : Nat) (e : Bool) : List W64 → State → State
  | [], s => s
  | [v], s => queEnter q v e s
  | v :: vs, s => queEnterAll q e vs (queEnter q v false s)

/-- What a pop delivers: the word and its END, POISON, CUT and UNDER marks. -/
structure Popped where
  data   : W64
  last   : Bool
  poison : Bool
  cut    : Bool
  under  : Bool
  deriving DecidableEq, Repr

/-- The word QPOP_DATA carries (R261). -/
def Popped.word (p : Popped) : BitVec 68 :=
  BitVec.ofNat 68 (p.data.toNat + b2n p.last * 2 ^ 64 + b2n p.poison * 2 ^ 65 + b2n p.cut * 2 ^ 66 + b2n p.under * 2 ^ 67)

/-- A pop of an empty queue: the last value, marked UNDER (R263). END of such a word is not stated (log entry 12). -/
def queUnder (q : Nat) (s : State) : State × Popped :=
  let s := (s.setFlag Fld.queStatUnderrun true q).bump Fld.queCntUnderruns q
  let s := s.noticeIf (s.flag Fld.queCfgNoteEn q) Code.queUnderrun q
  (s.tookFree, ⟨s.reg Reg.queLast q, s.freeBit, false, false, true⟩)

/-- The oldest word leaves the draining bank (R259, R263, R266, R269). -/
def queLeave (q : Nat) (s : State) : State × Popped :=
  match s.drainEnds q with
  | [] => queUnder q s
  | e :: rest =>
    let x := s.que q
    let up := s.upFills q
    let b := queBank q + b2n (!up)
    let (s, v, bad) := bankRead b (if up then x.at0 else x.at1) 2 s
    let s := if bad then (s.bump Fld.queCntPoisoned q).setFlag Fld.queStatPoisoned true q else s
    let y := { x with cut := false, outItem := !e }
    let s := s.setQue q (if up then { y with ends0 := rest, at0 := x.at0 + 1 } else { y with ends1 := rest, at1 := x.at1 + 1 })
    let s := xoffDown q (queShow q (queExchange q (s.setReg Reg.queLast v q)))
    (s, ⟨v, e, bad, x.cut, false⟩)

/-- Is a bank of the queue's pair being copied to a spare? Its accesses wait (R601). -/
def State.queHeld (s : State) (q : Nat) : Bool := s.hea.moving.contains (queBank q) || s.hea.moving.contains (queBank q + 1)

/-- A word held on QPUSH enters once there is room (R264). -/
def queAdmit (q : Nat) (s : State) : State :=
  match (s.que q).held with
  | none => s
  | some (v, e) =>
    if s.queRuns q && !s.queHeld q && (s.flag Fld.queStatCutPend q || 0 < s.queRoom q) && !s.flag Fld.stwSecHoldWrHeld (queSector q) then
      queEnter q v e (s.setQue q { s.que q with held := none })
    else s

/-- A WAIT request is answered once a word is present (R263). -/
def queServe (q : Nat) (s : State) : State :=
  if (s.que q).waiting && s.queRuns q && !s.queHeld q && !s.flag Fld.queStatEmpty q then
    let (s, p) := queLeave q s
    s.setQue q { s.que q with waiting := false, out := some p.word }
  else s

/-- What a push or pop makes possible at the fabric channels: the held word, then the waiting request, each of which
may make room for the other. -/
def queSettle (q : Nat) (s : State) : State := queAdmit q (queServe q (queAdmit q s))

/-! ### Fabric channels (R261, R263, R264) -/

/-- QPUSH (R261): the word enters, or waits while the queue is full, not RUN, or under the write hold (R272, R273). A
channel of an end set to SPINE never acknowledges (R260), and one whose word waits carries no other. -/
def execQpush (q : Fin 160) (v : W64) (last : Bool) (s : State) : Out :=
  .next (if s.flag Fld.queCfgProdPort q.val || (s.que q.val).held.isSome || s.frozen (queSector q.val) then s
    else queSettle q.val (s.setQue q.val { s.que q.val with held := some (v, last) }))

/-- QPOP_WAIT (R263): answered now, or when a word arrives. -/
def execQpopWait (q : Fin 160) (s : State) : Out :=
  .next (if s.flag Fld.queCfgConsPort q.val || (s.que q.val).waiting || s.frozen (queSector q.val) then s
    else queSettle q.val (s.setQue q.val { s.que q.val with waiting := true }))

/-- QPOP_NOW (R263): answered at once; not taken while the queue is not RUN (R272). -/
def execQpopNow (q : Fin 160) (s : State) : Out :=
  .next (if s.flag Fld.queCfgConsPort q.val || (s.que q.val).waiting || !s.queRuns q.val || s.queHeld q.val
        || s.frozen (queSector q.val) then s
    else
      let (s, p) := queLeave q.val s
      queSettle q.val (s.setQue q.val { s.que q.val with out := some p.word }))

/-! ### The window (R260, R262, R263, R264, R272) -/

/-- A window push: PUSH or PUSH_END (R262, R264). -/
def windowPush (q owner : Nat) (last : Bool) (op : TOp) (data : List W64) (s : State) : State × Ans :=
  let drop (s : State) : State := if op = .write then s.bump Fld.queCntDropped q else s
  if !s.flag Fld.queCfgProdPort q then (drop s, .done Code.quePort none)
  else if s.fld Fld.queCfgProdOwner q ≠ owner then (drop (s.deny Code.notOwner owner 2 q), .done Code.notOwner none)
  else if s.fld Fld.queStatState q ≠ 1 then (drop s, .done Code.queOff none)
  else if s.flag Fld.stwSecHoldWrHeld (queSector q) || s.queHeld q then (s, .wait)
  else if s.queRoom q < data.length then
    if op = .write then
      ((s.bump Fld.queCntDropped q).setFlag Fld.queStatOverflow true q, .done Code.queFull none)
    else (s, .done Code.queFull none)
  else (queSettle q (queEnterAll q last data s), .done Code.ok none)

/-- The tag word of POP_TAGGED (R262). -/
def tagWord (p : Popped) (fill : Nat) : W64 :=
  BitVec.ofNat 64 (b2n p.last + b2n p.poison * 2 + b2n p.cut * 4 + b2n p.under * 8 + fill * 2 ^ 16)

/-- A window pop: POP or POP_TAGGED (R262, R263). A word that is bad or missing gives the response its status (R245,
R263). -/
def windowPop (q owner : Nat) (tagged : Bool) (s : State) : State × Ans :=
  if !s.flag Fld.queCfgConsPort q then (s, .done Code.quePort none)
  else if s.fld Fld.queCfgConsOwner q ≠ owner then (s.deny Code.notOwner owner 2 q, .done Code.notOwner none)
  else if s.fld Fld.queStatState q ≠ 1 then (s, .done Code.queOff none)
  else if s.queHeld q then (s, .wait)
  else
    let (s, p) := queLeave q s
    let code := if p.under then Code.queUnderrun else if p.poison then Code.poisoned else Code.ok
    (queSettle q s, .done code (some (if tagged then [p.data, tagWord p (s.fld Fld.queStatFill q)] else [p.data])))

/-- A window access at an offset (R262). -/
def windowTake (q owner off len : Nat) (op : TOp) (data : List W64) (s : State) : State × Ans :=
  let push := op = .write ∨ op = .writeAck
  if off = 0x00 ∧ push then windowPush q owner false op data s
  else if off = 0x40 ∧ push then windowPush q owner true op data s
  else if off = 0x80 ∧ op = .read ∧ len = 1 then windowPop q owner false s
  else if off = 0xC0 ∧ op = .read ∧ len = 2 then windowPop q owner true s
  else (s, .done Code.badOpcode none)

/-- A window access of the queue's own sector by its local path (R262, R238): FABRIC's code, answered on a port of its
own, 106 + 1280 + q. -/
def localWindow (q off : Nat) (op : TOp) (tag : Nat) (len : Nat) (data : List W64) (s : State) : State :=
  if s.frozen (queSector q) then s else
  match windowTake q 2 off len op data s with
  | (_, .wait) => s
  | (s, .done status d) =>
    let ws := rspWords ⟨1386 + q, tag, status, d.isSome, d.getD [], .none⟩
    if op.answered then { s with spine := { s.spine with out := Tab.set [] s.spine.out (1386 + q) ws } } else s

/-- QUE_PUSH (R262): a push at +0x00. -/
def execQuePush (q : Fin 160) (ack : Bool) (tag : Byte) (data : List W64) (s : State) : Out :=
  .next (if data = [] ∨ 8 < data.length then s
    else localWindow q.val 0x00 (if ack then .writeAck else .write) tag.toNat data.length data s)

/-- QUE_PUSH_END (R262): a push at +0x40. -/
def execQuePushEnd (q : Fin 160) (ack : Bool) (tag : Byte) (data : List W64) (s : State) : Out :=
  .next (if data = [] ∨ 8 < data.length then s
    else localWindow q.val 0x40 (if ack then .writeAck else .write) tag.toNat data.length data s)

/-- QUE_POP (R262). -/
def execQuePop (q : Fin 160) (tag : Byte) (s : State) : Out := .next (localWindow q.val 0x80 .read tag.toNat 1 [] s)

/-- QUE_POP_TAGGED (R262). -/
def execQuePopTagged (q : Fin 160) (tag : Byte) (s : State) : Out := .next (localWindow q.val 0xC0 .read tag.toNat 2 [] s)

/-! ### Flush, enable and disable (R266, R271 to R273) -/

/-- A flush of a running queue (R266): emptied, the cut item's rest to be discarded or marked. A WAIT request goes on
waiting; a word held on QPUSH then enters. -/
def queFlush (q : Nat) (s : State) : State :=
  if !s.queRuns q then s
  else
    let x := s.que q
    let s := s.setQue q { x with ends0 := [], at0 := 0, ends1 := [], at1 := 0, inItem := false, outItem := false,
                                 cut := x.cut || x.outItem }
    let s := if x.inItem then s.setFlag Fld.queStatCutPend true q else s
    let s := (queShow q s).bump Fld.queCntFlushes q
    queSettle q (xoffDown q s)

/-- QUE_FLUSH (R266). XOFF is 0 after a flush whatever LOW is, since FILL is 0. -/
def execQueFlush (w : Writer) (q : Fin 160) (s : State) : Out :=
  .next (s.linked w (Reg.queCtl.addr q.val 0) (queFlush q.val))

/-- EN = 1 of a queue that is OFF (R271): its banks must be ON; their accesses then drain, until QUE_ENABLE_DONE. -/
def queBegin (q : Nat) (s : State) : State :=
  let b := queBank q
  if s.fld Fld.bnkStatPstate b ≠ 0 ∨ s.fld Fld.bnkStatPstate (b + 1) ≠ 0 then s.refuseBank Code.bnkAsleep q 1
  else s.setFlag Fld.queCtlEn true q

/-- A write of QUE_CTL.EN = 1 (R271, R272). -/
def queEnable (q : Nat) (s : State) : State :=
  match s.fld Fld.queStatState q with
  | 0 => if s.flag Fld.queCtlEn q then s else queBegin q s
  | 2 => (s.setFlag Fld.queCtlEn true q).setFld Fld.queStatState 3 q
  | _ => s

/-- QUE_ENABLE (R271). -/
def execQueEnable (w : Writer) (q : Fin 160) (s : State) : Out :=
  .next (s.linked w (Reg.queCtl.addr q.val 0) (queEnable q.val))

/-- The banks bound, the queue RUN and empty with last value 0 (R271). -/
def queStart (q : Nat) (s : State) : State :=
  let b := queBank q
  let s := (s.setFlag Fld.bnkStatQbound true b).setFlag Fld.bnkStatQbound true (b + 1)
  let x := s.que q
  let s := s.setQue q { held := x.held, waiting := x.waiting, out := x.out }
  let s := (s.setReg Reg.queLast 0 q).setFld Fld.queStatState 1 q
  let s := (s.setFlag Fld.queStatXoff false q).setFlag Fld.queStatCutPend false q
  queSettle q (queShow q (s.setFlag Fld.queStatFilling false q))

/-- QUE_ENABLE_DONE (R271): the banks' accesses have drained. -/
def execQueEnableDone (q : Fin 160) (s : State) : Out :=
  .next (if s.fld Fld.queStatState q.val = 0 ∧ s.flag Fld.queCtlEn q.val then queStart q.val s else s)

/-- A write of QUE_CTL.EN = 0 (R272). One written before the drain of an enable has ended leaves the queue OFF. -/
def queDisable (q : Nat) (s : State) : State :=
  match s.fld Fld.queStatState q with
  | 1 => (s.setFlag Fld.queCtlEn false q).setFld Fld.queStatState 2 q
  | 3 => (s.setFlag Fld.queCtlEn false q).setFld Fld.queStatState 2 q
  | _ => s.setFlag Fld.queCtlEn false q

/-- QUE_DISABLE (R272). -/
def execQueDisable (w : Writer) (q : Fin 160) (s : State) : Out :=
  .next (s.linked w (Reg.queCtl.addr q.val 0) (queDisable q.val))

/-- QUE_STOP_DONE (R272): the contents are discarded, the banks released with the raw words last written, and a latched
enable then runs as from OFF. -/
def queStopped (q : Nat) (s : State) : State :=
  let st := s.fld Fld.queStatState q
  if st ≠ 2 ∧ st ≠ 3 then s
  else
    let b := queBank q
    let s := (s.setFlag Fld.bnkStatQbound false b).setFlag Fld.bnkStatQbound false (b + 1)
    let x := s.que q
    let s := s.setQue q { held := x.held, waiting := x.waiting, out := x.out }
    let s := (s.setFld Fld.queStatState 0 q).setFlag Fld.queStatXoff false q
    let s := queShow q ((s.setFlag Fld.queStatCutPend false q).setFlag Fld.queStatFilling false q)
    if st = 3 then queBegin q (s.setFlag Fld.queCtlEn false q) else s

def execQueStopDone (q : Fin 160) (s : State) : Out := .next (queStopped q.val s)

/-! ### Registers (R267, R281, R282) -/

/-- A write of QUE_WM[q] (R267): checked, then evaluated at once. -/
def queWmWrite (q : Nat) (v : W32) (s : State) : State :=
  let high := bitsW v 0 11
  let low := bitsW v 16 11
  if 1024 < high ∨ (high ≠ 0 ∧ high ≤ low) then s.refuseBank Code.queBadCfg q 1
  else
    let s := (s.setFld Fld.queWmHigh high q).setFld Fld.queWmLow low q
    if high = 0 then
      (s.setFlag Fld.queStatXoff false q).noticeIf (s.flag Fld.queStatXoff q && s.flag Fld.queCfgNoteEn q) Code.queLow q
    else if high ≤ s.fld Fld.queStatFill q then xoffUp q s
    else xoffDown q s

/-- QUE_WM_WRITE (R267). -/
def execQueWmWrite (w : Writer) (q : Fin 160) (v : W32) (s : State) : Out :=
  .next (s.linked w (Reg.queWm.addr q.val 0) (queWmWrite q.val v))

/-- A write of QUE_CFG[q] (R281, R458): owner codes first, then the lock. -/
def queCfgWrite (q : Nat) (v : W32) (w : Writer) (s : State) : State :=
  let old := s.reg Reg.queCfg q
  let locked (x : W64) : W64 := x &&& maskW 0 18 ||| x &&& maskW 20 1
  if !ownerValid (bitsW v 2 8) || !ownerValid (bitsW v 10 8) then
    (s.deny Code.ownerBad (s.ownerCode w) 2 q).refuseBank Code.ownerBad q 1
  else if s.fld Fld.queStatState q ≠ 0 ∧ locked old ≠ locked (v.setWidth 64) then s.refuseBank Code.queBusy q 1
  else s.setReg Reg.queCfg (Reg.queCfg.plain old (v.setWidth 64) false) q

/-- QUE_CFG_WRITE (R281). -/
def execQueCfgWrite (w : Writer) (q : Fin 160) (v : W32) (s : State) : Out :=
  .next (s.linked w (Reg.queCfg.addr q.val 0) (queCfgWrite q.val v w))

/-- QUE_CNT[q] set to 0 (R282). -/
def queCntClr (q : Nat) (s : State) : State := s.setReg Reg.queCnt 0 q

/-- QUE_CNT_CLR (R282). -/
def execQueCntClr (w : Writer) (q : Fin 160) (s : State) : Out :=
  .next (s.linked w (Reg.queCtl.addr q.val 0) (queCntClr q.val))

end Sys2Proof.Machine
end

