-- ==== Sys2Proof/Machine/SchedCore.lean ====
section
/-! DEFINITION. The shared operations of the event scheduler: image fields, slots, lines, completions, acceptance of
arms, cancels, repetition, and what presets, faults and stops of a timebase do to its events (03_event_scheduler R104
to R129, R139 to R143). -/

namespace Sys2Proof.Machine

/-! ### The image (R105) -/

def evTb (w3 : W64) : Nat := bitsW w3 0 6
def evDir (w3 : W64) : Nat := bitsW w3 6 2
def evAction (w3 : W64) : Nat := bitsW w3 8 4
def evWunit (w3 : W64) : Nat := bitsW w3 12 1
def evPassed (w3 : W64) : Nat := bitsW w3 13 2
def evPrio (w3 : W64) : Nat := bitsW w3 15 2
def evNotify (w3 : W64) : Nat := bitsW w3 17 2
def evAlloc (w3 : W64) : Nat := bitsW w3 19 1
def evDest (w3 : W64) : Nat := bitsW w3 24 8
def evSlot (w3 : W64) : Nat := bitsW w3 32 12
def evRepeat (w3 : W64) : Nat := bitsW w3 48 16
def evPayload (w1 : W64) : Nat := bitsW w1 0 32
def evStep (w1 : W64) : Int := signed 32 (bitsW w1 32 32)
def evWidth (w2 : W64) : Nat := bitsW w2 0 32
def evExpiry (w2 : W64) : Nat := bitsW w2 32 32

/-- The half a slot must lie in for an action and its DEST (R104). -/
def evHalf (w3 : W64) : Nat :=
  let d := evDest w3
  match evAction w3 with
  | 5 => d / 48
  | 6 => d / 8
  | 8 => if evTb w3 = 63 then 0 else evTb w3 / 16
  | _ => d / 32

/-- Is the action one on a shutter line (SET, CLEAR, TOGGLE, PULSE)? -/
def onLine (w3 : W64) : Bool := evAction w3 < 4

/-- Is DEST in range for the action? (R107, R119) -/
def destValid (w3 : W64) : Bool :=
  match evAction w3 with
  | 5 => evDest w3 < 96
  | 6 => evDest w3 < 16
  | 8 => evDest w3 == 0
  | _ => evDest w3 < 64

/-- The field checks of an arm, in the order BAD_EVENT, BAD_WIDTH, BAD_RESERVED (R105 to R107, R110); 0 if all pass. -/
def imageCheck (w0 w1 w2 w3 : W64) : Nat :=
  let dt := evTb w3 == 63
  if (32 ≤ evTb w3 ∧ evTb w3 < 63) ∨ evDir w3 = 3 ∨ 9 ≤ evAction w3 ∨ evPassed w3 = 3 ∨ evNotify w3 = 3
    ∨ !destValid w3 ∨ (evRepeat w3 ≠ 0 ∧ evStep w1 = 0)
    ∨ (dt ∧ (bitsW w0 0 19 ≠ 0 ∨ evDir w3 = 1)) then Code.badEvent
  else if (evAction w3 = 3 ∨ evAction w3 = 7)
    ∧ (if evWunit w3 = 0 then evWidth w2 < 160 else evWidth w2 = 0) then Code.badWidth
  else if bitsW w3 20 4 ≠ 0 ∨ bitsW w3 44 4 ≠ 0 then Code.badReserved
  else 0

/-- The direction an event crosses in; for the DT timebase an EITHER arm is RISING (R106). -/
def Slot.dir (x : Slot) : Nat := if evTb x.w3 = 63 then 0 else evDir x.w3

/-! ### Timebases as the scheduler sees them -/

/-- The hidden part of a timebase. -/
def State.tb (s : State) (n : Nat) : TbHid := Tab.get {} s.tbs n

/-- The hidden part of a timebase set. -/
def State.setTb (s : State) (n : Nat) (h : TbHid) : State := { s with tbs := Tab.set {} s.tbs n h }

/-- The position of the DT timebase at an instant (R106). -/
def dtPos (t : Nat) : W64 := BitVec.ofNat 64 (t * 2 ^ 19)

/-- The last update instant, in 12.5 ps steps (R45). -/
def State.lastUpdate (s : State) : Nat := s.dt.toNat / 250 * 250 * 32

/-- The latest publication of a timebase; for the DT timebase its exact trajectory (R106). -/
def State.pub (s : State) (tb : Nat) : Pub :=
  if tb = 63 then ⟨s.lastUpdate, dtPos s.lastUpdate, 2500000000 * 65536, 0⟩
  else ⟨(s.reg Reg.tbStamp tb).toNat * 32, s.reg Reg.tbPos tb, sInt (s.reg Reg.tbVel tb), sInt (s.reg Reg.tbAcc tb)⟩

/-- The position of a timebase at an instant, from its latest publication (R136); `up` rounds (log entry 3). -/
def State.posAt (s : State) (tb t : Nat) (up : Bool) : W64 :=
  if tb = 63 then dtPos t
  else
    let q := s.pub tb
    wOfInt (extrapolate (sInt q.p) q.v q.a ((t : Int) - q.inst) up)

/-- Faults of the STOP class: SIG_LOSS, SERIAL_CRC, TETHER_LOSS, by their bit in TB_FAULT (R79, R100). -/
def stopClass (b : Nat) : Bool := b == 0 || b == 4 || b == 5

/-- The code a timebase's events complete with while a fault acts as FAIL (R80, R81): the lowest such fault's; none if
no fault does. -/
def State.tbFail (s : State) (tb : Nat) : Option Nat :=
  if 32 ≤ tb then none
  else
    let act := s.fld Fld.tbFaultActive tb
    let fails (b : Nat) : Bool := bitOf act b && (if stopClass b then s.fld Fld.tbCfgStopAct tb == 2 || (s.tb tb).failed
      else s.flag Fld.tbCfgSuspectAct tb)
    ((upFrom 0 6).find? fails).map fun b => Code.sigLoss + b

/-- Is a timebase OFF? The DT timebase never is. -/
def State.tbOff (s : State) (tb : Nat) : Bool := tb != 63 && s.fld Fld.tbStatState tb == 0

/-! ### Slots -/

/-- A slot. -/
def State.slot (s : State) (n : Nat) : Slot := Tab.get {} s.sched.slots n

/-- The slots of a half in a given set of states. -/
def countSlots (q : Tab Slot) (h : Nat) (p : Slot → Bool) : Nat := (q.filter fun e => e.1 / 2048 == h && p e.2).length

/-- A slot set; EVT_STAT shows the slots in use and in the horizon (R148). -/
def State.setSlot (s : State) (n : Nat) (x : Slot) : State :=
  let s := { s with sched := { s.sched with slots := Tab.set {} s.sched.slots n x } }
  let h := n / 2048
  let s := s.setFld Fld.evtStatArmed (countSlots s.sched.slots h (fun y => y.st != 0)) h
  s.setFld Fld.evtStatInHorizon (countSlots s.sched.slots h (fun y => y.st == 2)) h

/-- A slot freed (R124). -/
def State.freeSlot (s : State) (n : Nat) : State := s.setSlot n {}

/-- Is the root running, for the scheduler? Locked, in holdover, or on the internal oscillator (R110, R296); not in DARK (R634). -/
def State.rootRuns (s : State) : Bool :=
  !s.pwr.dark && !s.pwr.off && (s.flag Fld.clkStatRootLocked || s.flag Fld.clkStatHoldover || s.flag Fld.clkStatLoss)

/-- Does the scheduler accept arms? (R110 step 2) -/
def State.schedRuns (s : State) : Bool :=
  s.rootRuns && bitOf (s.fld Fld.ldrStatSteps) 3 && s.fld Fld.pwrStateCur != 2

/-! ### Shutter lines -/

/-- LEVEL and the pulse count of a line set from instant `t` on (R118). The output changes at `t`, or at the end of the
2.0 ns of the level it ends (R122): the instant of the change, and whether it was moved. -/
def lineApply (s : State) (n t : Nat) (level : Bool) (pulses : Nat) : State × Nat × Bool :=
  let out := level || 0 < pulses
  let change := out != s.flag Fld.evtLineStatOut n
  let since := Tab.get 0 s.sched.lineAt n
  let moved := change && since != 0 && t < since + 160
  let t' := if moved then since + 160 else t
  let s := ((s.setFlag Fld.evtLineStatLevel level n).setFld Fld.evtLineStatPulses pulses n).setFlag
    Fld.evtLineStatOut out n
  let s := if change then { s with sched := { s.sched with lineAt := Tab.set 0 s.sched.lineAt n t' } } else s
  (s, t', moved)

/-- One committed edge more or less in a line's placer (R114, R151). -/
def queueMove (s : State) (w3 : W64) (up : Bool) : State :=
  if onLine w3 then
    let n := evDest w3
    let q := s.fld Fld.evtLineStatQueue n
    s.setFld Fld.evtLineStatQueue (if up then q + 1 else q - 1) n
  else s

/-! ### Completions -/

/-- The flag bits of R139 that hold of a firing by a unit now: CLK_DEGRADED (R130) and CAL_AGED (R133). -/
def unitFlags (s : State) (w3 : W64) : Nat :=
  let aged := if onLine w3 then s.flag Fld.evtLineStatCalAged (evDest w3)
    else if evAction w3 = 7 then s.flag Fld.evtCapStatCalAged (evDest w3) else false
  (if s.flag Fld.clkStatLoss then 8 else 0) + (if aged then 16 else 0)

/-- The status of an event that acted, by its flags, in the order of R142. -/
def flagStatus (flags : Nat) : Nat :=
  if bitOf flags 0 then Code.late
  else if bitOf flags 1 then Code.passed
  else if bitOf flags 2 then Code.widthLimit
  else if bitOf flags 3 then Code.clkDegraded
  else Code.ok

/-- A completion counted, noticed and delivered as NOTIFY allows (R139 to R143, R145). -/
def complete (n : Nat) (x : Slot) (status : Nat) (fired pos : W64) (extra : Nat) (s : State) : State :=
  let h := n / 2048
  let counted : Option Fld :=
    if status = Code.late then some Fld.evtCntLate
    else if status = Code.missed then some Fld.evtCntMissed
    else if status = Code.collided then some Fld.evtCntCollided
    else if status = Code.overrun then some Fld.evtCntOverrun
    else none
  let s := match counted with
    | some f => (s.bump f h).noticeIf (s.flag Fld.evtCfgNoteEn h) status n
    | none => s
  let skip := evNotify x.w3 = 2 ∨ (evNotify x.w3 = 1 ∧ status = Code.ok)
  if skip then s
  else deliverCompl x.armer
    ⟨status, n, x.late, x.flags, fired, pos, if bitOf x.flags 0 then x.lateBy else 0, x.fired, extra⟩ s

/-- The completion of an event that ended without reaching its crossing: the spec states no fire instant and no
position for it, which are free values (log entry 4). -/
def completeUnfired (n : Nat) (x : Slot) (status : Nat) (s : State) : State :=
  let f := s.freeWord
  let s := s.tookFree
  let p := s.freeWord
  complete n x status f p 0 s.tookFree

/-! ### Passed targets, repetition -/

/-- Does the position `p` lie at or beyond the target in the event's direction? EITHER is never passed (R110). -/
def beyond (p target : W64) (dir : Nat) : Bool :=
  if dir = 0 then decide (posDiff target p ≤ 0)
  else if dir = 1 then decide (0 ≤ posDiff target p)
  else false

/-- Is the target passed at the latest publication? (R110 step 6) -/
def State.isPassed (s : State) (x : Slot) : Bool :=
  let p := if evTb x.w3 = 63 then dtPos s.now else s.reg Reg.tbPos (evTb x.w3)
  beyond p x.w0 x.dir

/-- Has a placer room for another committed edge? (R114) -/
def State.hasRoom (s : State) (w3 : W64) : Bool := !onLine w3 || s.fld Fld.evtLineStatQueue (evDest w3) < 16

/-- An event to be fired at the earliest instant: committed if its placer has room, otherwise waiting with cause QUEUE
(R115). -/
def commitNow (n : Nat) (x : Slot) (s : State) : State :=
  if s.hasRoom x.w3 then (queueMove s x.w3 true).setSlot n { x with st := 3, atOnce := true }
  else s.setSlot n { x with atOnce := true, late := if x.late = 0 then 4 else x.late, flags := x.flags ||| 1 }

/-- Firings are still to come (R125). -/
def Slot.more (x : Slot) : Bool := 0 < x.remain

/-- A repeating event armed again with its next target, accepted at `t` (R125); the loop runs over targets found passed
under MISS. A FAIL of the timebase ends the event with the fault's code (R80). -/
def rearmLoop : Nat → Nat → Slot → Nat → State → State
  | 0, n, x, _, s => s.setSlot n x
  | k + 1, n, x, t, s =>
    let x := { x with
      w0 := x.w0 + wOfInt (evStep x.w1 * 2 ^ 16)
      remain := if evRepeat x.w3 = 65535 then x.remain else x.remain - 1
      st := 1, known := false, waited := false, pred := none, late := 0, lateBy := 0, flags := 0, atOnce := false
      accepted := t }
    match s.tbFail (evTb x.w3) with
    | some c => (completeUnfired n x c s).freeSlot n
    | none =>
      if s.isPassed x then
        if evPassed x.w3 = 1 then commitNow n { x with flags := 2 } s
        else if evPassed x.w3 = 2 then
          let x := { x with fired := x.fired + 1 }
          let s := completeUnfired n x Code.missed s
          if x.more then rearmLoop k n x t s else s.freeSlot n
        else s.setSlot n x
      else s.setSlot n x

/-- After a firing: the next target, or the end of the event. `held` is the state a single pulse or window shows until
its end (4 PULSING, 5 WINDOW; R124), 0 if the event's action is finished. -/
def afterFiring (n : Nat) (x : Slot) (t held : Nat) (s : State) : State :=
  if x.more then rearmLoop 65536 n x t s
  else if held = 0 then s.freeSlot n
  else s.setSlot n { x with st := held }

/-! ### Pulses and windows in progress -/

/-- The first run of a list that a test picks, and the list without it. -/
def takeRun (p : Run → Bool) : List Run → Option (Run × List Run)
  | [] => none
  | r :: t => if p r then some (r, t) else (takeRun p t).map fun q => (q.1, r :: q.2)

/-- The slot of a run that was its event's last firing becomes FREE at the run's end (R124). -/
def releaseRun (r : Run) (s : State) : State := if r.held then s.freeSlot r.slot else s

/-- A pulse ends at `t` with a status (none: by its flags): the line's count falls, and the completion of its firing is
delivered (R119, R120, R122, R127, R129). The run is already out of the list. -/
def endPulse (r : Run) (t : Nat) (status : Option Nat) (limit : Bool) (s : State) : State :=
  let n := evDest r.img.w3
  let (s, _, moved) := lineApply s n t (s.flag Fld.evtLineStatLevel n) (s.fld Fld.evtLineStatPulses n - 1)
  let fl := r.img.flags ||| (if limit then 4 else 0) ||| (if moved then 32 else 0)
  let x := { r.img with flags := fl }
  let s := complete r.slot x (status.getD (flagStatus fl)) (BitVec.ofNat 64 x.startAt) x.startPos 0 s
  releaseRun r s

/-- A capture window closes with a status (none: NO_EDGE or by its flags): the captured edge and its position are
reported, or the instant and position of the opening (R135, R129). -/
def endWindow (r : Run) (status : Option Nat) (limit : Bool) (s : State) : State :=
  let k := evDest r.img.w3
  let s := s.setFlag Fld.evtCapStatOpen false k
  let x := { r.img with flags := r.img.flags ||| (if limit then 4 else 0) }
  let s := match r.edge with
    | some (t, p) => complete r.slot x (status.getD (flagStatus x.flags)) (BitVec.ofNat 64 t) p r.extra s
    | none => complete r.slot x (status.getD Code.noEdge) (BitVec.ofNat 64 x.startAt) x.startPos 0 s
  releaseRun r s

/-- A run ended early with a status: its pulse or window (R127, R129, R131). -/
def endRun (r : Run) (t : Nat) (status : Option Nat) (limit : Bool) (s : State) : State :=
  if evAction r.img.w3 = 7 then endWindow r status limit s else endPulse r t status limit s

/-- Every run that a test picks ended with a status, oldest first; `fuel` runs. -/
def endRuns : Nat → (Run → Bool) → Nat → Nat → State → State
  | 0, _, _, _, s => s
  | k + 1, p, t, status, s =>
    match takeRun p s.sched.runs with
    | none => s
    | some (r, rest) =>
      endRuns k p t status (endRun r t (some status) false { s with sched := { s.sched with runs := rest } })

/-! ### Cancels and ends -/

/-- Does a committed edge lie 20 ns or more ahead? (R116, R127) -/
def State.farAhead (s : State) (x : Slot) : Bool :=
  !x.atOnce && (match x.pred with | some t => decide (s.now + 1600 ≤ t) | none => false)

/-- An event whose committed edge is withdrawn: ARMED again, and no longer marked late (R116). -/
def unplaced (x : Slot) : Slot := { x with st := 1, pred := none, late := 0, flags := x.flags / 2 * 2 }

/-- A committed edge withdrawn: the event is ARMED again (R116). -/
def withdraw (n : Nat) (x : Slot) (s : State) : State := (queueMove s x.w3 false).setSlot n (unplaced x)

/-- The event of a slot ended as a cancel ends it (R127): what the cancel is answered with. -/
def cancelSlot (n : Nat) (s : State) : State × Nat :=
  let x := s.slot n
  let ended := if x.fired = 0 then Code.cancelled else Code.aborted
  if x.st = 0 then (s, Code.notArmed)
  else if x.st = 1 ∨ x.st = 2 then ((completeUnfired n x ended s).freeSlot n, Code.ok)
  else if x.st = 3 then
    if s.farAhead x then
      ((completeUnfired n x ended (queueMove s x.w3 false)).freeSlot n, Code.ok)
    else (s, Code.tooLateCancel)
  else
    match takeRun (fun r => r.slot == n && r.held) s.sched.runs with
    | none => (s, Code.ok)
    | some (r, rest) =>
      (endRun r s.now (some Code.aborted) false { s with sched := { s.sched with runs := rest } }, Code.ok)

/-- The arming party by its owner code, as the table of arming paths of 03_event_scheduler gives it: the owner of the ring, the
engine of the context, or FABRIC. -/
def State.armerOwner (s : State) : Armer → Nat
  | .ring n => s.fld Fld.rngOwnOwner n
  | .context n _ => 0x10 + n
  | .channel _ => 2
  | .none => 255

/-- A cancel (R127): only the party that armed the event may, any of its rings, contexts or channels (R345). -/
def cancelBy (who : Armer) (n : Nat) (s : State) : State × Nat :=
  let x := s.slot n
  if x.st ≠ 0 ∧ x.owner ≠ s.armerOwner who then (s, Code.notArmer) else cancelSlot n s

/-- An event tied to a timebase ended with a status, unless its edge is less than 20 ns ahead (R91, R129). -/
def endTied (status : Nat) (s : State) (n : Nat) : State :=
  let x := s.slot n
  if x.st = 1 ∨ x.st = 2 then (completeUnfired n x status s).freeSlot n
  else if x.st = 3 ∧ s.farAhead x then (completeUnfired n x status (queueMove s x.w3 false)).freeSlot n
  else s

/-- The slots a test picks. -/
def State.slotsWith (s : State) (p : Slot → Bool) : List Nat := (s.sched.slots.filter fun e => p e.2).map (·.1)

/-- Every event tied to a timebase ends with a status, its pulses and windows with it (R91, R129 FAIL). -/
def endTimebase (tb status : Nat) (s : State) : State :=
  let s := (s.slotsWith fun x => evTb x.w3 == tb).foldl (endTied status) s
  endRuns s.sched.runs.length (fun r => evTb r.img.w3 == tb) s.now status s

/-- HOLD begins: committed edges 20 ns or more ahead are withdrawn, events in the horizon leave it (R129). -/
def holdTied (s : State) (n : Nat) : State :=
  let x := s.slot n
  if x.st = 2 then s.setSlot n { x with st := 1, pred := none }
  else if x.st = 3 ∧ s.farAhead x then withdraw n x s
  else s

/-- HOLD of a timebase begins. -/
def holdTimebase (tb : Nat) (s : State) : State := (s.slotsWith fun x => evTb x.w3 == tb).foldl holdTied s

/-- One armed event at a jump of its timebase from `old` to `new` (R90, R82, R110): a target between them in the event's
direction is handled by PASSED; a committed edge 20 ns or more ahead is withdrawn for it. -/
def jumpTied (old new : W64) (s : State) (n : Nat) : State :=
  let x := s.slot n
  let between := if x.dir = 0 then decide (0 < posDiff x.w0 old ∧ posDiff x.w0 new ≤ 0)
    else if x.dir = 1 then decide (posDiff x.w0 old < 0 ∧ 0 ≤ posDiff x.w0 new) else false
  if !between then s
  else if x.st = 1 ∨ x.st = 2 ∨ (x.st = 3 ∧ s.farAhead x) then
    let s := if x.st = 3 then withdraw n x s else s
    let x := if x.st = 3 then unplaced x else { x with st := 1, pred := none }
    if evPassed x.w3 = 1 then commitNow n { x with flags := x.flags ||| 2 } s
    else if evPassed x.w3 = 2 then (completeUnfired n x Code.missed s).freeSlot n
    else s.setSlot n x
  else s

/-- A jump of a timebase treated as a preset (R90, R82). -/
def jumpTimebase (tb : Nat) (old new : W64) (s : State) : State :=
  (s.slotsWith fun x => evTb x.w3 == tb).foldl (jumpTied old new) s

/-! ### Arming -/

/-- Is the destination the arming party's, or SHARED? (R110 step 3) -/
def State.destOwned (s : State) (w3 : W64) (owner : Nat) : Bool :=
  let d := evDest w3
  if onLine w3 then s.fld Fld.evtLineCfgOwner d == owner || s.flag Fld.evtLineCfgShared d
  else if evAction w3 = 7 then s.fld Fld.evtCapCfgOwner d == owner || s.flag Fld.evtCapCfgShared d
  else if evAction w3 = 6 then s.fld Fld.pinDacCfgOwner d == owner
  else true

/-- The refusal of an arm for its destination, in WTU_DENY (R110, R485). -/
def denyDest (s : State) (w3 : W64) (owner : Nat) : State :=
  let d := evDest w3
  if evAction w3 = 6 then s.deny Code.destNotOwned owner 5 d
  else s.deny Code.destNotOwned owner 7 (if evAction w3 = 7 then 64 + d else d)

/-- The lowest-numbered free slot of a half (R110 step 5). -/
def State.freeSlotOf (s : State) (h : Nat) : Option Nat :=
  (upFrom (2048 * h) 2048).find? fun n => !Tab.has s.sched.slots n

/-- The completion of a refused arm, which is always delivered (R139, R141, R434), and the slot its reply shows: the one
named, or, where the scheduler was to choose, one of the half that the spec leaves open (log entry 21). -/
def refusedArm (who : Armer) (code : Nat) (w3 : W64) (s : State) : State × Nat :=
  let slot := if evAlloc w3 = 0 then evSlot w3 else 2048 * evHalf w3 + s.freeNat % 2048
  let s := s.tookFree
  let f := s.freeWord
  let s := s.tookFree
  let p := s.freeWord
  (deliverCompl who ⟨code, slot, 0, 0, f, p, 0, 0, 0⟩ s.tookFree, slot)

/-- An arm judged and accepted (R110): the state after, the status, and the slot used. -/
def acceptArm (who : Armer) (owner : Nat) (w0 w1 w2 w3 : W64) (s : State) : State × Nat × Nat :=
  let bad := imageCheck w0 w1 w2 w3
  let h := evHalf w3
  if bad ≠ 0 then (s, bad, 0)
  else if evAlloc w3 = 0 ∧ evSlot w3 / 2048 ≠ h then (s, Code.halfMismatch, 0)
  else if !s.schedRuns then (s, Code.schedOff, 0)
  else if !s.destOwned w3 owner then (denyDest s w3 owner, Code.destNotOwned, 0)
  else if s.tbOff (evTb w3) then (s, Code.tbDisabled, 0)
  else
    match s.tbFail (evTb w3) with
    | some c => (s, c, 0)
    | none =>
      let pick := if evAlloc w3 = 1 then s.freeSlotOf h
        else if (s.slot (evSlot w3)).st = 0 then some (evSlot w3) else none
      match pick with
      | none => (s, if evAlloc w3 = 1 then Code.noSlot else Code.slotBusy, 0)
      | some n =>
        let x : Slot := { w0 := w0, w1 := w1, w2 := w2, w3 := w3, st := 1, remain := evRepeat w3, armer := who,
                          owner := owner, accepted := s.now,
                          deadline := if evExpiry w2 = 0 then none else some (s.now + evExpiry w2 * perMicro) }
        let s' := if s.isPassed x then
            if evPassed w3 = 1 then commitNow n { x with flags := 2 } s
            else if evPassed w3 = 2 then (completeUnfired n x Code.missed s).freeSlot n
            else s.setSlot n x
          else s.setSlot n x
        (s', Code.ok, n)

/-- An arm (R110): the state after, the status and the slot its reply shows. -/
def armEvent (who : Armer) (owner : Nat) (w0 w1 w2 w3 : W64) (s : State) : State × Nat × Nat :=
  let (s, code, slot) := acceptArm who owner w0 w1 w2 w3 s
  if code = Code.ok then (s, code, slot)
  else
    let (s, slot) := refusedArm who code w3 s
    (s, code, slot)

/-- The reply word of an arm or cancel (R109). -/
def replyWord (s : State) (status slot : Nat) : W64 :=
  BitVec.ofNat 64 (status % 2 ^ 16 + slot % 2 ^ 12 * 2 ^ 16 + s.dt.toNat % 2 ^ 32 * 2 ^ 32)

end Sys2Proof.Machine
end

