-- ==== Sys2Proof/Machine/Scheduler.lean ====
section
/-! DEFINITION. The event scheduler: publications, firing, pulses, capture, fabric arm channels, calibration and
registers (03_event_scheduler R104 to R153). -/

namespace Sys2Proof.Machine

/-! ### Fabric arm channels (R109) -/

/-- Does a channel withhold its acknowledge of a command word? A reply waits untaken and no command is under way. -/
def State.chanBlocked (s : State) (k : Nat) : Bool := (s.chan k).reply.isSome && (s.chan k).cmd.isNone

/-- An ARM command with its four image words: BAD_RESERVED, or the acceptance of R110; the reply is returned. -/
def channelArm (k : Nat) (cmd w0 w1 w2 w3 : W64) (s : State) : State :=
  let (s, code, slot) :=
    if bitsW cmd 4 60 ≠ 0 then (s, Code.badReserved, 0) else armEvent (.channel k) 2 w0 w1 w2 w3 s
  s.setChan k { s.chan k with reply := some (replyWord s code slot), cmd := none, words := [] }

/-- A command of one word: a CANCEL, or an undefined OP (R109). -/
def channelCancel (k : Nat) (cmd : W64) (s : State) : State :=
  let slot := bitsW cmd 16 12
  let (s, code) :=
    if bitsW cmd 0 4 ≠ 2 then (s, Code.badOpcode)
    else if bitsW cmd 4 12 ≠ 0 ∨ bitsW cmd 28 36 ≠ 0 then (s, Code.badReserved)
    else cancelBy (.channel k) slot s
  s.setChan k { s.chan k with reply := some (replyWord s code slot) }

/-- One token that reaches an arm channel from a sector port: a command word, or the next image word (R109, R213). -/
def channelToken (k port : Nat) (w : W64) (s : State) : State :=
  let c := s.chan k
  match c.cmd with
  | none =>
    let s := s.setChan k { c with port := port }
    if bitsW w 0 4 = 1 then s.setChan k { s.chan k with cmd := some w, words := [] } else channelCancel k w s
  | some cmd =>
    let ws := c.words ++ [w]
    if ws.length < 4 then s.setChan k { c with words := ws }
    else channelArm k cmd (wordAt ws 0) (wordAt ws 1) (wordAt ws 2) (wordAt ws 3) s

/-- FABRIC_ARM (R109): a command word and the words that follow it on channel k from a sector's port. The scheduler
takes nothing while a reply waits. -/
def execFabricArm (k : Fin 32) (port : Fin 80) (cmd w0 w1 w2 w3 : W64) (s : State) : Out :=
  .next (if s.chanBlocked k.val || s.mute port.val then s
    else
      let s := s.setChan k.val { s.chan k.val with port := port.val }
      if bitsW cmd 0 4 = 1 then channelArm k.val cmd w0 w1 w2 w3 s else channelCancel k.val cmd s)

/-- FABRIC_CANCEL (R109). A word whose OP is ARM waits for its image words. -/
def execFabricCancel (k : Fin 32) (port : Fin 80) (cmd : W64) (s : State) : Out :=
  .next (if s.chanBlocked k.val || s.mute port.val then s else channelToken k.val port.val cmd s)

/-- FABRIC_REPLY_TAKEN (R109): the fabric takes the waiting reply word, or the waiting completion word. -/
def execFabricReplyTaken (k : Fin 32) (completion : Bool) (s : State) : Out :=
  let c := s.chan k.val
  .next (s.setChan k.val (if completion then { c with compl := none } else { c with reply := none }))

/-! ### Publications (R111 to R116) -/

/-- A committed event checked against a publication (R116). -/
def recheck (s : State) (n : Nat) : State :=
  let x := s.slot n
  let q := s.pub (evTb x.w3)
  match x.pred with
  | none => s
  | some tc =>
    if x.st ≠ 3 ∨ x.atOnce ∨ tc < q.inst + 3200 + 1600 then s
    else
      let stands := match crossing q x.w0 3200 x.dir with
        | some (t, _) => decide (t ≤ 2 * ((tc : Int) - q.inst))
        | none => false
      if stands then s else withdraw n x s

/-- What a publication says of an armed event: the predicted crossing, its direction, whether the target is shown
crossed already. -/
structure Cand where
  slot    : Nat
  tc      : Nat
  rising  : Bool
  crossed : Bool
  inside  : Bool
  deriving DecidableEq, Repr

/-- Has the trajectory passed the target in the event's direction since the publication before? (R115) -/
def shownCrossed (s : State) (x : Slot) (q : Pub) : Bool :=
  let prev := if evTb x.w3 = 63 then dtPos (q.inst - 8000) else (s.tb (evTb x.w3)).prevPos
  let up := decide (0 < posDiff x.w0 prev ∧ posDiff x.w0 q.p ≤ 0)
  let down := decide (posDiff x.w0 prev < 0 ∧ 0 ≤ posDiff x.w0 q.p)
  decide (x.accepted < q.inst) && (if x.dir = 0 then up else if x.dir = 1 then down else up || down)

/-- The candidate an ARMED or HORIZON event makes of a publication, if any (R112, R113, R115). -/
def candidate (s : State) (n : Nat) : Option Cand :=
  let x := s.slot n
  let q := s.pub (evTb x.w3)
  let inside := x.st == 2
  if shownCrossed s x q then
    let back := match crossing q x.w0 (-8000) x.dir with
      | some (t, up) => if t ≤ 0 then some ((q.inst + t).toNat, up) else none
      | none => none
    match back with
    | some (t, up) => some ⟨n, t, up, true, inside⟩
    | none => some ⟨n, min (x.pred.getD q.inst) q.inst, decide (0 < q.v), true, inside⟩
  else if x.late = 3 then some ⟨n, x.pred.getD q.inst, x.rising, true, inside⟩
  else
    match crossing q x.w0 3200 x.dir with
    | some (t, up) =>
      if t ≤ s.fld Fld.evtCfgHorizon (n / 2048) * perMicro then some ⟨n, (q.inst + t).toNat, up, false, inside⟩
      else none
    | none => none

/-- An event without a crossing within the horizon is ARMED (R113). -/
def leaveHorizon (s : State) (n : Nat) : State :=
  let x := s.slot n
  let q := s.pub (evTb x.w3)
  let pred := (crossing q x.w0 3200 x.dir).map fun p => ((q.inst : Int) + p.1).toNat
  s.setSlot n { x with st := 1, pred := pred, known := true, waited := false }

/-- Candidates in the order they are served: those in the horizon first, then by crossing, then by slot (R113). -/
def Cand.before (a b : Cand) : Bool :=
  if a.inside != b.inside then a.inside
  else if a.tc ≠ b.tc then decide (a.tc < b.tc) else decide (a.slot < b.slot)

def insertCand (c : Cand) : List Cand → List Cand
  | [] => [c]
  | d :: t => if c.before d then c :: d :: t else d :: insertCand c t

/-- Does a deadline fall before an instant? (R126) -/
def Slot.expired (x : Slot) (t : Nat) : Bool := match x.deadline with | some d => decide (d < t) | none => false

/-- A candidate served: it enters the horizon or waits for room, commits, fires late, or expires (R113 to R115,
R126). -/
def serve (s : State) (c : Cand) : State :=
  let n := c.slot
  let x := s.slot n
  let q := s.pub (evTb x.w3)
  if x.st ≠ 2 ∧ 256 ≤ countSlots s.sched.slots (n / 2048) (fun y => y.st == 2) then
    s.setSlot n { x with waited := true, known := true, pred := some c.tc, rising := c.rising,
                         late := if c.crossed then 3 else x.late }
  else if c.crossed ∨ c.tc < q.inst + 8000 then
    let cause := if x.late ≠ 0 then x.late else if x.waited then 3 else if !x.known then 1 else 2
    let x := { x with pred := some c.tc, rising := c.rising, late := cause, flags := x.flags ||| 1 }
    if x.expired (q.inst + 3200) then (completeUnfired n x Code.expired s).freeSlot n else commitNow n x s
  else if c.tc < q.inst + 16000 then
    let x := { x with pred := some c.tc, rising := c.rising, known := true, waited := false }
    if x.expired c.tc then (completeUnfired n x Code.expired s).freeSlot n
    else if s.hasRoom x.w3 then (queueMove s x.w3 true).setSlot n { x with st := 3 }
    else s.setSlot n { x with st := 2, late := 4 }
  else s.setSlot n { x with st := 2, pred := some c.tc, rising := c.rising, known := true, waited := false }

/-- An event that waits to fire at once for room in its placer (R115 QUEUE). -/
def retryNow (s : State) (n : Nat) : State :=
  let x := s.slot n
  if x.expired s.now then (completeUnfired n x Code.expired s).freeSlot n else commitNow n x s

/-- SCHED_PUBLICATION (R111 to R116): the latest publication of every timebase reaches both halves' schedulers. -/
def schedPublication (s : State) : State :=
  let s := (s.slotsWith fun x => x.st == 3).foldl recheck s
  let s := (s.slotsWith fun x => (x.st == 1 || x.st == 2) && x.atOnce).foldl retryNow s
  let live := s.slotsWith fun x => (x.st == 1 || x.st == 2) && !x.atOnce && !s.tbOff (evTb x.w3)
  let cands := live.filterMap (candidate s)
  let rest := live.filter fun n => (candidate s n).isNone
  let order := cands.foldl (fun l c => insertCand c l) []
  order.foldl serve (rest.foldl leaveHorizon s)

/-- In safelight nothing fires (R131, R636). -/
def execSchedPublication (s : State) : Out := .next (if s.asleep then s else schedPublication s)

/-! ### Firing (R118 to R125) -/

/-- The event as it stands at a firing carried out at `t`, and the position there (R115, R139). -/
def firing (x : Slot) (t : Nat) (moved : Bool) (s : State) : State × Slot × W64 :=
  let late := if x.late ≠ 0 then x.late else if moved then 5 else 0
  let pos := s.posAt (evTb x.w3) t s.freeBit
  let s := s.tookFree
  let by_ := match x.pred with | some c => t - c | none => s.freeNat % 2 ^ 32
  let s := if late ≠ 0 ∧ x.pred.isNone then s.tookFree else s
  let fl := (if late ≠ 0 then x.flags ||| 1 else x.flags) ||| unitFlags s x.w3
  (s, { x with fired := x.fired + 1, late := late, lateBy := if late ≠ 0 then by_ else 0, flags := fl,
               startAt := t, startPos := pos, pred := none, atOnce := false }, pos)

/-- An event that reached its crossing and did not act: COLLIDED or OVERRUN; it counts as a firing (R142). -/
def fireIdle (n : Nat) (x : Slot) (t status : Nat) (s : State) : State :=
  let (s, x, pos) := firing x t false s
  afterFiring n x t 0 (complete n x status (BitVec.ofNat 64 t) pos 0 s)

/-- An event that acted and is finished. -/
def fireDone (n : Nat) (x : Slot) (t : Nat) (moved : Bool) (s : State) : State :=
  let (s, x, pos) := firing x t moved s
  afterFiring n x t 0 (complete n x (flagStatus x.flags) (BitVec.ofNat 64 t) pos 0 s)

/-- Do two events act on one resource so that only one may? (R123) -/
def rivals (a b : W64) : Bool :=
  evDest a == evDest b && ((evAction a < 3 && evAction b < 3) || (evAction a == 6 && evAction b == 6)
    || (evAction a == 7 && evAction b == 7))

/-- Do two instants fall into one tick, or for DAC events one port clock? (R123) -/
def together (w3 : W64) (t u : Nat) : Bool :=
  if evAction w3 = 6 then (t + 639) / 640 == (u + 639) / 640 else t / 32 == u / 32

/-- The committed rivals of an event that meet it (R123). -/
def meets (s : State) (n : Nat) (x : Slot) (t : Nat) : List (Nat × Slot) :=
  s.sched.slots.filter fun e => e.1 != n && e.2.st == 3 && rivals x.w3 e.2.w3
    && (match e.2.pred with | some u => !e.2.atOnce && together x.w3 t u | none => false)

/-- Does event (n, x) win against (m, y)? PRIO, then the lowest slot. -/
def wins (n : Nat) (x : Slot) (m : Nat) (y : Slot) : Bool :=
  evPrio y.w3 < evPrio x.w3 || (evPrio y.w3 == evPrio x.w3 && decide (n < m))

/-- The losers of a meeting complete with COLLIDED (R123). -/
def collideLosers (l : List (Nat × Slot)) (s : State) : State :=
  l.foldl (fun s e => fireIdle e.1 e.2 (e.2.pred.getD s.now) Code.collided (queueMove s e.2.w3 false)) s

/-- SET, CLEAR or TOGGLE (R118). -/
def fireLevel (n : Nat) (x : Slot) (t : Nat) (s : State) : State :=
  let d := evDest x.w3
  let old := s.flag Fld.evtLineStatLevel d
  let level := if evAction x.w3 = 0 then true else if evAction x.w3 = 1 then false else !old
  let (s, t', moved) := lineApply s d t level (s.fld Fld.evtLineStatPulses d)
  fireDone n x t' moved s

/-- PULSE: the count rises; a 16th pulse does not fire (R118, R119). -/
def firePulse (n : Nat) (x : Slot) (t : Nat) (s : State) : State :=
  let d := evDest x.w3
  let k := s.fld Fld.evtLineStatPulses d
  if 15 ≤ k then fireIdle n x t Code.collided s
  else
    let (s, t', moved) := lineApply s d t (s.flag Fld.evtLineStatLevel d) (k + 1)
    let (s, y, _) := firing x t' moved s
    let r : Run := { slot := n, img := y, held := !y.more }
    afterFiring n y t' 4 { s with sched := { s.sched with runs := s.sched.runs ++ [r] } }

/-- TOKEN: offered to the channel's buffer of four, or OVERRUN (R119, R121). -/
def fireToken (n : Nat) (x : Slot) (t : Nat) (s : State) : State :=
  let d := evDest x.w3
  let l := Tab.get [] s.sched.tokens d
  if 4 ≤ l.length then fireIdle n x t Code.overrun s
  else
    let w : W64 := BitVec.ofNat 64 (evPayload x.w1 + n % 2 ^ 12 * 2 ^ 32 + (x.fired + 1) % 2 ^ 20 * 2 ^ 44)
    fireDone n x t false { s with sched := { s.sched with tokens := Tab.set [] s.sched.tokens d (l ++ [w]) } }

/-- A wake delivered to a context (R346); whether it merged with an earlier one not yet taken (R121). -/
def deliverWake (e c v : Nat) (s : State) : State × Bool :=
  let merged := s.flag Fld.engCtxWakePend e c
  let s := ((s.setFld Fld.engCtxWakeValue v e c).setFlag Fld.engCtxWakePend true e c).setFlag
    Fld.engCtxStatWakePend true e c
  (s.wakeCtx e c 3, merged)

/-- WAKE (R119, R121). -/
def fireWake (n : Nat) (x : Slot) (t : Nat) (s : State) : State :=
  let (s, merged) := deliverWake (evDest x.w3) (bitsW x.w1 30 2) (bitsW x.w1 0 30) s
  if merged then fireIdle n x t Code.wakeMerged s else fireDone n x t false s

/-- DAC: the code is written to the output (R119). -/
def fireDac (n : Nat) (x : Slot) (t : Nat) (s : State) : State :=
  fireDone n x t false (s.setFld Fld.pinDacCodeCode (evPayload x.w1) (evDest x.w3))

/-- CAPTURE: a window opens, or the unit's window is open already (R123, R135). -/
def fireCapture (n : Nat) (x : Slot) (t : Nat) (s : State) : State :=
  let d := evDest x.w3
  if s.flag Fld.evtCapStatOpen d then fireIdle n x t Code.collided s
  else
    let (s, y, _) := firing x t false s
    let s := s.setFlag Fld.evtCapStatOpen true d
    let r : Run := { slot := n, img := y, held := !y.more }
    afterFiring n y t 5 { s with sched := { s.sched with runs := s.sched.runs ++ [r] } }

/-- The action of an event that does not lose its meeting. -/
def act (n : Nat) (x : Slot) (t : Nat) (s : State) : State :=
  match evAction x.w3 with
  | 0 => fireLevel n x t s
  | 1 => fireLevel n x t s
  | 2 => fireLevel n x t s
  | 3 => firePulse n x t s
  | 4 => fireToken n x t s
  | 5 => fireWake n x t s
  | 6 => fireDac n x t s
  | 7 => fireCapture n x t s
  | _ => fireDone n x t false s

/-- EVENT_FIRE (R119, R123): the event of slot n acts at its committed instant, or at `at_` where it fires at once. -/
def fireSlot (n at_ : Nat) (s : State) : State :=
  let x := s.slot n
  if x.st ≠ 3 ∨ s.asleep then s
  else
    let t := if x.atOnce then at_ else x.pred.getD at_
    let met := if x.atOnce then [] else meets s n x t
    let s := queueMove s x.w3 false
    if met.any fun e => !wins n x e.1 e.2 then fireIdle n x t Code.collided s
    else collideLosers met (act n x t s)

def execEventFire (n : Fin 4096) (t : Stamp) (s : State) : Out := .next (fireSlot n.val t.toNat s)

/-- The oldest run of a slot that a test picks, taken out and ended. -/
def endSlotRun (p : Run → Bool) (t : Nat) (limit : Bool) (s : State) : State :=
  match takeRun p s.sched.runs with
  | none => s
  | some (r, rest) => endRun r t none limit { s with sched := { s.sched with runs := rest } }

/-- PULSE_END (R119): the oldest pulse of slot n's event ends at an instant. -/
def execPulseEnd (n : Fin 4096) (t : Stamp) (s : State) : Out :=
  .next (endSlotRun (fun r => r.slot == n.val && evAction r.img.w3 == 3) t.toNat false s)

/-- WIDTH_LIMIT_EXPIRY (R120): a position width not ended within 2^TMAX µs ends there. -/
def execWidthLimitExpiry (n : Fin 4096) (t : Stamp) (s : State) : Out :=
  .next (endSlotRun (fun r => r.slot == n.val && evWunit r.img.w3 == 1) t.toNat true s)

/-- EVENT_EXPIRY (R126): an event with a deadline not committed by it. -/
def execEventExpiry (n : Fin 4096) (s : State) : Out :=
  let x := s.slot n.val
  .next (if (x.st = 1 ∨ x.st = 2) ∧ x.deadline.isSome then
      (completeUnfired n.val x Code.expired s).freeSlot n.val
    else s)

/-! ### Capture (R134 to R136) -/

/-- The run of a capture unit's open window changed by a function. -/
def mapWindow (k : Nat) (f : Run → Run) (l : List Run) : List Run :=
  l.map fun r => if evAction r.img.w3 = 7 ∧ evDest r.img.w3 = k then f r else r

/-- CAPTURE_EDGE (R134, R135): the first qualifying edge gives stamp and position, later ones count. -/
def captureEdge (k : Nat) (rising : Bool) (t : Nat) (s : State) : State :=
  let e := s.fld Fld.evtCapCfgEdge k
  if !s.flag Fld.evtCapStatOpen k || !(e == 2 || (e == 0 && rising) || (e == 1 && !rising)) then s
  else
    let up := s.freeBit
    let f (r : Run) : Run :=
      if r.edge.isSome then { r with extra := min 15 (r.extra + 1) }
      else { r with edge := some (t, s.posAt (evTb r.img.w3) t up) }
    let s := { s with sched := { s.sched with runs := mapWindow k f s.sched.runs } }
    s.tookFree

def execCaptureEdge (k : Fin 64) (rising : Bool) (t : Stamp) (s : State) : Out :=
  .next (captureEdge k.val rising t.toNat s)

/-- CAPTURE_WINDOW_CLOSE (R135): the window closes by time or position. -/
def execCaptureWindowClose (k : Fin 64) (s : State) : Out :=
  .next (endSlotRun (fun r => evAction r.img.w3 == 7 && evDest r.img.w3 == k.val) s.now false s)

/-- EVENT_TOKEN_DRAIN (R121, R214): the oldest token of a bound channel goes to the spine as a MSG to its sector; its
TARGET names the channel (R213). -/
def tokenDrain (k : Nat) (s : State) : State :=
  match Tab.get [] s.sched.tokens k with
  | [] => s
  | w :: rest =>
    if !s.flag Fld.stwTokDestBound k || !s.poolRoom (104 + k / 32) then s
    else
      let s := { s with sched := { s.sched with tokens := Tab.set [] s.sched.tokens k rest } }
      (s.occupy (104 + k / 32)).putTrans
        { port := 104 + k / 32, master := 0, owner := 2, tag := 0, op := .msg, len := 1, addr := 0x500 + k, space := .dev,
          asid := 0, priv := 0, va := 0x1000 + s.fld Fld.stwTokDestSector k, marked := false, data := [w], asker := .none }

def execEventTokenDrain (k : Fin 64) (s : State) : Out := .next (tokenDrain k.val s)

/-! ### Calibration (R133): units 0 to 63 are the line placers, 64 to 127 the capture units. -/

/-- The half of a placer or capture unit. -/
def unitHalf (u : Nat) : Nat := u % 64 / 32

/-- CAL_AGED of a unit, and of its half where any unit is (R133, R148). -/
def setAged (u : Nat) (b : Bool) (s : State) : State :=
  let s := if u < 64 then s.setFlag Fld.evtLineStatCalAged b u else s.setFlag Fld.evtCapStatCalAged b (u - 64)
  let h := unitHalf u
  s.setFlag Fld.evtStatCalAged ((upFrom (32 * h) 32).any fun i =>
    s.flag Fld.evtLineStatCalAged i || s.flag Fld.evtCapStatCalAged i) h

/-- Does calibration of a unit run? -/
def State.calRuns (s : State) (u : Nat) : Bool := s.rootRuns && s.flag Fld.evtCfgCalEn (unitHalf u)

/-- A unit's calibration. -/
def State.cal (s : State) (u : Nat) : Cal := Tab.get {} s.sched.cals u

/-- A unit's calibration set. -/
def State.setCal (s : State) (u : Nat) (c : Cal) : State :=
  { s with sched := { s.sched with cals := Tab.set {} s.sched.cals u c } }

/-- CAL_MEASURE_DONE (R133). -/
def execCalMeasureDone (u : Fin 128) (s : State) : Out :=
  .next (if s.calRuns u.val then s.setCal u.val { s.cal u.val with measured := true } else s)

/-- CAL_ROLE_SWAP (R133): the lines change roles if a measurement is complete and no edge is due within 20 ns. -/
def calSwap (u : Nat) (s : State) : State :=
  let due := s.sched.slots.any fun e => u < 64 && onLine e.2.w3 && evDest e.2.w3 == u && e.2.st == 3 && !s.farAhead e.2
  if s.calRuns u && (s.cal u).measured && !due then
    setAged u false (s.setCal u { measured := false, servedAt := s.now })
  else s

def execCalRoleSwap (u : Fin 128) (s : State) : Out := .next (calSwap u.val s)

/-- CAL_AGE_EXPIRY (R133): 10 ms without a role change. -/
def execCalAgeExpiry (u : Fin 128) (s : State) : Out := .next (setAged u.val true s)

/-! ### Registers (R128, R145 to R152) -/

/-- A refusal of the scheduler's registers (R145). -/
def refuseEvt (code index : Nat) (s : State) : State := s.refuse Reg.evtRefuse code index

/-- One slot matched by a kill, ended as a cancel ends it (R128). -/
def killOne (s : State) (n : Nat) : State := (cancelSlot n s).1

/-- A line named by a kill takes its KILL_LEVEL: its pulses are gone (R128). -/
def killLine (s : State) (n : Nat) : State :=
  let k := s.fld Fld.evtLineCfgKillLevel n
  if k = 2 then s
  else (lineApply s n s.now (k == 1) 0).1

/-- The kill (R128): events matched by MODE and INDEX end, the lines named take their level. -/
def kill (mode index : Nat) (s : State) : State :=
  let hit (w3 : W64) : Bool :=
    if mode = 0 then onLine w3 && evDest w3 == index else if mode = 1 then evTb w3 == index else true
  let s := (s.slotsWith fun x => hit x.w3).foldl killOne s
  let s := endRuns s.sched.runs.length (fun r => hit r.img.w3) s.now Code.aborted s
  if mode = 0 then killLine s index else if mode = 2 then (upFrom 0 64).foldl killLine s else s

/-- EVT_KILL_GO (R128, R147): a Warden write of EVT_KILL. -/
def evtKill (w : Writer) (v : W32) (s : State) : State :=
  let v64 : W64 := v.setWidth 64
  let old := s.reg Reg.evtKill
  let new := Reg.evtKill.plain old v64 true
  if !s.warden w ∧ (old ≠ new ∨ bitsW v64 31 1 = 1) then s.denyWarden w Reg.evtKill.base
  else if bitsW v64 0 2 = 3 then refuseEvt Code.badEvent (bitsW v64 8 6) s
  else
    let s := s.setReg Reg.evtKill new
    if bitsW v64 31 1 = 1 then kill (bitsW v64 0 2) (bitsW v64 8 6) s else s

def execEvtKillGo (w : Writer) (v : W32) (s : State) : Out := .next (s.linked w Reg.evtKill.base (evtKill w v))

/-- CNT_CLR (R146): EVT_CNT to 0, DISCARDED cleared. -/
def evtCntClr (h : Nat) (s : State) : State := (s.setReg Reg.evtCnt 0 h).setFlag Fld.evtStatDiscarded false h

def execEvtCntClr (w : Writer) (h : Fin 2) (s : State) : Out :=
  .next (s.linked w (Reg.evtCfg.addr h.val 0) (evtCntClr h.val))

/-- EVT_CFG_WRITE (R146). -/
def evtCfgWrite (h : Nat) (v : W32) (s : State) : State :=
  let v64 : W64 := v.setWidth 64
  if bitsW v64 0 6 = 0 ∨ 27 ≤ bitsW v64 8 5 then refuseEvt Code.badEvent h s
  else
    let s := s.setReg Reg.evtCfg (Reg.evtCfg.plain (s.reg Reg.evtCfg h) v64 true) h
    if bitsW v64 17 1 = 1 then evtCntClr h s else s

def execEvtCfgWrite (w : Writer) (h : Fin 2) (v : W32) (s : State) : Out :=
  .next (s.linked w (Reg.evtCfg.addr h.val 0) (evtCfgWrite h.val v))

/-- EVT_SLOT_SEL (R149): the copy starts, or replaces one pending. -/
def slotSel (slot : Nat) (s : State) : State :=
  let s := (s.setFld Fld.evtSlotSelSlot slot).setFlag Fld.evtSlotSelDone false
  { s with sched := { s.sched with copyPend := true } }

def execEvtSlotSel (w : Writer) (slot : Fin 4096) (s : State) : Out :=
  .next (s.linked w Reg.evtSlotSel.base (slotSel slot.val))

/-- SLOT_COPY_DONE (R149): image, state and prediction arrive together, then DONE is set. -/
def slotCopy (s : State) : State :=
  if !s.sched.copyPend then s
  else
    let x := s.slot (s.fld Fld.evtSlotSelSlot)
    let s := s.setReg Reg.evtSlotStat (BitVec.ofNat 64 (x.st % 8 + x.remain % 2 ^ 16 * 2 ^ 4 + x.owner % 2 ^ 8 * 2 ^ 20))
    let s := s.setReg Reg.evtSlotPred (BitVec.ofNat 64 (x.pred.getD 0))
    let s := (((s.setReg Reg.evtSlotImg x.w0 0).setReg Reg.evtSlotImg x.w1 1).setReg Reg.evtSlotImg x.w2 2).setReg
      Reg.evtSlotImg x.w3 3
    let s := s.setFlag Fld.evtSlotSelDone true
    { s with sched := { s.sched with copyPend := false } }

def execSlotCopyDone (s : State) : Out := .next (slotCopy s)

/-- Is any event armed on a line? -/
def State.lineBusy (s : State) (n : Nat) : Bool :=
  let on (w3 : W64) : Bool := onLine w3 && evDest w3 == n
  s.sched.slots.any (fun e => on e.2.w3) || s.sched.runs.any (fun r => on r.img.w3)

/-- EVT_LINE_CFG_WRITE (R150): the Warden's fields, the owner code, the values, then the lock. -/
def lineCfgWrite (w : Writer) (n : Nat) (v : W32) (s : State) : State :=
  let v64 : W64 := v.setWidth 64
  let old := s.reg Reg.evtLineCfg n
  let new := Reg.evtLineCfg.plain old v64 true
  let port := bitsW v64 12 8
  if !s.warden w ∧ Reg.evtLineCfg.touchesRww old new then s.denyWarden w (Reg.evtLineCfg.addr n 0)
  else if bitsW v64 9 2 = 3 ∨ (port ≠ 0xFF ∧ port / 72 ≠ n / 32) then refuseEvt Code.badEvent n s
  else if !ownerValid (bitsW v64 0 8) then refuseEvt Code.ownerBad n (s.deny Code.ownerBad (s.ownerCode w) 7 n)
  else if s.lineBusy n ∧ (old ^^^ new) &&& 0xFF1FF ≠ 0 then refuseEvt Code.lineBusy n s
  else s.setReg Reg.evtLineCfg new n

def execEvtLineCfgWrite (w : Writer) (n : Fin 64) (v : W32) (s : State) : Out :=
  .next (s.linked w (Reg.evtLineCfg.addr n.val 0) (lineCfgWrite w n.val v))

/-- Is a capture unit's window open or any event armed on it? -/
def State.capBusy (s : State) (k : Nat) : Bool :=
  s.flag Fld.evtCapStatOpen k || s.sched.slots.any fun e => evAction e.2.w3 == 7 && evDest e.2.w3 == k

/-- EVT_CAP_CFG_WRITE (R152). -/
def capCfgWrite (w : Writer) (k : Nat) (v : W32) (s : State) : State :=
  let v64 : W64 := v.setWidth 64
  let old := s.reg Reg.evtCapCfg k
  let new := Reg.evtCapCfg.plain old v64 true
  if !s.warden w ∧ Reg.evtCapCfg.touchesRww old new then s.denyWarden w (Reg.evtCapCfg.addr k 0)
  else if s.capBusy k then refuseEvt Code.lineBusy k s
  else if bitsW v64 9 2 = 3 ∨ bitsW v64 0 8 / 72 ≠ k / 32 then refuseEvt Code.badEvent k s
  else if !ownerValid (bitsW v64 11 8) then refuseEvt Code.ownerBad k (s.deny Code.ownerBad (s.ownerCode w) 7 (64 + k))
  else s.setReg Reg.evtCapCfg new k

def execEvtCapCfgWrite (w : Writer) (k : Fin 64) (v : W32) (s : State) : Out :=
  .next (s.linked w (Reg.evtCapCfg.addr k.val 0) (capCfgWrite w k.val v))

end Sys2Proof.Machine
end

