-- ==== Sys2Proof/Machine/Spine.lean ====
section
/-! DEFINITION. The spine: acceptance of transactions at a sector's port, their delivery to memory, queues, engines,
arm channels, fabric targets and the host link, the responses, and the port's own time limits (05_routing_and_spine
R208 to R235, 11_translation_and_protection R465, R472). -/

namespace Sys2Proof.Machine

/-! ### Acceptance (R211, R215, R217, R218, R227) -/

/-- The TAGs outstanding at a port. -/
def State.portTags (s : State) (p : Nat) : List Nat := Tab.get [] s.spine.tags p

/-- The TAGs outstanding at a port set. -/
def State.setPortTags (s : State) (p : Nat) (l : List Nat) : State :=
  { s with spine := { s.spine with tags := Tab.set [] s.spine.tags p l } }

/-- The header, with its data, held at a port (R218). -/
def State.heldAt (s : State) (p : Nat) : List W64 := Tab.get [] s.spine.held p

/-- The header held at a port set, and WAITING with it (R233). -/
def State.setHeld (s : State) (p : Nat) (l : List W64) : State :=
  { s with spine := { s.spine with held := Tab.set [] s.spine.held p l } }.setFlag Fld.stwSportStatWaiting (l != []) p

/-- A posted transaction refused: discarded and counted (R211). -/
def refusedAt (p : Nat) (s : State) : State := s.bump Fld.stwSportCntRefused p

/-- A transaction of operation `op` accepted at sector port p: judged by R211 and R213, and on its way. One that is
answered at once has its response on its way. -/
def spineAccept (p : Nat) (op : TOp) (h : W64) (data : List W64) (s : State) : State :=
  let target := bitsW h 16 16
  let reserved := op = .msg ∧ !(target < 0x300 ∨ (0x400 ≤ target ∧ target < 0x420))
  let code := if hdrCheck op h = Code.ok ∧ reserved then Code.badReserved else hdrCheck op h
  if code ≠ Code.ok then
    if op.answered then
      let s := (s.occupy p).setPortTags p (s.portTags p ++ [hdrTag h])
      s.putRsp ⟨p, hdrTag h, code, false, [], .port p⟩
    else refusedAt p s
  else
    let s := s.occupy p
    let s := if op.answered then s.setPortTags p (s.portTags p ++ [hdrTag h]) else s
    s.putTrans
      { port := p, master := p, owner := 2, tag := hdrTag h, op := op, len := hdrLen h, addr := if op = .msg then target else hdrAddr h,
        space := if op = .msg then .dev else .virt, asid := s.fld Fld.wtuFabAsid p, priv := s.fld Fld.wtuFabPriv p,
        va := if op = .msg then target else hdrAddr h, marked := false, data := data, asker := .port p }

/-- Has the port room, and is the header's TAG free? (R217, R218) -/
def State.canAdmit (s : State) (p : Nat) (op : TOp) (h : W64) : Bool :=
  s.poolRoom p && !(op.answered && (s.portTags p).contains (hdrTag h))

/-- A transaction offered on OUT_REQ of sector port p: held back by the holds of its sector (R188, R227), accepted, or
its header held (R218). A port with a header held takes no other. An OP of 0 or 7 to 15 is answered with BAD_OPCODE by
whichever row it comes through. -/
def spineOffer (p : Nat) (op : TOp) (h : W64) (data : List W64) (s : State) : State :=
  let known := 1 ≤ hdrOp h ∧ hdrOp h ≤ 6
  let words := if known then opWords op (hdrLen h) else 0
  if known ∧ hdrOp h ≠ opCode op then s
  else if data.length ≠ words then s
  else if s.mute p then s
  else if (op = .write ∨ op = .writeAck) ∧ s.flag Fld.stwSecHoldWrHeld p then s
  else if s.heldAt p ≠ [] then s
  else if !s.canAdmit p (if known then op else .read) h then
    let s := if s.poolRoom p then s else s.bump Fld.stwSportCntPoolWait p
    s.setHeld p (h :: data)
  else if !known then
    let s := (s.occupy p).setPortTags p (s.portTags p ++ [hdrTag h])
    s.putRsp ⟨p, hdrTag h, Code.badOpcode, false, [], .port p⟩
  else spineAccept p op h data s

/-- SPINE_READ (R211). -/
def execSpineRead (p : Fin 80) (hd : W64) (s : State) : Out := .next (spineOffer p.val .read hd [] s)

/-- SPINE_WRITE (R211). -/
def execSpineWrite (p : Fin 80) (hd : W64) (data : List W64) (s : State) : Out := .next (spineOffer p.val .write hd data s)

/-- SPINE_WRITE_ACK (R211). -/
def execSpineWriteAck (p : Fin 80) (hd : W64) (data : List W64) (s : State) : Out :=
  .next (spineOffer p.val .writeAck hd data s)

/-- SPINE_ADD (R211). -/
def execSpineAdd (p : Fin 80) (hd v : W64) (s : State) : Out := .next (spineOffer p.val .add hd [v] s)

/-- SPINE_SWAP (R211). -/
def execSpineSwap (p : Fin 80) (hd v : W64) (s : State) : Out := .next (spineOffer p.val .swap hd [v] s)

/-- SPINE_MSG (R213). -/
def execSpineMsg (p : Fin 80) (hd v : W64) (s : State) : Out := .next (spineOffer p.val .msg hd [v] s)

/-- The operation a header names. -/
def opOf (h : W64) : Option TOp :=
  match hdrOp h with
  | 1 => some .read | 2 => some .write | 3 => some .writeAck | 4 => some .add | 5 => some .swap | 6 => some .msg
  | _ => none

/-- SPINE_HEADER_ADMIT (R218): the header held at a port is accepted once there is room and its TAG is free. -/
def spineAdmit (p : Nat) (s : State) : State :=
  match s.heldAt p with
  | [] => s
  | h :: data =>
    match opOf h with
    | none =>
      if s.canAdmit p .read h then
        let s := ((s.setHeld p []).occupy p).setPortTags p (s.portTags p ++ [hdrTag h])
        s.putRsp ⟨p, hdrTag h, Code.badOpcode, false, [], .port p⟩
      else s
    | some op => if s.canAdmit p op h then spineAccept p op h data (s.setHeld p []) else s

def execSpineHeaderAdmit (p : Fin 80) (s : State) : Out := .next (spineAdmit p.val s)

/-! ### Targets -/

/-- An external access to a word range of an engine's IMEM or DMEM (R330, R328). -/
def engTake (n a : Nat) (imem : Bool) (op : TOp) (len : Nat) (data : List W64) (s : State) : State × Ans :=
  let reads (k : Nat) (s : State) : State × List W64 × Bool :=
    (upFrom 0 k).foldl (fun (r : State × List W64 × Bool) i =>
      let (s, v, bad) := engRead n (a + 8 * i) r.1
      (s, r.2.1 ++ [v], r.2.2 || bad)) (s, [], false)
  if op = .read then
    let (s, vs, bad) := reads len s
    (s, .done (if bad then Code.poisoned else Code.ok) (some vs))
  else if imem ∧ s.fld Fld.engStatState n ≠ 0 then (imemBusy n s, .done Code.imemBusy none)
  else match op with
    | .add =>
      let (s, v, bad) := engRead n a s
      if bad then (s, .done Code.atomicPoisoned (some [v]))
      else (engWrite a (v + wordAt data 0) 255 s, .done Code.ok (some [v]))
    | .swap =>
      let (s, v, bad) := engRead n a s
      (engWrite a (wordAt data 0) 255 s, .done (if bad then Code.poisoned else Code.ok) (some [v]))
    | _ => ((upFrom 0 data.length).foldl (fun s i => engWrite (a + 8 * i) (wordAt data i) 255 s) s, .done Code.ok none)

/-- The tokens of input channel k of engine n. -/
def State.inCh (s : State) (n k : Nat) : List W64 := Tab.get [] (s.eng n).ich k

/-- ENG_ICH_STAT and ICH_NONEMPTY as the channels stand (R357, R359). -/
def showInputs (n : Nat) (s : State) : State :=
  let v := (upFrom 0 8).foldl (fun v k => v + (s.inCh n k).length * 16 ^ k) 0
  let b := (upFrom 0 8).foldl (fun v k => v + b2n ((s.inCh n k) != []) * 2 ^ k) 0
  (s.setReg Reg.engIchStat (BitVec.ofNat 64 v) n).setFld Fld.engStatIchNonempty b n

/-- A token enters an input channel that has room, and a context waiting for it becomes READY (R341, R332). -/
def tokenIn (n k : Nat) (w : W64) (s : State) : State :=
  let e := s.eng n
  let s := showInputs n (s.setEng n { e with ich := Tab.set [] e.ich k (s.inCh n k ++ [w]) })
  (upFrom 0 4).foldl (fun s c => if (s.ctx n c).waitCh = k then s.wakeCtx n c 1 else s) s

/-- A MSG for channel k of engine n at its group port: into the channel, or behind the engine's queue, a wait counted
once (R341). `none` where the queue is full and the port takes no further MSG. -/
def engineMsg (n k : Nat) (w : W64) (s : State) : Option State :=
  let e := s.eng n
  if e.inq = [] ∧ (s.inCh n k).length < 4 then some (tokenIn n k w s)
  else if e.inq.length < 8 then
    let s := if e.inq = [] then s.bump Fld.engCntChanStall n else s
    some (s.setEng n { s.eng n with inq := e.inq ++ [(k, w)] })
  else none

/-- The TAGs in use for a sector's fabric targets, and those free. -/
def State.freeTags (s : State) (sec : Nat) : List Nat :=
  (upFrom 0 256).filter fun t => !s.spine.inbound.any fun i => i.sector == sec && i.tag == t

/-- A request presented on a sector's IN_REQ (R210, R211, R226). The spine's choice of TAG is not stated and is free. A
posted request that the fabric takes at once (`taken`) leaves nothing behind. -/
def presentIn (sec off : Nat) (t : Trans) (taken : Bool) (s : State) : State :=
  let tags := s.freeTags sec
  let tag := tags.getD (s.freeNat % tags.length) 0
  let s := s.tookFree
  let h : W64 := BitVec.ofNat 64 (opCode t.op + (t.len - 1) % 8 * 2 ^ 4 + tag * 2 ^ 8 + off % 2 ^ 48 * 2 ^ 16)
  let s := { s with spine := { s.spine with inn := Tab.set [] s.spine.inn sec (h :: t.data) } }
  if taken ∧ !t.op.answered ∧ !s.frozen sec then s
  else
    { s with spine := { s.spine with inbound := s.spine.inbound ++
      [⟨sec, tag, t.op.answered, t.port, t.tag, t.len, t.asker⟩] } }

/-- A delivered posted write of a context no longer holds back its FENCE (R404); with the last write of a sheet, SHEET_DONE
is raised under NOTE (R448). -/
def postedDone (a : Asker) (s : State) : State :=
  match a with
  | .sheet =>
    s.noticeIf (s.flag Fld.rngSheetCfgNote && !s.trans.any fun t => t.asker == Asker.sheet) Code.sheetDone 0
  | .context n c =>
    let s := s.setCtx n c { s.ctx n c with posted := (s.ctx n c).posted - 1 }
    s.wakeCtx n c 7
  | _ => s

/-- A transaction delivered: its response set out, or its pool entry freed (R217). Movers' writes are accepted and
delivered in one step, and leave only the port's PEAK. -/
def delivered (t : Trans) (status : Nat) (data : Option (List W64)) (s : State) : State :=
  if t.op.answered then s.putRsp ⟨t.port, t.tag, status, data.isSome, data.getD [], t.asker⟩
  else if 176 ≤ t.master then postedDone t.asker ((s.occupy t.port).release t.port)
  else postedDone t.asker (s.release t.port)

/-- A request that a sector's port does not present (R226, R228): answered with ABORTED, or discarded and counted. -/
def endInbound (sec : Nat) (t : Trans) (s : State) : State :=
  if t.op.answered then delivered t Code.aborted none s
  else delivered t Code.ok none (s.bump Fld.stwSportCntDiscard sec)

/-- A MSG delivered at its endpoint (R213, R341, R109); `none` where it must wait. -/
def deliverMsg (t : Trans) (taken : Bool) (s : State) : Option State :=
  let w := wordAt t.data 0
  if t.va < 0x300 then (engineMsg (t.va / 8) (t.va % 8) w s).map (delivered t Code.ok none)
  else if t.va < 0x1000 then
    let k := t.va - 0x400
    if s.chanBlocked k then none else some (delivered t Code.ok none (channelToken k t.port w s))
  else
    let sec := t.va - 0x1000
    if !s.flag Fld.stwSportCfgInEn sec || s.flag Fld.stwSecHoldDark sec then some (endInbound sec t s)
    else if s.freeTags sec = [] then none
    else some (delivered t Code.ok none (presentIn sec t.addr t taken s))

/-- A device access performed at its target (R473); `none` where it must wait. -/
def deliverDev (t : Trans) (taken : Bool) (s : State) : Option State :=
  let finish (r : State × Ans) : Option State :=
    match r with
    | (_, .wait) => none
    | (s, .done status data) => some (delivered t status data s)
  match targetOf t.addr with
  | .bank b w =>
    finish (bankTake b ⟨if t.port = b / 16 then 0 else 1, t.owner, t.port, t.op, w, t.len, t.data⟩ s)
  | .queue q off => finish (windowTake q t.owner off t.len t.op t.data s)
  | .imem n o => finish (engTake n (imemBase n + o) true t.op t.len t.data s)
  | .dmem n o => finish (engTake n (dmemBase n + o) false t.op t.len t.data s)
  | .fabric sec off =>
    if !s.flag Fld.stwSportCfgInEn sec || s.flag Fld.stwSecHoldDark sec then some (endInbound sec t s)
    else if s.freeTags sec = [] then none
    else
      let s := presentIn sec off t taken s
      some (if t.op.answered then s else delivered t Code.ok none s)
  | .nothing => some (delivered t Code.noTarget none s)

/-- A ring stopped in ERROR (R429, R472, R419), with the code that stopped it. -/
def ringError (n code : Nat) (s : State) : State :=
  (s.setFld Fld.rngStatState 5 n).setFld Fld.rngStatCode code n

/-- A contact sheet abandoned: what of it has not been issued is dropped (R472). -/
def abandonSheet (s : State) : State :=
  let s := { s with trans := s.trans.filter fun t => t.asker != Asker.sheet }
  (s.bump Fld.rngSheetStatSkipped).notice Code.sheetSkipped 0

/-- A host access handed to the host link in order (R438, R470). Without a link it ends: the ring of a record stops with
LINK_DOWN, a sheet is skipped (R419), and another access is ended as one whose target is gone. -/
def deliverHost (t : Trans) (s : State) : State :=
  if !s.flag Fld.rngLinkUp then
    match t.asker with
    | .record n => ringError n Code.linkDown s
    | .sheet => abandonSheet s
    | _ => delivered t Code.aborted none s
  else if t.op = .read then
    { s with hostOut := s.hostOut ++ [.read t.addr t.len t.port t.tag t.asker] }
  else delivered t Code.ok none { s with hostOut := s.hostOut ++ [.write t.addr t.data] }

/-! ### Translation faults of transactions (R472) -/

/-- What a translation fault of a transaction leads to. -/
def transFault (t : Trans) (code : Nat) (s : State) : State :=
  let s := s.xlFault code t.asid t.va t.master t.priv t.op.writes
  match t.asker with
  | .record n => ringError n Code.fetchFault s
  | .sheet => abandonSheet s
  | .port p =>
    if t.op.answered then s.putRsp ⟨p, t.tag, code, false, [], t.asker⟩ else (refusedAt p s).release p
  | _ => s

/-! ### Delivery (R215, R216, R224) -/

/-- Where a transaction goes, if that is known: its destination port (R208). -/
def transDest (t : Trans) : Option Nat :=
  match t.space with
  | .virt => none
  | .host => some (102 + t.port % 2)
  | .dev =>
    if t.op = .msg then
      some (if t.va < 0x300 then 90 + t.va / 64 else if t.va < 0x410 then 104 else if t.va < 0x1000 then 105 else t.va - 0x1000)
    else some (targetPort (targetOf t.addr))

/-- Must a transaction wait for one accepted before it at the same port? Earlier ones to the same destination go first,
and until an earlier one of the same master has been translated its destination is not known (R216). -/
def mustFollow (s : State) (earlier : List Trans) (t : Trans) : Bool :=
  let walking := s.wtu.walks.any fun x =>
    match x.who with
    | .trans u => u.master == t.master && t.op != .msg
    | _ => false
  walking || earlier.any fun u =>
    (u.port == t.port && transDest u == transDest t && (transDest t).isSome)
      || (u.master == t.master && u.space == .virt && t.op != .msg)

/-- The caches on a master's path (R468). -/
def masterCaches (m : Nat) : List Nat :=
  if m < 80 then fabricCaches m else if m < 176 then engineCaches (m - 80) else moverCaches (m - 176)

/-- A transaction with its address translated (R466): FAB_OFF comes in SPACE_OFF's place for a fabric master (R465), whose
space and privilege are those of this instant (R474). -/
def translateTrans (t : Trans) (s : State) : Trans × Xl :=
  if t.space ≠ .virt then (t, .ok t.space t.addr)
  else if t.master < 80 then
    let t := { t with asid := s.fld Fld.wtuFabAsid t.master, priv := s.fld Fld.wtuFabPriv t.master }
    if !s.flag Fld.wtuFabEn t.master then (t, .fault Code.fabOff)
    else (t, s.translate (masterCaches t.master) t.asid t.priv t.op t.va)
  else (t, s.translate (masterCaches t.master) t.asid t.priv t.op t.va)

/-- A translated transaction presented at its destination; `none` where it must wait. -/
def present (t : Trans) (taken : Bool) (s : State) : Option State :=
  match t.space with
  | .host => if s.sys.retraining then none else some (deliverHost t s)
  | _ => if t.op = .msg then deliverMsg t taken s else deliverDev t taken s

/-- Transaction k taken off the list. -/
def State.dropTrans (s : State) (k : Nat) : State := { s with trans := dropAt s.trans k }

/-- A transaction that must wait goes on waiting in its place, translated. -/
def State.keepTrans (s : State) (k : Nat) (t : Trans) : State := { s with trans := setAt s.trans k t }

/-- TRANSACTION_DELIVERY (R224): the k-th waiting transaction is translated if it has not been, and presented. -/
def deliver (k lost : Nat) (taken : Bool) (s : State) : State :=
  match s.trans[k]? with
  | none => s
  | some t =>
    match translateTrans t s with
    | (t, .fault code) =>
      if mustFollow s (s.trans.take k) t then s else transFault t code (s.dropTrans k)
    | (t, .miss) =>
      if mustFollow s (s.trans.take k) t then s
      else (s.dropTrans k).startWalk (.trans t) (masterCaches t.master) t.master t.asid t.priv t.op.writes t.va
    | (t, .ok space addr) =>
      let t := { t with space := space, addr := addr }
      if mustFollow s (s.trans.take k) t then s
      else match present t taken (s.dropTrans k) with
        | none => s.keepTrans k t
        | some s => lostContests t.master lost s

def execTransactionDelivery (k : Fin 2048) (lost : Fin 4) (taken : Bool) (s : State) : Out :=
  .next (deliver k.val lost.val taken s)

/-! ### Responses (R212, R228) -/

/-- A response given to its master: presented on OUT_RSP, or discarded and counted while the sector is dark; its pool
entry and TAG are free. -/
def spineRespond (k : Nat) (s : State) : State :=
  match s.rsps[k]? with
  | none => s
  | some r =>
    match r.asker with
    | .port p =>
      let s := { s with rsps := dropAt s.rsps k }
      let s := (s.release p).setPortTags p ((s.portTags p).erase r.tag)
      if s.flag Fld.stwSecHoldDark p then s.bump Fld.stwSportCntDiscard p
      else { s with spine := { s.spine with out := Tab.set [] s.spine.out p (rspWords r) } }
    | _ => s

/-- SPORT_TIMEOUT (R226): a request not taken, or not answered, within TIMEOUT is ended. -/
def sportTimeout (sec tag : Nat) (s : State) : State :=
  match s.spine.inbound.find? fun i => i.sector == sec && i.tag == tag with
  | none => s
  | some i =>
    let s := { s with spine := { s.spine with inbound := s.spine.inbound.erase i } }
    let s := s.bump Fld.stwSportCntTimeout sec
    if i.wants then s.putRsp ⟨i.port, i.mtag, Code.aborted, false, [], i.asker⟩ else s.bump Fld.stwSportCntDiscard sec

def execSportTimeout (sec : Fin 80) (tag : Byte) (s : State) : Out := .next (sportTimeout sec.val tag.toNat s)

/-- A sector enters the darkroom (R228): its port is drained and its requests answered. -/
def darkPort (sec : Nat) (s : State) : State :=
  let mine := s.spine.inbound.filter fun i => i.sector == sec
  let s := { s with spine := { s.spine with inbound := s.spine.inbound.filter fun i => i.sector != sec } }
  let s := mine.foldl (fun s i =>
    if i.wants then s.putRsp ⟨i.port, i.mtag, Code.aborted, false, [], i.asker⟩ else s.bump Fld.stwSportCntDiscard sec) s
  (s.setHeld sec []).setFlag Fld.stwSportStatDark true sec

/-! ### Registers (R231 to R235) -/

def sportCntClr (p : Nat) (s : State) : State := s.setReg Reg.stwSportCnt 0 p
def sportPeakClr (p : Nat) (s : State) : State := s.setFld Fld.stwSportStatPeak (s.fld Fld.stwSportStatInflight p) p
def spinePeakClr (s : State) : State := s.setFld Fld.stwSpineStatPeak (s.fld Fld.stwSpineStatInflight)

/-- SPORT_CNT_CLR (R232). -/
def execSportCntClr (w : Writer) (p : Fin 106) (s : State) : Out :=
  .next (s.linked w (Reg.stwSportCfg.addr p.val 0) (sportCntClr p.val))

/-- SPORT_PEAK_CLR (R233). -/
def execSportPeakClr (w : Writer) (p : Fin 106) (s : State) : Out :=
  .next (s.linked w (Reg.stwSportStat.addr p.val 0) (sportPeakClr p.val))

/-- SPINE_PEAK_CLR (R234). -/
def execSpinePeakClr (w : Writer) (s : State) : Out := .next (s.linked w Reg.stwSpineStat.base spinePeakClr)

/-- A write of STW_TOK_DEST[c] (R235). -/
def tokDestWrite (c : Nat) (v : W32) (s : State) : State :=
  if 79 < bitsW v 0 7 ∧ bitsW v 7 1 = 1 then s.accessError
  else s.setReg Reg.stwTokDest (Reg.stwTokDest.plain (s.reg Reg.stwTokDest c) (v.setWidth 64) false) c

/-- TOK_DEST_WRITE (R235). -/
def execTokDestWrite (w : Writer) (c : Fin 64) (v : W32) (s : State) : Out :=
  .next (s.linked w (Reg.stwTokDest.addr c.val 0) (tokDestWrite c.val v))

end Sys2Proof.Machine
end

