-- ==== Sys2Proof/Machine/EngineCore.lean ====
section
/-! DEFINITION. Engine contexts: registers, starting and stopping, faults and their delivery, accesses beyond the engine
and block transfers (08_motion_engines R331 to R356, 09_kell_instruction_set R364 to R366, R383, R406 to R412). -/

namespace Sys2Proof.Machine

/-! ### Registers and the program counter -/

/-- Register gr of a context. -/
def State.g (s : State) (n c r : Nat) : W64 := Tab.get 0 (s.ctx n c).g r

/-- Register gr of a context set. -/
def State.setG (s : State) (n c r : Nat) (v : W64) : State :=
  s.setCtx n c { s.ctx n c with g := Tab.set 0 (s.ctx n c).g r v }

/-- Registers from r on set to a list of words. -/
def setGs (n c : Nat) : Nat → List W64 → State → State
  | _, [], s => s
  | r, v :: vs, s => setGs n c (r + 1) vs (s.setG n c r v)

/-- The registers from r on. -/
def State.gs (s : State) (n c r k : Nat) : List W64 := (upFrom r k).map (s.g n c)

/-- The program counter of a context, a byte address in IMEM (R364). -/
def State.pc (s : State) (n c : Nat) : Nat := 8 * s.fld Fld.engCtxPcPc n c

/-- The program counter set; its low three bits are always 0. -/
def State.setPc (s : State) (n c a : Nat) : State := s.setFld Fld.engCtxPcPc (a / 8) n c

/-- The owner code of an engine (R338, R454). -/
def engOwner (n : Nat) : Nat := 0x10 + n

/-- Is a context at Supervisor privilege? (R338) -/
def State.ctxSuper (s : State) (n c : Nat) : Bool := s.flag Fld.engCtxCfgPriv n c

/-- ENG_CTX_STAT.PENDING as the accesses stand (R361). -/
def showPending (n c : Nat) (s : State) : State :=
  s.setFld Fld.engCtxStatPending ((s.ctx n c).accs.filter fun a => a.slot < 8).length n c

/-- The answers of a copy's reads ahead are no longer wanted (R387). -/
def dropCopies (n c : Nat) (s : State) : State :=
  let x := s.ctx n c
  s.setCtx n c { x with copied := none,
                        accs := x.accs.map fun a => if a.copy then { a with copy := false, count := 0 } else a }

/-- A context leaves the engine for another state: a long operation under way is abandoned, and reads ahead are dropped
(R334, R387). -/
def leaveEngine (n c st : Nat) (s : State) : State :=
  let s := dropCopies n c s
  (s.setCtx n c { s.ctx n c with long := false }).setCtxState n c st

/-- A context waits on a condition (R332, R392): a channel's, a timer's, or another. -/
def ctxWait (n c on ch : Nat) (t : W64) (s : State) : State :=
  let s := (leaveEngine n c 3 s).setFld Fld.engCtxStatWaitOn on n c
  s.setCtx n c { s.ctx n c with waitCh := ch, timer := t }

/-! ### Starting and stopping (R354) -/

/-- START on a context. A retired engine's contexts stay FAULTED (R327). -/
def ctxStart (n c : Nat) (s : State) : State :=
  if s.flag Fld.engStatRetired n then s
  else
    let ready (s : State) : State := (s.setCtxState n c 1).setCtx n c { s.ctx n c with wdogAt := s.now }
    match s.ctxState n c with
    | 0 => ready (s.setCtx n c { s.ctx n c with bundles := 0 })
    | 4 => ready s
    | 5 => ready ((s.setFlag Fld.engCtxStatFaultPend false n c).setFlag Fld.engCtxStatInHandler false n c)
    | 6 => s.setCtxState n c 7
    | _ => s

/-- STOP on a context. A stop that meets PEND takes its start back. -/
def ctxStop (n c : Nat) (s : State) : State :=
  match s.ctxState n c with
  | 1 => leaveEngine n c 4 s
  | 2 => s.setCtxState n c 6
  | 3 => leaveEngine n c 4 s
  | 7 => s.setCtxState n c 6
  | _ => s

/-! ### Faults (R351 to R353, R406 to R412) -/

/-- ENG_CTX_FAULT and ENG_CTX_FADDR written (R362). -/
def faultRecord (n c code pc : Nat) (second deferred : Bool) (addr : Nat) (s : State) : State :=
  let s := s.setReg Reg.engCtxFault (BitVec.ofNat 64 (code % 2 ^ 16 + pc % 2 ^ 15 * 2 ^ 16 + b2n second * 2 ^ 31
    + b2n deferred * 2 ^ 32 + 2 ^ 63)) n c
  s.setReg Reg.engCtxFaddr (BitVec.ofNat 64 (addr % 2 ^ 48)) n c

/-- A context stops on a fault; the notice ENG_FAULT is raised under NOTE_EN (R353). -/
def faultStop (n c : Nat) (s : State) : State :=
  (leaveEngine n c 5 s).noticeIf (s.flag Fld.engCtlNoteEn n) Code.engFault (4 * n + c)

/-- A recorded fault delivered (R353, R410, R412): FAULT_ACT decides, but a fault in the handler stops the context. -/
def deliverFault (n c : Nat) (s : State) : State :=
  if s.flag Fld.engCtxStatInHandler n c ∨ !s.flag Fld.engCtxCfgFaultAct n c then faultStop n c s
  else
    let x := s.ctx n c
    let s := dropCopies n c (s.setCtx n c { x with epc := s.pc n c })
    let s := (s.setFlag Fld.engCtxStatFaultPend false n c).setFlag Fld.engCtxStatInHandler true n c
    s.setPc n c (8 * s.fld Fld.engCtxVecHandler n c)

/-- A precise fault of the bundle at PC (R352, R406): recorded and delivered at once; in the handler it is a
DOUBLE_FAULT, which keeps the first record (R412). -/
def preciseFault (n c code : Nat) (second : Bool) (addr : Nat) (s : State) : State :=
  if s.flag Fld.engCtxStatInHandler n c then faultStop n c (s.setFlag Fld.engCtxFaultMulti true n c)
  else deliverFault n c (faultRecord n c code (s.pc n c) second false addr s)

/-- A fault charged to a context (R352, R409): recorded when it arrives, or MULTI where one is pending or being handled;
it ends a wait. -/
def chargeFault (n c code pc : Nat) (second : Bool) (addr : Nat) (s : State) : State :=
  let s := if s.flag Fld.engCtxStatFaultPend n c ∨ s.flag Fld.engCtxStatInHandler n c then
      s.setFlag Fld.engCtxFaultMulti true n c
    else faultRecord n c code pc second true addr s
  let s := s.setFlag Fld.engCtxStatFaultPend true n c
  if s.ctxState n c = 3 then (s.setCtxState n c 1).setCtx n c { s.ctx n c with wdogAt := s.now } else s

/-! ### What an operation comes to -/

/-- The outcome of operation 0 of a bundle: done, with the address control moves to if it transfers; one word of a copy
done and the bundle not finished (R387); a wait or a stall before issue (R383, R392); a fault. -/
inductive Res where
  | done (s : State) (pc : Option Nat)
  | again (s : State)
  | wait (s : State) (on ch : Nat) (t : W64)
  | hold (s : State)
  | fault (s : State) (code addr : Nat)

/-- A wait on an answer: WAITING on RESPONSE, or in place under STALL_RESP (R383). -/
def respWait (n c : Nat) (s : State) : Res :=
  if (s.ctx n c).stall then .hold s else .wait s 7 0 0

/-! ### Accesses beyond the engine (R349, R382 to R387) -/

/-- Has the context a walk under way? -/
def State.ctxWalks (s : State) (n c : Nat) : Bool :=
  s.wtu.walks.any fun w => match w.who with | .context m d => m == n && d == c | _ => false

/-- The lowest free place of a context's accesses from `k` on; places 0 to 7 are the counted ones. -/
def State.accSlot (s : State) (n c k : Nat) : Nat :=
  let used := (s.ctx n c).accs.map (·.slot)
  ((upFrom k (used.length + 1)).find? fun i => !used.contains i).getD k

/-- The access a context issues: the registers it leaves pending, the status register of a status form, and whether it is
a read of MCPY. -/
structure Want where
  dst   : Nat
  count : Nat
  stReg : Option Nat
  copy  : Bool

/-- An access of a context on its way (R349, R382): it holds a pool entry of the group port; one that is answered takes the lowest
free place of its kind and leaves its registers pending, a posted write is counted. -/
def issued (n c : Nat) (op : TOp) (va len : Nat) (data : List W64) (want : Option Want) (space : Space) (addr : Nat) (s : State) :
    State :=
  let x := s.ctx n c
  let p := 90 + n / 8
  let slot := s.accSlot n c (match want with | some a => if a.copy then 8 else 0 | none => 8)
  let s := (s.setFlag Fld.stwSportStatWaiting false p).occupy p
  let s := match want with
    | none => s.setCtx n c { x with posted := x.posted + 1 }
    | some a =>
      let acc : Acc := { slot := slot, copy := a.copy, dst := a.dst, count := a.count, stReg := a.stReg,
                         load := op != TOp.writeAck, pc := s.pc n c, second := false, addr := va }
      let marks := if a.copy then [] else regRange a.dst a.count ++ a.stReg.toList
      showPending n c (s.setCtx n c { x with accs := x.accs ++ [acc], pend := x.pend ++ marks })
  s.putTrans
    { port := p, master := 80 + n, owner := engOwner n, tag := slot, op := op, len := len, addr := addr, space := space,
      asid := s.fld Fld.engCtxCfgAsid n c, priv := s.fld Fld.engCtxCfgPriv n c, va := va, marked := false, data := data,
      asker := .context n c }

/-- An access issued by a context (R349, R382): its translation comes first, a miss waiting for the walk and a fault
precise; then room among the context's eight, if it is answered to registers, and in the group port (R218). `next` is
what follows in the same bundle. -/
def access (n c : Nat) (op : TOp) (va len : Nat) (data : List W64) (want : Option Want) (next : State → Res)
    (s : State) : Res :=
  let x := s.ctx n c
  let asid := s.fld Fld.engCtxCfgAsid n c
  let priv := s.fld Fld.engCtxCfgPriv n c
  let counted := match want with | some a => !a.copy | none => false
  if va % 8 ≠ 0 then .fault s Code.misaligned va
  else match s.translate (engineCaches n) asid priv op va with
    | .fault code => .fault (s.xlFault code asid va (80 + n) priv op.writes) code va
    | .miss =>
      respWait n c (if s.ctxWalks n c then s
        else s.startWalk (.context n c) (engineCaches n) (80 + n) asid priv op.writes va)
    | .ok space addr =>
      let p := 90 + n / 8
      if counted && 8 ≤ (x.accs.filter fun a => a.slot < 8).length then respWait n c s
      else if !s.poolRoom p then
        .hold (if s.flag Fld.stwSportStatWaiting p then s
          else (s.bump Fld.stwSportCntPoolWait p).setFlag Fld.stwSportStatWaiting true p)
      else
        next (issued n c op va len data want space addr s)

/-- ACCESS_RESPONSE (R349, R351, R383): the registers of the answered access are written and no longer pending; a status
other than OK is charged, or goes to the status register, or to the copy that reads ahead. -/
def accessResponse (k : Nat) (s : State) : State :=
  match s.rsps[k]? with
  | none => s
  | some r =>
    match r.asker with
    | .context n c =>
      let s := ({ s with rsps := dropAt s.rsps k }).release r.port
      let x := s.ctx n c
      match x.accs.find? fun a => a.slot == r.tag with
      | none => s
      | some a =>
        let x := { x with accs := x.accs.erase a }
        if a.copy then s.setCtx n c { x with copied := some (r.status, if r.hasData then r.data[0]? else none) }
        else
          let marks := regRange a.dst a.count ++ a.stReg.toList
          let s := showPending n c (s.setCtx n c { x with pend := x.pend.filter fun g => !marks.contains g })
          let s := if r.hasData then setGs n c a.dst (r.data.take a.count) s else s
          let s := match a.stReg with
            | some g => s.setG n c g (BitVec.ofNat 64 (r.status % 2 ^ 16))
            | none => if r.status = Code.ok ∨ a.slot ≥ 8 then s else chargeFault n c r.status a.pc a.second a.addr s
          s.wakeCtx n c 7
    | _ => s

/-! ### Block transfers (R350, R402) -/

/-- The job of a context's transfer. -/
def ctxJob (n c : Nat) : Nat := 64 + 4 * n + c

/-- A job. -/
def State.job (s : State) (j : Nat) : Job := Tab.get {} s.jobs j

/-- A job set. -/
def State.setJob (s : State) (j : Nat) (x : Job) : State := { s with jobs := Tab.set {} s.jobs j x }

/-- What an asker asked for and has not had is no longer wanted. -/
def State.orphan (s : State) (a : Asker) : State :=
  let keep (b : Asker) : Asker := if b == a then .none else b
  { s with
    hostOut := s.hostOut.map fun o =>
      match o with
      | .read ad k p t b => .read ad k p t (keep b)
      | o => o
    rsps := s.rsps.map fun r => { r with asker := keep r.asker }
    spine := { s.spine with inbound := s.spine.inbound.map fun i => { i with asker := keep i.asker } } }

/-- A context's transfer ends with a status and its bytes done; XFER holds (R350, R402). -/
def endXfer (n c status : Nat) (s : State) : State :=
  let x := s.ctx n c
  let s := s.setCtx n c { x with xfer := { x.xfer with st := 3, status := status, done := (s.job (ctxJob n c)).done } }
  ((s.setJob (ctxJob n c) {}).orphan (.mover (ctxJob n c))).wakeCtx n c 6

/-- A transfer ended by ABORT (R402). -/
def abortXfer (n c : Nat) (s : State) : State :=
  let st := (s.ctx n c).xfer.st
  if st = 1 ∨ st = 2 then endXfer n c Code.aborted s else s

/-- A stalled transfer resumed (R402). -/
def resumeXfer (n c : Nat) (s : State) : State :=
  let x := s.ctx n c
  if x.xfer.st = 2 then s.setCtx n c { x with xfer := { x.xfer with st := 1 } } else s

/-- The word STATUS gives (R402). -/
def xferWord (n c : Nat) (s : State) : W64 :=
  let f := (s.ctx n c).xfer
  let done := if f.st = 1 ∨ f.st = 2 then (s.job (ctxJob n c)).done else f.done
  BitVec.ofNat 64 (f.st + f.status % 2 ^ 16 * 2 ^ 16 + done % 2 ^ 32 * 2 ^ 32)

end Sys2Proof.Machine
end

