-- ==== Sys2Proof/Machine/TbCore.lean ====
section
/-! DEFINITION. The shared operations of the timebases: faults, counts, measurements, software writes, the estimator,
gearing, enabling and stopping (02_timebases R45 to R92). -/

namespace Sys2Proof.Machine

/-! ### Faults (R79 to R84) -/

/-- Is a fault of the STOP class active? -/
def State.tbStopped (s : State) (n : Nat) : Bool :=
  let a := s.fld Fld.tbFaultActive n
  bitOf a 0 || bitOf a 4 || bitOf a 5

/-- The STOP class begins: the last good publication and the count are kept, and STOP_ACT takes effect (R80, R82). -/
def stopBegins (n bit : Nat) (s : State) : State :=
  let s := s.setTb n { s.tb n with
    coastAt := s.now, goodP := s.reg Reg.tbPos n, goodV := s.reg Reg.tbVel n
    goodAt := (s.reg Reg.tbStamp n).toNat * 32, failed := false, heldCount := (s.tb n).count }
  match s.fld Fld.tbCfgStopAct n with
  | 1 => s.setFlag Fld.tbStatCoasting true n
  | 2 => endTimebase n (Code.sigLoss + bit) (s.setFlag Fld.tbStatHeld true n)
  | _ => holdTimebase n (s.setFlag Fld.tbStatHeld true n)

/-- A fault raised on a timebase that is not OFF: bit, cause (R79, R84, R96, R100). -/
def raiseFault (n bit cause : Nat) (s : State) : State :=
  if s.fld Fld.tbStatState n = 0 then s
  else
    let h := s.tb n
    let act := s.fld Fld.tbFaultActive n
    let wasStop := s.tbStopped n
    let latched := s.fld Fld.tbFaultLatched n
    let s := s.setTb n { h with seen := h.seen ||| 2 ^ bit, absent := h.absent.set bit 0 }
    let s := (s.setFld Fld.tbFaultActive (act ||| 2 ^ bit) n).setFld Fld.tbFaultLatched (latched ||| 2 ^ bit) n
    let s := (s.setFld Fld.tbStatCause cause n).setFld Fld.tbStatLastCode (Code.sigLoss + bit) n
    let s := s.noticeIf (s.flag Fld.tbCfgNoteEn n && !bitOf latched bit) (Code.sigLoss + bit) n
    if bitOf act bit then s
    else if stopClass bit then (if wasStop then s else stopBegins n bit s)
    else if s.flag Fld.tbCfgSuspectAct n then endTimebase n (Code.sigLoss + bit) s
    else s

/-- The fault a cause belongs to (R79, R96); cause 0 stands for AMP_RANGE, which has none. -/
def causeFault (c : Nat) : Nat :=
  if c = 0 then 1
  else if c ≤ 4 then 2
  else if c ≤ 8 then 0
  else if c ≤ 10 then 3
  else if c ≤ 13 then 4
  else 5

/-- The condition of a cause begins or ends (R82); its fault is raised when it begins. -/
def lasting (n cause : Nat) (on : Bool) (s : State) : State :=
  let h := s.tb n
  if on then
    if bitOf h.stuck cause then s
    else raiseFault n (causeFault cause) cause (s.setTb n { h with stuck := h.stuck ||| 2 ^ cause })
  else s.setTb n { h with stuck := h.stuck &&& (2 ^ 16 - 1 - 2 ^ cause) }

/-- The faults whose condition was seen since the last update or lasts. -/
def TbHid.present (h : TbHid) : Nat :=
  (upFrom 0 16).foldl (fun m c => if bitOf h.stuck c then m ||| 2 ^ causeFault c else m) h.seen

/-- LOST_EDGES raised by `k` (R54). -/
def lostEdges (n k : Nat) (s : State) : State := s.bump Fld.tbErrcntLostEdges n 0 k

/-! ### Measurements -/

/-- One count of a source in 2^-24 counts. -/
def oneCount : Int := 2 ^ 24

/-- The sign DIR_INV gives counts (R48). -/
def State.tbSign (s : State) (n : Nat) : Int := if s.flag Fld.tbCfgDirInv n then -1 else 1

/-- `k` source counts taken at an instant: the count moves and stands as a measurement (R51, R76). -/
def takeCounts (n : Nat) (k : Int) (t : Nat) (s : State) : State :=
  let h := s.tb n
  let c := h.count + k * s.tbSign n * oneCount
  s.setTb n { h with count := c, taken := h.taken + k, meas := h.meas ++ [⟨c, t⟩] }

/-- Is timebase n one that the wake logic counts in DARK: a wake timebase whose source is QUAD or PULSE_DIR? (R635) -/
def State.wakeTb (s : State) (n : Nat) : Bool :=
  (upFrom 0 2).any (fun j => bitOf (s.fld Fld.pwrWakeTbEn) j && s.fld Fld.pwrWakeTbTb j == n)
    && (s.fld Fld.tbCfgSrc n == 1 || s.fld Fld.tbCfgSrc n == 5)

/-- Does an enabled timebase take source `src`? In DARK only the wake logic counts (R635, R636). -/
def State.tbTakes (s : State) (n src : Nat) : Bool :=
  s.fld Fld.tbStatState n != 0 && s.fld Fld.tbCfgSrc n == src && (!s.pwr.dark || s.wakeTb n)

/-- The delay of the glitch filter (R52): 0, 5, 10 or 20 ns. -/
def filterDelay (f : Nat) : Nat := if f = 0 then 0 else if f = 1 then 400 else if f = 2 then 800 else 1600

/-- A shift of the position and of everything measured with it (R56, R90). -/
def TbHid.shifted (h : TbHid) (d : Int) : TbHid :=
  { h with
    p := h.p + d, count := h.count + d, heldCount := h.heldCount + d
    meas := h.meas.map fun m => { m with x := m.x + d }
    write := h.write.map fun w => { w with p := w.p + d }
    gearAcc := h.gearAcc + d * h.gearDen, goodP := h.goodP + wOfInt d }

/-! ### The estimator (R76, R705). `k` counts the rounding bits taken. -/

/-- A signed 64-bit value, wrapped (R47). -/
def wrap64 (v : Int) : Int := (wOfInt v).toInt

/-- The state propagated to an instant. -/
def propagate (h : TbHid) (t k : Nat) : TbHid × Nat :=
  let d : Int := (t : Int) - h.reached
  ({ h with
      p := wrap64 (extrapolate h.p h.v h.a d (Config.freeBit k))
      v := wrap64 (extrapolateV h.v h.a d (Config.freeBit (k + 1)))
      reached := t }, k + 2)

/-- The state corrected by an innovation; an innovation of 0 corrects nothing. -/
def correct (bw : Nat) (h : TbHid) (e : Int) : TbHid :=
  let d := h.reached - h.corrAt
  if e = 0 then { h with corrAt := h.reached }
  else { h with
    p := wrap64 (Config.correctP bw h.p h.v h.a e d)
    v := wrap64 (Config.correctV bw h.p h.v h.a e d)
    a := wrap64 (Config.correctA bw h.p h.v h.a e d)
    corrAt := h.reached }

/-- The difference of two positions held as integers (R47). -/
def intDiff (a b : Int) : Int := posDiff (wOfInt a) (wOfInt b)

/-- One measurement applied: the state, the rounding count, and whether an innovation passed its limit (R76, R705,
R79). -/
def applyMeas (bw imax : Nat) (q : TbHid × Nat × Bool) (m : Meas) : TbHid × Nat × Bool :=
  let (h, k, far) := q
  let (h, k, ref) := if h.reached ≤ m.t then
      let (h, k) := propagate h m.t k
      (h, k, h.p)
    else (h, k + 1, extrapolate h.p h.v h.a ((m.t : Int) - h.reached) (Config.freeBit k))
  let e := intDiff m.x ref
  (correct bw h e, k, far || (imax != 0 && decide (imax * oneCount < e.natAbs)))

/-- A measurement put in its place by stamp, after those of the same stamp. -/
def insertMeas (m : Meas) : List Meas → List Meas
  | [] => [m]
  | x :: t => if m.t < x.t then m :: x :: t else x :: insertMeas m t

/-- Measurements in stamp order. -/
def sortMeas (l : List Meas) : List Meas := l.foldl (fun acc m => insertMeas m acc) []

/-- The clamp of QUAD and PULSE_DIR into (n − 1, n + 1), with the boundary as a measurement where it acted (R76). -/
def clampCount (bw : Nat) (h : TbHid) : TbHid :=
  let lo := h.count - oneCount
  let hi := h.count + oneCount
  let d := intDiff h.p h.count
  if d ≤ -oneCount then
    let g := correct bw h (intDiff lo h.p)
    if intDiff g.p h.count ≤ -oneCount then { g with p := wrap64 (lo + 1) } else g
  else if oneCount ≤ d then
    let g := correct bw h (intDiff hi h.p)
    if oneCount ≤ intDiff g.p h.count then { g with p := wrap64 (hi - 1) } else g
  else h

/-! ### Software writes (R69, R70) -/

/-- Writes in stamp order; of two with one stamp the later stays. -/
def insertWrite (w : SoftWrite) : List SoftWrite → List SoftWrite
  | [] => [w]
  | x :: t => if w.t = x.t then w :: t else if w.t < x.t then w :: x :: t else x :: insertWrite w t

/-- A software write to timebase n stamped at an instant: OK or STALE_WRITE. -/
def takeWrite (n : Nat) (w : SoftWrite) (s : State) : State × Nat :=
  let h := s.tb n
  let stale := match h.write with | some x => decide (w.t < x.t) | none => false
  if stale then (s, Code.staleWrite)
  else (s.setTb n { h with queued := insertWrite w h.queued }, Code.ok)

/-- A timebase write by a ring or an engine (R69, R70): stamp 0 is the arrival tick; an invalid velocity or
acceleration is taken as 0. -/
def tbWrite (n : Nat) (stamp p v a : W64) (vOk aOk : Bool) (s : State) : State × Nat :=
  if s.fld Fld.tbCfgSrc n ≠ 7 then (s, Code.notSoftware)
  else if s.fld Fld.tbStatState n = 0 then (s, Code.ok)
  else takeWrite n ⟨if stamp = 0 then s.dt.toNat * 32 else stamp.toNat * 32, sInt p, if vOk then sInt v else 0,
    if aOk then sInt a else 0⟩ s

/-- The writes due by an instant, and those that wait for a later update. -/
def dueWrites (t : Nat) (l : List SoftWrite) : List SoftWrite × List SoftWrite :=
  (l.filter fun w => w.t ≤ t, l.filter fun w => !(w.t ≤ t))

/-! ### Enabling and stopping (R74, R75, R89 to R91) -/

/-- A chain of masters followed from timebase n: the timebases met, or none where one is met twice (R74). -/
def gearChain (s : State) : Nat → List Nat → Nat → Option (List Nat)
  | 0, _, _ => none
  | k + 1, met, n =>
    if met.contains n then none
    else if s.fld Fld.tbCfgSrc n = 9 then gearChain s k (n :: met) (s.fld Fld.tbCfgMaster n)
    else some (n :: met)

/-- How many geared links stand between a timebase and its first ungeared master. -/
def gearDepth (s : State) (n : Nat) : Nat :=
  match gearChain s 33 [] n with
  | some l => l.length - 1
  | none => 33

/-- What refuses an enable (R49, R50, R74, R75, R77, R80, R98); 0 if nothing does. The values of the registers were
judged when they were written; SRC NONE and the checks of the chain and the port are made here. -/
def enableCheck (s : State) (n : Nat) : Nat :=
  let src := s.fld Fld.tbCfgSrc n
  if src = 0 ∨ 10 ≤ src then Code.badSrc
  else if src = 3 ∨ src = 4 then
    let m := s.fld Fld.tbSrcIn1 n
    if m < 144 ∧ s.fld Fld.pinMuxFnA m = 5 ∧ s.fld Fld.pinMuxSelA m = n then 0 else Code.portMismatch
  else if src = 9 then
    if s.fld Fld.tbGearDenValue n = 0 then Code.badSrc
    else match gearChain s 33 [] n with
      | none => Code.gearLoop
      | some l => if 5 < l.length then Code.gearDepth else 0
  else 0

/-- Division to the nearest integer, ties to even, by a positive number (R73). -/
def divEven (a : Int) (b : Nat) : Int :=
  let q := Int.fdiv a b
  let r := Int.fmod a b
  if 2 * r < b then q else if (b : Int) < 2 * r then q + 1 else if q % 2 = 0 then q else q + 1

/-- The held ratio and offset applied (R75). -/
def applyGear (s : State) (n : Nat) : State :=
  s.setTb n { s.tb n with
    gearNum := signed 32 (s.fld Fld.tbGearNumValue n), gearDen := s.fld Fld.tbGearDenValue n
    gearOfs := sInt (s.reg Reg.tbGearOfs n) }

/-- The geared position as at enable: OFS + POS_m × NUM / DEN (R73). -/
def gearSet (s : State) (n : Nat) : State :=
  let m := s.reg Reg.tbPos (s.fld Fld.tbCfgMaster n)
  let h := s.tb n
  s.setTb n { h with gearAcc := h.gearOfs * h.gearDen + sInt m * h.gearNum, masterPos := m, gearInit := false }

/-- Is a field port that timebase n's source reads a differential one with LINE_FAULT set? (R57, R653) -/
def State.tbOpen (s : State) (n : Nat) : Bool :=
  let a := s.fld Fld.tbSrcIn0 n
  let b := s.fld Fld.tbSrcIn1 n
  let ports := match s.fld Fld.tbCfgSrc n with
    | 1 => [a, b] ++ (if s.flag Fld.tbSrcIndexEn n then [s.fld Fld.tbSrcIn2 n] else [])
    | 3 => [a]
    | 4 => [a]
    | 5 => [a, b]
    | _ => []
  ports.any fun p => s.flag Fld.pinStatLineFault p

/-- A timebase starts from OFF: position at TB_PRESET or as geared, velocity and acceleration 0, REF 0 (R89). -/
def startTimebase (n : Nat) (s : State) : State :=
  let p := sInt (s.reg Reg.tbPreset n)
  let old := s.tb n
  let s := s.setTb n {
    p := p, count := p, reached := s.now, corrAt := s.now, sinceAt := s.now, calAt := old.calAt,
    prevPos := s.reg Reg.tbPos n, expSeq := old.expSeq,
    needInit := s.fld Fld.tbCfgSrc n == 3 || s.fld Fld.tbCfgSrc n == 4, gearInit := true, jumped := true }
  let s := if s.fld Fld.tbCfgSrc n = 9 then gearSet (applyGear s n) n else s
  let s := ((s.setFld Fld.tbStatState 1 n).setFlag Fld.tbStatRef false n).setFld Fld.tbFaultActive 0 n
  let s := ((s.setFlag Fld.tbStatCoasting false n).setFlag Fld.tbStatHeld false n).setFlag Fld.tbStatInherited false n
  if s.tbOpen n then lasting n 5 true s else s

/-- The stop completes at an update: the events tied to the timebase complete with TB_DISABLED and STATE becomes OFF;
an EN written meanwhile starts it again (R91, R16). -/
def stopTimebase (n : Nat) (s : State) : State :=
  let again := s.fld Fld.tbStatState n == 3
  let s := endTimebase n Code.tbDisabled s
  let s := (s.setFld Fld.tbStatState 0 n).setFld Fld.tbFaultActive 0 n
  let s := ((s.setFlag Fld.tbStatCoasting false n).setFlag Fld.tbStatHeld false n).setFlag Fld.tbStatInherited false n
  if again then startTimebase n s else s

end Sys2Proof.Machine
end

