-- ==== Sys2Proof/Machine/EngineOps.lean ====
section
/-! DEFINITION. Operation 0 of a bundle, where it is none of those that may stand in either place: the local and translated
memory operations, MCPY, control flow, waits, the engine's ports, block transfers and the system operations
(09_kell_instruction_set R380 to R405). -/

namespace Sys2Proof.Machine

/-! ### The engine's own memories (R380, R381, R386) -/

/-- The bytes of a local access's size code. -/
def szBytes (sz : Nat) : Nat := 2 ^ (sz / 2)

/-- A loaded value of a size code, from its word and its byte within it. -/
def loadValue (sz : Nat) (v : W64) (byte : Nat) : W64 :=
  let k := 8 * szBytes sz
  let raw := bitsW v (8 * byte) k
  if sz % 2 = 1 ∨ sz = 6 then BitVec.ofNat 64 raw else wOfInt (signed k raw)

/-- The fault of a local range of `k` bytes at `a`, words or bytes aligned to `al`; none where it is allowed. -/
def localFault (a al k : Nat) : Option Nat :=
  if a % al ≠ 0 then some Code.misaligned else if 0x10000 < a + k then some Code.localRange else none

/-- Words read from DMEM in order, and whether any is uncorrectable. -/
def dmemReads (n : Nat) : Nat → Nat → State → State × List W64 × Bool
  | _, 0, s => (s, [], false)
  | a, k + 1, s =>
    let (s, v, bad) := engRead n (dmemBase n + a) s
    let (s, vs, bads) := dmemReads n (a + 8) k s
    (s, v :: vs, bad || bads)

/-- Words written to DMEM in order. -/
def dmemWrites (n : Nat) : Nat → List W64 → State → State
  | _, [], s => s
  | a, v :: vs, s => dmemWrites n (a + 8) vs (engWrite (dmemBase n + a) v 255 s)

/-- LDL (R380). -/
def opLdl (n c : Nat) (w : W32) (s : State) : Res :=
  let sz := opSz w
  let a := (s.g n c (opRa w) + wOfInt (opOff w)).toNat
  match localFault a (szBytes sz) (szBytes sz) with
  | some code => .fault s code a
  | none =>
    let (s, v, bad) := engRead n (dmemBase n + a / 8 * 8) s
    if bad then .fault s Code.localEcc a else .done (s.setG n c (opRd w) (loadValue sz v (a % 8))) none

/-- STL (R380): a store below 64 bits reads the word first. -/
def opStl (n c : Nat) (w : W32) (s : State) : Res :=
  let sz := opSz w
  let a := (s.g n c (opRa w) + wOfInt (opOff w)).toNat
  match localFault a (szBytes sz) (szBytes sz) with
  | some code => .fault s code a
  | none =>
    let d := s.g n c (opRd w)
    let s := if sz = 6 then s else (engRead n (dmemBase n + a / 8 * 8) s).1
    .done (engWrite (dmemBase n + a / 8 * 8) (d <<< (8 * (a % 8))) ((2 ^ szBytes sz - 1) * 2 ^ (a % 8)) s) none

/-- LDML and STML (R381). -/
def opLdml (n c : Nat) (w : W32) (s : State) : Res :=
  let a := (s.g n c (opRa w) + wOfInt (opOff w)).toNat
  match localFault a 8 (8 * opN w) with
  | some code => .fault s code a
  | none =>
    let (s, vs, bad) := dmemReads n a (opN w) s
    if bad then .fault s Code.localEcc a else .done (setGs n c (opRd w) vs s) none

def opStml (n c : Nat) (w : W32) (s : State) : Res :=
  let a := (s.g n c (opRa w) + wOfInt (opOff w)).toNat
  match localFault a 8 (8 * opN w) with
  | some code => .fault s code a
  | none => .done (dmemWrites n a (s.gs n c (opRd w) (opN w)) s) none

/-! ### Translated memory (R382 to R386) -/

/-- The device-virtual address of a load or store, kept to 64 bits. -/
def memAddr (n c : Nat) (w : W32) (s : State) : Nat := (s.g n c (opRa w) + wOfInt (opOff w)).toNat

/-- LD and ST (R384). -/
def opLd (n c : Nat) (w : W32) (s : State) : Res :=
  access n c .read (memAddr n c w s) 1 [] (some ⟨opRd w, 1, if opS w then some (opRd w + 1) else none, false⟩)
    (fun s => .done s none) s

def opSt (n c : Nat) (w : W32) (s : State) : Res :=
  let d := s.g n c (opRd w)
  if opS w then
    access n c .writeAck (memAddr n c w s) 1 [d] (some ⟨0, 0, some (opRd w + 1), false⟩) (fun s => .done s none) s
  else access n c .write (memAddr n c w s) 1 [d] none (fun s => .done s none) s

/-- LDM and STM (R385): all within one 64-byte line. -/
def opLdm (n c : Nat) (w : W32) (s : State) : Res :=
  let a := memAddr n c w s
  if 64 < a % 64 + 8 * opN w then .fault s Code.misaligned a
  else access n c .read a (opN w) [] (some ⟨opRd w, opN w, none, false⟩) (fun s => .done s none) s

def opStm (n c : Nat) (w : W32) (s : State) : Res :=
  let a := memAddr n c w s
  if 64 < a % 64 + 8 * opN w then .fault s Code.misaligned a
  else access n c .write a (opN w) (s.gs n c (opRd w) (opN w)) none (fun s => .done s none) s

/-- ATOM (R386), of operation ADD or SWAP. -/
def opAtom (n c : Nat) (swap : Bool) (w : W32) (s : State) : Res :=
  let a := (s.g n c (opRa w)).toNat
  let b := s.g n c (opRb w)
  if bitsW w 2 1 = 1 then
    match localFault a 8 8 with
    | some code => .fault s code a
    | none =>
      let (s, v, bad) := engRead n (dmemBase n + a) s
      if bad then .fault s Code.localEcc a
      else .done ((engWrite (dmemBase n + a) (if swap then b else v + b) 255 s).setG n c (opRd w) v) none
  else
    access n c (if swap then .swap else .add) a 1 [b]
      (some ⟨opRd w, 1, if bitsW w 1 1 = 1 then some (opRd w + 1) else none, false⟩) (fun s => .done s none) s

/-! ### MCPY (R387) -/

/-- After a word is written: the registers count it, and the copy ends with its last word. -/
def copyNext (n c : Nat) (w : W32) (s : State) : Res :=
  let s := s.setCtx n c { s.ctx n c with copied := none }
  let s := s.setG n c (opRa w) (s.g n c (opRa w) + 8)
  let s := s.setG n c (opRb w) (s.g n c (opRb w) + 8)
  let s := s.setG n c (opRd w) (s.g n c (opRd w) - 1)
  if s.g n c (opRd w) = 0 then .done s none else .again s

/-- A word written at the destination. -/
def copyWrite (n c : Nat) (w : W32) (v : W64) (s : State) : Res :=
  let a := (s.g n c (opRb w)).toNat
  if bitsW w 1 1 = 1 then
    match localFault a 8 8 with
    | some code => .fault s code a
    | none => copyNext n c w (engWrite (dmemBase n + a) v 255 s)
  else access n c .write a 1 [v] none (copyNext n c w) s

/-- One word of a copy: a translated source is read first, and the copy stays in place until the answer comes; an
answer other than OK faults at its word. -/
def opMcpy (n c : Nat) (w : W32) (s : State) : Res :=
  let a := (s.g n c (opRa w)).toNat
  let x := s.ctx n c
  if s.g n c (opRd w) = 0 then .done s none
  else if bitsW w 0 1 = 1 then
    match localFault a 8 8 with
    | some code => .fault s code a
    | none =>
      let (s, v, bad) := engRead n (dmemBase n + a) s
      if bad then .fault s Code.localEcc a else copyWrite n c w v s
  else match x.copied with
    | some (status, v) =>
      if status ≠ Code.ok then .fault (s.setCtx n c { x with copied := none }) status a
      else copyWrite n c w (v.getD 0) s
    | none =>
      if x.accs.any (·.copy) then .hold s
      else access n c .read a 1 [] (some ⟨0, 0, none, true⟩) .again s

/-! ### Control flow (R389 to R391) -/

/-- Does a branch, call, jump or return move control away? -/
def transfers (m : Mn) (a b : W64) : Bool :=
  match m with
  | .br | .call | .jr | .rfh => true
  | .beq => a == b
  | .bne => a != b
  | .blt => a.slt b
  | .bge => !a.slt b
  | .bltu => a.ult b
  | .bgeu => !a.ult b
  | .bz => a == 0
  | .bnz => a != 0
  | _ => false

/-- Control moved to an address, or the fault of R390. -/
def jumpTo (a : Int) (s : State) : Res :=
  if a < 0 ∨ 0x7FF8 < a then .fault s Code.localRange 0 else .done s (some a.toNat)

/-- The offset of a branch or call in bytes. -/
def branchOff (w : W32) : Int := 8 * opSImm w

/-- A conditional branch. -/
def opBranch (n c : Nat) (m : Mn) (w : W32) (s : State) : Res :=
  if transfers m (s.g n c (opBa w)) (s.g n c (opBb w)) then jumpTo ((s.pc n c : Int) + branchOff w) s else .done s none

/-- A jump's result after its link register is written. -/
def linked (n c rd : Nat) (r : Res) : Res :=
  match r with
  | .done s pc => .done (s.setG n c rd (BitVec.ofNat 64 (s.pc n c + 8))) pc
  | r => r

/-- JR (R390). -/
def opJr (n c : Nat) (w : W32) (s : State) : Res :=
  let a := (s.g n c (opRa w)).toNat
  if a % 8 ≠ 0 then .fault s Code.misaligned 0
  else if bitsW w 0 1 = 1 then linked n c (opRd w) (jumpTo (a : Int) s) else jumpTo (a : Int) s

/-! ### Channels (R340, R341, R393, R394) -/

/-- The tokens of output channel k, with their destinations. -/
def State.outCh (s : State) (n k : Nat) : List (Nat × W64) := Tab.get [] (s.eng n).och k

/-- An output channel's tokens set. -/
def State.setOutCh (s : State) (n k : Nat) (l : List (Nat × W64)) : State :=
  s.setEng n { s.eng n with och := Tab.set [] (s.eng n).och k l }

/-- The context's wake taken: its value, WAKE_PEND cleared (R346). -/
def takeWake (n c : Nat) (s : State) : State × Nat :=
  ((s.setFlag Fld.engCtxWakePend false n c).setFlag Fld.engCtxStatWakePend false n c, s.fld Fld.engCtxWakeValue n c)

/-- The outcome of a wait whose condition holds or not. -/
def waitOn (holds : Bool) (on ch : Nat) (t : W64) (s : State) : Res := if holds then .done s none else .wait s on ch t

/-- RECV (R394). -/
def opRecv (n c : Nat) (w : W32) (s : State) : Res :=
  let k := bitsW w 0 3
  match s.inCh n k with
  | [] => .wait s 1 k 0
  | v :: rest =>
    let e := s.eng n
    .done ((showInputs n (s.setEng n { e with ich := Tab.set [] e.ich k rest })).setG n c (opRd w) v) none

/-- SEND (R340, R394). -/
def opSend (n c : Nat) (w : W32) (s : State) : Res :=
  let k := bitsW w 0 3
  let status (code : Nat) (s : State) : Res := .done (s.setG n c (opRd w) (BitVec.ofNat 64 code)) none
  if !s.flag Fld.engOchDestBound n k then status Code.chanNotBound s
  else if 4 ≤ (s.outCh n k).length then
    if bitsW w 3 1 = 1 then status Code.chanFull s else .wait s 2 k 0
  else status Code.ok (s.setOutCh n k (s.outCh n k ++ [(s.fld Fld.engOchDestTarget n k, s.g n c (opRa w))]))

/-- CHAV's word (R394). -/
def chavWord (n : Nat) (s : State) : W64 :=
  BitVec.ofNat 64 ((upFrom 0 8).foldl (fun v k => v + b2n ((s.inCh n k) != []) * 2 ^ k
    + b2n (decide ((s.outCh n k).length < 4)) * 2 ^ (8 + k) + b2n (s.flag Fld.engOchDestBound n k) * 2 ^ (16 + k)) 0)

/-! ### Timebases, events and queues (R395 to R398) -/

/-- The words of one timebase in a snapshot. -/
def snapWords (tb : Nat) (s : State) : List W64 :=
  [s.reg Reg.tbPos tb, s.reg Reg.tbVel tb, s.reg Reg.tbAcc tb, s.reg Reg.tbStat tb]

/-- SNAP (R395): the latest update's copies under its stamp. -/
def opSnap (n c : Nat) (w : W32) (s : State) : Res :=
  let a := s.g n c (opRa w)
  let ws := (upFrom 0 (snapN w)).foldl (fun ws i => ws ++ snapWords (bitsW a (8 * i) 5) s)
    [BitVec.ofNat 64 (s.dt.toNat / 250 * 250)]
  .done (setGs n c (opRd w) ws s) none

/-- TBW (R396). -/
def opTbw (n c : Nat) (w : W32) (s : State) : Res :=
  let a := s.g n c (opRa w)
  let r (i : Nat) : W64 := s.g n c (opRb w + i)
  let (s, status) := tbWrite (bitsW a 0 5) (r 3) (r 0) (r 1) (r 2) (bitOf a.toNat 8) (bitOf a.toNat 9) s
  .done (s.setG n c (opRd w) (BitVec.ofNat 64 status)) none

/-- EVSET and EVCAN (R397). -/
def opEvset (n c : Nat) (w : W32) (s : State) : Res :=
  let r (i : Nat) : W64 := s.g n c (opRa w + i)
  let reply (status slot : Nat) : W64 := replyWord s status slot
  let (s, status, slot) := armEvent (.context n c) (engOwner n) (r 0) (r 1) (r 2) (r 3) s
  .done (s.setG n c (opRd w) (reply status slot)) none

def opEvcan (n c : Nat) (w : W32) (s : State) : Res :=
  let slot := bitsW (s.g n c (opRa w)) 0 12
  let (s, status) := cancelBy (.context n c) slot s
  .done (s.setG n c (opRd w) (replyWord s status slot)) none

/-- TKWAKE (R398). -/
def opTkwake (n c : Nat) (w : W32) (s : State) : Res :=
  if s.flag Fld.engCtxStatWakePend n c then
    let (s, v) := takeWake n c s
    .done (s.setG n c (opRd w) (BitVec.ofNat 64 (v + 2 ^ 63))) none
  else .done (s.setG n c (opRd w) 0) none

/-- Is a context's completion queue empty or disabled? -/
def State.evqEmpty (s : State) (n c : Nat) : Bool := !s.flag Fld.engCtxEvqEn n c || s.evqHeld n c == 0

/-- EVQ HEAD and POP (R398). -/
def opEvqHead (n c : Nat) (w : W32) (s : State) : Res :=
  let off := s.fld Fld.engCtxEvqBase n c * 32
    + 32 * (s.fld Fld.engCtxEvqPtrRd n c % 2 ^ s.fld Fld.engCtxEvqSize n c)
  .done (s.setG n c (opRd w) (if s.evqEmpty n c then BitVec.allOnes 64 else BitVec.ofNat 64 off)) none

def opEvqPop (n c : Nat) (s : State) : Res :=
  .done (if s.evqEmpty n c then s
    else s.setFld Fld.engCtxEvqPtrRd ((s.fld Fld.engCtxEvqPtrRd n c + 1) % 2 ^ 16) n c) none

/-- DACW (R399, R348). -/
def opDacw (n c : Nat) (w : W32) (s : State) : Res :=
  let k := bitsW w 0 4
  let status (code : Nat) (s : State) : Res := .done (s.setG n c (opRd w) (BitVec.ofNat 64 code)) none
  if s.fld Fld.pinDacCfgOwner k = engOwner n then
    status Code.ok (s.setFld Fld.pinDacCodeCode (bitsW (s.g n c (opRa w)) 0 16) k)
  else status Code.dacNotOwned (s.deny Code.dacNotOwned (engOwner n) 5 k)

/-! ### Block transfers (R402) -/

/-- XFER START (R402). -/
def opXferStart (n c : Nat) (w : W32) (s : State) : Res :=
  let x := s.ctx n c
  let r (i : Nat) : Nat := (s.g n c (opRa w + i)).toNat
  if r 0 % 8 ≠ 0 ∨ r 1 % 8 ≠ 0 ∨ r 2 % 8 ≠ 0 then .fault s Code.misaligned 0
  else if x.xfer.st = 1 ∨ x.xfer.st = 2 then .wait s 6 0 0
  else
    let s := s.setJob (ctxJob n c) { on := true, src := r 0, dst := r 1, len := r 2 }
    .done (s.setCtx n c { x with xfer := { st := 1, src := r 0, dst := r 1, len := r 2, pc := s.pc n c } }) none

/-- Is the length of XFER START outside 1 to 2^32 − 1? (R402) -/
def xferBadLen (n c : Nat) (w : W32) (s : State) : Bool :=
  let k := (s.g n c (opRa w + 2)).toNat
  k == 0 || decide (2 ^ 32 ≤ k)

/-! ### Control registers (R365 to R367, R403) -/

/-- CSTAT (R366). -/
def cstat (n c : Nat) (s : State) : Nat :=
  let x := s.ctx n c
  x.rm + b2n x.stall * 2 ^ 2 + x.flags * 2 ^ 8 + x.trapen * 2 ^ 16 + b2n (s.flag Fld.engCtxStatInHandler n c) * 2 ^ 24
    + b2n (s.ctxSuper n c) * 2 ^ 25

/-- A control register's value (R365). -/
def csrRead (n c k : Nat) (s : State) : W64 :=
  let x := s.ctx n c
  match k with
  | 0 => BitVec.ofNat 64 (cstat n c s)
  | 1 => BitVec.ofNat 64 x.epc
  | 2 => s.reg Reg.engCtxFault n c
  | 3 => s.reg Reg.engCtxFaddr n c
  | 4 => BitVec.ofNat 64 x.tcause
  | 5 => BitVec.ofNat 64 (n + c * 2 ^ 8 + s.fld Fld.engCtxCfgPriv n c * 2 ^ 10 + s.fld Fld.engCtxCfgAsid n c * 2 ^ 16
      + s.fld Fld.engCtxCfgPrio n c * 2 ^ 24)
  | 6 => x.scratch
  | 7 => BitVec.ofNat 64 ((s.dt - (s.eng n).leftOff).toNat / 4)
  | 8 => x.bundles
  | _ => BitVec.ofNat 64 (s.fld Fld.engCtxCfgPrio n c)

/-- A control register written: fields marked RO keep their value. -/
def csrWrite (n c k : Nat) (v : W64) (s : State) : State :=
  let x := s.ctx n c
  match k with
  | 0 => s.setCtx n c { x with rm := bitsW v 0 2, stall := bitOf v.toNat 2, flags := bitsW v 8 8, trapen := bitsW v 16 8 }
  | 1 => s.setCtx n c { x with epc := v.toNat / 8 * 8 }
  | 6 => s.setCtx n c { x with scratch := v }
  | 9 => s.setFld Fld.engCtxCfgPrio (bitsW v 0 2) n c
  | _ => s

/-- CSR (R403): the old value goes to gRD. -/
def opCsr (n c : Nat) (m : Mn) (w : W32) (s : State) : Res :=
  let k := opRb w
  let old := csrRead n c k s
  let a := s.g n c (opRa w)
  let s := match m with
    | .csrWrite => csrWrite n c k a s
    | .csrSet => csrWrite n c k (old ||| a) s
    | .csrClear => csrWrite n c k (old &&& ~~~a) s
    | _ => s
  .done (s.setG n c (opRd w) old) none

/-! ### System operations (R404, R411) -/

/-- FENCE (R404). -/
def opFence (n c : Nat) (s : State) : Res :=
  let x := s.ctx n c
  if (x.accs.all fun a => 8 ≤ a.slot) ∧ x.posted = 0 then .done s none else respWait n c s

/-- YIELD (R404). -/
def opYield (n c : Nat) (s : State) : Res :=
  let equal (d : Nat) : Bool := d != c && s.ctxState n d == 1 && s.fld Fld.engCtxCfgPrio n d == s.fld Fld.engCtxCfgPrio n c
  .done (if (upFrom 0 4).any equal then leaveEngine n c 1 s else s) none

/-- RFH (R411). -/
def opRfh (n c : Nat) (s : State) : Res :=
  match jumpTo ((s.ctx n c).epc : Int) s with
  | .done s pc => .done (s.setFlag Fld.engCtxStatInHandler false n c) pc
  | r => r

/-- The context an operand names. -/
def ctxOf (n c : Nat) (w : W32) (s : State) : Nat := bitsW (s.g n c (opRa w)) 0 2

/-- CTXSTOP (R404): on the issuing context it acts as HALT. -/
def opCtxstop (n c : Nat) (w : W32) (s : State) : Res :=
  let d := ctxOf n c w s
  .done (if d = c then leaveEngine n c 4 s else ctxStop n d s) none

/-! ### Every operation -/

/-- A result written to gRD. -/
def toRd (n c : Nat) (w : W32) (v : W64) (s : State) : Res := .done (s.setG n c (opRd w) v) none

/-- The result of an operation that may stand in either place, and the flags it raises, from the registers as they stand. -/
def aluOf (n c : Nat) (m : Mn) (w : W32) (s : State) : W64 × Nat :=
  alu m w (s.ctx n c).rm (s.g n c (opRa w)) (s.g n c (opRb w)) (s.g n c (opRd w))

/-- Operation 0 (R369): the operations of R380 to R404, or one of those that may stand in either place. -/
def op0 (n c : Nat) (m : Mn) (w : W32) (s : State) : Res :=
  match m with
  | .nop => .done s none
  | .ldl => opLdl n c w s
  | .stl => opStl n c w s
  | .ldml => opLdml n c w s
  | .stml => opStml n c w s
  | .ld => opLd n c w s
  | .st => opSt n c w s
  | .ldm => opLdm n c w s
  | .stm => opStm n c w s
  | .atomAdd => opAtom n c false w s
  | .atomSwap => opAtom n c true w s
  | .mcpy => opMcpy n c w s
  | .br | .beq | .bne | .blt | .bge | .bltu | .bgeu | .bz | .bnz => opBranch n c m w s
  | .call => linked n c (opRd w) (jumpTo ((s.pc n c : Int) + branchOff w) s)
  | .jr => opJr n c w s
  | .waitToken => waitOn ((s.inCh n (bitsW w 0 3)) != []) 1 (bitsW w 0 3) 0 s
  | .waitRoom => waitOn (decide ((s.outCh n (bitsW w 0 3)).length < 4)) 2 (bitsW w 0 3) 0 s
  | .waitWake =>
    if s.flag Fld.engCtxStatWakePend n c then
      let (s, v) := takeWake n c s
      toRd n c w (BitVec.ofNat 64 v) s
    else .wait s 3 0 0
  | .waitCompletion => waitOn (!s.evqEmpty n c) 4 0 0 s
  | .waitTimer => waitOn (decide ((s.g n c (opRa w)).toNat ≤ s.dt.toNat)) 5 0 (s.g n c (opRa w)) s
  | .waitXfer => waitOn ((s.ctx n c).xfer.st != 1) 6 0 0 s
  | .recv => opRecv n c w s
  | .send => opSend n c w s
  | .chav => toRd n c w (chavWord n s) s
  | .snap => opSnap n c w s
  | .tbw => opTbw n c w s
  | .evset => opEvset n c w s
  | .evcan => opEvcan n c w s
  | .tkwake => opTkwake n c w s
  | .evqHead => opEvqHead n c w s
  | .evqPop => opEvqPop n c s
  | .dacw => opDacw n c w s
  | .xferStart => opXferStart n c w s
  | .xferResume => .done (resumeXfer n c s) none
  | .xferAbort => .done (abortXfer n c s) none
  | .xferStatus => toRd n c w (xferWord n c s) s
  | .rddt => toRd n c w s.dt s
  | .csrRead | .csrWrite | .csrSet | .csrClear => opCsr n c m w s
  | .fence => opFence n c s
  | .yield => opYield n c s
  | .halt => .done (leaveEngine n c 4 s) none
  | .rfh => opRfh n c s
  | .ctxstart => .done (ctxStart n (ctxOf n c w s) s) none
  | .ctxstop => opCtxstop n c w s
  | .pinr => toRd n c w (s.reg Reg.pinIn (bitsW w 0 4)) s
  | _ => toRd n c w (aluOf n c m w s).1 s

end Sys2Proof.Machine
end

