-- ==== Sys2Proof/Machine/Engines.lean ====
section
/-! DEFINITION. The issue of a bundle, context switches, and the engines' registers, channels and queues
(08_motion_engines R331 to R362, 09_kell_instruction_set R368 to R412). -/

namespace Sys2Proof.Machine

/-! ### Bundles (R368 to R373, R406 to R408) -/

/-- What stops a bundle before it starts (R407): a code, the operation it is recorded against, an address. -/
structure Stop where
  code   : Nat
  second : Bool
  addr   : Nat

/-- Is operation `m` in the word allowed of itself? (R369, R373, R402, R404, R411) -/
def opLegal (n c : Nat) (m : Mn) (w : W32) (s : State) : Bool :=
  let inHandler := s.flag Fld.engCtxStatInHandler n c
  fieldsOk m w && (match m with
    | .rfh => inHandler
    | .halt => !inHandler
    | .ctxstop => !(inHandler && ctxOf n c w s == c)
    | .xferStart => !xferBadLen n c w s
    | _ => true)

/-- Does the operation need Supervisor privilege? (R405) -/
def opPrivileged (m : Mn) (w : W32) : Bool :=
  match m with
  | .tbw | .ctxstart | .ctxstop => true
  | .csrWrite | .csrSet | .csrClear => opRb w == 9
  | _ => false

/-- Does the bundle touch a pending register? (R383) -/
def touchesPending (n c : Nat) (m0 m1 : Option Mn) (w0 w1 : W32) (s : State) : Bool :=
  let regs (m : Option Mn) (w : W32) : List Nat := match m with | some m => opReads m w ++ opWrites m w | none => []
  (regs m0 w0 ++ regs m1 w1).any fun r => (s.ctx n c).pend.contains r

/-- The checks of R407 up to PRIV_OP, first found first. The spec does not say which operation R370's and R387's rules on
the two together are recorded against. -/
def bundleStop (n c : Nat) (ecc : Bool) (m0 m1 : Option Mn) (w0 w1 : W32) (s : State) : Option Stop :=
  let pend := touchesPending n c m0 m1 w0 w1 s
  let leaves := match m0 with | some m => transfers m (s.g n c (opBa w0)) (s.g n c (opBb w0)) | none => false
  if ecc then some ⟨Code.localEcc, false, s.pc n c⟩
  else if s.pc n c = 0x7FF8 ∧ !leaves ∧ !pend then some ⟨Code.localRange, false, 0⟩
  else match m0, m1 with
    | none, _ => some ⟨Code.illegalOp, false, 0⟩
    | some m0, none => some ⟨Code.illegalOp, opLegal n c m0 w0 s, 0⟩
    | some m0, some m1 =>
      if !opLegal n c m0 w0 s then some ⟨Code.illegalOp, false, 0⟩
      else if !op1Ok w1 || !fieldsOk m1 w1 then some ⟨Code.illegalOp, true, 0⟩
      else if (opWrites m1 w1).any (fun r => (opWrites m0 w0).contains r) ∨ (m0 = .mcpy ∧ w1 ≠ 0) then
        some ⟨Code.illegalOp, s.freeBit, 0⟩
      else if opPrivileged m0 w0 && !s.ctxSuper n c then some ⟨Code.privOp, false, 0⟩
      else none

/-- A bundle's results: operation 1's register, the flags of both, BUNDLES, and the PC (R365, R367, R370, R389). -/
def finish (n c : Nat) (m1 : Mn) (w1 : W32) (r1 : W64) (flags : Nat) (pc : Nat) (s : State) : State :=
  let s := (opWrites m1 w1).foldl (fun s r => s.setG n c r r1) s
  let x := s.ctx n c
  (s.setCtx n c { x with flags := x.flags ||| flags, bundles := x.bundles + 1, long := false }).setPc n c pc

/-- A bundle whose checks have passed, run from the state `s` before it: the operations read the registers as they stand
(R370), a trap leaves everything as it was (R408), and a bundle with a long operation completes only when `ends` says so
(R372). -/
def runBundle (n c : Nat) (m0 m1 : Mn) (w0 w1 : W32) (ends : Bool) (s : State) : State :=
  let x := s.ctx n c
  let f0 := if op1Ok w0 then (aluOf n c m0 w0 s).2 else 0
  let (r1, f1) := aluOf n c m1 w1 s
  let all := f0 ||| f1
  let here := s.pc n c
  match op0 n c m0 w0 s with
  | .again s => s
  | .hold s => s
  | .wait s on ch t => ctxWait n c on ch t s
  | .fault s code addr => preciseFault n c code false addr (s.setCtx n c { s.ctx n c with long := false })
  | .done t pc =>
    if (longMn m0 || longMn m1) && !ends then s.setCtx n c { x with long := true }
    else if all &&& x.trapen ≠ 0 then
      preciseFault n c Code.arithTrap (f0 &&& x.trapen == 0) 0 (s.setCtx n c { x with tcause := all, long := false })
    else finish n c m1 w1 r1 all (pc.getD (here + 8)) t

/-- The bundle at PC fetched: its operation words, and whether it is uncorrectable (R328, R368). -/
def fetch (n c : Nat) (s : State) : State × W32 × W32 × Bool :=
  let (s, v, bad) := engRead n (imemBase n + s.pc n c) s
  (s, BitVec.ofNat 32 (bitsW v 0 32), BitVec.ofNat 32 (bitsW v 32 32), bad)

/-- Does the engine's clock run? Its group's is gated (R302), stopped in IDLE and until the wake from it ends (R633, R638), and an
engine under test or being moved to a spare pauses (R326). -/
def State.engClocked (s : State) (n : Nat) : Bool :=
  s.fld Fld.clkGateState (n / 8) == 0
    && !(s.pwr.idle && (s.fld Fld.pwrStateCur == 1 || s.fld Fld.pwrStateCur == 5)) && !s.hea.paused.contains n

/-- The running or last running context (R359). -/
def State.curCtx (s : State) (n : Nat) : Nat := s.fld Fld.engStatCurCtx n

/-- The bundle at PC of context c taken as far as it goes. -/
def bundle (n c : Nat) (ends : Bool) (s : State) : State :=
  let (s, w0, w1, bad) := fetch n c s
  match bundleStop n c bad (opMn w0) (opMn w1) w0 w1 s with
  | some x => preciseFault n c x.code x.second x.addr (s.setCtx n c { s.ctx n c with long := false }).tookFree
  | none =>
    if touchesPending n c (opMn w0) (opMn w1) w0 w1 s then
      match respWait n c s with
      | .wait s on ch t => ctxWait n c on ch t s
      | _ => s
    else match opMn w0, opMn w1 with
      | some m0, some m1 => runBundle n c m0 m1 w0 w1 ends s
      | _, _ => s

/-- May the current context of engine n issue a bundle? A pending fault goes first (R352), and a long operation holds the
next bundle (R372). -/
def State.mayIssue (s : State) (n : Nat) : Bool :=
  let c := s.curCtx n
  s.fld Fld.engStatState n == 1 && s.engClocked n && s.ctxState n c == 2 && !s.flag Fld.engCtxStatFaultPend n c
    && !(s.ctx n c).long

/-- Is an operation of the table in the bundle next to issue, in either place? A bundle of two undefined words goes by NOP's
row. -/
def State.bundleHas (s : State) (n : Nat) (m : Mn) : Bool :=
  let (_, w0, w1, _) := fetch n (s.curCtx n) s
  opMn w0 == some m || opMn w1 == some m || (m == .nop && (opMn w0).isNone && (opMn w1).isNone)

/-- The current context of engine n issues its next bundle, if it holds the operation `m`. -/
def issue (n : Nat) (m : Mn) (s : State) : State :=
  if s.mayIssue n && s.bundleHas n m then bundle n (s.curCtx n) false s else s

/-- LONG_OP_COMPLETE (R372): a long operation produces its result. A bundle in its stopping context still completes. -/
def longComplete (n : Nat) (s : State) : State :=
  let c := s.curCtx n
  let st := s.ctxState n c
  if (s.ctx n c).long && (st == 2 || st == 6 || st == 7) && s.engClocked n then bundle n c true s else s

def execLongOpComplete (n : Fin 96) (s : State) : Out := .next (longComplete n.val s)

/-! ### Switches (R333 to R336) -/

/-- A stop that has reached its boundary: STOPPED, and a latched start then follows (R331). -/
def settleStop (n c : Nat) (s : State) : State :=
  match s.ctxState n c with
  | 6 => leaveEngine n c 4 s
  | 7 => ctxStart n c (leaveEngine n c 4 s)
  | _ => s

/-- The next context to run after `c` (R333): the READY one of highest priority, the first in index order after `c`. -/
def State.nextCtx (s : State) (n c : Nat) : Option Nat :=
  let order := [c + 1, c + 2, c + 3, c].map (· % 4)
  let ready := order.filter fun d => s.ctxState n d == 1
  let top := ready.foldl (fun p d => max p (s.fld Fld.engCtxCfgPrio n d)) 0
  ready.find? fun d => s.fld Fld.engCtxCfgPrio n d == top

/-- CONTEXT_SWITCH (R333, R335): at a bundle boundary a stop takes effect, and the READY context of highest priority runs
unless the running one is of its priority or above. A long operation is abandoned (R334). -/
def contextSwitch (n : Nat) (s : State) : State :=
  let c := s.curCtx n
  let s := settleStop n c s
  if s.fld Fld.engStatState n ≠ 1 ∨ !s.engClocked n then s
  else match s.nextCtx n c with
    | none => s
    | some d =>
      if s.ctxState n c = 2 then
        if s.fld Fld.engCtxCfgPrio n c < s.fld Fld.engCtxCfgPrio n d then (leaveEngine n c 1 s).setCtxState n d 2 else s
      else s.setCtxState n d 2

def execContextSwitch (n : Fin 96) (s : State) : Out := .next (contextSwitch n.val s)

/-! ### Faults and timers -/

/-- ACCESS_RESPONSE (R349): the k-th response on its way, if a context asked for it. -/
def execAccessResponse (k : Fin 2048) (s : State) : Out := .next (accessResponse k.val s)

/-- FAULT_DELIVERY (R352): the running context's recorded fault is delivered at its bundle boundary. -/
def faultDelivery (n : Nat) (s : State) : State :=
  let c := s.curCtx n
  if s.ctxState n c = 2 ∧ s.engClocked n ∧ s.flag Fld.engCtxStatFaultPend n c ∧ !(s.ctx n c).long then deliverFault n c s else s

def execFaultDelivery (n : Fin 96) (s : State) : Out := .next (faultDelivery n.val s)

/-- WATCHDOG_EXPIRY (R337): the count begins again with the fault. -/
def watchdog (n c : Nat) (s : State) : State :=
  let k := s.fld Fld.engCtxCfgWdog n c
  let st := s.ctxState n c
  let x := s.ctx n c
  if k ≠ 0 ∧ (st = 1 ∨ st = 2) ∧ x.wdogAt + k * 80000 ≤ s.now then
    chargeFault n c Code.watchdog (s.pc n c) false 0 (s.setCtx n c { x with wdogAt := s.now })
  else s

def execWatchdogExpiry (n : Fin 96) (c : Fin 4) (s : State) : Out := .next (watchdog n.val c.val s)

/-- CONTEXT_TIMER_EXPIRY (R332, R393). -/
def timerExpiry (n c : Nat) (s : State) : State :=
  if (s.ctx n c).timer.toNat ≤ s.dt.toNat then s.wakeCtx n c 5 else s

def execContextTimerExpiry (n : Fin 96) (c : Fin 4) (s : State) : Out := .next (timerExpiry n.val c.val s)

/-! ### Starting and stopping engines (R354, R355) -/

/-- An OFF engine begins to run; its AUTOSTART contexts become READY. -/
def engineRun (n : Nat) (s : State) : State :=
  let s := s.setFld Fld.engStatState 1 n
  let s := s.setEng n { s.eng n with leftOff := s.dt }
  (upFrom 0 4).foldl (fun s c => if s.flag Fld.engCtxCfgAutostart n c then ctxStart n c s else s) s

/-- EN = 1 (R354, R355, R327). -/
def engineEnable (n : Nat) (s : State) : State :=
  if s.flag Fld.engStatRetired n then s.refuse Reg.engRefuse Code.engRetired 0 n
  else
    let s := s.setFlag Fld.engCtlEn true n
    match s.fld Fld.engStatState n with
    | 0 => engineRun n s
    | 2 => s.setFld Fld.engStatState 3 n
    | _ => s

/-- EN = 0 (R355). -/
def engineDisable (n : Nat) (s : State) : State :=
  let s := s.setFlag Fld.engCtlEn false n
  match s.fld Fld.engStatState n with
  | 1 => (upFrom 0 4).foldl (fun s c => ctxStop n c s) (s.setFld Fld.engStatState 2 n)
  | 3 => s.setFld Fld.engStatState 2 n
  | _ => s

/-- ENGINE_ENABLE (R354). -/
def execEngineEnable (w : Writer) (n : Fin 96) (s : State) : Out :=
  .next (s.linked w (Reg.engCtl.addr n.val 0) (engineEnable n.val))

/-- ENGINE_DISABLE (R355). -/
def execEngineDisable (w : Writer) (n : Fin 96) (s : State) : Out :=
  .next (s.linked w (Reg.engCtl.addr n.val 0) (engineDisable n.val))

/-- Has a stopping engine come to its step 4, but for stalled transfers? (R355) -/
def State.engQuiet (s : State) (n : Nat) : Bool :=
  ((upFrom 0 4).all fun c =>
    let x := s.ctx n c
    let st := s.ctxState n c
    st != 2 && st != 6 && st != 7 && x.accs == [] && x.posted == 0 && x.xfer.st != 1)
  && ((upFrom 0 8).all fun k => (s.outCh n k) == [])

/-- ENGINE_STOP_DONE (R355): stalled transfers end with ABORTED, and the engine is OFF, or starts again after PEND. -/
def engineStopDone (n : Nat) (s : State) : State :=
  let st := s.fld Fld.engStatState n
  if (st = 2 ∨ st = 3) ∧ s.engQuiet n then
    let s := (upFrom 0 4).foldl (fun s c => abortXfer n c s) s
    let s := s.setFld Fld.engStatState 0 n
    if st = 3 then engineRun n s else s
  else s

def execEngineStopDone (n : Fin 96) (s : State) : Out := .next (engineStopDone n.val s)

/-- ENG_CNT set to 0 (R358). -/
def engineCntClr (n : Nat) (s : State) : State := s.setReg Reg.engCnt 0 n

/-- ENGINE_CNT_CLR (R358). -/
def execEngineCntClr (w : Writer) (n : Fin 96) (s : State) : Out :=
  .next (s.linked w (Reg.engCtl.addr n.val 0) (engineCntClr n.val))

/-- CONTEXT_START (R354). -/
def execContextStart (w : Writer) (n : Fin 96) (c : Fin 4) (s : State) : Out :=
  .next (s.linked w (Reg.engCtxCtl.addr n.val c.val) (ctxStart n.val c.val))

/-- CONTEXT_STOP (R354). -/
def execContextStop (w : Writer) (n : Fin 96) (c : Fin 4) (s : State) : Out :=
  .next (s.linked w (Reg.engCtxCtl.addr n.val c.val) (ctxStop n.val c.val))

/-! ### Context registers (R357, R360) -/

/-- Is a context OFF, STOPPED or FAULTED? -/
def State.ctxIdle (s : State) (n c : Nat) : Bool :=
  let st := s.ctxState n c
  st == 0 || st == 4 || st == 5

/-- A write of ENG_CTX_PC. -/
def ctxPcWrite (n c : Nat) (v : W32) (s : State) : State :=
  if s.ctxIdle n c then s.setFld Fld.engCtxPcPc (bitsW v 3 12) n c else s.refuse Reg.engRefuse Code.engBusy c n

/-- CTX_PC_WRITE (R357). -/
def execCtxPcWrite (w : Writer) (n : Fin 96) (c : Fin 4) (v : W32) (s : State) : Out :=
  .next (s.linked w (Reg.engCtxPc.addr n.val c.val) (ctxPcWrite n.val c.val v))

/-- A write of ENG_CTX_CFG: an address space of CLASS 1 is the Warden's to name (R464); then the lock of R360. -/
def ctxCfgWrite (w : Writer) (n c : Nat) (v : W32) (s : State) : State :=
  let old := s.reg Reg.engCtxCfg n c
  let locked := bitsW v 2 9 ≠ bitsW old 2 9 ∨ bitsW v 13 1 ≠ bitsW old 13 1
  if !s.warden w && s.flag Fld.wtuSpaceClass (bitsW v 3 8) && bitsW v 3 8 != bitsW old 3 8 then
    s.denyWarden w (Reg.engCtxCfg.addr n c)
  else if locked ∧ !s.ctxIdle n c then s.refuse Reg.engRefuse Code.engBusy c n
  else s.setReg Reg.engCtxCfg (Reg.engCtxCfg.plain old (v.setWidth 64) false) n c

/-- CTX_CFG_WRITE (R360). -/
def execCtxCfgWrite (w : Writer) (n : Fin 96) (c : Fin 4) (v : W32) (s : State) : Out :=
  .next (s.linked w (Reg.engCtxCfg.addr n.val c.val) (ctxCfgWrite w n.val c.val v))

/-- A write of ENG_CTX_EVQ (R357): SIZE is 4 to 11 and the queue lies in DMEM. -/
def ctxEvqWrite (n c : Nat) (v : W32) (s : State) : State :=
  let size := bitsW v 16 4
  if size < 4 ∨ 11 < size ∨ 0x10000 < bitsW v 5 11 * 32 + 32 * 2 ^ size then
    s.refuse Reg.engRefuse Code.engBadCfg c n
  else s.setReg Reg.engCtxEvq (Reg.engCtxEvq.plain (s.reg Reg.engCtxEvq n c) (v.setWidth 64) false) n c

/-- A write of RD in ENG_CTX_EVQ_PTR (R357): refused where RD is more than 2^SIZE above WR, by a distance that is not a
multiple of 2^SIZE; the distance is of 16 bits, with its sign (log entry 20). -/
def ctxEvqPtrWrite (n c : Nat) (v : W32) (s : State) : State :=
  let rd := bitsW v 16 16
  let d := signed 16 (rd + 2 ^ 16 - s.fld Fld.engCtxEvqPtrWr n c)
  let k : Int := (2 ^ s.fld Fld.engCtxEvqSize n c : Nat)
  if d % k ≠ 0 ∧ k < d then s.refuse Reg.engRefuse Code.engBadCfg c n else s.setFld Fld.engCtxEvqPtrRd rd n c

/-- CTX_EVQ_WRITE (R357): a write of the descriptor, or of the pointer register. -/
def execCtxEvqWrite (w : Writer) (n : Fin 96) (c : Fin 4) (ptr : Bool) (v : W32) (s : State) : Out :=
  .next (s.linked w ((if ptr then Reg.engCtxEvqPtr else Reg.engCtxEvq).addr n.val c.val)
    (if ptr then ctxEvqPtrWrite n.val c.val v else ctxEvqWrite n.val c.val v))

/-- A host access to a context register (R357): served only while the context is OFF, STOPPED or FAULTED. -/
def ctxGreg (n c r : Nat) (write : Option W64) (s : State) : State :=
  match write with
  | some v => if s.ctxIdle n c then s.setG n c r v else (s.refuse Reg.engRefuse Code.engBusy c n).accessError
  | none =>
    if s.ctxIdle n c then { s with sys := { s.sys with readData := s.g n c r } }
    else { s.accessError with sys := { s.accessError.sys with readData := 0 } }

/-- CTX_GREG_ACCESS (R357): a whole access; the word read is in `readData`. -/
def execCtxGregAccess (w : Writer) (n : Fin 96) (c : Fin 4) (r : Fin 32) (write : Option W64) (s : State) : Out :=
  .next (s.linked w (0x80400 + n.val * 0x1000 + c.val * 0x100 + r.val * 8) (ctxGreg n.val c.val r.val write))

/-- Is a destination allowed on an output channel? (R340) -/
def ochTarget (t : Nat) : Bool := decide (t < 0x300) || (0x400 ≤ t && t < 0x420) || (0x1000 ≤ t && t < 0x1050)

/-- A write of ENG_OCH_DEST (R340). -/
def ochDestWrite (n k : Nat) (v : W32) (s : State) : State :=
  if bitsW v 16 1 = 1 ∧ !ochTarget (bitsW v 0 16) then s.refuse Reg.engRefuse Code.engBadCfg 0 n
  else s.setReg Reg.engOchDest (Reg.engOchDest.plain (s.reg Reg.engOchDest n k) (v.setWidth 64) false) n k

/-- OCH_DEST_WRITE (R340). -/
def execOchDestWrite (w : Writer) (n : Fin 96) (k : Fin 8) (v : W32) (s : State) : Out :=
  .next (s.linked w (Reg.engOchDest.addr n.val k.val) (ochDestWrite n.val k.val v))

/-! ### Channels and completion queues (R341, R347) -/

/-- ENGINE_TOKEN_IN (R341): the k-th transaction, where it is a MSG for an engine's channel, is delivered. -/
def engineTokenIn (k : Nat) (s : State) : State :=
  match s.trans[k]? with
  | some t => if t.op = .msg ∧ t.va < 0x300 then deliver k 0 false s else s
  | none => s

def execEngineTokenIn (k : Fin 2048) (s : State) : Out := .next (engineTokenIn k.val s)

/-- ENGINE_MSG_ADMIT (R341): the head of an engine's queue enters its channel once it has room; a next head that must wait
counts. -/
def engineMsgAdmit (n : Nat) (s : State) : State :=
  match (s.eng n).inq with
  | [] => s
  | (k, v) :: rest =>
    if 4 ≤ (s.inCh n k).length then s
    else
      let s := tokenIn n k v (s.setEng n { s.eng n with inq := rest })
      match rest with
      | [] => s
      | (j, _) :: _ => if 4 ≤ (s.inCh n j).length then s.bump Fld.engCntChanStall n else s

def execEngineMsgAdmit (n : Fin 96) (s : State) : Out := .next (engineMsgAdmit n.val s)

/-- OUTPUT_CHANNEL_DRAIN (R341, R213): the oldest token goes to the spine; for a sector its TARGET names the channel. A
context waiting for room becomes READY. -/
def outputDrain (n k : Nat) (s : State) : State :=
  let p := 90 + n / 8
  match s.outCh n k with
  | [] => s
  | (dest, v) :: rest =>
    if !s.poolRoom p then s
    else
      let s := (s.setOutCh n k rest).occupy p
      let s := s.putTrans
        { port := p, master := 80 + n, owner := engOwner n, tag := 0, op := .msg, len := 1,
          addr := if 0x1000 ≤ dest then 8 * n + k else dest, space := .dev, asid := 0, priv := 0, va := dest,
          marked := false, data := [v], asker := .none }
      (upFrom 0 4).foldl (fun s c => if (s.ctx n c).waitCh = k then s.wakeCtx n c 2 else s) s

def execOutputChannelDrain (n : Fin 96) (k : Fin 8) (s : State) : Out := .next (outputDrain n.val k.val s)

/-- The first buffered completion whose queue can take it, or is disabled, with none of its context before it. -/
def evqReady (n : Nat) (s : State) : Option (Nat × List W64) :=
  (s.eng n).evqBuf.find? fun p => !s.flag Fld.engCtxEvqEn n p.1 || !s.evqFull n p.1

/-- EVQ_BUFFER_DRAIN (R347). -/
def evqDrain (n : Nat) (s : State) : State :=
  match evqReady n s with
  | none => s
  | some p =>
    let s := s.setEng n { s.eng n with evqBuf := (s.eng n).evqBuf.erase p }
    if s.flag Fld.engCtxEvqEn n p.1 then evqWrite n p.1 p.2 s else evqLost n p.1 s

def execEvqBufferDrain (n : Fin 96) (s : State) : Out := .next (evqDrain n.val s)

end Sys2Proof.Machine
end

