-- ==== Sys2Proof/Machine/LoaderCore.lean ====
section
/-! DEFINITION. The loader's bytes: the leader in force, a stream's beginning, what each source delivers, forwarding along
the chain, and failure with what it leaves held (12_configuration R490 to R496, R521 to R525, R532; 14_start_health_and_spares R585). -/

namespace Sys2Proof.Machine

/-! ### The loader's state -/

/-- LDR_STAT.STATE: 0 IDLE, 1 LEADER, 2 BODY, 3 CHECK, 4 GATE, 5 STARTUP, 6 DONE, 7 FAILED (R540). -/
def State.ldrState (s : State) : Nat := s.fld Fld.ldrStatState

/-- LDR_STAT.STATE set. -/
def State.setLdrState (s : State) (v : Nat) : State := s.setFld Fld.ldrStatState v

/-- LDR_STAT.SOURCE: 1 ARCHIVE, 2 HOST, 3 JTAG, 4 TETHER. -/
def State.ldrSource (s : State) : Nat := s.fld Fld.ldrStatSource

/-- Is a stream being loaded? -/
def State.loading (s : State) : Bool := 1 ≤ s.ldrState && s.ldrState ≤ 5

/-- A field of a leader's bytes: `n` bytes from byte `at` on (R497). -/
def leaderNum (l : List Byte) (at' n : Nat) : Nat := natLE ((l.drop at').take n)

/-- The last accepted leader (R498, R537). -/
def State.leaderBytes (s : State) : List Byte := (upFrom 0 16).flatMap fun i => bytesLE 8 (s.reg Reg.ldrLeader i).toNat

/-- A field of the last accepted leader. -/
def State.leaderField (s : State) (at' n : Nat) : Nat := leaderNum s.leaderBytes at' n

/-- The class of the present stream: 0 FULL, 1 PARTIAL, 2 MULTI. -/
def State.ldrPartial (s : State) : Bool := s.fld Fld.ldrStatClass == 1

/-- Is the body encrypted? -/
def State.ldrEnc (s : State) : Bool := s.flag Fld.ldrStatEnc

/-- Does a device-wide load wait under R42? The source is not read meanwhile (R517). -/
def State.loadHeld (s : State) : Bool := s.lead.held.contains .load

/-- The offset in the stream of the next record's header (R541). -/
def State.ldrOffset (s : State) : Nat :=
  128 + s.ldr.body + (if s.ldrEnc then s.ldr.body / 262144 * 16 else 0)

/-- A device-wide action ends. -/
def State.dropAction (s : State) (a : Action) : State :=
  { s with lead := { s.lead with underWay := s.lead.underWay.erase a, held := s.lead.held.erase a } }

/-! ### Holds (R188, R518) -/

/-- The three holds of a sector asserted, its cells in reset (R189, R193). -/
def holdSector (sec : Nat) (s : State) : State :=
  let s := ((s.setFlag Fld.stwSecHoldOutHeld true sec).setFlag Fld.stwSecHoldWrHeld true sec).setFlag
    Fld.stwSecHoldRstHeld true sec
  resetSector s sec

/-- An engine that is not OFF forced OFF: its contexts stop where they stand, and its transfers end. -/
def haltEngine (n : Nat) (s : State) : State :=
  if s.fld Fld.engStatState n = 0 then s
  else
    let s := (upFrom 0 4).foldl (fun s c =>
      let s := abortXfer n c s
      let st := s.ctxState n c
      if st = 0 ∨ st = 4 ∨ st = 5 then s else leaveEngine n c 4 s) s
    s.setFld Fld.engStatState 0 n

/-- Every sector held, every engine OFF, the scheduler refusing arms (R518, R532). -/
def holdDevice (s : State) : State :=
  let s := (upFrom 0 80).foldl (fun s k => holdSector k s) s
  let s := (upFrom 0 96).foldl (fun s n => haltEngine n s) s
  s.setFld Fld.ldrStatSteps (s.fld Fld.clkStatRootLocked)

/-- The device pulls GATE low (R521). -/
def pullGate (s : State) : State := (s.setFlag Fld.ldrStatGateOut true).setFlag Fld.ldrStatGateIn false

/-! ### Starts that fail (R585, R586) -/

/-- A start under way, or one that awaits its confirmation, ends without success. If the boot counters count it, its failure
is raised and it is tried again; another start ends, and the device stays held. -/
def startFailed (code : Nat) (s : State) : State :=
  let s := (s.setPhase 0).dropAction .start
  if s.sta.counted then
    let s := s.noticeIf (s.flag Fld.stwHealthCfgNoteEn) code 0
    { s with sta := { s.sta with counted := false, confirm := false, writing := false,
                                 retry := if s.flag Fld.stwBootExhausted then none else some s.sta.warm } }
  else s

/-! ### Failure (R532) -/

/-- LDR_HELD as one mask of 80 sectors. -/
def State.heldMask (s : State) : Nat :=
  s.fld Fld.ldrHeldValue 0 + s.fld Fld.ldrHeldValue 1 * 2 ^ 32 + s.fld Fld.ldrHeldValue 2 * 2 ^ 64

/-- LDR_HELD set from a mask of sectors. -/
def State.setHeldMask (s : State) (m : Nat) : State :=
  ((s.setFld Fld.ldrHeldValue (bitsOf m 0 32) 0).setFld Fld.ldrHeldValue (bitsOf m 32 32) 1).setFld Fld.ldrHeldValue
    (bitsOf m 64 16) 2

/-- What stays held after the failure of an accepted stream (R532). -/
def failedHolds (s : State) : State :=
  if s.ldrPartial then
    let m := s.ldr.entered.foldl (fun m k => m ||| 2 ^ k) s.heldMask
    let banks := s.ldr.entered.flatMap fun k => upFrom (16 * k) 16
    { s.setHeldMask m with ldr := { s.ldr with banks := (s.ldr.banks ++ banks).eraseDups } }
  else
    pullGate ((holdDevice s).setHeldMask (2 ^ 80 - 1))

/-- What the loader keeps of a stream that failed: the bytes of its rest, to be discarded. -/
def Ldr.failed (x : Ldr) (skip : Nat) : Ldr :=
  { x with gen := x.gen + 1, raw := [], plain := [], sect := none, ended := false, held := [], later := [], steps := [],
           wave := 0, border := [], entered := [], ring := none, skip := skip, bare := false, check := false }

/-- LDR_ERR's word (R541). -/
def ldrErrWord (code detail off : Nat) : W64 :=
  BitVec.ofNat 64 (code % 2 ^ 16 + detail % 2 ^ 16 * 2 ^ 16 + off % 2 ^ 31 * 2 ^ 32 + 2 ^ 63)

/-- The bytes of the present stream that have not come: its length is known once its leader's own checks have passed. -/
def State.ldrLeft (s : State) (code : Nat) : Nat :=
  if 2 ≤ s.ldrState then s.leaderField 24 8 - s.fld Fld.ldrProgValue
  else if code = Code.leaderBad then 0
  else leaderNum s.ldr.raw 24 8 - s.fld Fld.ldrProgValue

/-- Does the failure end the start under way? That of a PARTIAL load does not, nor does a refused leader where the start
waits for a stream. -/
def State.failsStart (s : State) : Bool :=
  s.phase != 0 && (if 2 ≤ s.ldrState then !s.ldrPartial else s.sta.counted)

/-- The load fails (R532): recorded in LDR_ERR, what it wrote held, the rest of the stream to be discarded. A failure before
the leader was accepted leaves everything else as it was (R498). -/
def ldrFailAt (code detail off : Nat) (s : State) : State :=
  let ends := s.failsStart
  let left := s.ldrLeft code
  let s := s.setReg Reg.ldrErr (ldrErrWord code detail off)
  let s := if 2 ≤ s.ldrState then failedHolds s else s
  let s := (s.setLdrState 7).dropAction .load
  let s := { s with ldr := s.ldr.failed left }
  let s := s.setFlag Fld.arcSlotLoading false s.ldr.slot
  let s := s.noticeIf (s.flag Fld.ldrCfgNoteEn) Code.loadFail 0
  if ends then startFailed Code.startFailed s else s

/-- The load fails at the record, or leader, that comes next. -/
def ldrFail (code : Nat) (s : State) : State :=
  ldrFailAt code 0 (if 2 ≤ s.ldrState then s.ldrOffset else 0) s

/-! ### Bytes (R493 to R495, R523, R524) -/

/-- The hidden part of a lane. -/
def State.lane (s : State) (l : Nat) : LaneHid := Tab.get {} s.lanes l

/-- The hidden part of a lane set. -/
def State.setLane (s : State) (l : Nat) (h : LaneHid) : State := { s with lanes := Tab.set {} s.lanes l h }

/-- A message put on a tether lane's line (R665). -/
def State.sendLane (s : State) (l : Nat) (m : LaneMsg) : State :=
  { s with laneOut := Tab.set [] s.laneOut l (Tab.get [] s.laneOut l ++ [m]) }

/-- A STREAM message: SEQ, LEN and 256 data bytes (R665). -/
def streamMessage (seq : Nat) (p : List Byte) : LaneMsg :=
  ⟨4, bytesLE 2 seq ++ bytesLE 2 p.length ++ p ++ List.replicate (256 - p.length) 0⟩

/-- Is a lane ALIGNED? -/
def State.aligned (s : State) (l : Nat) : Bool := s.fld Fld.pinLaneStatState l == 2

/-- Lane 1 sends what its credits allow, and keeps it until it is acknowledged; EOS follows the last acknowledgement (R668). -/
def streamPump : Nat → State → State
  | 0, s => s
  | k + 1, s =>
    let h := s.lane 1
    if !s.aligned 1 then s
    else match h.waiting with
      | p :: rest =>
        if 16 ≤ h.unacked.length || h.credits ≤ h.unacked.length then s
        else
          let s := s.sendLane 1 (streamMessage h.nextSeq p)
          streamPump k (s.setLane 1 { h with
            waiting := rest, unacked := h.unacked ++ [(h.nextSeq, p)], nextSeq := (h.nextSeq + 1) % 2 ^ 16,
            sent := h.sent + p.length })
      | [] =>
        if h.ending && h.unacked.isEmpty then
          (s.sendLane 1 ⟨6, bytesLE 8 h.sent⟩).setLane 1 { h with ending := false, sent := 0 }
        else s

/-- Bytes forwarded on lane 1 as STREAM messages of at most 256 bytes (R523, R668). -/
def forward (bs : List Byte) (s : State) : State :=
  if s.flag Fld.ldrChainForward && !bs.isEmpty then
    let h := s.lane 1
    let ps := (pieces 256 (bs.length / 256 + 1) bs).filter fun p => !p.isEmpty
    streamPump 16 (s.setLane 1 { h with waiting := h.waiting ++ ps })
  else s

/-- Forwarding ends with EOS (R668). -/
def forwardEnd (s : State) : State :=
  if s.flag Fld.ldrChainForward then
    let s := s.setFlag Fld.ldrChainForward false
    streamPump 16 (s.setLane 1 { s.lane 1 with ending := true })
  else s

/-- The loader's buffers at the beginning of a stream. -/
def Ldr.fresh (x : Ldr) (ring : Option Nat) : Ldr :=
  { x with raw := [], plain := [], crc := 0xFFFFFFFF, body := 0, seg := 0, key := [], sect := none, ended := false,
           border := [], entered := [], held := [], later := [], ring := ring, skip := 0, slotAt := 0 }

/-- A stream from a source begins (R490, R494). -/
def ldrStart (source : Nat) (ring : Option Nat) (s : State) : State :=
  let s := (s.setLdrState 1).setFld Fld.ldrStatSource source
  let s := s.setReg Reg.ldrProg 0
  let s := s.setFlag Fld.ldrChainForward false
  { s with ldr := s.ldr.fresh ring }

/-- The bytes the loader holds before it takes no more: two segments with their tags (R514). -/
def ldrWindow : Nat := 2 * 262160

/-- The bytes the loader can take now: the leader alone until it is accepted, then up to STREAM_LEN in its buffers. -/
def State.ldrRoom (s : State) : Nat :=
  let taken := s.fld Fld.ldrProgValue
  if s.ldrState = 1 then 128 - taken
  else min (s.leaderField 24 8 - taken) (ldrWindow - s.ldr.raw.length)

/-- Bytes of the present stream taken. -/
def ldrPush (bs : List Byte) (s : State) : State :=
  let s := s.setReg Reg.ldrProg (BitVec.ofNat 64 (s.fld Fld.ldrProgValue + bs.length))
  forward bs { s with ldr := { s.ldr with raw := s.ldr.raw ++ bs } }

/-- Bytes of the rest of a failed stream discarded; a refused one is still forwarded (R524). -/
def ldrSkip (bs : List Byte) (s : State) : State :=
  let left := s.ldr.skip - bs.length
  let s := forward bs { s with ldr := { s.ldr with skip := left } }
  if left = 0 then forwardEnd s else s

/-- What becomes of bytes a source offers: the first `k` taken (the rest wait); taken as bytes beyond STREAM_LEN; refused
with a code. -/
inductive Took where
  | took (k : Nat)
  | beyond
  | refused (code : Nat)
  deriving DecidableEq, Repr

/-- Bytes offered by a source (R493, R494). `cont` says that the descriptor which offers them began under the present load. -/
def ldrOffer (source : Nat) (ring : Option Nat) (cont : Bool) (bs : List Byte) (s : State) : State × Took :=
  let begin' (s : State) : State × Took :=
    let k := min bs.length 128
    (ldrPush (bs.take k) (ldrStart source ring s), .took k)
  if s.loading then
    if s.ldrSource ≠ source then (s, .refused Code.ldrBusy)
    else if s.loadHeld then (s, .took 0)
    else if s.ldrState = 1 then
      let k := min bs.length s.ldrRoom
      (ldrPush (bs.take k) s, .took k)
    else if s.leaderField 24 8 ≤ s.fld Fld.ldrProgValue then (s, .beyond)
    else
      let k := min bs.length s.ldrRoom
      (ldrPush (bs.take k) s, .took k)
  else if s.ldrState = 7 ∧ s.ldr.skip ≠ 0 ∧ s.ldrSource = source then
    let k := min bs.length s.ldr.skip
    (ldrSkip (bs.take k) s, .took k)
  else if cont then (s, .beyond)
  else if s.ldr.steps ≠ [] then (s, .took 0)
  else begin' s

/-- Bytes taken off the buffer, the running CRC with them (R506). -/
def ldrEat (k : Nat) (s : State) : State :=
  { s with ldr := { s.ldr with crc := crcBytes s.ldr.crc (s.ldr.raw.take k), raw := s.ldr.raw.drop k } }

/-! ### The archive as a source (R490, R492, R560) -/

/-- The archive's image slot handed to the loader: its bytes are then read as the loader takes them. -/
def ldrFromSlot (slot : Nat) (s : State) : State :=
  let s := ldrStart 1 none s
  let s := s.setFlag Fld.arcSlotLoading true slot
  { s.setFld Fld.arcBootLoaded slot with ldr := { s.ldr with slot := slot } }

/-- The bytes of the image the loader can take now. -/
def ldrRefill (s : State) : State :=
  if s.loading && s.ldrSource == 1 && !s.loadHeld then
    let image := Tab.get [] s.arc.images s.ldr.slot
    let bs := (image.drop s.ldr.slotAt).take s.ldrRoom
    let s := ldrPush bs s
    { s with ldr := { s.ldr with slotAt := s.ldr.slotAt + bs.length } }
  else s

end Sys2Proof.Machine
end

