-- ==== Sys2Proof/Machine/MoverCore.lean ====
section
/-! DEFINITION. Rings' records and movers' transfers: completion records, the descriptor's fields, lines read and written,
stalls and ends (10_host_link_and_rings R432 to R443). -/

namespace Sys2Proof.Machine

/-! ### Completion records (R442, R443) -/

/-- A record for the completion ring of command ring n: written, kept while that ring has no room, or lost. -/
def putCompletion (n : Nat) (ws : List W64) (s : State) : State :=
  let c := s.fld Fld.rngCfgCpl n
  if !s.ringOpen c 1 then s.bump Fld.rngCntLost n
  else if s.ringFull c then (s.setRing n { s.ring n with record := some ws }).setFlag Fld.rngStatWaitCpl true n
  else s.putRecord c ws

/-- The EVENT records of a half that wait for completion ring c, oldest first, written while there is room. Where the ring
is not RUN each is lost, counted on the ring that armed its event. -/
def flushEvents (h c : Nat) : Nat → State → State
  | 0, s => s
  | k + 1, s =>
    let l := s.sched.evt h
    match l.find? fun p => p.1 == c with
    | none => s
    | some p =>
      let rest := { s with sched := s.sched.setEvt h (l.erase p) }
      if !s.ringOpen c 1 then flushEvents h c k (rest.bump Fld.rngCntLost (bitsW (wordAt p.2 0) 24 8 % 64))
      else if s.ringFull c then s
      else flushEvents h c k (rest.putRecord c p.2)

/-- The record that command ring n keeps, written or lost as its completion ring now stands. -/
def flushRecord (n : Nat) (s : State) : State :=
  match (s.ring n).record with
  | none => s
  | some ws =>
    let c := s.fld Fld.rngCfgCpl n
    if s.ringOpen c 1 && s.ringFull c then s
    else
      let s := (s.setRing n { s.ring n with record := none }).setFlag Fld.rngStatWaitCpl false n
      putCompletion n ws s

/-- Completion ring c has gained room, or is no longer RUN: what waits for it goes on (R443). -/
def ringRoom (c : Nat) (s : State) : State :=
  let s := flushEvents 1 c 256 (flushEvents 0 c 256 s)
  (upFrom 0 64).foldl (fun s n => if s.fld Fld.rngCfgCpl n = c then flushRecord n s else s) s

/-! ### Descriptors (R432, R433, R567) -/

/-- Does a ring carry Extended descriptors? -/
def State.extended (s : State) (n : Nat) : Bool := s.flag Fld.rngCfgFormat n

/-- The bits of each operand of an operation, in the order of the tables of R433 and R567, by its first bit and length:
Classic, then Extended; none where the operation or the format is not defined. -/
def descFields (op : Nat) (ext : Bool) : Option (List (Nat × Nat)) :=
  match op, ext with
  | 0x00, _ => some []
  | 0x01, false => some [(16, 48), (64, 48), (112, 16)]
  | 0x01, true => some [(64, 48), (128, 48), (192, 32)]
  | 0x02, false => some [(16, 16), (64, 64)]
  | 0x02, true => some [(64, 16), (128, 64)]
  | 0x03, false => some [(32, 32), (64, 64)]
  | 0x04, true => some [(32, 32), (64, 64), (128, 64), (192, 64)]
  | 0x05, false => some [(16, 48), (64, 48), (112, 8)]
  | 0x05, true => some [(64, 48), (128, 48), (192, 8)]
  | 0x06, false => some [(16, 12)]
  | 0x06, true => some [(64, 12)]
  | 0x07, false => some [(16, 5), (24, 2), (64, 48)]
  | 0x07, true => some [(64, 5), (72, 2), (128, 48)]
  | 0x08, false => some [(16, 48), (64, 32)]
  | 0x08, true => some [(64, 48), (128, 32)]
  | 0x09, false => some [(16, 48)]
  | 0x09, true => some [(64, 48)]
  | 0x40, false => some [(16, 48), (64, 32), (96, 16)]
  | 0x40, true => some [(64, 48), (128, 32), (160, 32)]
  | 0x41, false => some [(16, 48), (64, 32), (96, 16)]
  | 0x41, true => some [(64, 48), (128, 32), (160, 32)]
  | 0x42, false => some [(64, 32), (96, 16)]
  | 0x42, true => some [(128, 32), (160, 32)]
  | 0x43, false => some [(16, 48), (64, 16), (80, 16)]
  | 0x43, true => some [(64, 48), (128, 16), (144, 16)]
  | 0x44, false => some [(16, 48), (64, 16), (80, 16)]
  | 0x44, true => some [(64, 48), (128, 16), (144, 16)]
  | 0x45, false => some [(64, 16)]
  | 0x45, true => some [(128, 16)]
  | 0x46, false => some [(64, 8), (96, 32)]
  | 0x46, true => some [(128, 8), (192, 32)]
  | 0x47, false => some [(16, 48), (64, 8), (96, 32)]
  | 0x47, true => some [(64, 48), (128, 8), (192, 32)]
  | 0x48, false => some [(64, 8)]
  | 0x48, true => some [(128, 8)]
  | 0x49, false => some [(16, 48), (64, 8), (72, 24), (96, 32)]
  | 0x49, true => some [(64, 48), (128, 8), (160, 32), (192, 32)]
  | 0x4A, false => some [(64, 8)]
  | 0x4A, true => some [(128, 8)]
  | 0x4B, false => some [(64, 8)]
  | 0x4B, true => some [(128, 8)]
  | 0x4C, false => some [(64, 16), (80, 16), (96, 16)]
  | 0x4C, true => some [(128, 16), (144, 16), (160, 16)]
  | _, _ => none

/-- A descriptor's words as one number, byte 0 lowest (R13). -/
def descNum : List W64 → Nat
  | [] => 0
  | w :: t => w.toNat + 2 ^ 64 * descNum t

def descOp (d : List W64) : Nat := bitsW (wordAt d 0) 0 8
def descFlags (d : List W64) : Nat := bitsW (wordAt d 0) 8 8

/-- The k-th operand of a descriptor. -/
def descArg (d : List W64) (ext : Bool) (k : Nat) : Nat :=
  match (descFields (descOp d) ext).getD [] |>.drop k with
  | [] => 0
  | (lo, len) :: _ => bitsOf (descNum d) lo len

/-- The bits no operand, nor byte 0 or 1, nor COOKIE uses (R432). -/
def descReserved (d : List W64) (ext : Bool) (fields : List (Nat × Nat)) : Nat :=
  let all := (0, 16) :: (if ext && descOp d != 4 then (32, 32) :: fields else fields)
  all.foldl (fun v f => v - bitsOf (descNum d) f.1 f.2 * 2 ^ f.1) (descNum d)

/-- The lowest privilege of an operation: 0 User, 1 Supervisor, 2 Warden (R428, R567). -/
def descPriv (op : Nat) : Nat :=
  match op with
  | 0x07 => 1 | 0x09 => 1 | 0x08 => 2
  | 0x43 => 1 | 0x44 => 1 | 0x45 => 1
  | 0x46 => 2 | 0x47 => 2 | 0x48 => 2 | 0x49 => 2 | 0x4A => 2 | 0x4B => 2 | 0x4C => 2
  | _ => 0

/-! ### Jobs -/

/-- The engine and context of a transfer's job. -/
def jobEng (j : Nat) : Nat := (j - 64) / 4
def jobCtx (j : Nat) : Nat := (j - 64) % 4

/-- The mover of a job (R437). -/
def State.jobMover (s : State) (j : Nat) : Nat :=
  if j < 64 then s.ringMover j else if jobEng j < 48 then jobEng j % 16 else 16 + jobEng j % 16

/-- The owner code, address space and privilege a job's accesses are made under (R350, R428). -/
def State.jobOwner (s : State) (j : Nat) : Nat := if j < 64 then s.fld Fld.rngOwnOwner j else engOwner (jobEng j)
def State.jobAsid (s : State) (j : Nat) : Nat :=
  if j < 64 then s.fld Fld.rngOwnAsid j else s.fld Fld.engCtxCfgAsid (jobEng j) (jobCtx j)
def State.jobPriv (s : State) (j : Nat) : Nat :=
  if j < 64 then s.fld Fld.rngOwnPriv j else s.fld Fld.engCtxCfgPriv (jobEng j) (jobCtx j)

/-- A job's operation; an engine's transfer is a COPY. -/
def Job.op (x : Job) (j : Nat) : Nat := if j < 64 then descOp x.desc else 1

def Job.dstFixed (x : Job) : Bool := descOp x.desc == 1 && bitOf (descFlags x.desc) 2
def Job.srcFixed (x : Job) : Bool := descOp x.desc == 1 && bitOf (descFlags x.desc) 3

/-- The words of a job's present line: 64 bytes, or what remains. -/
def Job.lineWords (x : Job) : Nat := min 8 ((x.len - x.done) / 8)

/-- Is a job stalled on a translation fault? -/
def State.jobStalled (s : State) (j : Nat) : Bool :=
  if j < 64 then s.fld Fld.rngStatState j == 4 else (s.ctx (jobEng j) (jobCtx j)).xfer.st == 2

/-- RNG_MOV_STAT of a mover as its jobs stand (R448). -/
def showMover (m : Nat) (s : State) : State :=
  let mine := (s.jobs.filter fun e => e.2.on && s.jobMover e.1 == m).map (·.1)
  let s := s.setFlag Fld.rngMovStatBusy (mine.any fun j => !s.jobStalled j) m
  s.setFlag Fld.rngMovStatStalled (mine.any s.jobStalled) m

/-- The mover of a job serves it. -/
def showServed (j : Nat) (s : State) : State :=
  let m := s.jobMover j
  showMover m (s.setFld Fld.rngMovStatServing (if j < 64 then j else 64 + jobCtx j) m)

/-- An archive operation of ring n leaves the controller's queue (R565). -/
def unqueue (n : Nat) (s : State) : State :=
  if s.arc.queue.contains n then
    let q := s.arc.queue.filter (· != n)
    { s with arc := { s.arc with queue := q } }.setFld Fld.arcStatQueued q.length
  else s

/-- A ring's descriptor completes with a status: its record if NOTIFY is set or the status is not OK (R432, R442). -/
def completeDesc (n status : Nat) (s : State) : State :=
  let x := s.job n
  let m := s.jobMover n
  let cookie := if s.extended n && descOp x.desc != 4 then bitsW (wordAt x.desc 0) 32 32 else 0
  let ws := [BitVec.ofNat 64 (status % 2 ^ 16 + n % 2 ^ 8 * 2 ^ 24 + cookie * 2 ^ 32),
    BitVec.ofNat 64 (x.index % 2 ^ 16 + descOp x.desc * 2 ^ 16 + x.done % 2 ^ 32 * 2 ^ 32), s.dt, x.result]
  let s := unqueue n (showMover m ((s.setJob n {}).orphan (.mover n)))
  let s := if status = Code.ok then s else s.bump Fld.rngCntErrors n
  if status = Code.ok ∧ !bitOf (descFlags x.desc) 1 then s else putCompletion n ws s

/-- A job ends with a status: its ring's descriptor completes, or its context's transfer ends. -/
def endJob (j status : Nat) (s : State) : State :=
  if j < 64 then completeDesc j status s
  else
    let m := s.jobMover j
    showMover m (endXfer (jobEng j) (jobCtx j) status s)

/-- A job's access to host memory finds no link (R419, R438). -/
def jobLinkDown (j : Nat) (s : State) : State :=
  if j < 64 then
    let m := s.jobMover j
    unqueue j (showMover m (ringError j Code.linkDown (s.setJob j {})))
  else endJob j Code.linkDown s

/-- The part of a line that a stop discards (R438). Words popped from SRC_FIXED are kept: they are never read twice. -/
def dropLine (j : Nat) (s : State) : State :=
  let x := s.job j
  s.setJob j { x with buf := if x.srcFixed then x.buf else [], put := x.put && x.srcFixed, sent := 0 }

/-- A translation fault of a job (R438, R472). -/
def jobFault (j code va : Nat) (write : Bool) (s : State) : State :=
  let s := dropLine j (s.xlFault code (s.jobAsid j) va (176 + s.jobMover j) (s.jobPriv j) write)
  let x := s.job j
  if j < 64 then
    if s.fld Fld.rngCfgFaultPolicy j = 0 then
      let s := (s.setFld Fld.rngStatState 4 j).setFld Fld.rngStatCode code j
      let s := s.setReg Reg.rngFault (BitVec.ofNat 64 (code % 2 ^ 16 + x.index % 2 ^ 16 * 2 ^ 16
        + x.done / 2 % 2 ^ 31 * 2 ^ 32 + 2 ^ 63)) j
      let s := (s.setFld Fld.rngFaddrAddr va j).bump Fld.rngCntStalls j
      (showMover (s.jobMover j) s).notice Code.xferStalled j
    else completeDesc j Code.aborted (s.setJob j { x with result := BitVec.ofNat 64 code })
  else
    let n := jobEng j
    let c := jobCtx j
    let f := (s.ctx n c).xfer
    let s := chargeFault n c code f.pc false va s
    if s.fld Fld.engCtxCfgXferPolicy n c = 0 then
      showMover (s.jobMover j) (s.setCtx n c { s.ctx n c with xfer := { f with st := 2, status := code } })
    else endJob j Code.aborted s

/-! ### Accesses of a mover -/

/-- What a step of a line comes to: it is whole, it waits, or the job has ended or stalled. -/
inductive Line where
  | ready
  | busy
  | over
  deriving DecidableEq, Repr

/-- Does a mover's walk run already? -/
def State.moverWalks (s : State) (k : Nat) : Bool :=
  s.wtu.walks.any fun w => match w.who with | .mover i => i == k | _ => false

/-- An address translated on a mover's path (R466): where it leads, or nothing while it walks. `k` names the walk. -/
def moverXl (k m asid priv : Nat) (op : TOp) (va : Nat) (s : State) : State × Xl :=
  match s.translate (moverCaches m) asid priv op va with
  | .miss =>
    (if s.moverWalks k then s else s.startWalk (.mover k) (moverCaches m) (176 + m) asid priv op.writes va, .miss)
  | r => (s, r)

/-- The accesses of `words` words from `va` on translated: where the first leads, once the one beyond the next 64-byte
boundary, if any, passes too (R473); with a fault, its address. -/
def moverXls (j : Nat) (op : TOp) (va words : Nat) (s : State) : State × Xl × Nat :=
  let one (va : Nat) (s : State) : State × Xl := moverXl j (s.jobMover j) (s.jobAsid j) (s.jobPriv j) op va s
  match one va s with
  | (s, .ok sp a) =>
    if va % 64 + 8 * words ≤ 64 then (s, .ok sp a, va)
    else
      let next := va / 64 * 64 + 64
      match one next s with
      | (s, .ok _ _) => (s, .ok sp a, va)
      | (s, r) => (s, r, next)
  | (s, r) => (s, r, va)

/-- What a device target answers a mover: as a bank's answer, or an answer that comes later. -/
inductive MoverAns where
  | wait
  | later
  | done (status : Nat) (data : List W64)
  deriving DecidableEq, Repr

/-- A mover's transaction as the spine would carry it. -/
def moverTrans (m owner asid priv : Nat) (op : TOp) (va len : Nat) (space : Space) (a : Nat) (data : List W64)
    (who : Asker) : Trans :=
  { port := 102 + m / 16, master := 176 + m, owner := owner, tag := 0, op := op, len := len, addr := a, space := space,
    asid := asid, priv := priv, va := va, marked := false, data := data, asker := who }

/-- A mover's answered access to a device target, behind what it posted before to that target (R216, R463). -/
def devAccess (t : Trans) (lost : Nat) (s : State) : State × MoverAns :=
  let answer (r : State × Ans) : State × MoverAns :=
    match r with
    | (s, .wait) => (s, .wait)
    | (s, .done st d) => (lostContests t.master lost s, .done st (d.getD []))
  if mustFollow s s.trans t then (s, .wait)
  else match targetOf t.addr with
    | .bank b w => answer (bankTake b ⟨1, t.owner, t.port, t.op, w, t.len, t.data⟩ s)
    | .queue q off => answer (windowTake q t.owner off t.len t.op t.data s)
    | .imem n o => answer (engTake n (imemBase n + o) true t.op t.len t.data s)
    | .dmem n o => answer (engTake n (dmemBase n + o) false t.op t.len t.data s)
    | .fabric sec off =>
      if !s.flag Fld.stwSportCfgInEn sec || s.flag Fld.stwSecHoldDark sec then (s, .done Code.aborted [])
      else if s.freeTags sec = [] then (s, .wait)
      else (presentIn sec off t false s, .later)
    | .nothing => (s, .done Code.noTarget [])

/-- The place of the first bad word of `len` words at a device address, before they are read (R439). -/
def State.firstBad (s : State) (a len : Nat) : Nat :=
  let bad (i : Nat) : Bool :=
    match targetOf (a + 8 * i) with
    | .bank b w => s.badBytes b w != 0
    | .imem n o => decide (2 ≤ Tab.get 0 s.ecc (imemBase n + o))
    | .dmem n o => decide (2 ≤ Tab.get 0 s.ecc (dmemBase n + o))
    | _ => false
  ((upFrom 0 len).find? bad).getD 0

/-! ### Reading a line -/

/-- Words read for the present line. POISONED words go on as read, and the first sets the job's status (R439); any other
status but OK ends the job. -/
def lineData (j status bad : Nat) (ws : List W64) (s : State) : State × Line :=
  let x := s.job j
  if status ≠ Code.ok ∧ status ≠ Code.poisoned then (endJob j status (dropLine j s), .over)
  else
    let at' := x.done + 8 * (x.buf.length + bad)
    let x := if status = Code.poisoned ∧ x.status = Code.ok then
        { x with status := Code.poisoned, bad := at', result := BitVec.ofNat 64 at' } else x
    (s.setJob j { x with buf := x.buf ++ ws, await := false }, .ready)

/-- The next read of the present line: up to the next 64-byte boundary, or one word from a fixed source. -/
def readPart (j lost : Nat) (s : State) : State × Line :=
  let x := s.job j
  let left := x.lineWords - x.buf.length
  let va := if x.srcFixed then x.src else x.src + x.done + 8 * x.buf.length
  let k := if x.srcFixed then 1 else min left ((64 - va % 64) / 8)
  let m := s.jobMover j
  match moverXls j .read va (if x.srcFixed then 1 else left) s with
  | (s, .fault code, at') => (jobFault j code at' false s, .over)
  | (s, .miss, _) => (s, .busy)
  | (s, .ok .host a, _) =>
    if !s.flag Fld.rngLinkUp then (jobLinkDown j s, .over)
    else if s.sys.retraining then (s, .busy)
    else
      let s := { s with hostOut := s.hostOut ++ [HostOut.read a k (102 + m / 16) 0 (.mover j)] }
      (s.setJob j { x with await := true }, .busy)
  | (s, .ok sp a, _) =>
    let bad := s.firstBad a k
    let t := moverTrans m (s.jobOwner j) (s.jobAsid j) (s.jobPriv j) .read va k sp a [] (.mover j)
    match devAccess t lost s with
    | (s, .wait) => (s, .busy)
    | (s, .later) => (s.setJob j { x with await := true }, .busy)
    | (s, .done st ws) => lineData j st bad ws s

/-- The present line read, in at most `fuel` accesses. -/
def readLine (j lost : Nat) : Nat → State → State × Line
  | 0, s => (s, .busy)
  | k + 1, s =>
    let x := s.job j
    if x.await then (s, .busy)
    else if x.lineWords ≤ x.buf.length then (s, .ready)
    else match readPart j lost s with
      | (s, .ready) => readLine j lost k s
      | r => r

/-! ### Writing a line -/

/-- The whole line written to a fixed destination as one WRITE_ACK (R436). -/
def putFixed (j lost : Nat) (s : State) : State × Line :=
  let x := s.job j
  let k := x.buf.length
  let m := s.jobMover j
  if 64 < x.dst % 64 + 8 * k then (endJob j Code.badOpcode s, .over)
  else match moverXls j .writeAck x.dst k s with
    | (s, .fault code, at') => (jobFault j code at' true s, .over)
    | (s, .miss, _) => (s, .busy)
    | (s, .ok sp a, _) =>
      let t := moverTrans m (s.jobOwner j) (s.jobAsid j) (s.jobPriv j) .writeAck x.dst k sp a x.buf (.mover j)
      if sp = .host then
        if !s.flag Fld.rngLinkUp then (jobLinkDown j s, .over)
        else if s.sys.retraining || mustFollow s s.trans t then (s, .busy)
        else ({ s with hostOut := s.hostOut ++ [HostOut.write a x.buf] }.setJob j { x with sent := k }, .ready)
      else match devAccess t lost s with
        | (s, .wait) => (s, .busy)
        | (s, .later) => (s.setJob j { x with await := true }, .busy)
        | (s, .done st _) =>
          if st = Code.ok then (s.setJob j { x with sent := k }, .ready) else (endJob j st s, .over)

/-- The next posted write of the present line, to its address from `base` on. -/
def putPart (j base : Nat) (s : State) : State × Line :=
  let x := s.job j
  let left := x.buf.length - x.sent
  let va := base + 8 * x.sent
  let k := min left ((64 - va % 64) / 8)
  let m := s.jobMover j
  match moverXls j .write va left s with
  | (s, .fault code, at') => (jobFault j code at' true s, .over)
  | (s, .miss, _) => (s, .busy)
  | (s, .ok sp a, _) =>
    if sp = .host ∧ !s.flag Fld.rngLinkUp then (jobLinkDown j s, .over)
    else
      let data := (x.buf.drop x.sent).take k
      let s := s.putTrans (moverTrans m (s.jobOwner j) (s.jobAsid j) (s.jobPriv j) .write va k sp a data (.mover j))
      (s.setJob j { x with sent := x.sent + k }, .ready)

/-- The present line written, in at most `fuel` accesses. -/
def putLine (j base lost : Nat) : Nat → State → State × Line
  | 0, s => (s, .busy)
  | k + 1, s =>
    let x := s.job j
    if x.await then (s, .busy)
    else if x.buf.length ≤ x.sent then (s, .ready)
    else match if x.dstFixed then putFixed j lost s else putPart j base s with
      | (s, .ready) => putLine j base lost k s
      | r => r

/-- The line is done: `bytes` of the transfer are behind it. -/
def nextLine (j bytes : Nat) (s : State) : State :=
  let x := s.job j
  s.setJob j { x with buf := [], put := false, sent := 0, done := x.done + bytes }

end Sys2Proof.Machine
end

