-- ==== Sys2Proof/Machine/Movers.lean ====
section
/-! DEFINITION. Descriptors: their fetch, their checks, and what each does; block transfers; the answers movers wait for;
the contact sheet (10_host_link_and_rings R429 to R439, R446, R447; 08_motion_engines R350). -/

namespace Sys2Proof.Machine

/-! ### Lines put to their use -/

/-- An image of an ARM_IMG handed to the scheduler (R434): the reply word. -/
def armImage (j : Nat) (img : List W64) (s : State) : State × W64 :=
  let (s, code, slot) := armEvent (.ring j) (s.jobOwner j) (wordAt img 0) (wordAt img 1) (wordAt img 2) (wordAt img 3) s
  let x := s.job j
  let x := if code = Code.ok then { x with count := x.count + 1, result := BitVec.ofNat 64 ((x.count + 1) % 2 ^ 16) }
    else { x with status := Code.armPartial, result := BitVec.ofNat 64 (x.count % 2 ^ 16) }
  (s.setJob j x, replyWord s code slot)

/-- The images of a line armed in order; the replies are the line to write. -/
def armLine (j : Nat) : Nat → List W64 → State → State × List W64
  | 0, _, s => (s, [])
  | _, [], s => (s, [])
  | k + 1, ws, s =>
    let (s, r) := armImage j (ws.take 4) s
    let (s, rs) := armLine j k (ws.drop 4) s
    (s, r :: rs)

/-- Does the transfer's line go back to memory as it was read? COPY, and an engine's transfer. -/
def copies (op : Nat) : Bool := op == 1

/-- Does the operation collect what it reads for the archive? ARC_WRITE, REC_WRITE, IMG_WRITE. -/
def collects (op : Nat) : Bool := op == 0x41 || op == 0x44 || op == 0x47

/-- Does the operation write to memory what it holds? SHEET, ARC_READ, REC_READ, IMG_READ. -/
def gives (op : Nat) : Bool := op == 0x09 || op == 0x40 || op == 0x43 || op == 0x49

/-- Bytes of a line that the loader took, the rest of the line still to be offered (R494). -/
def loadLine (j : Nat) (s : State) : State × Line :=
  let x := s.job j
  let cont := x.count == s.ldr.gen + 1
  if x.count ≠ 0 ∧ !cont then (endJob j (s.fld Fld.ldrErrCode) s, .over)
  else
    let bs := (bytesOfWords x.buf).drop x.sent
    match ldrOffer 2 (some j) cont bs s with
    | (s, .refused code) => (endJob j code s, .over)
    | (s, .beyond) =>
      let s := s.setJob j { x with status := Code.streamLong }
      (nextLine j (8 * x.buf.length) s, .ready)
    | (s, .took k) =>
      let s := s.setJob j { x with sent := x.sent + k, count := s.ldr.gen + 1 }
      if x.sent + k = 8 * x.buf.length then (nextLine j (8 * x.buf.length) s, .ready) else (s, .busy)

/-- A whole line put to its use (R433 to R436, R566). -/
def useLine (j : Nat) (s : State) : State × Line :=
  let x := s.job j
  match x.op j with
  | 0x05 =>
    let words := x.buf.length / 4
    if x.dst = 0 then
      let bytes := 8 * x.buf.length
      (nextLine j bytes (armLine j 2 x.buf s).1, .ready)
    else match moverXls j .write (x.dst + x.done / 4) words s with
      | (s, .fault code, at') => (jobFault j code at' true s, .over)
      | (s, .miss, _) => (s, .busy)
      | (s, .ok _ _, _) =>
        let (s, rs) := armLine j 2 x.buf s
        (s.setJob j { s.job j with buf := rs, put := true, sent := 0 }, .ready)
  | 0x07 =>
    let ext := s.extended j
    let valid := descArg x.desc ext 1
    let (s, status) := tbWrite (descArg x.desc ext 0) (wordAt x.buf 3) (wordAt x.buf 0) (wordAt x.buf 1) (wordAt x.buf 2)
      (bitOf valid 0) (bitOf valid 1) s
    let s := nextLine j 32 s
    (endJob j (if x.status = Code.ok then status else x.status) s, .over)
  | 0x08 => loadLine j s
  | op =>
    if collects op then
      let s := s.setJob j { x with acc := x.acc ++ x.buf }
      (nextLine j (8 * x.buf.length) s, .ready)
    else (s.setJob j { x with put := true, sent := 0 }, .ready)

/-- The present line being written goes on; the bytes of the transfer it stands for are then done. -/
def writeLine (j lost : Nat) (s : State) : State × Line :=
  let x := s.job j
  let base := if x.op j = 5 then x.dst + x.done / 4 else x.dst + x.done
  match putLine j base lost 9 s with
  | (s, .ready) =>
    let x := s.job j
    let bytes := if x.op j = 5 then 32 * x.buf.length else 8 * x.buf.length
    (nextLine j bytes s, .ready)
  | r => r

/-- The words an operation holds ready for memory become the line to write. -/
def takeLine (j : Nat) (s : State) : State × Line :=
  let x := s.job j
  if x.acc = [] then (s, .busy)
  else
    let k := min 8 (min x.lineWords x.acc.length)
    (s.setJob j { x with buf := x.acc.take k, acc := x.acc.drop k, put := true, sent := 0 }, .ready)

/-- A job's transfer is done. Archive operations end with the archive's own work (R566). -/
def jobDone (j : Nat) (s : State) : State × Line :=
  let x := s.job j
  if 0x40 ≤ x.op j then (s, .busy) else (endJob j x.status s, .over)

/-- One line of a job: read, used, or written, as far as it goes. -/
def jobLine (j lost : Nat) (s : State) : State × Line :=
  let x := s.job j
  if !x.on then (s, .over)
  else if s.jobStalled j || x.await then (s, .busy)
  else if x.put then writeLine j lost s
  else if x.len ≤ x.done then jobDone j s
  else if gives (x.op j) then takeLine j s
  else match readLine j lost 9 s with
    | (s, .ready) => useLine j s
    | r => r

/-- A job taken on by at most `fuel` lines read or written: a chunk of 4 KiB (R437). -/
def jobRun (j lost : Nat) : Nat → State → State
  | 0, s => s
  | k + 1, s =>
    match jobLine j lost s with
    | (s, .ready) => jobRun j lost k s
    | (s, _) => s

/-- A mover serves a job for one chunk. -/
def jobChunk (j lost : Nat) (s : State) : State := jobRun j lost 160 (showServed j s)

/-! ### Starting descriptors (R432 to R435, R437) -/

/-- What is wrong with a descriptor's lengths and addresses (R433). -/
def argsBad (d : List W64) (ext : Bool) : Bool :=
  let a := descArg d ext
  match descOp d with
  | 0x01 => a 0 % 8 != 0 || a 1 % 8 != 0 || (ext && (a 2 == 0 || a 2 % 8 != 0))
  | 0x05 => a 0 % 32 != 0 || a 1 % 8 != 0
  | 0x07 => a 2 % 8 != 0
  | 0x08 => a 0 % 8 != 0 || a 1 == 0 || a 1 % 8 != 0
  | 0x09 => a 0 % 64 != 0
  | _ => false

/-- A descriptor's checks, in the order BAD_OPCODE, BAD_RESERVED, RING_PRIV, BAD_OPCODE of its values (R428, R432, R433). -/
def descCheck (n : Nat) (d : List W64) (s : State) : Nat :=
  match descFields (descOp d) (s.extended n) with
  | none => Code.badOpcode
  | some fields =>
    let fl := descFlags d
    if bitsOf fl 4 4 ≠ 0 ∨ (descOp d ≠ 1 ∧ bitsOf fl 2 2 ≠ 0) ∨ descReserved d (s.extended n) fields ≠ 0 then Code.badReserved
    else if s.fld Fld.rngOwnPriv n < descPriv (descOp d) then Code.ringPriv
    else if argsBad d (s.extended n) then Code.badOpcode
    else Code.ok

/-- The row a descriptor goes by: its operation's, or NOP's where the operation is not defined in either format. -/
def descRow (d : List W64) : Nat :=
  if (descFields (descOp d) false).isSome || (descFields (descOp d) true).isSome then descOp d else 0

/-- Have the writes that a ring's earlier descriptors posted all been delivered? (R432) -/
def State.fenced (s : State) (n : Nat) : Bool :=
  !(s.trans.any fun t => t.asker == .mover n) && !(s.spine.inbound.any fun i => i.asker == .mover n)
    && !(s.wtu.walks.any fun w => match w.who with | .trans t => t.asker == .mover n | _ => false)

/-- A transfer's addresses and length set at its start. -/
def setTransfer (n src dst len : Nat) (s : State) : State :=
  s.setJob n { s.job n with src := src, dst := dst, len := len }

/-- A descriptor's RESULT set. -/
def setResult (n : Nat) (v : W64) (s : State) : State := s.setJob n { s.job n with result := v }

/-- MSG (R213, R433): the token goes to the spine; a TARGET of 0x1000 and above names a sector's port (R340, R415), where
the presented TARGET is not stated. -/
def descToken (n target : Nat) (v : W64) (s : State) : State :=
  let m := s.ringMover n
  let sector := 0x1000 ≤ target ∧ target < 0x1050
  if !(target < 0x300 ∨ (0x400 ≤ target ∧ target < 0x420) ∨ sector) then
    completeDesc n Code.badReserved (refusedAt (102 + m / 16) s)
  else
    let shown := if sector then s.freeNat % 2 ^ 16 else target
    let s := if sector then s.tookFree else s
    let t := { moverTrans m (s.jobOwner n) 0 0 .msg target 1 .dev shown [v] (.mover n) with space := .dev }
    completeDesc n Code.ok (s.putTrans t)

/-- An arm or cancel done: its reply word is RESULT (R442). -/
def descReply (n code slot : Nat) (s : State) : State := completeDesc n code (setResult n (replyWord s code slot) s)

/-- A descriptor whose checks have passed begins. -/
def descBegin (n lost : Nat) (s : State) : State :=
  let d := (s.job n).desc
  let ext := s.extended n
  let a := descArg d ext
  match descOp d with
  | 0x01 => jobChunk n lost (setTransfer n (a 0) (a 1) (if ext then a 2 else 8 * (if a 2 = 0 then 65536 else a 2)) s)
  | 0x02 => descToken n (a 0) (BitVec.ofNat 64 (a 1)) s
  | 0x03 =>
    if !bitOf (a 0) 19 then
      let (s, slot) := refusedArm (.ring n) Code.badEvent (BitVec.ofNat 64 (a 0)) s
      descReply n Code.badEvent slot s
    else
      let (s, code, slot) := armEvent (.ring n) (s.jobOwner n) (BitVec.ofNat 64 (a 1)) 0 0 (BitVec.ofNat 64 (a 0)) s
      descReply n code slot s
  | 0x04 =>
    let (s, code, slot) := armEvent (.ring n) (s.jobOwner n) (BitVec.ofNat 64 (a 1)) (BitVec.ofNat 64 (a 0))
      (BitVec.ofNat 64 (a 2)) (BitVec.ofNat 64 (a 3)) s
    descReply n code slot s
  | 0x05 => jobChunk n lost (setTransfer n (a 0) (a 1) (32 * (if a 2 = 0 then 256 else a 2)) s)
  | 0x06 =>
    let (s, code) := cancelBy (.ring n) (a 0) s
    descReply n code (a 0) s
  | 0x07 => jobChunk n lost (setTransfer n (a 2) 0 32 s)
  | 0x08 => jobChunk n lost (setTransfer n (a 0) 0 (a 1) s)
  | 0x09 => setTransfer n 0 (a 0) 3456 s
  | _ => completeDesc n Code.ok s

/-- A descriptor row of ring n: the operation under way goes on, or the oldest fetched descriptor, if it is one of the
row's, starts (R437). FENCE makes it wait (R432). `more` begins the operations of other chapters. -/
def descStep (n row lost : Nat) (more : State → State) (s : State) : State :=
  let x := s.job n
  if x.on then (if x.op n = row then jobChunk n lost s else s)
  else match (s.ring n).fetched with
    | [] => s
    | (i, d) :: rest =>
      if descRow d ≠ row ∨ s.fld Fld.rngStatState n ≠ 1 ∨ !s.ringsGo ∨ (s.ring n).record.isSome then s
      else if bitOf (descFlags d) 0 && !s.fenced n then s
      else
        let s := s.setRing n { s.ring n with fetched := rest }
        let s := showServed n (s.setJob n { on := true, desc := d, index := i })
        let code := descCheck n d s
        if code ≠ Code.ok then completeDesc n code s
        else if row < 0x40 then descBegin n lost s
        else more s

/-- DESC_NOP (R433): NOP, and every operation that is not defined. -/
def execDescNop (n : Fin 64) (s : State) : Out := .next (descStep n.val 0x00 0 id s)
/-- COPY (R436). -/
def execDescCopy (n : Fin 64) (lost : Fin 4) (s : State) : Out := .next (descStep n.val 0x01 lost.val id s)
/-- MSG (R433). -/
def execDescMsg (n : Fin 64) (s : State) : Out := .next (descStep n.val 0x02 0 id s)
/-- ARM_SHORT (R434). -/
def execArmShort (n : Fin 64) (s : State) : Out := .next (descStep n.val 0x03 0 id s)
/-- ARM_INLINE (R434). -/
def execArmInline (n : Fin 64) (s : State) : Out := .next (descStep n.val 0x04 0 id s)
/-- ARM_IMG (R434). -/
def execArmImg (n : Fin 64) (lost : Fin 4) (s : State) : Out := .next (descStep n.val 0x05 lost.val id s)
/-- CANCEL (R433). -/
def execDescCancel (n : Fin 64) (s : State) : Out := .next (descStep n.val 0x06 0 id s)
/-- TB_WRITE (R435). -/
def execTbWrite (n : Fin 64) (lost : Fin 4) (s : State) : Out := .next (descStep n.val 0x07 lost.val id s)
/-- LOAD (R494). -/
def execDescLoad (n : Fin 64) (lost : Fin 4) (s : State) : Out := .next (descStep n.val 0x08 lost.val id s)
/-- SHEET (R447): the descriptor waits for the next update instant, and its sheet is then written. -/
def execDescSheet (n : Fin 64) (s : State) : Out := .next (descStep n.val 0x09 0 id s)

/-- XFER_END (R350): an engine's transfer goes on to its end, its stall or its abort. -/
def execXferEnd (n : Fin 96) (c : Fin 4) (lost : Fin 4) (s : State) : Out :=
  .next (jobChunk (64 + 4 * n.val + c.val) lost.val s)

/-! ### Fetching (R431) -/

/-- A fetched descriptor put behind the others. -/
def fetchDone (n : Nat) (ws : List W64) (s : State) : State :=
  let r := s.ring n
  let i := (s.fld Fld.rngIdxDevIdx n + s.ringSize n - 1) % s.ringSize n
  s.setRing n { r with fetching := false, fetched := r.fetched ++ [(i, ws)] }

/-- DESCRIPTOR_FETCH (R431): the next descriptor of command ring n is read; DEV_IDX moves with the read. -/
def descFetch (n lost : Nat) (s : State) : State :=
  let r := s.ring n
  let i := s.fld Fld.rngIdxDevIdx n
  let words := if s.extended n then 4 else 2
  let m := s.ringMover n
  let asid := s.fld Fld.rngOwnAsid n
  let priv := s.fld Fld.rngOwnPriv n
  let va := s.fld Fld.rngBaseAddr n + 8 * words * i
  if !s.ringOpen n 0 || !s.ringsGo || s.fld Fld.rngIdxHostIdx n % s.ringSize n == i || r.fetching || r.record.isSome
      || decide (8 ≤ r.fetched.length) then s
  else match moverXl (512 + n) m asid priv .read va s with
    | (s, .fault code) => ringError n Code.fetchFault (s.xlFault code asid va (176 + m) priv false)
    | (s, .miss) => s
    | (s, .ok .host a) =>
      if !s.flag Fld.rngLinkUp then ringError n Code.linkDown s
      else if s.sys.retraining then s
      else
        let s := s.setFld Fld.rngIdxDevIdx ((i + 1) % s.ringSize n) n
        let s := { s with hostOut := s.hostOut ++ [HostOut.read a words (102 + m / 16) 0 (.record n)] }
        s.setRing n { r with fetching := true }
    | (s, .ok sp a) =>
      match devAccess (moverTrans m (s.fld Fld.rngOwnOwner n) asid priv .read va words sp a [] (.record n)) lost s with
      | (s, .wait) => s
      | (s, .later) =>
        let s := s.setFld Fld.rngIdxDevIdx ((i + 1) % s.ringSize n) n
        s.setRing n { s.ring n with fetching := true }
      | (s, .done st ws) =>
        if st ≠ Code.ok ∧ st ≠ Code.poisoned then ringError n st s
        else fetchDone n ws (s.setFld Fld.rngIdxDevIdx ((i + 1) % s.ringSize n) n)

def execDescriptorFetch (n : Fin 64) (lost : Fin 4) (s : State) : Out := .next (descFetch n.val lost.val s)

/-! ### Answers movers wait for (R438) -/

/-- Words, or an error, that a job or a fetch waited for. -/
def moverAnswer (who : Asker) (status : Nat) (ws : List W64) (s : State) : State :=
  match who with
  | .mover j =>
    let x := s.job j
    if !x.on || !x.await then s
    else
      let s := s.setJob j { x with await := false }
      if x.put then
        if status = Code.ok then s.setJob j { s.job j with sent := x.buf.length } else endJob j status s
      else (lineData j status 0 ws s).1
  | .record n =>
    if !(s.ring n).fetching then s
    else if status ≠ Code.ok ∧ status ≠ Code.poisoned then
      ringError n status (s.setRing n { s.ring n with fetching := false })
    else fetchDone n ws s
  | _ => s

/-- HOST_READ_COMPLETION (R438): the k-th item the host link holds, if a read request, is completed with data, or with an
error. -/
def hostCompletion (k : Nat) (ok : Bool) (data : List W64) (s : State) : State :=
  match s.hostOut[k]? with
  | some (.read _ words port tag who) =>
    if ok ∧ data.length ≠ words then s
    else
      let s := { s with hostOut := dropAt s.hostOut k }
      let status := if ok then Code.ok else Code.hostErr
      match who with
      | .port _ => s.putRsp ⟨port, tag, status, ok, data, who⟩
      | .context _ _ => s.putRsp ⟨port, tag, status, ok, data, who⟩
      | _ => moverAnswer who status (if ok then data else []) s
  | _ => s

def execHostReadCompletion (k : Fin 4096) (ok : Bool) (data : List W64) (s : State) : Out :=
  .next (hostCompletion k.val ok data s)

/-- A fabric target's answer on IN_RSP (R212): matched by TAG, or discarded and counted. A mover's goes to its job. -/
def fabricAnswer (sec tag status : Nat) (data : List W64) (s : State) : State :=
  match s.spine.inbound.find? fun i => i.sector == sec && i.tag == tag && i.wants with
  | none => s.bump Fld.stwSportCntDiscard sec
  | some i =>
    let s := { s with spine := { s.spine with inbound := s.spine.inbound.erase i } }
    match i.asker with
    | .mover _ => moverAnswer i.asker status data s
    | .record _ => moverAnswer i.asker status data s
    | _ => s.putRsp ⟨i.port, i.mtag, status, data != [], data, i.asker⟩

/-- A response on its way that belongs to a mover (its target's port timed out or went dark) reaches it. -/
def moverRespond (k : Nat) (s : State) : State :=
  match s.rsps[k]? with
  | none => s
  | some r =>
    let gone := { s with rsps := dropAt s.rsps k }
    match r.asker with
    | .mover _ => moverAnswer r.asker r.status r.data gone
    | .record _ => moverAnswer r.asker r.status r.data gone
    | .none => gone
    | _ => spineRespond k s

/-- SPINE_RESPONSE (R212): a response returns to its master (the k-th on its way), or a fabric target answers. -/
def execSpineResponse (fabric : Bool) (k : Fin 2048) (sec : Fin 80) (tag : Byte) (status : BitVec 16) (data : List W64)
    (s : State) : Out :=
  .next (if fabric then if s.frozen sec.val then s else fabricAnswer sec.val tag.toNat status.toNat (data.take 8) s else moverRespond k.val s)

/-! ### The contact sheet (R446, R447) -/

/-- Two 32-bit values as a word, the first low. -/
def pair (lo hi : W64) : W64 := BitVec.ofNat 64 (lo.toNat % 2 ^ 32 + hi.toNat % 2 ^ 32 * 2 ^ 32)

/-- A list of 32-bit values as words. -/
def pairs : List W64 → List W64
  | a :: b :: t => pair a b :: pairs t
  | [a] => [pair a 0]
  | [] => []

/-- The engine's word of a sheet. -/
def sheetEngine (s : State) (n : Nat) : W64 :=
  let c (k : Nat) : Nat := bitsW (s.reg Reg.engCtxStat n k) 0 8 * 2 ^ (32 + 8 * k)
  BitVec.ofNat 64 ((s.reg Reg.engStat n).toNat % 2 ^ 32 + c 0 + c 1 + c 2 + c 3)

/-- The queue's half-word of a sheet. -/
def sheetQueue (s : State) (q : Nat) : Nat :=
  s.fld Fld.queStatFill q % 2 ^ 11 + s.fld Fld.queStatXoff q * 2 ^ 11 + s.fld Fld.queStatUnderrun q * 2 ^ 12
    + s.fld Fld.queStatPoisoned q * 2 ^ 13 + s.fld Fld.queStatOverflow q * 2 ^ 14 + b2n (s.queRuns q) * 2 ^ 15

/-- A contact sheet's 432 words (R447). -/
def sheetWords (seq : Nat) (s : State) : List W64 :=
  let r (x : Reg) (i : Nat := 0) : W64 := s.reg x i
  let zeros (k : Nat) : List W64 := List.replicate k 0
  let flags : W64 := BitVec.ofNat 64 (s.fld Fld.evtStatClkDegraded 0 + seq % 2 * 2)
  [pair (BitVec.ofNat 64 seq) 3456, s.dt, pair (BitVec.ofNat 64 (s.fld Fld.rngSheetStatSkipped)) flags] ++ zeros 5
  ++ [pair (r Reg.stwLoad 0) (r Reg.stwLoad 1), pair (r Reg.stwLead) (r Reg.clkStat), pair (r Reg.evtStat 0) (r Reg.evtStat 1),
      r Reg.evtCnt 0, r Reg.evtCnt 1, pair (r Reg.stwSpineStat) (r Reg.bnkPerr), r Reg.stwAlarm, 0]
  ++ (upFrom 0 32).flatMap (fun n => [r Reg.tbPos n, r Reg.tbVel n, r Reg.tbAcc n, pair (r Reg.tbStat n) (r Reg.tbFault n)])
  ++ (upFrom 0 96).map (sheetEngine s)
  ++ (upFrom 0 40).map (fun k => BitVec.ofNat 64 (sheetQueue s (4 * k) + sheetQueue s (4 * k + 1) * 2 ^ 16
      + sheetQueue s (4 * k + 2) * 2 ^ 32 + sheetQueue s (4 * k + 3) * 2 ^ 48))
  ++ pairs ((upFrom 0 32).map (fun n => r Reg.tbErrcnt n)) ++ (upFrom 0 96).map (fun n => r Reg.engCnt n)
  ++ pairs ((upFrom 0 64).map (fun n => r Reg.rngStat n)) ++ [pair (BitVec.ofNat 64 seq) 0] ++ zeros 7

/-- A sheet's lines posted from an address on, header first (R446). -/
def postSheet (asid addr : Nat) : Nat → List W64 → State → State
  | 0, _, s => s
  | k + 1, ws, s =>
    if ws = [] then s
    else postSheet asid (addr + 64) k (ws.drop 8) (s.postWrite 0 0 asid 2 addr (ws.take 8) .sheet)

/-- The interval sheet due at this instant: taken and written, or skipped where the last has not all been issued. -/
def intervalSheet (s : State) : State :=
  let busy := s.trans.any (fun t => t.asker == Asker.sheet)
    || s.wtu.walks.any fun w => match w.who with | .trans t => t.asker == Asker.sheet | _ => false
  if busy then (s.bump Fld.rngSheetStatSkipped).notice Code.sheetSkipped 0
  else
    let seq := (s.fld Fld.rngSheetStatSeq + 1) % 2 ^ 32
    let s := s.setFld Fld.rngSheetStatSeq seq
    postSheet (s.fld Fld.rngSheetBaseAsid) (s.fld Fld.rngSheetBaseAddr + 0x1000 * (seq % 2)) 54 (sheetWords seq s) s

/-- Is an update instant one at which an interval sheet is due? -/
def State.sheetDue (s : State) : Bool :=
  s.flag Fld.rngSheetCfgEn && s.dt.toNat % (s.fld Fld.rngSheetCfgInterval * 2500) == 0

/-- SHEET_CAPTURE (R446): at an update instant, the interval sheet that is due, and the sheets that SHEET descriptors wait
for (SEQ 0). -/
def sheetCapture (s : State) : State :=
  if s.dt.toNat % 250 ≠ 0 ∨ s.asleep then s
  else
    let ws := sheetWords 0 s
    let waits (s : State) (n : Nat) : Bool := let x := s.job n; x.on && x.op n == 0x09 && x.done == 0 && x.acc == [] && !x.put
    let s := (upFrom 0 64).foldl (fun s n => if waits s n then s.setJob n { s.job n with acc := ws } else s) s
    if s.sheetDue then intervalSheet s else s

def execSheetCapture (s : State) : Out := .next (sheetCapture s)

end Sys2Proof.Machine
end

