-- ==== Sys2Proof/Machine/Rings.lean ====
section
/-! DEFINITION. Rings as the host drives them: doorbells, enabling and stopping, their registers, vectors under moderation,
the contact sheet's settings, and the events of the PCIe link (10_host_link_and_rings R419, R426 to R430, R438 to R449;
11_translation_and_protection R457, R458). -/

namespace Sys2Proof.Machine

/-! ### Setup (R449, R457, R458) -/

/-- A write refused in RNG_REFUSE (R448). -/
def ringRefused (n code : Nat) (s : State) : State := s.refuse Reg.rngRefuse code n

/-- The state `f s` if the writer's code is the ring's owner's (R457). -/
def State.ringOwned (s : State) (w : Writer) (n : Nat) (f : State → State) : State :=
  if s.ownerCode w = s.fld Fld.rngOwnOwner n then f s
  else ringRefused n Code.notOwner (s.deny Code.notOwner (s.ownerCode w) 3 n)

/-- Is a ring OFF? -/
def State.ringOff (s : State) (n : Nat) : Bool := s.fld Fld.rngStatState n == 0

/-- A write of RNG_CFG[n] (R449): TYPE 3 and a SIZE outside 4 to 16 are not allowed; every field but VEC is locked unless
the ring is OFF. -/
def ringCfgWrite (n : Nat) (v : W32) (s : State) : State :=
  let v64 : W64 := v.setWidth 64
  let old := s.reg Reg.rngCfg n
  let new := Reg.rngCfg.plain old v64 false
  let vec := maskW 20 8
  if bitsW new 0 2 = 3 ∨ bitsW new 3 5 < 4 ∨ 16 < bitsW new 3 5 then ringRefused n Code.ringBadCfg s
  else if !s.ringOff n ∧ old &&& ~~~vec ≠ new &&& ~~~vec then ringRefused n Code.ringBusy s
  else s.setReg Reg.rngCfg new n

/-- A write of RNG_BASE[n] (R426, R448). -/
def ringBaseWrite (n : Nat) (v : W64) (s : State) : State :=
  let new := Reg.rngBase.plain (s.reg Reg.rngBase n) v false
  if bitsW new 0 6 ≠ 0 then ringRefused n Code.ringBadCfg s
  else if !s.ringOff n ∧ s.reg Reg.rngBase n ≠ new then ringRefused n Code.ringBusy s
  else s.setReg Reg.rngBase new n

/-- A write of RNG_MOD[n] (R445). -/
def ringModWrite (n : Nat) (v : W32) (s : State) : State :=
  s.setReg Reg.rngMod (Reg.rngMod.plain (s.reg Reg.rngMod n) (v.setWidth 64) false) n

/-- RING_CFG_WRITE (R449): RNG_CFG, or RNG_BASE where `base`. -/
def execRingCfgWrite (w : Writer) (n : Fin 64) (base : Bool) (v : W64) (s : State) : Out :=
  .next (s.linked w (Reg.rngCfg.addr n.val 0) fun s =>
    s.ringOwned w n.val (if base then ringBaseWrite n.val v else ringCfgWrite n.val (v.setWidth 32)))

/-- A write of RNG_OWN[n] (R449, R458). -/
def ringOwnWrite (w : Writer) (n : Nat) (v : W32) (s : State) : State :=
  let new := Reg.rngOwn.plain (s.reg Reg.rngOwn n) (v.setWidth 64) true
  s.wardenOr w (Reg.rngOwn.addr n 0) fun s =>
    if 1 < bitsW new 0 8 then ringRefused n Code.ownerBad (s.deny Code.ownerBad (s.ownerCode w) 3 n)
    else if bitsW new 16 2 = 3 then ringRefused n Code.ringBadCfg s
    else if !s.ringOff n ∧ s.reg Reg.rngOwn n ≠ new then ringRefused n Code.ringBusy s
    else s.setReg Reg.rngOwn new n

/-- RING_OWN_WRITE (R458). -/
def execRingOwnWrite (w : Writer) (n : Fin 64) (v : W32) (s : State) : Out :=
  .next (s.linked w (Reg.rngOwn.addr n.val 0) (ringOwnWrite w n.val v))

/-! ### Starting and stopping (R440, R441) -/

/-- What a ring has under way is dropped: its descriptors, its reads and the record it keeps. -/
def ringForget (n : Nat) (s : State) : State :=
  let r := s.ring n
  let s := s.setRing n { r with fetching := false, fetched := [], record := none, modCount := 0 }
  let s := ((s.setJob n {}).orphan (.mover n)).orphan (.record n)
  unqueue n (showMover (s.ringMover n) (s.setFlag Fld.rngStatWaitCpl false n))

/-- A ring runs; what waits for a completion ring goes on. -/
def ringRun (n : Nat) (s : State) : State :=
  let s := s.setFld Fld.rngStatState 1 n
  if s.fld Fld.rngCfgType n = 1 then ringRoom n s else s

/-- A ring started from OFF by EN: both indices 0, and the write phase 1 where the device writes it (R440). -/
def ringStart (n : Nat) (s : State) : State :=
  let s := (ringForget n s).setReg Reg.rngIdx 0 n
  let s := if s.fld Fld.rngCfgType n = 0 then s else s.setFlag Fld.rngStatPhase true n
  ringRun n s

/-- EN = 1 (R440, R441). -/
def ringEnable (n : Nat) (s : State) : State :=
  let s := s.setFlag Fld.rngCtlEn true n
  match s.fld Fld.rngStatState n with
  | 0 => ringStart n s
  | 5 => ringStart n s
  | 2 => s.setFld Fld.rngStatState 3 n
  | _ => s

/-- EN = 0 (R441). -/
def ringDisable (n : Nat) (s : State) : State :=
  let s := s.setFlag Fld.rngCtlEn false n
  let s := if s.fld Fld.rngStatState n = 0 then s else s.setFld Fld.rngStatState 2 n
  if s.fld Fld.rngCfgType n = 1 then ringRoom n s else s

/-- RESUME (R438, R440): a STALLED ring continues. -/
def ringResume (n : Nat) (s : State) : State :=
  if s.fld Fld.rngStatState n = 4 then showMover (s.ringMover n) (s.setFld Fld.rngStatState 1 n) else s

/-- ABORT (R438, R440): a STALLED ring's descriptor completes with ABORTED. -/
def ringAbort (n : Nat) (s : State) : State :=
  if s.fld Fld.rngStatState n = 4 then completeDesc n Code.aborted (s.setFld Fld.rngStatState 1 n) else s

/-- CNT_CLR (R449). -/
def ringCntClr (n : Nat) (s : State) : State := s.setReg Reg.rngCnt 0 n

def execRingEnable (w : Writer) (n : Fin 64) (s : State) : Out :=
  .next (s.linked w (Reg.rngCtl.addr n.val 0) fun s => s.ringOwned w n.val (ringEnable n.val))
def execRingDisable (w : Writer) (n : Fin 64) (s : State) : Out :=
  .next (s.linked w (Reg.rngCtl.addr n.val 0) fun s => s.ringOwned w n.val (ringDisable n.val))
def execRingResume (w : Writer) (n : Fin 64) (s : State) : Out :=
  .next (s.linked w (Reg.rngCtl.addr n.val 0) fun s => s.ringOwned w n.val (ringResume n.val))
def execRingAbort (w : Writer) (n : Fin 64) (s : State) : Out :=
  .next (s.linked w (Reg.rngCtl.addr n.val 0) fun s => s.ringOwned w n.val (ringAbort n.val))
def execRingCntClr (w : Writer) (n : Fin 64) (s : State) : Out :=
  .next (s.linked w (Reg.rngCtl.addr n.val 0) fun s => s.ringOwned w n.val (ringCntClr n.val))

/-- The descriptors fetched and not started complete with CANCELLED, one after another, as far as the completion ring has
room (R441). -/
def cancelFetched (n : Nat) : Nat → State → State
  | 0, s => s
  | k + 1, s =>
    match (s.ring n).fetched with
    | [] => s
    | (i, d) :: rest =>
      if (s.ring n).record.isSome then s
      else
        let s := s.setRing n { s.ring n with fetched := rest }
        cancelFetched n k (completeDesc n Code.cancelled (s.setJob n { on := true, desc := d, index := i }))

/-- RING_STOP_DONE (R441): a stopping ring ends what it has under way and is OFF; a start latched meanwhile then runs. It
waits for a read on its way and for room for its records. -/
def ringStopDone (n : Nat) (s : State) : State :=
  let st := s.fld Fld.rngStatState n
  if !(st = 2 ∨ st = 3) ∨ (s.ring n).fetching ∨ (s.ring n).record.isSome then s
  else
    let s := if (s.job n).on then completeDesc n Code.aborted s else s
    let s := cancelFetched n 8 s
    if (s.ring n).record.isSome ∨ (s.ring n).fetched ≠ [] then s
    else
      let s := s.setFld Fld.rngStatState 0 n
      if st = 3 then ringStart n s else s

def execRingStopDone (n : Fin 64) (s : State) : Out := .next (ringStopDone n.val s)

/-! ### Doorbells (R429, R430) -/

/-- DOORBELL (R429): a write at byte `off` of ring n's page, of four bytes or not; `merged` says that the ring logic had not
taken the one before it (R430). -/
def doorbell (n off : Nat) (full : Bool) (v : W32) (merged : Bool) (s : State) : State :=
  let i := bitsW v 0 16
  let st := s.fld Fld.rngStatState n
  if off ≠ 0 ∨ !full then s.accessError
  else
    let s := if merged then s.bump Fld.rngCntDbMerged n else s
    if s.ringSize n ≤ i ∧ (st = 1 ∨ st = 4) then ringError n Code.dbRange s
    else
      let s := s.setFld Fld.rngIdxHostIdx i n
      if s.ringOpen n 1 then ringRoom n s else s

def execDoorbell (n : Fin 64) (off : Fin 4096) (full : Bool) (v : W32) (merged : Bool) (s : State) : Out :=
  .next (doorbell n.val off.val full v merged s)

/-- VECTOR_MOD_TIMER (R445): TIME µs after the first record not yet signalled, the ring's vector is raised. -/
def vectorTimer (n : Nat) (s : State) : State :=
  let t := s.fld Fld.rngModTime n
  if t = 0 ∨ (s.ring n).modCount = 0 ∨ s.now < (s.ring n).modAt + t * 80000 then s
  else (s.setRing n { s.ring n with modCount := 0 }).raiseVector (s.fld Fld.rngCfgVec n)

def execVectorModTimer (n : Fin 64) (s : State) : Out := .next (vectorTimer n.val s)

/-! ### The contact sheet's settings (R446, R448) -/

/-- A write of RNG_SHEET_CFG. SEQ and SKIPPED count from the setting of EN. -/
def sheetCfgWrite (v : W32) (s : State) : State :=
  let new := Reg.rngSheetCfg.plain (s.reg Reg.rngSheetCfg) (v.setWidth 64) false
  let k := bitsW new 0 20
  if k < 10 ∨ 1000000 < k then ringRefused 0 Code.ringBadCfg s
  else
    let s := if bitsW new 20 1 = 1 ∧ !s.flag Fld.rngSheetCfgEn then s.setReg Reg.rngSheetStat 0 else s
    s.setReg Reg.rngSheetCfg new

/-- SHEET_CFG_WRITE (R446). -/
def execSheetCfgWrite (w : Writer) (v : W32) (s : State) : Out :=
  .next (s.linked w Reg.rngSheetCfg.base (sheetCfgWrite v))

/-- A write of RNG_SHEET_BASE (R446): Warden only. -/
def sheetBaseWrite (w : Writer) (v : W64) (s : State) : State :=
  s.wardenOr w Reg.rngSheetBase.base fun s =>
    s.setReg Reg.rngSheetBase (Reg.rngSheetBase.plain (s.reg Reg.rngSheetBase) v true)

/-! ### The PCIe link (R419) -/

/-- LINK_RETRAIN (R419): movers wait for the host. -/
def execLinkRetrain (s : State) : Out :=
  .next (if s.flag Fld.rngLinkUp then { s.bump Fld.rngLinkRetrains with sys := { s.sys with retraining := true } } else s)

/-- LINK_UP (R419): the link has trained, at a rate Gen1 to Gen4 and a width of 1, 2 or 4 lanes. -/
def execLinkUp (rate : Fin 4) (width : Fin 3) (s : State) : Out :=
  let s := ((s.setFlag Fld.rngLinkUp true).setFld Fld.rngLinkRate (rate.val + 1)).setFld Fld.rngLinkWidth (2 ^ width.val)
  .next { s with sys := { s.sys with retraining := false } }

/-- An access to host memory that the link's loss ends (R419). -/
def hostGone (who : Asker) (s : State) : State :=
  match who with
  | .mover j => if (s.job j).on then jobLinkDown j s else s
  | .record n => if s.ringOff n then s else ringError n Code.linkDown (s.setRing n { s.ring n with fetching := false })
  | .sheet => abandonSheet s
  | _ => s

/-- The accesses to host memory under way end: reads not yet completed, and writes not yet handed over. -/
def hostLost (s : State) : State :=
  let reads := s.hostOut.filterMap fun o => match o with | .read _ _ p t a => some (p, t, a) | _ => none
  let writes := s.trans.filter fun t => t.space == .host && (match t.asker with | .mover _ => true | .record _ => true | .sheet => true | _ => false)
  let s := { s with hostOut := s.hostOut.filter fun o => match o with | .read _ _ _ _ _ => false | _ => true }
  let s := { s with trans := s.trans.filter fun t => !writes.contains t }
  let s := (reads.map (·.2.2) ++ writes.map (·.asker)).eraseDups.foldl (fun s a => hostGone a s) s
  reads.foldl (fun s r => match r with
    | (p, t, .port q) => s.putRsp ⟨p, t, Code.aborted, false, [], .port q⟩
    | (p, t, .context n c) => s.putRsp ⟨p, t, Code.aborted, false, [], .context n c⟩
    | _ => s) s

/-- The host side's crossings reset (R314): the host ports and the host lanes. -/
def resetHostCrossings (s : State) : State :=
  [12, 13, 17, 18, 19, 20].foldl (fun s x => resetCrossing x s) s

/-- LINK_DOWN (R419): link down, hot reset or HL_PERST_N. -/
def linkDown (s : State) : State :=
  let s := (s.setFlag Fld.rngLinkUp false).bump Fld.rngLinkDowns
  hostLost (resetHostCrossings { s with sys := { s.sys with retraining := false } })

def execLinkDown (s : State) : Out := .next (linkDown s)

/-- The registers from offset `lo` to below `hi` at their cold values. -/
def State.coldRange (s : State) (lo hi : Nat) : State :=
  { s with regs := s.regs.filter fun e => e.1 < lo || hi ≤ e.1 }

/-- FUNCTION_LEVEL_RESET (R419): as a hot reset, with every RNG_ register at its cold value and MSI-X disabled; the link
stays up. -/
def functionReset (s : State) : State :=
  let link := s.reg Reg.rngLink
  let s := hostLost (resetHostCrossings s)
  let s := (upFrom 0 64).foldl (fun s n => ringForget n s) s
  let s := (s.coldRange 0x110000 0x112400).coldRange 0x118000 0x119020
  let s := s.coldRange 0x1000000 0x1000044
  let s := { s with rings := [] }
  s.setReg Reg.rngLink (link &&& BitVec.ofNat 64 0x7F)

def execFunctionLevelReset (s : State) : Out := .next (functionReset s)

end Sys2Proof.Machine
end

