-- ==== Sys2Proof/Machine/Wtu.lean ====
section
/-! DEFINITION. Translation's commands: the table walker, invalidation, address spaces, host links, and the lifetime settings
(11_translation_and_protection R452, R467 to R488). -/

namespace Sys2Proof.Machine

/-! ### The walker (R467, R469, R472) -/

/-- What a walk's end means to the access it was for. -/
inductive WalkEnd where
  | leaf (size frame : Nat) (r w u dev : Bool)
  | fault (code : Nat)
  deriving DecidableEq, Repr

/-- A context whose bundle waits for a walk takes its fault (R472); one that has left the bundle meets it again. -/
def contextWalkFault (n c code : Nat) (x : Walk) (s : State) : State :=
  let waits := s.ctxState n c = 3 ∧ s.fld Fld.engCtxStatWaitOn n c = 7
  if waits ∨ s.ctxState n c = 2 then
    preciseFault n c code false x.va ((s.wakeCtx n c 7).xlFault code x.asid x.va x.master x.priv x.write)
  else s

/-- A mover whose line, or whose fetch of a descriptor, waits for a walk takes its fault (R472). -/
def moverWalkFault (k code : Nat) (x : Walk) (s : State) : State :=
  if k < 512 then
    if (s.job k).on && !s.jobStalled k then jobFault k code x.va x.write s else s
  else if s.ringOpen (k - 512) 0 then
    ringError (k - 512) Code.fetchFault (s.xlFault code x.asid x.va x.master x.priv x.write)
  else s

/-- A transaction goes back to its place before the others of its port, translated (R216); a running invalidation that its
walk met waits for it (R470). -/
def transWalked (t : Trans) (x : Walk) (e : WalkEnd) (s : State) : State :=
  match e with
  | .fault code => transFault t code s
  | .leaf size frame r w u dev =>
    match leafXl (x.va / 2 ^ size * 2 ^ size) frame r w u dev x.priv t.op x.va with
    | .ok sp a => { s with trans := { t with space := sp, addr := a, marked := t.marked || x.atGo } :: s.trans }
    | .fault code => transFault t code s
    | .miss => s

/-- Walk k ends. -/
def walkDone (k : Nat) (x : Walk) (e : WalkEnd) (s : State) : State :=
  let s := s.endWalk k
  let s := match e with
    | .leaf size frame r w u dev => s.keepLeaf x size frame r w u dev
    | .fault _ => s
  match x.who, e with
  | .trans t, e => transWalked t x e s
  | .context n c, .fault code => contextWalkFault n c code x s
  | .context n c, .leaf _ _ _ _ _ _ => s.wakeCtx n c 7
  | .mover j, .fault code => moverWalkFault j code x s
  | .mover _, .leaf _ _ _ _ _ _ => s

/-- A word of a table in a bank, or none where it cannot be read (R467). -/
def tableWord (a : Nat) (s : State) : State × Option W64 :=
  match bankTake (a / 0x1000) ⟨1, 0, 0, .read, a % 0x1000 / 8, 1, []⟩ s with
  | (s, .done st (some [w])) => (s, if st = Code.ok then some w else none)
  | (s, _) => (s, none)

/-- The entries a walk reads at its level: the first of the group of 16 and the address's own at L0, its own elsewhere. A
table in a bank is read there; one in host memory comes with the host's completion. -/
def tableEntries (x : Walk) (first own : W64) (err : Bool) (s : State) : State × Option (W64 × W64) :=
  let i := levelIndex x.level x.va
  if x.dev then
    let (s, a) := if x.level = 0 then tableWord (x.table + 8 * (i / 16 * 16)) s else (s, some 0)
    let (s, b) := tableWord (x.table + 8 * i) s
    match a, b with
    | some a, some b => (s, some (a, b))
    | _, _ => (s, none)
  else (s, if err || !s.flag Fld.rngLinkUp then none else some (first, own))

/-- TABLE_READ_DONE (R467): walk k's read at its level has come. -/
def tableRead (k : Nat) (first own : W64) (err : Bool) (s : State) : State :=
  match s.wtu.walks[k]? with
  | none => s
  | some x =>
    if !x.dev && s.flag Fld.rngLinkUp && s.sys.retraining then s
    else match tableEntries x first own err s with
      | (s, none) => walkDone k x (.fault Code.tblReadErr) s
      | (s, some (a, b)) =>
        match if x.level = 0 then lowestEntry a b else upperEntry x.level b with
        | .fault code => walkDone k x (.fault code) s
        | .table t dev => s.walkOn k x t dev
        | .leaf size frame r w u dev => walkDone k x (.leaf size frame r w u dev) s

def execTableReadDone (k : Fin 16) (first own : W64) (err : Bool) (s : State) : Out := .next (tableRead k.val first own err s)

/-! ### Invalidation (R470, R471, R484) -/

/-- A write of WTU_INV. -/
def invWrite (w : Writer) (v : W32) (s : State) : State :=
  s.wardenOr w Reg.wtuInv.base fun s =>
    if s.flag Fld.wtuInvGo ∨ bitsW v 0 2 = 3 then s
    else
      let s := s.setReg Reg.wtuInv (Reg.wtuInv.plain (s.reg Reg.wtuInv) (v.setWidth 64) true)
      if bitsW v 31 1 = 0 then s
      else ((s.setFlag Fld.wtuInvDone false).setFlag Fld.wtuInvGo true).invalidate

/-- A write of WTU_INV_VA. -/
def invVaWrite (w : Writer) (v : W64) (s : State) : State :=
  s.wardenOr w Reg.wtuInvVa.base fun s =>
    if s.flag Fld.wtuInvGo then s else s.setReg Reg.wtuInvVa (Reg.wtuInvVa.plain (s.reg Reg.wtuInvVa) v true)

/-- The word of WTU_INV with GO, a mode and a space. -/
def invWord (mode : Nat) (asid : Byte) : W32 := BitVec.ofNat 32 (mode + asid.toNat * 2 ^ 8 + 2 ^ 31)

/-- INV_ADDRESS (R470). -/
def execInvAddress (w : Writer) (asid : Byte) (s : State) : Out :=
  .next (s.linked w Reg.wtuInv.base (invWrite w (invWord 0 asid)))
/-- INV_SPACE (R470). -/
def execInvSpace (w : Writer) (asid : Byte) (s : State) : Out :=
  .next (s.linked w Reg.wtuInv.base (invWrite w (invWord 1 asid)))
/-- INV_ALL (R470). -/
def execInvAll (w : Writer) (asid : Byte) (s : State) : Out :=
  .next (s.linked w Reg.wtuInv.base (invWrite w (invWord 2 asid)))

/-- INVALIDATE_DONE (R470): the walks under way at GO have ended, and every access with a removed entry has been performed. -/
def execInvalidateDone (s : State) : Out :=
  .next (if s.flag Fld.wtuInvGo && !(s.wtu.walks.any (·.atGo)) && !(s.trans.any (·.marked)) then
      ((s.setFlag Fld.wtuInvGo false).setFlag Fld.wtuInvDone true).bump Fld.wtuCntInvalidations
    else s)

/-! ### Address spaces, fabric masters and host links (R452, R471, R481 to R483) -/

/-- A write of WTU_SPACE[a] (R471, R482). -/
def spaceWrite (w : Writer) (a : Nat) (v : W64) (s : State) : State :=
  s.wardenOr w (Reg.wtuSpace.addr a 0) fun s =>
    let new := Reg.wtuSpace.plain (s.reg Reg.wtuSpace a) v true
    if bitsW new 1 1 = 1 ∧ 0x500000 ≤ bitsW new 12 40 * 4096 then s
    else (s.setReg Reg.wtuSpace new a).invalidateSpace a

/-- SPACE_WRITE (R471). -/
def execSpaceWrite (w : Writer) (a : Fin 256) (v : W64) (s : State) : Out :=
  .next (s.linked w (Reg.wtuSpace.addr a.val 0) (spaceWrite w a.val v))

/-- A write of WTU_FAB[s] (R483). -/
def fabWrite (w : Writer) (sec : Nat) (v : W32) (s : State) : State :=
  s.wardenOr w (Reg.wtuFab.addr sec 0) fun s =>
    if 1 < bitsW v 8 2 then s.deny Code.ownerBad (s.ownerCode w) 0 (Reg.wtuFab.addr sec 0 / 2 ^ 12)
    else s.setReg Reg.wtuFab (Reg.wtuFab.plain (s.reg Reg.wtuFab sec) (v.setWidth 64) true) sec

/-- Would some link hold Warden privilege if link l took `p`? -/
def State.wardenLeft (s : State) (l p : Nat) : Bool :=
  (upFrom 0 3).any fun k => (if k = l then p else s.fld Fld.wtuLinkPriv k) == 2

/-- A write of WTU_LINK[l] (R452, R479, R481). -/
def linkPrivWrite (w : Writer) (l p : Nat) (s : State) : State :=
  s.wardenOr w (Reg.wtuLink.addr l 0) fun s =>
    let no (code : Nat) : State := s.deny code (s.ownerCode w) 6 l
    if l = 2 ∧ s.flag Fld.wtuDebugDisable then no Code.lifeSpent
    else if p = 3 then no Code.ownerBad
    else if !s.wardenLeft l p then no Code.wardenLast
    else s.setFld Fld.wtuLinkPriv p l

/-- LINK_PRIV_WRITE (R452). -/
def execLinkPrivWrite (w : Writer) (l : Fin 3) (v : W32) (s : State) : Out :=
  .next (s.linked w (Reg.wtuLink.addr l.val 0) (linkPrivWrite w l.val (bitsW v 0 2)))

/-! ### Lifetime settings (R475 to R479, R488) -/

/-- A lifetime register written: the store takes it, and what it replaces is remembered until then (R475). -/
def lifeTake (r : Reg) (i : Nat) (key : List W32) (s : State) : State :=
  { s.setFlag Fld.wtuLifeStatLifeBusy true with wtu := { s.wtu with life := some (r.addr i 0, s.reg r i, key) } }

/-- A lifetime write refused (R485). -/
def lifeDeny (w : Writer) (r : Reg) (i code : Nat) (s : State) : State :=
  s.deny code (s.ownerCode w) 0 (r.addr i 0 / 2 ^ 12)

/-- A write of WTU_SVN (R476). -/
def svnWrite (w : Writer) (v : Nat) (s : State) : State :=
  s.wardenOr w Reg.wtuSvn.base fun s =>
    let no := fun c => lifeDeny w Reg.wtuSvn 0 c s
    let old := s.fld Fld.wtuSvnSvn
    if s.flag Fld.wtuLifeStatLifeBusy then no Code.lifeBusy
    else if v < old ∨ 128 < v then no Code.lifeBad
    else if v = old then s
    else if s.fld Fld.wtuSvnRemain = 0 then no Code.lifeSpent
    else
      let s := lifeTake Reg.wtuSvn 0 [] s
      (s.setFld Fld.wtuSvnRemain (s.fld Fld.wtuSvnRemain - 1)).setFld Fld.wtuSvnSvn v

/-- SVN_WRITE (R476). -/
def execSvnWrite (w : Writer) (v : W32) (s : State) : Out :=
  .next (s.linked w Reg.wtuSvn.base (svnWrite w (bitsW v 0 8)))

/-- The key check value: the low 16 bits of the encryption of a block of zeros (R477). -/
def keyCheck (key : List W32) : Nat :=
  natLE ((aesBlock (key.flatMap fun w => bytesLE 4 w.toNat) (List.replicate 16 0)).take 2)

/-- The staged key, low word first. -/
def State.stagedKey (s : State) : List W32 := (upFrom 0 8).map fun i => (s.reg Reg.wtuKeyData i).setWidth 32

/-- A key slot's key. -/
def State.slotKey (s : State) (k : Nat) : List W32 := Tab.get [] s.wtu.keys k

/-- A key committed to a slot (R477). -/
def keyCommit (w : Writer) (k : Nat) (s : State) : State :=
  let key := s.stagedKey
  let done := s.wardenOr w (Reg.wtuKeyCtl.addr k 0) fun s =>
    let no := fun c => lifeDeny w Reg.wtuKeyCtl k c s
    let set := s.flag Fld.wtuKeyCtlSet k
    let left := s.fld Fld.wtuKeyCtlRemain k
    if s.flag Fld.wtuLifeStatLifeBusy then no Code.lifeBusy
    else if set ∧ s.slotKey k = key then s
    else if set ∧ left = 0 then no Code.lifeSpent
    else
      let s := lifeTake Reg.wtuKeyCtl k (s.slotKey k) s
      let s := if set then s.setFld Fld.wtuKeyCtlRemain (left - 1) k else s
      let s := (s.setFlag Fld.wtuKeyCtlSet true k).setFld Fld.wtuKeyCtlKcv (keyCheck key) k
      { s with wtu := { s.wtu with keys := Tab.set [] s.wtu.keys k key } }
  (upFrom 0 8).foldl (fun s i => s.setReg Reg.wtuKeyData 0 i) done

/-- KEY_COMMIT (R477). -/
def execKeyCommit (w : Writer) (k : Fin 4) (s : State) : Out :=
  .next (s.linked w (Reg.wtuKeyCtl.addr k.val 0) (keyCommit w k.val))

/-- A write of WTU_BOOT_LOCK (R478). -/
def bootLockWrite (w : Writer) (v : Nat) (s : State) : State :=
  s.wardenOr w Reg.wtuBootLock.base fun s =>
    let no := fun c => lifeDeny w Reg.wtuBootLock 0 c s
    if s.flag Fld.wtuLifeStatLifeBusy then no Code.lifeBusy
    else if 4 < v then no Code.lifeBad
    else if v = s.fld Fld.wtuBootLockLock then s
    else if s.fld Fld.wtuBootLockRemain = 0 then no Code.lifeSpent
    else
      let s := lifeTake Reg.wtuBootLock 0 [] s
      (s.setFld Fld.wtuBootLockRemain (s.fld Fld.wtuBootLockRemain - 1)).setFld Fld.wtuBootLockLock v

/-- BOOT_LOCK_WRITE (R478). -/
def execBootLockWrite (w : Writer) (v : W32) (s : State) : Out :=
  .next (s.linked w Reg.wtuBootLock.base (bootLockWrite w (bitsW v 0 3)))

/-- A write of WTU_DEBUG (R479). -/
def debugWrite (w : Writer) (v : Bool) (s : State) : State :=
  s.wardenOr w Reg.wtuDebug.base fun s =>
    let no := fun c => lifeDeny w Reg.wtuDebug 0 c s
    if s.flag Fld.wtuLifeStatLifeBusy then no Code.lifeBusy
    else if v = s.flag Fld.wtuDebugDisable then s
    else if !s.flag Fld.wtuDebugRemain then no Code.lifeSpent
    else if !s.wardenLeft 2 0 then no Code.wardenLast
    else
      let s := lifeTake Reg.wtuDebug 0 [] s
      ((s.setFlag Fld.wtuDebugRemain false).setFlag Fld.wtuDebugDisable true).setFld Fld.wtuLinkPriv 0 2

/-- DEBUG_DISABLE (R479). -/
def execDebugDisable (w : Writer) (s : State) : Out := .next (s.linked w Reg.wtuDebug.base (debugWrite w true))

/-- LIFE_STORE_DONE (R475): the store has taken the write. -/
def execLifeStoreDone (s : State) : Out :=
  .next { s.setFlag Fld.wtuLifeStatLifeBusy false with wtu := { s.wtu with life := none } }

/-- CNT_CLR (R480). -/
def wtuCntClr (s : State) : State := s.setReg Reg.wtuCnt 0

/-- WTU_CNT_CLR (R480). -/
def execWtuCntClr (w : Writer) (s : State) : Out := .next (s.linked w Reg.wtuGctl.base wtuCntClr)

end Sys2Proof.Machine
end

