-- ==== Sys2Proof/Machine/SpareCore.lean ====
section
/-! DEFINITION. The fixer and the spare map: entries, free spares, substitutions and what follows where no spare is left; what
the stewards freeze or pause for a test or a substitution (14_start_health_and_spares R589 to R608). -/

namespace Sys2Proof.Machine

/-! ### Entries of the spare map (R598, R605) -/

/-- An entry: KIND, CAUSE, SCOPE, ITEM and the operating hours. -/
def spareEntry (kind cause scope item hours : Nat) : W64 :=
  BitVec.ofNat 64 (kind % 2 ^ 4 + cause % 2 ^ 4 * 2 ^ 4 + scope % 2 ^ 7 * 2 ^ 8 + item % 2 ^ 20 * 2 ^ 16 + hours % 2 ^ 24 * 2 ^ 40)

def spKind (e : W64) : Nat := bitsW e 0 4
def spCause (e : W64) : Nat := bitsW e 4 4
def spScope (e : W64) : Nat := bitsW e 8 7
def spItem (e : W64) : Nat := bitsW e 16 20

/-- Is the entry of a unit of a sector: a cell, tile, track or bank? -/
def spInSector (e : W64) : Bool := spKind e == 1 || spKind e == 2 || spKind e == 3 || spKind e == 5

/-- The half of an entry. A port channel's is that of its block, a link's that of the switches it joins; the link across the
seam is the West half's. -/
def spHalf (e : W64) : Nat :=
  let k := spScope e
  match spKind e with
  | 4 =>
    if k < 80 then k / 40 else if k < 90 then (k - 80) / 5 else if k < 102 then (k - 90) / 6 else if k < 106 then k % 2
    else if k < 111 then 0 else 1
  | 6 => k
  | 7 => k / 9
  | 8 => k
  | _ => k / 40

/-- The unit an entry replaces, whatever spare it takes. -/
def spUnit (e : W64) : Nat × Nat × Nat :=
  (spKind e, spScope e, if spKind e = 2 then spItem e % 2 ^ 6 else if spKind e = 6 then spItem e % 2 ^ 7 else spItem e)

/-- The spares an entry draws on (R598): kind, scope, and the group within the scope. -/
def spPool (e : W64) : Nat × Nat × Nat :=
  let g := match spKind e with
    | 1 => spItem e % 2 ^ 10
    | 3 => spItem e % 2 ^ 15
    | 4 => spItem e % 2 ^ 6
    | _ => 0
  (spKind e, spScope e, g)

/-- The number of the spare an entry takes. -/
def spNumber (e : W64) : Nat :=
  match spKind e with
  | 2 => bitsW e 22 2
  | 6 => bitsW e 23 3
  | _ => 0

/-- An entry with the number of its spare. -/
def spWith (e : W64) (k : Nat) : W64 :=
  match spKind e with
  | 2 => putBits e 22 2 k
  | 6 => putBits e 23 3 k
  | _ => e

/-- The spares of a pool. -/
def poolSize (kind : Nat) : Nat := if kind = 2 ∨ kind = 6 then 4 else 1

/-- The lowest free spare for an entry, if there is one; one that a substitution under way takes is not free. -/
def State.freeSpare (s : State) (e : W64) : Option Nat :=
  let used := ((s.sta.map ++ s.hea.work).filter fun x => spPool x == spPool e).map spNumber
  (upFrom 0 (poolSize (spKind e))).find? fun k => !used.contains k

/-- Entries of the map with a property. -/
def State.spCount (s : State) (p : W64 → Bool) : Nat := (s.sta.map.filter p).length

/-! ### What the registers show (R614, R615) -/

/-- The highest slowdown of the tiles of a range of keys, with the key. -/
def State.worstTile (s : State) (lo hi : Nat) : Nat × Nat :=
  s.hea.slow.foldl (fun (m : Nat × Nat) e => if lo ≤ e.1 ∧ e.1 < hi ∧ m.1 < e.2 then (e.2, e.1) else m) (0, lo)

/-- STW_SEC_HEALTH of a sector from the map, the sweeps and the queue. -/
def showSector (sec : Nat) (s : State) : State :=
  let mine (k : Nat) (e : W64) : Bool := spKind e == k && spScope e == sec
  let s := s.setFld Fld.stwSecHealthTilesLeft (4 - s.spCount (mine 2)) sec
  let s := s.setFlag Fld.stwSecHealthBankLeft (s.spCount (mine 5) == 0) sec
  let s := s.setFld Fld.stwSecHealthCellsUsed (min 255 (s.spCount (mine 1))) sec
  let s := s.setFld Fld.stwSecHealthTracksUsed (min 255 (s.spCount (mine 3))) sec
  let s := s.setFld Fld.stwSecHealthWorst (min 255 (s.worstTile (64 * sec) (64 * sec + 64)).1) sec
  s.setFlag Fld.stwSecHealthPlanned (s.hea.planned.any fun e => spInSector e && spScope e == sec) sec

/-- STW_WEAR of a half. -/
def showWear (h : Nat) (s : State) : State :=
  let n (p : W64 → Bool) : Nat := s.spCount fun e => spHalf e == h && p e
  let w := s.worstTile (2560 * h) (2560 * h + 2560)
  let s1 := s.setFld Fld.stwWearTilesLeft (160 - n fun e => spKind e == 2) h
  let s1 := s1.setFld Fld.stwWearEnginesLeft (4 - n fun e => spKind e == 6 && spNumber e < 4) h
  let s1 := s1.setFld Fld.stwWearBanksLeft (40 - n fun e => spKind e == 5) h
  let s1 := s1.setFld Fld.stwWearSlicesLeft (9 - n fun e => spKind e == 7) h
  let s1 := s1.setFlag Fld.stwWearPhaseLeft (n (fun e => spKind e == 8) == 0) h
  let s1 := (s1.setFld Fld.stwWearWorst (min 255 w.1) h).setFld Fld.stwWearWorstSector (w.2 / 64) h
  s1.setFld Fld.stwWearSubs (n fun _ => true) h

/-- SPARE_A or SPARE_B of the pin whose slice an entry replaces (R658). -/
def showSlice (e : W64) (s : State) : State :=
  if spKind e = 7 then
    s.setFlag (if spItem e / 8 % 2 = 0 then Fld.pinStatSpareA else Fld.pinStatSpareB) true (8 * spScope e + spItem e % 8)
  else s

/-- All of it. -/
def showSpares (s : State) : State :=
  let s := (upFrom 0 80).foldl (fun s k => showSector k s) s
  let s := (upFrom 0 2).foldl (fun s h => s.setFlag Fld.pwrRailSpareUsed
    (s.sta.map.any fun e => spKind e == 8 && spScope e == h) h) s
  let s := s.sta.map.foldl (fun s e => showSlice e s) s
  showWear 1 (showWear 0 s)

/-! ### Freeze windows and pauses (R527, R592, R594, R601) -/

/-- Is a sector in the mask of a PARTIAL load that runs? (R527) -/
def State.inPartial (s : State) (sec : Nat) : Bool :=
  s.loading && s.ldrPartial && 2 ≤ s.ldrState && bitOf (s.leaderField 56 10) sec

/-- Must a substitution wait for a load? -/
def State.spBlocked (s : State) (e : W64) : Bool := spInSector e && s.inPartial (spScope e)

/-- The substitution under way in a half. -/
def State.fixing (s : State) (h : Nat) : Option W64 := s.hea.work.find? fun e => spHalf e == h && !s.spBlocked e

/-- The units a half has still to test. -/
def Hea.units (x : Hea) (h : Nat) : List Nat := if h = 0 then x.west else x.east

/-- The units of a half set. -/
def Hea.setUnits (x : Hea) (h : Nat) (l : List Nat) : Hea := if h = 0 then { x with west := l } else { x with east := l }

/-- Is a sector held by a substitution's window? -/
def State.fixSector (s : State) (sec : Nat) : Bool :=
  (upFrom 0 2).any fun h => match s.fixing h with
    | some e => spInSector e && spScope e == sec
    | none => false

/-- The unit under test in a half: not one that waits for a load or a window. -/
def State.testing (s : State) (h : Nat) : Option Nat :=
  if s.fld Fld.bistStatState = 2 || s.phase == 4 then
    match s.hea.units h with
    | [] => none
    | u :: _ => if u < 80 && (s.inPartial u || s.fixSector u) then none else some u
  else none

/-- Does a half freeze a sector, pause an engine, or hold a bank? -/
def State.stewardHolds (s : State) (f : W64 → Option Nat) (g : Nat → Option Nat) : List Nat :=
  (upFrom 0 2).flatMap fun h => ((s.fixing h).bind f).toList ++ ((s.testing h).bind g).toList

/-- A request that waits runs once its sector is free (R594). -/
def bistRuns (s : State) : State :=
  if s.fld Fld.bistStatState ≠ 1 then s
  else
    let waits := (s.hea.west ++ s.hea.east).any fun u => u < 80 && (s.inPartial u || s.fixSector u)
    if waits then s else s.setFld Fld.bistStatState 2

/-- FROZEN, BIST, RUNNING, QUEUED and PLANNED as the stewards' work stands; the engines paused and the banks held with them.
In IDLE every sector is frozen (R633). -/
def showHealth (s : State) : State :=
  let s := bistRuns s
  let tested := s.stewardHolds (fun _ => none) fun u => if u < 80 then some u else none
  let frozen := s.stewardHolds (fun e => if spInSector e && spKind e != 5 then some (spScope e) else none)
    fun u => if u < 80 then some u else none
  let paused := s.stewardHolds (fun e => if spKind e = 6 then some (spItem e % 128) else none)
    fun u => if 80 ≤ u && u < 176 then some (u - 80) else none
  let moving := s.stewardHolds (fun e => if spKind e = 5 then some (16 * spScope e + spItem e % 16) else none) fun _ => none
  let idle := s.pwr.idle
  let s := { s with hea := { s.hea with paused := paused, moving := moving } }
  let s := (upFrom 0 80).foldl (fun s k =>
    let s := s.setFlag Fld.stwSecHealthFrozen (idle || frozen.contains k) k
    let s := s.setFlag Fld.stwSecHealthBist (tested.contains k) k
    s.setFlag Fld.stwSecHealthPlanned (s.hea.planned.any fun e => spInSector e && spScope e == k) k) s
  (s.setFlag Fld.stwFixRunning ((s.fixing 0).isSome || (s.fixing 1).isSome)).setFld Fld.stwFixQueued s.hea.planned.length

/-! ### No spare left (R603, R327) -/

/-- A sector's configuration all zeros, but for the border frame, which stays in force (R528). -/
def zeroSector (sec : Nat) (s : State) : State :=
  let s := (resetSector s sec).setFld Fld.stwSecHoldTapActive 0 sec
  { s with frames := s.frames.filter fun e => e.1 / 26624 != sec || e.1 / 64 % 416 == 415, cells := s.cells.filter fun e => cellSector e.1 != sec || e.2.ri }

/-- A sector enters the darkroom: its holds, its port, its configuration (R528). -/
def enterDark (sec : Nat) (s : State) : State :=
  zeroSector sec (darkPort sec (holdSector sec (s.setFlag Fld.stwSecHoldDark true sec)))

/-- A sector is taken out of use. -/
def sectorFails (sec : Nat) (s : State) : State :=
  ((enterDark sec s).setFlag Fld.stwSecHealthFailed true sec).alarm 3 Code.sectorFailed sec

/-- A context of a retired engine. -/
def retireCtx (n c : Nat) (s : State) : State :=
  (faultRecord n c Code.engRetired (s.pc n c) false false 0 s).setCtxState n c 5

/-- An engine retired; the map holds it with spare 7. -/
def retireEngine (n hours : Nat) (s : State) : State :=
  let s := (haltEngine n s).setFlag Fld.engStatRetired true n
  let s := (upFrom 0 4).foldl (fun s c => retireCtx n c s) s
  let e := spWith (spareEntry 6 1 (n / 48) n hours) 7
  ({ s with sta := { s.sta with map := s.sta.map ++ [e] } }.raiseAction .recordSpares).alarm 4 Code.engRetired n

/-- A trigger that finds no free spare. -/
def exhausted (e : W64) (s : State) : State :=
  let s := (s.setFld Fld.stwFixLastCode Code.spareExhausted).alarm 2 Code.spareExhausted (spScope e)
  let bist := spCause e == 1
  match spKind e with
  | 4 => s
  | 6 => if spCause e = 7 then s else retireEngine (spItem e % 128) (bitsW e 40 24) s
  | 7 => s.setFlag (if spItem e / 8 % 2 = 0 then Fld.pinStatDeadA else Fld.pinStatDeadB) true (8 * spScope e + spItem e % 8)
  | 8 =>
    { s with pwr := { s.pwr with lame := s.pwr.lame.erase (spScope e) ++ [spScope e] } }.setFlag Fld.pwrRailCapped true (spScope e)
  | _ => if bist && !s.flag Fld.stwSecHealthFailed (spScope e) then sectorFails (spScope e) s else s

/-! ### Substitutions (R598 to R602, R608) -/

/-- Are health notices enabled? -/
def State.healthNotes (s : State) : Bool := s.flag Fld.stwHealthCfgNoteEn

/-- A record write that the stewards raise; one that already waits serves. -/
def raiseRecord (a : Action) (s : State) : State :=
  if s.lead.waiting.contains a || s.lead.underWay.contains a then s else s.raiseAction a

/-- A substitution completes: it enters the map and the retention copy, and the record's write is raised. -/
def substituted (e : W64) (s : State) : State :=
  let full := 504 ≤ s.sta.map.length
  let s := { s with sta := { s.sta with map := s.sta.map ++ [e] } }
  let key := 64 * spScope e + spItem e % 64
  let s := if spKind e = 2 then
      { s with hea := { s.hea with slow := Tab.set 0 s.hea.slow key 0, meas := Tab.set [] s.hea.meas key [],
                                   told := s.hea.told.filter (· != key) } }
    else s
  let s := if spKind e = 8 then s.setFlag Fld.pwrRailSpareUsed true (spScope e) else showSlice e s
  let s := showWear (spHalf e) (if spInSector e then showSector (spScope e) s else s)
  let s := if full then s.noticeIf s.healthNotes Code.spareMapFull (spScope e) else raiseRecord .recordSpares s
  (s.setFld Fld.stwFixLastCode Code.fixDone).noticeIf s.healthNotes Code.fixDone (spScope e)

/-- A substitution made here and now, in a start, a darkroom or a test's own window. -/
def fixHere (e : W64) (s : State) : State :=
  match s.freeSpare e with
  | none => exhausted e s
  | some k => substituted (spWith e k) s

/-- A substitution begun in a running machine; SUBSTITUTION_DONE ends it. -/
def fixNow (e : W64) (s : State) : State :=
  match s.freeSpare e with
  | none => exhausted e s
  | some k => { s with hea := { s.hea with work := s.hea.work ++ [spWith e k] } }

/-- A planned substitution queued (R600). -/
def fixLater (e : W64) (s : State) : State :=
  if 64 ≤ s.hea.planned.length then s
  else { s with hea := { s.hea with planned := s.hea.planned ++ [e] } }.noticeIf s.healthNotes Code.fixPlanned (spScope e)

/-- Is a unit's substitution already queued or under way? -/
def State.spKnown (s : State) (e : W64) : Bool := (s.hea.planned ++ s.hea.work).any fun x => spUnit x == spUnit e

/-- A trigger as STW_FIX.MODE handles it (R599); `window` says that the unit stands in a test's window, where the fixer acts at
once (R591). A cold start gathers its triggers until its map is read (R607). -/
def trigger (kind cause scope item : Nat) (planned window : Bool) (s : State) : State :=
  let e := spareEntry kind cause scope item (s.fld Fld.stwBootHours)
  let mode := s.fld Fld.stwFixMode
  if s.spKnown e then
    if s.phase = 0 ∧ window ∧ mode = 0 ∧ s.hea.planned.any (fun x => spUnit x == spUnit e) then
      fixHere e { s with hea := { s.hea with planned := s.hea.planned.filter fun x => spUnit x != spUnit e } }
    else s
  else if s.phase = 4 ∨ s.phase = 5 then
    if s.flag Fld.stwRstCauseKind then fixHere e s else { s with hea := { s.hea with work := s.hea.work ++ [e] } }
  else if mode = 2 then s
  else if planned ∨ mode = 1 then showHealth (fixLater e s)
  else if window then fixHere e s
  else showHealth (fixNow e s)

/-- The planned substitutions of a property run here and now (R600). -/
def fixPlannedHere (p : W64 → Bool) (s : State) : State :=
  let mine := s.hea.planned.filter p
  let s := { s with hea := { s.hea with planned := s.hea.planned.filter fun e => !p e } }
  mine.foldl (fun s e => fixHere e s) s

/-- FIX_GO (R600, R614): the Warden runs the queue. -/
def fixGo (s : State) : State :=
  let l := s.hea.planned
  let s := { s with hea := { s.hea with planned := [] } }
  showHealth (l.foldl (fun s e => fixNow e s) s)

/-- SUBSTITUTION_DONE (R602): the substitution under way in a half completes. -/
def substitutionDone (h : Nat) (s : State) : State :=
  match s.fixing h with
  | none => s
  | some e => showHealth (substituted e { s with hea := { s.hea with work := s.hea.work.erase e } })

/-- Every substitution under way completes: what a warm start or a power change waits for (R602). -/
def finishFixes (s : State) : State :=
  let l := s.hea.work
  l.foldl (fun s e => substituted e { s with hea := { s.hea with work := s.hea.work.erase e } }) s

end Sys2Proof.Machine
end

