-- ==== Sys2Proof/Machine/PinCore.lean ====
section
/-! DEFINITION. Field ports and DAC outputs as the rest of the device sees them: where each port lies, the function and line
terms of a pad, the safe state, sleep and the darkroom (16_field_ports R642 to R659). -/

namespace Sys2Proof.Machine

/-! ### Places (R642) -/

/-- The half of field port n. -/
def portHalf (n : Nat) : Nat := n / 72

/-- The VBANK that supplies field port n. -/
def portBank (n : Nat) : Nat := n / 36

/-- The home sector of field port n. -/
def homeSector (n : Nat) : Nat := if n < 72 then n / 9 else 72 + (n - 72) / 9

/-- The hidden part of a port. -/
def State.pin (s : State) (n : Nat) : PinHid := Tab.get {} s.pins n

/-- The hidden part of a port set. -/
def State.setPin (s : State) (n : Nat) (h : PinHid) : State := { s with pins := Tab.set {} s.pins n h }

/-- The function of pin A or B in a PIN_MUX value. -/
def muxFn (v : Nat) (b : Bool) : Nat := bitsOf v (if b then 12 else 0) 4

/-- Its select. -/
def muxSel (v : Nat) (b : Bool) : Nat := bitsOf v (if b then 16 else 4) 8

/-- Is the function one of the fabric's? -/
def fabricFn (f : Nat) : Bool := f == 3 || f == 4

/-! ### The pad (R644, R646, R657) -/

/-- What a function, or a whole pad, shows: released; driven at a level that the device's state gives; or as something the
state does not hold says, the fabric's OUT and OE wires or a serial clock within a frame. -/
inductive Drive where
  | released
  | level (b : Bool)
  | given
  deriving DecidableEq, Repr

/-- The level of a port's PWM generator: high for HIGH port clocks (640 steps of 12.5 ps) of each PERIOD. -/
def State.pwmLevel (s : State) (n : Nat) : Bool :=
  let h := s.pin n
  let period := bitsOf h.pwm 0 16
  if period < 2 then false else (s.now - h.pwmAt) / 640 % period < bitsOf h.pwm 16 16

/-- The level of the STATUS function. -/
def State.statusLevel (s : State) (k : Nat) : Bool :=
  match k with
  | 0 => s.flag Fld.stwAlarmPend
  | 1 => s.ldrState == 6
  | 2 => s.flag Fld.clkStatRootLocked && !s.flag Fld.clkStatLoss
  | _ => s.agreed

/-- The function term of a pin, from the function in force (R644). -/
def State.fnTerm (s : State) (n : Nat) (b : Bool) : Drive :=
  let m := (s.pin n).mux
  let k := muxSel m b
  let out := s.flag (if b then Fld.pinOutLevelB else Fld.pinOutLevelA) n
  match muxFn m b with
  | 0 => .released
  | 1 => if s.flag (if b then Fld.pinOutOeB else Fld.pinOutOeA) n then .level out else .released
  | 2 => if out then .released else .level false
  | 3 => .given
  | 4 => .given
  | 5 =>
    if s.fld Fld.tbStatState k = 1 ∧ (s.fld Fld.tbCfgSrc k = 3 ∨ s.fld Fld.tbCfgSrc k = 4) then .given else .level true
  | 6 => .level (s.flag Fld.queStatXoff k != s.flag Fld.queCfgFlowPol k)
  | 7 => .level (s.pwmLevel n)
  | 8 => .level (decide (s.dt.toNat % (40 * (k + 1)) < 20 * (k + 1)))
  | 9 => .level (s.statusLevel k)
  | _ => .level (decide (s.dt.toNat % 100 < 50))

/-- The line term: the overlay's line while it is enabled (R646). -/
def State.lineTerm (s : State) (n : Nat) (b : Bool) : Option Bool :=
  if s.flag (if b then Fld.pinOvlEnB else Fld.pinOvlEnA) n then
    some (s.flag Fld.evtLineStatOut (32 * portHalf n + s.fld (if b then Fld.pinOvlLineB else Fld.pinOvlLineA) n))
  else none

/-- Has the OUTS step lifted the safe state of the device's pins? -/
def State.outsDone (s : State) : Bool := bitOf (s.fld Fld.ldrStatSteps) 1

/-- Is a pin in the safe state: every pin before OUTS; otherwise a fabric pin whose port shows SAFE (R654)? -/
def State.pinSafe (s : State) (n : Nat) (b : Bool) : Bool :=
  s.flag Fld.pinStatSafe n && (!s.outsDone || fabricFn (s.fld (if b then Fld.pinMuxFnB else Fld.pinMuxFnA) n))

/-- A pad in use: the OR of the two terms, inverted by INV; a dead slice drives nothing (R603, R646). -/
def State.padTerms (s : State) (n : Nat) (b : Bool) : Drive :=
  let inv := s.flag (if b then Fld.pinCfgInvB else Fld.pinCfgInvA) n
  match s.fnTerm n b, s.lineTerm n b with
  | .released, none => .released
  | .released, some l => .level (l != inv)
  | .level f, l => .level ((f || l.getD false) != inv)
  | .given, some true => .level (!inv)
  | .given, _ => .given

/-- The pad of a single-ended pin, or of a differential one's true level (R646, R654, R655); without its supply it is released. -/
def State.padOne (s : State) (n : Nat) (b : Bool) : Drive :=
  if s.pinSafe n b || s.flag (if b then Fld.pinStatDeadB else Fld.pinStatDeadA) n || s.pwr.off
      || (s.pwr.dark && !s.flag Fld.pwrVbankDarkOn (portBank n)) then .released
  else if s.flag Fld.pinStatSleep n then
    match s.fld (if b then Fld.pinCfgSleepB else Fld.pinCfgSleepA) n with
    | 0 => .released
    | 1 => .level false
    | 2 => .level true
    | _ => .level (if b then (s.pin n).keepB else (s.pin n).keepA)
  else s.padTerms n b

/-- The complement of a pad. -/
def Drive.not : Drive → Drive
  | .level b => .level !b
  | d => d

/-- The pad of a pin: pin B of a differential port carries the complement of A. -/
def State.pad (s : State) (n : Nat) (b : Bool) : Drive :=
  if b && s.flag Fld.pinCfgDiff n then (s.padOne n false).not else s.padOne n b

/-- AOUT[k] (R659): nothing in DARK, 0 V differential as the middle code where nothing else holds, SLEEP_CODE in safelight. -/
def State.dacOut (s : State) (k : Nat) : Option Nat :=
  if s.pwr.dark then none
  else if !s.outsDone || !s.flag Fld.pinDacCfgEn k then some 0
  else if s.fld Fld.pwrStateCur = 2 then some (s.fld Fld.pinDacCfgSleepCode k)
  else some (s.fld Fld.pinDacCodeCode k)

/-! ### Inputs (R651) -/

/-- What the receivers of a port have filtered. -/
def PinHid.input (h : PinHid) : PinHid := { levelA := h.levelA, levelB := h.levelB, sinceA := h.sinceA, sinceB := h.sinceB }

/-- The bit of a pin in PIN_IN set. -/
def setPinIn (n : Nat) (b level : Bool) (s : State) : State :=
  let i := n / 16
  s.setReg Reg.pinIn (putBits (s.reg Reg.pinIn i) (2 * (n % 16) + b2n b) 1 (b2n level)) i

/-- PIN_IN of a port shows its filtered levels, where it is not debounced. -/
def showPin (n : Nat) (s : State) : State :=
  if s.flag Fld.pinCfgDebounce n then s
  else setPinIn n true (s.pin n).levelB (setPinIn n false (s.pin n).levelA s)

/-! ### The safe state and sleep (R654, R655) -/

/-- A port enters the safe state. -/
def portSafe (n : Nat) (s : State) : State :=
  ((s.setFlag Fld.pinStatSafe true n).setFlag Fld.pinStatSleep false n).setFlag Fld.pinStatSwitching false n

/-- Every port in the safe state, from a start's holds or a load's failure. -/
def pinsSafe (s : State) : State := (upFrom 0 144).foldl (fun s n => portSafe n s) s

/-- Does either pin of a port select FABRIC or FABRIC_OD? -/
def State.portFabric (s : State) (n : Nat) : Bool := fabricFn (s.fld Fld.pinMuxFnA n) || fabricFn (s.fld Fld.pinMuxFnB n)

/-- The ports of a home sector. -/
def sectorPorts (sec : Nat) : List Nat := (upFrom 0 144).filter fun n => homeSector n == sec

/-- The ports whose pins select the fabric's functions while their home sector is in the darkroom or held. -/
def sectorPinsSafe (sec : Nat) (s : State) : State :=
  (sectorPorts sec).foldl (fun s n => if s.portFabric n then portSafe n s else s) s

/-- The functions of a port's PIN_MUX come into force; a switch to PWM starts a period. -/
def muxInForce (n : Nat) (s : State) : State :=
  let m := s.fld Fld.pinMuxFnA n + s.fld Fld.pinMuxSelA n * 2 ^ 4 + s.fld Fld.pinMuxFnB n * 2 ^ 12
    + s.fld Fld.pinMuxSelB n * 2 ^ 16
  let h := s.pin n
  let pwm := (muxFn m false == 7 && muxFn h.mux false != 7) || (muxFn m true == 7 && muxFn h.mux true != 7)
  let h := { h with mux := m }
  s.setPin n (if pwm then { h with pwm := (s.reg Reg.pinPwm n).toNat % 2 ^ 32, pwmAt := s.now } else h)

/-- A port leaves the safe state or its sleep setting and follows its functions. -/
def portWake (n : Nat) (s : State) : State :=
  muxInForce n (((s.setFlag Fld.pinStatSafe false n).setFlag Fld.pinStatSleep false n).setFlag Fld.pinStatSwitching false n)

/-- The OUTS step: every port follows its functions, but the fabric's where the home sector is still held. -/
def pinsWake (s : State) : State :=
  (upFrom 0 144).foldl (fun s n =>
    let s := portWake n s
    if s.portFabric n && s.flag Fld.stwSecHoldOutHeld (homeSector n) then portSafe n s else s) s

/-- The ports of a sector whose output hold is lifted. -/
def sectorPinsWake (sec : Nat) (s : State) : State :=
  if s.outsDone then (sectorPorts sec).foldl (fun s n => if s.flag Fld.pinStatSafe n then portWake n s else s) s else s

/-- The present pad level of a pin, for SLEEP KEEP; a released pad or one the fabric gives stands at its filtered level. -/
def State.padNow (s : State) (n : Nat) (b : Bool) : Bool :=
  match s.padOne n b with
  | .level l => l
  | _ => if b then (s.pin n).levelB else (s.pin n).levelA

/-- Step 3 of an entry to safelight or DARK: each pin takes its SLEEP setting (R655). -/
def pinsSleep (s : State) : State :=
  (upFrom 0 144).foldl (fun s n =>
    let h := { s.pin n with keepA := s.padNow n false, keepB := s.padNow n true }
    (((s.setPin n h).setFlag Fld.pinStatSafe false n).setFlag Fld.pinStatSleep true n).setFlag Fld.pinStatSwitching false n) s

end Sys2Proof.Machine
end

