-- ==== Sys2Proof/Machine/LaneCore.lean ====
section
/-! DEFINITION. A lane's link as the rest of the device sees it: training, loss and stops (16_field_ports
R663, R664, R667, R671). -/

namespace Sys2Proof.Machine

/-- Are the notices of pins and lanes enabled? (R676) -/
def State.pinNotes (s : State) : Bool := s.flag Fld.pinGctlNoteEn

/-- A lane code raised: LAST_CODE, and the notice under NOTE_EN. -/
def laneCode (l code : Nat) (s : State) : State := (s.setFld Fld.pinLaneStatLastCode code l).noticeIf s.pinNotes code l

/-- LDR_CHAIN shows whether a tether lane is ALIGNED (R542). -/
def showChain (l : Nat) (s : State) : State :=
  if l = 0 then s.setFlag Fld.ldrChainUpOk (s.aligned 0) else if l = 1 then s.setFlag Fld.ldrChainDownOk (s.aligned 1) else s

/-- A lane's STATE set. -/
def setLaneState (l v : Nat) (s : State) : State := showChain l (s.setFld Fld.pinLaneStatState v l)

/-- Training begins: from OFF, or where the link was lost, in which case what a stream has under way is kept (R668). -/
def laneTrain (l : Nat) (s : State) : State :=
  let h := s.lane l
  (setLaneState l 1 s).setLane l { h with locked := false, heard := false, acked := false }

/-- OFS_VALID clears, and OFS_LOST is raised (R667). -/
def offsetLost (l : Nat) (s : State) : State :=
  let s := s.setLane l { s.lane l with good := 0 }
  if s.flag Fld.pinLaneStatOfsValid l then laneCode l Code.ofsLost (s.setFlag Fld.pinLaneStatOfsValid false l) else s

/-- The clock a tether lane recovers is gone: the monitor falls back where the root runs on it, with cause LANE (R294,
R669). -/
def laneClockGone (l : Nat) (s : State) : State :=
  if 2 ≤ l then s
  else if s.inUse (2 + l) then clockLoss 4 (s.setReady (2 + l) false)
  else sourceGone (2 + l) s

/-- The link of a lane that runs is lost (R664, R671). -/
def laneLost (l : Nat) (s : State) : State :=
  let st := s.fld Fld.pinLaneStatState l
  if st ≠ 1 ∧ st ≠ 2 then s
  else laneClockGone l (laneCode l Code.laneDown ((laneTrain l s).bump Fld.pinLaneCntRetrains l))

/-- A lane powered down: its STATE is OFF, and nothing it had under way is left. -/
def laneHalt (l : Nat) (s : State) : State :=
  if s.fld Fld.pinLaneStatState l = 0 then s
  else laneClockGone l ((setLaneState l 0 (offsetLost l s)).setLane l {})

/-- The lanes stop for safelight or DARK with EN kept (R663). -/
def lanesHalt (s : State) : State := (upFrom 0 4).foldl (fun s l => laneHalt l s) s

/-- Lanes with EN restart on the wake (R663). -/
def lanesWake (s : State) : State :=
  (upFrom 0 4).foldl (fun s l =>
    if s.flag Fld.pinLaneCfgEn l && s.fld Fld.pinLaneStatState l == 0 then laneTrain l s else s) s

end Sys2Proof.Machine
end

