-- ==== Sys2Proof/Machine/PowerCore.lean ====
section
/-! DEFINITION. The fabric rail, and what a power state stops and a wake sets going again (15_power R622 to R638). -/

namespace Sys2Proof.Machine

/-! ### The fabric rail (R622 to R625) -/

/-- The highest value a half's caps allow: 0.90 V for temperature (R624), 0.85 V for a phase past its failure (R626). -/
def State.railCap (s : State) (h : Nat) : Nat :=
  min (if s.pwr.hotCap.contains h then 40 else 45) (if s.pwr.lame.contains h then 35 else 45)

/-- The bounds that the policy of half h sets its rail, under the caps. -/
def State.railBounds (s : State) (h : Nat) : Nat × Nat :=
  let level := s.fld Fld.pwrVfabLevel h
  let hi := min (if s.fld Fld.pwrVfabPolicy h = 0 then level else s.fld Fld.pwrVfabMax h) (s.railCap h)
  let lo := if s.fld Fld.pwrVfabPolicy h = 1 then 5 else level
  (min lo hi, hi)

/-- Does the policy move the rail? Not from the hold of a start until RESETS (R579), nor outside RUN (R625, R634). -/
def State.railFree (s : State) : Bool := bitOf (s.fld Fld.ldrStatSteps) 3 && s.fld Fld.pwrStateCur == 0

/-- The rail of half h slews to a value (R625). -/
def slewTo (h v : Nat) (s : State) : State :=
  let moves := s.fld Fld.pwrRailVfab h != v
  let s := { s with pwr := { s.pwr with aim := Tab.set 0 s.pwr.aim h (if moves then v + 1 else 0) } }
  s.setFlag Fld.pwrRailSlewing moves h

/-- The rail of half h brought within its bounds. -/
def railSettle (h : Nat) (s : State) : State :=
  if !s.railFree then s
  else
    let (lo, hi) := s.railBounds h
    slewTo h (max lo (min hi (s.fld Fld.pwrRailVfab h))) s

/-- Both rails at a value, at once: what a start's holds, a power state and a wake leave (R579, R633, R638). -/
def railsAt (v : Nat) (s : State) : State :=
  (upFrom 0 2).foldl (fun s h => (s.setFld Fld.pwrRailVfab v h).setFlag Fld.pwrRailSlewing false h)
    { s with pwr := { s.pwr with aim := [] } }

/-- CAPPED as the caps stand. -/
def showCapped (h : Nat) (s : State) : State :=
  s.setFlag Fld.pwrRailCapped (s.pwr.hotCap.contains h || s.pwr.lame.contains h) h

/-! ### What a wake sets going (R638) -/

/-- The banks a power state put into retention wake, but those whose RET is 1. -/
def banksWake (s : State) : State :=
  (upFrom 0 1280).foldl (fun s b =>
    if s.fld Fld.bnkStatPstate b = 2 ∧ !s.flag Fld.bnkCtlRet b then s.setFld Fld.bnkStatPstate 3 b else s) s

/-- Every bank that is not in retention enters it, whatever RET holds (R634). -/
def banksSleep (s : State) : State :=
  (upFrom 0 1280).foldl (fun s b => (s.setFld Fld.bnkStatPstate 2 b).setFlag Fld.bnkStatSleepPend false b) s

/-- Does a bank still wake from a power state? -/
def State.banksWaking (s : State) : Bool := (upFrom 0 1280).any fun b => s.fld Fld.bnkStatPstate b == 3

/-- A controller that a power state switched off starts again at step 3 of R569. -/
def archiveAwake (s : State) : State :=
  if !s.flag Fld.arcCtlEn then s
  else match s.fld Fld.arcStatState with
    | 0 => { s with arc := { s.arc with starting := true } }
    | 2 => s.setFld Fld.arcStatState 3
    | _ => s

/-- A timebase after DARK (R638): a wake timebase at the position counted, with REF kept; another incremental source at its last
position with REF 0; an absolute one to be initialised by its first good frame. Velocity and acceleration start at 0. -/
def tbAfterDark (n : Nat) (s : State) : State :=
  if s.fld Fld.tbStatState n = 0 then s
  else
    let h := s.tb n
    let src := s.fld Fld.tbCfgSrc n
    let absolute := src == 3 || src == 4
    let wake := s.wakeTb n
    let p := if wake then wrap64 h.count else sInt (s.reg Reg.tbPos n)
    let s := s.setTb n { h with
      p := p, v := 0, a := 0, count := if src = 9 then h.count else p, meas := [], waitEdge := none, phase := none,
      reached := s.now, corrAt := s.now, sinceAt := s.now, needInit := h.needInit || absolute, jumped := true }
    if wake ∨ src = 7 ∨ src = 8 ∨ src = 9 then s else s.setFlag Fld.tbStatRef false n

/-- What leaving a power state by a start sets going: the banks, the archive, the lanes and the timebases (R638). -/
def resumeAll (s : State) : State :=
  let dark := s.pwr.dark
  let asleep := dark || 2 ≤ s.pwr.entering
  let s := { s with pwr := { s.pwr with entering := 0, latched := none, dark := false, idle := false, stopped := [], left := [] } }
  let s := if asleep then lanesWake (archiveAwake (banksWake s)) else s
  if dark then
    let s := (upFrom 0 4).foldl (fun s b => s.setFlag Fld.pwrVbankOk (!s.flag Fld.pwrVbankSlewing b) b) s
    (upFrom 0 32).foldl (fun s n => tbAfterDark n s) s
  else s

/-! ### Step 1 of an entry to safelight or DARK (R634) -/

/-- An engine stopped as by EN = 0, with EN kept; the contexts that will resume are noted. -/
def engineSleeps (n : Nat) (s : State) : State :=
  match s.fld Fld.engStatState n with
  | 1 =>
    let mine := (upFrom 0 4).filter fun c => let t := s.ctxState n c; t == 1 || t == 2 || t == 3 || t == 7
    let s := { s with pwr := { s.pwr with stopped := s.pwr.stopped ++ mine.map (4 * n + ·) } }
    (upFrom 0 4).foldl (fun s c => ctxStop n c s) (s.setFld Fld.engStatState 2 n)
  | 3 => s.setFld Fld.engStatState 2 n
  | _ => s

/-- The archive stopped as by EN = 0, with EN kept. -/
def archiveSleeps (s : State) : State :=
  match s.fld Fld.arcStatState with
  | 1 => s.setFld Fld.arcStatState 2
  | 3 => s.setFld Fld.arcStatState 2
  | _ => { s with arc := { s.arc with starting := false } }

/-- An engine with EN, OFF or still stopping, runs again, its noted contexts as from STOPPED (R638). -/
def engineWakes (n : Nat) (s : State) : State :=
  if s.flag Fld.engCtlEn n ∧ s.fld Fld.engStatState n % 2 = 0 ∧ !s.flag Fld.engStatRetired n then
    let s := s.setFld Fld.engStatState 1 n
    let s := s.setEng n { s.eng n with leftOff := s.dt }
    (upFrom 0 4).foldl (fun s c => if s.pwr.stopped.contains (4 * n + c) then ctxStart n c s else s) s
  else s

/-- The rings with EN run again from DEV_IDX (R440, R638). -/
def ringsWake (s : State) : State :=
  (upFrom 0 64).foldl (fun s n => if s.flag Fld.rngCtlEn n && s.ringOff n then ringRun n s else s) s

/-! ### A held change that ends (R42) -/

/-- A power change ends with ABORTED: an entry leaves the device in RUN, a wake in the state it was to leave. -/
def powerAborted (s : State) : State :=
  let s := s.setFld Fld.pwrStateLastCode Code.aborted
  match s.fld Fld.pwrStateCur with
  | 5 => { s.setFld Fld.pwrStateCur s.pwr.entering with ldr := { s.ldr with steps := [] } }
  | 4 | 6 =>
    let s := s.setFld Fld.pwrStateCur 0
    let s := if 2 ≤ s.pwr.entering then
        archiveAwake (ringsWake ((upFrom 0 96).foldl (fun s n => engineWakes n s) s))
      else s
    showHealth { s with pwr := { s.pwr with entering := 0, latched := none, idle := false, stopped := [] } }
  | _ => s

end Sys2Proof.Machine
end

