-- ==== Sys2Proof/Machine/StartCore.lean ====
section
/-! DEFINITION. Cold and warm starts: what they stop and reset, the boot counters and the spare map as records, and what each
phase leads to (14_start_health_and_spares R575 to R587, R604 to R608; 12_configuration R516, R522). -/

namespace Sys2Proof.Machine

/-! ### Stopping the blocks (R580 step 1) -/

/-- A ring stopped by a start: its descriptor completes with ABORTED, what it has fetched with CANCELLED; what then finds no room is
lost. EN and the indices stay. -/
def ringHalt (n : Nat) (s : State) : State :=
  if s.ringOff n then s
  else
    let s := if (s.job n).on then completeDesc n Code.aborted s else s
    let s := cancelFetched n 8 s
    (ringForget n s).setFld Fld.rngStatState 0 n

/-- Every ring stopped, command rings first, but those kept. -/
def ringsHalt (keep : Nat → Bool) (s : State) : State :=
  let mine (s : State) (n : Nat) (p : Nat → Bool) : State := if keep n || !p (s.fld Fld.rngCfgType n) then s else ringHalt n s
  let s := (upFrom 0 64).foldl (fun s n => mine s n (· == 0)) s
  (upFrom 0 64).foldl (fun s n => mine s n (· != 0)) s

/-- The slots emptied without completions, the lines low (R131). -/
def emptySched (s : State) : State :=
  let s := { s with sched := { s.sched with slots := [], runs := [], chans := [], tokens := [], evtWest := [], evtEast := [] } }
  let s := (upFrom 0 64).foldl (fun s n => ((lineApply s n s.now false 0).1).setFld Fld.evtLineStatQueue 0 n) s
  (upFrom 0 2).foldl (fun s h =>
    ((s.setFld Fld.evtStatArmed 0 h).setFld Fld.evtStatInHorizon 0 h).setFlag Fld.evtStatDiscarded true h) s

/-- Every running queue flushed (R273). -/
def flushQueues (s : State) : State := (upFrom 0 160).foldl (fun s q => queFlush q s) s

/-- The output channels of the engines drained to the spine (R355). -/
def drainOutputs (s : State) : State :=
  (upFrom 0 96).foldl (fun s n => (upFrom 0 8).foldl (fun s k =>
    (s.outCh n k).foldl (fun s _ => outputDrain n k s) s) s) s

/-- The transactions accepted carried to their end, from place `i` on (R229). -/
def carryTrans : Nat → Nat → State → State
  | 0, _, s => s
  | k + 1, i, s =>
    if s.trans.length ≤ i then s
    else
      let t := deliver i 0 true s
      if t.trans.length < s.trans.length then carryTrans k i t else carryTrans k (i + 1) t

/-- Does an access survive a start: a record's or a sheet's write, or what a kept ring asked for? -/
def keptAsker (keep : Nat → Bool) : Asker → Bool
  | .record _ => true
  | .sheet => true
  | .mover j => decide (j < 64) && keep j
  | _ => false

/-- Does a walk? -/
def keptWalk (keep : Nat → Bool) (w : Walk) : Bool :=
  match w.who with
  | .trans t => keptAsker keep t.asker
  | .context _ _ => false
  | .mover j => decide (j < 64) && keep j

/-- The spine empty: requests at fabric targets end, responses to masters in reset are discarded (R229). -/
def drainSpine (keep : Nat → Bool) (s : State) : State :=
  let s := carryTrans 4096 0 (drainOutputs s)
  let s := (upFrom 0 80).foldl (fun s k =>
    let mine := s.spine.inbound.filter fun i => i.sector == k
    let s := { s with spine := { s.spine with inbound := s.spine.inbound.filter fun i => i.sector != k } }
    mine.foldl (fun s i =>
      if i.wants then s.putRsp ⟨i.port, i.mtag, Code.aborted, false, [], i.asker⟩ else s.bump Fld.stwSportCntDiscard k) s) s
  let ok := keptAsker keep
  let s := { s with
    trans := s.trans.filter fun t => ok t.asker
    rsps := s.rsps.filter fun r => ok r.asker
    hostOut := s.hostOut.map fun o => match o with
      | HostOut.read a k p t b => HostOut.read a k p t (if ok b then b else .none)
      | o => o
    wtu := { s.wtu with walks := s.wtu.walks.filter (keptWalk keep) }
    spine := { s.spine with tags := [], held := [] } }
  let s := (upFrom 0 106).foldl (fun s p =>
    (s.setFld Fld.stwSportStatInflight 0 p).setFlag Fld.stwSportStatWaiting false p) s
  s.setFld Fld.stwSpineStatInflight 0

/-- What the engines had under way is gone: accesses, writes not yet delivered, pending registers. -/
def settleEngines (s : State) : State :=
  let quiet (x : Ctx) : Ctx := { x with accs := [], posted := 0, pend := [], copied := none, long := false }
  { s with ctxs := (s.ctxs.map fun e => (e.1, quiet e.2)).filter fun e => e.2 != {} }

/-- Step 1 of a warm start, with the rings kept (R580, R516). -/
def warmStops (keep : Nat → Bool) (host : Bool) (s : State) : State :=
  let s := (upFrom 0 96).foldl (fun s n => haltEngine n s) s
  let s := drainSpine keep (flushQueues (emptySched (ringsHalt keep s)))
  let s := settleEngines s
  let s := { s with arc := { s.arc with staging := none, queue := s.arc.queue.filter fun n => (s.job n).on } }
  let s := (upFrom 0 3).foldl (fun s k => (s.setFlag Fld.arcSlotOpen false k).setFld Fld.arcSlotOpenRing 0 k) s
  let s := ((upFrom 0 12) ++ [14, 15]).foldl (fun s x => resetCrossing x s) s
  if host then s else resetHostCrossings s

/-! ### Registers at a start (R12) -/

/-- The bits a register keeps through a warm start, and the others as it leaves them. -/
def warmReg (e : Nat × W64) : Nat × W64 :=
  match RegMap.find e.1 with
  | none => e
  | some (r, i, _) => (e.1, ((e.2 ^^^ r.coldAt i) &&& r.keep ||| r.warm) ^^^ r.coldAt i)

/-- Every register as a warm start leaves it. DISCARDED is the one field of a register at its cold value that a warm start
changes (R148), beside STW_RST_CAUSE (R612). -/
def warmRegs (s : State) : State :=
  let s := { s with regs := (s.regs.map warmReg).filter fun e => e.2 != 0 }
  (s.setFlag Fld.evtStatDiscarded true 0).setFlag Fld.evtStatDiscarded true 1

/-- The rings kept by a start go on as they stood. -/
def keepRings (keep : Nat → Bool) (old s : State) : State :=
  (upFrom 0 64).foldl (fun s n => if keep n then s.setReg Reg.rngStat (old.reg Reg.rngStat n) n else s) s

/-- Every hold, the pins safe, GATE pulled; of the sectors only those that have failed stay in the darkroom. -/
def holdHere (s : State) : State :=
  let s := pullGate (pinsSafe (holdDevice s))
  (upFrom 0 80).foldl (fun s k =>
    let f := s.flag Fld.stwSecHealthFailed k
    (s.setFlag Fld.stwSecHoldDark f k).setFlag Fld.stwSportStatDark f k) s

/-- Step 2 of a start: the holds, and VFAB at 0.85 V (R579). -/
def holdAll (s : State) : State :=
  let s := holdHere s
  (upFrom 0 2).foldl (fun s h => s.setFld Fld.pwrRailVfab 35 h) { s with pwr := { s.pwr with aim := [] } }

/-! ### Records of the stewards (R584, R604) -/

/-- A record's first words with its CRC over bytes 0 to 27 and what follows. -/
def sealed (w0 w1 w2 : W64) (rest : List W64) : List W64 :=
  let c := crc32c ((bytesOfWords [w0, w1, w2, 0]).take 28 ++ bytesOfWords rest)
  [w0, w1, w2, BitVec.ofNat 64 (c * 2 ^ 32)] ++ rest

/-- Does a record's CRC pass, and is its version 1? -/
def sealOk (ws : List W64) : Bool :=
  4 ≤ ws.length && bitsW (wordAt ws 0) 0 16 == 1 &&
    crc32c ((bytesOfWords (ws.take 4)).take 28 ++ bytesOfWords (ws.drop 4)) == bitsW (wordAt ws 3) 32 32

/-- The boot counters record (R584). -/
def State.bootWords (s : State) : List W64 :=
  let w0 := 1 + s.fld Fld.stwBootWarmFails * 2 ^ 16 + s.fld Fld.stwBootColdFails * 2 ^ 24 + s.fld Fld.stwBootSlot * 2 ^ 32
    + s.fld Fld.stwBootExhausted * 2 ^ 40 + s.fld Fld.stwBootConfirmTmo * 2 ^ 48
  sealed (BitVec.ofNat 64 w0) (BitVec.ofNat 64 (s.sta.starts + s.sta.falls * 2 ^ 32))
    (BitVec.ofNat 64 (s.fld Fld.stwBootHours)) []

/-- The boot counters taken from a record. -/
def bootRestore (ws : List W64) (s : State) : State :=
  let w0 := wordAt ws 0
  let s := (s.setFld Fld.stwBootWarmFails (bitsW w0 16 2)).setFld Fld.stwBootColdFails (bitsW w0 24 2)
  let s := (s.setFld Fld.stwBootSlot (bitsW w0 32 2)).setFld Fld.stwBootExhausted (bitsW w0 40 1)
  let s := (s.setFld Fld.stwBootConfirmTmo (bitsW w0 48 16)).setFld Fld.stwBootHours (bitsW (wordAt ws 2) 0 24)
  { s with sta := { s.sta with starts := bitsW (wordAt ws 1) 0 32, falls := bitsW (wordAt ws 1) 32 32 } }

/-- The spare map record (R604), of at most 504 entries. -/
def State.mapWords (s : State) : List W64 :=
  let es := s.sta.map.take 504
  sealed (BitVec.ofNat 64 (1 + es.length * 2 ^ 16 + s.sta.mapGen % 2 ^ 32 * 2 ^ 32))
    (BitVec.ofNat 64 (s.fld Fld.stwBootHours)) 0 es

/-- The spare map taken from a record. -/
def mapRestore (ws : List W64) (s : State) : State :=
  { s with sta := { s.sta with map := (ws.drop 4).take (bitsW (wordAt ws 0) 16 16), mapGen := bitsW (wordAt ws 0) 32 32 } }

/-- Is the archive RUN with a medium in use? -/
def State.archiveOk (s : State) : Bool := s.fld Fld.arcStatState == 1 && s.flag Fld.arcStatFormatted && s.arc.fault == 0

/-- A record of the store, if it can be read and its seal holds. -/
def State.sealedRecord (s : State) (key : Nat) : Option (List W64) :=
  if s.archiveOk && sealOk (Tab.get [] s.arc.recs key) then some (Tab.get [] s.arc.recs key) else none

/-- The boot counters written: the mirror at once, the record as an action of the stewards. Without an archive VOLATILE stands. -/
def bootSave (s : State) : State :=
  let s := { s with sta := { s.sta with mirror := some s.bootWords } }
  if s.archiveOk then raiseRecord .recordBoot s else s.setFlag Fld.stwBootVolatile true

/-! ### The cold state (R578 steps 1 and 2) -/

/-- The registers whose values are the device's for life (R475 to R479). -/
def lifeRegs : List (Reg × Nat) :=
  [(Reg.wtuSvn, 0), (Reg.wtuKeyCtl, 0), (Reg.wtuKeyCtl, 1), (Reg.wtuKeyCtl, 2), (Reg.wtuKeyCtl, 3), (Reg.wtuBootLock, 0),
   (Reg.wtuDebug, 0)]

/-- A lifetime write under way at a power loss leaves the old value or the new one, free; its REMAIN has been spent (R475). -/
def lifeLost (s : State) : State :=
  match s.wtu.life with
  | none => s
  | some (_, old, keys) =>
    if s.freeBit then s.tookFree
    else
      let s := s.tookFree
      let off := match s.wtu.life with | some (o, _, _) => o | none => 0
      match RegMap.find off with
      | none => s
      | some (r, i, j) =>
        let (lo, len) := if r = Reg.wtuSvn then (8, 8) else if r = Reg.wtuBootLock then (4, 2)
          else if r = Reg.wtuDebug then (1, 1) else (16, 3)
        let v := putBits old lo len (bitsW (s.reg r i j) lo len)
        let s := s.setReg r v i j
        { s with wtu := { s.wtu with keys := if keys = [] then s.wtu.keys else Tab.set [] s.wtu.keys i keys } }

/-- The medium of the archive, which no start touches. -/
def Arc.medium (a : Arc) : Arc :=
  { data := a.data, recs := a.recs, images := a.images, mapped := a.mapped, gen := a.gen, preferred := a.preferred,
    sectors := a.sectors, slotBlocks := a.slotBlocks, rsBlocks := a.rsBlocks, blocks := a.blocks,
    reserved := a.reserved, base := a.base }

/-- The device as a cold start finds it: everything at reset but what outlasts one. `power` says that VSUP was lost, `held` that
VRET was held meanwhile. -/
def coldState (power held : Bool) (s : State) : State :=
  let s := if power then lifeLost s else s
  let keep := !power || held
  let c : State := { State.reset with
    pending := s.pending, freeCount := s.freeCount, dt := s.dt, fine := s.fine
    sys := { s.sys with readShadow := [], writeShadow := [], accessErrors := 0, readData := 0, alarmN := true, retraining := false }
    arc := s.arc.medium
    wtu := { keys := s.wtu.keys }
    hostOut := s.hostOut.filter fun o => match o with | .read _ _ _ _ _ => false | _ => true
    laneOut := s.laneOut
    pins := (s.pins.map fun e => (e.1, e.2.input)).filter fun e => e.2 != ({} : PinHid)
    sta := if keep then { retained := s.sta.retained, mirror := s.sta.mirror, map := s.sta.map, mapGen := s.sta.mapGen,
                          zeroed := s.sta.zeroed } else {}
    hea := { planned := if power then [] else s.hea.planned }
    pwr := { gradeE := s.pwr.gradeE }
    jtag := if power then {} else s.jtag }
  let c := c.pins.foldl (fun c e => showPin e.1 c) c
  let c := lifeRegs.foldl (fun c r => c.setReg r.1 (s.reg r.1 r.2) r.2) c
  let c := if c.flag Fld.wtuDebugDisable then c.setFld Fld.wtuLinkPriv 0 2 else c
  let c := if c.pwr.gradeE then (c.setFld Fld.pwrTempHotThr 120).setFld Fld.stwDevInfoGrade 1 else c
  (upFrom 0 4).foldl (fun c b => c.setFlag Fld.pwrVbankOk true b) (c.setFlag Fld.clkStatIntoscOk true)

/-- The cause of a start, its kind and the strap, in STW_RST_CAUSE (R612). -/
def rstCause (cause : Nat) (warm : Bool) (s : State) : State :=
  s.setReg Reg.stwRstCause (BitVec.ofNat 64 (cause % 8 + b2n warm * 8 + b2n s.sys.straps.warmEn * 16))

/-- A cold start begins (R578): the leader is the LEAD_SEL half's (R38). -/
def beginCold (cause : Nat) (power held : Bool) (s : State) : State :=
  let s := rstCause cause false (coldState power held s)
  let s := (s.setFld Fld.stwLeadLeader (b2n s.sys.straps.leadSel)).setPhase 1
  { s with lead := { underWay := [.start] } }

/-- A warm start becomes a cold one, from the oscillator's delay on (R582, R587). -/
def warmToCold (zeroed : Bool) (s : State) : State :=
  let s := s.noticeIf s.healthNotes Code.warmToCold 0
  let cause := s.fld Fld.stwRstCauseCause
  let s := { s with sta := { s.sta with zeroed := zeroed } }
  beginCold cause false true s

/-! ### BIST at a start (R578 step 6, R580 step 5) -/

/-- The units one half tests at a start, in order. -/
def startUnits (h : Nat) (analog : Bool) : List Nat :=
  upFrom (40 * h) 40 ++ upFrom (80 + 48 * h) 48 ++ (if analog then upFrom (176 + 8 * h) 8 else []) ++ [192 + h]

/-- Do the limits of R590 hold? 0, or the limit left: 1 VFAB, 2 ROOT, 3 TEMP. -/
def State.bistLimit (s : State) (h : Nat) : Nat :=
  if s.fld Fld.pwrRailVfab h < 30 ∨ 45 < s.fld Fld.pwrRailVfab h then 1
  else if !s.flag Fld.clkStatRootLocked then 2
  else if 2 * (100 + 64) ≤ s.fld Fld.pwrTempTemp then 3
  else 0

/-- Both halves begin their tests. -/
def enterBist (analog : Bool) (s : State) : State :=
  showHealth { s.setPhase 4 with hea := { s.hea with west := startUnits 0 analog, east := startUnits 1 analog } }

/-! ### The source of a load (R492, R493, R587) -/

/-- The boot source: the locked one, or the straps': 1 ARCHIVE, 2 HOST, 3 JTAG, 4 TETHER. -/
def State.bootSource (s : State) : Nat :=
  let k := s.fld Fld.wtuBootLockLock
  if k ≠ 0 then k else s.sys.straps.bootSel + 1

/-- The slots in the order of R560. -/
def State.slotOrder (s : State) : List Nat := [s.arc.preferred, 1 - s.arc.preferred, 2]

/-- The next slot after SLOT in that order that is not empty. -/
def State.nextSlot (s : State) : Option Nat :=
  let rest := (s.slotOrder.dropWhile (· != s.fld Fld.stwBootSlot)).drop 1
  rest.find? fun k => s.flag Fld.arcSlotValid k

/-- A cold start that finds COLD_FAILS at 3 moves on, or has nowhere left to go (R587). -/
def bootFallback (s : State) : State :=
  if s.fld Fld.stwBootColdFails < 3 then s
  else match s.nextSlot with
    | some k =>
      let s := (s.setFld Fld.stwBootSlot k).setFld Fld.stwBootColdFails 0
      { s with sta := { s.sta with falls := satAdd 32 s.sta.falls 1 } }.alarm 5 Code.bootFallback 0
    | none => (s.setFlag Fld.stwBootExhausted true).alarm 6 Code.bootExhausted 0

/-- A counted start's increment, before its load or check (R585). -/
def countStart (s : State) : State :=
  let s := if s.sta.warm then s.setFld Fld.stwBootWarmFails (satAdd 2 (s.fld Fld.stwBootWarmFails) 1)
    else s.setFld Fld.stwBootColdFails (satAdd 2 (s.fld Fld.stwBootColdFails) 1)
  let s := { s with sta := { s.sta with starts := satAdd 32 s.sta.starts 1, counted := true, writing := s.archiveOk } }
  bootSave (s.setPhase 6)

/-- The load of a start from the archive, or its check (R581, R585). -/
def startLoads (s : State) : State :=
  if s.sta.warm ∧ !s.flag Fld.stwRstCauseReloaded then
    let s := ((s.setLdrState 3).setFld Fld.ldrStatSource 0).setFld Fld.ldrStatClass 0
    { s with ldr := { s.ldr with check := true, bare := true } }
  else if s.sta.stream then s
  else ldrFromSlot (s.fld Fld.stwBootSlot) s

/-- A counted start goes on once its record is written; without an archive there is none to wait for. -/
def countedGo (s : State) : State := if s.sta.writing then s else startLoads s

/-- A cold start's load begins, or the device waits, held, for a stream. -/
def startLoad (s : State) : State :=
  if s.loading then s.setPhase 6
  else if s.bootSource = 1 ∧ s.archiveOk ∧ !s.flag Fld.stwBootExhausted then
    let s := bootFallback s
    if s.flag Fld.stwBootExhausted then bootSave (s.setPhase 6) else countedGo (countStart s)
  else s.setPhase 6

/-! ### The map rebuilt (R578 steps 7 and 8, R607) -/

/-- The boot counters of a cold start: the record, the mirror, or zeros with the preferred slot. -/
def bootTake (s : State) : State :=
  let s := match s.sealedRecord 2, s.sta.mirror with
    | some ws, _ => bootRestore ws s
    | none, some ws => (bootRestore ws s).setFlag Fld.stwBootVolatile true
    | none, none => (s.setFld Fld.stwBootSlot s.arc.preferred).setFlag Fld.stwBootVolatile true
  if s.sta.zeroed then { s.setFld Fld.stwBootWarmFails 0 with sta := { s.sta with zeroed := false } } else s

/-- The registers of the port settings record, in the order in which this model keeps them. -/
def portRegs : List (Reg × Nat) :=
  (upFrom 0 144).flatMap (fun n => [(Reg.pinCfg, n), (Reg.pinMux, n), (Reg.pinOvl, n), (Reg.pinOwn, n), (Reg.pinOut, n),
    (Reg.pinPwm, n)]) ++ (upFrom 0 16).flatMap fun k => [(Reg.pinDacCfg, k), (Reg.pinDacCode, k), (Reg.pinAinCfg, k)]

/-- The settings a record holds applied: port settings (R656), or the supply record's LEVEL and DARK_ON (R627). -/
def settingsTake (s : State) : State :=
  let ws := if s.archiveOk then Tab.get [] s.arc.recs 5 else []
  let s := if ws = [] then s
    else (portRegs.zip ws).foldl (fun s e => s.setReg e.1.1 e.2 e.1.2) s
  let vs := if s.archiveOk then Tab.get [] s.arc.recs 4 else []
  if vs = [] then s
  else (upFrom 0 4).foldl (fun s b =>
    let v := bitsW (wordAt vs 0) (8 * b) 3
    let s := if v % 4 = s.fld Fld.pwrVbankLevel b then s
      else (s.setFlag Fld.pwrVbankSlewing true b).setFlag Fld.pwrVbankOk false b
    (s.setFld Fld.pwrVbankLevel (v % 4) b).setFlag Fld.pwrVbankDarkOn (4 ≤ v) b) s

/-- The map taken, the start's own triggers and the planned substitutions carried out, and the load begun. -/
def mapDone (s : State) : State :=
  let s := bootTake s
  let s := match s.sealedRecord 1 with
    | some ws => mapRestore ws s
    | none => { s with sta := { s.sta with map := [], mapGen := 0 } }.setFlag Fld.stwRstCauseMapRebuilt true
  let s := settingsTake s
  let known := s.sta.map.map spUnit
  let found := s.hea.work.filter fun e => !known.contains (spUnit e)
  let s := { s with hea := { s.hea with work := [] } }
  let s := found.foldl (fun s e => fixHere e s) s
  let s := fixPlannedHere (fun _ => true) s
  let s := { s with sta := { s.sta with retained := true } }
  startLoad (showHealth (showSpares s))

/-! ### What a FULL or MULTI load begins with (R511, R512, R518) -/

/-- The start-up steps of a leader with their gaps: FIRST, SECOND and THIRD, or OUTS, WRITES, RESETS (R519). -/
def leaderSteps (l : List Byte) : List (Nat × Nat) :=
  if bitOf (leaderNum l 7 1) 3 then
    (upFrom 0 3).map fun k => (leaderNum l (72 + k) 1, leaderNum l (76 + 4 * k) 4)
  else [(1, 0), (2, 1), (3, 1)]

/-- The device under its holds, its configuration, banks, engine memories and contexts zero, its banks loading. -/
def fullBegins (s : State) : State :=
  let l := s.leaderBytes
  let s := holdHere s
  let s := (upFrom 0 80).foldl (fun s k => s.setFld Fld.stwSecHoldTapActive 0 k) s
  { s with frames := [], arbs := [], mem := [], parity := [], ecc := [], ctxs := []
           cells := s.cells.filter fun e => e.2.ri
           ldr := { s.ldr with allBanks := true, banks := [], wrote := [], border := [], order := leaderSteps l
                               period := leaderNum l 54 2, noRead := bitOf (leaderNum l 7 1) 2 } }

/-! ### Warm starts (R580 to R582) -/

/-- The rings a warm start keeps: with a HOST stream, the loading ring and its completion ring. -/
def State.keptRings (s : State) (stream : Bool) (n : Nat) : Bool :=
  match s.ldr.ring with
  | some r => stream && s.ldrSource == 2 && (n == r || n == s.fld Fld.rngCfgCpl r)
  | none => false

/-- A warm start begins. `reload` says that it loads an image, `stream` that the stream is one whose leader has been accepted. -/
def beginWarm (cause : Nat) (reload stream : Bool) (s : State) : State :=
  let s := if s.loading && !stream then ldrFail Code.aborted s else s
  let s := finishFixes s
  let keep := s.keptRings stream
  let host := stream && s.ldrSource == 2
  let old := s
  let s := resumeAll (keepRings keep old (warmRegs (warmStops keep host s)))
  let s := rstCause cause true (holdAll s)
  let s := { s with ldr := { s.ldr with allBanks := true, check := false, bare := false }
                    clk := { s.clk with taken := s.flag Fld.clkStatRootLocked }
                    lead := { s.lead with underWay := s.lead.underWay.filter (· == .load) ++ [.start] }
                    sta := { s.sta with counted := false, warm := true, reload := reload, stream := stream, retry := none,
                                        writing := false, confirm := false }
                    hea := { s.hea with west := [], east := [] } }
  let rec? := if s.sta.retained then none else s.sealedRecord 1
  if !s.sta.retained && rec?.isNone then warmToCold false s
  else
    let s := match rec? with
      | some ws => { mapRestore ws s with sta := { (mapRestore ws s).sta with reload := true, retained := true } }
      | none => s
    let counted := if stream then s.ldrSource == 1 else !reload || s.bootSource == 1
    if counted && s.fld Fld.stwBootWarmFails == 3 then
      warmToCold true (s.setFld Fld.stwBootWarmFails 0)
    else if s.flag Fld.clkStatRootLocked then enterBist false s
    else s.setPhase (if s.flag Fld.clkStatXtalRun then 2 else 1)

/-- A warm start's tests are over: it loads, waits for a stream, or checks (R580 step 6, R581). -/
def warmTested (s : State) : State :=
  let s := fixPlannedHere (fun _ => true) s
  let s := showHealth s
  if s.sta.reload ∨ s.heldMask ≠ 0 then
    let s := s.setFlag Fld.stwRstCauseReloaded true
    if s.sta.stream then
      let s := fullBegins s
      if s.ldrSource = 1 then countedGo (countStart s) else s.setPhase 6
    else if s.bootSource = 1 ∧ s.archiveOk then countedGo (countStart s)
    else (s.setHeldMask (2 ^ 80 - 1)).setPhase 6
  else countedGo (countStart s)

/-! ### The root locks (R292, R293) -/

/-- ROOT_LOCK (R292, R293): the root locks; at a cold start DT starts at 0, and the LOCK step completes. A cold start
goes on to the archive's start, a warm one to BIST (R578, R580). -/
def rootLock (s : State) : State :=
  if s.phase = 2 ∧ s.clk.taken ∧ !s.flag Fld.clkStatRootLocked then
    let s := s.setFlag Fld.clkStatRootLocked true
    let s := s.setFld Fld.ldrStatSteps 1
    if s.flag Fld.stwRstCauseKind then enterBist false s
    else { s.setPhase 3 with dt := 0, fine := 0, arc := { s.arc with starting := true } }
  else s

def execRootLock (s : State) : Out := .next (rootLock s)

/-! ### Success and refusal -/

/-- A start has succeeded: the counts are cleared and the record written (R585). -/
def startSucceeds (s : State) : State :=
  let s := (s.setFld Fld.stwBootWarmFails 0).setFld Fld.stwBootColdFails 0
  let s := s.setFlag Fld.stwBootConfirmed true
  bootSave { s with sta := { s.sta with counted := false, confirm := false } }

/-- A start that a split ended is not counted: its increment is undone, and it begins again later (R583). -/
def startHeld (s : State) : State :=
  let s := if s.sta.counted then
      if s.sta.warm then s.setFld Fld.stwBootWarmFails (s.fld Fld.stwBootWarmFails - 1)
      else s.setFld Fld.stwBootColdFails (s.fld Fld.stwBootColdFails - 1)
    else s
  { s.setPhase 9 with sta := { s.sta with counted := false, writing := false, confirm := false } }

end Sys2Proof.Machine
end

