-- ==== Sys2Proof/Machine/Loading.lean ====
section
/-! DEFINITION. Loads as they begin and as they are controlled: the leader's checks, LDR_CTL, configuration checks and readback
(12_configuration R496 to R501, R516 to R527, R533 to R536). -/

namespace Sys2Proof.Machine

/-! ### The leader (R497 to R501) -/

/-- Check 1 of R498 on the leader's own bytes. -/
def leaderForm (l : List Byte) : Bool :=
  let f := leaderNum l
  let zeros (at' n : Nat) : Bool := ((l.drop at').take n).all (· == 0)
  let cls := f 6 1
  let enc := bitOf (f 7 1) 0
  let order := bitOf (f 7 1) 3
  let body := f 32 8
  let len := 128 + body + (if enc then 16 * ((body + 262143) / 262144) else 0) + 8
  let steps := (upFrom 0 3).map fun k => f (72 + k) 1
  let gaps := (upFrom 0 3).map fun k => f (76 + 4 * k) 4
  f 0 4 == 0x41524F54 && f 4 2 == 1 && crc32c (l.take 124) == f 124 4
    && zeros 19 1 && zeros 66 2 && zeros 75 1 && zeros 88 36 && f 7 1 / 16 == 0
    && cls ≤ 2 && f 12 1 ≤ 3 && (if enc then 1 ≤ f 13 1 && f 13 1 ≤ 5 else zeros 12 4)
    && f 16 2 ≤ 128 && (if cls = 2 then 1 ≤ f 18 1 && f 18 1 ≤ 16 else f 18 1 == 1)
    && 8 ≤ body && body % 8 == 0 && f 24 8 == len && (enc || zeros 40 12)
    && f 52 2 == 1 && f 54 2 ≤ 1000 && (zeros 56 10 == (cls != 1)) && f 68 4 ≤ 60000
    && (if order then steps.contains 1 && steps.contains 2 && steps.contains 3 && gaps.all (· ≤ 1000000) else zeros 72 16)

/-- Does DEV_ID name this device? (R499) -/
def leaderIdentity (l : List Byte) (s : State) : Bool :=
  let id := (s.reg Reg.stwDevId).toNat
  let d := leaderNum l 8 4
  if bitOf (leaderNum l 7 1) 1 then d / 256 == id / 256 else d == id

/-- What check 5 refuses (R501); 0 if nothing. -/
def keyRefusal (l : List Byte) (s : State) : Nat :=
  if (upFrom 0 4).all fun k => !s.flag Fld.wtuKeyCtlSet k then 0
  else if !bitOf (leaderNum l 7 1) 0 then Code.plainRefused
  else
    let k := leaderNum l 12 1
    if !s.flag Fld.wtuKeyCtlSet k ∨ leaderNum l 13 1 ≠ 5 - s.fld Fld.wtuKeyCtlRemain k ∨ leaderNum l 14 2 ≠ s.fld Fld.wtuKeyCtlKcv k
    then Code.keyMismatch else 0

/-- Is a sector free for a PARTIAL load? (R527) -/
def State.sectorFree (s : State) (sec : Nat) : Bool :=
  !s.flag Fld.stwSecHoldDark sec && !bitOf s.heldMask sec && !s.flag Fld.stwSecHealthBist sec && !s.fixSector sec

/-- What check 6 refuses: a sector of the mask, or the device's place in the chain (R522, R523); 0 if nothing. -/
def placeRefusal (l : List Byte) (s : State) : Nat :=
  match leaderNum l 6 1 with
  | 1 =>
    let m := leaderNum l 56 10
    if (upFrom 0 80).any fun k => bitOf m k && !s.sectorFree k then Code.sectorBusy else 0
  | 2 =>
    let i := s.fld Fld.ldrChainIndex
    let n := leaderNum l 18 1
    if n ≤ i then Code.devIndex
    else if i + 1 < n ∧ !s.flag Fld.ldrChainDownOk then Code.chainBroken
    else 0
  | _ => 0

/-- The first check of R498 that fails; 0 if none does. -/
def leaderRefusal (l : List Byte) (s : State) : Nat :=
  let whole := leaderNum l 6 1 != 1
  let lock := s.fld Fld.wtuBootLockLock
  if !leaderForm l then Code.leaderBad
  else if !leaderIdentity l s then Code.idMismatch
  else if whole ∧ lock ≠ 0 ∧ lock ≠ s.ldrSource then Code.srcLocked
  else if leaderNum l 16 2 < s.fld Fld.wtuSvnSvn then Code.svnOld
  else if keyRefusal l s ≠ 0 then keyRefusal l s
  else if placeRefusal l s ≠ 0 then placeRefusal l s
  else if whole ∧ !s.agreed then Code.held
  else 0

/-- A LOAD_SLOT whose stream's leader is judged completes (R560). -/
def slotJudged (code : Nat) (s : State) : State :=
  if s.ldrSource ≠ 1 then s
  else (upFrom 0 64).foldl (fun s n =>
    if (s.job n).on && (s.job n).op n == 0x4B then completeDesc n code s else s) s

/-- A refused leader: a MULTI stream, or any stream of a TETHER follower, is still forwarded, and GATE pulled (R524). -/
def leaderRefused (code : Nat) (l : List Byte) (s : State) : State :=
  let s := if leaderNum l 6 1 = 2 ∨ s.ldrSource = 4 then pullGate (forward l (s.setFlag Fld.ldrChainForward true)) else s
  let s := slotJudged code (ldrFail code s)
  if s.ldr.skip = 0 then forwardEnd s else s

/-- Are the three holds of every sector in force? (R516) -/
def State.allHeld (s : State) : Bool :=
  (upFrom 0 80).all fun k => s.flag Fld.stwSecHoldOutHeld k && s.flag Fld.stwSecHoldWrHeld k && s.flag Fld.stwSecHoldRstHeld k

/-- The sixteen words of a leader in LDR_LEADER. -/
def setLeader (l : List Byte) (s : State) : State :=
  (upFrom 0 16).foldl (fun s i => s.setReg Reg.ldrLeader (wordAt (wordsLE 16 l) i) i) s

/-- An accepted leader: the body begins; a FULL or MULTI stream in a device that runs begins a warm start with reload. -/
def leaderAccepted (l : List Byte) (s : State) : State :=
  let cls := leaderNum l 6 1
  let s := setLeader l s
  let s := (s.setFld Fld.ldrStatClass cls).setFlag Fld.ldrStatEnc (bitOf (leaderNum l 7 1) 0)
  let s := ldrEat 128 (s.setLdrState 2)
  let s := if cls = 2 then
      let n := leaderNum l 18 1
      let s := s.setFld Fld.ldrChainCount n
      if s.fld Fld.ldrChainIndex + 1 < n then forward l (s.setFlag Fld.ldrChainForward true) else s
    else s
  if cls = 1 then { s with ldr := { s.ldr with wrote := [] } }
  else
    let s := slotJudged Code.ok (s.raiseAction .load)
    if s.allHeld then fullBegins s else beginWarm 4 true true s

/-- LEADER (R498): the 128 bytes judged. -/
def leader (s : State) : State :=
  let s := ldrRefill s
  if s.ldrState ≠ 1 ∨ s.loadHeld ∨ s.ldr.raw.length < 128 then s
  else
    let l := s.ldr.raw.take 128
    let code := leaderRefusal l s
    if code = 0 then leaderAccepted l s else leaderRefused code l s

/-- LEADER (R498). -/
def execStreamLeader (s : State) : Out := .next (leader s)

/-! ### LDR_CTL (R533, R534) -/

/-- LOAD_ABORT (R533): the Warden ends the load. -/
def loadAbort (s : State) : State := if s.loading then ldrFail Code.aborted s else s

/-- The sectors of a mask. -/
def maskSectors (m : Nat) : List Nat := (upFrom 0 80).filter fun k => bitOf m k

/-- LOAD_DISCARD (R534): the sectors held after a PARTIAL failure leave the darkroom by the start-up steps. -/
def loadDiscard (s : State) : State :=
  if s.loading ∨ s.heldMask = 0 ∨ s.heldMask = 2 ^ 80 - 1 then s
  else
    let l := maskSectors s.heldMask
    { s.setHeldMask 0 with ldr := { s.ldr with entered := l, steps := leaderSteps s.leaderBytes } }

/-- The writer must be the Warden for a bit of LDR_CTL, LDR_CHECK or LDR_RB_SEL. -/
def execLoadAbort (w : Writer) (s : State) : Out :=
  .next (s.linked w Reg.ldrCtl.base fun s => s.wardenOr w Reg.ldrCtl.base loadAbort)

def execLoadDiscard (w : Writer) (s : State) : Out :=
  .next (s.linked w Reg.ldrCtl.base fun s => s.wardenOr w Reg.ldrCtl.base loadDiscard)

/-! ### Checks and readback (R535, R536) -/

/-- The words of a sector's frames from frame `f` on. -/
def State.frameWords (s : State) (sec f n : Nat) : List W64 :=
  (upFrom 0 (64 * n)).map fun k => Tab.get 0 s.frames ((sec * 416 + f) * 64 + k)

/-- The CRC-32C of a sector's 416 frames. -/
def State.sectorCrc (s : State) (sec : Nat) : Nat := crc32c (bytesOfWords (s.frameWords sec 0 416))

/-- Is a sector DARK or held? -/
def State.darkOrHeld (s : State) (sec : Nat) : Bool := s.flag Fld.stwSecHoldDark sec || bitOf s.heldMask sec

/-- LDR_CHECK.GO (R535, R543). -/
def configCheck (s : State) : State :=
  if s.ldr.check then s
  else
    let s := s.setFlag Fld.ldrCheckDone false
    if s.loading then (s.setFlag Fld.ldrCheckRefused true).setFlag Fld.ldrCheckDone true
    else
      let s := (s.setFlag Fld.ldrCheckRefused false).setFlag Fld.ldrCheckGo true
      { s with ldr := { s.ldr with check := true } }

/-- CONFIG_CHECK (R535). -/
def execConfigCheck (w : Writer) (s : State) : Out :=
  .next (s.linked w Reg.ldrCheck.base fun s => s.wardenOr w Reg.ldrCheck.base configCheck)

/-- The sectors whose frames differ from the CRC of their load, of those neither DARK nor held. In a start every sector is held
by the start itself, and only the darkroom and LDR_HELD keep one out of the check. -/
def State.checkFails (s : State) : List Nat :=
  (upFrom 0 80).filter fun k => !s.darkOrHeld k && s.sectorCrc k != s.fld Fld.ldrSecCrcValue k

/-- A check complete: LDR_CHECK_FAIL, FAILS and the notice. -/
def checkDone (s : State) : State :=
  let l := s.checkFails
  let m := l.foldl (fun m k => m + 2 ^ k) 0
  let s := (upFrom 0 3).foldl (fun s i => s.setFld Fld.ldrCheckFailValue (bitsOf m (32 * i) 32) i) s
  let s := (s.setFld Fld.ldrCheckFails l.length).setFlag Fld.ldrCheckDone true
  let s := (s.setFlag Fld.ldrCheckGo false).noticeIf (l != [] && s.flag Fld.ldrCfgNoteEn) Code.cfgCheckFail 0
  { s with ldr := { s.ldr with check := false } }

/-- A warm start whose check fails loads an image: from the archive, already counted, or it waits for a stream (R581). -/
def checkLoads (s : State) : State :=
  let s := { s.setFlag Fld.stwRstCauseReloaded true with ldr := { s.ldr with bare := false } }
  if s.bootSource = 1 ∧ s.archiveOk then ldrFromSlot (s.fld Fld.stwBootSlot) (s.setLdrState 6)
  else
    let s := { s with sta := { s.sta with counted := false } }
    (s.setHeldMask (2 ^ 80 - 1)).setLdrState 7

/-- GATE is released, and the start waits for it (R521). -/
def gateWait (s : State) : State :=
  let s := (s.setFlag Fld.ldrStatGateOut false).setLdrState 4
  if s.phase = 0 then s else s.setPhase 7

/-- CONFIG_CHECK_DONE (R535): in a warm start a clean check goes on to GATE. -/
def configCheckDone (s : State) : State :=
  if !s.ldr.check then s
  else
    let start := s.ldr.bare && s.ldrState == 3
    let s := checkDone s
    if !start then s
    else if s.fld Fld.ldrCheckFails = 0 then gateWait s
    else checkLoads s

def execConfigCheckDone (s : State) : Out := .next (configCheckDone s)

/-- What refuses a copy of a frame: 0, or R536's cause. -/
def State.readbackCause (s : State) (sec f : Nat) : Nat :=
  if 79 < sec ∨ 415 < f then 2
  else if s.ldr.noRead then 1
  else if s.darkOrHeld sec then 2
  else if s.loading ∨ s.ldr.check then 3
  else 0

/-- READBACK (R536, R544): the frame SECTOR and FRAME name is copied, or refused. -/
def readback (s : State) : State :=
  let sec := s.fld Fld.ldrRbSelSector
  let f := s.fld Fld.ldrRbSelFrame
  let c := s.readbackCause sec f
  let ws := if c = 0 then s.frameWords sec f 1 else []
  let s := (upFrom 0 64).foldl (fun s k => s.setReg Reg.ldrRbData (wordAt ws k) k) s
  ((s.setFlag Fld.ldrRbSelRefused (c != 0)).setFld Fld.ldrRbSelCause c).setFlag Fld.ldrRbSelDone true

/-- A write of LDR_RB_SEL: the fields and GO are the Warden's. -/
def rbSelWrite (w : Writer) (v : W32) (s : State) : State :=
  let v64 : W64 := v.setWidth 64
  let old := s.reg Reg.ldrRbSel
  if !s.warden w then
    if Reg.ldrRbSel.touchesRww old v64 || bitsW v 31 1 == 1 then s.denyWarden w Reg.ldrRbSel.base else s
  else
    let s := s.setReg Reg.ldrRbSel (Reg.ldrRbSel.plain old v64 true)
    if bitsW v 31 1 = 1 then readback (s.setFlag Fld.ldrRbSelDone false) else s

/-- READBACK (R536). -/
def execReadback (w : Writer) (v : W32) (s : State) : Out := .next (s.linked w Reg.ldrRbSel.base (rbSelWrite w v))

end Sys2Proof.Machine
end

