-- ==== Sys2Proof/Machine/Archive.lean ====
section
/-! DEFINITION. The NAND archive: its start, its registers, its queue of operations, slots, records, sectors, and the care of the
medium (13_archive R546 to R574). -/

namespace Sys2Proof.Machine

/-! ### The medium (R548, R552 to R555) -/

/-- A block of the medium. -/
def State.block (s : State) (b : Nat) : Block := Tab.get {} s.arc.blocks b

/-- A block set. -/
def State.setBlock (s : State) (b : Nat) (x : Block) : State :=
  { s with arc := { s.arc with blocks := Tab.set {} s.arc.blocks b x } }

/-- The bytes of a page's data. -/
def State.pageBytes (s : State) : Nat := 4096 * 2 ^ s.fld Fld.arcGeomPage

/-- The bytes of a block's data. -/
def State.blockBytes (s : State) : Nat := s.pageBytes * 2 ^ s.fld Fld.arcGeomPages

/-- One for each bit set among the lowest four. -/
def ones4 (v : Nat) : Nat := ((upFrom 0 4).filter fun k => bitOf v k).length

/-- The blocks of every target in use. -/
def State.allBlocks (s : State) : Nat :=
  (ones4 (s.fld Fld.arcStatCePresent) - ones4 (s.fld Fld.arcStatCeIgnored)) * (s.fld Fld.arcGeomLuns + 1) * s.fld Fld.arcGeomBlocks

/-- The bad blocks. -/
def State.badBlocks (s : State) : Nat := (s.arc.blocks.filter fun e => e.2.bad).length

/-- The good blocks. -/
def State.goodBlocks (s : State) : Nat := s.allBlocks - s.badBlocks

/-- The free pool: good blocks neither set aside nor holding data. -/
def State.freeBlocks (s : State) : Nat :=
  s.goodBlocks - s.arc.reserved - (s.arc.blocks.filter fun e => e.2.used && !e.2.bad).length

/-- Below which ARC_WORN is raised: 2 % of the good blocks, at least 16. -/
def State.poolReserve (s : State) : Nat := max 16 ((2 * s.goodBlocks + 99) / 100)

/-- The archive's registers as the medium and the controller stand. -/
def showArc (s : State) : State :=
  let s := s.setFld Fld.arcDataDataSectors s.arc.sectors
  let s := (s.setFld Fld.arcDataFreeBlocks (min 65535 s.freeBlocks)).setFld Fld.arcDataBadBlocks (min 65535 s.badBlocks)
  let held := (s.arc.blocks.filter fun e => e.2.used && !e.2.bad).map fun e => s.arc.base + e.2.erases
  let s := s.setFld Fld.arcWearEraseMin (min (2 ^ 24 - 1) (held.foldl min (held.headD 0)))
  let s := s.setFld Fld.arcWearEraseMax (min (2 ^ 24 - 1) (held.foldl max 0))
  let s := (s.setFld Fld.arcBootPreferred s.arc.preferred).setFld Fld.arcBootGen (s.arc.gen % 2 ^ 16)
  let s := (upFrom 0 3).foldl (fun s k =>
    let im := Tab.get [] s.arc.images k
    let s := (s.setFld Fld.arcSlotLen im.length k).setFlag Fld.arcSlotValid (im != []) k
    s.setFld Fld.arcSlotSvn (leaderNum im 16 2) k) s
  s.setFld Fld.arcStatQueued s.arc.queue.length

/-- Are archive notices enabled? -/
def State.arcNotes (s : State) : Bool := s.flag Fld.arcCfgNoteEn

/-- ARC_WORN where the pool has just fallen below its reserve (R555). -/
def judgePool (before : State) (s : State) : State :=
  s.noticeIf (decide (s.freeBlocks < s.poolReserve) && decide (before.poolReserve ≤ before.freeBlocks) && s.arcNotes) Code.arcWorn 0

/-- A page read judged (R551, R553): the counts of its block, an uncorrectable codeword, and a refresh that falls due. -/
def judgeRead (b bits : Nat) (s : State) : State :=
  let x := s.block b
  let y : Block := { x with reads := x.reads + 1, worst := max x.worst bits }
  let s := s.setBlock b y
  let s := if s.fld Fld.arcWearWorst < bits then s.setFld Fld.arcWearWorst bits else s
  let s := if 72 < bits then (s.bump Fld.arcCntUncorr).noticeIf s.arcNotes Code.arcUncorrectable 0 else s
  if s.fld Fld.arcCfgRdLimit * 1000 ≤ y.reads ∨ s.fld Fld.arcCfgRefreshBits ≤ bits then s.bump Fld.arcCntRefreshes else s

/-- A block whose program or erase reports failure (R555). -/
def retireBlock (b : Nat) (s : State) : State :=
  let s' := s.setBlock b { s.block b with bad := true, used := false }
  let s' := { s' with arc := { s'.arc with gen := s'.arc.gen + 1 } }
  judgePool s ((s'.bump Fld.arcCntRetired).noticeIf s'.arcNotes Code.arcBlockRetired b)

/-- May the controller take a block for writing: one that holds data already, the least-erased of those listed free, or the
most-erased while levelling (R552)? -/
def State.mayProgram (s : State) (b : Nat) : Bool :=
  let x := s.block b
  let free := s.arc.blocks.filter fun e => !e.2.used && !e.2.bad
  let held := s.arc.blocks.filter fun e => e.2.used && !e.2.bad
  let spread := max 1 (s.fld Fld.arcWlSpread)
  let lo := held.foldl (fun m e => min m e.2.erases) ((held.map (·.2.erases)).headD 0)
  let hi := held.foldl (fun m e => max m e.2.erases) 0
  x.used || free.all (fun e => x.erases ≤ e.2.erases) || (decide (spread < hi - lo) && free.all fun e => e.2.erases ≤ x.erases)

/-- What an operation of the array leaves of its block; `none` where the controller makes no such operation. -/
def nandBlock (op : NandOp) (s : State) : Option State :=
  match op with
  | .read b bits => some (judgeRead b.toNat bits.toNat s)
  | .program b ok =>
    if (s.block b.toNat).bad || !s.mayProgram b.toNat then none
    else if ok then some (judgePool s (s.setBlock b.toNat { s.block b.toNat with used := true }))
    else some (retireBlock b.toNat s)
  | .erase b ok =>
    let x := s.block b.toNat
    if x.bad then none
    else if ok then some (s.setBlock b.toNat { erases := x.erases + 1 })
    else some (retireBlock b.toNat s)

/-! ### Descriptors (R558 to R568) -/

/-- Operand k of the descriptor of ring n. -/
def State.arcArg (s : State) (n k : Nat) : Nat := descArg (s.job n).desc (s.extended n) k

/-- The sectors a data operation names. -/
def State.arcCount (s : State) (n : Nat) : Nat :=
  let k := if (s.job n).op n = 0x42 then 1 else 2
  let c := s.arcArg n k
  if !s.extended n ∧ c = 0 then 65536 else c

/-- The first sector of a data operation. -/
def State.arcLba (s : State) (n : Nat) : Nat := s.arcArg n (if (s.job n).op n = 0x42 then 0 else 1)

/-- The SLOT an image operation names. -/
def State.arcSlotOf (s : State) (n : Nat) : Nat :=
  s.arcArg n (if (s.job n).op n = 0x47 ∨ (s.job n).op n = 0x49 then 1 else 0)

/-- The KEY a record operation names. -/
def State.arcKey (s : State) (n : Nat) : Nat := s.arcArg n (if (s.job n).op n = 0x45 then 0 else 1)

/-- Values that complete with BAD_OPCODE (R567, R568). -/
def arcValuesBad (n : Nat) (s : State) : Bool :=
  let a := s.arcArg n
  let count := s.arcCount n
  let addr := a 0 % 8 != 0
  let len (v : Nat) : Bool := v == 0 || v % 8 != 0
  match (s.job n).op n with
  | 0x40 => addr || count == 0 || decide (1048576 < count)
  | 0x41 => addr || count == 0 || decide (1048576 < count)
  | 0x42 => count == 0 || decide (1048576 < count)
  | 0x43 => addr || len (a 2) || decide (4064 < a 2)
  | 0x44 => addr || len (a 2) || decide (4064 < a 2)
  | 0x46 => decide (2 < a 0) || len (a 1) || decide (s.arc.slotBlocks * s.blockBytes < a 1)
  | 0x47 => addr || decide (2 < a 1) || len (a 2)
  | 0x48 => decide (2 < a 0)
  | 0x49 => addr || decide (2 < a 1) || len (a 3)
  | 0x4A => decide (2 < a 0)
  | 0x4B => decide (2 < a 0)
  | 0x4C => a 0 != 0x464D
  | _ => false

/-- Is the staging another ring's, or none? 0, ARC_SLOT_BUSY, ARC_SLOT_EMPTY. -/
def stagingRefusal (n slot : Nat) (s : State) : Nat :=
  match s.arc.staging with
  | none => Code.arcSlotEmpty
  | some (r, k, _, _) => if r ≠ n then Code.arcSlotBusy else if k ≠ slot then Code.arcSlotEmpty else 0

/-- Is the golden slot locked? -/
def State.goldenLocked (s : State) (slot : Nat) : Bool := slot == 2 && !s.flag Fld.arcCtlGoldenWe

/-- Does the loader read the archive? -/
def State.ldrReads (s : State) : Bool := s.loading && s.ldrSource == 1

/-- What an operation is refused with before it is taken; 0 if nothing (R555, R559 to R561, R567, R568). -/
def arcRefusal (n : Nat) (s : State) : Nat :=
  let op := (s.job n).op n
  let slot := s.arcSlotOf n
  let range := s.arc.sectors < s.arcLba n + s.arcCount n
  if arcValuesBad n s then Code.badOpcode
  else if s.fld Fld.arcStatState ≠ 1 then Code.arcOff
  else if s.arc.fault ≠ 0 ∧ !(op = 0x4C ∧ s.arc.fault = Code.arcNoBoot) then s.arc.fault
  else match op with
    | 0x40 => if range then Code.arcRange else 0
    | 0x41 => if range then Code.arcRange else if s.freeBlocks < 8 then Code.arcFull else 0
    | 0x42 => if range then Code.arcRange else 0
    | 0x44 => if s.arcKey n < 0x100 then Code.arcKeyReserved else 0
    | 0x45 => if s.arcKey n < 0x100 then Code.arcKeyReserved else 0
    | 0x46 =>
      if s.goldenLocked slot then Code.arcGoldenLocked
      else match s.arc.staging with
        | some (r, _, _, _) => if r = n then 0 else Code.arcSlotBusy
        | none => 0
    | 0x47 =>
      if s.goldenLocked slot then Code.arcGoldenLocked
      else if stagingRefusal n slot s ≠ 0 then stagingRefusal n slot s
      else match s.arc.staging with
        | some (_, _, len, bs) => if len < bs.length + s.arcArg n 2 then Code.arcRange else 0
        | none => 0
    | 0x48 => if s.goldenLocked slot then Code.arcGoldenLocked else stagingRefusal n slot s
    | 0x49 =>
      let im := (Tab.get [] s.arc.images slot).length
      if im = 0 then Code.arcSlotEmpty else if im < s.arcArg n 2 * 4096 + s.arcArg n 3 then Code.arcRange else 0
    | 0x4A =>
      if slot = 2 ∨ Tab.get [] s.arc.images slot = [] then Code.arcSlotEmpty else if !s.agreed then Code.held else 0
    | 0x4B =>
      if Tab.get [] s.arc.images slot = [] then Code.arcSlotEmpty else if s.loading then Code.ldrBusy else 0
    | 0x4C => if s.ldrReads then Code.arcSlotBusy else 0
    | _ => 0

/-- An operation put in the controller's queue (R565). -/
def enqueue (n : Nat) (s : State) : State :=
  let q := s.arc.queue ++ [n]
  { s with arc := { s.arc with queue := q } }.setFld Fld.arcStatQueued q.length

/-- ARC_SLOT's OPEN and OPEN_RING from the staging. -/
def showStaging (s : State) : State :=
  (upFrom 0 3).foldl (fun s k =>
    match s.arc.staging with
    | some (r, j, _, _) => (s.setFlag Fld.arcSlotOpen (j == k) k).setFld Fld.arcSlotOpenRing (if j = k then r else 0) k
    | none => (s.setFlag Fld.arcSlotOpen false k).setFld Fld.arcSlotOpenRing 0 k) s

/-- An archive descriptor whose own checks have passed begins, or is refused. -/
def arcBegin (n lost : Nat) (s : State) : State :=
  let code := arcRefusal n s
  let a := s.arcArg n
  if code ≠ 0 then completeDesc n code s
  else match (s.job n).op n with
    | 0x40 => enqueue n (setTransfer n 0 (a 0) (4096 * s.arcCount n) s)
    | 0x41 => jobChunk n lost (enqueue n (setTransfer n (a 0) 0 (4096 * s.arcCount n) s))
    | 0x43 => enqueue n (setTransfer n 0 (a 0) (a 2) s)
    | 0x44 => jobChunk n lost (enqueue n (setTransfer n (a 0) 0 (a 2) s))
    | 0x46 => completeDesc n Code.ok (showStaging { s with arc := { s.arc with staging := some (n, a 0, a 1, []) } })
    | 0x47 => jobChunk n lost (enqueue n (setTransfer n (a 0) 0 (a 2) s))
    | 0x49 => enqueue n (setTransfer n 0 (a 0) (a 3) s)
    | 0x4A => (enqueue n s).raiseAction .slotChange
    | 0x4B =>
      let s := ldrFromSlot (a 0) (enqueue n s)
      s.setJob n { s.job n with count := s.ldr.gen + 1 }
    | _ => enqueue n s

/-- Do two operations touch a common sector, record or slot? -/
def arcShare (n m : Nat) (s : State) : Bool :=
  let data (k : Nat) : Bool := decide ((s.job k).op k < 0x43)
  let recs (k : Nat) : Bool := decide (0x43 ≤ (s.job k).op k) && decide ((s.job k).op k < 0x46)
  let all (k : Nat) : Bool := (s.job k).op k == 0x4C
  all n || all m
    || (data n && data m && s.arcLba n < s.arcLba m + s.arcCount m && s.arcLba m < s.arcLba n + s.arcCount n)
    || (recs n && recs m && s.arcKey n == s.arcKey m)
    || (!data n && !recs n && !data m && !recs m && s.arcSlotOf n == s.arcSlotOf m)

/-- Must an operation wait for one taken before it? (R565) -/
def State.arcWaits (s : State) (n : Nat) : Bool := (s.arc.queue.takeWhile (· != n)).any fun m => arcShare n m s

/-- Has a job delivered, or taken, every byte of its transfer, with nothing left between memory and the controller? -/
def State.arcMoved (s : State) (n : Nat) : Bool :=
  let x := s.job n
  decide (x.len ≤ x.done) && x.acc.isEmpty && !x.put

/-- Operations that give or take whole units end once their transfer and the medium's part are both done. -/
def arcFinish (n : Nat) (s : State) : State :=
  let x := s.job n
  if !x.on || !s.arcMoved n then s
  else match x.op n with
    | 0x40 => if s.arcCount n ≤ x.count then completeDesc n x.status s else s
    | 0x41 => if s.arcCount n ≤ x.count then completeDesc n x.status s else s
    | 0x43 => if x.count = 0 then s else completeDesc n x.status s
    | 0x47 => completeDesc n x.status s
    | 0x49 => if s.arcArg n 3 ≤ 4096 * x.count then completeDesc n x.status s else s
    | _ => s

/-- An archive row of ring n: the operation under way goes on, or the descriptor at the front starts. -/
def arcRow (n row lost : Nat) (s : State) : State := arcFinish n (descStep n row lost (arcBegin n lost) s)

def execArcRead (n : Fin 64) (lost : Fin 4) (s : State) : Out := .next (arcRow n.val 0x40 lost.val s)
def execArcWrite (n : Fin 64) (lost : Fin 4) (s : State) : Out := .next (arcRow n.val 0x41 lost.val s)
def execArcTrim (n : Fin 64) (s : State) : Out := .next (arcRow n.val 0x42 0 s)
def execRecRead (n : Fin 64) (lost : Fin 4) (s : State) : Out := .next (arcRow n.val 0x43 lost.val s)
def execRecWrite (n : Fin 64) (lost : Fin 4) (s : State) : Out := .next (arcRow n.val 0x44 lost.val s)
def execRecDelete (n : Fin 64) (s : State) : Out := .next (arcRow n.val 0x45 0 s)
def execImgOpen (n : Fin 64) (s : State) : Out := .next (arcRow n.val 0x46 0 s)
def execImgWrite (n : Fin 64) (lost : Fin 4) (s : State) : Out := .next (arcRow n.val 0x47 lost.val s)
def execImgCommit (n : Fin 64) (s : State) : Out := .next (arcRow n.val 0x48 0 s)
def execImgRead (n : Fin 64) (lost : Fin 4) (s : State) : Out := .next (arcRow n.val 0x49 lost.val s)
def execSlotSelect (n : Fin 64) (s : State) : Out := .next (arcRow n.val 0x4A 0 s)
def execArcFormat (n : Fin 64) (s : State) : Out := .next (arcRow n.val 0x4C 0 s)

/-- LOAD_SLOT (R560): it begins, or ends with the load of its slot: a PARTIAL stream once every byte is taken; a failed one with its
code. That of another stream ends at its leader. -/
def loadSlot (n : Nat) (s : State) : State :=
  let s := ldrRefill (descStep n 0x4B 0 (arcBegin n 0) s)
  let x := s.job n
  if !x.on ∨ x.op n ≠ 0x4B then s
  else if x.count ≠ s.ldr.gen + 1 then completeDesc n (s.fld Fld.ldrErrCode) s
  else if s.ldrPartial ∧ 2 ≤ s.ldrState ∧ s.leaderField 24 8 ≤ s.fld Fld.ldrProgValue then completeDesc n Code.ok s
  else s

def execLoadSlot (n : Fin 64) (s : State) : Out := .next (loadSlot n.val s)

/-! ### The medium's answers -/

/-- k free words: what the archive delivers uncorrected, or from a record whose layout no rule gives. -/
def freeWords (k : Nat) (s : State) : State × List W64 :=
  ({ s with freeCount := s.freeCount + k }, (upFrom s.freeCount k).map Config.freeWord)

/-- What one operation of the array delivers of an image or of the data area: the words, or free ones with ARC_UNCORRECTABLE. -/
def nandDeliver (n at' : Nat) (bits : Nat) (ws : List W64) (s : State) : State :=
  let (s, ws) := if 72 < bits then freeWords ws.length s else (s, ws)
  let x := s.job n
  let first := 72 < bits && x.status == Code.ok
  s.setJob n { x with acc := x.acc ++ ws, count := x.count + 1,
                      status := if first then Code.arcUncorrectable else x.status,
                      result := if first then BitVec.ofNat 64 at' else x.result }

/-- The words of data sector `lba`. -/
def State.sectorWords (s : State) (lba : Nat) : List W64 := (upFrom (512 * lba) 512).map fun k => Tab.get 0 s.arc.data k

/-- A data sector written. -/
def putSector (lba : Nat) (ws : List W64) (s : State) : State :=
  let put (t : Tab W64) (e : Nat × W64) : Tab W64 := Tab.set 0 t e.1 e.2
  { s with arc := { s.arc with data := ((upFrom (512 * lba) 512).zip ws).foldl put s.arc.data } }

/-- Bytes of the machine's records, two copies of each. -/
def State.recordBytes (s : State) (but : Nat) : Nat :=
  (s.arc.recs.filter fun e => 0x100 ≤ e.1 && e.1 != but).foldl (fun k e => k + 16 * e.2.length) 0

/-- Does the store have room for a record of k words under a key? The last two blocks are the stewards' (R562). -/
def State.recordFits (s : State) (key k : Nat) : Bool :=
  s.recordBytes key + 16 * k ≤ (s.arc.rsBlocks - 2) * s.blockBytes

/-- A record of the store set. -/
def setRecord (key : Nat) (ws : List W64) (s : State) : State :=
  { s with arc := { s.arc with recs := Tab.set [] s.arc.recs key ws } }

/-- Do the bytes of a staged stream pass the checks of a commit? (R558) -/
def imageOk (len : Nat) (bs : List Byte) (s : State) : Bool :=
  bs.length == len && leaderForm (bs.take 128) && leaderIdentity (bs.take 128) s
    && natLE (bs.drop (len - 4)) == 0xC0F16E0D

/-- IMG_COMMIT's end. -/
def commitImage (n : Nat) (s : State) : State :=
  match s.arc.staging with
  | none => completeDesc n Code.arcSlotEmpty s
  | some (_, k, len, bs) =>
    if s.flag Fld.arcSlotLoading k then s
    else if !imageOk len bs s then completeDesc n Code.arcImageBad s
    else
      let s := { s with arc := { s.arc with images := Tab.set [] s.arc.images k bs, staging := none, gen := s.arc.gen + 1 } }
      let s := if k = 2 then s.setFlag Fld.arcCtlGoldenWe false else s
      completeDesc n Code.ok (showArc (showStaging s))

/-- SLOT_SELECT's end: the preferred slot, and with it the boot counters (R560, R587). -/
def selectSlot (n : Nat) (s : State) : State :=
  if !s.lead.underWay.contains .slotChange then
    if s.lead.held.contains .slotChange then s else completeDesc n Code.aborted s
  else
    let k := s.arcSlotOf n
    let s := { s.dropAction .slotChange with arc := { s.arc with preferred := k, gen := s.arc.gen + 1 } }
    let s := (s.setFlag Fld.stwBootExhausted false).setFld Fld.stwBootSlot k
    let s := bootSave ((s.setFld Fld.stwBootWarmFails 0).setFld Fld.stwBootColdFails 0)
    completeDesc n Code.ok (showArc s)

/-- One operation of the array for ring n's descriptor. -/
def arcJob (n bits : Nat) (s : State) : State :=
  let x := s.job n
  let a := s.arcArg n
  if !x.on || !s.arc.queue.contains n || s.arcWaits n || s.jobStalled n then s
  else match x.op n with
    | 0x40 =>
      if s.arcCount n ≤ x.count ∨ 1024 ≤ x.acc.length then s
      else arcFinish n (nandDeliver n (a 1 + x.count) bits (s.sectorWords (a 1 + x.count)) s)
    | 0x41 =>
      if x.acc.length < 512 then s
      else
        let s := putSector (a 1 + x.count) (x.acc.take 512) s
        arcFinish n (s.setJob n { x with acc := x.acc.drop 512, count := x.count + 1, result := BitVec.ofNat 64 (x.count + 1) })
    | 0x42 =>
      let lo := 512 * a 0
      let hi := lo + 512 * s.arcCount n
      completeDesc n Code.ok { s with arc := { s.arc with data := s.arc.data.filter fun e => e.1 < lo || hi ≤ e.1 } }
    | 0x43 =>
      let ws := Tab.get [] s.arc.recs (a 1)
      if x.count ≠ 0 then s
      else if ws = [] then completeDesc n Code.arcNoRecord s
      else
        let (s, ws) := if 3 ≤ a 1 ∧ a 1 ≤ 5 then freeWords ws.length s else (s, ws)
        let long := a 2 < 8 * ws.length
        s.setJob n { x with acc := ws.take (a 2 / 8), len := min (a 2) (8 * ws.length), count := 1,
                            status := if long then Code.arcRecSize else x.status,
                            result := if long then BitVec.ofNat 64 (8 * ws.length) else x.result }
    | 0x44 =>
      if x.done < x.len then s
      else if !s.recordFits (a 1) x.acc.length then completeDesc n Code.arcRecFull s
      else completeDesc n x.status (setRecord (a 1) x.acc s)
    | 0x45 => completeDesc n Code.ok (setRecord (a 0) [] s)
    | 0x47 =>
      match s.arc.staging with
      | some (r, k, len, bs) =>
        let s := { s with arc := { s.arc with staging := some (r, k, len, bs ++ bytesOfWords x.acc) } }
        arcFinish n (s.setJob n { x with acc := [] })
      | none => completeDesc n Code.arcSlotEmpty s
    | 0x48 => commitImage n s
    | 0x49 =>
      if a 3 ≤ 4096 * x.count ∨ 1024 ≤ x.acc.length then s
      else
        let bs := ((Tab.get [] s.arc.images (a 1)).drop (4096 * (a 2 + x.count))).take (min 4096 (a 3 - 4096 * x.count))
        arcFinish n (nandDeliver n (a 2 + x.count) bits (wordsLE (bs.length / 8) bs) s)
    | 0x4A => selectSlot n s
    | _ => s

/-- FORMAT's end (R568), with the blocks whose factory mark is bad. The number of map blocks is not stated, and is free. -/
def formatDone (n : Nat) (bad : List Nat) (s : State) : State :=
  let x := s.job n
  let sb := s.arcArg n 1
  let rs := s.arcArg n 2
  if !x.on || x.op n != 0x4C || !s.arc.queue.contains n || s.arcWaits n then s
  else
    let bad := (bad.filter fun b => b < s.allBlocks).eraseDups
    let good := s.allBlocks - bad.length
    let boot := 64 - (bad.filter (· < 64)).length
    let map := s.freeNat
    let s := s.tookFree
    let aside := 64 + 4 * sb + rs + map
    let hold := max 16 ((2 * good + 99) / 100)
    let sectors := (good - aside - hold) * (s.blockBytes / 4096)
    if boot < 8 then completeDesc n Code.arcNoBoot s
    else if sectors < 1024 then completeDesc n Code.arcFull s
    else
      let wear (t : Tab Block) (e : Nat × Block) : Tab Block := Tab.set {} t e.1 { erases := e.2.erases }
      let marks (t : Tab Block) (b : Nat) : Tab Block := Tab.upd {} t b fun y => { y with bad := true }
      let blocks := bad.foldl marks (s.arc.blocks.foldl wear [])
      let a : Arc := { s.arc with data := [], recs := s.arc.recs.filter fun e => e.1 = 1 || e.1 = 2 || e.1 = 4 || e.1 = 5,
                                  images := [], mapped := true, gen := 1, preferred := 0, sectors := sectors, slotBlocks := sb,
                                  rsBlocks := rs, blocks := blocks, reserved := aside, base := s.arc.base + 1, fault := 0,
                                  patrolAt := 0, staging := none }
      let s := { s with arc := a }.setFlag Fld.arcStatFormatted true
      completeDesc n Code.ok (showArc (showStaging (s.setFld Fld.arcBootCopies 8)))

/-- The supply record: LEVEL and DARK_ON of the four outputs (R627), in this model's own layout. -/
def State.supplyWords (s : State) : List W64 :=
  [(upFrom 0 4).foldl (fun w b => putBits w (8 * b) 3 (bitsW (s.reg Reg.pwrVbank b) 0 3)) 0]

/-- The port settings record (R656), in this model's own layout. -/
def State.portWords (s : State) : List W64 := portRegs.map fun r => s.reg r.1 r.2

/-- A record of the stewards written (R561): the action ends. The boot counters' also lets a counted start go on (R585). -/
def recordDone (key : Nat) (s : State) : State :=
  let run (a : Action) : Bool := s.lead.underWay.contains a && s.archiveOk
  match key with
  | 1 =>
    if run .recordSpares then
      let s := { s.dropAction .recordSpares with sta := { s.sta with mapGen := s.sta.mapGen + 1 } }
      setRecord 1 s.mapWords s
    else s
  | 2 =>
    if run .recordBoot then
      let s := (setRecord 2 s.bootWords (s.dropAction .recordBoot)).setFlag Fld.stwBootVolatile false
      if s.sta.writing then startLoads { s with sta := { s.sta with writing := false } } else s
    else s
  | 4 => if run .recordSupply then setRecord 4 s.supplyWords (s.dropAction .recordSupply) else s
  | 5 => if run .recordPorts then setRecord 5 s.portWords (s.dropAction .recordPorts) else s
  | _ => s

/-! ### Starting and stopping (R548, R556, R569, R570) -/

/-- Does the parameter page give a geometry of R548? -/
def geometryOk (page pages luns blocks present ignored : Nat) : Bool :=
  let bytes := 4096 * 2 ^ page * 2 ^ pages * (luns + 1) * blocks * (ones4 present - ones4 ignored)
  page ≤ 2 && 6 ≤ pages && pages ≤ 11 && luns ≤ 3 && bytes ≤ 2 ^ 41

/-- The controller RUN: a start that waited for the archive goes on to BIST (R578). -/
def arcRuns (fault : Nat) (s : State) : State :=
  let s := { s with arc := { s.arc with starting := false, fault := fault } }
  let s := (s.setFld Fld.arcStatState 1).setFlag Fld.arcStatWp false
  let s := showArc (s.setFld Fld.arcBootLoaded 3)
  if s.phase = 3 then enterBist true s else s

/-- The controller's start has found the medium. -/
def arcStarted (present ignored page pages luns blocks modes copies : Nat) (s : State) : State :=
  if !s.arc.starting then s
  else
    let s := (s.setFld Fld.arcStatCePresent present).setFld Fld.arcStatCeIgnored ignored
    if present = 0 then arcRuns Code.arcNoMedium s
    else
      let s := (s.setFld Fld.arcGeomPage page).setFld Fld.arcGeomPages pages
      let s := (s.setFld Fld.arcGeomLuns luns).setFld Fld.arcGeomBlocks blocks
      let s := { s with arc := { s.arc with modes := modes } }
      if !geometryOk page pages luns blocks present ignored then arcRuns Code.arcGeometry s
      else
        let copies := if s.arc.mapped then copies else 0
        let s := s.setFld Fld.arcBootCopies copies
        let s := s.noticeIf (copies < 8 && s.arcNotes) Code.arcBootmapDegraded 0
        if copies = 0 then arcRuns Code.arcNoBoot { s with arc := { s.arc with mapped := false } }
        else arcRuns 0 (s.setFlag Fld.arcStatFormatted true)

/-- The loader's image meets an uncorrectable codeword: its source ends (R551). -/
def imageRead (bits : Nat) (s : State) : State := if 72 < bits ∧ s.ldrReads then ldrFail Code.streamShort s else s

/-- The bits a read corrected; 0 for another operation. -/
def nandBits : NandOp → Nat
  | .read _ bits => bits.toNat
  | _ => 0

/-- Did a program or erase succeed? -/
def nandOk : NandOp → Bool
  | .read _ _ => true
  | .program _ ok => ok
  | .erase _ ok => ok

/-- NAND_OP_DONE (R547): an operation of the array completes and is judged; what it served goes on. A failed program or erase is
made again elsewhere, and completes nothing. -/
def nandDone (op : NandOp) (use : NandUse) (s : State) : State :=
  match nandBlock op s with
  | none => s
  | some s =>
    let s := if !nandOk op then s else match use with
      | .job n => arcJob n.val (nandBits op) s
      | .format n bad => formatDone n.val bad s
      | .record key => recordDone key.val s
      | .image => imageRead (nandBits op) s
      | .start present ignored page pages luns blocks modes copies =>
        arcStarted present.toNat ignored.toNat page.val pages.val luns.val blocks.toNat modes.toNat copies.val s
      | .background => s
    showArc s

def execNandOpDone (op : NandOp) (use : NandUse) (s : State) : Out := .next (nandDone op use s)

/-- Is the controller in use? -/
def State.arcRunning (s : State) : Bool := s.fld Fld.arcStatState == 1 && s.arc.fault == 0

/-- PATROL_READ (R554): the patrol reads a page and applies R553; `last` ends the pass. -/
def patrolRead (b bits : Nat) (last : Bool) (s : State) : State :=
  if !s.arcRunning || (!s.flag Fld.arcStatPatrol && !s.flag Fld.arcCfgPatrolDays) then s
  else
    let s := showArc (judgeRead b bits (s.setFlag Fld.arcStatPatrol true))
    if last then
      { (s.setFlag Fld.arcStatPatrol false).bump Fld.arcCntPatrolPasses with arc := { s.arc with patrolAt := 0 } }
    else { s with arc := { s.arc with patrolAt := s.arc.patrolAt + 1 } }

def execPatrolRead (block : BitVec 24) (bits : Byte) (last : Bool) (s : State) : Out :=
  .next (patrolRead block.toNat bits.toNat last s)

/-- PATROL_GO (R554); a GO while a pass runs merges with it (R10). -/
def patrolGo (s : State) : State := if s.arcRunning then s.setFlag Fld.arcStatPatrol true else s

def execPatrolGo (w : Writer) (s : State) : Out := .next (s.linked w Reg.arcCtl.base patrolGo)

/-- PATROL_PLACE_SAVE (R554): the patrol's place goes into the record store. -/
def execPatrolPlaceSave (s : State) : Out :=
  .next (if s.arcRunning then setRecord 3 [BitVec.ofNat 64 s.arc.patrolAt] s else s)

/-- EN = 1 (R570): from OFF the controller starts at step 3 of R569. -/
def archiveEnable (s : State) : State :=
  let s := s.setFlag Fld.arcCtlEn true
  match s.fld Fld.arcStatState with
  | 0 => { s with arc := { s.arc with starting := true } }
  | 2 => s.setFld Fld.arcStatState 3
  | _ => s

/-- EN = 0 (R570). -/
def archiveDisable (s : State) : State :=
  let s := s.setFlag Fld.arcCtlEn false
  match s.fld Fld.arcStatState with
  | 1 => s.setFld Fld.arcStatState 2
  | 3 => s.setFld Fld.arcStatState 2
  | _ => { s with arc := { s.arc with starting := false } }

def execArchiveEnable (w : Writer) (s : State) : Out := .next (s.linked w Reg.arcCtl.base archiveEnable)
def execArchiveDisable (w : Writer) (s : State) : Out := .next (s.linked w Reg.arcCtl.base archiveDisable)

/-- ARCHIVE_STOP_DONE (R559, R570): operations not started complete with ABORTED, the staging is discarded, and the controller is
OFF, or starts again. -/
def archiveStopDone (s : State) : State :=
  let st := s.fld Fld.arcStatState
  if st ≠ 2 ∧ st ≠ 3 then s
  else
    let s := s.arc.queue.foldl (fun s n => completeDesc n Code.aborted s) s
    let s := showStaging { s with arc := { s.arc with staging := none, queue := [], starting := st == 3 } }
    let s := ((s.setFld Fld.arcStatState 0).setFlag Fld.arcStatWp true).setFlag Fld.arcStatFormatted false
    showArc (s.setFlag Fld.arcStatPatrol false)

def execArchiveStopDone (s : State) : Out := .next (archiveStopDone s)

/-! ### Settings (R547, R553, R572) -/

/-- A refusal in ARC_REFUSE. -/
def arcRefused (code : Nat) (s : State) : State := s.refuse Reg.arcRefuse code 0

/-- A write of ARC_IF (R547). -/
def arcIfWrite (v : W32) (s : State) : State :=
  let new := Reg.arcIf.plain (s.reg Reg.arcIf) (v.setWidth 64) false
  let i := bitsW new 0 2
  let cyc := bitsW new 2 5
  let auto := bitsW new 7 1 = 1
  if i = 3 ∨ 16 < cyc ∨ (i = 0 ∧ cyc < 4) ∨ (i = 1 ∧ cyc < 3) then arcRefused Code.arcBadCfg s
  else if !auto ∧ s.arc.modes ≠ 0 ∧ !bitOf s.arc.modes i then arcRefused Code.arcBadCfg s
  else s.setReg Reg.arcIf new

def execArcIfWrite (w : Writer) (v : W32) (s : State) : Out := .next (s.linked w Reg.arcIf.base (arcIfWrite v))

/-- A write of ARC_CFG (R572). -/
def arcCfgWrite (v : W32) (s : State) : State :=
  let new := Reg.arcCfg.plain (s.reg Reg.arcCfg) (v.setWidth 64) false
  let bits := bitsW new 1 7
  if bits = 0 ∨ 72 < bits ∨ bitsW new 8 16 = 0 then arcRefused Code.arcBadCfg s else s.setReg Reg.arcCfg new

def execArcCfgWrite (w : Writer) (v : W32) (s : State) : Out := .next (s.linked w Reg.arcCfg.base (arcCfgWrite v))

def arcCntClr (s : State) : State := s.setReg Reg.arcCnt 0

/-- ARC_CNT_CLR (R572). -/
def execArcCntClr (w : Writer) (s : State) : Out := .next (s.linked w Reg.arcCtl.base arcCntClr)

end Sys2Proof.Machine
end

