-- ==== Sys2Proof/Machine/Health.lean ====
section
/-! DEFINITION. Starts as they are requested, confirmed and tried again; operating hours; built-in self-test, densitometers, path
monitors and the fixer's control (14_start_health_and_spares R575 to R602, R609 to R616). -/

namespace Sys2Proof.Machine

/-! ### Requests (R575, R577) -/

/-- A software request: 0 warm, 1 reload, 2 cold. -/
def startRequest (kind : Nat) (s : State) : State :=
  if !s.agreed then s.setFld Fld.stwStartLastCode Code.held
  else if s.phase ≠ 0 then s.setFld Fld.stwStartLastCode Code.startBusy
  else match kind with
    | 0 => beginWarm 3 false false s
    | 1 => beginWarm 4 true false s
    | _ => beginCold 5 false true s

/-- A write of STW_START: the requests are the Warden's. -/
def startWrite (w : Writer) (v : W32) (s : State) : State :=
  if bitsW v 0 3 = 0 then s
  else s.wardenOr w Reg.stwStart.base fun s =>
    (upFrom 0 3).foldl (fun s k => if bitOf v.toNat k then startRequest k s else s) s

/-- START_WARM (R577). -/
def execStartWarm (w : Writer) (s : State) : Out := .next (s.linked w Reg.stwStart.base (startWrite w 1))
/-- START_RELOAD (R577). -/
def execStartReload (w : Writer) (s : State) : Out := .next (s.linked w Reg.stwStart.base (startWrite w 2))
/-- START_COLD (R577). -/
def execStartCold (w : Writer) (s : State) : Out := .next (s.linked w Reg.stwStart.base (startWrite w 4))

/-- The straps sampled (R12). -/
def takeStraps (straps : BitVec 8) (s : State) : State :=
  let v := straps.toNat
  { s with sys := { s.sys with xresetN := true, straps :=
      { bootSel := bitsOf v 0 2, leadSel := bitOf v 2, oscDly := bitsOf v 3 3, safePull := bitOf v 6, warmEn := bitOf v 7 } } }

/-- Loads, starts, tests and substitutions under way end (R533, R602). -/
def workEnds (s : State) : State :=
  let s := { s with sta := { s.sta with counted := false, confirm := false, writing := false, retry := none } }
  let s := if s.loading then ldrFail Code.aborted s else s
  let s := { s with hea := { s.hea with work := [], west := [], east := [] } }
  let s := if s.fld Fld.bistStatState = 1 ∨ s.fld Fld.bistStatState = 2 then
      (s.setFld Fld.bistStatState 3).setFld Fld.bistStatCode Code.aborted
    else s
  s.setPhase 0

/-- XRESET_ASSERT (R533, R602, R685): loads, starts, tests and substitutions under way end, and every hold is asserted. -/
def xresetAssert (s : State) : State :=
  let s := workEnds s
  let s := { s with sys := { s.sys with xresetN := false }, lead := { s.lead with underWay := [], held := [], waiting := [] } }
  showHealth ((holdHere s).setFlag Fld.arcStatWp true)

def execXresetAssert (s : State) : Out := .next (xresetAssert s)

/-- XRESET_RISE (R12, R575): the straps are sampled, and a warm start begins if WARM_EN and retention allow it, else a cold one. -/
def xresetRise (straps : BitVec 8) (s : State) : State :=
  if s.sys.xresetN then s
  else
    let s := takeStraps straps s
    if s.sys.straps.warmEn && s.sta.retained then
      let s := if s.pwr.entering = 0 then s else (s.setFld Fld.pwrWakeStatSource 8).setFld Fld.pwrWakeStatIndex 0
      let s := s.setFlag Fld.clkStatXtalRun (s.flag Fld.clkStatXtalReady)
      beginWarm 2 false false (s.setFlag Fld.arcStatWp (s.fld Fld.arcStatState != 1))
    else beginCold 2 false true s

/-- The straps by bit: BOOT_SEL [1:0], LEAD_SEL [2], OSC_DLY [5:3], SAFE_PULL [6], WARM_EN [7]. -/
def execXresetRise (straps : Byte) (s : State) : Out := .next (xresetRise straps s)

/-- POWER_VALID (R575, R621): the rails start and a cold start begins; `held` says that VRET was held since the last one. -/
def execPowerValid (straps : Byte) (held : Bool) (s : State) : Out := .next (beginCold 1 true held (takeStraps straps s))

/-! ### Success, failure and another try (R585, R586) -/

/-- CONFIRM (R585, R613): the present start has succeeded. -/
def bootConfirm (s : State) : State := if s.sta.confirm then startSucceeds s else s

/-- BOOT_CONFIRM (R585). -/
def execBootConfirm (w : Writer) (s : State) : Out :=
  .next (s.linked w Reg.stwBoot.base fun s => s.wardenOr w Reg.stwBoot.base bootConfirm)

/-- CONFIRM_TIMEOUT_EXPIRY (R585). -/
def execConfirmTimeoutExpiry (s : State) : Out :=
  .next (if s.sta.confirm then startFailed Code.confirmTimeout s else s)

/-- START_DONE_TIMEOUT (R585): a counted start that is not DONE 1 s after lock has failed. -/
def startTimeout (s : State) : State :=
  if !s.sta.counted ∨ s.phase = 0 then s
  else if s.loading then ldrFail Code.aborted s
  else startFailed Code.startFailed s

def execStartDoneTimeout (s : State) : Out := .next (startTimeout s)

/-- START_RETRY (R583, R586): a failed start, or one that a split ended, begins again with CAUSE RETRY. -/
def startRetry (s : State) : State :=
  let again (warm : Bool) (s : State) : State := if warm then beginWarm 7 false false s else beginCold 7 false true s
  if !s.agreed then s
  else if s.phase = 9 ∧ !s.lead.held.contains .start then again (s.flag Fld.stwRstCauseKind) (s.setPhase 0)
  else match s.sta.retry with
    | some warm => if s.phase = 0 then again warm { s with sta := { s.sta with retry := none } } else s
    | none => s

def execStartRetry (s : State) : Out := .next (startRetry s)

/-- A write of CONFIRM_TMO (R613): it raises a write of the boot counters record. -/
def confirmTmoWrite (v : Nat) (s : State) : State := bootSave (s.setFld Fld.stwBootConfirmTmo v)

/-- CONFIRM_TMO_WRITE (R613). -/
def execConfirmTmoWrite (w : Writer) (v : BitVec 16) (s : State) : Out :=
  .next (s.linked w Reg.stwBoot.base fun s => s.wardenOr w Reg.stwBoot.base (confirmTmoWrite v.toNat))

/-- OPERATING_HOUR (R609). -/
def execOperatingHour (s : State) : Out := .next (bootSave (s.bump Fld.stwBootHours))

/-! ### BIST (R589 to R594) -/

/-- Is an analog front in use: an enabled timebase's source, or its DAC owned? (R593) -/
def State.frontUsed (s : State) (k : Nat) : Bool :=
  (upFrom 0 32).any (fun n => s.flag Fld.tbStatState n && (s.fld Fld.tbCfgSrc n == 2 || s.fld Fld.tbCfgSrc n == 6)
    && s.fld Fld.tbSrcAin n == k) || s.fld Fld.pinDacCfgOwner k != 0

/-- The units of a request in each half. -/
def bistUnits (unit k h : Nat) : List Nat :=
  match unit with
  | 0 => if k / 40 = h then [k] else []
  | 1 => if k / 48 = h then [80 + k] else []
  | 2 => if k / 8 = h then [176 + k] else []
  | _ => upFrom (40 * h) 40 ++ upFrom (80 + 48 * h) 48

/-- The first limit of R590 that either half named by a request leaves. -/
def bistLimits (unit k : Nat) (s : State) : Nat :=
  let l := (upFrom 0 2).map fun h => if bistUnits unit k h = [] then 0 else s.bistLimit h
  (l.find? (· != 0)).getD 0

/-- A request ends before it begins: only its code, and the limit's cause, are recorded. -/
def bistRefused (code cause : Nat) (s : State) : State :=
  ((s.setFld Fld.bistStatState 3).setFld Fld.bistStatCode code).setFld Fld.bistStatCause cause

/-- GO (R590, R593, R594). -/
def bistGo (unit k : Nat) (s : State) : State :=
  let st := s.fld Fld.bistStatState
  let limit := bistLimits unit k s
  if st = 1 ∨ st = 2 ∨ s.phase ≠ 0 then s.setFld Fld.bistStatCode Code.bistBusy
  else if unit = 3 ∧ !s.agreed then bistRefused Code.held 0 s
  else if limit ≠ 0 then bistRefused Code.bistLimit limit s
  else if unit = 2 ∧ s.frontUsed k then bistRefused Code.bistInUse 0 s
  else
    let s := s.setReg Reg.bistStat 1
    let s := if unit = 3 then s.raiseAction .bist else s
    showHealth { s with hea := { s.hea with west := bistUnits unit k 0, east := bistUnits unit k 1 } }

/-- Units of a kind: INDEX must be below it; UNIT 4 to 7 have none. -/
def bistCount (unit : Nat) : Nat :=
  match unit with
  | 0 => 80 | 1 => 96 | 2 => 16 | 3 => 128 | _ => 0

/-- A write of BIST_CTL (R616): a UNIT or INDEX out of range refuses it. -/
def bistWrite (v : W32) (s : State) : State :=
  let new := Reg.bistCtl.plain (s.reg Reg.bistCtl) (v.setWidth 64) false
  let unit := bitsW new 0 3
  let k := bitsW new 4 7
  if bistCount unit ≤ k then s
  else
    let s := s.setReg Reg.bistCtl new
    if bitsW v 31 1 = 1 then bistGo unit k s else s

/-- A request written by a host link. -/
def bistRequest (w : Writer) (unit k : Nat) (s : State) : Out :=
  .next (s.linked w Reg.bistCtl.base (bistWrite (BitVec.ofNat 32 (unit + 16 * k + 2 ^ 31))))

/-- BIST_SECTOR (R589). -/
def execBistSector (w : Writer) (k : Fin 128) (s : State) : Out := bistRequest w 0 k.val s
/-- BIST_ENGINE (R589). -/
def execBistEngine (w : Writer) (k : Fin 128) (s : State) : Out := bistRequest w 1 k.val s
/-- BIST_ANALOG (R593). -/
def execBistAnalog (w : Writer) (k : Fin 128) (s : State) : Out := bistRequest w 2 k.val s
/-- BIST_DEVICE (R589). -/
def execBistDevice (w : Writer) (s : State) : Out := bistRequest w 3 0 s

/-- Is a failed part one that a unit's test covers? -/
def inUnit (u : Nat) (e : W64) : Bool :=
  if u < 80 then spInSector e && spScope e == u
  else if u < 176 then spKind e == 6 && spItem e % 128 == u - 80
  else if u < 192 then false
  else (spKind e == 7 || spKind e == 4) && spHalf e == u - 192

/-- The parts that failed a unit's test, handed to the fixer in the unit's own window (R591, R594). -/
def unitFailed (u : Nat) (fails : List W64) (s : State) : State :=
  let s := (s.bump Fld.bistStatUnitsFailed).setFlag Fld.bistStatFailed true
  let s := s.noticeIf s.healthNotes Code.bistFail u
  (fails.filter (inUnit u)).foldl (fun s e => trigger (spKind e) 1 (spScope e) (spItem e) false true s) s

/-- Every unit tested, or the tests stopped by a limit: the request completes, or the start goes on. -/
def bistEnds (s : State) : State :=
  if s.hea.west ≠ [] ∨ s.hea.east ≠ [] then s
  else if s.phase = 4 then
    let s := s.setReg Reg.bistStat 0
    if s.flag Fld.stwRstCauseKind then warmTested s else s.setPhase 5
  else if s.fld Fld.bistStatState = 2 then
    let code := if s.fld Fld.bistStatCode = Code.bistLimit then Code.bistLimit
      else if s.flag Fld.bistStatFailed then Code.bistFail else Code.ok
    ((s.dropAction .bist).setFld Fld.bistStatState 3).setFld Fld.bistStatCode code
  else s

/-- A limit left: the tests of both halves stop; a start goes on without them (R590). -/
def bistStopped (cause : Nat) (s : State) : State :=
  let s := { s with hea := { s.hea with west := [], east := [] } }
  if s.phase = 4 then s.setFlag Fld.stwRstCauseBistSkipped true
  else (s.setFld Fld.bistStatCode Code.bistLimit).setFld Fld.bistStatCause cause

/-- BIST_UNIT_DONE (R591, R594): the unit under test in a half ends, with the parts that failed, each given as an entry of the
spare map gives it. -/
def bistUnitDone (h : Nat) (failed : Bool) (fails : List W64) (s : State) : State :=
  match s.testing h with
  | none => s
  | some u =>
    let cause := s.bistLimit h
    if cause ≠ 0 then showHealth (bistEnds (bistStopped cause s))
    else
      let s := if failed then unitFailed u fails s else s
      let s := { s with hea := s.hea.setUnits h ((s.hea.units h).drop 1) }
      showHealth (bistEnds s)

def execBistUnitDone (h : Fin 2) (failed : Bool) (fails : List W64) (s : State) : Out :=
  .next (bistUnitDone h.val failed fails s)

/-! ### Densitometers (R595 to R597) -/

/-- Tile `key`'s slowdown judged: TILE_SLOW once, a planned substitution, or an immediate one. -/
def judgeTile (key slow : Nat) (s : State) : State :=
  let now := s.fld Fld.stwHealthCfgNowMargin ≤ slow
  let plan := s.fld Fld.stwHealthCfgPlanMargin ≤ slow
  let sec := key / 64
  if s.phase = 5 then (if now then trigger 2 2 sec (key % 64) false true s else s)
  else if !plan then s
  else
    let s := if s.hea.told.contains key then s
      else { s with hea := { s.hea with told := s.hea.told ++ [key] } }.noticeIf s.healthNotes Code.tileSlow sec
    trigger 2 2 sec (key % 64) (!now) false s

/-- Every slow tile judged. -/
def judgeTiles (s : State) : State := s.hea.slow.foldl (fun s e => judgeTile e.1 e.2 s) s

/-- Is a tile skipped by a sweep: its sector DARK or FROZEN? A start's sweep measures every one. -/
def State.tileSkipped (s : State) (key : Nat) : Bool :=
  s.phase != 5 && (s.flag Fld.stwSecHoldDark (key / 64) || s.frozen (key / 64))

/-- The slowdown of measurements, the mean of n, in 0.1 %, truncated. -/
def slowdown (n : Nat) (ms : List Int) : Nat := if n = 0 then 0 else ((ms.foldl (· + ·) 0) / (n : Int) / 1000).toNat

/-- The measurements of one tile after a sweep, `n` of them: those not listed are 0. -/
def addMeasure (n : Nat) (old : List Int) (v : Int) : List Int :=
  let l := (List.replicate (n - 1 - old.length) 0 ++ old) ++ [v]
  let l := l.drop (l.length - n)
  if l.all (· == 0) then [] else l

/-- The tiles of a half measured: `ms` gives, by sector × 64 + tile, those that do not measure 0, in parts per million. -/
def sweepTiles (h n : Nat) (ms : List (Nat × Int)) (s : State) : State :=
  let mine (k : Nat) : Bool := k / 2560 == h && !s.tileSkipped k
  let keys := (((s.hea.meas.map (·.1)) ++ ms.map (·.1)).filter mine).eraseDups
  keys.foldl (fun s k =>
    let v := ((ms.find? fun e => e.1 == k).map (·.2)).getD 0
    let l := addMeasure n (Tab.get [] s.hea.meas k) v
    { s with hea := { s.hea with meas := Tab.set [] s.hea.meas k l, slow := Tab.set 0 s.hea.slow k (slowdown n l) } }) s

/-- Banks whose PERR has risen since the last look, given a test that those listed fail (R598). -/
def perrLook (h : Nat) (bad : List Nat) (s : State) : State :=
  (upFrom (640 * h) 640).foldl (fun s b =>
    let now := s.fld Fld.bnkCntPerr b
    let risen := Tab.get 0 s.hea.perr b < now
    let s := { s with hea := { s.hea with perr := Tab.set 0 s.hea.perr b now } }
    if risen ∧ bad.contains b then trigger 5 3 (b / 16) (b % 16) false false s else s) s

/-- An engine whose ECC_UNCORR has risen since the last look (R328, R598). -/
def eccLook (n : Nat) (s : State) : State :=
  let now := s.fld Fld.engCntEccUncorr n
  let risen := Tab.get 0 s.hea.ecc n < now
  let s := { s with hea := { s.hea with ecc := Tab.set 0 s.hea.ecc n now } }
  if risen then trigger 6 4 (n / 48) n false false s else s

/-- DENSITOMETER_SWEEP (R596 to R598): half h's tiles are measured, and its banks' and engines' counts looked at; at a cold
start both halves' sweeps complete the map (R578). -/
def sweep (h : Nat) (ms : List (Nat × Int)) (bad : List Nat) (s : State) : State :=
  let start := s.phase == 5
  if !start && (s.phase != 0 || !s.flag Fld.stwHealthCfgSweep) then s
  else
    let n := min 8 (Tab.get 0 s.hea.sweeps h + 1)
    let s := { s with hea := { s.hea with sweeps := Tab.set 0 s.hea.sweeps h n } }
    let s := sweepTiles h n ms s
    let mine := s.hea.slow.filter fun e => e.1 / 2560 == h
    let s := mine.foldl (fun s e => judgeTile e.1 e.2 s) s
    if start then
      (if Tab.get 0 s.hea.sweeps (1 - h) = 0 then s else mapDone s)
    else
      let s := (upFrom (48 * h) 48).foldl (fun s n => eccLook n s) (perrLook h bad s)
      let s := (upFrom (40 * h) 40).foldl (fun s k => showSector k s) s
      showHealth (showWear h s)

def execDensitometerSweep (h : Fin 2) (ms : List (Fin 5120 × Int)) (bad : List (Fin 1280)) (s : State) : Out :=
  .next (sweep h.val (ms.map fun e => (e.1.val, e.2)) (bad.map Fin.val) s)

/-- A refusal of the stewards' own registers (R597, R599): STW_FIX.LAST_CODE. -/
def healthRefused (s : State) : State := s.setFld Fld.stwFixLastCode Code.healthBadCfg

/-- A write of STW_HEALTH_CFG (R597); tiles that reach a new margin trigger at once. -/
def healthCfgWrite (v : W32) (s : State) : State :=
  let new := Reg.stwHealthCfg.plain (s.reg Reg.stwHealthCfg) (v.setWidth 64) false
  let plan := bitsW new 8 8
  let now := bitsW new 16 8
  if plan = 0 ∨ now = 0 ∨ now ≤ plan then healthRefused s
  else
    let s := s.setReg Reg.stwHealthCfg new
    if s.phase = 0 then judgeTiles s else s

/-- HEALTH_CFG_WRITE (R597). -/
def execHealthCfgWrite (w : Writer) (v : W32) (s : State) : Out :=
  .next (s.linked w Reg.stwHealthCfg.base (healthCfgWrite v))

/-- ENGINE_PATH_MONITOR (R598): a steward looks at an engine; `low` says that its slack is below 10 % of its period. -/
def pathMonitor (n : Nat) (low : Bool) (s : State) : State :=
  let s := eccLook n s
  if low then trigger 6 7 (n / 48) n true false s else s

def execEnginePathMonitor (n : Fin 96) (low : Bool) (s : State) : Out := .next (pathMonitor n.val low s)

/-! ### The fixer's control (R599, R600, R602) -/

/-- A write of STW_FIX: MODE and GO are the Warden's; MODE 3 is refused (R599, R614). -/
def fixWrite (w : Writer) (v : W32) (s : State) : State :=
  let v64 : W64 := v.setWidth 64
  let go := bitsW v 2 1 = 1
  if !s.warden w then
    if Reg.stwFix.touchesRww (s.reg Reg.stwFix) v64 || go then s.denyWarden w Reg.stwFix.base else s
  else if bitsW v 0 2 = 3 then healthRefused s
  else
    let s := s.setFld Fld.stwFixMode (bitsW v 0 2)
    if go then fixGo s else s

/-- FIX_GO (R600): GO written with the present MODE. -/
def execFixGo (w : Writer) (s : State) : Out :=
  .next (s.linked w Reg.stwFix.base fun s => fixWrite w (BitVec.ofNat 32 (s.fld Fld.stwFixMode + 4)) s)

def execSubstitutionDone (h : Fin 2) (s : State) : Out := .next (substitutionDone h.val s)

end Sys2Proof.Machine
end

