-- ==== Sys2Proof/Machine/Power.lean ====
section
/-! DEFINITION. The supply, the rails, and the power states with their wakes (15_power R618 to R641). -/

namespace Sys2Proof.Machine

/-- The present power state: 0 RUN, 1 IDLE, 2 safelight, 4 ENTERING, 5 WAKING, 6 PEND. -/
def State.cur (s : State) : Nat := s.fld Fld.pwrStateCur

/-- CUR set. -/
def State.setCur (s : State) (v : Nat) : State := s.setFld Fld.pwrStateCur v

/-- A refused write of a power register (R640). -/
def pwrRefused (code : Nat) (s : State) : State := s.refuse Reg.pwrRefuse code 0

/-! ### Entering (R631 to R634) -/

/-- The first step of an entry: 1 IDLE, 2 safelight, 3 DARK; a substitution under way ends first (R602). -/
def enterPower (k : Nat) (trip : Bool) (s : State) : State :=
  let s := (finishFixes s).setCur 4
  let s := { s with pwr := { s.pwr with entering := k, latched := none, stopped := if k = 1 then [] else s.pwr.stopped }
                    ldr := { s.ldr with steps := if s.loading then s.ldr.steps else [] } }
  let s := if k = 3 then s.setFlag Fld.pwrTempTripped trip else s
  if k = 1 then s
  else archiveSleeps ((upFrom 0 96).foldl (fun s n => engineSleeps n s) (ringsHalt (fun _ => false) s))

/-- Step 1 of an entry is done: under IDLE no descriptor is under way; otherwise the engines have stopped. -/
def State.entryReady (s : State) : Bool :=
  !s.lead.held.contains .power &&
    (if s.pwr.entering = 1 then
      (upFrom 0 64).all fun n => !(s.ring n).fetching && (!(s.job n).on || s.fld Fld.rngStatState n == 4)
    else (upFrom 0 96).all fun n => let t := s.fld Fld.engStatState n; (t != 2 && t != 3) || s.engQuiet n)

/-- Step 2 of an entry to safelight: pulses end with ABORTED; edges not yet made are withdrawn, and every other slot is
kept (R131). -/
def schedSleeps (s : State) : State :=
  let s := endRuns s.sched.runs.length (fun r => onLine r.img.w3) s.now Code.aborted s
  (s.slotsWith fun x => x.st == 2 || x.st == 3).foldl (fun s n =>
    let x := s.slot n
    if x.st = 3 then withdraw n x s else s.setSlot n { x with st := 1, pred := none }) s

/-- The timebases' positions, and DT's. -/
def State.positions (s : State) : List W64 := (upFrom 0 32).map (fun n => s.reg Reg.tbPos n) ++ [dtPos s.dt.toNat]

/-- A start or a load under way ends with an entry to safelight or DARK; the device then stays held. -/
def startStops (s : State) : State :=
  let all := s.phase != 0
  let s := if s.loading || all then workEnds s else s
  if all then s.setHeldMask (2 ^ 80 - 1) else s

/-- Steps 1 to 5 of an entry to safelight or DARK completed (R634). -/
def blocksSleep (k : Nat) (s : State) : State :=
  let s := (upFrom 0 96).foldl (fun s n => haltEngine n (engineStopDone n s)) s
  let s := archiveStopDone (archiveSleeps s)
  let s := { s with arc := { s.arc with starting := false } }
  let s := ringsHalt (fun _ => false) s
  let s := if k = 3 then emptySched s else schedSleeps s
  let s := pinsSleep (drainSpine (fun _ => false) (startStops s))
  let s := holdDevice s
  showHealth (banksSleep (lanesHalt { s with pwr := { s.pwr with idle := false } }))

/-- Step 6 of an entry to DARK: the root off, the crystal stopped unless XTAL_KEEP, VBANK outputs without DARK_ON off; the link
is down. -/
def goDark (s : State) : State :=
  let s := linkDown s
  let s := (s.setFlag Fld.clkStatRootLocked false).setFlag Fld.clkStatHoldover false
  let s := if s.flag Fld.pwrWakeXtalKeep then s else s.setFlag Fld.clkStatXtalReady false
  let s := (upFrom 0 4).foldl (fun s b => if s.flag Fld.pwrVbankDarkOn b then s else s.setFlag Fld.pwrVbankOk false b) s
  { s with pwr := { s.pwr with dark := true } }

/-! ### Wakes (R632, R637, R638) -/

/-- Does a wake source work in state k, enabled where it has an enable? Sources: 1 REQUEST, 2 WAKE_N, 3 PORT, 4 TB, 5 DT, 6 HOST,
7 ACTIVITY. -/
def State.wakeWorks (s : State) (k src i : Nat) : Bool :=
  match src with
  | 1 => k == 1 || k == 2
  | 2 => s.flag Fld.pwrWakeWakeNEn
  | 3 => bitOf (s.fld Fld.pwrWakePortEn) i
      && (k != 3 || s.flag Fld.pwrVbankDarkOn (portBank (s.fld Fld.pwrWakePortPort i)))
  | 4 => bitOf (s.fld Fld.pwrWakeTbEn) i && (k != 3 || s.wakeTb (s.fld Fld.pwrWakeTbTb i))
  | 5 => s.flag Fld.pwrWakeDtEn
  | 6 => s.flag Fld.pwrWakeHostEn && k != 3
  | _ => k == 1

/-- Is any source of R637 that works in state k enabled? -/
def State.anyWake (s : State) (k : Nat) : Bool :=
  s.wakeWorks k 2 0 || (upFrom 0 4).any (s.wakeWorks k 3) || (upFrom 0 2).any (s.wakeWorks k 4) || s.wakeWorks k 5 0
    || s.wakeWorks k 6 0

/-- The grade's maximum junction temperature in °C. -/
def State.maxTemp (s : State) : Nat := if s.pwr.gradeE then 125 else 100

/-- Are wakes ignored: after a thermal trip, until the junction is below the maximum minus 10 °C? (R630) -/
def State.tooHot (s : State) : Bool :=
  s.flag Fld.pwrTempTripped && decide (2 * (s.maxTemp - 10 + 64) ≤ s.fld Fld.pwrTempTemp)

/-- A wake begins (R638). From safelight, the rail, the banks and the start-up steps of the last FULL leader; where a failed load
holds the whole device, it stays held. -/
def wakeBegins (src i : Nat) (s : State) : State :=
  let s := ((s.setFld Fld.pwrWakeStatSource src).setFld Fld.pwrWakeStatIndex i).setCur 5
  let s := { s with pwr := { s.pwr with latched := none } }
  if s.pwr.dark then s
  else
    let s := s.raiseAction .power
    if s.pwr.entering = 2 then
      let s := banksWake (railsAt 35 s)
      { s with ldr := { s.ldr with steps := if s.heldMask = 2 ^ 80 - 1 then [] else s.ldr.order, wave := 0 } }
    else s

/-- A wake source fires: it wakes the device, or is latched while an entry runs (R632). -/
def powerWake (src i : Nat) (s : State) : State :=
  if !s.wakeWorks s.pwr.entering src i then s
  else if s.pwr.dark then (if s.cur = 5 ∨ s.tooHot then s else wakeBegins src i s)
  else match s.cur with
    | 1 => wakeBegins src i s
    | 2 => wakeBegins src i s
    | 4 => { s.setCur 6 with pwr := { s.pwr with latched := some (src, i) } }
    | _ => s

/-- Is the position of wake timebase slot j outside LO to HI? (R637) -/
def State.tbOutside (s : State) (j : Nat) : Bool :=
  let n := s.fld Fld.pwrWakeTbTb j
  let p := if s.pwr.dark then wrap64 (s.tb n).count else sInt (s.reg Reg.tbPos n)
  decide (p < sInt (s.reg Reg.pwrWakeLo j)) || decide (sInt (s.reg Reg.pwrWakeHi j) < p)

/-- Is DT at or past PWR_WAKE_DT? -/
def State.dtReached (s : State) : Bool := decide ((s.reg Reg.pwrWakeDt).toNat ≤ s.dt.toNat)

/-- The wake that a completed entry meets: the one latched, or a condition that already holds (R632). -/
def State.metWake (s : State) : Option (Nat × Nat) :=
  match s.pwr.latched with
  | some w => some w
  | none =>
    let k := s.pwr.entering
    if s.wakeWorks k 5 0 && s.dtReached then some (5, 0)
    else ((upFrom 0 2).find? fun j => s.wakeWorks k 4 j && s.tbOutside j).map fun j => (4, j)

/-- POWER_ENTRY_DONE (R632 to R634). -/
def powerEntered (s : State) : State :=
  let k := s.pwr.entering
  if (s.cur ≠ 4 ∧ s.cur ≠ 6) ∨ s.pwr.dark ∨ !s.entryReady then s
  else
    let s := s.dropAction .power
    let s :=
      if k = 1 then showHealth ({ railsAt 5 s with pwr := { (railsAt 5 s).pwr with idle := true } }.setCur 1)
      else if k = 2 then
        let left := s.positions
        { (blocksSleep 2 s).setCur 2 with pwr := { (blocksSleep 2 s).pwr with left := left } }
      else (goDark (blocksSleep 3 s)).setCur 4
    match s.metWake with
    | some (src, i) => powerWake src i { s with pwr := { s.pwr with latched := none } }
    | none => s

def execPowerEntryDone (s : State) : Out := .next (powerEntered s)

/-- Each armed event is checked against its policy, as after a preset, between the positions at the entry and the present
ones (R131). -/
def schedWakes (s : State) : State :=
  let old := s.pwr.left
  ((upFrom 0 32) ++ [63]).foldl (fun s tb =>
    let a := wordAt old (if tb = 63 then 32 else tb)
    let b := if tb = 63 then dtPos s.dt.toNat else s.reg Reg.tbPos tb
    if old = [] ∨ a = b then s else jumpTimebase tb a b s) s

/-- POWER_WAKE_DONE (R638): from IDLE, from safelight once its start-up steps are done, or from DARK by a warm start. -/
def powerWoken (s : State) : State :=
  if s.cur ≠ 5 then s
  else if s.pwr.dark then beginWarm 6 false false (s.setFlag Fld.clkStatXtalRun (s.flag Fld.pwrWakeXtalKeep))
  else if !s.lead.underWay.contains .power ∨ (s.pwr.entering = 2 ∧ s.ldr.steps ≠ []) then s
  else
    let k := s.pwr.entering
    let s := (s.dropAction .power).setCur 0
    let s := if k = 2 then ringsWake (lanesWake (archiveAwake (schedWakes s))) else s
    let s := { s with pwr := { s.pwr with entering := 0, idle := false, stopped := [], left := [] } }
    showHealth (railSettle 1 (railSettle 0 s))

def execPowerWakeDone (s : State) : Out := .next (powerWoken s)

/-! ### Requests (R631) -/

/-- A refused request, in LAST_CODE and PWR_REFUSE. -/
def requestRefused (code : Nat) (s : State) : State := pwrRefused code (s.setFld Fld.pwrStateLastCode code)

/-- A request: 0 RUN, 1 IDLE, 2 safelight, 3 DARK. -/
def powerRequest (k : Nat) (s : State) : State :=
  let c := s.cur
  if !s.agreed then requestRefused Code.held s
  else if c = 5 ∨ ((c = 4 ∨ c = 6) ∧ k ≠ 0) ∨ (c = 2 ∧ k = 1) then requestRefused Code.pwrBadState s
  else if k = c then s.setFld Fld.pwrStateReq k
  else if k = 0 then powerWake 1 0 (s.setFld Fld.pwrStateReq 0)
  else if 2 ≤ k ∧ !s.anyWake k then requestRefused Code.noWake s
  else
    let s := s.setFld Fld.pwrStateReq k
    enterPower k false { s with lead := { s.lead with underWay := s.lead.underWay ++ [.power] } }

/-- A write of PWR_STATE.REQ. -/
def pwrStateWrite (w : Writer) (v : W32) (s : State) : State := s.wardenOr w Reg.pwrState.base (powerRequest (bitsW v 0 2))

/-- REQ written by a host link. -/
def reqRow (w : Writer) (k : Nat) (s : State) : Out :=
  .next (s.linked w Reg.pwrState.base (pwrStateWrite w (BitVec.ofNat 32 k)))

/-- REQ_RUN (R631, R632). -/
def execReqRun (w : Writer) (s : State) : Out := reqRow w 0 s
/-- REQ_IDLE (R633). -/
def execReqIdle (w : Writer) (s : State) : Out := reqRow w 1 s
/-- REQ_SAFELIGHT (R634). -/
def execReqSafelight (w : Writer) (s : State) : Out := reqRow w 2 s
/-- REQ_DARK (R634). -/
def execReqDark (w : Writer) (s : State) : Out := reqRow w 3 s

/-- WAKE_N_EDGE: a falling edge of WAKE_N (R637). -/
def execWakeNEdge (s : State) : Out := .next (powerWake 2 0 s)

/-- WAKE_PORT_EDGE: an edge on the field port of slot i, judged by EDGE (R637, R641). -/
def execWakePortEdge (i : Fin 4) (rising : Bool) (s : State) : Out :=
  let e := s.fld Fld.pwrWakePortEdge i.val
  .next (if 2 ≤ e ∨ (e = 0 ∧ rising) ∨ (e = 1 ∧ !rising) then powerWake 3 i.val s else s)

/-- WAKE_TB_RANGE (R637). -/
def execWakeTbRange (j : Fin 2) (s : State) : Out := .next (if s.tbOutside j.val then powerWake 4 j.val s else s)

/-- WAKE_DT (R637). -/
def execWakeDt (s : State) : Out := .next (if s.dtReached then powerWake 5 0 s else s)

/-- HOST_REQUEST_WAKE (R637): the request itself is held, and follows as its own command. -/
def execHostRequestWake (s : State) : Out := .next (powerWake 6 0 s)

/-- ACTIVITY_WAKE (R637): a doorbell, a BAR2 access, or a WAKE or TOKEN action. -/
def execActivityWake (s : State) : Out := .next (powerWake 7 0 s)

/-! ### The rails (R622 to R628) -/

/-- A write of PWR_VFAB[h] (R622). -/
def vfabWrite (h : Nat) (v : W32) (s : State) : State :=
  let policy := bitsW v 0 2
  let level := bitsW v 2 6
  let mx := bitsW v 8 6
  let lo := if policy = 1 then 5 else level
  let bad := policy = 3 ∨ (policy = 0 ∧ (level < 5 ∨ 45 < level)) ∨ (policy = 2 ∧ (level < 35 ∨ 45 < level))
    ∨ (policy ≠ 0 ∧ (mx < lo ∨ 45 < mx)) ∨ bitsW v 16 8 ≤ bitsW v 24 8 ∨ 100 < bitsW v 16 8
  if bad then pwrRefused Code.railRange s
  else railSettle h (s.setReg Reg.pwrVfab (Reg.pwrVfab.plain (s.reg Reg.pwrVfab h) (v.setWidth 64) false) h)

/-- VFAB_WRITE (R622, R625). -/
def execVfabWrite (w : Writer) (h : Fin 2) (v : W32) (s : State) : Out :=
  .next (s.linked w (Reg.pwrVfab.addr h.val 0) (vfabWrite h.val v))

/-- BACKLOG_INTERVAL (R623): an interval of 1 µs ends with half h's BACKLOG, in 0.1 %. -/
def backlogInterval (h backlog : Nat) (s : State) : State :=
  let s := s.setFld Fld.pwrRailBacklog backlog h
  let above := 10 * s.fld Fld.pwrVfabUp h < backlog
  let below := backlog < 10 * s.fld Fld.pwrVfabDown h
  let run := if below then Tab.get 0 s.pwr.downs h + 1 else 0
  let fall := run = 100
  let s := { s with pwr := { s.pwr with downs := Tab.set 0 s.pwr.downs h (if fall then 0 else run) } }
  if !s.railFree ∨ s.fld Fld.pwrVfabPolicy h = 0 ∨ s.flag Fld.pwrRailSlewing h then s
  else
    let (lo, hi) := s.railBounds h
    let r := s.fld Fld.pwrRailVfab h
    if above then s.setFld Fld.pwrRailVfab (max lo (min hi (r + 3))) h
    else if fall then s.setFld Fld.pwrRailVfab (max lo (min hi (r - 1))) h
    else s

def execBacklogInterval (h : Fin 2) (backlog : Fin 1001) (s : State) : Out :=
  .next (backlogInterval h.val backlog.val s)

/-- PHASE_MONITOR (R626): phase k of half h departs, reaches its limit, or carries nothing: an immediate trigger. -/
def phaseMonitor (h k : Nat) (s : State) : State := railSettle h (trigger 8 6 h k false false s)

def execPhaseMonitor (h : Fin 2) (k : Fin 4) (s : State) : Out := .next (phaseMonitor h.val k.val s)

/-- SAVE (R627): the supply record written, as a device-wide action. -/
def vbankSave (s : State) : State := if s.agreed then raiseRecord .recordSupply s else pwrRefused Code.held s

/-- A write of PWR_VBANK[b] (R627, R628): LEVEL and DARK_ON are the Warden's; SAVE is any writer's. -/
def vbankWrite (w : Writer) (b : Nat) (v : W32) (s : State) : State :=
  let v64 : W64 := v.setWidth 64
  let touches := Reg.pwrVbank.touchesRww (s.reg Reg.pwrVbank b) v64
  let save := bitsW v 3 1 = 1
  if touches ∧ !s.warden w then s.denyWarden w (Reg.pwrVbank.addr b 0)
  else if bitsW v 0 2 = 3 then pwrRefused Code.railRange s
  else
    let moves := bitsW v 0 2 ≠ s.fld Fld.pwrVbankLevel b
    let s := (s.setFld Fld.pwrVbankLevel (bitsW v 0 2) b).setFld Fld.pwrVbankDarkOn (bitsW v 2 1) b
    let s := if moves then (s.setFlag Fld.pwrVbankSlewing true b).setFlag Fld.pwrVbankOk false b else s
    if save then vbankSave s else s

/-- VBANK_WRITE (R628). -/
def execVbankWrite (w : Writer) (b : Fin 4) (v : W32) (s : State) : Out :=
  .next (s.linked w (Reg.pwrVbank.addr b.val 0) (vbankWrite w b.val v))

/-- VBANK_SAVE (R627): SAVE written beside the present settings. -/
def execVbankSave (w : Writer) (b : Fin 4) (s : State) : Out :=
  .next (s.linked w (Reg.pwrVbank.addr b.val 0) fun s => vbankWrite w b.val
    (BitVec.ofNat 32 (s.fld Fld.pwrVbankLevel b.val + 4 * s.fld Fld.pwrVbankDarkOn b.val + 8)) s)

/-- RAIL_SLEW_DONE (R625, R628): VFAB of a half (0, 1), or VBANK output r - 2, reaches its setting. -/
def railSlewDone (r : Nat) (s : State) : State :=
  if r < 2 then
    let aim := Tab.get 0 s.pwr.aim r
    let s := if aim = 0 then s else s.setFld Fld.pwrRailVfab (aim - 1) r
    { s with pwr := { s.pwr with aim := Tab.set 0 s.pwr.aim r 0 } }.setFlag Fld.pwrRailSlewing false r
  else
    let b := r - 2
    if s.flag Fld.pwrVbankSlewing b then
      (s.setFlag Fld.pwrVbankSlewing false b).setFlag Fld.pwrVbankOk (!(s.pwr.dark && !s.flag Fld.pwrVbankDarkOn b)) b
    else s

def execRailSlewDone (r : Fin 6) (s : State) : Out := .next (railSlewDone r.val s)

/-! ### Supervision (R629, R630) -/

/-- DARK entered by the stewards themselves, each in its own half, whatever the leadership state. -/
def enterDarkNow (trip : Bool) (s : State) : State :=
  if s.pwr.dark ∨ s.pwr.off ∨ (s.pwr.entering = 3 ∧ (s.cur = 4 ∨ s.cur = 6)) then s
  else enterPower 3 trip (s.dropAction .power)

/-- SUPPLY_LOW_DETECT (R629): VSUP as measured for 10 µs, in 5 mV units. -/
def supplyLow (vsup : Nat) (s : State) : State :=
  let was := s.flag Fld.pwrSupLow
  let low := vsup < s.fld Fld.pwrSupLowThr
  let s := (s.setFld Fld.pwrSupVsup vsup).setFlag Fld.pwrSupLow low
  if low ∧ !was then
    let s := s.alarm 8 Code.supplyLow 0
    if s.flag Fld.pwrSupLowAct then enterDarkNow false s else s
  else s

def execSupplyLowDetect (vsup : BitVec 10) (s : State) : Out := .next (supplyLow vsup.toNat s)

/-- BROWN_OUT (R629): every hold, ARC_WP_N low, every regulator but VRET stopped. -/
def brownOut (s : State) : State :=
  let s := workEnds s
  let s := (holdHere (lanesHalt (linkDown s))).setFlag Fld.arcStatWp true
  let s := (s.setFlag Fld.clkStatRootLocked false).setFlag Fld.clkStatHoldover false
  { s with pwr := { s.pwr with off := true }, lead := { s.lead with underWay := [], held := [], waiting := [] } }

def execBrownOut (s : State) : Out := .next (brownOut s)

/-- A half's hottest reading judged against the cap of R624. -/
def tempCap (h t : Nat) (s : State) : State :=
  let hot := s.pwr.hotCap.contains h
  let on := if 2 * (110 + 64) ≤ t then true else if t < 2 * (105 + 64) then false else hot
  if on = hot then s
  else
    let l := s.pwr.hotCap.erase h
    railSettle h (showCapped h { s with pwr := { s.pwr with hotCap := if on then l ++ [h] else l } })

/-- TEMP_UPDATE (R624, R630): the hottest readings of the West and the East half. -/
def tempUpdate (west east : Nat) (s : State) : State :=
  let t := max west east
  let s := s.setFld Fld.pwrTempTemp t
  let s := if s.fld Fld.pwrTempPeak < t then s.setFld Fld.pwrTempPeak t else s
  let was := s.flag Fld.pwrTempHot
  let hot := 2 * (s.fld Fld.pwrTempHotThr + 64) ≤ t
  let s := s.setFlag Fld.pwrTempHot hot
  let s := if hot ∧ !was then s.alarm 7 Code.dieHot 0 else s
  let s := tempCap 1 east (tempCap 0 west s)
  let run := if 2 * (s.maxTemp + 10 + 64) ≤ t then min 2 (s.pwr.hot + 1) else 0
  let s := { s with pwr := { s.pwr with hot := run } }
  if run = 2 then enterDarkNow true s else s

def execTempUpdate (west east : BitVec 10) (s : State) : Out := .next (tempUpdate west.toNat east.toNat s)

/-! ### Settings (R641) -/

/-- A write of PWR_SUP: LOW_THR from 320 to 710. -/
def supWrite (v : W32) (s : State) : State :=
  let thr := bitsW v 10 10
  if thr < 320 ∨ 710 < thr then pwrRefused Code.railRange s
  else s.setReg Reg.pwrSup (Reg.pwrSup.plain (s.reg Reg.pwrSup) (v.setWidth 64) false)

/-- SUPPLY_CFG_WRITE (R641). -/
def execSupplyCfgWrite (w : Writer) (v : W32) (s : State) : Out := .next (s.linked w Reg.pwrSup.base (supWrite v))

/-- PEAK_CLR (R641): PEAK takes TEMP. -/
def peakClr (s : State) : State := s.setFld Fld.pwrTempPeak (s.fld Fld.pwrTempTemp)

/-- A write of PWR_TEMP: HOT_THR up to the grade's maximum, PEAK_CLR. -/
def tempWrite (v : W32) (s : State) : State :=
  if s.maxTemp < bitsW v 20 8 then s.accessError
  else
    let s := s.setFld Fld.pwrTempHotThr (bitsW v 20 8)
    if bitsW v 28 1 = 1 then peakClr s else s

/-- TEMP_PEAK_CLR (R641): PEAK_CLR written beside the present threshold. -/
def execTempPeakClr (w : Writer) (s : State) : Out := .next (s.linked w Reg.pwrTemp.base peakClr)

/-- A write of PWR_WAKE_PORT[i]: a port below 144. -/
def wakePortWrite (i : Nat) (v : W32) (s : State) : State :=
  if 143 < bitsW v 0 8 then s.accessError
  else s.setReg Reg.pwrWakePort (Reg.pwrWakePort.plain (s.reg Reg.pwrWakePort i) (v.setWidth 64) false) i

end Sys2Proof.Machine
end

