-- ==== Sys2Proof/Machine/Pins.lean ====
section
/-! DEFINITION. Field ports, DAC outputs and analog fronts: their registers, inputs, the PWM generators and the driver slices
(16_field_ports R642 to R662, R672 to R676). -/

namespace Sys2Proof.Machine

/-- A refusal in PIN_REFUSE (R676): kind 0 port, 1 DAC, 2 front, 3 lane. -/
def pinRefused (kind code n : Nat) (s : State) : State := s.refuse Reg.pinRefuse code n 0 kind

/-! ### The checks of R644, R645 and R657 -/

/-- Is SEL in the range of a function, for a port of half h? Codes 11 to 15 have none. -/
def selOk (h f k : Nat) : Bool :=
  match f with
  | 5 => k < 32
  | 6 => 80 * h ≤ k && k < 80 * h + 80
  | 8 => true
  | 9 => k < 4
  | 0 | 1 | 2 | 3 | 4 | 7 | 10 => k == 0
  | _ => false

/-- May a port of an owner select a function? -/
def fnAllowed (owner f : Nat) : Bool :=
  match f with
  | 1 | 2 | 7 => owner == 0 || owner == 1
  | 3 | 4 => owner == 2
  | _ => true

/-- Do the values of PIN_CFG, PIN_MUX and PIN_OVL leave a port in a condition that R645 refuses? -/
def portBad (h : Nat) (cfg mux ovl : Nat) : Bool :=
  let fa := muxFn mux false
  let fb := muxFn mux true
  let drain (f : Nat) : Bool := f == 2 || f == 4
  !selOk h fa (muxSel mux false) || !selOk h fb (muxSel mux true) || fb == 5 || fb == 6
    || (bitOf cfg 0 && (bitsOf mux 12 12 != 0 || bitsOf cfg 4 2 != 0 || bitOf cfg 20 || bitsOf cfg 23 2 != 0 || bitsOf ovl 6 6 != 0))
    || (drain fa && bitOf ovl 5) || (drain fb && bitOf ovl 11)

/-- The first refusal that a port's values meet with an owner, but for PIN_BUSY; 0 none. -/
def portRefusal (n cfg mux ovl owner : Nat) : Nat :=
  if portBad (portHalf n) cfg mux ovl then Code.pinBadCfg
  else if !fnAllowed owner (muxFn mux false) || !fnAllowed owner (muxFn mux true) then Code.pinFnOwner
  else 0

/-- A register of a port as a number. -/
def State.portReg (s : State) (r : Reg) (n : Nat) : Nat := (s.reg r n).toNat % 2 ^ 32

/-! ### Settings (R645 to R649, R657) -/

/-- The timebases on port n take up its LINE_FAULT (R57). -/
def showOpen (s : State) : State :=
  (upFrom 0 32).foldl (fun s m =>
    if s.fld Fld.tbStatState m != 0 && bitOf (s.tb m).stuck 5 != s.tbOpen m then lasting m 5 (s.tbOpen m) s else s) s

/-- A differential receiver newly set gives 1 until it has a valid level; a single-ended port has no LINE_FAULT (R653). -/
def diffChanged (n : Nat) (diff : Bool) (s : State) : State :=
  if diff then showPin n (s.setPin n { s.pin n with levelA := true, sinceA := s.now })
  else showOpen (s.setFlag Fld.pinStatLineFault false n)

/-- A write of PIN_CFG[n]. -/
def pinCfgWrite (w : Writer) (n : Nat) (v : W32) (s : State) : State :=
  s.wardenOr w (Reg.pinCfg.addr n 0) fun s =>
    let old := s.portReg Reg.pinCfg n
    let new := v.toNat % 2 ^ 25
    let mux := s.portReg Reg.pinMux n
    let ovl := s.portReg Reg.pinOvl n
    let code := portRefusal n new mux ovl (s.fld Fld.pinOwnOwner n)
    let used := muxFn mux false != 0 || muxFn mux true != 0 || bitOf ovl 5 || bitOf ovl 11
    if code ≠ 0 then pinRefused 0 code n s
    else if bitsOf old 0 2 ≠ bitsOf new 0 2 ∧ used then pinRefused 0 Code.pinBusy n s
    else
      let s := s.setReg Reg.pinCfg (BitVec.ofNat 64 new) n
      let s := if bitOf old 0 = bitOf new 0 then s else diffChanged n (bitOf new 0) s
      showPin n s

/-- PIN_CFG_WRITE (R645). -/
def execPinCfgWrite (w : Writer) (n : Fin 144) (v : W32) (s : State) : Out :=
  .next (s.linked w (Reg.pinCfg.addr n.val 0) (pinCfgWrite w n.val v))

/-- A write of PIN_MUX[n]: a switch waits for its edge, but for a pin in the safe state before OUTS or asleep. A value that selects
what stands selected switches nothing. -/
def pinMuxWrite (w : Writer) (n : Nat) (v : W32) (s : State) : State :=
  s.wardenOr w (Reg.pinMux.addr n 0) fun s =>
    let new := v.toNat % 2 ^ 24
    let code := portRefusal n (s.portReg Reg.pinCfg n) new (s.portReg Reg.pinOvl n) (s.fld Fld.pinOwnOwner n)
    if code ≠ 0 then pinRefused 0 code n s
    else if new = s.portReg Reg.pinMux n then s
    else
      let s := s.setReg Reg.pinMux (BitVec.ofNat 64 new) n
      if !s.outsDone || s.flag Fld.pinStatSleep n then s
      else
        let held := s.flag Fld.stwSecHoldOutHeld (homeSector n) || s.flag Fld.stwSecHoldDark (homeSector n)
        (s.setFlag Fld.pinStatSwitching true n).setFlag Fld.pinStatSafe (s.portFabric n && held) n

/-- PIN_MUX_WRITE (R644, R645, R648). -/
def execPinMuxWrite (w : Writer) (n : Fin 144) (v : W32) (s : State) : Out :=
  .next (s.linked w (Reg.pinMux.addr n.val 0) (pinMuxWrite w n.val v))

/-- PIN_SWITCH_EDGE (R648): F takes the new function. -/
def pinSwitch (n : Nat) (s : State) : State :=
  if s.flag Fld.pinStatSwitching n then muxInForce n (s.setFlag Fld.pinStatSwitching false n) else s

def execPinSwitchEdge (n : Fin 144) (s : State) : Out := .next (pinSwitch n.val s)

/-- A write of PIN_OVL[n]. -/
def pinOvlWrite (w : Writer) (n : Nat) (v : W32) (s : State) : State :=
  s.wardenOr w (Reg.pinOvl.addr n 0) fun s =>
    let new := v.toNat % 2 ^ 12
    let code := portRefusal n (s.portReg Reg.pinCfg n) (s.portReg Reg.pinMux n) new (s.fld Fld.pinOwnOwner n)
    if code ≠ 0 then pinRefused 0 code n s else s.setReg Reg.pinOvl (BitVec.ofNat 64 new) n

/-- PIN_OVL_WRITE (R645, R646). -/
def execPinOvlWrite (w : Writer) (n : Fin 144) (v : W32) (s : State) : Out :=
  .next (s.linked w (Reg.pinOvl.addr n.val 0) (pinOvlWrite w n.val v))

/-- A write of PIN_OWN[n]. -/
def pinOwnWrite (w : Writer) (n : Nat) (v : W32) (s : State) : State :=
  s.wardenOr w (Reg.pinOwn.addr n 0) fun s =>
    let owner := bitsW v 0 8
    let mux := s.portReg Reg.pinMux n
    if !ownerValid owner then pinRefused 0 Code.ownerBad n (s.deny Code.ownerBad (s.ownerCode w) 4 n)
    else if !fnAllowed owner (muxFn mux false) || !fnAllowed owner (muxFn mux true) then pinRefused 0 Code.pinFnOwner n s
    else s.setFld Fld.pinOwnOwner owner n

/-- PIN_OWN_WRITE (R657). -/
def execPinOwnWrite (w : Writer) (n : Fin 144) (v : W32) (s : State) : Out :=
  .next (s.linked w (Reg.pinOwn.addr n.val 0) (pinOwnWrite w n.val v))

/-- The state `f s` if the writer writes under the code of a port's owner. -/
def State.portOwned (s : State) (w : Writer) (n : Nat) (f : State → State) : State :=
  if s.ownerCode w = s.fld Fld.pinOwnOwner n then f s
  else pinRefused 0 Code.notOwner n (s.deny Code.notOwner (s.ownerCode w) 4 n)

/-- A write of PIN_OUT[n]. -/
def pinOutWrite (w : Writer) (n : Nat) (v : W32) (s : State) : State :=
  s.portOwned w n (·.setReg Reg.pinOut (BitVec.ofNat 64 (bitsW v 0 4)) n)

/-- PIN_OUT_WRITE (R649, R657). -/
def execPinOutWrite (w : Writer) (n : Fin 144) (v : W32) (s : State) : Out :=
  .next (s.linked w (Reg.pinOut.addr n.val 0) (pinOutWrite w n.val v))

/-- A write of PIN_PWM[n]: in force from the next period on. -/
def pinPwmWrite (w : Writer) (n : Nat) (v : W32) (s : State) : State :=
  s.portOwned w n fun s =>
    if bitsW v 0 16 < 2 ∨ bitsW v 0 16 < bitsW v 16 16 then pinRefused 0 Code.pinBadCfg n s
    else s.setReg Reg.pinPwm (v.setWidth 64) n

/-- PIN_PWM_WRITE (R657). -/
def execPinPwmWrite (w : Writer) (n : Fin 144) (v : W32) (s : State) : Out :=
  .next (s.linked w (Reg.pinPwm.addr n.val 0) (pinPwmWrite w n.val v))

/-- PWM_PERIOD (R657): a period of port n's generator is over, and the next one begins with the values of PIN_PWM. -/
def pwmPeriod (n : Nat) (s : State) : State :=
  let h := s.pin n
  let steps := 640 * bitsOf h.pwm 0 16
  let value := s.portReg Reg.pinPwm n
  if bitsOf h.pwm 0 16 < 2 then s.setPin n { h with pwm := value, pwmAt := s.now }
  else if s.now - h.pwmAt < steps then s
  else s.setPin n { h with pwm := value, pwmAt := s.now - (s.now - h.pwmAt) % steps }

def execPwmPeriod (n : Fin 144) (s : State) : Out := .next (pwmPeriod n.val s)

/-! ### Inputs (R651, R653) -/

/-- PIN_INPUT_CHANGE (R651): what a pin's filter gives changes. A pin the device drives gives its pad level; a differential
receiver gives 1 under LINE_FAULT. -/
def inputChange (n : Nat) (b level : Bool) (s : State) : State :=
  if b && s.flag Fld.pinCfgDiff n then s
  else
    let l := match s.pad n b with
      | .level l => l
      | _ => level || (!b && s.flag Fld.pinStatLineFault n)
    let h := s.pin n
    let s := if (if b then h.levelB else h.levelA) = l then s
      else s.setPin n (if b then { h with levelB := l, sinceB := s.now } else { h with levelA := l, sinceA := s.now })
    showPin n s

def execPinInputChange (n : Fin 144) (b level : Bool) (s : State) : Out := .next (inputChange n.val b level s)

/-- DEBOUNCE_EXPIRY (R651): a level that has held for DEBOUNCE × 100 µs passes. -/
def debounce (n : Nat) (b : Bool) (s : State) : State :=
  let h := s.pin n
  let since := if b then h.sinceB else h.sinceA
  if s.now < since + 8000000 * s.fld Fld.pinCfgDebounce n then s else setPinIn n b (if b then h.levelB else h.levelA) s

def execDebounceExpiry (n : Fin 144) (b : Bool) (s : State) : Out := .next (debounce n.val b s)

/-- LINE_FAULT_DETECT (R653): a differential receiver's line is open or shorted, or is neither any more. -/
def lineFault (n : Nat) (on : Bool) (s : State) : State :=
  if !s.flag Fld.pinCfgDiff n then s
  else if on then
    let s := if s.flag Fld.pinStatLineFault n then s
      else (s.setFlag Fld.pinStatLineFault true n).noticeIf s.pinNotes Code.pinLineFault n
    showOpen (inputChange n false true s)
  else showOpen (s.setFlag Fld.pinStatLineFault false n)

def execLineFaultDetect (n : Fin 144) (on : Bool) (s : State) : Out := .next (lineFault n.val on s)

/-! ### Driver slices (R658) -/

/-- SLICE_DRIVE_CHECK (R658): a driven pin's mismatch has lasted two port clocks, with an overload or without. -/
def sliceCheck (n : Nat) (b overload : Bool) (s : State) : State :=
  if s.pad n b = .released then s
  else if overload then
    (s.setFlag (if b then Fld.pinStatOverloadB else Fld.pinStatOverloadA) true n).noticeIf s.pinNotes Code.pinOverload n
  else trigger 7 5 (n / 8) (n % 8 + 8 * b2n b) false false s

def execSliceDriveCheck (n : Fin 144) (b overload : Bool) (s : State) : Out := .next (sliceCheck n.val b overload s)

/-! ### DAC outputs and analog fronts (R659, R660, R662) -/

/-- A write of PIN_DAC_CODE[k]. -/
def dacCodeWrite (w : Writer) (k : Nat) (v : W32) (s : State) : State :=
  if s.ownerCode w = s.fld Fld.pinDacCfgOwner k then s.setFld Fld.pinDacCodeCode (bitsW v 0 16) k
  else pinRefused 1 Code.notOwner k (s.deny Code.notOwner (s.ownerCode w) 5 k)

/-- DAC_CODE_WRITE (R659). -/
def execDacCodeWrite (w : Writer) (k : Fin 16) (v : W32) (s : State) : Out :=
  .next (s.linked w (Reg.pinDacCode.addr k.val 0) (dacCodeWrite w k.val v))

/-- Is a DAC event armed on output k? -/
def State.dacArmed (s : State) (k : Nat) : Bool :=
  s.sched.slots.any fun e => e.2.st != 0 && evAction e.2.w3 == 6 && evDest e.2.w3 == k

/-- A write of PIN_DAC_CFG[k]. -/
def dacCfgWrite (w : Writer) (k : Nat) (v : W32) (s : State) : State :=
  s.wardenOr w (Reg.pinDacCfg.addr k 0) fun s =>
    let owner := bitsW v 0 8
    if !ownerValid owner then pinRefused 1 Code.ownerBad k (s.deny Code.ownerBad (s.ownerCode w) 5 k)
    else if owner ≠ s.fld Fld.pinDacCfgOwner k ∧ s.dacArmed k then pinRefused 1 Code.pinBusy k s
    else s.setReg Reg.pinDacCfg (Reg.pinDacCfg.plain (s.reg Reg.pinDacCfg k) (v.setWidth 64) true) k

/-- DAC_CFG_WRITE (R659). -/
def execDacCfgWrite (w : Writer) (k : Fin 16) (v : W32) (s : State) : Out :=
  .next (s.linked w (Reg.pinDacCfg.addr k.val 0) (dacCfgWrite w k.val v))

/-- Does an enabled timebase take front k as its source? -/
def State.frontTaken (s : State) (k : Nat) : Bool :=
  (upFrom 0 32).any fun n => s.flag Fld.tbStatState n && (s.fld Fld.tbCfgSrc n == 2 || s.fld Fld.tbCfgSrc n == 6)
    && s.fld Fld.tbSrcAin n == k

/-- A write of PIN_AIN_CFG[k]. -/
def ainCfgWrite (w : Writer) (k : Nat) (v : W32) (s : State) : State :=
  s.wardenOr w (Reg.pinAinCfg.addr k 0) fun s =>
    let new := Reg.pinAinCfg.plain (s.reg Reg.pinAinCfg k) (v.setWidth 64) true
    let locked (x : W64) : Nat := bitsW x 0 3 + 8 * bitsW x 5 1
    if bitsW v 0 2 = 3 then pinRefused 2 Code.pinBadCfg k s
    else if locked new ≠ locked (s.reg Reg.pinAinCfg k) ∧ s.frontTaken k then pinRefused 2 Code.pinBusy k s
    else s.setReg Reg.pinAinCfg new k

/-- AIN_CFG_WRITE (R660, R662). -/
def execAinCfgWrite (w : Writer) (k : Fin 16) (v : W32) (s : State) : Out :=
  .next (s.linked w (Reg.pinAinCfg.addr k.val 0) (ainCfgWrite w k.val v))

/-! ### Global control (R656, R676) -/

/-- SAVE (R656): the port settings record written, as a device-wide action. -/
def pinSave (s : State) : State := if s.agreed then raiseRecord .recordPorts s else pinRefused 0 Code.held 0 s

/-- CNT_CLR. -/
def laneCntClr (s : State) : State := (upFrom 0 4).foldl (fun s l => s.setReg Reg.pinLaneCnt 0 l) s

/-- A write of PIN_GCTL: SAVE is the Warden's. -/
def pinGctlWrite (w : Writer) (v : W32) (s : State) : State :=
  if bitsW v 2 1 = 1 ∧ !s.warden w then s.denyWarden w Reg.pinGctl.base
  else
    let s := s.setFld Fld.pinGctlNoteEn (bitsW v 0 1)
    let s := if bitsW v 1 1 = 1 then laneCntClr s else s
    if bitsW v 2 1 = 1 then pinSave s else s

/-- PIN_SAVE (R656): SAVE written beside the present NOTE_EN. -/
def execPinSave (w : Writer) (s : State) : Out :=
  .next (s.linked w Reg.pinGctl.base fun s => pinGctlWrite w (BitVec.ofNat 32 (s.fld Fld.pinGctlNoteEn + 4)) s)

/-- LANE_CNT_CLR (R676). -/
def execLaneCntClr (w : Writer) (s : State) : Out := .next (s.linked w Reg.pinGctl.base laneCntClr)

end Sys2Proof.Machine
end

