-- ==== Sys2Proof/Machine/Lanes.lean ====
section
/-! DEFINITION. The tether and fabric lanes: control, alignment, time, the stream link and fabric words
(16_field_ports R663 to R671, R675). Lanes 0 and 1 are the tether's, 2 and 3 the fabric's. -/

namespace Sys2Proof.Machine

/-! ### Control (R663, R670) -/

/-- May a queue feed a fabric lane's transmitter? -/
def State.txQueue (s : State) (q : Nat) : Bool := q < 160 && s.flag Fld.queCfgConsPort q && s.fld Fld.queCfgConsOwner q == 2

/-- May a queue take a fabric lane's words? -/
def State.rxQueue (s : State) (q : Nat) (wide : Bool) : Bool :=
  q < 160 && s.flag Fld.queCfgProdPort q && s.fld Fld.queCfgProdOwner q == 2 && (!wide || s.flag Fld.queCfgItems q)

/-- EN of a lane rises or falls. -/
def laneSwitch (l : Nat) (on : Bool) (s : State) : State :=
  match s.fld Fld.pinLaneStatState l with
  | 0 => if on && !s.asleep then laneTrain l s else s
  | 1 => if on then s else setLaneState l 3 s
  | 2 => if on then s else setLaneState l 3 s
  | 3 => if on then setLaneState l 4 s else s
  | _ => if on then s else setLaneState l 3 s

/-- A write of PIN_LANE_CFG[l]: its values, then its lock. -/
def laneCfgWrite (w : Writer) (l : Nat) (v : W32) (s : State) : State :=
  s.wardenOr w (Reg.pinLaneCfg.addr l 0) fun s =>
    let old := (s.reg Reg.pinLaneCfg l).toNat
    let v := v.toNat % 2 ^ 24
    let new := if l < 2 then v - bitsOf v 4 1 * 2 ^ 4 else v
    let on := bitOf new 3
    let rate := bitsOf new 0 3
    let queues := l < 2 || (s.txQueue (bitsOf new 8 8) && s.rxQueue (bitsOf new 16 8) (bitOf new 4))
    let locked (x : Nat) : Nat × Nat × Nat := (bitsOf x 0 3, bitsOf x 4 1, bitsOf x 8 16)
    if on && !bitOf old 3 && (rate == 0 || rate == 7 || !queues) then pinRefused 3 Code.pinBadCfg l s
    else if s.fld Fld.pinLaneStatState l ≠ 0 ∧ locked old ≠ locked new then pinRefused 3 Code.pinBusy l s
    else
      let s := s.setReg Reg.pinLaneCfg (BitVec.ofNat 64 new) l
      if on = bitOf old 3 then s else laneSwitch l on s

/-- LANE_ENABLE (R663): PIN_LANE_CFG[l] written with EN 1. -/
def execLaneEnable (w : Writer) (l : Fin 4) (v : W32) (s : State) : Out :=
  .next (s.linked w (Reg.pinLaneCfg.addr l.val 0) (laneCfgWrite w l.val (v ||| 8)))

/-- LANE_DISABLE (R663): PIN_LANE_CFG[l] written with EN 0. -/
def execLaneDisable (w : Writer) (l : Fin 4) (v : W32) (s : State) : Out :=
  .next (s.linked w (Reg.pinLaneCfg.addr l.val 0) (laneCfgWrite w l.val (v &&& ~~~8)))

/-- LANE_STOP_DONE (R663): a stopping lane is OFF, or starts again after PEND. -/
def laneStopDone (l : Nat) (s : State) : State :=
  match s.fld Fld.pinLaneStatState l with
  | 3 => laneHalt l s
  | 4 => laneTrain l (laneHalt l s)
  | _ => s

def execLaneStopDone (l : Fin 4) (s : State) : Out := .next (laneStopDone l.val s)

/-! ### Alignment (R664, R671) -/

/-- A lane is ALIGNED; what waits to be sent goes on. -/
def laneAligned (l : Nat) (s : State) : State :=
  let s := setLaneState l 2 s
  if l = 1 then streamPump 16 s else s

/-- A tether lane in training that has heard a valid IDENT and seen its own acknowledged is ALIGNED. -/
def tetherAligns (l : Nat) (s : State) : State :=
  let h := s.lane l
  if s.fld Fld.pinLaneStatState l = 1 ∧ h.locked ∧ h.heard ∧ h.acked then laneAligned l s else s

/-- LANE_LOCK (R664, R671): the receiver has its footing in the line. -/
def laneLock (l : Nat) (s : State) : State :=
  if s.fld Fld.pinLaneStatState l ≠ 1 then s
  else
    let s := s.setLane l { s.lane l with locked := true }
    if 2 ≤ l then laneAligned l s else tetherAligns l s

def execLaneLock (l : Fin 4) (s : State) : Out := .next (laneLock l.val s)

/-- LANE_LINK_LOSS (R664, R671): the link is lost after `codes` code violations. -/
def execLaneLinkLoss (l : Fin 4) (codes : BitVec 16) (s : State) : Out :=
  .next (laneLost l.val (s.bump Fld.pinLaneCntCodeErr l.val 0 codes.toNat))

/-- Does a tether lane receive messages? -/
def State.laneHears (s : State) (l : Nat) : Bool :=
  let t := s.fld Fld.pinLaneStatState l
  (t == 1 && (s.lane l).locked) || t == 2

/-- A message whose CRC fails or whose TYPE is undefined (R665). -/
def badMessage (l : Nat) (s : State) : State := s.bump Fld.pinLaneCntCrcErr l

/-- Does this device boot from the tether, so that it follows in a chain? (R522) -/
def State.follower (s : State) : Bool := s.bootSource == 4

/-- Would this device's chain index be 16 or more? (R522) -/
def State.beyondChain (s : State) : Bool := s.follower && s.fld Fld.pinLaneStatPeerIndex 0 == 15

/-- IDENT (R664, R665, R522): the peer's IDENT, with its chain index and its ACK. -/
def ident (l index : Nat) (ack good : Bool) (s : State) : State :=
  if !s.laneHears l then s
  else if !good then badMessage l s
  else
    let s := s.setFld Fld.pinLaneStatPeerIndex index l
    let s := s.setLane l { s.lane l with heard := true, acked := (s.lane l).acked || ack }
    let s := if l = 0 ∧ s.follower then
        if s.beyondChain then pullGate s else s.setFld Fld.ldrChainIndex (index % 16 + 1)
      else s
    tetherAligns l s

def execIdentMsg (l : Fin 2) (_ident : W32) (index : Byte) (ack good : Bool) (s : State) : Out :=
  .next (ident l.val index.toNat ack good s)

/-- IDENT_SEND_TIMER (R664, R665): a lane in training sends IDENT. -/
def identSend (l : Nat) (s : State) : State :=
  let h := s.lane l
  if s.fld Fld.pinLaneStatState l = 1 ∧ h.locked then
    s.sendLane l ⟨1, bytesLE 4 (s.reg Reg.stwDevId).toNat ++ bytesLE 1 (s.fld Fld.ldrChainIndex) ++ bytesLE 1 (b2n h.heard)
      ++ [0, 0]⟩
  else s

def execIdentSendTimer (l : Fin 2) (s : State) : Out := .next (identSend l.val s)

/-! ### Time (R667) -/

/-- Half of a difference; of an odd one the spec does not say which way it rounds (log entry 3). -/
def half (v : Int) (s : State) : State × Int := (s.tookFree, Int.fdiv (v + b2n s.freeBit) 2)

/-- An exchange of half l measured at an instant. -/
def exchange (l : Nat) (d : Nat) (ofs : Int) (s : State) : State :=
  let h := s.lane l
  let pred := Config.laneFit h.hist d
  let away := (ofs - pred).natAbs
  let known := h.hist ≠ []
  let good := if known ∧ away ≤ 80 then min 8 (h.good + 1) else 0
  let hist := ((d, ofs) :: h.hist).take 16
  let s := s.setLane l { h with hist := hist, good := good }
  let s := s.setReg Reg.pinLaneOfs (wOfInt (Config.laneFit hist d)) l
  if s.flag Fld.pinLaneStatOfsValid l then (if known ∧ 400 < away then offsetLost l s else s)
  else if good = 8 then s.setFlag Fld.pinLaneStatOfsValid true l
  else s

/-- TIME (R667): the peer's message, received at local stamp `d`; T_ECHO is 0 until the peer has received one. -/
def timeMsg (l : Nat) (tSend tEcho tRecv d : W64) (good : Bool) (s : State) : State :=
  if s.fld Fld.pinLaneStatState l ≠ 2 then s
  else if !good then badMessage l s
  else
    let s := s.setLane l { s.lane l with echo := tSend, recv := d }
    if tEcho = 0 then s
    else
      let (s, o) := half (posDiff tRecv tEcho + posDiff tSend d) s
      let (s, y) := half (posDiff d tEcho - posDiff tSend tRecv) s
      let s := s.setReg Reg.pinLaneDly (BitVec.ofInt 32 y |>.setWidth 64) l
      exchange l d.toNat (o - signed 16 (s.fld Fld.pinLaneAsymAsym l)) s

def execTimeMsg (l : Fin 2) (tSend tEcho tRecv d : W64) (good : Bool) (s : State) : Out :=
  .next (timeMsg l.val tSend tEcho tRecv d good s)

/-- TIME_SEND_TIMER (R667): an aligned lane sends TIME. -/
def timeSend (l : Nat) (s : State) : State :=
  let h := s.lane l
  if s.fld Fld.pinLaneStatState l = 2 then
    s.sendLane l ⟨2, bytesLE 8 s.now ++ bytesLE 8 h.echo.toNat ++ bytesLE 8 h.recv.toNat⟩
  else s

def execTimeSendTimer (l : Fin 2) (s : State) : Out := .next (timeSend l.val s)

/-- TIME_MISSING (R667): three expected messages in a row did not come or failed their CRC. -/
def execTimeMissing (l : Fin 2) (s : State) : Out := .next (offsetLost l.val s)

/-! ### The stream link (R668) -/

/-- An ACK sent on lane 0: the last good SEQ, a credit for each free buffer, NAK. -/
def sendAck (nak : Bool) (s : State) : State :=
  let h := s.lane 0
  s.sendLane 0 ⟨5, bytesLE 2 (h.expect + 2 ^ 16 - 1) ++ bytesLE 1 (16 - h.bufs.length) ++ bytesLE 1 (b2n nak)⟩

/-- The tether source ends (R495). -/
def tetherEnds (s : State) : State :=
  let s := s.setLane 0 { s.lane 0 with eos := false, active := false }
  if s.loading ∧ s.ldrSource = 4 ∧ (s.ldrState = 1 ∨ s.fld Fld.ldrProgValue < s.leaderField 24 8) then
    ldrFail Code.streamShort s
  else s

/-- The loader takes what it can of the buffers, oldest first; `fuel` bounds the messages. What the loader takes no more of the
present stream is discarded, and what another source's load keeps waiting stays. -/
def streamTake : Nat → State → State
  | 0, s => s
  | k + 1, s =>
    let h := s.lane 0
    match h.bufs with
    | [] => if h.eos then tetherEnds s else s
    | b :: rest =>
      let (s, t) := ldrOffer 4 none h.active b s
      match t with
      | .took n =>
        let h := { s.lane 0 with active := true }
        if n = b.length then streamTake k (s.setLane 0 { h with bufs := rest })
        else s.setLane 0 { h with active := h.active, bufs := b.drop n :: rest }
      | .beyond => streamTake k (s.setLane 0 { s.lane 0 with bufs := rest })
      | .refused _ => s

/-- The loader takes, and every buffer freed is acknowledged. -/
def streamServe (s : State) : State :=
  let before := (s.lane 0).bufs.length
  let s := streamTake 40 s
  if (s.lane 0).bufs.length < before then sendAck false s else s

/-- STREAM (R668): a message of up to 256 stream bytes on lane 0. One out of order, damaged, or for which no buffer is free is
answered with NAK. A device beyond the chain's end takes no stream (R522). -/
def stream (seq : Nat) (data : List Byte) (good : Bool) (s : State) : State :=
  let h := s.lane 0
  if !s.aligned 0 ∨ s.beyondChain then s
  else if !good ∨ data = [] ∨ 256 < data.length then sendAck true (badMessage 0 s)
  else if seq ≠ h.expect ∨ 16 ≤ h.bufs.length then sendAck true s
  else streamServe (s.setLane 0 { h with bufs := h.bufs ++ [data], expect := (h.expect + 1) % 2 ^ 16 })

def execStreamMsg (seq : BitVec 16) (data : List Byte) (good : Bool) (s : State) : Out :=
  .next (stream seq.toNat data good s)

/-- ACK_SEND_TIMER (R668): while a stream is active the receiver returns an ACK. -/
def ackSend (s : State) : State :=
  let s := streamTake 40 s
  if s.aligned 0 ∧ ((s.lane 0).active ∨ (s.lane 0).bufs ≠ []) then sendAck false s else s

def execAckSendTimer (s : State) : Out := .next (ackSend s)

/-- Every message not yet acknowledged sent again, oldest first. -/
def resend (s : State) : State := (s.lane 1).unacked.foldl (fun s e => s.sendLane 1 (streamMessage e.1 e.2)) s

/-- ACK (R668): lane 1's peer has taken the messages up to ACK_SEQ and grants credits, or asks with NAK for those after it. -/
def ack (seq credits : Nat) (nak good : Bool) (s : State) : State :=
  if !s.laneHears 1 then s
  else if !good then badMessage 1 s
  else
    let h := s.lane 1
    let left := match h.unacked.findIdx? fun e => e.1 == seq with
      | some i => h.unacked.drop (i + 1)
      | none => h.unacked
    let s := s.setLane 1 { h with unacked := left, credits := credits }
    streamPump 32 (if nak then resend s else s)

def execAckMsg (seq : BitVec 16) (credits : Byte) (nak good : Bool) (s : State) : Out :=
  .next (ack seq.toNat credits.toNat nak good s)

/-- STREAM_ACK_TIMEOUT (R668). -/
def execStreamAckTimeout (s : State) : Out := .next (if s.aligned 1 then resend s else s)

/-- EOS (R668): the stream ends once the loader has taken what stands in the buffers. -/
def eosMsg (good : Bool) (s : State) : State :=
  if !s.aligned 0 then s
  else if !good then badMessage 0 s
  else streamTake 40 (s.setLane 0 { s.lane 0 with eos := true })

def execEosMsg (_total : W64) (good : Bool) (s : State) : Out := .next (eosMsg good s)

/-! ### Fabric words (R670, R671) -/

/-- The idle word of each PCS as it stands in a queue. -/
def idleWord (wide : Bool) (v : W64) (control : Bool) : Bool :=
  if wide then control && v == 0x1E
  else bitsW v 0 16 == 0x50BC && bitsW v 32 6 == 0x11

/-- LANE_WORD_RX (R670, R671): fabric lane `l` receives a word, or a block with its sync header. -/
def wordRx (l : Nat) (v : W64) (sync : Nat) (s : State) : State :=
  let wide := s.flag Fld.pinLaneCfgPcs l
  let q := s.fld Fld.pinLaneCfgQrx l
  if !s.aligned l then s
  else if wide ∧ (sync = 0 ∨ sync = 3) then s.bump Fld.pinLaneCntCodeErr l
  else
    let control := wide && sync == 2
    let v := if wide then v else v &&& maskW 0 38
    if s.flag Fld.pinLaneCfgDropIdle l && idleWord wide v control then s
    else if s.queRuns q ∧ (s.flag Fld.queStatCutPend q ∨ 0 < s.queRoom q) then queSettle q (queEnter q v control s)
    else
      let s := (s.bump Fld.pinLaneCntRxDrop l).bump Fld.clkXingCntOverrun (21 + l)
      laneCode l Code.laneRxDrop (s.noticeIf s.clkNotes Code.xingOverrun (21 + l))

/-- Idle as a received 8b/10b word: K28.5 and D16.2, two bytes valid. -/
def execLaneWordRx (l : Fin 2) (v : W64) (sync : BitVec 2) (s : State) : Out := .next (wordRx (2 + l.val) v sync.toNat s)

/-- LANE_WORD_TX (R670): fabric lane `l` takes the next word of its queue, or sends idle. -/
def wordTx (l : Nat) (s : State) : State :=
  let q := s.fld Fld.pinLaneCfgQtx l
  if s.aligned l ∧ s.queRuns q ∧ !s.flag Fld.queStatEmpty q then
    let (s, p) := queLeave q s
    (queSettle q s).sendLane l ⟨0, bytesLE 8 p.data.toNat ++ bytesLE 1 (b2n (p.last && s.flag Fld.pinLaneCfgPcs l))⟩
  else s

def execLaneWordTx (l : Fin 2) (s : State) : Out := .next (wordTx (2 + l.val) s)

end Sys2Proof.Machine
end

