-- ==== Sys2Proof/Machine/Lead.lean ====
section
/-! DEFINITION. Leadership between the halves, the load registers and the alarm register (01_architecture R28 to R44,
14_start_health_and_spares R588). -/

namespace Sys2Proof.Machine

/-- The leading half. -/
def State.leader (s : State) : Nat := s.fld Fld.stwLeadLeader

/-- The device-wide actions under way wait at their step boundary when a hold or split begins (R42). -/
def holdActions (s : State) : State :=
  { s with lead := { s.lead with
      held := s.lead.held ++ s.lead.underWay, underWay := [], heldLeader := s.leader } }

/-- What a held action leaves when it completes with ABORTED (R42): a load fails with ABORTED (R533, R541), a BIST
request ends (R594), a power change is recorded (R631), a start reads HELD and begins again later (R583); a record
write, a slot change and a clock return leave nothing. -/
def abortAction (s : State) : Action → State
  | .load => ldrFail Code.aborted s
  | .bist =>
    let s := { s with hea := { s.hea with west := [], east := [] } }
    showHealth ((s.setFld Fld.bistStatState 3).setFld Fld.bistStatCode Code.aborted)
  | .power => powerAborted s
  | .start => startHeld s
  | _ => s

/-- While a split lasts, a start it stops reads HELD (R583). -/
def splitStart (s : State) : State :=
  if s.lead.held.contains .start ∧ s.phase ≠ 9 then { s.setPhase 9 with sta := { s.sta with was := s.phase } } else s

/-- Every held action completes with ABORTED. -/
def abortHeld (s : State) : State :=
  let start := s.lead.held.contains .start
  let s1 := if start then startHeld s else s
  let s1 := (s.lead.held.filter (· != .start)).foldl abortAction s1
  let s1 := if start then s1.setPhase 9 else s1
  { s1 with lead := { s1.lead with held := [] } }

/-- The state returns to AGREED: held actions resume under the same leader and are otherwise aborted (R42). -/
def resumeHeld (s : State) : State :=
  if s.leader = s.lead.heldLeader then
    let s := if s.lead.held.contains .start ∧ s.phase = 9 then s.setPhase s.sta.was else s
    { s with lead := { s.lead with underWay := s.lead.underWay ++ s.lead.held, held := [] } }
  else abortHeld s

/-- STATE becomes AGREED. -/
def toAgreed (s : State) : State :=
  resumeHeld ((s.setFld Fld.stwLeadState 0).setFld Fld.stwLeadDisagree 0)

/-- The channel is lost: the split begins (R40), and a handover under way ends unperformed (R43). -/
def beginSplit (s : State) : State :=
  let h := s.lead.handover != 0
  let s := splitStart (if s.fld Fld.stwLeadState = 0 then holdActions s else s)
  let s := (s.setFld Fld.stwLeadState 2).setFld Fld.stwLeadDisagree 0
  let s := (s.setFlag Fld.stwLeadSplitSeen true).bump Fld.stwLeadSplitCount
  let s := if h then (s.setFlag Fld.stwLeadHandover false).setFlag Fld.stwLeadHandoverRefused true else s
  let s := { s with lead := { s.lead with goodRun := 0, handover := 0 } }
  s.alarm 1 Code.halfSplit 0

/-- One interval of a handover: offer, accept, then both switch (R43). -/
def handoverStep (s : State) : State :=
  if s.lead.handover < 3 then { s with lead := { s.lead with handover := s.lead.handover + 1 } }
  else
    let s := (s.setFld Fld.stwLeadLeader (1 - s.leader)).setFlag Fld.stwLeadHandover false
    { s with lead := { s.lead with handover := 0 } }

/-- A good interval in a split: the split ends after eight of them, and the LEAD_SEL half leads (R40). -/
def splitGood (s : State) : State :=
  if s.lead.goodRun + 1 < 8 then { s with lead := { s.lead with goodRun := s.lead.goodRun + 1 } }
  else
    let s := s.setFld Fld.stwLeadLeader (b2n s.sys.straps.leadSel)
    let s := { s with lead := { s.lead with goodRun := 0 } }
    toAgreed s

/-- An interval judged as a disagreement (R39). -/
def disagree (s : State) : State :=
  let n := s.fld Fld.stwLeadDisagree + 1
  if n < 3 then
    let s := if s.fld Fld.stwLeadState = 0 then holdActions s else s
    (s.setFld Fld.stwLeadState 1).setFld Fld.stwLeadDisagree n
  else
    let s := s.setFld Fld.stwLeadLeader (b2n s.sys.straps.leadSel)
    let s := (s.setFlag Fld.stwLeadConflictSeen true).bump Fld.stwLeadConflictCount
    (toAgreed s).notice Code.leadConflict 0

/-- VIEW_INTERVAL (R37 to R43): each steward received a good view or did not, and each half claims the lead or does
not. -/
def viewInterval (goodWest goodEast claimWest claimEast : Bool) (s : State) : State :=
  let s := { s with lead := { s.lead with
    badWest := if goodWest then 0 else s.lead.badWest + 1
    badEast := if goodEast then 0 else s.lead.badEast + 1 } }
  if s.fld Fld.stwLeadState = 2 then
    if goodWest && goodEast then splitGood s else { s with lead := { s.lead with goodRun := 0 } }
  else if 3 ≤ s.lead.badWest ∨ 3 ≤ s.lead.badEast then beginSplit s
  else if s.lead.handover ≠ 0 then handoverStep s
  else if !(goodWest && goodEast) then s
  else if claimWest != claimEast then (if s.fld Fld.stwLeadState = 0 then s else toAgreed s)
  else disagree s

def execViewInterval (goodWest goodEast claimWest claimEast : Bool) (s : State) : Out :=
  .next (viewInterval goodWest goodEast claimWest claimEast s)

/-- A write of STW_LEAD (R43, R44): HANDOVER 1 by the Warden starts a handover, or is not performed while the state is
not AGREED; a 0 has no effect; the W1C bits clear. -/
def writeLead (w : Writer) (v : W32) (s : State) : State :=
  let v64 : W64 := v.setWidth 64
  let s := s.setReg Reg.stwLead (s.reg Reg.stwLead &&& ~~~(v64 &&& Reg.stwLead.w1c))
  if bitsW v 8 1 = 0 then s
  else if !s.warden w then s.denyWarden w Reg.stwLead.base
  else if s.flag Fld.stwLeadHandover then s
  else if !s.agreed then s.setFlag Fld.stwLeadHandoverRefused true
  else
    let s := s.setFlag Fld.stwLeadHandover true
    { s with lead := { s.lead with handover := 1 } }

def execHandover (w : Writer) (v : W32) (s : State) : Out :=
  .next (s.linked w Reg.stwLead.base (writeLead w v))

/-- DEVICE_ACTION_HOLD_TIMEOUT (R42): the actions held for 1 ms complete with ABORTED. -/
def execDeviceActionHoldTimeout (s : State) : Out :=
  .next (if s.agreed then s else abortHeld s)

/-- STEWARD_ACTION_RESUME (R41): what the stewards raised starts once the state is AGREED and no handover runs. -/
def execStewardActionResume (s : State) : Out :=
  .next (if s.agreed ∧ s.lead.handover = 0 then
      { s with lead := { s.lead with underWay := s.lead.underWay ++ s.lead.waiting, waiting := [] } }
    else s)

/-- LOAD_WINDOW (R28, R31): a 10 µs window of half h ends with a load in units of 0.1 %. -/
def execLoadWindow (h : Fin 2) (load : Fin 1001) (s : State) : Out :=
  let s := s.setFld Fld.stwLoadLoad load.val h.val
  .next (if s.fld Fld.stwLoadPeak h.val < load.val then s.setFld Fld.stwLoadPeak load.val h.val else s)

/-- LOAD_PEAK_CLR (R31): PEAK takes the current LOAD. -/
def loadPeakClr (h : Nat) (s : State) : State := s.setFld Fld.stwLoadPeak (s.fld Fld.stwLoadLoad h) h

def execLoadPeakClr (w : Writer) (h : Fin 2) (s : State) : Out :=
  .next (s.linked w (Reg.stwLoad.addr h.val 0) (loadPeakClr h.val))

/-- ALARM_ACK (R588): the Warden clears pending bits; ALARM_N rises once none is pending. -/
def alarmAck (w : Writer) (bits : BitVec 9) (s : State) : State :=
  if bits = 0 then s
  else s.wardenOr w Reg.stwAlarm.base fun s =>
    let left := s.fld Fld.stwAlarmPend &&& (~~~bits).toNat
    let s := s.setFld Fld.stwAlarmPend left
    if left = 0 then { s with sys := { s.sys with alarmN := true } } else s

def execAlarmAck (w : Writer) (bits : BitVec 9) (s : State) : Out :=
  .next (s.linked w Reg.stwAlarm.base (alarmAck w bits))

end Sys2Proof.Machine
end

