-- ==== Sys2Proof/Machine/Timebase.lean ====
section
/-! DEFINITION. The timebases: sources, the update, registers (02_timebases R45 to R103, R705). -/

namespace Sys2Proof.Machine

/-! ### Quadrature and index (R51 to R56) -/

/-- Does an edge count up, by the input it came on and the levels after it? B lags A when counting up: A rises while B
is low, and B then rises while A is high. -/
def quadUp (onB a b : Bool) : Bool := if onB then b == a else a != b

/-- A waiting edge counted at its own stamp (R53). -/
def countWaiting (n : Nat) (s : State) : State :=
  let h := s.tb n
  match h.waitEdge with
  | none => s
  | some (t, k) => takeCounts n k t (s.setTb n { h with waitEdge := none, dirUp := decide (0 < k) })

/-- QUAD_EDGE (R51 to R54): a filtered edge on A or B at an instant, with the levels of A and B after it. -/
def quadEdge (n : Nat) (onB a b : Bool) (at_ : Nat) (s : State) : State :=
  let tick := at_ / 32 * 32
  let stamp := tick - filterDelay (bitsOf (s.fld Fld.tbSrcpValue n) 0 2)
  let h := s.tb n
  if !s.tbTakes n 1 then s
  else
    let close := match h.lastEdge with | some (l, _) => decide (tick < l + 2000) | none => false
    if close then
      let state := match h.lastEdge with | some (l, b) => l == tick && b != onB | none => false
      let k := if h.waitEdge.isSome then 2 else 1
      let s := s.setTb n { h with lastEdge := some (tick, onB), waitEdge := none }
      raiseFault n 2 (if state then 1 else 2) (lostEdges n k s)
    else
      let s := countWaiting n s
      s.setTb n { s.tb n with lastEdge := some (tick, onB), waitEdge := some (stamp, if quadUp onB a b then 1 else -1) }

def execQuadEdge (n : Fin 32) (onB a b : Bool) (t : Stamp) (s : State) : Out :=
  .next (quadEdge n.val onB a b t.toNat s)

/-- QUAD_COUNT_COMMIT (R53). -/
def execQuadCountCommit (n : Fin 32) (s : State) : Out :=
  .next (if s.tbTakes n.val 1 then countWaiting n.val s else s)

/-- INDEX_EDGE (R55, R56). -/
def indexEdge (n : Nat) (at_ : Nat) (s : State) : State :=
  if !(s.tbTakes n 1 && s.flag Fld.tbSrcIndexEn n) || s.pwr.dark then s
  else
    let stamp := at_ / 32 * 32 - filterDelay (bitsOf (s.fld Fld.tbSrcpValue n) 0 2)
    let h := s.tb n
    let pos := wrap64 (extrapolate h.p h.v h.a ((stamp : Int) - h.reached) s.freeBit)
    let s := s.tookFree.setReg Reg.tbIdxPos (wOfInt pos) n
    let pend : Int := match h.waitEdge with | some (_, k) => k | none => 0
    let taken := h.taken + pend
    let up := if pend = 0 then h.dirUp else decide (0 < pend)
    let rev := s.fld Fld.tbRevValue n
    let bad := match h.lastIndex with
      | some (c, u) => rev != 0 && u == up && decide (2 < (((taken - c).natAbs : Int) - rev).natAbs)
      | none => false
    let s := s.setTb n { h with lastIndex := some (taken, up) }
    let s := if bad then raiseFault n 2 3 s else s
    if s.flag Fld.tbCfgRefOnIndex n && !s.flag Fld.tbStatRef n then
      let d := intDiff (sInt (s.reg Reg.tbPreset n)) pos
      (s.setTb n { (s.tb n).shifted d with jumped := true }).setFlag Fld.tbStatRef true n
    else s

def execIndexEdge (n : Fin 32) (t : Stamp) (s : State) : Out := .next (indexEdge n.val t.toNat s)

/-! ### Analog fronts (R58 to R61) -/

/-- The automatic adjustment of the three calibration fields, no more often than once per 1 ms; when the front writes
and the values it writes are free (R59, log entry 7). -/
def autoCal (n at_ : Nat) (s : State) : State :=
  let h := s.tb n
  if s.flag Fld.tbAnaCalAuto n && decide (h.calAt + 1000 * perMicro ≤ at_) && s.freeBit then
    let v := s.freeWord
    let s := s.tookFree
    let s := s.setTb n { h with calAt := at_ }
    s.setReg Reg.tbAnaCal (BitVec.ofNat 64 (bitsW v 0 31 + 2 ^ 31)) n
  else s.tookFree

/-- The square of a corrected sample's amplitude, in units of a tenth of a volt peak to peak over 2^24: the amplitude is
the codes × 3 / 16,384 V, twice that with ATTEN, and the samples stand in 1/1,024 of a code (R60, R660). -/
def ampSquare (sc cc : Int) (atten : Bool) : Int :=
  let k : Int := if atten then 60 else 30
  (sc * sc + cc * cc) * (k * k)

/-- The square of a limit in tenths of a volt, in the same units. -/
def ampLimit (tenths : Int) : Int := (tenths * 2 ^ 24) * (tenths * 2 ^ 24)

/-- One timebase takes a sample of its front (R58 to R61). -/
def takeSample (ss cs : Int) (powered : Bool) (at_ : Nat) (s : State) (n : Nat) : State :=
  let h := s.tb n
  let sc := if powered then (ss - signed 12 (s.fld Fld.tbAnaCalOfsS n)) * 1024 else 0
  let cc := if powered then (cs - signed 12 (s.fld Fld.tbAnaCalOfsC n)) * (1024 + signed 7 (s.fld Fld.tbAnaCalGainC n))
    else 0
  let att := s.flag Fld.pinAinCfgAtten (s.fld Fld.tbSrcAin n)
  let amp := ampSquare sc cc att
  let low := decide (amp < ampLimit 2)
  let out := decide (amp < ampLimit 6 ∨ ampLimit 13 < amp)
  let h := { h with lowRun := if low then h.lowRun + 1 else 0, ampRun := if out then h.ampRun + 1 else 0 }
  let lost := decide (16 ≤ h.lowRun)
  let s := lasting n 0 (decide (16 ≤ h.ampRun) && !lost) (lasting n 6 lost (s.setTb n h))
  if !powered then s
  else
    let h := s.tb n
    let ph := Config.phase sc cc % 16384
    let d : Int := (at_ : Int) - h.sampleAt
    let s := s.setTb n { h with phase := some ph, sampleAt := at_ }
    match h.phase with
    | none => takeCounts n 0 at_ s
    | some prev =>
      if bitOf (s.fld Fld.tbFaultActive n) 0 then s
      else
        let pred := extrapolate 0 h.v h.a d s.freeBit * s.tbSign n
        let s := s.tookFree
        let raw := ((ph : Int) - prev) * oneCount
        let per := 16384 * oneCount
        let err := (raw - pred + 8192 * oneCount) % per - 8192 * oneCount
        let s := if 4096 * oneCount < (err.natAbs : Int) then
            takeCounts n (Int.fdiv (pred + 2 ^ 23) (2 ^ 24)) at_ (raiseFault n 2 4 (lostEdges n 1 s))
          else takeCounts n (Int.fdiv (pred + err) (2 ^ 24)) at_ s
        autoCal n at_ s

/-- ADC_SAMPLE (R58, R660, R662): front k samples S and C together; every ANALOG timebase on it takes the sample. -/
def adcSample (k : Nat) (sc cc : BitVec 14) (at_ : Nat) (s : State) : State :=
  let powered := s.fld Fld.pinAinCfgMode k == 1
  let s := if powered then (s.setFld Fld.pinAinRawS sc.toNat k).setFld Fld.pinAinRawC cc.toNat k else s
  ((upFrom 0 32).filter fun n => s.tbTakes n 2 && s.fld Fld.tbSrcAin n == k).foldl
    (takeSample sc.toInt cc.toInt powered at_) s

def execAdcSample (k : Fin 16) (sc cc : BitVec 14) (t : Stamp) (s : State) : Out :=
  .next (adcSample k.val sc cc t.toNat s)

/-! ### Serial encoders (R62 to R66) -/

/-- SERIAL_FRAME_START: the latch edge, stamped to the tick (R62, R63). -/
def execSerialFrameStart (n : Fin 32) (t : Stamp) (s : State) : Out :=
  .next (if s.tbTakes n.val 3 || s.tbTakes n.val 4 then
      s.setTb n.val { s.tb n.val with frameAt := some (t.toNat / 32 * 32) }
    else s)

/-- Gray code of up to `fuel` bits decoded. -/
def grayDecode : Nat → Nat → Nat
  | 0, _ => 0
  | k + 1, v => v ^^^ grayDecode k (v / 2)

/-- The number of ones among the low `fuel` bits. -/
def onesOf : Nat → Nat → Nat
  | 0, _ => 0
  | k + 1, v => v % 2 + onesOf k (v / 2)

/-- The low bits of a number, most significant first. -/
def msbFirst : Nat → Nat → List Bool
  | 0, _ => []
  | k + 1, v => bitOf v k :: msbFirst k v

/-- CRC‑8 with polynomial 0x2F over bits in transmission order (R63). -/
def crc8 : Nat → List Bool → Nat
  | c, [] => c
  | c, b :: t => crc8 (if bitOf c 7 != b then (c * 2 % 256) ^^^ 0x2F else c * 2 % 256) t

/-- A bad frame: discarded and counted; CRC_LIMIT in a row raise SERIAL_CRC with the last one's cause (R64). -/
def badFrame (n cause : Nat) (s : State) : State :=
  let s := s.bump Fld.tbErrcntBadFrames n
  let h := s.tb n
  let s := s.setTb n { h with badRun := h.badRun + 1 }
  if bitsOf (s.fld Fld.tbSrcpValue n) 18 4 ≤ h.badRun + 1 then
    lasting n cause true (lasting n 13 false (lasting n 12 false (lasting n 11 false s)))
  else s

/-- A good frame's value: it sets the position and REF the first time, and is unwrapped afterwards (R66). -/
def goodFrame (n len val : Nat) (s : State) : State :=
  let h := s.tb n
  let t := h.frameAt.getD s.now
  let s := s.setTb n { h with badRun := 0 }
  let s := [7, 11, 12, 13].foldl (fun s c => lasting n c false s) s
  let h := s.tb n
  if h.needInit then
    let p := wrap64 (val * oneCount)
    (s.setTb n { h with p := p, v := 0, a := 0, count := p, corrAt := h.reached, lastVal := val, needInit := false,
                        jumped := true }).setFlag Fld.tbStatRef true n
  else
    let d := signed len ((val + 2 ^ len - h.lastVal) % 2 ^ len) * s.tbSign n
    let c := h.count + d * oneCount
    s.setTb n { h with count := c, lastVal := val, meas := h.meas ++ [⟨c, t⟩] }

/-- No data transition within the frame: SIG_LOSS with cause NO_FRAME on the first such frame (R64). -/
def silentFrame (n : Nat) (s : State) : State := lasting n 7 true s

/-- SSI_FRAME_END (R62, R64, R66). -/
def ssiFrame (n : Nat) (data : BitVec 48) (parity silent : Bool) (s : State) : State :=
  if !s.tbTakes n 3 then s
  else if silent then silentFrame n s
  else
    let cfg := s.fld Fld.tbSrcpValue n
    let len := bitsOf cfg 10 6
    let v := data.toNat % 2 ^ len
    if bitOf cfg 17 && (onesOf len v + b2n parity) % 2 == 1 then badFrame n 12 s
    else goodFrame n len (if bitOf cfg 16 then grayDecode len v else v) s

def execSsiFrameEnd (n : Fin 32) (data : BitVec 48) (parity silent : Bool) (s : State) : Out :=
  .next (ssiFrame n.val data parity silent s)

/-- QCS_FRAME_END (R63, R64, R66): START, CRC and SEQ are checked; the status flags take effect. -/
def qcsFrame (n : Nat) (start : Bool) (status : BitVec 4) (pos : BitVec 40) (seq : BitVec 4) (crc : BitVec 8)
    (silent : Bool) (s : State) : State :=
  if !s.tbTakes n 4 then s
  else if silent then silentFrame n s
  else
    let len := bitsOf (s.fld Fld.tbSrcpValue n) 10 6
    let v := pos.toNat % 2 ^ len
    let h := s.tb n
    let next := h.lastSeq.map fun q => (q + 1) % 16
    if !start then badFrame n 13 (s.setTb n { h with lastSeq := next })
    else if crc8 0xFF (msbFirst 4 status.toNat ++ msbFirst len v ++ msbFirst 4 seq.toNat) ≠ crc.toNat then
      badFrame n 11 (s.setTb n { h with lastSeq := next })
    else
      let s := (s.setTb n { h with lastSeq := some seq.toNat }).setFld Fld.tbStatEncStatus status.toNat n
      let s := lasting n 8 (bitOf status.toNat 1) s
      if next.isSome && next != some seq.toNat then badFrame n 13 s else goodFrame n len v s

def execQcsFrameEnd (n : Fin 32) (start : Bool) (status : BitVec 4) (pos : BitVec 40) (seq : BitVec 4)
    (crc : BitVec 8) (silent : Bool) (s : State) : Out :=
  .next (qcsFrame n.val start status pos seq crc silent s)

/-! ### Pulse and direction, zero crossing (R67, R68) -/

/-- STEP_EDGE (R67): `wide` says the step lasts 20 ns or more. -/
def stepEdge (n : Nat) (dir wide : Bool) (at_ : Nat) (s : State) : State :=
  if !s.tbTakes n 5 then s
  else
    let tick := at_ / 32 * 32
    let h := s.tb n
    let close := match h.lastEdge with | some (l, _) => decide (tick < l + 4000) | none => false
    let s := s.setTb n { h with lastEdge := some (tick, false) }
    if close || !wide then raiseFault n 2 2 (lostEdges n 1 s)
    else takeCounts n (if dir then 1 else -1) (tick - filterDelay (bitsOf (s.fld Fld.tbSrcpValue n) 0 2)) s

def execStepEdge (n : Fin 32) (dir wide : Bool) (t : Stamp) (s : State) : Out :=
  .next (stepEdge n.val dir wide t.toNat s)

/-- A crossing counted, or ignored under EDGE and LOCKOUT, by one timebase (R68). -/
def takeCrossing (rising : Bool) (stamp : Nat) (s : State) (n : Nat) : State :=
  let h := s.tb n
  let locked := match h.lastCross with
    | some l => decide (stamp < l + bitsOf (s.fld Fld.tbSrcpValue n) 0 12 * perMicro)
    | none => false
  if (s.flag Fld.tbSrcEdge n && !rising) || locked then s
  else
    let s := s.setTb n { h with lastCross := some stamp, sinceAt := stamp }
    takeCounts n 1 stamp (lasting n 7 false s)

/-- ZERO_CROSSING (R68, R661): the comparator of front k crosses; 60 ns are taken off the stamp. -/
def zeroCrossing (k : Nat) (rising : Bool) (at_ : Nat) (s : State) : State :=
  if s.fld Fld.pinAinCfgMode k ≠ 2 then s
  else ((upFrom 0 32).filter fun n => s.tbTakes n 6 && s.fld Fld.tbSrcAin n == k).foldl
    (takeCrossing rising ((at_ - 4800) / 32 * 32)) s

def execZeroCrossing (k : Fin 16) (rising : Bool) (t : Stamp) (s : State) : Out :=
  .next (zeroCrossing k.val rising t.toNat s)

/-- TB_TIMEOUT_EXPIRY (R68, R70). -/
def execTbTimeoutExpiry (n : Fin 32) (s : State) : Out :=
  .next (if (s.tbTakes n.val 6 || s.tbTakes n.val 7) && s.flag Fld.tbTimeoutValue n.val then lasting n.val 7 true s
    else s)

/-! ### Tether (R71, R72) -/

/-- A message taken by one TETHER timebase: its stamp in local device time, then as a software write. -/
def takeTether (lane : Nat) (p v a stamp : W64) (s : State) (n : Nat) : State :=
  if !s.flag Fld.pinLaneStatOfsValid lane then lasting n 15 true s
  else
    let t : Int := (stamp.toNat * 32 : Nat) - sInt (s.reg Reg.pinLaneOfs lane)
    let s := s.setTb n { s.tb n with missing := 0 }
    (takeWrite n ⟨t.toNat, sInt p, sInt v, sInt a⟩ (lasting n 14 false s)).1

/-- TBPOS (R72, R665): a position message from lane 0 or 1; a failing CRC discards it and counts in CRC_ERR. -/
def tbpos (lane : Nat) (idx : Byte) (p v a stamp : W64) (good : Bool) (s : State) : State :=
  if !good then s.bump Fld.pinLaneCntCrcErr lane
  else ((upFrom 0 32).filter fun n => s.tbTakes n 8 && s.fld Fld.tbSrcIn0 n == lane
      && s.fld Fld.tbSrcIn1 n == idx.toNat).foldl (takeTether lane p v a stamp) s

def execTbposMsg (lane : Fin 2) (idx _seq : Byte) (p v a stamp : W64) (good : Bool) (s : State) : Out :=
  .next (tbpos lane.val idx p v a stamp good s)

/-- TETHER_MSG_TIMEOUT (R72): an expected message did not arrive; the third in a row raises TETHER_LOSS. -/
def execTetherMsgTimeout (n : Fin 32) (s : State) : Out :=
  .next (if s.tbTakes n.val 8 then
      let h := s.tb n.val
      let s := s.setTb n.val { h with missing := h.missing + 1 }
      if 3 ≤ h.missing + 1 then lasting n.val 14 true s else s
    else s)

/-! ### The update (R45, R76, R79 to R83) -/

/-- Writes due become measurements, or the write in force under DIRECT (R69, R70). -/
def applyWrites (n t : Nat) (direct : Bool) (s : State) : State :=
  let h := s.tb n
  let (due, rest) := dueWrites t h.queued
  match due.getLast? with
  | none => s
  | some w =>
    let h := { h with queued := rest, write := some w, sinceAt := t }
    let h := if direct then h else { h with meas := h.meas ++ due.map fun w => ⟨w.p, w.t⟩ }
    lasting n 7 false (s.setTb n h)

/-- DIRECT: the last write extrapolated (R69). -/
def directStep (n t : Nat) (s : State) : State :=
  let h := s.tb n
  match h.write with
  | none => s.setTb n { h with v := 0, a := 0, reached := t }
  | some w =>
    let d : Int := (t : Int) - w.t
    let p := wrap64 (extrapolate w.p w.v w.a d (Config.freeBit s.freeCount))
    let v := wrap64 (extrapolateV w.v w.a d (Config.freeBit (s.freeCount + 1)))
    { (s.setTb n { h with p := p, v := v, a := w.a, reached := t }) with freeCount := s.freeCount + 2 }

/-- The estimator over one update (R76, R705), with the checks of ACCEL_LIMIT (R79). -/
def estimateStep (n t : Nat) (s : State) : State :=
  let h := s.tb n
  let bw := s.fld Fld.tbCfgBw n
  let ms := sortMeas h.meas
  let h := { h with meas := [] }
  let (h, ms) := match h.needInit, ms with
    | true, m :: rest => ({ h with p := m.x, v := 0, a := 0, reached := max h.reached m.t, corrAt := h.reached,
                                   needInit := false, jumped := true }, rest)
    | _, _ => (h, ms)
  let (h, k, far) := ms.foldl (applyMeas bw (s.fld Fld.tbInnovMaxValue n)) (h, s.freeCount, false)
  let (h, k) := propagate h t k
  let src := s.fld Fld.tbCfgSrc n
  let h := if src = 1 ∨ src = 5 then clampCount bw h else h
  let lim := s.reg Reg.tbAccMax n
  let h := { h with accRun := if lim ≠ 0 ∧ sInt lim < h.a.natAbs then h.accRun + 1 else 0 }
  let s := { (s.setTb n h) with freeCount := k }
  let s := if far then raiseFault n 3 10 s else s
  lasting n 9 (decide (4 ≤ h.accRun)) s

/-- A geared timebase over one update: the faults of its master (R83), its position, velocity and acceleration (R73),
and a gear change that waited (R75). -/
def gearStep (n t : Nat) (s : State) : State :=
  let m := s.fld Fld.tbCfgMaster n
  let run := s.fld Fld.tbStatState m == 1
  let want := if run then s.fld Fld.tbFaultActive m else 1
  let cause := if run then s.fld Fld.tbStatCause m else 7
  let have_ := (s.tb n).inherited
  let s := (upFrom 0 6).foldl (fun s b => if bitOf want b && !bitOf have_ b then raiseFault n b cause s else s) s
  let s := s.setFlag Fld.tbStatInherited (want != 0) n
  let s := s.setTb n { s.tb n with inherited := want }
  if !run then s.setTb n { s.tb n with gearInit := true, v := 0, a := 0, reached := t }
  else
    let pm := s.reg Reg.tbPos m
    let fresh := (s.tb n).gearInit
    let s := if fresh then
        let s := gearSet s n
        s.setTb n { s.tb n with jumped := true }
      else
        let h := s.tb n
        s.setTb n { h with gearAcc := h.gearAcc + posDiff pm h.masterPos * h.gearNum, masterPos := pm }
    let h := s.tb n
    let s := match h.gearNext with
      | none => s
      | some (num, den, ofs) =>
        let cur := divEven h.gearAcc h.gearDen
        if s.flag Fld.tbCfgOfsHold n then
          let o := wrap64 (cur - divEven (sInt pm * num) den)
          (s.setTb n { h with gearNum := num, gearDen := den, gearOfs := o, gearAcc := cur * den, gearNext := none }).setReg
            Reg.tbGearOfs (wOfInt o) n
        else s.setTb n { h with gearNum := num, gearDen := den, gearOfs := ofs, gearNext := none, jumped := true,
                                gearAcc := ofs * den + sInt pm * num }
    let h := s.tb n
    let scale (x : Int) (up : Bool) : Int :=
      Int.fdiv (x * h.gearNum) h.gearDen + (if up && Int.fmod (x * h.gearNum) h.gearDen != 0 then 1 else 0)
    let v := wrap64 (scale (sInt (s.reg Reg.tbVel m)) (Config.freeBit s.freeCount))
    let a := wrap64 (scale (sInt (s.reg Reg.tbAcc m)) (Config.freeBit (s.freeCount + 1)))
    { (s.setTb n { h with p := wrap64 (divEven h.gearAcc h.gearDen), v := v, a := a, reached := t }) with
      freeCount := s.freeCount + 2 }

/-- The position while a fault of the STOP class is active (R80): frozen, or extrapolated from the last velocity. -/
def stoppedPos (n t : Nat) (s : State) : W64 :=
  let h := s.tb n
  if s.fld Fld.tbCfgStopAct n = 1 ∧ !h.failed then
    wOfInt (extrapolate (sInt h.goodP) (sInt h.goodV) 0 ((t : Int) - h.goodAt) s.freeBit)
  else h.goodP

/-- A preset that waited: the position published is moved to TB_PRESET and REF is set (R90). -/
def presetStep (n t : Nat) (s : State) : State :=
  let h := s.tb n
  if !h.presetReq then s
  else
    let cur := if s.tbStopped n then sInt (stoppedPos n t s) else h.p
    let d := intDiff (sInt (s.reg Reg.tbPreset n)) cur
    (s.setTb n { h.shifted d with presetReq := false, jumped := true }).setFlag Fld.tbStatRef true n

/-- Recovery from the STOP class (R82): an incremental source resumes from the count held and clears REF; an absolute
one initialises again from its first good measurement. -/
def recover (n t : Nat) (s : State) : State :=
  let h := { s.tb n with failed := false, jumped := true }
  let src := s.fld Fld.tbCfgSrc n
  if src = 1 ∨ src = 2 ∨ src = 5 ∨ src = 6 then
    (s.setTb n { h with count := h.heldCount, p := wrap64 h.heldCount, v := 0, a := 0, meas := [], reached := t,
                        corrAt := t }).setFlag Fld.tbStatRef false n
  else if src = 9 then s.setTb n h
  else s.setTb n { h with v := 0, a := 0, reached := t, corrAt := t, needInit := true }

/-- One fault's condition judged at an update: absent for 10 in a row clears ACTIVE (R82); a fault inherited lasts as
long as its master's (R83). -/
def faultStep (n : Nat) (s : State) (b : Nat) : State :=
  let h := s.tb n
  if !bitOf (s.fld Fld.tbFaultActive n) b then s
  else if bitOf (h.present ||| h.inherited) b then s.setTb n { h with absent := h.absent.set b 0 }
  else
    let k := h.absent.getD b 0 + 1
    if 10 ≤ k ∨ s.fld Fld.tbCfgSrc n = 9 then
      s.setFld Fld.tbFaultActive (s.fld Fld.tbFaultActive n &&& (63 - 2 ^ b)) n
    else s.setTb n { h with absent := h.absent.set b k }

/-- The publication (R45, R80, R87): the estimator's state, or what STOP_ACT makes of it; a jump is handled as a preset
(R82, R90); a fault acting as FAIL ends the events tied to the timebase (R80, R81). -/
def publish (n t : Nat) (s : State) : State :=
  let h := s.tb n
  let stop := s.tbStopped n
  let coast := stop && s.fld Fld.tbCfgStopAct n == 1 && !h.failed
  let p := if stop then stoppedPos n t s else wOfInt h.p
  let v : W64 := if coast then h.goodV else if stop then 0 else wOfInt h.v
  let a : W64 := if stop then 0 else wOfInt h.a
  let s := if coast then s.tookFree else s
  let old := s.reg Reg.tbPos n
  let s := (s.setFlag Fld.tbStatCoasting coast n).setFlag Fld.tbStatHeld (stop && !coast) n
  let s := ((s.setReg Reg.tbPos p n).setReg Reg.tbVel v n).setReg Reg.tbAcc a n
  let s := s.setReg Reg.tbStamp (BitVec.ofNat 64 (t / 32)) n
  let s := s.setTb n { s.tb n with seen := 0, jumped := false, prevPos := if h.jumped then p else old }
  let s := if h.jumped && old != p then jumpTimebase n old p s else s
  match s.tbFail n with
  | some c => endTimebase n c s
  | none => s

/-- One timebase at an update instant. -/
def updateOne (t : Nat) (s : State) (n : Nat) : State :=
  let st := s.fld Fld.tbStatState n
  if st = 0 then s
  else if st ≠ 1 then stopTimebase n s
  else
    let src := s.fld Fld.tbCfgSrc n
    let direct := (src = 7 ∨ src = 8) ∧ bitOf (s.fld Fld.tbSrcpValue n) 0
    let s := if src = 8 then lasting n 15 (!s.flag Fld.pinLaneStatOfsValid (s.fld Fld.tbSrcIn0 n % 2)) s else s
    let s := if src = 7 ∨ src = 8 then applyWrites n t direct s else s
    let s := if src = 9 then gearStep n t s else if direct then directStep n t s else estimateStep n t s
    let s := presetStep n t s
    let was := s.tbStopped n
    let s := (upFrom 0 6).foldl (faultStep n) s
    let s := if was && !s.tbStopped n then recover n t s else s
    publish n t s

/-- A byte list of a word. -/
def wordBytes (w : W64) : List Byte := bytesLE 8 w.toNat

/-- The messages a timebase sends over the lanes EXPORT names, one per update (R71, R665). -/
def exportOne (s : State) (n : Nat) : State :=
  let e := s.fld Fld.tbCtlExport n
  if e = 0 ∨ s.fld Fld.tbStatState n = 0 then s
  else
    let h := s.tb n
    let m : LaneMsg := ⟨3, [BitVec.ofNat 8 n, BitVec.ofNat 8 h.expSeq] ++ wordBytes (s.reg Reg.tbPos n)
      ++ wordBytes (s.reg Reg.tbVel n) ++ wordBytes (s.reg Reg.tbAcc n) ++ wordBytes (s.reg Reg.tbStamp n)⟩
    let s := s.setTb n { h with expSeq := (h.expSeq + 1) % 256 }
    (upFrom 0 2).foldl (fun s l =>
      if bitOf e l && s.fld Fld.pinLaneStatState l == 2 then
        { s with laneOut := Tab.upd [] s.laneOut l (· ++ [m]) }
      else s) s

/-- TIMEBASE_UPDATE (R45, R73, R76): device time comes to the next multiple of 250 ticks, and every timebase updates,
masters before the timebases geared to them. -/
def timebaseUpdate (s : State) : State :=
  let dt := (s.dt.toNat / 250 + 1) * 250
  let s := { s with dt := BitVec.ofNat 64 dt, fine := 0 }
  let rank (n : Nat) : Nat := min 4 (gearDepth s n)
  let order := (upFrom 0 5).flatMap fun d => (upFrom 0 32).filter fun n => rank n == d
  let s := order.foldl (updateOne (dt % 2 ^ 64 * 32)) s
  (upFrom 0 32).foldl exportOne s

def execTimebaseUpdate (s : State) : Out := .next (if s.rootRuns then timebaseUpdate s else s)

/-- COAST_LIMIT_EXPIRY (R80): a fault still active after 2^COAST_MAX µs of COAST acts as FAIL from then on; the
position freezes where coasting brought it. -/
def coastLimit (n : Nat) (s : State) : State :=
  let h := s.tb n
  if !(s.tbStopped n && s.fld Fld.tbCfgStopAct n == 1 && !h.failed) then s
  else
    let t := h.coastAt + 2 ^ s.fld Fld.tbCfgCoastMax n * perMicro
    let p := stoppedPos n t s
    let s := s.tookFree
    let s := s.setTb n { h with goodP := p, failed := true }
    let s := (s.setFlag Fld.tbStatCoasting false n).setFlag Fld.tbStatHeld true n
    match s.tbFail n with
    | some c => endTimebase n c s
    | none => s

def execCoastLimitExpiry (n : Fin 32) (s : State) : Out := .next (coastLimit n.val s)

/-! ### Registers (R74, R75, R88 to R91, R59) -/

/-- A refusal of the timebase registers (R101). -/
def refuseTb (n code : Nat) (s : State) : State := s.refuse Reg.tbRefuse code n

/-- EN = 1 (R89, R91): refused, started, or latched while the stop is under way. -/
def tbEnable (n : Nat) (s : State) : State :=
  let st := s.fld Fld.tbStatState n
  if st = 1 ∨ st = 3 then s
  else
    let c := enableCheck s n
    if c ≠ 0 then refuseTb n c s
    else
      let s := s.setFlag Fld.tbCtlEn true n
      if st = 0 then startTimebase n s else s.setFld Fld.tbStatState 3 n

def execTbEnable (w : Writer) (n : Fin 32) (s : State) : Out :=
  .next (s.linked w (Reg.tbCtl.addr n.val 0) (tbEnable n.val))

/-- EN = 0 (R91). -/
def tbDisable (n : Nat) (s : State) : State :=
  let s := s.setFlag Fld.tbCtlEn false n
  if s.fld Fld.tbStatState n = 0 then s else s.setFld Fld.tbStatState 2 n

def execTbDisable (w : Writer) (n : Fin 32) (s : State) : Out :=
  .next (s.linked w (Reg.tbCtl.addr n.val 0) (tbDisable n.val))

/-- PRESET_GO: held for the next update while STATE is RUN, without effect otherwise (R90). -/
def presetGo (n : Nat) (s : State) : State :=
  if s.fld Fld.tbStatState n = 1 then s.setTb n { s.tb n with presetReq := true } else s

def execPresetGo (w : Writer) (n : Fin 32) (s : State) : Out :=
  .next (s.linked w (Reg.tbCtl.addr n.val 0) (presetGo n.val))

/-- GEAR_GO (R75): refused while the held DEN is 0; of a timebase that is OFF it only applies the held values. -/
def gearGo (n : Nat) (s : State) : State :=
  if s.fld Fld.tbGearDenValue n = 0 then refuseTb n Code.badSrc s
  else if s.fld Fld.tbStatState n = 1 ∧ s.fld Fld.tbCfgSrc n = 9 then
    s.setTb n { s.tb n with gearNext := some (signed 32 (s.fld Fld.tbGearNumValue n), s.fld Fld.tbGearDenValue n,
                                              sInt (s.reg Reg.tbGearOfs n)) }
  else applyGear s n

def execGearGo (w : Writer) (n : Fin 32) (s : State) : Out :=
  .next (s.linked w (Reg.tbCtl.addr n.val 0) (gearGo n.val))

/-- ERRCNT_CLR (R95). -/
def errcntClr (n : Nat) (s : State) : State := s.setReg Reg.tbErrcnt 0 n

def execErrcntClr (w : Writer) (n : Fin 32) (s : State) : Out :=
  .next (s.linked w (Reg.tbCtl.addr n.val 0) (errcntClr n.val))

/-- The exports a lane can carry at its RATE (R666). -/
def exportRoom (rate : Nat) : Nat :=
  if rate = 6 then 4 else if rate = 5 then 3 else if rate = 4 ∨ rate = 3 then 2 else if rate = 2 then 1 else 0

/-- EXPORT written: refused with EXPORT_FULL where a lane it adds cannot carry another export (R71, R666). -/
def tbExport (n e : Nat) (s : State) : State :=
  let old := s.fld Fld.tbCtlExport n
  let full := (upFrom 0 2).any fun l => bitOf e l && !bitOf old l
    && decide (exportRoom (s.fld Fld.pinLaneCfgRate l) ≤ s.fld Fld.pinLaneStatExports l)
  if full then refuseTb n Code.exportFull s
  else
    let s := (upFrom 0 2).foldl (fun s l =>
      let k := s.fld Fld.pinLaneStatExports l
      if bitOf e l && !bitOf old l then s.setFld Fld.pinLaneStatExports (k + 1) l
      else if !bitOf e l && bitOf old l then s.setFld Fld.pinLaneStatExports (k - 1) l else s) s
    s.setFld Fld.tbCtlExport e n

/-- A whole write of TB_CTL: its fields in turn (R95). -/
def writeTbCtl (n : Nat) (v : W64) (s : State) : State :=
  let s := if bitsW v 3 1 = 1 then errcntClr n s else s
  let s := if bitsW v 4 2 = s.fld Fld.tbCtlExport n then s else tbExport n (bitsW v 4 2) s
  let s := if bitsW v 0 1 = 1 then tbEnable n s else tbDisable n s
  let s := if bitsW v 2 1 = 1 then gearGo n s else s
  if bitsW v 1 1 = 1 then presetGo n s else s

/-- The bits of TB_SRC the present source uses, locked while it is not OFF (R89, R97). -/
def srcLock (src : Nat) : Nat :=
  match src with
  | 1 => 0x20FFFFFF
  | 2 => 0x0F000000
  | 3 => 0x0000FFFF
  | 4 => 0x0000FFFF
  | 5 => 0x5000FFFF
  | 6 => 0x4F000000
  | 8 => 0x0000FFFF
  | _ => 0

/-- The bits of TB_SRCP the present source uses (R98). -/
def srcpLock (src : Nat) : Nat :=
  match src with
  | 1 => 0x3
  | 5 => 0x3
  | 3 => 0xFFFFFFFF
  | 4 => 0xFFFCFFFF
  | 6 => 0xFFF
  | 7 => 0x1
  | 8 => 0x1
  | _ => 0

/-- The values a write of TB_CFG, TB_SRC or TB_SRCP may not carry (R49, R65, R77, R80, R98); 0 if it may. -/
def srcValues (src which v : Nat) : Nat :=
  if which = 0 then
    if 10 ≤ bitsOf v 0 4 ∨ bitsOf v 4 4 = 15 ∨ bitsOf v 8 2 = 3 then Code.badSrc else 0
  else if which = 2 ∧ (src = 3 ∨ src = 4) then
    let div := bitsOf v 0 10
    let len := bitsOf v 10 6
    let lenOk := if src = 3 then 8 ≤ len ∧ len ≤ 48 else 16 ≤ len ∧ len ≤ 40
    let clocks := if src = 3 then len + 1 + bitsOf v 17 1 else len + 19
    if div < 5 ∨ 624 < div ∨ ¬lenOk ∨ bitsOf v 18 4 = 0 then Code.badSrc
    else if bitsOf v 22 10 * 100 < clocks * (div + 1) * 16 + 2000 then Code.serTooFast
    else 0
  else 0

/-- TB_CFG_WRITE (R89): register 0 TB_CFG, 1 TB_SRC, 2 TB_SRCP; judged for its values, then for the lock. -/
def tbCfgWrite (n which : Nat) (v : W32) (s : State) : State :=
  let r := if which = 0 then Reg.tbCfg else if which = 1 then Reg.tbSrc else Reg.tbSrcp
  let src := s.fld Fld.tbCfgSrc n
  let mask := if which = 0 then 0x1F080F else if which = 1 then srcLock src else srcpLock src
  let old := s.reg r n
  let new := r.plain old (v.setWidth 64) true
  let c := srcValues src which v.toNat
  let on := s.flag Fld.tbCtlEn n || s.fld Fld.tbStatState n != 0
  if c ≠ 0 then refuseTb n c s
  else if on && (old ^^^ new) &&& BitVec.ofNat 64 mask != 0 then refuseTb n Code.srcBusy s
  else s.setReg r new n

def execTbCfgWrite (w : Writer) (n : Fin 32) (which : Fin 3) (v : W32) (s : State) : Out :=
  .next (s.linked w (Reg.tbCfg.addr n.val 0) (tbCfgWrite n.val which.val v))

/-- TB_ANA_CAL_WRITE (R59): refused where AUTO is 1 before and after and a field would change. -/
def anaCalWrite (n : Nat) (v : W32) (s : State) : State :=
  let old := s.reg Reg.tbAnaCal n
  let new : W64 := v.setWidth 64
  if bitsW old 31 1 = 1 ∧ bitsW new 31 1 = 1 ∧ old ≠ new then refuseTb n Code.srcBusy s
  else s.setReg Reg.tbAnaCal new n

def execTbAnaCalWrite (w : Writer) (n : Fin 32) (v : W32) (s : State) : Out :=
  .next (s.linked w (Reg.tbAnaCal.addr n.val 0) (anaCalWrite n.val v))

/-- TB_SNAP_GO (R88): DONE clears and the copies are asked for; a request pending merges. -/
def snapGo (s : State) : State :=
  let s := s.setFlag Fld.tbSnapCtlDone false
  { s with sched := { s.sched with snapPend := true } }

def execTbSnapGo (w : Writer) (s : State) : Out := .next (s.linked w Reg.tbSnapCtl.base snapGo)

/-- One timebase's copies. -/
def snapOne (s : State) (n : Nat) : State :=
  let s := ((s.setReg Reg.tbSnapPos (s.reg Reg.tbPos n) n).setReg Reg.tbSnapVel (s.reg Reg.tbVel n) n).setReg
    Reg.tbSnapAcc (s.reg Reg.tbAcc n) n
  s.setReg Reg.tbSnapStat (s.reg Reg.tbStat n) n

/-- TB_SNAP_DONE (R88): the copies of the latest update change together, then DONE is set. -/
def snapDone (s : State) : State :=
  if !s.sched.snapPend then s
  else
    let m := s.fld Fld.tbSnapMaskValue
    let s := ((upFrom 0 32).filter fun n => bitOf m n).foldl snapOne s
    let s := (s.setReg Reg.tbSnapDt (BitVec.ofNat 64 (s.dt.toNat / 250 * 250))).setFlag Fld.tbSnapCtlDone true
    { s with sched := { s.sched with snapPend := false } }

def execTbSnapDone (s : State) : Out := .next (snapDone s)

end Sys2Proof.Machine
end

