-- ==== Sys2Proof/Machine/Access.lean ====
section
/-! DEFINITION. The setup space as a host reaches it: whole writes of any register, writes and reads by words (R4 to R8, R32,
R34), and the parallel host port (10_host_link_and_rings R420 to R425). -/

namespace Sys2Proof.Machine

/-! ### Registers whose writes are more than plain -/

/-- A meaning of a register's whole write: writer, indices, value. -/
abbrev RegOp := Writer → Nat → Nat → W64 → State → State

/-- A write of BNK_CTL[b]: PINJ is the Warden's (R276). -/
def bankCtlWrite (w : Writer) (b : Nat) (v : W64) (s : State) : State :=
  if !s.warden w && bitsW v 1 1 != s.fld Fld.bnkCtlPinj b then s.denyWarden w (Reg.bnkCtl.addr b 0)
  else
    let s := s.setFld Fld.bnkCtlPinj (bitsW v 1 1) b
    let s := if bitsW v 2 1 = 1 then bankCntClr b s else s
    if bitsW v 0 1 = 1 then bankSleep b s else bankWake b s

/-- A write of QUE_CTL[q] (R282). -/
def queCtlWrite (q : Nat) (v : W64) (s : State) : State :=
  let s := if bitsW v 2 1 = 1 then queCntClr q s else s
  let s := if bitsW v 0 1 = 1 then queEnable q s else queDisable q s
  if bitsW v 1 1 = 1 then queFlush q s else s

/-- A write of ENG_CTL[n] (R358). -/
def engCtlWrite (n : Nat) (v : W64) (s : State) : State :=
  let s := s.setFld Fld.engCtlNoteEn (bitsW v 2 1) n
  let s := if bitsW v 1 1 = 1 then engineCntClr n s else s
  if bitsW v 0 1 = 1 then engineEnable n s else engineDisable n s

/-- A write of ENG_CTX_CTL[n][c] (R360). -/
def ctxCtlWrite (n c : Nat) (v : W64) (s : State) : State :=
  let s := if bitsW v 0 1 = 1 then ctxStart n c s else s
  if bitsW v 1 1 = 1 then ctxStop n c s else s

/-- A write of RNG_CTL[n] by its owner (R449). -/
def ringCtlWrite (n : Nat) (v : W64) (s : State) : State :=
  let s := if bitsW v 3 1 = 1 then ringCntClr n s else s
  let s := if bitsW v 1 1 = 1 then ringResume n s else s
  let s := if bitsW v 2 1 = 1 then ringAbort n s else s
  if bitsW v 0 1 = 1 then ringEnable n s else ringDisable n s

/-- A write of a bit that is the Warden's and starts `f` (R10). -/
def wardenBit (r : Reg) (w : Writer) (on : Bool) (f : State → State) (s : State) : State :=
  if on then s.wardenOr w r.base f else s

/-- A write of ARC_CTL (R572): GOLDEN_WE is the Warden's. -/
def arcCtlWrite (w : Writer) (v : W64) (s : State) : State :=
  if !s.warden w && bitsW v 1 1 != s.fld Fld.arcCtlGoldenWe then s.denyWarden w Reg.arcCtl.base
  else
    let s := s.setFld Fld.arcCtlGoldenWe (bitsW v 1 1)
    let s := if bitsW v 3 1 = 1 then arcCntClr s else s
    let s := if bitsW v 0 1 = 1 then archiveEnable s else archiveDisable s
    if bitsW v 2 1 = 1 then patrolGo s else s

/-- A write of STW_BOOT (R613): CONFIRM_TMO and CONFIRM are the Warden's. -/
def bootWrite (w : Writer) (v : W64) (s : State) : State :=
  let tmo := bitsW v 16 16
  if !s.warden w then
    if tmo ≠ s.fld Fld.stwBootConfirmTmo ∨ bitsW v 8 1 = 1 then s.denyWarden w Reg.stwBoot.base else s
  else
    let s := if tmo = s.fld Fld.stwBootConfirmTmo then s else confirmTmoWrite tmo s
    if bitsW v 8 1 = 1 then bootConfirm s else s

/-- A write of STW_SPORT_CFG[p] (R232): URGENT is fixed on the ports of engine groups and of the scheduler, and IN_EN exists on sector
ports alone. -/
def sportCfgWrite (p : Nat) (v : W64) (s : State) : State :=
  let s := if (90 ≤ p ∧ p ≤ 101) ∨ 104 ≤ p then s else s.setFld Fld.stwSportCfgUrgent (bitsW v 0 1) p
  let s := if p < 80 then s.setFld Fld.stwSportCfgInEn (bitsW v 1 1) p else s
  let s := s.setFld Fld.stwSportCfgTimeout (bitsW v 2 2) p
  if bitsW v 4 1 = 1 then sportCntClr p s else s

/-- A write of a mask bit of the MSI-X table: an unmasked vector whose pending bit is set sends its message (R416). -/
def msixCtrlWrite (v : Nat) (x : W64) (s : State) : State :=
  let s := s.setFld Fld.msixCtrlMask (bitsW x 0 1) v
  let word := s.reg Reg.msixPba (v / 64)
  if bitsW x 0 1 = 1 ∨ bitsW word (v % 64) 1 = 0 ∨ !s.flag Fld.rngLinkUp then s
  else
    let s := s.setReg Reg.msixPba (word &&& ~~~BitVec.ofNat 64 (2 ^ (v % 64))) (v / 64)
    { s with hostOut := s.hostOut ++ [.message v] }

/-- The bits that clearing VALID clears with it: COUNT of a refusal record, MULTI of a fault's (R101, R278, R279, R362, R485, R486). -/
def validClears (r : Reg) : W64 :=
  if r.base = Reg.tbRefuse.base ∨ r.base = Reg.evtRefuse.base ∨ r.base = Reg.clkRefuse.base ∨ r.base = Reg.engRefuse.base
    ∨ r.base = Reg.rngRefuse.base ∨ r.base = Reg.arcRefuse.base ∨ r.base = Reg.pwrRefuse.base ∨ r.base = Reg.pinRefuse.base then
    maskW 24 4
  else if r.base = Reg.bnkRefuse.base then maskW Fld.bnkRefuseCount.lo Fld.bnkRefuseCount.len
  else if r.base = Reg.bnkPerr.base then maskW Fld.bnkPerrMulti.lo Fld.bnkPerrMulti.len
  else if r.base = Reg.engCtxFault.base then maskW Fld.engCtxFaultMulti.lo Fld.engCtxFaultMulti.len
  else if r.base = Reg.wtuDeny.base then maskW Fld.wtuDenyCount.lo Fld.wtuDenyCount.len
  else if r.base = Reg.wtuFlog.base then maskW Fld.wtuFlogMulti.lo Fld.wtuFlogMulti.len
  else 0

/-- A plain write (R8): the Warden's fields are judged first, then each bit follows its access code. -/
def plainWrite (r : Reg) (w : Writer) (i j : Nat) (v : W64) (s : State) : State :=
  let old := s.reg r i j
  let only := (r.rww ||| r.rwl) != 0
  let shared := (r.rw ||| r.w1c ||| r.w1s) != 0
  if only && !s.warden w && (!shared || r.touchesRww old v) then s.denyWarden w (r.addr i j)
  else
    let new := r.plain old v (s.warden w)
    s.setReg r (if v &&& r.w1c = 0 then new else new &&& ~~~validClears r) i j

/-- A plain write that may also clear counters by a bit. -/
def plainClr (r : Reg) (bit : Nat) (f : State → State) : RegOp := fun w i j v s =>
  let s := plainWrite r w i j v s
  if bitsW v bit 1 = 1 then f s else s

/-- Timebases and the scheduler. -/
def RegOps.tb : List (Nat × RegOp) :=
  [(Reg.tbCfg.base, fun _ n _ v => tbCfgWrite n 0 (v.setWidth 32)),
   (Reg.tbSrc.base, fun _ n _ v => tbCfgWrite n 1 (v.setWidth 32)),
   (Reg.tbSrcp.base, fun _ n _ v => tbCfgWrite n 2 (v.setWidth 32)),
   (Reg.tbCtl.base, fun _ n _ v => writeTbCtl n v),
   (Reg.tbAnaCal.base, fun _ n _ v => anaCalWrite n (v.setWidth 32)),
   (Reg.tbSnapCtl.base, fun _ _ _ v s => if bitsW v 0 1 = 1 then snapGo s else s),
   (Reg.evtCfg.base, fun _ h _ v => evtCfgWrite h (v.setWidth 32)),
   (Reg.evtKill.base, fun w _ _ v => evtKill w (v.setWidth 32)),
   (Reg.evtSlotSel.base, fun _ _ _ v => slotSel (bitsW v 0 12)),
   (Reg.evtLineCfg.base, fun w n _ v => lineCfgWrite w n (v.setWidth 32)),
   (Reg.evtCapCfg.base, fun w k _ v => capCfgWrite w k (v.setWidth 32))]

/-- Spine, banks, queues, clocks. -/
def RegOps.fabric : List (Nat × RegOp) :=
  [(Reg.stwSportCfg.base, fun _ p _ v => sportCfgWrite p v),
   (Reg.stwSportStat.base, fun _ p _ v s => if bitsW v 31 1 = 1 then sportPeakClr p s else s),
   (Reg.stwSpineStat.base, fun _ _ _ v s => if bitsW v 31 1 = 1 then spinePeakClr s else s),
   (Reg.stwTokDest.base, fun _ c _ v => tokDestWrite c (v.setWidth 32)),
   (Reg.stwSecHold.base, fun _ k _ v => sectorUrst k (bitsW v 4 1 == 1)),
   (Reg.bnkOwn.base, fun w b _ v => bankOwn b (bitsW v 0 8) (bitsW v 8 7) w),
   (Reg.bnkCtl.base, fun w b _ v => bankCtlWrite w b v),
   (Reg.bnkGctl.base, plainClr Reg.bnkGctl 1 confClr),
   (Reg.queCfg.base, fun w q _ v => queCfgWrite q (v.setWidth 32) w),
   (Reg.queCtl.base, fun _ q _ v => queCtlWrite q v),
   (Reg.queWm.base, fun _ q _ v => queWmWrite q (v.setWidth 32)),
   (Reg.clkSrc.base, fun w _ _ v => clkSrcWrite (bitsW v 0 2) (bitsW v 3 1 == 1) w),
   (Reg.clkMon.base, fun _ _ _ v s => if bitsW v 31 1 = 1 then clkMinClr s else s),
   (Reg.clkGctl.base, plainClr Reg.clkGctl 1 clkCntClr),
   (Reg.clkGate.base, fun _ g _ v => gateWrite g (bitsW v 0 2) (bitsW v 2 8))]

/-- Engines, rings, translation. -/
def RegOps.engines : List (Nat × RegOp) :=
  [(Reg.engCtl.base, fun _ n _ v => engCtlWrite n v),
   (Reg.engOchDest.base, fun _ n k v => ochDestWrite n k (v.setWidth 32)),
   (Reg.engCtxCfg.base, fun w n c v => ctxCfgWrite w n c (v.setWidth 32)),
   (Reg.engCtxCtl.base, fun _ n c v => ctxCtlWrite n c v),
   (Reg.engCtxPc.base, fun _ n c v => ctxPcWrite n c (v.setWidth 32)),
   (Reg.engCtxEvq.base, fun _ n c v => ctxEvqWrite n c (v.setWidth 32)),
   (Reg.engCtxEvqPtr.base, fun _ n c v => ctxEvqPtrWrite n c (v.setWidth 32)),
   (Reg.rngBase.base, fun w n _ v s => s.ringOwned w n (ringBaseWrite n v)),
   (Reg.rngCfg.base, fun w n _ v s => s.ringOwned w n (ringCfgWrite n (v.setWidth 32))),
   (Reg.rngOwn.base, fun w n _ v => ringOwnWrite w n (v.setWidth 32)),
   (Reg.rngCtl.base, fun w n _ v s => s.ringOwned w n (ringCtlWrite n v)),
   (Reg.rngMod.base, fun w n _ v s => s.ringOwned w n (ringModWrite n (v.setWidth 32))),
   (Reg.rngSheetBase.base, fun w _ _ v => sheetBaseWrite w v),
   (Reg.rngSheetCfg.base, fun _ _ _ v => sheetCfgWrite (v.setWidth 32)),
   (Reg.msixCtrl.base, fun _ v _ x => msixCtrlWrite v x)]

/-- Translation, lifetime settings, loads and the archive. -/
def RegOps.protection : List (Nat × RegOp) :=
  [(Reg.wtuLink.base, fun w l _ v => linkPrivWrite w l (bitsW v 0 2)),
   (Reg.wtuSvn.base, fun w _ _ v => svnWrite w (bitsW v 0 8)),
   (Reg.wtuKeyCtl.base, fun w k _ v s => if bitsW v 31 1 = 1 then keyCommit w k s else s),
   (Reg.wtuBootLock.base, fun w _ _ v => bootLockWrite w (bitsW v 0 3)),
   (Reg.wtuDebug.base, fun w _ _ v => debugWrite w (bitsW v 0 1 == 1)),
   (Reg.wtuSpace.base, fun w a _ v => spaceWrite w a v),
   (Reg.wtuFab.base, fun w k _ v => fabWrite w k (v.setWidth 32)),
   (Reg.wtuInv.base, fun w _ _ v => invWrite w (v.setWidth 32)),
   (Reg.wtuInvVa.base, fun w _ _ v => invVaWrite w v),
   (Reg.wtuGctl.base, plainClr Reg.wtuGctl 1 wtuCntClr),
   (Reg.ldrCtl.base, fun w _ _ v s => wardenBit Reg.ldrCtl w (bitsW v 1 1 == 1) loadDiscard
      (wardenBit Reg.ldrCtl w (bitsW v 0 1 == 1) loadAbort s)),
   (Reg.ldrCheck.base, fun w _ _ v => wardenBit Reg.ldrCheck w (bitsW v 0 1 == 1) configCheck),
   (Reg.ldrRbSel.base, fun w _ _ v => rbSelWrite w (v.setWidth 32)),
   (Reg.arcCtl.base, fun w _ _ v => arcCtlWrite w v),
   (Reg.arcCfg.base, fun _ _ _ v => arcCfgWrite (v.setWidth 32)),
   (Reg.arcIf.base, fun _ _ _ v => arcIfWrite (v.setWidth 32))]

/-- Stewards and power. -/
def RegOps.stewards : List (Nat × RegOp) :=
  [(Reg.stwAlarm.base, fun w _ _ v => alarmAck w (v.setWidth 9)),
   (Reg.stwLead.base, fun w _ _ v => writeLead w (v.setWidth 32)),
   (Reg.stwLoad.base, fun _ h _ v s => if bitsW v 31 1 = 1 then loadPeakClr h s else s),
   (Reg.stwStart.base, fun w _ _ v => startWrite w (v.setWidth 32)),
   (Reg.stwBoot.base, fun w _ _ v => bootWrite w v),
   (Reg.stwFix.base, fun w _ _ v => fixWrite w (v.setWidth 32)),
   (Reg.stwHealthCfg.base, fun _ _ _ v => healthCfgWrite (v.setWidth 32)),
   (Reg.bistCtl.base, fun _ _ _ v => bistWrite (v.setWidth 32)),
   (Reg.pwrState.base, fun w _ _ v => pwrStateWrite w (v.setWidth 32)),
   (Reg.pwrVfab.base, fun _ h _ v => vfabWrite h (v.setWidth 32)),
   (Reg.pwrVbank.base, fun w b _ v => vbankWrite w b (v.setWidth 32)),
   (Reg.pwrSup.base, fun _ _ _ v => supWrite (v.setWidth 32)),
   (Reg.pwrTemp.base, fun _ _ _ v => tempWrite (v.setWidth 32)),
   (Reg.pwrWakePort.base, fun _ i _ v => wakePortWrite i (v.setWidth 32))]

/-- Field ports, fronts and lanes. -/
def RegOps.pins : List (Nat × RegOp) :=
  [(Reg.pinCfg.base, fun w n _ v => pinCfgWrite w n (v.setWidth 32)),
   (Reg.pinMux.base, fun w n _ v => pinMuxWrite w n (v.setWidth 32)),
   (Reg.pinOvl.base, fun w n _ v => pinOvlWrite w n (v.setWidth 32)),
   (Reg.pinOwn.base, fun w n _ v => pinOwnWrite w n (v.setWidth 32)),
   (Reg.pinOut.base, fun w n _ v => pinOutWrite w n (v.setWidth 32)),
   (Reg.pinPwm.base, fun w n _ v => pinPwmWrite w n (v.setWidth 32)),
   (Reg.pinDacCfg.base, fun w k _ v => dacCfgWrite w k (v.setWidth 32)),
   (Reg.pinDacCode.base, fun w k _ v => dacCodeWrite w k (v.setWidth 32)),
   (Reg.pinAinCfg.base, fun w k _ v => ainCfgWrite w k (v.setWidth 32)),
   (Reg.pinLaneCfg.base, fun w l _ v => laneCfgWrite w l (v.setWidth 32)),
   (Reg.pinGctl.base, fun w _ _ v => pinGctlWrite w (v.setWidth 32))]

/-- Every register with a meaning of its own. -/
def RegOps.all : List (Nat × RegOp) :=
  RegOps.tb ++ RegOps.fabric ++ RegOps.engines ++ RegOps.protection ++ RegOps.stewards ++ RegOps.pins

/-- A whole write of element (i, j) of a register: its own meaning, or the plain one. -/
def regWrite (r : Reg) (w : Writer) (i j : Nat) (v : W64) (s : State) : State :=
  match RegOps.all.find? (·.1 == r.base) with
  | some op => op.2 w i j v s
  | none => plainWrite r w i j v s

/-! ### Offsets of the setup space (R32, R34) -/

/-- The context register at an offset: engine, context and register (R357). -/
def gregAt (off : Nat) : Option (Nat × Nat × Nat) :=
  if off < 0x80000 ∨ 0xE0000 ≤ off then none
  else
    let e := off % 0x1000
    if e < 0x400 ∨ 0x800 ≤ e ∨ e % 8 ≠ 0 then none
    else some ((off - 0x80000) / 0x1000, (e - 0x400) / 0x100, e % 0x100 / 8)

/-- Does a 64-bit register start at an offset? -/
def wideAt (off : Nat) : Bool :=
  (gregAt off).isSome || (match RegMap.find off with | some (r, _) => r.wide | none => false)

/-- Does a 32-bit register stand at an offset? -/
def narrowAt (off : Nat) : Bool := match RegMap.find off with | some (r, _) => !r.wide | none => false

/-- The ring whose doorbell page an offset lies in (R32). -/
def bellAt (off : Nat) : Option Nat :=
  if off < 0x800000 ∨ 0x840000 ≤ off then none else some ((off - 0x800000) / 0x1000)

/-- A whole write of the register at an offset; a write where there is none is counted (R34). -/
def writeAt (w : Writer) (off : Nat) (v : W64) (s : State) : State :=
  match gregAt off with
  | some (n, c, r) => ctxGreg n c r (some v) s
  | none =>
    match RegMap.find off with
    | some (r, i, j) => regWrite r w i j v s
    | none => s.accessError

/-- A read of the register at an offset: 0 where there is none (R34); write-only words read 0 (R8). -/
def readAt (off : Nat) (s : State) : State × W64 :=
  match gregAt off with
  | some (n, c, r) => if s.ctxIdle n c then (s, s.g n c r) else (s.accessError, 0)
  | none =>
    match RegMap.find off with
    | some (r, i, j) =>
      if r.base = Reg.tbDt.base then (s, s.dt)
      else if r.base = Reg.wtuKeyData.base then (s, 0)
      else (s, s.reg r i j)
    | none => (s, 0)

/-! ### Writes and reads by words (R4 to R6) -/

/-- The low word of a 64-bit register, held for its requester: one held word each. -/
def lowWrite (w : Writer) (off : Nat) (v : W32) (s : State) : State :=
  { s with sys := { s.sys with writeShadow := ⟨w, off, v⟩ :: s.sys.writeShadow.filter fun h => h.who != w } }

/-- The high word of the 64-bit register at `off`: the whole value is written, or the word is discarded and counted. -/
def highWrite (w : Writer) (off : Nat) (v : W32) (s : State) : State :=
  match s.sys.writeShadow.find? fun h => h.who == w && h.off == off with
  | some h =>
    let s := { s with sys := { s.sys with writeShadow := s.sys.writeShadow.filter fun h => h.who != w } }
    writeAt w off (v.setWidth 64 <<< 32 ||| h.val.setWidth 64) s
  | none => s.accessError

/-- A whole 32-bit word written at an offset. -/
def wordWrite (w : Writer) (off : Nat) (v : W32) (merged : Bool) (s : State) : State :=
  match bellAt off with
  | some n => doorbell n (off % 0x1000) true v merged s
  | none =>
    s.linked w off fun s =>
      if narrowAt off then writeAt w off (v.setWidth 64) s
      else if off % 8 = 0 ∧ wideAt off then lowWrite w off v s
      else if off % 8 = 4 ∧ wideAt (off - 4) then highWrite w (off - 4) v s
      else s.accessError

/-- One word of a write of up to eight bytes, with its enables: a word not wholly enabled is discarded and counted. -/
def wordPart (w : Writer) (off : Nat) (v : W32) (mask : Nat) (merged : Bool) (s : State) : State :=
  if mask = 0 then s
  else if mask = 15 then wordWrite w off v merged s
  else match bellAt off with
    | some _ => s.accessError
    | none => s.linked w off State.accessError

/-- REGISTER_WRITE (R4, R8, R34): a write of up to eight bytes at the 8-byte unit `dword` of BAR0, with byte enables. -/
def registerWrite (w : Writer) (off : Nat) (mask : Nat) (v : W64) (s : State) : State :=
  if mask = 255 ∧ wideAt off then s.linked w off (writeAt w off v)
  else wordPart w (off + 4) (v.extractLsb' 32 32) (mask / 16) false (wordPart w off (v.setWidth 32) (mask % 16) false s)

def execRegisterWrite (w : Writer) (dword : BitVec 21) (mask : Byte) (v : W64) (s : State) : Out :=
  .next (registerWrite w (8 * dword.toNat) mask.toNat v s)

/-- The value a read puts before the host. -/
def State.answer (s : State) (v : W64) : State := { s with sys := { s.sys with readData := v } }

/-- A link at NONE reads 0, and the access is refused (R452). -/
def State.linkedRead (s : State) (w : Writer) (_off : Nat) (f : State → State × W64) : State × W64 :=
  if s.priv w = 0 then (s.denyLink w, 0) else f s

/-- A 32-bit read (R5): a low word copies the high one into the requester's shadow, and the next read of the high word takes
it. -/
def wordRead (w : Writer) (off : Nat) (s : State) : State × W64 :=
  s.linkedRead w off fun s =>
    if narrowAt off then readAt off s
    else if off % 8 = 0 ∧ wideAt off then
      let (s, v) := readAt off s
      let rest := s.sys.readShadow.filter fun h => h.who != w
      ({ s with sys := { s.sys with readShadow := ⟨w, off, v.extractLsb' 32 32⟩ :: rest } }, v &&& maskW 0 32)
    else if off % 8 = 4 ∧ wideAt (off - 4) then
      match s.sys.readShadow.find? fun h => h.who == w && h.off == off - 4 with
      | some h => ({ s with sys := { s.sys with readShadow := s.sys.readShadow.filter fun h => h.who != w } }, h.val.setWidth 64)
      | none => let (s, v) := readAt (off - 4) s; (s, v >>> 32)
    else (s, 0)

/-- SHADOW_LOW_READ (R5). -/
def execShadowLowRead (w : Writer) (off : BitVec 24) (s : State) : Out :=
  .next (if wideAt off.toNat then let (s, v) := wordRead w off.toNat s; s.answer v else s)

/-- SHADOW_LOW_WRITE (R6). -/
def execShadowLowWrite (w : Writer) (off : BitVec 24) (v : W32) (s : State) : Out :=
  .next (if wideAt off.toNat then s.linked w off.toNat (lowWrite w off.toNat v) else s)

/-- SHADOW_HIGH_WRITE (R6): the high word of the 64-bit register at `off`. -/
def execShadowHighWrite (w : Writer) (off : BitVec 24) (v : W32) (s : State) : Out :=
  .next (if wideAt off.toNat then s.linked w off.toNat (highWrite w off.toNat v) else s)

/-! ### The parallel host port (R420 to R425) -/

/-- What a half-word of the window names: BAR2 or not, and the byte offset; page 0's own registers stand at 0x1000000 (R422). -/
def State.phpAddr (s : State) (a : Nat) : Bool × Nat :=
  let k := a / 2048
  let o := 2 * (a % 2048)
  if k = 0 then (false, 0x1000000 + o)
  else (s.flag Fld.rngPhpPageBar k, s.fld Fld.rngPhpPagePage k * 4096 + o)

/-- The target a byte of it belongs to: its offset, and its half-words (R423). -/
def phpTarget (bar2 : Bool) (off : Nat) : Nat × Nat :=
  if bar2 || wideAt (off / 8 * 8) then (off / 8 * 8, 4) else (off / 4 * 4, 2)

/-- RNG_PHP_PAGE[k] written (R425). -/
def phpPageWrite (k : Nat) (v : W32) (s : State) : State :=
  if k = 0 then s
  else if bitsW v 13 1 = 0 ∧ 4095 < bitsW v 0 13 then s.accessError
  else s.setReg Reg.rngPhpPage (Reg.rngPhpPage.plain (s.reg Reg.rngPhpPage k) (v.setWidth 64) false) k

/-- CLR of RNG_PHP_STAT. -/
def phpStatClr (s : State) : State := s.setReg Reg.rngPhpStat 0

/-- PHP_PAGE_WRITE (R422, R425). -/
def execPhpPageWrite (k : Fin 16) (v : W32) (s : State) : Out := .next (phpPageWrite k.val v s)

/-- PHP_STAT_CLR (R425). -/
def execPhpStatClr (s : State) : Out := .next (phpStatClr s)

/-- A whole target written by the port. -/
def phpStore (bar2 : Bool) (off : Nat) (v : W64) (lost : Nat) (merged : Bool) (s : State) : State :=
  if bar2 then
    if s.priv .php = 0 then s.denyLink .php
    else hostWrite off v 255 (s.ownerCode .php) (lostContests 208 lost s)
  else if 0x1000000 ≤ off then
    let k := (off - 0x1000000) / 4
    if k < 16 then phpPageWrite k (v.setWidth 32) s
    else if k = 16 then (if bitsW v 31 1 = 1 then phpStatClr s else s)
    else s.accessError
  else if wideAt off then s.linked .php off (writeAt .php off v)
  else wordWrite .php off (v.setWidth 32) merged s

/-- A whole target read by the port. -/
def phpLoad (bar2 : Bool) (off : Nat) (lost : Nat) (s : State) : State × W64 :=
  if bar2 then
    if s.priv .php = 0 then (s.denyLink .php, 0) else hostRead off (lostContests 208 lost s)
  else if 0x1000000 ≤ off then readAt off s
  else s.linkedRead .php off (readAt off)

/-- A half-word out of order: what was held is discarded, and both counts rise (R423). -/
def phpOrder (s : State) : State :=
  { (s.bump Fld.rngPhpStatPhpOrder).accessError with php := { s.php with held := none } }

/-- Half-words, the lowest first, as one value. -/
def halves (l : List Nat) : W64 := BitVec.ofNat 64 (l.foldr (fun h n => h + 65536 * n) 0)

/-- A half-word write (R423): the lowest begins a target, the rest follow in order, and the last writes the whole. -/
def phpWrite (a : Nat) (v : Nat) (lost : Nat) (merged : Bool) (s : State) : State :=
  let (bar2, byte) := s.phpAddr a
  let (off, n) := phpTarget bar2 byte
  let h := (byte - off) / 2
  if h = 0 then { s with php := { s.php with held := some (bar2, off, [v]) } }
  else match s.php.held with
    | some (b, o, l) =>
      if b = bar2 ∧ o = off ∧ l.length = h then
        if h + 1 = n then
          phpStore bar2 off (halves (l ++ [v])) lost merged { s with php := { s.php with held := none } }
        else { s with php := { s.php with held := some (bar2, off, l ++ [v]) } }
      else phpOrder s
    | none => phpOrder s

/-- PHP_WRITE (R420, R423); with both strobes low the access is an error. -/
def execPhpWrite (a : BitVec 15) (v : BitVec 16) (both : Bool) (lost : Fin 4) (merged : Bool) (s : State) : Out :=
  .next (if both then s.accessError else phpWrite a.toNat v.toNat lost.val merged s)

/-- A half-word read (R423). -/
def phpRead (a : Nat) (lost : Nat) (s : State) : State :=
  let (bar2, byte) := s.phpAddr a
  let (off, _) := phpTarget bar2 byte
  let h := (byte - off) / 2
  let part (x : W64) : W64 := BitVec.ofNat 64 (bitsW x (16 * h) 16)
  if h = 0 then
    let (s, x) := phpLoad bar2 off lost s
    { s with php := { s.php with shadow := some (bar2, off, x) } }.answer (part x)
  else match s.php.shadow with
    | some (b, o, x) =>
      if b = bar2 ∧ o = off then s.answer (part x) else let (s, x) := phpLoad bar2 off lost s; s.answer (part x)
    | none => let (s, x) := phpLoad bar2 off lost s; s.answer (part x)

/-- PHP_READ (R420, R423). -/
def execPhpRead (a : BitVec 15) (lost : Fin 4) (s : State) : Out := .next (phpRead a.toNat lost.val s)

/-- PHP_TIMEOUT (R421): the target has not answered within 20 µs; a write is discarded, a read returns 0. -/
def phpTimeout (write : Bool) (s : State) : State :=
  let s := s.bump Fld.rngPhpStatPhpTimeout
  if write then { s with php := { s.php with held := none } }
  else { s with php := { s.php with shadow := none } }.answer 0

def execPhpTimeout (write : Bool) (s : State) : Out := .next (phpTimeout write s)

end Sys2Proof.Machine
end

