-- ==== Sys2Proof/Machine/Loader.lean ====
section
/-! DEFINITION. A stream's body: segments, records, the trailer, and the start-up steps that follow (12_configuration R495, R502 to
R532). -/

namespace Sys2Proof.Machine

/-! ### The body's bytes (R496, R502) -/

/-- May the loader apply records: an accepted stream that nothing holds, whose start has come to its load? (R516, R517, R585) -/
def State.mayApply (s : State) : Bool :=
  s.ldrState == 2 && !s.loadHeld && !s.sta.writing &&
    (s.ldrPartial || s.phase == 6 || (s.phase == 0 && s.allHeld))

/-- The bytes of the body that wait to be applied. -/
def State.body (s : State) : List Byte :=
  if s.ldrEnc then s.ldr.plain else s.ldr.raw.take (s.leaderField 32 8 - s.ldr.body)

/-- A failure of the load at hand, with what waits for the load's end going on. -/
def loadFails (code detail : Nat) (s : State) : State := showHealth (ldrFailAt code detail s.ldrOffset s)

/-- A record that breaks R503. -/
def badRecord (s : State) : State := loadFails Code.recordBad 0 s

/-- The rest of an open section after `k` of its bytes. -/
def sectLeft (k : Nat) : Option (Nat × Bool) → Option (Nat × Bool)
  | some (l, mine) => if l ≤ k then none else some (l - k, mine)
  | none => none

/-- `k` bytes of the body taken. -/
def bodyTake (k : Nat) (s : State) : State :=
  let s := if s.ldrEnc then { s with ldr := { s.ldr with plain := s.ldr.plain.drop k } } else ldrEat k s
  { s with ldr := { s.ldr with body := s.ldr.body + k, sect := sectLeft k s.ldr.sect } }

/-- Are the records at hand this device's? (R523) -/
def State.recordMine (s : State) : Bool := match s.ldr.sect with | some (_, mine) => mine | none => true

/-- What a record's application answers: the state, and the failure's code with its detail, or 0. -/
abbrev Applied := State × Nat × Nat

/-- One whole record of a type: its form, the bytes that follow its header, its application. It waits for bytes that have not come;
a record of another type leaves everything to that type's own row. -/
def record (ty : Nat) (form : W64 → State → Bool) (size : W64 → Nat) (apply : W64 → List Byte → State → Applied) (s : State) : State :=
  let s := ldrRefill s
  if !s.mayApply || s.ldr.ended then s
  else if s.leaderField 32 8 ≤ s.ldr.body then badRecord s
  else
    let bs := s.body
    let h := wordAt (wordsLE 1 bs) 0
    let n := 8 + size h
    let left := match s.ldr.sect with | some (l, _) => l | none => s.leaderField 32 8 - s.ldr.body
    if bs.length < 8 ∨ bitsW h 0 8 ≠ ty then s
    else if bitsW h 8 8 ≠ 0 || !form h s || decide (left < n) then badRecord s
    else if bs.length < n then s
    else if !s.recordMine then bodyTake n s
    else
      let (t, code, detail) := apply h ((bs.take n).drop 8) s
      if code = 0 then bodyTake n t else loadFails code detail t

/-- RECORD_NOP (R502); a header of an undefined TYPE fails here (R503). -/
def recordNop (s : State) : State :=
  let t := ldrRefill s
  let h := wordAt (wordsLE 1 t.body) 0
  if t.mayApply && !t.ldr.ended && 8 ≤ t.body.length && 6 < bitsW h 0 8 then badRecord t
  else record 0 (fun h _ => h == 0) (fun _ => 0) (fun _ _ s => (s, 0, 0)) s

def execRecordNop (s : State) : Out := .next (recordNop s)

/-! ### Frames (R507 to R511, R528) -/

/-- A cell record that the loader refuses (R162, R169, R174, R509). -/
def cellBad (r : W64) : Bool :=
  2 ≤ cellInit r || (cellMode r == 2 && bitsOf (cellParam r) 0 2 == 3)
    || (cellMode r == 3 && 5 ≤ bitsOf (cellParam r) 19 3) || bitsW r 47 17 != 0

/-- A cluster with two masters, or with a slave and no master (R172). -/
def clusterBad (rs : List W64) : Bool :=
  let bundled := rs.filter fun r => cellMode r == 2
  let masters := (bundled.filter fun r => bitOf (cellParam r) 7).length
  2 ≤ masters || (masters == 0 && bundled.any fun r => bitOf (cellParam r) 8)

/-- The code that refuses a frame of a sector as it arrives; 0 if none (R510). -/
def frameRefusal (sec f : Nat) (ws : List W64) (s : State) : Nat :=
  if f < 128 then
    if ws.any cellBad || ((upFrom 0 8).any fun k => clusterBad ((ws.drop (8 * k)).take 8)) then Code.cellBad else 0
  else if f < 414 then
    match Config.routeVerdict f ws with
    | 0 => Code.ok
    | 1 => Code.routeMultiDriver
    | 2 => Code.routePair
    | _ => Code.recordBad
  else if f = 414 then
    if 256 ≤ (wordAt ws 0).toNat ∨ (ws.drop 1).any (· != 0) then Code.recordBad else 0
  else
    let others := s.frames.filter fun e => e.1 / 26624 == sec && e.1 / 64 % 416 != 415
    if Config.borderVerdict sec ws others then Code.borderBad else 0

/-- The words of a frame in force. -/
def frameWrite (sec f : Nat) (ws : List W64) (s : State) : State :=
  let one (t : Tab W64) (k : Nat) : Tab W64 := Tab.set 0 t ((sec * 416 + f) * 64 + k) (wordAt ws k)
  { s with frames := (upFrom 0 64).foldl one s.frames }

/-- A PARTIAL stream's border frame, kept until the exit (R528). -/
def borderKeep (sec : Nat) (ws : List W64) (s : State) : State :=
  let one (t : Tab W64) (k : Nat) : Tab W64 := Tab.set 0 t (sec * 64 + k) (wordAt ws k)
  { s with ldr := { s.ldr with border := (upFrom 0 64).foldl one s.ldr.border } }

/-- A frame noted as written (R531). -/
def frameNoted (sec f : Nat) (s : State) : State :=
  { s with ldr := { s.ldr with wrote := Tab.set 0 s.ldr.wrote sec (Tab.get 0 s.ldr.wrote sec ||| 2 ^ f) } }

/-- A sector enters the darkroom (R528), and its planned substitutions are made (R600). -/
def darkroom (sec : Nat) (s : State) : State :=
  if !s.ldrPartial || s.ldr.entered.contains sec then s
  else
    let s := sectorPinsSafe sec (enterDark sec s)
    let s := fixPlannedHere (fun e => spInSector e && spScope e == sec) s
    showHealth { s with ldr := { s.ldr with entered := s.ldr.entered ++ [sec] } }

/-- Frames from F on, one after another: a failing one is not written, and what came before it stands. -/
def framesApply (sec : Nat) : Nat → List (List W64) → State → Applied
  | _, [], s => (s, 0, 0)
  | f, ws :: rest, s =>
    let c := frameRefusal sec f ws s
    if c ≠ 0 then (s, c, sec + f * 2 ^ 7)
    else
      let s := if f = 415 ∧ s.ldrPartial then borderKeep sec ws s else frameWrite sec f ws s
      framesApply sec (f + 1) rest (frameNoted sec f s)

/-- Does a PARTIAL stream's mask lack a sector? -/
def State.maskLacks (s : State) (sec : Nat) : Bool := s.ldrPartial && !bitOf (s.leaderField 56 10) sec

def framesForm (h : W64) (s : State) : Bool :=
  let sec := bitsW h 16 7
  let n := bitsW h 32 9
  sec < 80 && 1 ≤ n && bitsW h 23 9 + n ≤ 416 && bitsW h 41 23 == 0 && !(s.recordMine && s.maskLacks sec)

/-- FRAMES (R502, R510). -/
def frames (s : State) : State :=
  record 1 framesForm (fun h => 512 * bitsW h 32 9) (fun h bs s =>
    let sec := bitsW h 16 7
    let n := bitsW h 32 9
    framesApply sec (bitsW h 23 9) (pieces 64 n (wordsLE (64 * n) bs)) (darkroom sec s)) s

def execFramesRecord (s : State) : Out := .next (frames s)

/-! ### Banks and engine memories (R502, R512, R530) -/

def bankForm (h : W64) (s : State) : Bool :=
  let n := bitsW h 36 10
  bitsW h 16 11 < 1280 && 1 ≤ n && bitsW h 27 9 + n ≤ 512 && bitsW h 46 18 == 0
    && !(s.recordMine && s.maskLacks (bitsW h 16 11 / 16))

/-- The words of a BANK record: in a darkroom a bound bank, or one that is not ON, ends the load. -/
def bankApply (h : W64) (bs : List Byte) (s : State) : Applied :=
  let b := bitsW h 16 11
  let s := darkroom (b / 16) s
  if s.ldrPartial ∧ s.flag Fld.bnkStatQbound b then (s, Code.queueBound, 0)
  else if s.ldrPartial ∧ s.fld Fld.bnkStatPstate b ≠ 0 then (s, Code.bnkAsleep, 0)
  else
    let s := if s.ldrPartial ∧ !s.ldr.banks.contains b then { s with ldr := { s.ldr with banks := s.ldr.banks ++ [b] } } else s
    (bankWrites b (bitsW h 27 9) (wordsLE (bitsW h 36 10) bs) s, 0, 0)

/-- BANK_RECORD (R502). -/
def execBankRecord (s : State) : Out := .next (record 2 bankForm (fun h => 8 * bitsW h 36 10) bankApply s)

def ememForm (h : W64) (s : State) : Bool :=
  let room := if bitsW h 23 1 = 1 then 8192 else 4096
  bitsW h 16 7 < 96 && bitsW h 24 13 + bitsW h 37 14 ≤ room && bitsW h 51 13 == 0 && !(s.recordMine && s.ldrPartial)

/-- Words written to an engine memory, from a BAR2 offset on. -/
def ememWrite : Nat → List W64 → State → State
  | _, [], s => s
  | a, v :: vs, s => ememWrite (a + 8) vs (engWrite a v 255 s)

/-- EMEM (R502). -/
def execEmemRecord (s : State) : Out :=
  .next (record 3 ememForm (fun h => 8 * bitsW h 37 14) (fun h bs s =>
    let n := bitsW h 16 7
    let base := if bitsW h 23 1 = 1 then dmemBase n else imemBase n
    (ememWrite (base + 8 * bitsW h 24 13) (wordsLE (bitsW h 37 14) bs) s, 0, 0)) s)

/-! ### REG records (R504, R505) -/

/-- Is an offset one that REG may write? -/
def regAllowed (off : Nat) : Bool :=
  (0x60000 ≤ off && off < 0xE0000) || (0xE0800 ≤ off && off < 0xE0940) || (0xF0800 ≤ off && off < 0xF1040)

/-- The registers with a field that waits for a step: 1 QUE_CTL, 2 ENG_CTL, 3 STW_SPORT_CFG; 0 another. -/
def laterKind (off : Nat) : Nat :=
  match RegMap.find off with
  | some (r, _) => if r.base = Reg.queCtl.base then 1 else if r.base = Reg.engCtl.base then 2
      else if r.base = Reg.stwSportCfg.base then 3 else 0
  | none => 0

/-- The fields of such a register that do not wait. -/
def regRest (off : Nat) (v : W64) (s : State) : State :=
  match RegMap.find off with
  | some (_, i, _) =>
    match laterKind off with
    | 1 =>
      let s := if bitsW v 2 1 = 1 then queCntClr i s else s
      if bitsW v 1 1 = 1 then queFlush i s else s
    | 2 =>
      let s := s.setFld Fld.engCtlNoteEn (bitsW v 2 1) i
      if bitsW v 1 1 = 1 then engineCntClr i s else s
    | 3 => sportCfgWrite i (putBits v 1 1 (s.fld Fld.stwSportCfgInEn i)) s
    | _ => s
  | none => s

/-- One register's word or words written by the loader; the field that waits is noted. -/
def regApply (off : Nat) (v : W64) (s : State) : State :=
  if laterKind off = 0 then writeAt .loader off v s
  else
    let s := regRest off v s
    { s with ldr := { s.ldr with later := s.ldr.later ++ [(off, v.setWidth 32)] } }

/-- The engine whose registers an offset lies among. -/
def offEngine (off : Nat) : Nat := (off - 0x80000) / 0x1000

/-- The state with the refusal records that a REG word can meet empty. -/
def noRefusals (off : Nat) (s : State) : State :=
  ((s.setReg Reg.bnkRefuse 0).setReg Reg.engRefuse 0 (offEngine off)).setReg Reg.wtuDeny 0

/-- The code with which a register refuses a write; 0 if it does not. -/
def regRefusal (off : Nat) (v : W64) (s : State) : Nat :=
  let t := regApply off v (noRefusals off s)
  if t.flag Fld.bnkRefuseValid then t.fld Fld.bnkRefuseCode
  else if t.flag Fld.engRefuseValid (offEngine off) then t.fld Fld.engRefuseCode (offEngine off)
  else if t.flag Fld.wtuDenyValid then t.fld Fld.wtuDenyCode
  else 0

/-- Words written to consecutive offsets, a 64-bit register's two together; the first refusal ends them. -/
def regWords : List (Nat × W32) → State → Applied
  | [], s => (s, 0, 0)
  | (off, v) :: rest, s =>
    if wideAt off then
      match rest with
      | (_, u) :: rest =>
        let x := u.setWidth 64 <<< 32 ||| v.setWidth 64
        let c := regRefusal off x s
        let s := regApply off x s
        if c ≠ 0 then (s, Code.regRefused, c) else regWords rest s
      | [] => (s, 0, 0)
    else
      let c := regRefusal off (v.setWidth 64) s
      let s := regApply off (v.setWidth 64) s
      if c ≠ 0 then (s, Code.regRefused, c) else regWords rest s

def regForm (h : W64) (_ : State) : Bool := bitsW h 16 24 % 4 == 0 && 1 ≤ bitsW h 40 8 && bitsW h 48 16 == 0

/-- Does an offset name the high word of a 64-bit register? -/
def highAt (off : Nat) : Bool := 4 ≤ off && wideAt (off - 4)

/-- The words of a REG record with their offsets. -/
def regPairs (off n : Nat) (bs : List Byte) : List (Nat × W32) :=
  (upFrom 0 n).map fun k => (off + 4 * k, BitVec.ofNat 32 (natLE ((bs.drop (4 * k)).take 4)))

/-- REG_RECORD (R504, R505). -/
def regRecord (h : W64) (bs : List Byte) (s : State) : Applied :=
  let off := bitsW h 16 24
  let n := bitsW h 40 8
  let l := regPairs off n bs
  if l.any fun e => !regAllowed e.1 then (s, Code.regRange, 0)
  else if highAt off || wideAt (off + 4 * n - 4) || (bs.drop (4 * n)).any (· != 0) then (s, Code.recordBad, 0)
  else if s.ldrPartial then
    let held := s.ldr.held ++ l
    if 256 < held.length then (s, Code.recordBad, 0) else ({ s with ldr := { s.ldr with held := held } }, 0, 0)
  else regWords l s

def execRegRecord (s : State) : Out :=
  .next (record 4 regForm (fun h => 8 * ((bitsW h 40 8 + 1) / 2)) regRecord s)

/-! ### Sections, END and segments (R502, R510, R514, R515, R523) -/

def sectionForm (h : W64) (s : State) : Bool :=
  s.fld Fld.ldrStatClass == 2 && s.ldr.sect.isNone && bitsW h 20 4 == 0 && bitsW h 24 40 % 8 == 0
    && s.ldr.body + 8 + bitsW h 24 40 ≤ s.leaderField 32 8

/-- SECTION (R523): its header opens it; the records that follow are taken one by one. -/
def sectionOpen (s : State) : State :=
  let t := ldrRefill s
  let h := wordAt (wordsLE 1 t.body) 0
  let l := bitsW h 24 40
  let before := t.ldr.body
  let t := record 5 sectionForm (fun _ => 0) (fun _ _ s => (s, 0, 0)) s
  if t.ldrState = 2 ∧ t.ldr.body = before + 8 ∧ l ≠ 0 then
    { t with ldr := { t.ldr with sect := some (l, bitsW h 16 4 == t.fld Fld.ldrChainIndex) } }
  else t

def execSectionRecord (s : State) : Out := .next (sectionOpen s)

/-- The sectors whose frames the stream wrote. -/
def State.sectorsWritten (s : State) : List Nat := (upFrom 0 80).filter fun k => Tab.get 0 s.ldr.wrote k != 0

/-- The frames with the border frames of the stream in force (R531). -/
def bordersTaken (s : State) : State :=
  let l := s.sectorsWritten.filter fun k => bitOf (Tab.get 0 s.ldr.wrote k) 415
  let s := l.foldl (fun s k => frameWrite k 415 ((upFrom 0 64).map fun i => Tab.get 0 s.ldr.border (k * 64 + i)) s) s
  { s with ldr := { s.ldr with border := [] } }

/-- The configuration the checks at END judge. -/
def State.endFrames (s : State) : Tab W64 := if s.ldrPartial then (bordersTaken s).frames else s.frames

/-- END's checks: the classes, and every frame of a masked sector (R510, R531). -/
def endApply (s : State) : Applied :=
  let short := s.ldrPartial && (upFrom 0 80).any fun k =>
    bitOf (s.leaderField 56 10) k && Tab.get 0 s.ldr.wrote k != 2 ^ 416 - 1
  if Config.classVerdict s.sectorsWritten s.endFrames then (s, Code.routeClass, 0)
  else if short then (s, Code.sectorIncomplete, 0)
  else (s, 0, 0)

def endForm (h : W64) (s : State) : Bool := h == 6 && s.ldr.sect.isNone && s.ldr.body + 8 == s.leaderField 32 8

/-- END_RECORD (R502, R510). -/
def endRecord (s : State) : State :=
  let t := record 6 endForm (fun _ => 0) (fun _ _ s => endApply s) s
  if t.ldrState = 2 ∧ t.ldr.body = t.leaderField 32 8 ∧ s.ldr.body < t.ldr.body then
    { t.setLdrState 3 with ldr := { t.ldr with ended := true } }
  else t

def execEndRecord (s : State) : Out := .next (endRecord s)

/-- The key of segment 0: the slot's, or an empty slot's (log entry 16). -/
def State.streamKey (s : State) : List Byte :=
  let k := s.leaderField 12 1
  if s.flag Fld.wtuKeyCtlSet k then (s.slotKey k).flatMap fun w => bytesLE 4 w.toNat
  else bytesLE 32 (Config.emptyKey k).toNat

/-- The key of the segment after (R515). -/
def nextKey (key : List Byte) (i : Nat) : List Byte :=
  let c (b : Nat) : List Byte := BitVec.ofNat 8 b :: (List.replicate 11 0 ++ bytesLE 4 i)
  aesBlock key (c 1) ++ aesBlock key (c 2)

/-- Segment i's IV: bytes 8 to 11 of the leader's, exclusive or i. -/
def segmentIv (iv : List Byte) (i : Nat) : List Byte :=
  iv.take 8 ++ List.zipWith (· ^^^ ·) ((iv.drop 8).take 4) (bytesLE 4 i)

/-- SEGMENT_TAG (R514, R515): the next segment's tag verified, its plaintext passed on. -/
def segmentTag (s : State) : State :=
  let s := ldrRefill s
  let i := s.ldr.seg
  let n := min 262144 (s.leaderField 32 8 - 262144 * i)
  if s.ldrState ≠ 2 || !s.ldrEnc || s.loadHeld || n == 0 || s.ldr.raw.length < n + 16 then s
  else
    let l := s.leaderBytes
    let key := if i = 0 then s.streamKey else nextKey s.ldr.key i
    let aad := (if i = 0 then l else []) ++ bytesLE 4 i ++ (l.drop 20).take 4
    let (plain, ok) := gcmOpen key (segmentIv ((l.drop 40).take 12) i) aad (s.ldr.raw.take n) ((s.ldr.raw.drop n).take 16)
    if ok then
      let s := ldrEat (n + 16) s
      { s with ldr := { s.ldr with plain := s.ldr.plain ++ plain, seg := i + 1, key := key } }
    else loadFails Code.tagFail 0 s

def execSegmentTag (s : State) : Out := .next (segmentTag s)

/-! ### The trailer, and how a stream ends early (R495, R506, R531) -/

/-- The clock taps of a sector that are not off (R174, R507). -/
def showTaps (s : State) (k : Nat) : State :=
  let w := Tab.get 0 s.frames ((k * 416 + 414) * 64)
  s.setFld Fld.stwSecHoldTapActive ((upFrom 0 4).foldl (fun m i => m + b2n (bitsW w (2 * i) 2 != 0) * 2 ^ i) 0) k

/-- The exit of a PARTIAL stream's sectors begins: selects, border frames, held REG words, then the steps (R531). -/
def exitBegins (s : State) : State :=
  let s := bordersTaken s
  let s := s.ldr.entered.foldl showTaps s
  let held := s.ldr.held
  let (s, code, detail) := regWords held { s with ldr := { s.ldr with held := [] } }
  if code ≠ 0 then loadFails code detail s
  else { s.setLdrState 5 with ldr := { s.ldr with steps := leaderSteps s.leaderBytes, wave := 0 } }

/-- TRAILER (R506): the CRC and the constant; then GATE, or the exit. -/
def trailer (s : State) : State :=
  let s := ldrRefill s
  if s.ldrState ≠ 3 || s.ldr.bare || s.loadHeld || s.ldr.raw.length < 8 then s
  else
    let w := wordAt (wordsLE 1 s.ldr.raw) 0
    if bitsW w 0 32 ≠ crcEnd s.ldr.crc ∨ bitsW w 32 32 ≠ 0xC0F16E0D then loadFails Code.crcFail 0 s
    else
      let s := { s with ldr := { s.ldr with raw := s.ldr.raw.drop 8 } }
      let s := forwardEnd (s.setFlag Fld.arcSlotLoading false s.ldr.slot)
      if s.ldrPartial then exitBegins s else gateWait s

def execStreamTrailer (s : State) : Out := .next (trailer s)

/-- Has the present stream bytes to come? -/
def State.streamShort (s : State) : Bool :=
  s.ldrState == 1 || ((s.ldrState == 2 || s.ldrState == 3) && !s.ldr.bare && s.fld Fld.ldrProgValue < s.leaderField 24 8)

/-- The source ends before STREAM_LEN (R495): sources as in LDR_STAT; the archive's when its image has no byte left. -/
def sourceEnds (source : Nat) (s : State) : State :=
  let s := ldrRefill s
  let more := source = 1 ∧ s.ldr.slotAt < (Tab.get [] s.arc.images s.ldr.slot).length
  if !s.streamShort ∨ source ≠ s.ldrSource ∨ more then s else showHealth (ldrFail Code.streamShort s)

/-- STREAM_SOURCE_END (R495). -/
def execStreamSourceEnd (source : Fin 5) (s : State) : Out := .next (sourceEnds source.val s)

/-- STREAM_STALL_TIMEOUT (R495): the loader could take a byte, and none has come. -/
def streamStall (s : State) : State :=
  if !s.streamShort ∨ s.loadHeld ∨ s.ldrRoom = 0 then s else showHealth (ldrFail Code.streamStall s)

def execStreamStallTimeout (s : State) : Out := .next (streamStall s)

/-! ### GATE (R521) -/

/-- Does the start, the load or the wake under way wait under R42? -/
def State.stepsHeld (s : State) : Bool :=
  s.lead.held.contains .load || s.lead.held.contains .start || s.lead.held.contains .power

/-- GATE_HIGH (R521): the start-up steps begin; the new selects take effect together (R203). -/
def gateHigh (s : State) : State :=
  if s.ldrState ≠ 4 || s.stepsHeld then s
  else
    let s := (s.setFlag Fld.ldrStatGateIn true).setLdrState 5
    let s := (upFrom 0 80).foldl showTaps s
    let s := if s.phase = 0 then s else s.setPhase 8
    { s with ldr := { s.ldr with steps := s.ldr.order, wave := 0 } }

def execGateHigh (s : State) : Out := .next (gateHigh s)

/-- GATE_TIMEOUT (R521): GATE is pulled again. -/
def execGateTimeout (s : State) : Out :=
  .next (if s.ldrState = 4 then showHealth (pullGate (ldrFail Code.gateTimeout s)) else s)

/-! ### The start-up steps (R519, R520, R531, R534, R638) -/

/-- Whose steps wait: 0 nobody's, 1 the device's, 2 those of sectors that leave the darkroom, 3 a wake's from safelight. -/
def State.stepKind (s : State) : Nat :=
  if s.ldr.steps = [] ∨ s.stepsHeld then 0
  else if s.ldrState = 5 then (if s.ldrPartial then 2 else 1)
  else if s.fld Fld.pwrStateCur = 5 then
    (if s.pwr.entering = 2 ∧ s.lead.underWay.contains .power then 3 else 0)
  else if s.loading then 0 else 2

/-- The step that comes next: 1 OUTS, 2 WRITES, 3 RESETS; 0 none. -/
def State.nextStep (s : State) : Nat :=
  match s.ldr.steps with
  | [] => 0
  | x :: _ => if s.stepKind = 0 then 0 else x.1

/-- The sectors whose holds the steps lift: a failed one stays held (R603), and a wake leaves what a load's failure holds. -/
def State.stepSectors (s : State) : List Nat :=
  match s.stepKind with
  | 2 => s.ldr.entered
  | 3 => (upFrom 0 80).filter fun k => !s.flag Fld.stwSecHealthFailed k && !s.darkOrHeld k
  | _ => (upFrom 0 80).filter fun k => !s.flag Fld.stwSecHealthFailed k

/-- A step of the whole device completed, in LDR_STAT.STEPS. -/
def stepShown (k : Nat) (s : State) : State := s.setFld Fld.ldrStatSteps (s.fld Fld.ldrStatSteps ||| 2 ^ k)

/-- Sectors leave the darkroom: their ports open, and a URST written meanwhile takes effect (R193, R228, R531). -/
def sectorsLeave (l : List Nat) (s : State) : State :=
  let one (s : State) (k : Nat) : State :=
    let s := (s.setFlag Fld.stwSecHoldDark false k).setFlag Fld.stwSportStatDark false k
    let on := s.flag Fld.stwSecHoldUrst k
    if s.flag Fld.stwSecHoldUrstAct k == on then s else applyUrst k on s
  let s := l.foldl one s
  { s with ldr := { s.ldr with entered := [] } }

/-- A load has completed its last step (R520, R535): its CRCs, LOADS, LOAD_DONE. -/
def loadDone (l : List Nat) (s : State) : State :=
  let s := l.foldl (fun s k => s.setFld Fld.ldrSecCrcValue (s.sectorCrc k) k) s
  (s.bump Fld.ldrStatLoads).setLdrState 6

/-- The notice of the last step. -/
def doneNotice (s : State) : State := s.noticeIf (s.flag Fld.ldrCfgNoteEn) Code.loadDone 0

/-- A counted start that is DONE succeeds, or waits for its confirmation (R585). -/
def startDone (s : State) : State :=
  let was := s.phase != 0
  let s := (s.setPhase 0).dropAction .start
  if s.sta.counted then
    if s.fld Fld.stwBootConfirmTmo = 0 then startSucceeds s else { s with sta := { s.sta with confirm := true } }
  else if was then s.setFlag Fld.stwBootConfirmed true
  else s

/-- A successful load from another source than the archive ends EXHAUSTED (R587). -/
def exhaustedEnds (s : State) : State :=
  if s.flag Fld.stwBootExhausted ∧ s.ldrSource ≠ 1 then
    bootSave (((s.setFlag Fld.stwBootExhausted false).setFld Fld.stwBootWarmFails 0).setFld Fld.stwBootColdFails 0)
  else s

/-- The last step of a start or of a FULL or MULTI load. -/
def deviceDone (s : State) : State :=
  let bare := s.ldr.bare
  let s := if bare then s.setLdrState 6
    else exhaustedEnds ((loadDone (upFrom 0 80) (s.setHeldMask 0)).dropAction .load)
  startDone (doneNotice { s with ldr := { s.ldr with bare := false, later := [] } })

/-- The last step of sectors that leave the darkroom, after a load or after DISCARD. -/
def sectorsDone (s : State) : State :=
  let l := s.ldr.entered
  let s := sectorsLeave l s
  let s := if s.ldrState = 5 then doneNotice (loadDone s.sectorsWritten s) else s
  showHealth { s with ldr := { s.ldr with later := [] } }

/-- A step is complete; after the last one, what it was for is done. -/
def stepDone (s : State) : State :=
  let kind := s.stepKind
  let s := { s with ldr := { s.ldr with steps := s.ldr.steps.drop 1, wave := 0 } }
  if s.ldr.steps ≠ [] then s
  else if kind = 1 then deviceDone s
  else if kind = 2 then sectorsDone s
  else s

/-- STARTUP_OUTS (R520). -/
def startupOuts (s : State) : State :=
  if s.nextStep ≠ 1 then s
  else
    let l := s.stepSectors
    let kind := s.stepKind
    let s := l.foldl (fun s k => s.setFlag Fld.stwSecHoldOutHeld false k) s
    stepDone (if kind = 2 then l.foldl (fun s k => sectorPinsWake k s) s else pinsWake (stepShown 1 s))

def execStartupOuts (s : State) : Out := .next (startupOuts s)

/-- The words noted for one kind of register, in stream order. -/
def State.laterWords (s : State) (kind : Nat) : List (Nat × W32) := s.ldr.later.filter fun e => laterKind e.1 == kind

/-- The element of an array that an offset names. -/
def offIndex (off : Nat) : Nat := match RegMap.find off with | some (_, i, _) => i | none => 0

/-- QUE_CTL.EN as the stream has it. -/
def laterQueue (s : State) (e : Nat × W32) : State :=
  if bitsW e.2 0 1 = 1 then queEnable (offIndex e.1) s else queDisable (offIndex e.1) s

/-- A queue with EN runs at WRITES (R284), if its banks are ON (R271). -/
def queueRuns (s : State) (q : Nat) : State :=
  if !s.flag Fld.queCtlEn q || s.fld Fld.queStatState q != 0 then s
  else
    let b := queBank q
    if s.fld Fld.bnkStatPstate b ≠ 0 ∨ s.fld Fld.bnkStatPstate (b + 1) ≠ 0 then s.refuseBank Code.bnkAsleep q 1
    else queStart q s

/-- STARTUP_WRITES (R520); a wake, and the start that ends one, wait for the banks (R638). -/
def startupWrites (s : State) : State :=
  let woken := s.fld Fld.pwrStateCur = 5 ∨ s.fld Fld.stwRstCauseCause = 6
  if s.nextStep ≠ 2 ∨ (woken ∧ s.banksWaking) then s
  else
    let l := s.stepSectors
    let kind := s.stepKind
    let s := l.foldl (fun s k => s.setFlag Fld.stwSecHoldWrHeld false k) s
    let s :=
      if kind = 2 then { s with ldr := { s.ldr with banks := s.ldr.banks.filter fun b => !l.contains (b / 16) } }
      else if kind = 1 then { s with ldr := { s.ldr with allBanks := false, banks := [] } }
      else { s with ldr := { s.ldr with allBanks := false } }
    let s := (s.laterWords 1).foldl laterQueue s
    let s := if kind = 2 then s else stepShown 2 ((upFrom 0 160).foldl queueRuns s)
    stepDone ((upFrom 0 160).foldl (fun s q => if s.queRuns q then queSettle q s else s) s)

def execStartupWrites (s : State) : Out := .next (startupWrites s)

/-- STW_SPORT_CFG.IN_EN as the stream has it. -/
def laterPort (s : State) (e : Nat × W32) : State :=
  if offIndex e.1 < 80 then s.setFld Fld.stwSportCfgInEn (bitsW e.2 1 1) (offIndex e.1) else s

/-- ENG_CTL.EN as the stream has it. -/
def laterEngine (s : State) (e : Nat × W32) : State :=
  if bitsW e.2 0 1 = 1 then engineEnable (offIndex e.1) s else engineDisable (offIndex e.1) s

/-- At the RESETS step of a warm start, every context's PC is ENTRY and its registers are 0 (R356). -/
def contextsReset (s : State) : State :=
  let s := { s with ctxs := [] }
  (upFrom 0 96).foldl (fun s n => (upFrom 0 4).foldl (fun s c =>
    s.setFld Fld.engCtxPcPc (s.fld Fld.engCtxVecEntry n c) n c) s) s

/-- An engine with EN runs (R356). -/
def engineStarts (s : State) (n : Nat) : State :=
  if s.flag Fld.engCtlEn n && s.fld Fld.engStatState n == 0 && !s.flag Fld.engStatRetired n then engineRun n s else s

/-- What RESETS starts once the last cells are released. -/
def resetsStart (s : State) : State :=
  match s.stepKind with
  | 1 =>
    let s := if s.flag Fld.stwRstCauseKind ∧ s.phase ≠ 0 then contextsReset s else s
    let s := (s.laterWords 3).foldl laterPort s
    let s := (s.laterWords 2).foldl laterEngine s
    let s := ringsWake ((upFrom 0 96).foldl engineStarts s)
    railSettle 1 (railSettle 0 (stepShown 3 s))
  | 2 => (s.laterWords 2).foldl laterEngine ((s.laterWords 3).foldl laterPort s)
  | 3 => stepShown 3 ((upFrom 0 96).foldl (fun s n => engineWakes n s) s)
  | _ => s

/-- The cells of a sector released. -/
def resetLifted (s : State) (k : Nat) : State := releaseSector (s.setFlag Fld.stwSecHoldRstHeld false k) k

/-- RST_WAVE of the leader in force, in µs (R519). -/
def State.wavePeriod (s : State) : Nat := if s.stepKind = 2 then s.leaderField 54 2 else s.ldr.period

/-- One column of sectors released: 0 to 4 West, 5 to 9 East. -/
def columnLifted (c : Nat) (s : State) : State :=
  (s.stepSectors.filter fun k => k / 40 == c / 5 && k % 40 / 8 == c % 5).foldl resetLifted s

/-- STARTUP_RESETS (R519, R520): every cell at once, or the first column of a wave. -/
def startupResets (s : State) : State :=
  if s.nextStep ≠ 3 ∨ s.ldr.wave ≠ 0 then s
  else if s.wavePeriod = 0 then stepDone (resetsStart (s.stepSectors.foldl resetLifted s))
  else
    let s := columnLifted 0 s
    { s with ldr := { s.ldr with wave := 1 } }

def execStartupResets (s : State) : Out := .next (startupResets s)

/-- RESET_WAVE_COLUMN (R519): the next column; the step is complete with the last. -/
def resetColumn (s : State) : State :=
  let c := s.ldr.wave
  if s.nextStep ≠ 3 ∨ c = 0 then s
  else
    let s := columnLifted c s
    if 9 ≤ c then stepDone (resetsStart s) else { s with ldr := { s.ldr with wave := c + 1 } }

def execResetWaveColumn (s : State) : Out := .next (resetColumn s)

end Sys2Proof.Machine
end

