-- ==== Sys2Proof/Machine/Jtag.lean ====
section
/-! DEFINITION. The test access port (17_electrical_and_package R700 to R704; 11_translation_and_protection R479). A command loads an instruction
and, where the instruction has a data register, performs one scan of it. -/

namespace Sys2Proof.Machine

/-- The port's fields. -/
def State.setJtag (s : State) (j : Jtag) : State := { s with jtag := j }

/-- An instruction loaded: CFG_LOAD left behind ends its source (R495), and EXTEST its drive (R704). -/
def jtagInstr (ir : Nat) (s : State) : State :=
  let s := if s.jtag.ir = 0x20 ∧ ir ≠ 0x20 then sourceEnds 3 s else s
  s.setJtag { s.jtag with ir := ir, extest := s.jtag.extest && ir == 0, opened := s.jtag.opened && ir == 0x20 }

/-- JTAG_RESET (R700): the port holds IDCODE. -/
def jtagReset (s : State) : State :=
  let s := jtagInstr 2 s
  s.setJtag { s.jtag with dr := 0x1096A7CB }

def execJtagReset (s : State) : Out := .next (jtagReset s)

/-- May EXTEST drive the balls: every sector held before the OUTS step of a start, or after a failed FULL or MULTI load? (R704) -/
def State.extestMay (s : State) : Bool := s.allHeld && !s.outsDone && !s.asleep

/-- Does it drive them now? -/
def State.extestDrives (s : State) : Bool := s.jtag.extest && s.extestMay

/-- The boundary register captured and updated. -/
def boundary (ir balls shifted : Nat) (s : State) : State :=
  let s := jtagInstr ir s
  s.setJtag { s.jtag with capture := balls, preload := shifted }

/-- EXTEST (R701, R704): where it may not drive the balls it acts as SAMPLE/PRELOAD. -/
def execJtagExtest (balls shifted : Nat) (s : State) : Out :=
  let s := boundary 0 balls shifted s
  .next (s.setJtag { s.jtag with extest := s.extestMay })

/-- SAMPLE_PRELOAD (R701). -/
def execJtagSamplePreload (balls shifted : Nat) (s : State) : Out := .next (boundary 1 balls shifted s)

/-- IDCODE (R700). -/
def execJtagIdcode (s : State) : Out :=
  let s := jtagInstr 2 s
  .next (s.setJtag { s.jtag with dr := 0x1096A7CB })

/-- The codes with an instruction of their own. -/
def jtagCodes : List Nat := [0x00, 0x01, 0x02, 0x20, 0x21, 0x22]

/-- BYPASS (R701): 0xFF, and every code without an instruction. -/
def execJtagBypass (code : Byte) (s : State) : Out :=
  let s := jtagInstr (if jtagCodes.contains code.toNat then 0xFF else code.toNat) s
  .next (s.setJtag { s.jtag with dr := 0 })

/-- What a Quemos instruction answers once the debug port is disabled (R479, R702). -/
def debugOff (s : State) : State :=
  s.setJtag { s.jtag with code := Code.debugOff, refused := false, cause := 0, frame := [], dr := 0 }

/-- A Quemos instruction: loaded, and performed unless the debug port is disabled. -/
def quemos (ir : Nat) (f : State → State) (s : State) : State :=
  let s := jtagInstr ir s
  if s.flag Fld.wtuDebugDisable then debugOff s else f s

/-- The loader's failure code of a stream of JTAG, or 0 (R702). -/
def State.streamCode (s : State) : Nat := if s.ldrState = 7 ∧ s.ldrSource = 3 then s.fld Fld.ldrErrCode else 0

/-- Whole bytes of a stream shifted in: a link below Warden opens no source (R490). What the loader does not take now must be
shifted in again. -/
def cfgLoad (bs : List Byte) (s : State) : State :=
  if !s.warden .jtag then
    let s := s.deny Code.wardenOnly (s.ownerCode .jtag) 6 2
    s.setJtag { s.jtag with code := Code.wardenOnly }
  else if bs = [] then s.setJtag { s.jtag with code := s.streamCode }
  else
    let (s, t) := ldrOffer 3 none s.jtag.opened bs s
    match t with
    | .took _ => s.setJtag { s.jtag with opened := true, code := s.streamCode }
    | .beyond => s.setJtag { s.jtag with code := s.streamCode }
    | .refused c => s.setJtag { s.jtag with code := c }

/-- CFG_LOAD (R702). -/
def execCfgLoad (bs : List Byte) (s : State) : Out := .next (quemos 0x20 (cfgLoad bs) s)

/-- A frame copied under the rules of R536. -/
def cfgRead (sel : Nat) (s : State) : State :=
  let sec := bitsOf sel 0 7
  let f := bitsOf sel 7 9
  let c := s.readbackCause sec f
  let ws := if c = 0 then s.frameWords sec f 1 else List.replicate 64 0
  s.setJtag { s.jtag with code := Code.ok, refused := c != 0, cause := c, frame := ws }

/-- CFG_READ (R702). -/
def execCfgRead (sel : BitVec 16) (s : State) : Out := .next (quemos 0x21 (cfgRead sel.toNat) s)

/-- The refusal records of the blocks. -/
def refuseRegs : List Reg :=
  [Reg.tbRefuse, Reg.evtRefuse, Reg.bnkRefuse, Reg.clkRefuse, Reg.rngRefuse, Reg.arcRefuse, Reg.pwrRefuse, Reg.pinRefuse]

/-- The code with which an access at an offset is refused, read off the blocks' own records; 0 if none takes one (R15). -/
def refusalOf (off : Nat) (f : State → State) (s : State) : Nat :=
  let clear := refuseRegs.foldl (fun s r => s.setReg r 0) (noRefusals off s)
  let t := f clear
  if t.flag Fld.wtuDenyValid then t.fld Fld.wtuDenyCode
  else if t.flag Fld.engRefuseValid (offEngine off) then t.fld Fld.engRefuseCode (offEngine off)
  else match refuseRegs.find? fun r => t.reg r != 0 with
    | some r => bitsW (t.reg r) 0 16
    | none => 0

/-- A word of BAR0, or a half of a word of BAR2, written for the JTAG link (R452, R702). -/
def setupWrite (bar2 : Bool) (off : Nat) (v : W32) (lost : Nat) (s : State) : State :=
  if !bar2 then
    if off < 0x1000000 then wordWrite .jtag off v false s else s.linked .jtag off State.accessError
  else if s.priv .jtag = 0 then s.denyLink .jtag
  else
    let high := off % 8 = 4
    hostWrite (off / 8 * 8) (if high then v.setWidth 64 <<< 32 else v.setWidth 64) (if high then 0xF0 else 0x0F)
      (s.ownerCode .jtag) (lostContests 208 lost s)

/-- The same read. -/
def setupRead (bar2 : Bool) (off : Nat) (lost : Nat) (s : State) : State × W64 :=
  if !bar2 then
    if off < 0x1000000 then wordRead .jtag off s else s.linkedRead .jtag off fun s => (s, 0)
  else if s.priv .jtag = 0 then (s.denyLink .jtag, 0)
  else
    let (s, v) := hostRead (off / 8 * 8) (lostContests 208 lost s)
    (s, if off % 8 = 4 then v >>> 32 else v &&& maskW 0 32)

/-- The answer the next capture holds: CODE and the data. -/
def setupAnswer (code : Nat) (v : W64) (s : State) : State :=
  s.setJtag { s.jtag with code := code, dr := v }

/-- SETUP_RW_READ (R702). -/
def execSetupRwRead (bar2 : Bool) (word : BitVec 23) (lost : Fin 4) (s : State) : Out :=
  let off := 4 * word.toNat
  .next (quemos 0x22 (fun s =>
    let code := if s.priv .jtag = 0 then Code.wardenOnly else Code.ok
    let (s, v) := setupRead bar2 off lost.val s
    setupAnswer code v s) s)

/-- SETUP_RW_WRITE (R6, R702). -/
def execSetupRwWrite (bar2 : Bool) (word : BitVec 23) (v : W32) (lost : Fin 4) (s : State) : Out :=
  let off := 4 * word.toNat
  .next (quemos 0x22 (fun s =>
    let f := setupWrite bar2 off v lost.val
    setupAnswer (refusalOf off f s) 0 (f s)) s)

end Sys2Proof.Machine
end

