-- ==== Sys2Proof/Machine/KellRows.lean ====
section
/-! DEFINITION. The operations of the Kell instruction set, one meaning for each: engine n's current context issues its
next bundle, which holds the operation in either place (09_kell_instruction_set R368 to R370). Where the bundle next to issue
holds another, nothing happens. -/

namespace Sys2Proof.Machine

/-- NOP (R368): No operation. -/
def execKNop (n : Fin 96) (s : State) : Out := .next (issue n.val .nop s)

/-- ADD (R375): 64-bit wrapping addition. -/
def execKAdd (n : Fin 96) (s : State) : Out := .next (issue n.val .add s)

/-- SUB (R375): 64-bit wrapping subtraction. -/
def execKSub (n : Fin 96) (s : State) : Out := .next (issue n.val .sub s)

/-- AND (R375): Bitwise AND. -/
def execKAnd (n : Fin 96) (s : State) : Out := .next (issue n.val .and_ s)

/-- OR (R375): Bitwise OR. -/
def execKOr (n : Fin 96) (s : State) : Out := .next (issue n.val .or_ s)

/-- XOR (R375): Bitwise exclusive OR. -/
def execKXor (n : Fin 96) (s : State) : Out := .next (issue n.val .xor s)

/-- SHL (R375): Left shift by gRB[5:0]. -/
def execKShl (n : Fin 96) (s : State) : Out := .next (issue n.val .shl s)

/-- SHR (R375): Logical right shift. -/
def execKShr (n : Fin 96) (s : State) : Out := .next (issue n.val .shr s)

/-- SAR (R375): Arithmetic right shift. -/
def execKSar (n : Fin 96) (s : State) : Out := .next (issue n.val .sar s)

/-- ROR (R375): Right rotate. -/
def execKRor (n : Fin 96) (s : State) : Out := .next (issue n.val .ror s)

/-- SLT (R375): Signed less-than test. -/
def execKSlt (n : Fin 96) (s : State) : Out := .next (issue n.val .slt s)

/-- SLTU (R375): Unsigned less-than test. -/
def execKSltu (n : Fin 96) (s : State) : Out := .next (issue n.val .sltu s)

/-- SEQ (R375): Equality test. -/
def execKSeq (n : Fin 96) (s : State) : Out := .next (issue n.val .seq s)

/-- MIN (R375): Signed minimum. -/
def execKMin (n : Fin 96) (s : State) : Out := .next (issue n.val .min s)

/-- MAX (R375): Signed maximum. -/
def execKMax (n : Fin 96) (s : State) : Out := .next (issue n.val .max s)

/-- MINU (R375): Unsigned minimum. -/
def execKMinu (n : Fin 96) (s : State) : Out := .next (issue n.val .minu s)

/-- MAXU (R375): Unsigned maximum. -/
def execKMaxu (n : Fin 96) (s : State) : Out := .next (issue n.val .maxu s)

/-- MUL (R375): Low 64 bits of the product. -/
def execKMul (n : Fin 96) (s : State) : Out := .next (issue n.val .mul s)

/-- MULH (R375): High 64 bits of the signed product. -/
def execKMulh (n : Fin 96) (s : State) : Out := .next (issue n.val .mulh s)

/-- MULHU (R375): High 64 bits of the unsigned product. -/
def execKMulhu (n : Fin 96) (s : State) : Out := .next (issue n.val .mulhu s)

/-- DIV (R376): Signed division toward zero, with divide-by-zero and overflow results. -/
def execKDiv (n : Fin 96) (s : State) : Out := .next (issue n.val .div s)

/-- DIVU (R376): Unsigned division. -/
def execKDivu (n : Fin 96) (s : State) : Out := .next (issue n.val .divu s)

/-- REM (R376): Signed remainder. -/
def execKRem (n : Fin 96) (s : State) : Out := .next (issue n.val .rem s)

/-- REMU (R376): Unsigned remainder. -/
def execKRemu (n : Fin 96) (s : State) : Out := .next (issue n.val .remu s)

/-- CLZ (R375): Count of leading zeros. -/
def execKClz (n : Fin 96) (s : State) : Out := .next (issue n.val .clz s)

/-- POPC (R375): Count of ones. -/
def execKPopc (n : Fin 96) (s : State) : Out := .next (issue n.val .popc s)

/-- ADDV (R375): Addition that raises IOV on signed overflow. -/
def execKAddv (n : Fin 96) (s : State) : Out := .next (issue n.val .addv s)

/-- SUBV (R375): Subtraction that raises IOV on signed overflow. -/
def execKSubv (n : Fin 96) (s : State) : Out := .next (issue n.val .subv s)

/-- CMOVNZ (R375): Conditional move when gRB is non-zero. -/
def execKCmovnz (n : Fin 96) (s : State) : Out := .next (issue n.val .cmovnz s)

/-- CMOVZ (R375): Conditional move when gRB is zero. -/
def execKCmovz (n : Fin 96) (s : State) : Out := .next (issue n.val .cmovz s)

/-- ADDI (R375): Add a sign-extended immediate. -/
def execKAddi (n : Fin 96) (s : State) : Out := .next (issue n.val .addi s)

/-- ANDI (R375): AND with a zero-extended immediate. -/
def execKAndi (n : Fin 96) (s : State) : Out := .next (issue n.val .andi s)

/-- ORI (R375): OR with a zero-extended immediate. -/
def execKOri (n : Fin 96) (s : State) : Out := .next (issue n.val .ori s)

/-- XORI (R375): XOR with a zero-extended immediate. -/
def execKXori (n : Fin 96) (s : State) : Out := .next (issue n.val .xori s)

/-- SLTI (R375): Signed less-than against an immediate. -/
def execKSlti (n : Fin 96) (s : State) : Out := .next (issue n.val .slti s)

/-- SLTIU (R375): Unsigned less-than against an immediate. -/
def execKSltiu (n : Fin 96) (s : State) : Out := .next (issue n.val .sltiu s)

/-- SHI (R375): Shift or rotate by an immediate amount. -/
def execKShi (n : Fin 96) (s : State) : Out := .next (issue n.val .shi s)

/-- LDI (R375): Load a sign-extended immediate. -/
def execKLdi (n : Fin 96) (s : State) : Out := .next (issue n.val .ldi s)

/-- INSH (R375): Insert a 16-bit immediate into a register half-word. -/
def execKInsh (n : Fin 96) (s : State) : Out := .next (issue n.val .insh s)

/-- QADD (R377): Saturating Q32.32 addition. -/
def execKQadd (n : Fin 96) (s : State) : Out := .next (issue n.val .qadd s)

/-- QSUB (R377): Saturating Q32.32 subtraction. -/
def execKQsub (n : Fin 96) (s : State) : Out := .next (issue n.val .qsub s)

/-- QMUL (R377): Rounded saturating Q32.32 multiplication. -/
def execKQmul (n : Fin 96) (s : State) : Out := .next (issue n.val .qmul s)

/-- QDIV (R377): Rounded saturating Q32.32 division. -/
def execKQdiv (n : Fin 96) (s : State) : Out := .next (issue n.val .qdiv s)

/-- QSHL (R377): Saturating fixed-point left shift by register. -/
def execKQshl (n : Fin 96) (s : State) : Out := .next (issue n.val .qshl s)

/-- QSHR (R377): Rounded arithmetic fixed-point right shift by register. -/
def execKQshr (n : Fin 96) (s : State) : Out := .next (issue n.val .qshr s)

/-- QABS (R377): Saturating fixed-point absolute value. -/
def execKQabs (n : Fin 96) (s : State) : Out := .next (issue n.val .qabs s)

/-- QNEG (R377): Saturating fixed-point negation. -/
def execKQneg (n : Fin 96) (s : State) : Out := .next (issue n.val .qneg s)

/-- QSHLI (R377): Saturating fixed-point left shift by an immediate. -/
def execKQshli (n : Fin 96) (s : State) : Out := .next (issue n.val .qshli s)

/-- QSHRI (R377): Rounded fixed-point right shift by an immediate. -/
def execKQshri (n : Fin 96) (s : State) : Out := .next (issue n.val .qshri s)

/-- FADD (R378): binary64 addition. -/
def execKFadd (n : Fin 96) (s : State) : Out := .next (issue n.val .fadd s)

/-- FSUB (R378): binary64 subtraction. -/
def execKFsub (n : Fin 96) (s : State) : Out := .next (issue n.val .fsub s)

/-- FMUL (R378): binary64 multiplication. -/
def execKFmul (n : Fin 96) (s : State) : Out := .next (issue n.val .fmul s)

/-- FDIV (R378): binary64 division. -/
def execKFdiv (n : Fin 96) (s : State) : Out := .next (issue n.val .fdiv s)

/-- FSQRT (R378): binary64 square root. -/
def execKFsqrt (n : Fin 96) (s : State) : Out := .next (issue n.val .fsqrt s)

/-- FMA (R378): Fused multiply-add, rounded once. -/
def execKFma (n : Fin 96) (s : State) : Out := .next (issue n.val .fma s)

/-- FMIN (R378): binary64 minimum. -/
def execKFmin (n : Fin 96) (s : State) : Out := .next (issue n.val .fmin s)

/-- FMAX (R378): binary64 maximum. -/
def execKFmax (n : Fin 96) (s : State) : Out := .next (issue n.val .fmax s)

/-- FNEG (R378): Sign inversion. -/
def execKFneg (n : Fin 96) (s : State) : Out := .next (issue n.val .fneg s)

/-- FABS (R378): Sign clear. -/
def execKFabs (n : Fin 96) (s : State) : Out := .next (issue n.val .fabs s)

/-- FEQ (R378): binary64 equality comparison. -/
def execKFeq (n : Fin 96) (s : State) : Out := .next (issue n.val .feq s)

/-- FLT (R378): binary64 less-than comparison. -/
def execKFlt (n : Fin 96) (s : State) : Out := .next (issue n.val .flt s)

/-- FLE (R378): binary64 less-or-equal comparison. -/
def execKFle (n : Fin 96) (s : State) : Out := .next (issue n.val .fle s)

/-- FROUND (R378): Round to an integral value under RM. -/
def execKFround (n : Fin 96) (s : State) : Out := .next (issue n.val .fround s)

/-- FCVT_FX (R379): Convert signed fixed point to binary64. -/
def execKFcvtFx (n : Fin 96) (s : State) : Out := .next (issue n.val .fcvtFx s)

/-- FCVT_XF (R379): Convert binary64 to signed fixed point. -/
def execKFcvtXf (n : Fin 96) (s : State) : Out := .next (issue n.val .fcvtXf s)

/-- FCVT_FXU (R379): Convert unsigned fixed point to binary64. -/
def execKFcvtFxu (n : Fin 96) (s : State) : Out := .next (issue n.val .fcvtFxu s)

/-- LDL (R380): Load from DMEM. -/
def execKLdl (n : Fin 96) (s : State) : Out := .next (issue n.val .ldl s)

/-- STL (R380): Store to DMEM. -/
def execKStl (n : Fin 96) (s : State) : Out := .next (issue n.val .stl s)

/-- LDML (R381): Load several words from DMEM. -/
def execKLdml (n : Fin 96) (s : State) : Out := .next (issue n.val .ldml s)

/-- STML (R381): Store several words to DMEM. -/
def execKStml (n : Fin 96) (s : State) : Out := .next (issue n.val .stml s)

/-- LD (R384): Translated load of one word, optionally with status. -/
def execKLd (n : Fin 96) (s : State) : Out := .next (issue n.val .ld s)

/-- ST (R384): Translated posted store, or WRITE_ACK with status. -/
def execKSt (n : Fin 96) (s : State) : Out := .next (issue n.val .st s)

/-- LDM (R385): Translated multi-word load within one 64-byte line. -/
def execKLdm (n : Fin 96) (s : State) : Out := .next (issue n.val .ldm s)

/-- STM (R385): Translated multi-word posted store. -/
def execKStm (n : Fin 96) (s : State) : Out := .next (issue n.val .stm s)

/-- ATOM_ADD (R386): Atomic ADD on a translated or local word. -/
def execKAtomAdd (n : Fin 96) (s : State) : Out := .next (issue n.val .atomAdd s)

/-- ATOM_SWAP (R386): Atomic SWAP on a translated or local word. -/
def execKAtomSwap (n : Fin 96) (s : State) : Out := .next (issue n.val .atomSwap s)

/-- MCPY (R387): Restartable word copy between local and translated memory. -/
def execKMcpy (n : Fin 96) (s : State) : Out := .next (issue n.val .mcpy s)

/-- BR (R389): Unconditional branch. -/
def execKBr (n : Fin 96) (s : State) : Out := .next (issue n.val .br s)

/-- BEQ (R389): Branch if equal. -/
def execKBeq (n : Fin 96) (s : State) : Out := .next (issue n.val .beq s)

/-- BNE (R389): Branch if not equal. -/
def execKBne (n : Fin 96) (s : State) : Out := .next (issue n.val .bne s)

/-- BLT (R389): Branch if signed less. -/
def execKBlt (n : Fin 96) (s : State) : Out := .next (issue n.val .blt s)

/-- BGE (R389): Branch if signed greater or equal. -/
def execKBge (n : Fin 96) (s : State) : Out := .next (issue n.val .bge s)

/-- BLTU (R389): Branch if unsigned less. -/
def execKBltu (n : Fin 96) (s : State) : Out := .next (issue n.val .bltu s)

/-- BGEU (R389): Branch if unsigned greater or equal. -/
def execKBgeu (n : Fin 96) (s : State) : Out := .next (issue n.val .bgeu s)

/-- BZ (R389): Branch if zero. -/
def execKBz (n : Fin 96) (s : State) : Out := .next (issue n.val .bz s)

/-- BNZ (R389): Branch if not zero. -/
def execKBnz (n : Fin 96) (s : State) : Out := .next (issue n.val .bnz s)

/-- CALL (R390): Link PC + 8 and branch. -/
def execKCall (n : Fin 96) (s : State) : Out := .next (issue n.val .call s)

/-- JR (R390): Jump to a register, optionally linking. -/
def execKJr (n : Fin 96) (s : State) : Out := .next (issue n.val .jr s)

/-- WAIT_TOKEN (R393): Wait until an input channel holds a token. -/
def execKWaitToken (n : Fin 96) (s : State) : Out := .next (issue n.val .waitToken s)

/-- WAIT_ROOM (R393): Wait until an output channel has room. -/
def execKWaitRoom (n : Fin 96) (s : State) : Out := .next (issue n.val .waitRoom s)

/-- WAIT_WAKE (R393): Wait for a wake and take its value. -/
def execKWaitWake (n : Fin 96) (s : State) : Out := .next (issue n.val .waitWake s)

/-- WAIT_COMPLETION (R393): Wait until the completion queue is not empty. -/
def execKWaitCompletion (n : Fin 96) (s : State) : Out := .next (issue n.val .waitCompletion s)

/-- WAIT_TIMER (R393): Wait until DT reaches a value. -/
def execKWaitTimer (n : Fin 96) (s : State) : Out := .next (issue n.val .waitTimer s)

/-- WAIT_XFER (R393): Wait until the context's transfer is not RUNNING. -/
def execKWaitXfer (n : Fin 96) (s : State) : Out := .next (issue n.val .waitXfer s)

/-- RECV (R394): Take the oldest token of an input channel, waiting if empty. -/
def execKRecv (n : Fin 96) (s : State) : Out := .next (issue n.val .recv s)

/-- SEND (R394): Send a token on an output channel, blocking or not. -/
def execKSend (n : Fin 96) (s : State) : Out := .next (issue n.val .send s)

/-- CHAV (R394): Read channel availability flags. -/
def execKChav (n : Fin 96) (s : State) : Out := .next (issue n.val .chav s)

/-- SNAP (R395): Coherent snapshot of up to four timebases into registers. -/
def execKSnap (n : Fin 96) (s : State) : Out := .next (issue n.val .snap s)

/-- TBW (R396): Software write to a SOFTWARE timebase. -/
def execKTbw (n : Fin 96) (s : State) : Out := .next (issue n.val .tbw s)

/-- EVSET (R397): Arm an event from four registers. -/
def execKEvset (n : Fin 96) (s : State) : Out := .next (issue n.val .evset s)

/-- EVCAN (R397): Cancel an event slot. -/
def execKEvcan (n : Fin 96) (s : State) : Out := .next (issue n.val .evcan s)

/-- TKWAKE (R398): Take a pending wake without waiting. -/
def execKTkwake (n : Fin 96) (s : State) : Out := .next (issue n.val .tkwake s)

/-- EVQ_HEAD (R398): Return the DMEM offset of the completion queue head entry. -/
def execKEvqHead (n : Fin 96) (s : State) : Out := .next (issue n.val .evqHead s)

/-- EVQ_POP (R398): Advance the completion queue's RD pointer. -/
def execKEvqPop (n : Fin 96) (s : State) : Out := .next (issue n.val .evqPop s)

/-- DACW (R399): Write a code to an AOUT output. -/
def execKDacw (n : Fin 96) (s : State) : Out := .next (issue n.val .dacw s)

/-- XFER_START (R402): Hand a block transfer to a mover. -/
def execKXferStart (n : Fin 96) (s : State) : Out := .next (issue n.val .xferStart s)

/-- XFER_RESUME (R402): Resume a STALLED transfer. -/
def execKXferResume (n : Fin 96) (s : State) : Out := .next (issue n.val .xferResume s)

/-- XFER_ABORT (R402): Abort a running or stalled transfer. -/
def execKXferAbort (n : Fin 96) (s : State) : Out := .next (issue n.val .xferAbort s)

/-- XFER_STATUS (R402): Read the transfer's state and bytes done. -/
def execKXferStatus (n : Fin 96) (s : State) : Out := .next (issue n.val .xferStatus s)

/-- RDDT (R400): Read the DT of the issuing cycle. -/
def execKRddt (n : Fin 96) (s : State) : Out := .next (issue n.val .rddt s)

/-- CSR_READ (R403): Read a control register. -/
def execKCsrRead (n : Fin 96) (s : State) : Out := .next (issue n.val .csrRead s)

/-- CSR_WRITE (R403): Write a control register, returning the old value. -/
def execKCsrWrite (n : Fin 96) (s : State) : Out := .next (issue n.val .csrWrite s)

/-- CSR_SET (R403): Set bits of a control register. -/
def execKCsrSet (n : Fin 96) (s : State) : Out := .next (issue n.val .csrSet s)

/-- CSR_CLEAR (R403): Clear bits of a control register. -/
def execKCsrClear (n : Fin 96) (s : State) : Out := .next (issue n.val .csrClear s)

/-- FENCE (R404): Wait before issue until every access and posted write is complete. -/
def execKFence (n : Fin 96) (s : State) : Out := .next (issue n.val .fence s)

/-- YIELD (R404): Give the engine to another READY context of equal priority. -/
def execKYield (n : Fin 96) (s : State) : Out := .next (issue n.val .yield s)

/-- HALT (R404): Stop the context at the next bundle. -/
def execKHalt (n : Fin 96) (s : State) : Out := .next (issue n.val .halt s)

/-- RFH (R411): Return from the fault handler to EPC. -/
def execKRfh (n : Fin 96) (s : State) : Out := .next (issue n.val .rfh s)

/-- CTXSTART (R404): Start another context of this engine. -/
def execKCtxstart (n : Fin 96) (s : State) : Out := .next (issue n.val .ctxstart s)

/-- CTXSTOP (R404): Stop a context of this engine. -/
def execKCtxstop (n : Fin 96) (s : State) : Out := .next (issue n.val .ctxstop s)

/-- PINR (R401): Read a word of field port input levels. -/
def execKPinr (n : Fin 96) (s : State) : Out := .next (issue n.val .pinr s)

end Sys2Proof.Machine
end

