-- ==== Sys2Proof/Machine/Dispatch.lean ====
section
/-! DEFINITION. One arm for each command: a direct call of its meaning. -/

namespace Sys2Proof.Machine

def exec (i : Instr) (s : State) : Host.Outcome State Fault Refusal :=
  match i with
  | .registerWrite w dword mask v => Sys2Proof.Machine.execRegisterWrite w dword mask v s
  | .shadowLowRead w off => Sys2Proof.Machine.execShadowLowRead w off s
  | .shadowLowWrite w off v => Sys2Proof.Machine.execShadowLowWrite w off v s
  | .shadowHighWrite w off v => Sys2Proof.Machine.execShadowHighWrite w off v s
  | .alarmAck w bits => Sys2Proof.Machine.execAlarmAck w bits s
  | .viewInterval goodWest goodEast claimWest claimEast => Sys2Proof.Machine.execViewInterval goodWest goodEast claimWest claimEast s
  | .handover w v => Sys2Proof.Machine.execHandover w v s
  | .deviceActionHoldTimeout => Sys2Proof.Machine.execDeviceActionHoldTimeout s
  | .stewardActionResume => Sys2Proof.Machine.execStewardActionResume s
  | .loadWindow h load => Sys2Proof.Machine.execLoadWindow h load s
  | .loadPeakClr w h => Sys2Proof.Machine.execLoadPeakClr w h s
  | .quadEdge n onB a b t => Sys2Proof.Machine.execQuadEdge n onB a b t s
  | .quadCountCommit n => Sys2Proof.Machine.execQuadCountCommit n s
  | .indexEdge n t => Sys2Proof.Machine.execIndexEdge n t s
  | .adcSample k sc cc t => Sys2Proof.Machine.execAdcSample k sc cc t s
  | .serialFrameStart n t => Sys2Proof.Machine.execSerialFrameStart n t s
  | .ssiFrameEnd n data parity silent => Sys2Proof.Machine.execSsiFrameEnd n data parity silent s
  | .qcsFrameEnd n start status pos seq crc silent => Sys2Proof.Machine.execQcsFrameEnd n start status pos seq crc silent s
  | .stepEdge n dir wide t => Sys2Proof.Machine.execStepEdge n dir wide t s
  | .zeroCrossing k rising t => Sys2Proof.Machine.execZeroCrossing k rising t s
  | .tbTimeoutExpiry n => Sys2Proof.Machine.execTbTimeoutExpiry n s
  | .tbposMsg lane idx seq p v a stamp good => Sys2Proof.Machine.execTbposMsg lane idx seq p v a stamp good s
  | .tetherMsgTimeout n => Sys2Proof.Machine.execTetherMsgTimeout n s
  | .timebaseUpdate => Sys2Proof.Machine.execTimebaseUpdate s
  | .coastLimitExpiry n => Sys2Proof.Machine.execCoastLimitExpiry n s
  | .tbEnable w n => Sys2Proof.Machine.execTbEnable w n s
  | .tbDisable w n => Sys2Proof.Machine.execTbDisable w n s
  | .presetGo w n => Sys2Proof.Machine.execPresetGo w n s
  | .gearGo w n => Sys2Proof.Machine.execGearGo w n s
  | .errcntClr w n => Sys2Proof.Machine.execErrcntClr w n s
  | .tbCfgWrite w n which v => Sys2Proof.Machine.execTbCfgWrite w n which v s
  | .tbAnaCalWrite w n v => Sys2Proof.Machine.execTbAnaCalWrite w n v s
  | .tbSnapGo w => Sys2Proof.Machine.execTbSnapGo w s
  | .tbSnapDone => Sys2Proof.Machine.execTbSnapDone s
  | .fabricArm k port cmd w0 w1 w2 w3 => Sys2Proof.Machine.execFabricArm k port cmd w0 w1 w2 w3 s
  | .fabricCancel k port cmd => Sys2Proof.Machine.execFabricCancel k port cmd s
  | .fabricReplyTaken k completion => Sys2Proof.Machine.execFabricReplyTaken k completion s
  | .schedPublication => Sys2Proof.Machine.execSchedPublication s
  | .eventFire n t => Sys2Proof.Machine.execEventFire n t s
  | .pulseEnd n t => Sys2Proof.Machine.execPulseEnd n t s
  | .widthLimitExpiry n t => Sys2Proof.Machine.execWidthLimitExpiry n t s
  | .eventExpiry n => Sys2Proof.Machine.execEventExpiry n s
  | .captureEdge k rising t => Sys2Proof.Machine.execCaptureEdge k rising t s
  | .captureWindowClose k => Sys2Proof.Machine.execCaptureWindowClose k s
  | .eventTokenDrain k => Sys2Proof.Machine.execEventTokenDrain k s
  | .calMeasureDone u => Sys2Proof.Machine.execCalMeasureDone u s
  | .calRoleSwap u => Sys2Proof.Machine.execCalRoleSwap u s
  | .calAgeExpiry u => Sys2Proof.Machine.execCalAgeExpiry u s
  | .evtKillGo w v => Sys2Proof.Machine.execEvtKillGo w v s
  | .evtCfgWrite w h v => Sys2Proof.Machine.execEvtCfgWrite w h v s
  | .evtCntClr w h => Sys2Proof.Machine.execEvtCntClr w h s
  | .evtSlotSel w slot => Sys2Proof.Machine.execEvtSlotSel w slot s
  | .slotCopyDone => Sys2Proof.Machine.execSlotCopyDone s
  | .evtLineCfgWrite w n v => Sys2Proof.Machine.execEvtLineCfgWrite w n v s
  | .evtCapCfgWrite w k v => Sys2Proof.Machine.execEvtCapCfgWrite w k v s
  | .handshakeWord c onZ => Sys2Proof.Machine.execHandshakeWord c onZ s
  | .cellToken n a b c d => Sys2Proof.Machine.execCellToken n a b c d s
  | .bundledTransfer n a b c d => Sys2Proof.Machine.execBundledTransfer n a b c d s
  | .arbiterRequest k side1 => Sys2Proof.Machine.execArbiterRequest k side1 s
  | .arbiterRelease k side1 => Sys2Proof.Machine.execArbiterRelease k side1 s
  | .sectorUrst w sec on => Sys2Proof.Machine.execSectorUrst w sec on s
  | .cellResetInput c on => Sys2Proof.Machine.execCellResetInput c on s
  | .spineRead p hd => Sys2Proof.Machine.execSpineRead p hd s
  | .spineWrite p hd data => Sys2Proof.Machine.execSpineWrite p hd data s
  | .spineWriteAck p hd data => Sys2Proof.Machine.execSpineWriteAck p hd data s
  | .spineAdd p hd v => Sys2Proof.Machine.execSpineAdd p hd v s
  | .spineSwap p hd v => Sys2Proof.Machine.execSpineSwap p hd v s
  | .spineMsg p hd v => Sys2Proof.Machine.execSpineMsg p hd v s
  | .spineHeaderAdmit p => Sys2Proof.Machine.execSpineHeaderAdmit p s
  | .transactionDelivery k lost taken => Sys2Proof.Machine.execTransactionDelivery k lost taken s
  | .spineResponse fabric k sec tag status data => Sys2Proof.Machine.execSpineResponse fabric k sec tag status data s
  | .sportTimeout sec tag => Sys2Proof.Machine.execSportTimeout sec tag s
  | .sportCntClr w p => Sys2Proof.Machine.execSportCntClr w p s
  | .sportPeakClr w p => Sys2Proof.Machine.execSportPeakClr w p s
  | .spinePeakClr w => Sys2Proof.Machine.execSpinePeakClr w s
  | .tokDestWrite w c v => Sys2Proof.Machine.execTokDestWrite w c v s
  | .bankAccessRead b hd lost => Sys2Proof.Machine.execBankAccessRead b hd lost s
  | .bankAccessWrite b ack hd data lost => Sys2Proof.Machine.execBankAccessWrite b ack hd data lost s
  | .bankAccessAdd b hd v lost => Sys2Proof.Machine.execBankAccessAdd b hd v lost s
  | .bankAccessSwap b hd v lost => Sys2Proof.Machine.execBankAccessSwap b hd v lost s
  | .hostBar2Read w word lost => Sys2Proof.Machine.execHostBar2Read w word lost s
  | .hostBar2Write w word v mask lost => Sys2Proof.Machine.execHostBar2Write w word v mask lost s
  | .bankOwnWrite w b v => Sys2Proof.Machine.execBankOwnWrite w b v s
  | .bankDrainDone b => Sys2Proof.Machine.execBankDrainDone b s
  | .bankRetentionRequest w b => Sys2Proof.Machine.execBankRetentionRequest w b s
  | .bankWakeRequest w b => Sys2Proof.Machine.execBankWakeRequest w b s
  | .bankEntryDone b => Sys2Proof.Machine.execBankEntryDone b s
  | .bankWakeDone b => Sys2Proof.Machine.execBankWakeDone b s
  | .parityInject w b => Sys2Proof.Machine.execParityInject w b s
  | .bankCntClr w b => Sys2Proof.Machine.execBankCntClr w b s
  | .confClr w => Sys2Proof.Machine.execConfClr w s
  | .qpush q v last => Sys2Proof.Machine.execQpush q v last s
  | .qpopWait q => Sys2Proof.Machine.execQpopWait q s
  | .qpopNow q => Sys2Proof.Machine.execQpopNow q s
  | .quePush q ack tag data => Sys2Proof.Machine.execQuePush q ack tag data s
  | .quePushEnd q ack tag data => Sys2Proof.Machine.execQuePushEnd q ack tag data s
  | .quePop q tag => Sys2Proof.Machine.execQuePop q tag s
  | .quePopTagged q tag => Sys2Proof.Machine.execQuePopTagged q tag s
  | .queFlush w q => Sys2Proof.Machine.execQueFlush w q s
  | .queEnable w q => Sys2Proof.Machine.execQueEnable w q s
  | .queEnableDone q => Sys2Proof.Machine.execQueEnableDone q s
  | .queDisable w q => Sys2Proof.Machine.execQueDisable w q s
  | .queStopDone q => Sys2Proof.Machine.execQueStopDone q s
  | .queWmWrite w q v => Sys2Proof.Machine.execQueWmWrite w q v s
  | .queCfgWrite w q v => Sys2Proof.Machine.execQueCfgWrite w q v s
  | .queCntClr w q => Sys2Proof.Machine.execQueCntClr w q s
  | .oscDelayExpiry xtal refin => Sys2Proof.Machine.execOscDelayExpiry xtal refin s
  | .rootSourceRetry xtal refin => Sys2Proof.Machine.execRootSourceRetry xtal refin s
  | .rootLock => Sys2Proof.Machine.execRootLock s
  | .refMissingEdge k => Sys2Proof.Machine.execRefMissingEdge k s
  | .freqWindow count agree ready => Sys2Proof.Machine.execFreqWindow count agree ready s
  | .pllUnlock => Sys2Proof.Machine.execPllUnlock s
  | .holdoverToIntosc => Sys2Proof.Machine.execHoldoverToIntosc s
  | .autoReturnStart => Sys2Proof.Machine.execAutoReturnStart s
  | .clkSrcSwitch w sel auto => Sys2Proof.Machine.execClkSrcSwitch w sel auto s
  | .rootSlewDone => Sys2Proof.Machine.execRootSlewDone s
  | .clkGateOn w g idle => Sys2Proof.Machine.execClkGateOn w g idle s
  | .clkGateAuto w g idle => Sys2Proof.Machine.execClkGateAuto w g idle s
  | .clkGateOff w g idle => Sys2Proof.Machine.execClkGateOff w g idle s
  | .clkGateIdleStop g => Sys2Proof.Machine.execClkGateIdleStop g s
  | .clkGateWake g => Sys2Proof.Machine.execClkGateWake g s
  | .clkGateStopDone g => Sys2Proof.Machine.execClkGateStopDone g s
  | .crossingRelease x items => Sys2Proof.Machine.execCrossingRelease x items s
  | .clkMinClr w => Sys2Proof.Machine.execClkMinClr w s
  | .clkCntClr w => Sys2Proof.Machine.execClkCntClr w s
  | .engineEnable w n => Sys2Proof.Machine.execEngineEnable w n s
  | .engineDisable w n => Sys2Proof.Machine.execEngineDisable w n s
  | .engineStopDone n => Sys2Proof.Machine.execEngineStopDone n s
  | .engineCntClr w n => Sys2Proof.Machine.execEngineCntClr w n s
  | .contextStart w n c => Sys2Proof.Machine.execContextStart w n c s
  | .contextStop w n c => Sys2Proof.Machine.execContextStop w n c s
  | .ctxPcWrite w n c v => Sys2Proof.Machine.execCtxPcWrite w n c v s
  | .ctxCfgWrite w n c v => Sys2Proof.Machine.execCtxCfgWrite w n c v s
  | .ctxEvqWrite w n c ptr v => Sys2Proof.Machine.execCtxEvqWrite w n c ptr v s
  | .ctxGregAccess w n c r write => Sys2Proof.Machine.execCtxGregAccess w n c r write s
  | .ochDestWrite w n k v => Sys2Proof.Machine.execOchDestWrite w n k v s
  | .contextSwitch n => Sys2Proof.Machine.execContextSwitch n s
  | .accessResponse k => Sys2Proof.Machine.execAccessResponse k s
  | .faultDelivery n => Sys2Proof.Machine.execFaultDelivery n s
  | .watchdogExpiry n c => Sys2Proof.Machine.execWatchdogExpiry n c s
  | .contextTimerExpiry n c => Sys2Proof.Machine.execContextTimerExpiry n c s
  | .longOpComplete n => Sys2Proof.Machine.execLongOpComplete n s
  | .engineTokenIn k => Sys2Proof.Machine.execEngineTokenIn k s
  | .engineMsgAdmit n => Sys2Proof.Machine.execEngineMsgAdmit n s
  | .outputChannelDrain n k => Sys2Proof.Machine.execOutputChannelDrain n k s
  | .evqBufferDrain n => Sys2Proof.Machine.execEvqBufferDrain n s
  | .xferEnd n c lost => Sys2Proof.Machine.execXferEnd n c lost s
  | .kNop n => Sys2Proof.Machine.execKNop n s
  | .kAdd n => Sys2Proof.Machine.execKAdd n s
  | .kSub n => Sys2Proof.Machine.execKSub n s
  | .kAnd n => Sys2Proof.Machine.execKAnd n s
  | .kOr n => Sys2Proof.Machine.execKOr n s
  | .kXor n => Sys2Proof.Machine.execKXor n s
  | .kShl n => Sys2Proof.Machine.execKShl n s
  | .kShr n => Sys2Proof.Machine.execKShr n s
  | .kSar n => Sys2Proof.Machine.execKSar n s
  | .kRor n => Sys2Proof.Machine.execKRor n s
  | .kSlt n => Sys2Proof.Machine.execKSlt n s
  | .kSltu n => Sys2Proof.Machine.execKSltu n s
  | .kSeq n => Sys2Proof.Machine.execKSeq n s
  | .kMin n => Sys2Proof.Machine.execKMin n s
  | .kMax n => Sys2Proof.Machine.execKMax n s
  | .kMinu n => Sys2Proof.Machine.execKMinu n s
  | .kMaxu n => Sys2Proof.Machine.execKMaxu n s
  | .kMul n => Sys2Proof.Machine.execKMul n s
  | .kMulh n => Sys2Proof.Machine.execKMulh n s
  | .kMulhu n => Sys2Proof.Machine.execKMulhu n s
  | .kDiv n => Sys2Proof.Machine.execKDiv n s
  | .kDivu n => Sys2Proof.Machine.execKDivu n s
  | .kRem n => Sys2Proof.Machine.execKRem n s
  | .kRemu n => Sys2Proof.Machine.execKRemu n s
  | .kClz n => Sys2Proof.Machine.execKClz n s
  | .kPopc n => Sys2Proof.Machine.execKPopc n s
  | .kAddv n => Sys2Proof.Machine.execKAddv n s
  | .kSubv n => Sys2Proof.Machine.execKSubv n s
  | .kCmovnz n => Sys2Proof.Machine.execKCmovnz n s
  | .kCmovz n => Sys2Proof.Machine.execKCmovz n s
  | .kAddi n => Sys2Proof.Machine.execKAddi n s
  | .kAndi n => Sys2Proof.Machine.execKAndi n s
  | .kOri n => Sys2Proof.Machine.execKOri n s
  | .kXori n => Sys2Proof.Machine.execKXori n s
  | .kSlti n => Sys2Proof.Machine.execKSlti n s
  | .kSltiu n => Sys2Proof.Machine.execKSltiu n s
  | .kShi n => Sys2Proof.Machine.execKShi n s
  | .kLdi n => Sys2Proof.Machine.execKLdi n s
  | .kInsh n => Sys2Proof.Machine.execKInsh n s
  | .kQadd n => Sys2Proof.Machine.execKQadd n s
  | .kQsub n => Sys2Proof.Machine.execKQsub n s
  | .kQmul n => Sys2Proof.Machine.execKQmul n s
  | .kQdiv n => Sys2Proof.Machine.execKQdiv n s
  | .kQshl n => Sys2Proof.Machine.execKQshl n s
  | .kQshr n => Sys2Proof.Machine.execKQshr n s
  | .kQabs n => Sys2Proof.Machine.execKQabs n s
  | .kQneg n => Sys2Proof.Machine.execKQneg n s
  | .kQshli n => Sys2Proof.Machine.execKQshli n s
  | .kQshri n => Sys2Proof.Machine.execKQshri n s
  | .kFadd n => Sys2Proof.Machine.execKFadd n s
  | .kFsub n => Sys2Proof.Machine.execKFsub n s
  | .kFmul n => Sys2Proof.Machine.execKFmul n s
  | .kFdiv n => Sys2Proof.Machine.execKFdiv n s
  | .kFsqrt n => Sys2Proof.Machine.execKFsqrt n s
  | .kFma n => Sys2Proof.Machine.execKFma n s
  | .kFmin n => Sys2Proof.Machine.execKFmin n s
  | .kFmax n => Sys2Proof.Machine.execKFmax n s
  | .kFneg n => Sys2Proof.Machine.execKFneg n s
  | .kFabs n => Sys2Proof.Machine.execKFabs n s
  | .kFeq n => Sys2Proof.Machine.execKFeq n s
  | .kFlt n => Sys2Proof.Machine.execKFlt n s
  | .kFle n => Sys2Proof.Machine.execKFle n s
  | .kFround n => Sys2Proof.Machine.execKFround n s
  | .kFcvtFx n => Sys2Proof.Machine.execKFcvtFx n s
  | .kFcvtXf n => Sys2Proof.Machine.execKFcvtXf n s
  | .kFcvtFxu n => Sys2Proof.Machine.execKFcvtFxu n s
  | .kLdl n => Sys2Proof.Machine.execKLdl n s
  | .kStl n => Sys2Proof.Machine.execKStl n s
  | .kLdml n => Sys2Proof.Machine.execKLdml n s
  | .kStml n => Sys2Proof.Machine.execKStml n s
  | .kLd n => Sys2Proof.Machine.execKLd n s
  | .kSt n => Sys2Proof.Machine.execKSt n s
  | .kLdm n => Sys2Proof.Machine.execKLdm n s
  | .kStm n => Sys2Proof.Machine.execKStm n s
  | .kAtomAdd n => Sys2Proof.Machine.execKAtomAdd n s
  | .kAtomSwap n => Sys2Proof.Machine.execKAtomSwap n s
  | .kMcpy n => Sys2Proof.Machine.execKMcpy n s
  | .kBr n => Sys2Proof.Machine.execKBr n s
  | .kBeq n => Sys2Proof.Machine.execKBeq n s
  | .kBne n => Sys2Proof.Machine.execKBne n s
  | .kBlt n => Sys2Proof.Machine.execKBlt n s
  | .kBge n => Sys2Proof.Machine.execKBge n s
  | .kBltu n => Sys2Proof.Machine.execKBltu n s
  | .kBgeu n => Sys2Proof.Machine.execKBgeu n s
  | .kBz n => Sys2Proof.Machine.execKBz n s
  | .kBnz n => Sys2Proof.Machine.execKBnz n s
  | .kCall n => Sys2Proof.Machine.execKCall n s
  | .kJr n => Sys2Proof.Machine.execKJr n s
  | .kWaitToken n => Sys2Proof.Machine.execKWaitToken n s
  | .kWaitRoom n => Sys2Proof.Machine.execKWaitRoom n s
  | .kWaitWake n => Sys2Proof.Machine.execKWaitWake n s
  | .kWaitCompletion n => Sys2Proof.Machine.execKWaitCompletion n s
  | .kWaitTimer n => Sys2Proof.Machine.execKWaitTimer n s
  | .kWaitXfer n => Sys2Proof.Machine.execKWaitXfer n s
  | .kRecv n => Sys2Proof.Machine.execKRecv n s
  | .kSend n => Sys2Proof.Machine.execKSend n s
  | .kChav n => Sys2Proof.Machine.execKChav n s
  | .kSnap n => Sys2Proof.Machine.execKSnap n s
  | .kTbw n => Sys2Proof.Machine.execKTbw n s
  | .kEvset n => Sys2Proof.Machine.execKEvset n s
  | .kEvcan n => Sys2Proof.Machine.execKEvcan n s
  | .kTkwake n => Sys2Proof.Machine.execKTkwake n s
  | .kEvqHead n => Sys2Proof.Machine.execKEvqHead n s
  | .kEvqPop n => Sys2Proof.Machine.execKEvqPop n s
  | .kDacw n => Sys2Proof.Machine.execKDacw n s
  | .kXferStart n => Sys2Proof.Machine.execKXferStart n s
  | .kXferResume n => Sys2Proof.Machine.execKXferResume n s
  | .kXferAbort n => Sys2Proof.Machine.execKXferAbort n s
  | .kXferStatus n => Sys2Proof.Machine.execKXferStatus n s
  | .kRddt n => Sys2Proof.Machine.execKRddt n s
  | .kCsrRead n => Sys2Proof.Machine.execKCsrRead n s
  | .kCsrWrite n => Sys2Proof.Machine.execKCsrWrite n s
  | .kCsrSet n => Sys2Proof.Machine.execKCsrSet n s
  | .kCsrClear n => Sys2Proof.Machine.execKCsrClear n s
  | .kFence n => Sys2Proof.Machine.execKFence n s
  | .kYield n => Sys2Proof.Machine.execKYield n s
  | .kHalt n => Sys2Proof.Machine.execKHalt n s
  | .kRfh n => Sys2Proof.Machine.execKRfh n s
  | .kCtxstart n => Sys2Proof.Machine.execKCtxstart n s
  | .kCtxstop n => Sys2Proof.Machine.execKCtxstop n s
  | .kPinr n => Sys2Proof.Machine.execKPinr n s
  | .linkRetrain => Sys2Proof.Machine.execLinkRetrain s
  | .linkDown => Sys2Proof.Machine.execLinkDown s
  | .linkUp rate width => Sys2Proof.Machine.execLinkUp rate width s
  | .functionLevelReset => Sys2Proof.Machine.execFunctionLevelReset s
  | .phpRead a lost => Sys2Proof.Machine.execPhpRead a lost s
  | .phpWrite a v both lost merged => Sys2Proof.Machine.execPhpWrite a v both lost merged s
  | .phpTimeout write => Sys2Proof.Machine.execPhpTimeout write s
  | .phpPageWrite k v => Sys2Proof.Machine.execPhpPageWrite k v s
  | .phpStatClr => Sys2Proof.Machine.execPhpStatClr s
  | .doorbell n off full v merged => Sys2Proof.Machine.execDoorbell n off full v merged s
  | .descriptorFetch n lost => Sys2Proof.Machine.execDescriptorFetch n lost s
  | .descNop n => Sys2Proof.Machine.execDescNop n s
  | .descCopy n lost => Sys2Proof.Machine.execDescCopy n lost s
  | .descMsg n => Sys2Proof.Machine.execDescMsg n s
  | .armShort n => Sys2Proof.Machine.execArmShort n s
  | .armInline n => Sys2Proof.Machine.execArmInline n s
  | .armImg n lost => Sys2Proof.Machine.execArmImg n lost s
  | .descCancel n => Sys2Proof.Machine.execDescCancel n s
  | .tbWrite n lost => Sys2Proof.Machine.execTbWrite n lost s
  | .descLoad n lost => Sys2Proof.Machine.execDescLoad n lost s
  | .descSheet n => Sys2Proof.Machine.execDescSheet n s
  | .hostReadCompletion k ok data => Sys2Proof.Machine.execHostReadCompletion k ok data s
  | .ringResume w n => Sys2Proof.Machine.execRingResume w n s
  | .ringAbort w n => Sys2Proof.Machine.execRingAbort w n s
  | .ringEnable w n => Sys2Proof.Machine.execRingEnable w n s
  | .ringDisable w n => Sys2Proof.Machine.execRingDisable w n s
  | .ringStopDone n => Sys2Proof.Machine.execRingStopDone n s
  | .ringCntClr w n => Sys2Proof.Machine.execRingCntClr w n s
  | .ringCfgWrite w n base v => Sys2Proof.Machine.execRingCfgWrite w n base v s
  | .ringOwnWrite w n v => Sys2Proof.Machine.execRingOwnWrite w n v s
  | .vectorModTimer n => Sys2Proof.Machine.execVectorModTimer n s
  | .sheetCapture => Sys2Proof.Machine.execSheetCapture s
  | .sheetCfgWrite w v => Sys2Proof.Machine.execSheetCfgWrite w v s
  | .linkPrivWrite w l v => Sys2Proof.Machine.execLinkPrivWrite w l v s
  | .spaceWrite w a v => Sys2Proof.Machine.execSpaceWrite w a v s
  | .invAddress w asid => Sys2Proof.Machine.execInvAddress w asid s
  | .invSpace w asid => Sys2Proof.Machine.execInvSpace w asid s
  | .invAll w asid => Sys2Proof.Machine.execInvAll w asid s
  | .invalidateDone => Sys2Proof.Machine.execInvalidateDone s
  | .tableReadDone k first own err => Sys2Proof.Machine.execTableReadDone k first own err s
  | .svnWrite w v => Sys2Proof.Machine.execSvnWrite w v s
  | .keyCommit w k => Sys2Proof.Machine.execKeyCommit w k s
  | .bootLockWrite w v => Sys2Proof.Machine.execBootLockWrite w v s
  | .debugDisable w => Sys2Proof.Machine.execDebugDisable w s
  | .lifeStoreDone => Sys2Proof.Machine.execLifeStoreDone s
  | .wtuCntClr w => Sys2Proof.Machine.execWtuCntClr w s
  | .streamLeader => Sys2Proof.Machine.execStreamLeader s
  | .recordNop => Sys2Proof.Machine.execRecordNop s
  | .framesRecord => Sys2Proof.Machine.execFramesRecord s
  | .bankRecord => Sys2Proof.Machine.execBankRecord s
  | .ememRecord => Sys2Proof.Machine.execEmemRecord s
  | .regRecord => Sys2Proof.Machine.execRegRecord s
  | .sectionRecord => Sys2Proof.Machine.execSectionRecord s
  | .endRecord => Sys2Proof.Machine.execEndRecord s
  | .segmentTag => Sys2Proof.Machine.execSegmentTag s
  | .streamTrailer => Sys2Proof.Machine.execStreamTrailer s
  | .streamSourceEnd source => Sys2Proof.Machine.execStreamSourceEnd source s
  | .streamStallTimeout => Sys2Proof.Machine.execStreamStallTimeout s
  | .gateHigh => Sys2Proof.Machine.execGateHigh s
  | .gateTimeout => Sys2Proof.Machine.execGateTimeout s
  | .startupOuts => Sys2Proof.Machine.execStartupOuts s
  | .startupWrites => Sys2Proof.Machine.execStartupWrites s
  | .startupResets => Sys2Proof.Machine.execStartupResets s
  | .resetWaveColumn => Sys2Proof.Machine.execResetWaveColumn s
  | .loadAbort w => Sys2Proof.Machine.execLoadAbort w s
  | .loadDiscard w => Sys2Proof.Machine.execLoadDiscard w s
  | .configCheck w => Sys2Proof.Machine.execConfigCheck w s
  | .configCheckDone => Sys2Proof.Machine.execConfigCheckDone s
  | .readback w v => Sys2Proof.Machine.execReadback w v s
  | .nandOpDone op use => Sys2Proof.Machine.execNandOpDone op use s
  | .patrolRead block bits last => Sys2Proof.Machine.execPatrolRead block bits last s
  | .patrolGo w => Sys2Proof.Machine.execPatrolGo w s
  | .patrolPlaceSave => Sys2Proof.Machine.execPatrolPlaceSave s
  | .arcRead n lost => Sys2Proof.Machine.execArcRead n lost s
  | .arcWrite n lost => Sys2Proof.Machine.execArcWrite n lost s
  | .arcTrim n => Sys2Proof.Machine.execArcTrim n s
  | .recRead n lost => Sys2Proof.Machine.execRecRead n lost s
  | .recWrite n lost => Sys2Proof.Machine.execRecWrite n lost s
  | .recDelete n => Sys2Proof.Machine.execRecDelete n s
  | .imgOpen n => Sys2Proof.Machine.execImgOpen n s
  | .imgWrite n lost => Sys2Proof.Machine.execImgWrite n lost s
  | .imgCommit n => Sys2Proof.Machine.execImgCommit n s
  | .imgRead n lost => Sys2Proof.Machine.execImgRead n lost s
  | .slotSelect n => Sys2Proof.Machine.execSlotSelect n s
  | .loadSlot n => Sys2Proof.Machine.execLoadSlot n s
  | .arcFormat n => Sys2Proof.Machine.execArcFormat n s
  | .archiveEnable w => Sys2Proof.Machine.execArchiveEnable w s
  | .archiveDisable w => Sys2Proof.Machine.execArchiveDisable w s
  | .archiveStopDone => Sys2Proof.Machine.execArchiveStopDone s
  | .arcIfWrite w v => Sys2Proof.Machine.execArcIfWrite w v s
  | .arcCfgWrite w v => Sys2Proof.Machine.execArcCfgWrite w v s
  | .arcCntClr w => Sys2Proof.Machine.execArcCntClr w s
  | .powerValid straps held => Sys2Proof.Machine.execPowerValid straps held s
  | .xresetRise straps => Sys2Proof.Machine.execXresetRise straps s
  | .xresetAssert => Sys2Proof.Machine.execXresetAssert s
  | .startWarm w => Sys2Proof.Machine.execStartWarm w s
  | .startReload w => Sys2Proof.Machine.execStartReload w s
  | .startCold w => Sys2Proof.Machine.execStartCold w s
  | .bootConfirm w => Sys2Proof.Machine.execBootConfirm w s
  | .confirmTimeoutExpiry => Sys2Proof.Machine.execConfirmTimeoutExpiry s
  | .startDoneTimeout => Sys2Proof.Machine.execStartDoneTimeout s
  | .startRetry => Sys2Proof.Machine.execStartRetry s
  | .confirmTmoWrite w v => Sys2Proof.Machine.execConfirmTmoWrite w v s
  | .operatingHour => Sys2Proof.Machine.execOperatingHour s
  | .bistSector w k => Sys2Proof.Machine.execBistSector w k s
  | .bistEngine w k => Sys2Proof.Machine.execBistEngine w k s
  | .bistAnalog w k => Sys2Proof.Machine.execBistAnalog w k s
  | .bistDevice w => Sys2Proof.Machine.execBistDevice w s
  | .bistUnitDone h failed fails => Sys2Proof.Machine.execBistUnitDone h failed fails s
  | .densitometerSweep h ms bad => Sys2Proof.Machine.execDensitometerSweep h ms bad s
  | .healthCfgWrite w v => Sys2Proof.Machine.execHealthCfgWrite w v s
  | .enginePathMonitor n low => Sys2Proof.Machine.execEnginePathMonitor n low s
  | .fixGo w => Sys2Proof.Machine.execFixGo w s
  | .substitutionDone h => Sys2Proof.Machine.execSubstitutionDone h s
  | .supplyLowDetect vsup => Sys2Proof.Machine.execSupplyLowDetect vsup s
  | .brownOut => Sys2Proof.Machine.execBrownOut s
  | .tempUpdate west east => Sys2Proof.Machine.execTempUpdate west east s
  | .backlogInterval h backlog => Sys2Proof.Machine.execBacklogInterval h backlog s
  | .phaseMonitor h k => Sys2Proof.Machine.execPhaseMonitor h k s
  | .vfabWrite w h v => Sys2Proof.Machine.execVfabWrite w h v s
  | .reqRun w => Sys2Proof.Machine.execReqRun w s
  | .reqIdle w => Sys2Proof.Machine.execReqIdle w s
  | .reqSafelight w => Sys2Proof.Machine.execReqSafelight w s
  | .reqDark w => Sys2Proof.Machine.execReqDark w s
  | .powerEntryDone => Sys2Proof.Machine.execPowerEntryDone s
  | .wakeNEdge => Sys2Proof.Machine.execWakeNEdge s
  | .wakePortEdge k rising => Sys2Proof.Machine.execWakePortEdge k rising s
  | .wakeTbRange j => Sys2Proof.Machine.execWakeTbRange j s
  | .wakeDt => Sys2Proof.Machine.execWakeDt s
  | .hostRequestWake => Sys2Proof.Machine.execHostRequestWake s
  | .activityWake => Sys2Proof.Machine.execActivityWake s
  | .powerWakeDone => Sys2Proof.Machine.execPowerWakeDone s
  | .vbankWrite w b v => Sys2Proof.Machine.execVbankWrite w b v s
  | .vbankSave w b => Sys2Proof.Machine.execVbankSave w b s
  | .supplyCfgWrite w v => Sys2Proof.Machine.execSupplyCfgWrite w v s
  | .tempPeakClr w => Sys2Proof.Machine.execTempPeakClr w s
  | .pinCfgWrite w n v => Sys2Proof.Machine.execPinCfgWrite w n v s
  | .pinMuxWrite w n v => Sys2Proof.Machine.execPinMuxWrite w n v s
  | .pinSwitchEdge n => Sys2Proof.Machine.execPinSwitchEdge n s
  | .pinOvlWrite w n v => Sys2Proof.Machine.execPinOvlWrite w n v s
  | .pinOwnWrite w n v => Sys2Proof.Machine.execPinOwnWrite w n v s
  | .pinOutWrite w n v => Sys2Proof.Machine.execPinOutWrite w n v s
  | .pinPwmWrite w n v => Sys2Proof.Machine.execPinPwmWrite w n v s
  | .pinInputChange n b level => Sys2Proof.Machine.execPinInputChange n b level s
  | .debounceExpiry n b => Sys2Proof.Machine.execDebounceExpiry n b s
  | .lineFaultDetect n on => Sys2Proof.Machine.execLineFaultDetect n on s
  | .sliceDriveCheck n b overload => Sys2Proof.Machine.execSliceDriveCheck n b overload s
  | .dacCodeWrite w k v => Sys2Proof.Machine.execDacCodeWrite w k v s
  | .dacCfgWrite w k v => Sys2Proof.Machine.execDacCfgWrite w k v s
  | .ainCfgWrite w k v => Sys2Proof.Machine.execAinCfgWrite w k v s
  | .pinSave w => Sys2Proof.Machine.execPinSave w s
  | .laneCntClr w => Sys2Proof.Machine.execLaneCntClr w s
  | .laneEnable w l v => Sys2Proof.Machine.execLaneEnable w l v s
  | .laneDisable w l v => Sys2Proof.Machine.execLaneDisable w l v s
  | .laneStopDone l => Sys2Proof.Machine.execLaneStopDone l s
  | .laneLinkLoss l codes => Sys2Proof.Machine.execLaneLinkLoss l codes s
  | .identMsg l identity index ack good => Sys2Proof.Machine.execIdentMsg l identity index ack good s
  | .timeMsg l tSend tEcho tRecv d good => Sys2Proof.Machine.execTimeMsg l tSend tEcho tRecv d good s
  | .timeSendTimer l => Sys2Proof.Machine.execTimeSendTimer l s
  | .streamMsg seq data good => Sys2Proof.Machine.execStreamMsg seq data good s
  | .ackMsg seq credits nak good => Sys2Proof.Machine.execAckMsg seq credits nak good s
  | .eosMsg total good => Sys2Proof.Machine.execEosMsg total good s
  | .streamAckTimeout => Sys2Proof.Machine.execStreamAckTimeout s
  | .laneWordRx l v sync => Sys2Proof.Machine.execLaneWordRx l v sync s
  | .laneWordTx l => Sys2Proof.Machine.execLaneWordTx l s
  | .jtagReset => Sys2Proof.Machine.execJtagReset s
  | .jtagExtest balls shifted => Sys2Proof.Machine.execJtagExtest balls shifted s
  | .jtagSamplePreload balls shifted => Sys2Proof.Machine.execJtagSamplePreload balls shifted s
  | .jtagIdcode => Sys2Proof.Machine.execJtagIdcode s
  | .jtagBypass code => Sys2Proof.Machine.execJtagBypass code s
  | .cfgLoad bs => Sys2Proof.Machine.execCfgLoad bs s
  | .cfgRead sel => Sys2Proof.Machine.execCfgRead sel s
  | .setupRwRead bar2 word lost => Sys2Proof.Machine.execSetupRwRead bar2 word lost s
  | .setupRwWrite bar2 word v lost => Sys2Proof.Machine.execSetupRwWrite bar2 word v lost s
  | .laneLock l => Sys2Proof.Machine.execLaneLock l s
  | .timeMissing l => Sys2Proof.Machine.execTimeMissing l s
  | .identSendTimer l => Sys2Proof.Machine.execIdentSendTimer l s
  | .ackSendTimer => Sys2Proof.Machine.execAckSendTimer s
  | .activeClockEdge n a b c d => Sys2Proof.Machine.execActiveClockEdge n a b c d s
  | .pwmPeriod n => Sys2Proof.Machine.execPwmPeriod n s
  | .railSlewDone r => Sys2Proof.Machine.execRailSlewDone r s

end Sys2Proof.Machine
end

