-- ==== Sys2Proof/Machine/Idle.lean ====
section
/-! DEFINITION. What the device does where no command waits: one tick of device time passes (R20). -/

namespace Sys2Proof.Machine

/-- An idle step: DT counts one tick of 400 ps while the root runs (R20, R292, R296), and in DARK the 25 ticks of a cycle of the
internal oscillator (R635); every other effect of time is a command of its own. -/
def idle (s : State) : State :=
  if s.rootRuns then { s with dt := s.dt + 1 } else if s.pwr.dark then { s with dt := s.dt + 25 } else s

end Sys2Proof.Machine
end

