-- ==== Sys2Proof/Safety.lean ====
section
/-! DEFINITION. What counts as a sound state of the device, in the terms the claims use: its sparse tables in canonical
form, and no buffer of it beyond the depth the spec states. -/

namespace Sys2Proof.Machine

/-- The setup registers, the addressed RAM, the configuration frames and the engines stand in their canonical form, so that equal
contents are equal data. -/
structure State.Canonical (s : State) : Prop where
  regs   : Tab.wf 0 s.regs = true
  mem    : Memory.wf s.mem = true
  frames : Tab.wf 0 s.frames = true
  engs   : Tab.wf {} s.engs = true

/-- The setup registers alone stand in their canonical form: what a statement about one register asks of a state. -/
abbrev State.Regular (s : State) : Prop := Tab.wf 0 s.regs = true

/-- What an engine's buffers hold: 4 tokens in each input and each output channel, 8 messages before
its group port (R341), 16 completions (R347). -/
structure Eng.Within (e : Eng) : Prop where
  ich    : ∀ c ∈ e.ich, c.2.length ≤ 4
  och    : ∀ c ∈ e.och, c.2.length ≤ 4
  inq    : e.inq.length ≤ 8
  evqBuf : e.evqBuf.length ≤ 16

/-- No buffer holds more than the spec gives it room for: the engines' (see above), the EVENT records each half keeps for
full rings (256, R443), the planned substitutions (64, R600), the REG words a PARTIAL stream holds (256, R505). -/
structure State.Within (s : State) : Prop where
  engs    : ∀ e ∈ s.engs, e.2.Within
  west    : s.sched.evtWest.length ≤ 256
  east    : s.sched.evtEast.length ≤ 256
  planned : s.hea.planned.length ≤ 64
  held    : s.ldr.held.length ≤ 256

/-- A sound state: what holds at reset and every step keeps. -/
structure State.Inv (s : State) : Prop where
  canonical : s.Canonical
  within    : s.Within

/-- The bundle at the PC of engine n's current context c is error-free: the words w0 and w1, which name the operations m0 and m1,
pass every check of R407 made before a bundle runs and touch no pending register (R383). -/
structure State.Bundle (s : State) (n c : Nat) (m0 m1 : Mn) (w0 w1 : W32) : Prop where
  cur     : s.curCtx n = c
  fetched : fetch n c s = (s, w0, w1, false)
  op0     : opMn w0 = some m0
  op1     : opMn w1 = some m1
  passes  : bundleStop n c false (some m0) (some m1) w0 w1 s = none
  clear   : touchesPending n c (some m0) (some m1) w0 w1 s = false

/-- Engine n's current context c may issue such a bundle: the engine and the context run, with no fault pending and no long operation
under way. -/
structure State.Issues (s : State) (n c : Nat) (m0 m1 : Mn) (w0 w1 : W32) : Prop extends State.Bundle s n c m0 m1 w0 w1 where
  may : s.mayIssue n = true

end Sys2Proof.Machine
end

