-- ==== Sys2Proof/Certificates/Slice0/Obligations.lean ====
section
/-! DEFINITION. The statements about the model, for every family of its commands: what each command answers and leaves, and what
every step keeps. -/

open Sys2Proof Sys2Proof.Machine

/-- O1. A step performs the command at the front of the queue on the state with the queue's rest. Rests on
notes/assumptions/18.md. -/
def Obligations.StepPerformsTheFrontCommand : Prop :=
  (∀ (c : Instr) (rest : List Instr) (s : State), s.pending = c :: rest → step s = exec c { s with pending := rest }) ∧
  (∀ s : State, s.pending = [] → s.rootRuns = true → step s = .next { s with dt := s.dt + 1 }) ∧
  (∀ s : State, s.pending = [] → s.rootRuns = false → s.pwr.dark = true → step s = .next { s with dt := s.dt + 25 }) ∧
  (∀ s : State, s.pending = [] → s.rootRuns = false → s.pwr.dark = false → step s = .next s)

/-- O2. The state after reset is sound, and no command waits in it. Rests on 00_scope.md: Register conventions;
notes/assumptions/18.md. -/
def Obligations.ResetIsSound : Prop :=
  State.reset.Inv ∧ State.reset.pending = []

/-- O3. From every sound state every step answers a next state, and that state is sound. Rests on 08_motion_engines.md: Fabric
channels; 10_host_link_and_rings.md: Completion records; 12_configuration.md: Records; 14_start_health_and_spares.md: The
fixer. -/
def Obligations.EveryStepKeepsTheInvariant : Prop :=
  ∀ s : State, s.Inv → ∃ t, step s = .next t ∧ t.Inv

/-- O4. A step takes exactly the front command and adds none. Rests on notes/assumptions/18.md. -/
def Obligations.CommandsLeaveTheQueueInOrder : Prop :=
  ∀ s t : State, s.Inv → step s = .next t → t.pending = s.pending.tail

/-- O5. A register reads what was written to it; every other register, and the rest of the state, is left alone. Rests on
00_scope.md: Register conventions. -/
def Obligations.RegisterWriteReadsBack : Prop :=
  (∀ (s : State) (r : Reg) (v : W64) (i j : Nat), s.Regular →
    (s.setReg r v i j).reg r i j = v ∧ (s.setReg r v i j).Regular ∧
    (∀ (r' : Reg) (i' j' : Nat), r'.addr i' j' ≠ r.addr i j → (s.setReg r v i j).reg r' i' j' = s.reg r' i' j') ∧
    ∃ regs, s.setReg r v i j = { s with regs := regs }) ∧
  (∀ (s : State) (f g : Fld) (v i j : Nat), s.Regular → f.lo + f.len ≤ 64 →
    (s.setFld f v i j).fld f i j = v % 2 ^ f.len ∧
    (g.reg = f.reg → (g.lo + g.len ≤ f.lo ∨ f.lo + f.len ≤ g.lo) → (s.setFld f v i j).fld g i j = s.fld g i j))

/-- O6. A memory word reads what was written, little-endian; every other byte is left alone and the canonical form is kept. Rests
on 01_architecture.md: Address maps; 00_scope.md: Data layout in memory. -/
def Obligations.MemoryWordReadsBack : Prop :=
  ∀ (s : State) (a : Nat) (w : W64), Memory.wf s.mem = true →
    (s.setMemWord a w).memWord a = w ∧
    (∀ k, k < 8 → (s.setMemWord a w).memByte (a + k) = (w >>> (8 * k)).setWidth 8) ∧
    (∀ b, b < a ∨ a + 8 ≤ b → (s.setMemWord a w).memByte b = s.memByte b) ∧
    Memory.wf (s.setMemWord a w).mem = true ∧
    ∃ m, s.setMemWord a w = { s with mem := m }

/-- O7. REGISTER_WRITE and the shadow accesses: what each puts into its register, its shadow or the error count, and nothing
else. Rests on 00_scope.md: Register conventions; 01_architecture.md: Address maps; 11_translation_and_protection.md:
Privilege; notes/assumptions/33.md. -/
def Obligations.SetupWritesReachTheirRegister : Prop :=
  (∀ (s : State) (w : Writer) (d : BitVec 21) (v : W64) (r : Reg) (i j : Nat), gregAt (8 * d.toNat) = none →
    RegMap.find (8 * d.toNat) = some (r, i, j) → r.wide = true → RegOps.all.find? (·.1 == r.base) = none →
    s.priv w = 2 ∨ s.priv w = 1 ∧ r.rww ||| r.rwl = 0 →
    exec (.registerWrite w d 0xFF v) s = .next (s.setReg r (if v &&& r.w1c = 0 then r.plain (s.reg r i j) v (s.warden w)
      else r.plain (s.reg r i j) v (s.warden w) &&& ~~~validClears r) i j)) ∧
  (∀ (s : State) (w : Writer) (d : BitVec 21) (v x : W64) (hi : Bool) (off : Nat) (r : Reg) (i j : Nat),
    off = 8 * d.toNat + 4 * b2n hi → x = v >>> (32 * b2n hi) &&& 0xFFFFFFFF → gregAt off = none → bellAt off = none →
    RegMap.find off = some (r, i, j) → r.wide = false → RegOps.all.find? (·.1 == r.base) = none →
    s.priv w = 2 ∨ s.priv w = 1 ∧ (r.rww ||| r.rwl = 0 ∨
      r.rw ||| r.w1c ||| r.w1s ≠ 0 ∧ r.touchesRww (s.reg r i j) x = false) →
    exec (.registerWrite w d (if hi then 0xF0 else 0x0F) v) s = .next (s.setReg r (if x &&& r.w1c = 0 then
        r.plain (s.reg r i j) x (s.warden w)
      else r.plain (s.reg r i j) x (s.warden w) &&& ~~~validClears r) i j)) ∧
  (∀ (s : State) (w : Writer) (d : BitVec 21) (v x : W64) (hi : Bool) (off : Nat) (r : Reg) (i j : Nat),
    off = 8 * d.toNat + 4 * b2n hi → x = v >>> (32 * b2n hi) &&& 0xFFFFFFFF → gregAt off = none → bellAt off = none →
    RegMap.find off = some (r, i, j) → r.wide = false → RegOps.all.find? (·.1 == r.base) = none →
    s.priv w = 1 → r.touchesRww (s.reg r i j) x = true →
    exec (.registerWrite w d (if hi then 0xF0 else 0x0F) v) s = .next (s.deny Code.wardenOnly 0x01 0 (r.addr i j / 2 ^ 12))) ∧
  (∀ (s : State) (w : Writer) (d : BitVec 21) (m : Byte) (v : W64), s.priv w ≠ 0 → bellAt (8 * d.toNat) = none →
    0 < m.toNat → m.toNat < 15 → exec (.registerWrite w d m v) s = .next s.accessError) ∧
  (∀ (s : State) (w : Writer) (d : BitVec 21) (v : W64), s.priv w ≠ 0 → gregAt (8 * d.toNat) = none →
    RegMap.find (8 * d.toNat) = none → bellAt (8 * d.toNat) = none →
    exec (.registerWrite w d 0x0F v) s = .next s.accessError) ∧
  (∀ (s : State) (w : Writer) (d : BitVec 21) (v : W64), s.priv w = 0 → wideAt (8 * d.toNat) = true →
    exec (.registerWrite w d 0xFF v) s = .next (s.deny Code.wardenOnly 0xFF 6 (writerLink w))) ∧
  (∀ (s : State) (w : Writer) (off : BitVec 24) (v : W32), s.priv w ≠ 0 → wideAt off.toNat = true →
    exec (.shadowLowWrite w off v) s = .next { s with
      sys := { s.sys with writeShadow := ⟨w, off.toNat, v⟩ :: s.sys.writeShadow.filter fun h => h.who != w } }) ∧
  (∀ (s : State) (w : Writer) (off : BitVec 24) (v low : W32) (r : Reg) (i j : Nat), s.priv w = 2 → gregAt off.toNat = none →
    RegMap.find off.toNat = some (r, i, j) → r.wide = true → RegOps.all.find? (·.1 == r.base) = none → r.w1c = 0 →
    (s.sys.writeShadow.find? fun h => h.who == w && h.off == off.toNat) = some ⟨w, off.toNat, low⟩ →
    exec (.shadowHighWrite w off v) s = .next { s.setReg r (r.plain (s.reg r i j) (v.setWidth 64 <<< 32 ||| low.setWidth 64) true)
      i j with sys := { s.sys with writeShadow := s.sys.writeShadow.filter fun h => h.who != w } }) ∧
  (∀ (s : State) (w : Writer) (off : BitVec 24) (v : W32), s.priv w ≠ 0 → wideAt off.toNat = true →
    (s.sys.writeShadow.find? fun h => h.who == w && h.off == off.toNat) = none →
    exec (.shadowHighWrite w off v) s = .next s.accessError) ∧
  (∀ (s : State) (w : Writer) (off : BitVec 24) (r : Reg) (i j : Nat), s.priv w ≠ 0 → gregAt off.toNat = none →
    RegMap.find off.toNat = some (r, i, j) → r.wide = true → off.toNat % 8 = 0 → r.base ≠ Reg.tbDt.base →
    r.base ≠ Reg.wtuKeyData.base →
    exec (.shadowLowRead w off) s = .next { s with sys := { s.sys with
      readShadow := ⟨w, off.toNat, (s.reg r i j).extractLsb' 32 32⟩ :: s.sys.readShadow.filter fun h => h.who != w
      readData := s.reg r i j &&& maskW 0 32 } })

/-- O8. The lead, load and alarm commands: agreement, hold, conflict, split, handover, resume, abort, peaks and acknowledgement.
Rests on 01_architecture.md: Load and latency; 01_architecture.md: Leadership between the halves;
14_start_health_and_spares.md: Alarms. -/
def Obligations.LeadCommandsTakeEffect : Prop :=
  (∀ (s : State) (c : Bool), s.fld Fld.stwLeadState = 0 → s.lead.handover = 0 →
    exec (.viewInterval true true c (!c)) s = .next { s with lead := { s.lead with badWest := 0, badEast := 0 } }) ∧
  (∀ (s : State) (c : Bool), s.fld Fld.stwLeadState = 0 → s.fld Fld.stwLeadDisagree = 0 → s.lead.handover = 0 →
    exec (.viewInterval true true c c) s = .next (({ s with lead := { s.lead with
      badWest := 0, badEast := 0, held := s.lead.held ++ s.lead.underWay, underWay := [], heldLeader := s.leader } } : State).setFld
        Fld.stwLeadState 1 |>.setFld Fld.stwLeadDisagree 1)) ∧
  (∀ (s : State) (c : Bool), s.fld Fld.stwLeadState = 2 → s.lead.goodRun + 1 < 8 →
    exec (.viewInterval true true c (!c)) s = .next { s with lead := { s.lead with
      badWest := 0, badEast := 0, goodRun := s.lead.goodRun + 1 } }) ∧
  (∀ (s : State) (c : Bool), s.fld Fld.stwLeadState = 0 → s.lead.handover = 3 →
    exec (.viewInterval true true c (!c)) s = .next { (s.setFld Fld.stwLeadLeader (1 - s.leader)).setFlag
      Fld.stwLeadHandover false with lead := { s.lead with badWest := 0, badEast := 0, handover := 0 } }) ∧
  (∀ (s : State) (w : Writer), s.Regular → s.warden w = true → s.agreed = true → s.flag Fld.stwLeadHandover = false →
    exec (.handover w 0x100) s = .next { s.setFlag Fld.stwLeadHandover true with lead := { s.lead with handover := 1 } }) ∧
  (∀ (s : State) (w : Writer), s.Regular → s.warden w = true → s.agreed = false → s.flag Fld.stwLeadHandover = false →
    exec (.handover w 0x100) s = .next (s.setFlag Fld.stwLeadHandoverRefused true)) ∧
  (∀ s : State, s.agreed = false → s.lead.held = [.clockReturn] →
    exec .deviceActionHoldTimeout s = .next { s with lead := { s.lead with held := [] } }) ∧
  (∀ s : State, s.agreed = true → s.lead.handover = 0 →
    exec .stewardActionResume s = .next { s with lead := { s.lead with
      underWay := s.lead.underWay ++ s.lead.waiting, waiting := [] } }) ∧
  (∀ (s : State) (h : Fin 2) (load : Fin 1001), s.Regular →
    exec (.loadWindow h load) s = .next (if s.fld Fld.stwLoadPeak h.val < load.val then
      (s.setFld Fld.stwLoadLoad load.val h.val).setFld Fld.stwLoadPeak load.val h.val
      else s.setFld Fld.stwLoadLoad load.val h.val)) ∧
  (∀ (s : State) (w : Writer) (h : Fin 2), s.priv w ≠ 0 →
    exec (.loadPeakClr w h) s = .next (s.setFld Fld.stwLoadPeak (s.fld Fld.stwLoadLoad h.val) h.val)) ∧
  (∀ (s : State) (w : Writer) (bits : BitVec 9), s.warden w = true → bits ≠ 0 →
    s.fld Fld.stwAlarmPend &&& (~~~bits).toNat = 0 →
    exec (.alarmAck w bits) s = .next { s.setFld Fld.stwAlarmPend 0 with sys := { s.sys with alarmN := true } }) ∧
  (∀ (s : State) (w : Writer) (bits : BitVec 9), s.priv w = 1 → bits ≠ 0 →
    exec (.alarmAck w bits) s = .next (s.denyWarden w Reg.stwAlarm.base))

/-- O9. The source commands: what an edge, an index, a sample, a frame, a step, a crossing or a message leaves in its timebase.
Rests on 02_timebases.md: Sources; 02_timebases.md: Faults. -/
def Obligations.SourceCommandsMeasure : Prop :=
  (∀ (s : State) (n : Fin 32) (onB a b : Bool) (t : Stamp), s.tbTakes n.val 1 = true → (s.tb n.val).waitEdge = none →
    (∀ l c, (s.tb n.val).lastEdge = some (l, c) → l + 2000 ≤ t.toNat / 32 * 32) →
    exec (.quadEdge n onB a b t) s = .next (s.setTb n.val { s.tb n.val with
      lastEdge := some (t.toNat / 32 * 32, onB)
      waitEdge := some (t.toNat / 32 * 32 - filterDelay (bitsOf (s.fld Fld.tbSrcpValue n.val) 0 2),
        if quadUp onB a b then 1 else -1) })) ∧
  (∀ (s : State) (n : Fin 32) (onB a b : Bool) (t : Stamp) (l : Nat), s.tbTakes n.val 1 = true →
    (s.tb n.val).lastEdge = some (l, onB) → t.toNat / 32 * 32 < l + 2000 →
    exec (.quadEdge n onB a b t) s = .next (raiseFault n.val 2 2 (lostEdges n.val
      (if (s.tb n.val).waitEdge.isSome then 2 else 1)
      (s.setTb n.val { s.tb n.val with lastEdge := some (t.toNat / 32 * 32, onB), waitEdge := none })))) ∧
  (∀ (s : State) (n : Fin 32) (t : Nat) (k : Int), s.tbTakes n.val 1 = true → (s.tb n.val).waitEdge = some (t, k) →
    exec (.quadCountCommit n) s = .next (takeCounts n.val k t
      (s.setTb n.val { s.tb n.val with waitEdge := none, dirUp := decide (0 < k) }))) ∧
  (∀ (s : State) (n : Fin 32) (t : Stamp), s.tbTakes n.val 1 = true → s.flag Fld.tbSrcIndexEn n.val = true →
    s.pwr.dark = false → s.fld Fld.tbRevValue n.val = 0 → s.flag Fld.tbCfgRefOnIndex n.val = false →
    (s.tb n.val).waitEdge = none →
    exec (.indexEdge n t) s = .next ((s.tookFree.setReg Reg.tbIdxPos (wOfInt (wrap64 (extrapolate (s.tb n.val).p (s.tb n.val).v
        (s.tb n.val).a (((t.toNat / 32 * 32 - filterDelay (bitsOf (s.fld Fld.tbSrcpValue n.val) 0 2) : Nat) : Int) -
          (s.tb n.val).reached) s.freeBit))) n.val).setTb n.val
      { s.tb n.val with lastIndex := some ((s.tb n.val).taken, (s.tb n.val).dirUp) })) ∧
  (∀ (s : State) (k : Fin 16) (x y : BitVec 14) (t : Stamp), s.fld Fld.pinAinCfgMode k.val = 1 →
    exec (.adcSample k x y t) s = .next (
      ((upFrom 0 32).filter fun n => s.tbTakes n 2 && s.fld Fld.tbSrcAin n == k.val).foldl
        (takeSample x.toInt y.toInt true t.toNat) ((s.setFld Fld.pinAinRawS x.toNat k.val).setFld Fld.pinAinRawC y.toNat k.val))) ∧
  (∀ (s : State) (n : Fin 32) (t : Stamp), s.tbTakes n.val 3 = true ∨ s.tbTakes n.val 4 = true →
    exec (.serialFrameStart n t) s = .next (s.setTb n.val { s.tb n.val with frameAt := some (t.toNat / 32 * 32) })) ∧
  (∀ (s : State) (n : Fin 32) (d : BitVec 48) (q : Bool) (len : Nat), s.tbTakes n.val 3 = true →
    len = bitsOf (s.fld Fld.tbSrcpValue n.val) 10 6 → bitOf (s.fld Fld.tbSrcpValue n.val) 16 = false →
    exec (.ssiFrameEnd n d q false) s = .next (
      if bitOf (s.fld Fld.tbSrcpValue n.val) 17 = true ∧ (onesOf len (d.toNat % 2 ^ len) + b2n q) % 2 = 1 then
        badFrame n.val 12 s else goodFrame n.val len (d.toNat % 2 ^ len) s)) ∧
  (∀ (s : State) (n : Fin 32) (st : BitVec 4) (pos : BitVec 40) (seq : BitVec 4) (c : BitVec 8) (len : Nat),
    s.tbTakes n.val 4 = true → len = bitsOf (s.fld Fld.tbSrcpValue n.val) 10 6 → (s.tb n.val).lastSeq = none →
    crc8 0xFF (msbFirst 4 st.toNat ++ msbFirst len (pos.toNat % 2 ^ len) ++ msbFirst 4 seq.toNat) = c.toNat →
    exec (.qcsFrameEnd n true st pos seq c false) s = .next (goodFrame n.val len (pos.toNat % 2 ^ len)
      (lasting n.val 8 (bitOf st.toNat 1)
        ((s.setTb n.val { s.tb n.val with lastSeq := some seq.toNat }).setFld Fld.tbStatEncStatus st.toNat n.val)))) ∧
  (∀ (s : State) (n : Fin 32) (up : Bool) (t : Stamp), s.tbTakes n.val 5 = true →
    (∀ l c, (s.tb n.val).lastEdge = some (l, c) → l + 4000 ≤ t.toNat / 32 * 32) →
    exec (.stepEdge n up true t) s = .next (takeCounts n.val (if up then 1 else -1)
      (t.toNat / 32 * 32 - filterDelay (bitsOf ((s.setTb n.val { s.tb n.val with
        lastEdge := some (t.toNat / 32 * 32, false) }).fld Fld.tbSrcpValue n.val) 0 2))
      (s.setTb n.val { s.tb n.val with lastEdge := some (t.toNat / 32 * 32, false) }))) ∧
  (∀ (s : State) (k : Fin 16) (n : Nat) (t : Stamp), s.fld Fld.pinAinCfgMode k.val = 2 →
    ((upFrom 0 32).filter fun m => s.tbTakes m 6 && s.fld Fld.tbSrcAin m == k.val) = [n] → (s.tb n).lastCross = none →
    exec (.zeroCrossing k true t) s = .next (takeCounts n 1 ((t.toNat - 4800) / 32 * 32) (lasting n 7 false
      (s.setTb n { s.tb n with lastCross := some ((t.toNat - 4800) / 32 * 32), sinceAt := (t.toNat - 4800) / 32 * 32 })))) ∧
  (∀ (s : State) (n : Fin 32), s.tbTakes n.val 6 = true ∨ s.tbTakes n.val 7 = true → s.flag Fld.tbTimeoutValue n.val = true →
    bitOf (s.tb n.val).stuck 7 = false →
    exec (.tbTimeoutExpiry n) s = .next (raiseFault n.val 0 7
      (s.setTb n.val { s.tb n.val with stuck := (s.tb n.val).stuck ||| 2 ^ 7 }))) ∧
  (∀ (s : State) (lane : Fin 2) (n : Nat) (idx seq : Byte) (p v a stamp : W64),
    ((upFrom 0 32).filter fun m => s.tbTakes m 8 && s.fld Fld.tbSrcIn0 m == lane.val && s.fld Fld.tbSrcIn1 m == idx.toNat) = [n] →
    s.flag Fld.pinLaneStatOfsValid lane.val = true →
    exec (.tbposMsg lane idx seq p v a stamp true) s = .next (takeWrite n
      ⟨(((stamp.toNat * 32 : Nat) : Int) - sInt (s.reg Reg.pinLaneOfs lane.val)).toNat, sInt p, sInt v, sInt a⟩
      (lasting n 14 false (s.setTb n { s.tb n with missing := 0 }))).1) ∧
  (∀ (s : State) (n : Fin 32), s.tbTakes n.val 8 = true →
    exec (.tetherMsgTimeout n) s = .next (if 3 ≤ (s.tb n.val).missing + 1 then
        lasting n.val 14 true (s.setTb n.val { s.tb n.val with missing := (s.tb n.val).missing + 1 })
      else s.setTb n.val { s.tb n.val with missing := (s.tb n.val).missing + 1 }))

/-- O10. The timebase control commands: enable, disable, preset, gear, count clear, configuration, calibration, snapshot. Rests
on 02_timebases.md: Enabling, presetting and stopping; 02_timebases.md: Electronic gearing; 02_timebases.md: Reading a
timebase; 02_timebases.md: Registers. -/
def Obligations.TimebaseControlTakesEffect : Prop :=
  (∀ (s : State) (w : Writer) (n : Fin 32), s.priv w ≠ 0 → s.fld Fld.tbStatState n.val = 0 → enableCheck s n.val = 0 →
    exec (.tbEnable w n) s = .next (startTimebase n.val (s.setFlag Fld.tbCtlEn true n.val))) ∧
  (∀ (s : State) (w : Writer) (n : Fin 32), s.priv w ≠ 0 → s.fld Fld.tbStatState n.val = 0 → enableCheck s n.val ≠ 0 →
    exec (.tbEnable w n) s = .next (s.refuse Reg.tbRefuse (enableCheck s n.val) n.val)) ∧
  (∀ (s : State) (w : Writer) (n : Fin 32), s.priv w ≠ 0 → s.fld Fld.tbStatState n.val = 2 → enableCheck s n.val = 0 →
    exec (.tbEnable w n) s = .next ((s.setFlag Fld.tbCtlEn true n.val).setFld Fld.tbStatState 3 n.val)) ∧
  (∀ (s : State) (w : Writer) (n : Fin 32), s.priv w ≠ 0 → s.fld Fld.tbStatState n.val ≠ 0 →
    exec (.tbDisable w n) s = .next ((s.setFlag Fld.tbCtlEn false n.val).setFld Fld.tbStatState 2 n.val)) ∧
  (∀ (s : State) (w : Writer) (n : Fin 32), s.priv w ≠ 0 → s.fld Fld.tbStatState n.val = 1 →
    exec (.presetGo w n) s = .next (s.setTb n.val { s.tb n.val with presetReq := true })) ∧
  (∀ (s : State) (w : Writer) (n : Fin 32), s.priv w ≠ 0 → s.fld Fld.tbStatState n.val = 1 → s.fld Fld.tbCfgSrc n.val = 9 →
    s.fld Fld.tbGearDenValue n.val ≠ 0 →
    exec (.gearGo w n) s = .next (s.setTb n.val { s.tb n.val with gearNext := some (signed 32 (s.fld Fld.tbGearNumValue n.val),
      s.fld Fld.tbGearDenValue n.val, sInt (s.reg Reg.tbGearOfs n.val)) })) ∧
  (∀ (s : State) (w : Writer) (n : Fin 32), s.priv w ≠ 0 → s.fld Fld.tbGearDenValue n.val = 0 →
    exec (.gearGo w n) s = .next (s.refuse Reg.tbRefuse Code.badSrc n.val)) ∧
  (∀ (s : State) (w : Writer) (n : Fin 32), s.priv w ≠ 0 → exec (.errcntClr w n) s = .next (s.setReg Reg.tbErrcnt 0 n.val)) ∧
  (∀ (s : State) (w : Writer) (n : Fin 32) (k : Fin 3) (v : W32), s.priv w ≠ 0 → s.flag Fld.tbCtlEn n.val = false →
    s.fld Fld.tbStatState n.val = 0 → srcValues (s.fld Fld.tbCfgSrc n.val) k.val v.toNat = 0 →
    exec (.tbCfgWrite w n k v) s = .next (
      let r := if k.val = 0 then Reg.tbCfg else if k.val = 1 then Reg.tbSrc else Reg.tbSrcp
      s.setReg r (r.plain (s.reg r n.val) (v.setWidth 64) true) n.val)) ∧
  (∀ (s : State) (w : Writer) (n : Fin 32) (v : W32), s.priv w ≠ 0 → s.fld Fld.tbStatState n.val = 1 →
    srcValues (s.fld Fld.tbCfgSrc n.val) 0 v.toNat = 0 →
    (s.reg Reg.tbCfg n.val ^^^ Reg.tbCfg.plain (s.reg Reg.tbCfg n.val) (v.setWidth 64) true) &&& 0x1F080F ≠ 0 →
    exec (.tbCfgWrite w n 0 v) s = .next (s.refuse Reg.tbRefuse Code.srcBusy n.val)) ∧
  (∀ (s : State) (w : Writer) (n : Fin 32) (v : W32), s.priv w ≠ 0 → s.flag Fld.tbAnaCalAuto n.val = false →
    exec (.tbAnaCalWrite w n v) s = .next (s.setReg Reg.tbAnaCal (v.setWidth 64) n.val)) ∧
  (∀ (s : State) (w : Writer), s.priv w ≠ 0 →
    exec (.tbSnapGo w) s = .next { s.setFlag Fld.tbSnapCtlDone false with sched := { s.sched with snapPend := true } }) ∧
  (∀ (s : State) (n : Nat), s.sched.snapPend = true → (upFrom 0 32).filter (fun m => bitOf (s.fld Fld.tbSnapMaskValue) m) = [n] →
    exec .tbSnapDone s = .next { ((((((s.setReg Reg.tbSnapPos (s.reg Reg.tbPos n) n).setReg Reg.tbSnapVel (s.reg Reg.tbVel n) n).setReg
      Reg.tbSnapAcc (s.reg Reg.tbAcc n) n).setReg Reg.tbSnapStat (s.reg Reg.tbStat n) n).setReg Reg.tbSnapDt
        (BitVec.ofNat 64 (s.dt.toNat / 250 * 250))).setFlag Fld.tbSnapCtlDone true) with
      sched := { s.sched with snapPend := false } }) ∧
  (∀ s : State, s.sched.snapPend = false → exec .tbSnapDone s = .next s)

/-- O11. An update publishes a DIRECT timebase's last write extrapolated to the update instant, and changes nothing of any other.
Rests on 02_timebases.md: What a timebase publishes; 02_timebases.md: Sources; 02_timebases.md: Faults. -/
def Obligations.TimebaseUpdatePublishes : Prop :=
  (∀ (s : State) (n : Nat) (w : SoftWrite) (t : Nat), s.rootRuns = true → n < 32 → (∀ m, m < 32 → m ≠ n → s.fld Fld.tbStatState m = 0) →
    (∀ m, m < 32 → s.fld Fld.tbCtlExport m = 0) → s.fld Fld.tbStatState n = 1 → s.fld Fld.tbCfgSrc n = 7 →
    bitOf (s.fld Fld.tbSrcpValue n) 0 = true → s.fld Fld.tbFaultActive n = 0 → (s.tb n).write = some w →
    (s.tb n).queued = [] → (s.tb n).presetReq = false → (s.tb n).jumped = false → s.Regular →
    t = (s.dt.toNat / 250 + 1) * 250 →
    ∃ u, exec .timebaseUpdate s = .next u ∧ u.dt = BitVec.ofNat 64 t ∧ u.fine = 0 ∧
      u.reg Reg.tbPos n = wOfInt (wrap64 (extrapolate w.p w.v w.a (((t % 2 ^ 64 * 32 : Nat) : Int) - w.t)
        (Config.freeBit s.freeCount))) ∧
      u.reg Reg.tbVel n = wOfInt (wrap64 (extrapolateV w.v w.a (((t % 2 ^ 64 * 32 : Nat) : Int) - w.t)
        (Config.freeBit (s.freeCount + 1)))) ∧
      u.reg Reg.tbAcc n = wOfInt w.a ∧ u.reg Reg.tbStamp n = BitVec.ofNat 64 (t % 2 ^ 64) ∧
      (∀ (r : Reg) (i j : Nat), r.addr i j ≠ Reg.tbPos.addr n 0 → r.addr i j ≠ Reg.tbVel.addr n 0 →
        r.addr i j ≠ Reg.tbAcc.addr n 0 → r.addr i j ≠ Reg.tbStamp.addr n 0 → r.addr i j ≠ Reg.tbStat.addr n 0 →
        u.reg r i j = s.reg r i j) ∧
      u.mem = s.mem ∧ u.sched = s.sched ∧ u.pending = s.pending ∧ u.ctxs = s.ctxs ∧ (∀ m, m ≠ n → u.tb m = s.tb m)) ∧
  (∀ (s : State) (n : Fin 32), s.tbStopped n.val = true → s.fld Fld.tbCfgStopAct n.val = 1 → (s.tb n.val).failed = false →
    s.sched.slots = [] → s.sched.runs = [] →
    exec (.coastLimitExpiry n) s = .next (((s.tookFree.setTb n.val { s.tb n.val with
      goodP := stoppedPos n.val ((s.tb n.val).coastAt + 2 ^ s.fld Fld.tbCfgCoastMax n.val * perMicro) s, failed := true }).setFlag
        Fld.tbStatCoasting false n.val).setFlag Fld.tbStatHeld true n.val))

/-- O12. The scheduler's commands: arm and cancel channels, publications, firing, ends, expiry, capture, tokens, calibration.
Rests on 03_event_scheduler.md: Arming; 03_event_scheduler.md: From target to edge; 03_event_scheduler.md: Actions;
03_event_scheduler.md: When events meet; 03_event_scheduler.md: Repetition, expiry and cancellation; 03_event_scheduler.md:
Capture; 03_event_scheduler.md: Placement. -/
def Obligations.SchedulerEventsTakeEffect : Prop :=
  (∀ (s : State) (k : Fin 32) (p : Fin 80) (cmd w0 w1 w2 w3 : W64), (s.chan k.val).reply = none → s.mute p.val = false →
    bitsW cmd 0 4 = 1 → bitsW cmd 4 60 = 0 → exec (.fabricArm k p cmd w0 w1 w2 w3) s = .next (
      let r := armEvent (.channel k.val) 2 w0 w1 w2 w3 (s.setChan k.val { s.chan k.val with port := p.val })
      r.1.setChan k.val { r.1.chan k.val with reply := some (replyWord r.1 r.2.1 r.2.2), cmd := none, words := [] })) ∧
  (∀ (s : State) (k : Fin 32) (p : Fin 80) (cmd : W64), (s.chan k.val).reply = none → (s.chan k.val).cmd = none →
    s.mute p.val = false → bitsW cmd 0 4 = 2 → bitsW cmd 4 12 = 0 → bitsW cmd 28 36 = 0 →
    exec (.fabricCancel k p cmd) s = .next (
      let r := cancelBy (.channel k.val) (bitsW cmd 16 12) (s.setChan k.val { s.chan k.val with port := p.val })
      r.1.setChan k.val { r.1.chan k.val with reply := some (replyWord r.1 r.2 (bitsW cmd 16 12)) })) ∧
  (∀ (s : State) (k : Fin 32), exec (.fabricReplyTaken k false) s = .next (s.setChan k.val { s.chan k.val with reply := none })) ∧
  (∀ (s : State) (n : Nat) (x : Slot) (c : Cand), s.asleep = false → s.sched.slots = [(n, x)] → x.st = 1 → x.atOnce = false →
    s.tbOff (evTb x.w3) = false → candidate s n = some c → c.slot = n → c.crossed = false →
    (s.pub (evTb x.w3)).inst + 16000 ≤ c.tc →
    exec .schedPublication s = .next (s.setSlot n { x with st := 2, pred := some c.tc, rising := c.rising, known := true, waited := false })) ∧
  (∀ (s : State) (n : Nat) (x : Slot) (c : Cand), s.asleep = false → s.sched.slots = [(n, x)] → x.st = 1 → x.atOnce = false →
    x.deadline = none → s.tbOff (evTb x.w3) = false → candidate s n = some c → c.slot = n → c.crossed = false →
    (s.pub (evTb x.w3)).inst + 8000 ≤ c.tc → c.tc < (s.pub (evTb x.w3)).inst + 16000 → s.hasRoom x.w3 = true →
    exec .schedPublication s = .next ((queueMove s x.w3 true).setSlot n
      { x with st := 3, pred := some c.tc, rising := c.rising, known := true, waited := false })) ∧
  (∀ (s : State) (n : Fin 4096) (x : Slot) (t : Nat) (a : Stamp), s.asleep = false → s.sched.slots = [(n.val, x)] → x.st = 3 →
    x.atOnce = false → x.pred = some t → evAction x.w3 = 0 → exec (.eventFire n a) s = .next (
      let q := queueMove s x.w3 false
      let r := lineApply q (evDest x.w3) t true (q.fld Fld.evtLineStatPulses (evDest x.w3))
      fireDone n.val x r.2.1 r.2.2 r.1)) ∧
  (∀ (s : State) (n : Fin 4096) (x : Slot) (t : Nat) (a : Stamp), s.asleep = false → s.sched.slots = [(n.val, x)] → x.st = 3 →
    x.atOnce = false → x.pred = some t → evAction x.w3 = 6 → exec (.eventFire n a) s = .next
      (fireDone n.val x t false (s.setFld Fld.pinDacCodeCode (evPayload x.w1) (evDest x.w3)))) ∧
  (∀ (s : State) (n : Fin 4096) (t : Stamp) (r : Run), s.sched.runs = [r] → r.slot = n.val → evAction r.img.w3 = 3 →
    exec (.pulseEnd n t) s = .next (endPulse r t.toNat none false { s with sched := { s.sched with runs := [] } })) ∧
  (∀ (s : State) (n : Fin 4096) (t : Stamp) (r : Run), s.sched.runs = [r] → r.slot = n.val → evWunit r.img.w3 = 1 →
    evAction r.img.w3 = 3 → exec (.widthLimitExpiry n t) s = .next
      (endPulse r t.toNat none true { s with sched := { s.sched with runs := [] } })) ∧
  (∀ (s : State) (n : Fin 4096), (s.slot n.val).st = 1 → (s.slot n.val).deadline.isSome = true →
    exec (.eventExpiry n) s = .next ((completeUnfired n.val (s.slot n.val) Code.expired s).freeSlot n.val)) ∧
  (∀ (s : State) (k : Fin 64) (rising : Bool) (t : Stamp), s.flag Fld.evtCapStatOpen k.val = true → s.fld Fld.evtCapCfgEdge k.val = 2 →
    exec (.captureEdge k rising t) s = .next ({ s with sched := { s.sched with runs := mapWindow k.val (fun r =>
      if r.edge.isSome then { r with extra := min 15 (r.extra + 1) }
      else { r with edge := some (t.toNat, s.posAt (evTb r.img.w3) t.toNat s.freeBit) }) s.sched.runs } } : State).tookFree) ∧
  (∀ (s : State) (k : Fin 64) (r : Run), s.sched.runs = [r] → evAction r.img.w3 = 7 → evDest r.img.w3 = k.val →
    exec (.captureWindowClose k) s = .next (endWindow r none false { s with sched := { s.sched with runs := [] } })) ∧
  (∀ (s : State) (k : Fin 64) (w : W64) (rest : List W64), Tab.get [] s.sched.tokens k.val = w :: rest →
    s.flag Fld.stwTokDestBound k.val = true → s.poolRoom (104 + k.val / 32) = true →
    exec (.eventTokenDrain k) s = .next ((({ s with sched := { s.sched with
        tokens := Tab.set [] s.sched.tokens k.val rest } } : State).occupy (104 + k.val / 32)).putTrans
      { port := 104 + k.val / 32, master := 0, owner := 2, tag := 0, op := .msg, len := 1, addr := 0x500 + k.val
        space := .dev, asid := 0, priv := 0, va := 0x1000 + s.fld Fld.stwTokDestSector k.val
        marked := false, data := [w], asker := .none })) ∧
  (∀ (s : State) (u : Fin 128), s.calRuns u.val = true →
    exec (.calMeasureDone u) s = .next (s.setCal u.val { s.cal u.val with measured := true })) ∧
  (∀ (s : State) (u : Fin 128), s.calRuns u.val = true → (s.cal u.val).measured = true → s.sched.slots = [] →
    exec (.calRoleSwap u) s = .next (setAged u.val false (s.setCal u.val { measured := false, servedAt := s.now }))) ∧
  (∀ (s : State) (u : Fin 128), exec (.calAgeExpiry u) s = .next (setAged u.val true s))

/-- O13. The scheduler's registers: kill, configuration, count clear, slot readback, line and capture configuration. Rests on
03_event_scheduler.md: Registers; 03_event_scheduler.md: Repetition, expiry and cancellation. -/
def Obligations.SchedulerRegisterCommandsTakeEffect : Prop :=
  (∀ (s : State) (w : Writer) (v : W32), s.priv w = 2 → bitsW (v.setWidth 64) 0 2 < 3 → bitsW (v.setWidth 64) 31 1 = 1 →
    exec (.evtKillGo w v) s = .next (kill (bitsW (v.setWidth 64) 0 2) (bitsW (v.setWidth 64) 8 6)
      (s.setReg Reg.evtKill (Reg.evtKill.plain (s.reg Reg.evtKill) (v.setWidth 64) true)))) ∧
  (∀ (s : State) (w : Writer) (v : W32), s.priv w = 2 → bitsW (v.setWidth 64) 0 2 = 3 →
    exec (.evtKillGo w v) s = .next (s.refuse Reg.evtRefuse Code.badEvent (bitsW (v.setWidth 64) 8 6))) ∧
  (∀ (s : State) (w : Writer) (h : Fin 2) (v : W32), s.priv w ≠ 0 → bitsW (v.setWidth 64) 0 6 ≠ 0 →
    bitsW (v.setWidth 64) 8 5 < 27 → bitsW (v.setWidth 64) 17 1 = 0 → exec (.evtCfgWrite w h v) s =
      .next (s.setReg Reg.evtCfg (Reg.evtCfg.plain (s.reg Reg.evtCfg h) (v.setWidth 64) true) h)) ∧
  (∀ (s : State) (w : Writer) (h : Fin 2) (v : W32), s.priv w ≠ 0 →
    bitsW (v.setWidth 64) 0 6 = 0 ∨ 27 ≤ bitsW (v.setWidth 64) 8 5 →
    exec (.evtCfgWrite w h v) s = .next (s.refuse Reg.evtRefuse Code.badEvent h)) ∧
  (∀ (s : State) (w : Writer) (h : Fin 2), s.priv w ≠ 0 →
    exec (.evtCntClr w h) s = .next ((s.setReg Reg.evtCnt 0 h).setFlag Fld.evtStatDiscarded false h)) ∧
  (∀ (s : State) (w : Writer) (n : Fin 4096), s.priv w ≠ 0 → exec (.evtSlotSel w n) s = .next (
      let t := (s.setFld Fld.evtSlotSelSlot n).setFlag Fld.evtSlotSelDone false
      { t with sched := { s.sched with copyPend := true } })) ∧
  (∀ (s : State) (x : Slot), s.sched.copyPend = true → s.slot (s.fld Fld.evtSlotSelSlot) = x →
    exec .slotCopyDone s = .next (
      let t := ((((((s.setReg Reg.evtSlotStat (BitVec.ofNat 64 (x.st % 8 + x.remain % 2 ^ 16 * 2 ^ 4 + x.owner % 2 ^ 8 * 2 ^ 20))).setReg
        Reg.evtSlotPred (BitVec.ofNat 64 (x.pred.getD 0))).setReg Reg.evtSlotImg x.w0 0).setReg Reg.evtSlotImg x.w1 1).setReg
        Reg.evtSlotImg x.w2 2).setReg Reg.evtSlotImg x.w3 3).setFlag Fld.evtSlotSelDone true
      { t with sched := { t.sched with copyPend := false } })) ∧
  (∀ (s : State) (w : Writer) (n : Fin 64) (v : W32), s.priv w = 2 → ownerValid (bitsW (v.setWidth 64) 0 8) = true →
    bitsW (v.setWidth 64) 9 2 ≠ 3 → bitsW (v.setWidth 64) 12 8 = 0xFF ∨ bitsW (v.setWidth 64) 12 8 / 72 = n.val / 32 →
    s.lineBusy n = false → exec (.evtLineCfgWrite w n v) s =
      .next (s.setReg Reg.evtLineCfg (Reg.evtLineCfg.plain (s.reg Reg.evtLineCfg n) (v.setWidth 64) true) n)) ∧
  (∀ (s : State) (w : Writer) (n : Fin 64) (v : W32), s.priv w = 2 → ownerValid (bitsW (v.setWidth 64) 0 8) = true →
    bitsW (v.setWidth 64) 9 2 ≠ 3 → bitsW (v.setWidth 64) 12 8 = 0xFF ∨ bitsW (v.setWidth 64) 12 8 / 72 = n.val / 32 →
    s.lineBusy n = true →
    (s.reg Reg.evtLineCfg n ^^^ Reg.evtLineCfg.plain (s.reg Reg.evtLineCfg n) (v.setWidth 64) true) &&& 0xFF1FF ≠ 0 →
    exec (.evtLineCfgWrite w n v) s = .next (s.refuse Reg.evtRefuse Code.lineBusy n)) ∧
  (∀ (s : State) (w : Writer) (k : Fin 64) (v : W32), s.priv w = 2 → ownerValid (bitsW (v.setWidth 64) 11 8) = true →
    bitsW (v.setWidth 64) 9 2 ≠ 3 → bitsW (v.setWidth 64) 0 8 / 72 = k.val / 32 → exec (.evtCapCfgWrite w k v) s = .next (
      if s.capBusy k then s.refuse Reg.evtRefuse Code.lineBusy k
      else s.setReg Reg.evtCapCfg (Reg.evtCapCfg.plain (s.reg Reg.evtCapCfg k) (v.setWidth 64) true) k))

/-- O14. What a cell's output holds after a token, a level, an acknowledge or an active clock edge. Rests on 04_fabric_cells.md:
FUNCTION mode; 04_fabric_cells.md: STEER mode; 04_fabric_cells.md: BUNDLED mode; 04_fabric_cells.md: CLOCKED mode;
04_fabric_cells.md: The handshake cell; notes/assumptions/8.md. -/
def Obligations.CellsActOnTheirInputs : Prop :=
  (∀ (s : State) (n : Fin 655360) (a b c d : Option Bool), s.cellReset n = false → s.frozen (cellSector n) = false →
    cellMode (s.cellCfg n) = 0 → usedValid (cellUse (s.cellCfg n)) a b c d = true → (s.cell n).y = none → (s.cell n).z = none →
    exec (.cellToken n a b c d) s = .next (
      let r := s.cellCfg n
      let i := tableIndex (cellUse r) (a.getD false) (b.getD false) (c.getD false) (d.getD false)
      s.setCell n { s.cell n with y := some (bitOf (cellParam r) i), z := if cellZen r then some (bitOf (cellParam r) (16 + i)) else none })) ∧
  (∀ (s : State) (n : Fin 655360) (a b c d : Option Bool), s.cellReset n = false → s.frozen (cellSector n) = false →
    cellMode (s.cellCfg n) = 0 →
    usedValid (cellUse (s.cellCfg n)) a b c d = false ∨ (s.cell n).y.isSome = true ∨ (s.cell n).z.isSome = true →
    exec (.cellToken n a b c d) s = .next (s.setCell n (s.cell n))) ∧
  (∀ (s : State) (n : Fin 655360) (v sel : Bool) (c d : Option Bool), s.cellReset n = false → s.frozen (cellSector n) = false →
    cellMode (s.cellCfg n) = 1 → bitsOf (cellParam (s.cellCfg n)) 0 3 = 0 → (s.cell n).y = none → (s.cell n).z = none →
    exec (.cellToken n (some v) (some sel) c d) s =
      .next (s.setCell n (if sel then { s.cell n with z := some v } else { s.cell n with y := some v }))) ∧
  (∀ (s : State) (n : Fin 655360) (u v sel : Bool) (d : Option Bool), s.cellReset n = false → s.frozen (cellSector n) = false →
    cellMode (s.cellCfg n) = 1 → bitsOf (cellParam (s.cellCfg n)) 0 3 = 1 → (s.cell n).y = none →
    exec (.cellToken n (some u) (some sel) (some v) d) s = .next (s.setCell n { s.cell n with y := some (if sel then v else u) })) ∧
  (∀ (s : State) (n : Fin 655360) (a c : Option Bool) (v : Bool) (b d : Option Bool), s.cellReset n = false →
    s.frozen (cellSector n) = false → cellMode (s.cellCfg n) = 1 → bitsOf (cellParam (s.cellCfg n)) 0 3 = 2 →
    (s.cell n).y = none → a = some v ∨ a = none ∧ c = some v →
    exec (.cellToken n a b c d) s = .next (s.setCell n { s.cell n with y := some v })) ∧
  (∀ (s : State) (n : Fin 655360) (v l : Bool) (b c : Option Bool), s.cellReset n = false →
    s.frozen (cellSector n) = false → cellMode (s.cellCfg n) = 1 → bitsOf (cellParam (s.cellCfg n)) 0 3 = 3 →
    (s.cell n).y = none → exec (.cellToken n (some v) b c (some l)) s = .next (s.setCell n { s.cell n with y := some l })) ∧
  (∀ (s : State) (n : Fin 655360) (v l : Bool) (b c : Option Bool), s.cellReset n = false →
    s.frozen (cellSector n) = false → cellMode (s.cellCfg n) = 1 → bitsOf (cellParam (s.cellCfg n)) 0 3 = 4 →
    (s.cell n).y = none → exec (.cellToken n (some v) b c (some l)) s = .next (s.setCell n
      (if l = bitOf (cellParam (s.cellCfg n)) 3 then { s.cell n with y := some v } else s.cell n))) ∧
  (∀ (s : State) (n : Fin 655360) (v : Bool) (b c d : Option Bool), s.cellReset n = false →
    s.frozen (cellSector n) = false → cellMode (s.cellCfg n) = 1 → bitsOf (cellParam (s.cellCfg n)) 0 3 = 5 →
    bitOf (s.cell n).levels 0 ≠ v → (s.cell n).since = 0 → exec (.cellToken n (some v) b c d) s =
      .next (s.setCell n { s.cell n with levels := b2n v, since := s.now })) ∧
  (∀ (s : State) (n : Fin 655360) (a b c d : Option Bool), s.cellReset n = false →
    s.frozen (cellSector n) = false → cellMode (s.cellCfg n) = 1 → bitsOf (cellParam (s.cellCfg n)) 0 3 = 6 →
    (s.cell n).y = none → exec (.cellToken n a b c d) s = .next (s.setCell n
      { s.cell n with y := some (bitOf (cellParam (s.cellCfg n)) 3) })) ∧
  (∀ (s : State) (n : Fin 655360) (a b c d : Bool), s.cellReset n = false → s.frozen (cellSector n) = false →
    cellMode (s.cellCfg n) = 2 → s.flag Fld.stwSecHoldWrHeld (cellSector n) = false → (s.cell n).y = none → (s.cell n).z = none →
    bitsOf (cellParam (s.cellCfg n)) 0 2 ≠ 3 →
    exec (.bundledTransfer n (some a) (some b) (some c) (some d)) s = .next (s.setCell n (
      let k := bitsOf (cellParam (s.cellCfg n)) 0 2
      if k = 1 then { s.cell n with y := some a, z := some b }
      else { s.cell n with levels := b2n a + 2 * b2n b + 4 * b2n c + (if k = 2 then 8 * b2n d else 0) + 16 }))) ∧
  (∀ (s : State) (n : Fin 655360) (a b c d : Bool), s.cellReset n = false → s.frozen (cellSector n) = false →
    cellMode (s.cellCfg n) = 3 → s.flag Fld.stwSecHoldWrHeld (cellSector n) = false → 3 ≤ (s.cell n).edges →
    bitOf (cellParam (s.cellCfg n)) 18 = false → bitsOf (cellParam (s.cellCfg n)) 19 3 ≠ 4 →
    exec (.activeClockEdge n a b c d) s = .next (s.setCell n { s.cell n with
      levels := b2n (bitOf (cellParam (s.cellCfg n)) (tableIndex (cellUse (s.cellCfg n)) a b c d)) })) ∧
  (∀ (s : State) (n : Fin 655360) (a b c d : Bool), s.cellReset n = false → s.frozen (cellSector n) = false →
    cellMode (s.cellCfg n) = 3 → s.flag Fld.stwSecHoldWrHeld (cellSector n) = false → (s.cell n).edges < 3 →
    bitsOf (cellParam (s.cellCfg n)) 19 3 < 4 →
    exec (.activeClockEdge n a b c d) s = .next (s.setCell n { s.cell n with edges := (s.cell n).edges + 1 })) ∧
  (∀ (s : State) (n : Fin 655360) (onZ : Bool), s.frozen (cellSector n) = false →
    exec (.handshakeWord n onZ) s = .next (s.setCell n (if onZ then { s.cell n with z := none }
      else if cellMode (s.cellCfg n) = 1 ∧ bitsOf (cellParam (s.cellCfg n)) 0 3 = 0 then { s.cell n with y := none }
      else { s.cell n with y := none, z := none })))

/-- O15. SECTOR_URST, CELL_RESET_INPUT and the arbiters. Rests on 04_fabric_cells.md: Start hold, reset and release;
04_fabric_cells.md: The cluster arbiter; notes/assumptions/8.md. -/
def Obligations.FabricResetsAndArbitersAct : Prop :=
  (∀ (s : State) (w : Writer) (sec : Fin 80) (on : Bool), s.priv w ≠ 0 →
    (s.setFlag Fld.stwSecHoldUrst on sec).flag Fld.stwSecHoldDark sec = false →
    (s.setFlag Fld.stwSecHoldUrst on sec).flag Fld.stwSecHoldUrstAct sec = !on →
    exec (.sectorUrst w sec on) s = .next (applyUrst sec on (s.setFlag Fld.stwSecHoldUrst on sec))) ∧
  (∀ (s : State) (w : Writer) (sec : Fin 80) (on : Bool), s.priv w ≠ 0 →
    (s.setFlag Fld.stwSecHoldUrst on sec).flag Fld.stwSecHoldDark sec = true →
    exec (.sectorUrst w sec on) s = .next (s.setFlag Fld.stwSecHoldUrst on sec)) ∧
  (∀ (s : State) (c : Fin 655360), s.cellReset c = false →
    (s.setCell c { s.cell c with ri := true }).cellReset c = true →
    exec (.cellResetInput c true) s = .next (resetCell (s.setCell c { s.cell c with ri := true }) c)) ∧
  (∀ (s : State) (c : Fin 655360), s.cellReset c = true →
    (s.setCell c { s.cell c with ri := false }).cellReset c = false →
    exec (.cellResetInput c false) s = .next (releaseCell (s.setCell c { s.cell c with ri := false }) c)) ∧
  (∀ (s : State) (k : Fin 81920) (side1 : Bool), s.frozen (k.val / 1024) = false → s.clusterReset k = false →
    Tab.get {} s.arbs k = {} → exec (.arbiterRequest k side1) s = .next { s with
      arbs := Tab.set {} s.arbs k (if side1 then { req1 := true, gnt1 := true, last1 := true } else { req0 := true, gnt0 := true, last1 := false }) }) ∧
  (∀ (s : State) (k : Fin 81920), s.frozen (k.val / 1024) = false → s.clusterReset k = false →
    Tab.get {} s.arbs k = { req0 := true, gnt0 := true, last1 := false } →
    exec (.arbiterRequest k true) s = .next { s with
      arbs := Tab.set {} s.arbs k { req0 := true, req1 := true, gnt0 := true, last1 := false } }) ∧
  (∀ (s : State) (k : Fin 81920), s.frozen (k.val / 1024) = false → s.clusterReset k = false →
    Tab.get {} s.arbs k = { req0 := true, req1 := true, gnt0 := true, last1 := false } →
    exec (.arbiterRelease k false) s = .next { s with
      arbs := Tab.set {} s.arbs k { req1 := true, gnt1 := true, last1 := true } })

/-- O16. A transaction offered at a sector's port: accepted whole, answered, discarded or held. Rests on 05_routing_and_spine.md:
Transactions; 05_routing_and_spine.md: Transactions in flight. -/
def Obligations.SpineTakesTransactions : Prop :=
  (∀ (s : State) (p : Fin 80) (h v : W64) (data : List W64),
    let take := fun (op : TOp) (ws : List W64) =>
      let a := s.occupy p
      let b := if op.answered then a.setPortTags p (a.portTags p ++ [hdrTag h]) else a
      b.putTrans { port := p, master := p, owner := 2, tag := hdrTag h, op := op, len := hdrLen h
                   addr := if op = .msg then bitsW h 16 16 else hdrAddr h, space := if op = .msg then .dev else .virt
                   asid := b.fld Fld.wtuFabAsid p, priv := b.fld Fld.wtuFabPriv p
                   va := if op = .msg then bitsW h 16 16 else hdrAddr h, marked := false, data := ws, asker := .port p }
    s.mute p = false → s.heldAt p = [] → s.poolRoom p = true → (s.portTags p).contains (hdrTag h) = false →
    (hdrOp h = 1 → hdrCheck .read h = Code.ok → exec (.spineRead p h) s = .next (take .read [])) ∧
    (hdrOp h = 2 → hdrCheck .write h = Code.ok → data.length = hdrLen h → s.flag Fld.stwSecHoldWrHeld p = false →
      exec (.spineWrite p h data) s = .next (take .write data)) ∧
    (hdrOp h = 3 → hdrCheck .writeAck h = Code.ok → data.length = hdrLen h → s.flag Fld.stwSecHoldWrHeld p = false →
      exec (.spineWriteAck p h data) s = .next (take .writeAck data)) ∧
    (hdrOp h = 4 → hdrCheck .add h = Code.ok → exec (.spineAdd p h v) s = .next (take .add [v])) ∧
    (hdrOp h = 5 → hdrCheck .swap h = Code.ok → exec (.spineSwap p h v) s = .next (take .swap [v])) ∧
    (hdrOp h = 6 → hdrCheck .msg h = Code.ok → bitsW h 16 16 < 0x300 ∨ 0x400 ≤ bitsW h 16 16 ∧ bitsW h 16 16 < 0x420 →
      exec (.spineMsg p h v) s = .next (take .msg [v])) ∧
    (hdrOp h = 1 → hdrCheck .read h ≠ Code.ok → exec (.spineRead p h) s = .next (
      ((s.occupy p).setPortTags p (s.portTags p ++ [hdrTag h])).putRsp ⟨p, hdrTag h, hdrCheck .read h, false, [], .port p⟩)) ∧
    (hdrOp h = 2 → hdrCheck .write h ≠ Code.ok → data.length = hdrLen h → s.flag Fld.stwSecHoldWrHeld p = false →
      exec (.spineWrite p h data) s = .next (s.bump Fld.stwSportCntRefused p))) ∧
  (∀ (s : State) (p : Fin 80) (h : W64), s.mute p = false → s.heldAt p = [] → s.poolRoom p = false → hdrOp h = 1 →
    exec (.spineRead p h) s = .next ((s.bump Fld.stwSportCntPoolWait p).setHeld p [h])) ∧
  (∀ (s : State) (p : Fin 80) (h : W64) (data : List W64) (op : TOp), s.heldAt p = h :: data → opOf h = some op →
    s.poolRoom p = true → (s.portTags p).contains (hdrTag h) = false →
    exec (.spineHeaderAdmit p) s = .next (spineAccept p op h data (s.setHeld p [])))

/-- O17. A transaction's delivery, a fabric target's time limit, and the spine's register commands. Rests on
05_routing_and_spine.md: Transactions; 05_routing_and_spine.md: Arbitration; 05_routing_and_spine.md: Registers;
11_translation_and_protection.md: Addresses. -/
def Obligations.SpineDeliversAndKeepsCount : Prop :=
  (∀ (s : State) (k : Fin 2048) (lost : Fin 4) (taken : Bool) (t t' : Trans) (sp : Space) (a : Nat) (u : State),
    s.trans[k.val]? = some t → translateTrans t s = (t', .ok sp a) →
    mustFollow s (s.trans.take k.val) { t' with space := sp, addr := a } = false →
    present { t' with space := sp, addr := a } taken (s.dropTrans k) = some u →
    exec (.transactionDelivery k lost taken) s = .next (lostContests t'.master lost u)) ∧
  (∀ (s : State) (k : Fin 2048) (lost : Fin 4) (taken : Bool) (t t' : Trans) (code : Nat),
    s.trans[k.val]? = some t → translateTrans t s = (t', .fault code) → mustFollow s (s.trans.take k.val) t' = false →
    exec (.transactionDelivery k lost taken) s = .next (transFault t' code (s.dropTrans k))) ∧
  (∀ (s : State) (k : Fin 2048) (taken : Bool) (t : Trans) (n o p : Nat), s.trans[k.val]? = some t → t.space = .dev →
    targetOf t.addr = .dmem n o → t.op = .read → t.len = 1 → t.asker = .port p → Tab.get 0 s.ecc (dmemBase n + o) = 0 →
    mustFollow s (s.trans.take k.val) t = false →
    exec (.transactionDelivery k 0 taken) s = .next ((s.dropTrans k).putRsp
      ⟨t.port, t.tag, Code.ok, true, [s.memWord (dmemBase n + o)], .port p⟩)) ∧
  (∀ (s : State) (k : Fin 2048) (taken : Bool) (t : Trans) (n o p : Nat) (v : W64), s.trans[k.val]? = some t → t.space = .dev →
    targetOf t.addr = .dmem n o → t.op = .write → t.data = [v] → t.asker = .port p → t.master < 176 →
    mustFollow s (s.trans.take k.val) t = false →
    exec (.transactionDelivery k 0 taken) s = .next ((engWrite (dmemBase n + o) v 255 (s.dropTrans k)).release t.port)) ∧
  (∀ (s : State) (sec : Fin 80) (tag : Byte) (i : Inb), s.spine.inbound = [i] → i.sector = sec.val → i.tag = tag.toNat →
    i.wants = true → exec (.sportTimeout sec tag) s = .next
      ((({ s with spine := { s.spine with inbound := [] } } : State).bump Fld.stwSportCntTimeout sec).putRsp
        ⟨i.port, i.mtag, Code.aborted, false, [], i.asker⟩)) ∧
  (∀ (s : State) (w : Writer) (p : Fin 106), s.priv w ≠ 0 →
    exec (.sportCntClr w p) s = .next (s.setReg Reg.stwSportCnt 0 p) ∧
    exec (.sportPeakClr w p) s = .next (s.setFld Fld.stwSportStatPeak (s.fld Fld.stwSportStatInflight p) p) ∧
    exec (.spinePeakClr w) s = .next (s.setFld Fld.stwSpineStatPeak (s.fld Fld.stwSpineStatInflight))) ∧
  (∀ (s : State) (w : Writer) (c : Fin 64) (v : W32), s.priv w ≠ 0 → exec (.tokDestWrite w c v) s = .next (
    if 79 < bitsW v 0 7 ∧ bitsW v 7 1 = 1 then s.accessError
    else s.setReg Reg.stwTokDest (Reg.stwTokDest.plain (s.reg Reg.stwTokDest c) (v.setWidth 64) false) c))

/-- O18. Reads, writes and atomics of a bank, from its local port and from the host, each with its answer and its effect. Rests
on 06_memory_and_queues.md: Banks; 06_memory_and_queues.md: Operations; 06_memory_and_queues.md: Parity and poison;
06_memory_and_queues.md: Ownership; 01_architecture.md: Address maps; notes/assumptions/33.md. -/
def Obligations.BankAccessesAct : Prop :=
  (∀ (s : State) (b : Fin 1280), s.bankLoading b = false → s.flag Fld.bnkStatQbound b = false → b.val ∉ s.hea.moving →
    s.fld Fld.bnkStatPstate b = 0 → s.frozen (b.val / 16) = false →
    (∀ (h : W64), hdrOp h = 1 → localCheck .read h = Code.ok → hdrLen h = 1 → s.badBytes b (bitsW h 16 9) = 0 →
      exec (.bankAccessRead b h 0) s =
        .next (localAnswer b .read (hdrTag h) Code.ok (some [s.memWord (bankAddr b (bitsW h 16 9))]) s)) ∧
    (∀ (h v : W64) (data : List W64) (ack : Bool), s.bankOwned b 2 (b.val / 16) = true → s.flag Fld.bnkStatDraining b = false →
      s.flag Fld.stwSecHoldWrHeld (b.val / 16) = false →
      (hdrOp h = (if ack then 3 else 2) → localCheck (if ack then .writeAck else .write) h = Code.ok → data.length = hdrLen h →
        exec (.bankAccessWrite b ack h data 0) s = .next (
          let t := bankWrites b (bitsW h 16 9) data s
          if ack then localAnswer b .writeAck (hdrTag h) Code.ok none t else t)) ∧
      (hdrOp h = 4 → localCheck .add h = Code.ok → s.badBytes b (bitsW h 16 9) = 0 →
        exec (.bankAccessAdd b h v 0) s = .next (
          let a := bankAddr b (bitsW h 16 9)
          localAnswer b .add (hdrTag h) Code.ok (some [s.memWord a]) (bankWrite b (bitsW h 16 9) (s.memWord a + v) s))) ∧
      (hdrOp h = 5 → localCheck .swap h = Code.ok → s.badBytes b (bitsW h 16 9) = 0 →
        exec (.bankAccessSwap b h v 0) s = .next (
          localAnswer b .swap (hdrTag h) Code.ok (some [s.memWord (bankAddr b (bitsW h 16 9))])
            (bankWrite b (bitsW h 16 9) v s))))) ∧
  (∀ (s : State) (b : Fin 1280) (h : W64) (data : List W64), s.frozen (b.val / 16) = false →
    s.flag Fld.stwSecHoldWrHeld (b.val / 16) = false → s.bankOwned b 2 (b.val / 16) = false → hdrOp h = 2 →
    localCheck .write h = Code.ok → data.length = hdrLen h → exec (.bankAccessWrite b false h data 0) s =
      .next ((s.deny Code.notOwner 2 1 b).bump Fld.bnkCntDropped b)) ∧
  (∀ (s : State) (w : Writer) (word : BitVec 22), s.priv w ≠ 0 →
    (∀ b k, targetOf (8 * word.toNat) = .bank b k → s.bankLoading b = false → s.flag Fld.bnkStatQbound b = false →
      s.fld Fld.bnkStatPstate b = 0 → s.badBytes b k = 0 → exec (.hostBar2Read w word 0) s =
        .next { s with sys := { s.sys with readData := s.memWord (bankAddr b k) } }) ∧
    (∀ n o, targetOf (8 * word.toNat) = .imem n o → Tab.get 0 s.ecc (imemBase n + o) = 0 → exec (.hostBar2Read w word 0) s =
      .next { s with sys := { s.sys with readData := s.memWord (imemBase n + o) } }) ∧
    (∀ n o, targetOf (8 * word.toNat) = .dmem n o → Tab.get 0 s.ecc (dmemBase n + o) = 0 → exec (.hostBar2Read w word 0) s =
      .next { s with sys := { s.sys with readData := s.memWord (dmemBase n + o) } })) ∧
  (∀ (s : State) (w : Writer) (word : BitVec 22), s.priv w = 0 → exec (.hostBar2Read w word 0) s = .next (
    let t := s.deny Code.wardenOnly 0xFF 6 (writerLink w)
    { t with sys := { t.sys with readData := 0 } })) ∧
  (∀ (s : State) (w : Writer) (word : BitVec 22) (v : W64) (mask : Byte), s.priv w ≠ 0 →
    (∀ b k, targetOf (8 * word.toNat) = .bank b k → s.bankLoading b = false → s.flag Fld.bnkStatQbound b = false →
      s.flag Fld.bnkStatDraining b = false → s.fld Fld.bnkStatPstate b = 0 → s.bankOwned b (s.ownerCode w) 80 = true →
      exec (.hostBar2Write w word v mask 0) s = .next (bankWriteBytes b k v mask.toNat s)) ∧
    (∀ n o, targetOf (8 * word.toNat) = .imem n o → s.fld Fld.engStatState n = 0 →
      exec (.hostBar2Write w word v mask 0) s = .next (engWrite (imemBase n + o) v mask.toNat s)) ∧
    (∀ n o, targetOf (8 * word.toNat) = .imem n o → s.fld Fld.engStatState n ≠ 0 →
      exec (.hostBar2Write w word v mask 0) s = .next ((s.refuse Reg.engRefuse Code.imemBusy 0 n).accessError)) ∧
    (∀ n o, targetOf (8 * word.toNat) = .dmem n o →
      exec (.hostBar2Write w word v mask 0) s = .next (engWrite (dmemBase n + o) v mask.toNat s)))

/-- O19. A bank's owner, its drain, retention entry and exit, parity test and counters. Rests on 06_memory_and_queues.md:
Ownership; 06_memory_and_queues.md: Retention; 06_memory_and_queues.md: Parity and poison; 06_memory_and_queues.md:
Registers; notes/assumptions/31.md; notes/assumptions/32.md; notes/assumptions/35.md. -/
def Obligations.BankControlsAct : Prop :=
  (∀ (s : State) (w : Writer) (b : Fin 1280) (v : W32), s.priv w = 2 →
    exec (.bankOwnWrite w b v) s = .next (
      if 79 < bitsW v 8 7 then s.accessError
      else if ownerValid (bitsW v 0 8) = false then (s.deny Code.ownerBad (s.ownerCode w) 1 b).refuseBank Code.ownerBad b 0
      else if s.fld Fld.bnkOwnOwner b = bitsW v 0 8 ∧ s.fld Fld.bnkOwnFabSector b = bitsW v 8 7 then s
      else ((s.setFld Fld.bnkOwnOwner (bitsW v 0 8) b).setFld Fld.bnkOwnFabSector (bitsW v 8 7) b).setFlag Fld.bnkStatDraining true b)) ∧
  (∀ (s : State) (w : Writer) (b : Fin 1280) (v : W32), s.priv w = 1 →
    exec (.bankOwnWrite w b v) s = .next (s.deny Code.wardenOnly 1 0 (Reg.bnkOwn.addr b 0 / 2 ^ 12)) ∧
    exec (.parityInject w b) s = .next (s.deny Code.wardenOnly 1 0 (Reg.bnkCtl.addr b 0 / 2 ^ 12))) ∧
  (∀ (s : State) (w : Writer) (b : Fin 1280), s.priv w = 2 →
    exec (.parityInject w b) s = .next (s.setFlag Fld.bnkCtlPinj true b)) ∧
  (∀ (s : State) (b : Fin 1280), exec (.bankDrainDone b) s = .next (s.setFlag Fld.bnkStatDraining false b)) ∧
  (∀ (s : State) (w : Writer) (b : Fin 1280), s.priv w ≠ 0 → s.flag Fld.bnkCtlRet b = false →
    (s.flag Fld.bnkStatQbound b = true → exec (.bankRetentionRequest w b) s = .next (s.refuseBank Code.queueBound b 0)) ∧
    (s.flag Fld.bnkStatQbound b = false → (s.setFlag Fld.bnkCtlRet true b).fld Fld.bnkStatPstate b = 0 →
      exec (.bankRetentionRequest w b) s = .next ((s.setFlag Fld.bnkCtlRet true b).setFld Fld.bnkStatPstate 1 b))) ∧
  (∀ (s : State) (w : Writer) (b : Fin 1280), s.priv w ≠ 0 → s.flag Fld.bnkCtlRet b = true →
    (s.setFlag Fld.bnkCtlRet false b).fld Fld.bnkStatPstate b = 2 →
    exec (.bankWakeRequest w b) s = .next ((s.setFlag Fld.bnkCtlRet false b).setFld Fld.bnkStatPstate 3 b)) ∧
  (∀ (s : State) (b : Fin 1280), s.flag Fld.bnkStatDraining b = false →
    (s.fld Fld.bnkStatPstate b = 1 → exec (.bankEntryDone b) s = .next (s.setFld Fld.bnkStatPstate 2 b)) ∧
    (s.fld Fld.bnkStatPstate b = 4 → exec (.bankEntryDone b) s = .next (s.setFld Fld.bnkStatPstate 3 b))) ∧
  (∀ (s : State) (b : Fin 1280), s.fld Fld.bnkStatPstate b = 3 → exec (.bankWakeDone b) s = .next (
    if s.flag Fld.bnkStatSleepPend b then (s.setFlag Fld.bnkStatSleepPend false b).setFld Fld.bnkStatPstate 1 b
    else s.setFld Fld.bnkStatPstate 0 b)) ∧
  (∀ (s : State) (w : Writer) (b : Fin 1280), s.priv w ≠ 0 → exec (.bankCntClr w b) s = .next (s.setReg Reg.bnkCnt 0 b)) ∧
  (∀ (s : State) (w : Writer), s.priv w ≠ 0 →
    exec (.confClr w) s = .next ((upFrom 0 209).foldl (fun s m => s.setReg Reg.bnkConf 0 m) s))

/-- O20. A queue's two ends: QPUSH, QPOP_WAIT, QPOP_NOW, and the window's pushes and pops. Rests on 06_memory_and_queues.md:
Queue controllers; 06_memory_and_queues.md: Operations; notes/assumptions/12.md. -/
def Obligations.QueueEndsPushAndPop : Prop :=
  (∀ (s : State) (q : Fin 160) (v : W64) (last : Bool), s.flag Fld.queCfgProdPort q = false → (s.que q).held = none →
    s.frozen (queSector q) = false →
    exec (.qpush q v last) s = .next (queSettle q (s.setQue q { s.que q with held := some (v, last) }))) ∧
  (∀ (s : State) (q : Fin 160), s.flag Fld.queCfgConsPort q = false → (s.que q).waiting = false → s.frozen (queSector q) = false →
    exec (.qpopWait q) s = .next (queSettle q (s.setQue q { s.que q with waiting := true })) ∧
    (s.queRuns q = true → s.queHeld q = false → exec (.qpopNow q) s = .next (queSettle q ((queLeave q s).1.setQue q
      { (queLeave q s).1.que q with out := some (queLeave q s).2.word })))) ∧
  (∀ (s : State) (q : Fin 160) (last ack : Bool) (tag : Byte) (v : W64) (vs : List W64), s.frozen (queSector q) = false →
    vs.length < 8 → s.flag Fld.queCfgProdPort q = true → s.fld Fld.queCfgProdOwner q = 2 → s.fld Fld.queStatState q = 1 →
    s.flag Fld.stwSecHoldWrHeld (queSector q) = false → s.queHeld q = false →
    (vs.length < s.queRoom q → exec (if last then .quePushEnd q ack tag (v :: vs) else .quePush q ack tag (v :: vs)) s = .next (
      let t := queSettle q (queEnterAll q last (v :: vs) s)
      if ack then { t with spine := { t.spine with
        out := Tab.set [] t.spine.out (1386 + q) (rspWords ⟨1386 + q, tag.toNat, Code.ok, false, [], .none⟩) } } else t)) ∧
    (s.queRoom q ≤ vs.length → exec (if last then .quePushEnd q false tag (v :: vs) else .quePush q false tag (v :: vs)) s =
      .next ((s.bump Fld.queCntDropped q).setFlag Fld.queStatOverflow true q))) ∧
  (∀ (s : State) (q : Fin 160) (tag : Byte), s.frozen (queSector q) = false → s.flag Fld.queCfgConsPort q = true →
    s.fld Fld.queCfgConsOwner q = 2 → s.fld Fld.queStatState q = 1 → s.queHeld q = false →
    let p := (queLeave q s).2
    let code := if p.under then Code.queUnderrun else if p.poison then Code.poisoned else Code.ok
    let t := queSettle q (queLeave q s).1
    let answer := fun ws => { t with spine := { t.spine with
      out := Tab.set [] t.spine.out (1386 + q) (rspWords ⟨1386 + q, tag.toNat, code, true, ws, .none⟩) } }
    exec (.quePop q tag) s = .next (answer [p.data]) ∧
    exec (.quePopTagged q tag) s = .next (answer [p.data, tagWord p ((queLeave q s).1.fld Fld.queStatFill q)]))

/-- O21. A queue's enable, start, disable, stop, flush, watermarks, configuration and counters. Rests on 06_memory_and_queues.md:
Queue controllers; 06_memory_and_queues.md: Registers. -/
def Obligations.QueueControlsAct : Prop :=
  (∀ (s : State) (w : Writer) (q : Fin 160), s.priv w ≠ 0 → s.fld Fld.queStatState q = 0 → s.flag Fld.queCtlEn q = false →
    exec (.queEnable w q) s = .next (
      if s.fld Fld.bnkStatPstate (queBank q) ≠ 0 ∨ s.fld Fld.bnkStatPstate (queBank q + 1) ≠ 0 then s.refuseBank Code.bnkAsleep q 1
      else s.setFlag Fld.queCtlEn true q)) ∧
  (∀ (s : State) (w : Writer) (q : Fin 160), s.priv w ≠ 0 → s.fld Fld.queStatState q = 2 →
    exec (.queEnable w q) s = .next ((s.setFlag Fld.queCtlEn true q).setFld Fld.queStatState 3 q)) ∧
  (∀ (s : State) (q : Fin 160), s.fld Fld.queStatState q = 0 → s.flag Fld.queCtlEn q = true →
    exec (.queEnableDone q) s = .next (
      let b := queBank q
      let t := (s.setFlag Fld.bnkStatQbound true b).setFlag Fld.bnkStatQbound true (b + 1)
      let t := t.setQue q { held := (s.que q).held, waiting := (s.que q).waiting, out := (s.que q).out }
      let t := (t.setReg Reg.queLast 0 q).setFld Fld.queStatState 1 q
      let t := (t.setFlag Fld.queStatXoff false q).setFlag Fld.queStatCutPend false q
      queSettle q (queShow q (t.setFlag Fld.queStatFilling false q)))) ∧
  (∀ (s : State) (w : Writer) (q : Fin 160), s.priv w ≠ 0 → s.fld Fld.queStatState q = 1 →
    exec (.queDisable w q) s = .next ((s.setFlag Fld.queCtlEn false q).setFld Fld.queStatState 2 q)) ∧
  (∀ (s : State) (q : Fin 160), s.fld Fld.queStatState q = 2 ∨ s.fld Fld.queStatState q = 3 →
    exec (.queStopDone q) s = .next (
      let b := queBank q
      let t := (s.setFlag Fld.bnkStatQbound false b).setFlag Fld.bnkStatQbound false (b + 1)
      let t := t.setQue q { held := (s.que q).held, waiting := (s.que q).waiting, out := (s.que q).out }
      let t := (t.setFld Fld.queStatState 0 q).setFlag Fld.queStatXoff false q
      let t := queShow q ((t.setFlag Fld.queStatCutPend false q).setFlag Fld.queStatFilling false q)
      if s.fld Fld.queStatState q = 3 then queBegin q (t.setFlag Fld.queCtlEn false q) else t)) ∧
  (∀ (s : State) (w : Writer) (q : Fin 160), s.priv w ≠ 0 → s.queRuns q = true → exec (.queFlush w q) s = .next (
      let x := s.que q
      let t := s.setQue q { x with ends0 := [], at0 := 0, ends1 := [], at1 := 0, inItem := false, outItem := false, cut := x.cut || x.outItem }
      let t := if x.inItem then t.setFlag Fld.queStatCutPend true q else t
      queSettle q (xoffDown q ((queShow q t).bump Fld.queCntFlushes q)))) ∧
  (∀ (s : State) (w : Writer) (q : Fin 160) (v : W32), s.priv w ≠ 0 →
    (1024 < bitsW v 0 11 ∨ bitsW v 0 11 ≠ 0 ∧ bitsW v 0 11 ≤ bitsW v 16 11 →
      exec (.queWmWrite w q v) s = .next (s.refuseBank Code.queBadCfg q 1)) ∧
    (bitsW v 16 11 < bitsW v 0 11 → bitsW v 0 11 ≤ 1024 → exec (.queWmWrite w q v) s = .next (
      let t := (s.setFld Fld.queWmHigh (bitsW v 0 11) q).setFld Fld.queWmLow (bitsW v 16 11) q
      if bitsW v 0 11 ≤ t.fld Fld.queStatFill q then xoffUp q t else xoffDown q t))) ∧
  (∀ (s : State) (w : Writer) (q : Fin 160) (v : W32), s.priv w ≠ 0 → ownerValid (bitsW v 2 8) = true →
    ownerValid (bitsW v 10 8) = true → exec (.queCfgWrite w q v) s = .next (
      let locked := fun x : W64 => x &&& maskW 0 18 ||| x &&& maskW 20 1
      if s.fld Fld.queStatState q ≠ 0 ∧ locked (s.reg Reg.queCfg q) ≠ locked (v.setWidth 64) then s.refuseBank Code.queBusy q 1
      else s.setReg Reg.queCfg (Reg.queCfg.plain (s.reg Reg.queCfg q) (v.setWidth 64) false) q)) ∧
  (∀ (s : State) (w : Writer) (q : Fin 160), s.priv w ≠ 0 → exec (.queCntClr w q) s = .next (s.setReg Reg.queCnt 0 q))

/-- O22. The root's start, its monitor, loss and holdover, switches and returns. Rests on 07_crossings_and_clocks.md: Reference
sources and the start delay; 07_crossings_and_clocks.md: The clock monitor and CLOCK_LOSS; 07_crossings_and_clocks.md:
Switching the root source; notes/assumptions/13.md. -/
def Obligations.ClockRootActs : Prop :=
  (∀ (s : State) (x r : Bool), s.phase = 1 → (s.setPhase 2).clk.taken = false → (s.setPhase 2).flag Fld.clkStatRootLocked = false →
    x || r → exec (.oscDelayExpiry x r) s = .next (
      let k := if x then 0 else 1
      let t := (((s.setPhase 2).setFld Fld.clkSrcSel k).setFld Fld.clkSrcActive k).setPhase 2
      { t with clk := { t.clk with taken := true } })) ∧
  (∀ (s : State) (x r : Bool), s.phase = 2 → s.clk.taken = false → s.flag Fld.clkStatRootLocked = false →
    x || r → exec (.rootSourceRetry x r) s = .next (
      let k := if x then 0 else 1
      let t := ((s.setFld Fld.clkSrcSel k).setFld Fld.clkSrcActive k).setPhase 2
      { t with clk := { t.clk with taken := true } })) ∧
  (∀ (s : State), s.phase = 2 → s.clk.taken = true → s.flag Fld.clkStatRootLocked = false →
    ((s.setFlag Fld.clkStatRootLocked true).setFld Fld.ldrStatSteps 1).flag Fld.stwRstCauseKind = false →
    exec .rootLock s = .next (
      let t := ((s.setFlag Fld.clkStatRootLocked true).setFld Fld.ldrStatSteps 1).setPhase 3
      { t with dt := 0, fine := 0, arc := { s.arc with starting := true } })) ∧
  (∀ (s : State) (k : Fin 4), s.flag Fld.clkStatRootLocked = true → s.fld Fld.clkSrcActive = k.val →
    exec (.refMissingEdge k) s = .next (clockLoss 1 (s.setReady k false))) ∧
  (∀ (s : State) (k : Fin 4), s.fld Fld.clkSrcActive ≠ k.val → s.clk.target ≠ some k.val →
    exec (.refMissingEdge k) s = .next (s.setReady k false)) ∧
  (∀ (s : State), s.flag Fld.clkStatRootLocked = true → s.fld Fld.clkSrcActive < 4 → exec .pllUnlock s = .next (clockLoss 3 s)) ∧
  (∀ (s : State) (count : BitVec 11) (agree : Bool) (ready : BitVec 4) (t : State),
    t = readyFlags ready (let u := s.setFld Fld.clkMonRefCount count.toNat
      if count.toNat < u.fld Fld.clkMonMinCount then u.setFld Fld.clkMonMinCount count.toNat else u) →
    t.flag Fld.clkStatRootLocked = true → t.fld Fld.clkSrcActive < 4 →
    (990 ≤ count.toNat → count.toNat ≤ 1010 →
      exec (.freqWindow count agree ready) s = .next { t with clk := { t.clk with bad := 0 } }) ∧
    (count.toNat < 990 ∨ 1010 < count.toNat → t.clk.bad = 0 →
      exec (.freqWindow count agree ready) s = .next { t with clk := { t.clk with bad := 1 } }) ∧
    (count.toNat < 990 ∨ 1010 < count.toNat → t.clk.bad ≠ 0 → agree = false →
      exec (.freqWindow count agree ready) s = .next (clockLoss 2 t))) ∧
  (∀ (s : State), s.fld Fld.clkSrcActive = 5 → s.flag Fld.clkStatIntoscFail = false → exec .holdoverToIntosc s =
    .next (((s.setFld Fld.clkSrcActive 4).setFlag Fld.clkStatHoldover false).setFlag Fld.clkStatRootLocked true)) ∧
  (∀ (s : State), s.flag Fld.clkStatLoss = true → s.flag Fld.clkSrcAutoRet = true → s.flag Fld.clkSrcSwitching = false →
    s.srcReady (s.fld Fld.clkSrcSel) = true → s.agreed = true → exec .autoReturnStart s = .next (beginSwitch (s.fld Fld.clkSrcSel)
      { s with lead := { s.lead with waiting := s.lead.waiting.filter (· != .clockReturn)
                                     underWay := s.lead.underWay.filter (· != .clockReturn) } })) ∧
  (∀ (s : State) (w : Writer) (sel : Fin 4) (auto : Bool), s.priv w = 2 → s.agreed = true → s.flag Fld.clkSrcSwitching = false →
    sel.val ≠ s.fld Fld.clkSrcActive →
    exec (.clkSrcSwitch w sel auto) s = .next (
      if s.srcReady sel then beginSwitch sel ((s.setFld Fld.clkSrcSel sel).setFlag Fld.clkSrcAutoRet auto)
      else (s.refuse Reg.clkRefuse Code.clkSwRefused 1).noticeIf (s.flag Fld.clkGctlNoteEn) Code.clkSwRefused 0)) ∧
  (∀ (s : State) (k : Nat), s.clk.target = some k →
    let t := ((s.setFld Fld.clkSrcActive k).setFlag Fld.clkSrcSwitching false).setFlag Fld.clkStatSlewing false
    let t := (t.setFlag Fld.clkStatRootLocked true).setFlag Fld.clkStatHoldover false
    let t := dropClockAction { t with clk := { t.clk with target := none } }
    t.flag Fld.clkStatLoss = false → exec .rootSlewDone s = .next t)

/-- O23. Clock gates, crossings and the clock counters. Rests on 07_crossings_and_clocks.md: Gating and wake;
07_crossings_and_clocks.md: Reset on one side; 07_crossings_and_clocks.md: Registers. -/
def Obligations.ClockGatesAndCrossingsAct : Prop :=
  (∀ (s : State) (w : Writer) (g : Fin 15) (idle : Byte), s.priv w ≠ 0 →
    (((s.setFld Fld.clkGateMode 0 g).setFld Fld.clkGateIdle idle.toNat g).fld Fld.clkGateState g = 1 → exec (.clkGateOn w g idle) s =
      .next (((s.setFld Fld.clkGateMode 0 g).setFld Fld.clkGateIdle idle.toNat g).setFld Fld.clkGateState 0 g)) ∧
    (s.fld Fld.clkGateMode g = 0 → ((s.setFld Fld.clkGateMode 1 g).setFld Fld.clkGateIdle idle.toNat g).fld Fld.clkGateState g = 0 →
      exec (.clkGateAuto w g idle) s = .next ((s.setFld Fld.clkGateMode 1 g).setFld Fld.clkGateIdle idle.toNat g)) ∧
    (s.gateStopped g = true → ((s.setFld Fld.clkGateMode 2 g).setFld Fld.clkGateIdle idle.toNat g).fld Fld.clkGateState g = 0 →
      exec (.clkGateOff w g idle) s =
        .next (((s.setFld Fld.clkGateMode 2 g).setFld Fld.clkGateIdle idle.toNat g).setFld Fld.clkGateState 2 g)) ∧
    (s.gateStopped g = false → exec (.clkGateOff w g idle) s = .next (s.refuse Reg.clkRefuse Code.clkGateBusy (0 + 8 * g)))) ∧
  (∀ (s : State) (g : Fin 15), s.fld Fld.clkGateMode g = 1 →
    (s.fld Fld.clkGateState g = 0 → s.gateIdle g = true → exec (.clkGateIdleStop g) s = .next (s.setFld Fld.clkGateState 2 g)) ∧
    (s.fld Fld.clkGateState g = 1 →
      exec (.clkGateWake g) s = .next ((s.setFld Fld.clkGateState 0 g).bump Fld.clkXingCntWakes (gateCrossing g))) ∧
    (s.fld Fld.clkGateState g = 2 →
      exec (.clkGateWake g) s = .next ((s.setFld Fld.clkGateState 3 g).bump Fld.clkXingCntWakes (gateCrossing g)))) ∧
  (∀ (s : State) (g : Fin 15), s.fld Fld.clkGateState g = 2 ∨ s.fld Fld.clkGateState g = 3 →
    exec (.clkGateStopDone g) s = .next (s.setFld Fld.clkGateState (if s.fld Fld.clkGateState g = 2 then 1 else 0) g)) ∧
  (∀ (s : State) (x : Fin 27), x.val ∈ s.clk.reset → exec (.crossingRelease x 0) s =
    .next { s with clk := { s.clk with reset := s.clk.reset.filter (· != x.val) } }) ∧
  (∀ (s : State) (x : Fin 27) (items : BitVec 16), x.val ∈ s.clk.reset → items ≠ 0 →
    exec (.crossingRelease x items) s = .next (
      let t := ({ s with clk := { s.clk with reset := s.clk.reset.filter (· != x.val) } } : State).bump Fld.clkXingCntDiscard x 0 items.toNat
      t.noticeIf (s.flag Fld.clkGctlNoteEn) Code.xingDiscard x)) ∧
  (∀ (s : State) (w : Writer), s.priv w ≠ 0 →
    exec (.clkMinClr w) s = .next (s.setFld Fld.clkMonMinCount (s.fld Fld.clkMonRefCount)) ∧
    exec (.clkCntClr w) s = .next ((upFrom 0 27).foldl (fun s x => s.setReg Reg.clkXingCnt 0 x) s))

/-- O24. Enable, disable, start, stop, switch, timers, the watchdog and fault delivery of engines and contexts. Rests on
08_motion_engines.md: Contexts; 08_motion_engines.md: Starting and stopping; 08_motion_engines.md: Faults;
08_motion_engines.md: Local memories. -/
def Obligations.EnginesAndContextsStartAndStop : Prop :=
  (∀ (s : State) (w : Writer) (n : Fin 96), s.priv w ≠ 0 → s.flag Fld.engStatRetired n = false →
    ((s.setFlag Fld.engCtlEn true n).fld Fld.engStatState n = 0 → exec (.engineEnable w n) s = .next (
      let t := (s.setFlag Fld.engCtlEn true n).setFld Fld.engStatState 1 n
      let t := t.setEng n { t.eng n with leftOff := t.dt }
      (upFrom 0 4).foldl (fun t c => if t.flag Fld.engCtxCfgAutostart n c then ctxStart n c t else t) t)) ∧
    ((s.setFlag Fld.engCtlEn true n).fld Fld.engStatState n = 2 →
      exec (.engineEnable w n) s = .next ((s.setFlag Fld.engCtlEn true n).setFld Fld.engStatState 3 n))) ∧
  (∀ (s : State) (w : Writer) (n : Fin 96), s.priv w ≠ 0 → s.flag Fld.engStatRetired n = true →
    exec (.engineEnable w n) s = .next (s.refuse Reg.engRefuse Code.engRetired 0 n)) ∧
  (∀ (s : State) (w : Writer) (n : Fin 96), s.priv w ≠ 0 → (s.setFlag Fld.engCtlEn false n).fld Fld.engStatState n = 1 →
    exec (.engineDisable w n) s = .next ((upFrom 0 4).foldl (fun s c => ctxStop n c s)
      ((s.setFlag Fld.engCtlEn false n).setFld Fld.engStatState 2 n))) ∧
  (∀ (s : State) (n : Fin 96), s.fld Fld.engStatState n = 2 → s.engQuiet n = true → exec (.engineStopDone n) s =
    .next (((upFrom 0 4).foldl (fun s c => abortXfer n c s) s).setFld Fld.engStatState 0 n)) ∧
  (∀ (s : State) (w : Writer) (n : Fin 96), s.priv w ≠ 0 → exec (.engineCntClr w n) s = .next (s.setReg Reg.engCnt 0 n)) ∧
  (∀ (s : State) (w : Writer) (n : Fin 96) (c : Fin 4), s.priv w ≠ 0 → s.flag Fld.engStatRetired n = false →
    (s.ctxState n c = 0 → exec (.contextStart w n c) s = .next (
      let t := s.setCtx n c { s.ctx n c with bundles := 0 }
      (t.setCtxState n c 1).setCtx n c { t.ctx n c with wdogAt := t.now })) ∧
    (s.ctxState n c = 4 → exec (.contextStart w n c) s = .next (
      (s.setCtxState n c 1).setCtx n c { s.ctx n c with wdogAt := s.now })) ∧
    (s.ctxState n c = 5 → exec (.contextStart w n c) s = .next (
      let t := (s.setFlag Fld.engCtxStatFaultPend false n c).setFlag Fld.engCtxStatInHandler false n c
      (t.setCtxState n c 1).setCtx n c { t.ctx n c with wdogAt := t.now })) ∧
    (s.ctxState n c = 6 → exec (.contextStart w n c) s = .next (s.setCtxState n c 7))) ∧
  (∀ (s : State) (w : Writer) (n : Fin 96) (c : Fin 4), s.priv w ≠ 0 →
    (s.ctxState n c = 1 ∨ s.ctxState n c = 3 → exec (.contextStop w n c) s = .next (leaveEngine n c 4 s)) ∧
    (s.ctxState n c = 2 ∨ s.ctxState n c = 7 → exec (.contextStop w n c) s = .next (s.setCtxState n c 6))) ∧
  (∀ (s : State) (n : Fin 96) (d : Nat), s.fld Fld.engStatState n = 1 → s.engClocked n = true → s.nextCtx n (s.curCtx n) = some d →
    (s.ctxState n (s.curCtx n) < 6 → s.ctxState n (s.curCtx n) ≠ 2 → exec (.contextSwitch n) s = .next (s.setCtxState n d 2)) ∧
    (s.ctxState n (s.curCtx n) = 2 → exec (.contextSwitch n) s = .next (
      if s.fld Fld.engCtxCfgPrio n (s.curCtx n) < s.fld Fld.engCtxCfgPrio n d then (leaveEngine n (s.curCtx n) 1 s).setCtxState n d 2
      else s))) ∧
  (∀ (s : State) (n : Fin 96), s.ctxState n (s.curCtx n) = 2 → s.engClocked n = true →
    s.flag Fld.engCtxStatFaultPend n (s.curCtx n) = true → (s.ctx n (s.curCtx n)).long = false →
    exec (.faultDelivery n) s = .next (deliverFault n (s.curCtx n) s)) ∧
  (∀ (s : State) (n : Fin 96) (c : Fin 4), s.fld Fld.engCtxCfgWdog n c ≠ 0 → s.ctxState n c = 1 ∨ s.ctxState n c = 2 →
    (s.ctx n c).wdogAt + s.fld Fld.engCtxCfgWdog n c * 80000 ≤ s.now → exec (.watchdogExpiry n c) s = .next
      (chargeFault n c Code.watchdog (s.pc n c) false 0 (s.setCtx n c { s.ctx n c with wdogAt := s.now }))) ∧
  (∀ (s : State) (n : Fin 96) (c : Fin 4), (s.ctx n c).timer.toNat ≤ s.dt.toNat →
    exec (.contextTimerExpiry n c) s = .next (s.wakeCtx n c 5)) ∧
  (∀ (s : State) (n : Fin 96), (s.ctx n (s.curCtx n)).long = true → s.ctxState n (s.curCtx n) = 2 → s.engClocked n = true →
    exec (.longOpComplete n) s = .next (bundle n (s.curCtx n) true s))

/-- O25. Context registers written from outside, engine channels, completion buffers and access responses. Rests on
08_motion_engines.md: Registers; 08_motion_engines.md: Fabric channels; 08_motion_engines.md: Events; 08_motion_engines.md:
Memory beyond the engine; notes/assumptions/20.md. -/
def Obligations.ContextRegistersAndChannelsAct : Prop :=
  (∀ (s : State) (w : Writer) (n : Fin 96) (c : Fin 4) (v : W32), s.priv w ≠ 0 → exec (.ctxPcWrite w n c v) s = .next (
      if s.ctxIdle n c then s.setFld Fld.engCtxPcPc (bitsW v 3 12) n c else s.refuse Reg.engRefuse Code.engBusy c n)) ∧
  (∀ (s : State) (w : Writer) (n : Fin 96) (c : Fin 4) (v : W32), s.priv w = 2 →
    exec (.ctxCfgWrite w n c v) s = .next (
      let old := s.reg Reg.engCtxCfg n c
      if (bitsW v 2 9 ≠ bitsW old 2 9 ∨ bitsW v 13 1 ≠ bitsW old 13 1) ∧ s.ctxIdle n c = false then
        s.refuse Reg.engRefuse Code.engBusy c n
      else s.setReg Reg.engCtxCfg (Reg.engCtxCfg.plain old (v.setWidth 64) false) n c)) ∧
  (∀ (s : State) (w : Writer) (n : Fin 96) (c : Fin 4) (v : W32), s.priv w = 1 → s.flag Fld.wtuSpaceClass (bitsW v 3 8) = true →
    bitsW v 3 8 ≠ bitsW (s.reg Reg.engCtxCfg n c) 3 8 →
    exec (.ctxCfgWrite w n c v) s = .next (s.deny Code.wardenOnly 1 0 (Reg.engCtxCfg.addr n c / 2 ^ 12))) ∧
  (∀ (s : State) (w : Writer) (n : Fin 96) (c : Fin 4) (v : W32), s.priv w ≠ 0 → exec (.ctxEvqWrite w n c false v) s = .next (
      if bitsW v 16 4 < 4 ∨ 11 < bitsW v 16 4 ∨ 0x10000 < bitsW v 5 11 * 32 + 32 * 2 ^ bitsW v 16 4 then
        s.refuse Reg.engRefuse Code.engBadCfg c n
      else s.setReg Reg.engCtxEvq (Reg.engCtxEvq.plain (s.reg Reg.engCtxEvq n c) (v.setWidth 64) false) n c)) ∧
  (∀ (s : State) (w : Writer) (n : Fin 96) (c : Fin 4) (v : W32), s.priv w ≠ 0 → exec (.ctxEvqWrite w n c true v) s = .next (
      let d := signed 16 (bitsW v 16 16 + 2 ^ 16 - s.fld Fld.engCtxEvqPtrWr n c)
      let k : Int := (2 ^ s.fld Fld.engCtxEvqSize n c : Nat)
      if d % k ≠ 0 ∧ k < d then s.refuse Reg.engRefuse Code.engBadCfg c n else s.setFld Fld.engCtxEvqPtrRd (bitsW v 16 16) n c)) ∧
  (∀ (s : State) (w : Writer) (n : Fin 96) (c : Fin 4) (r : Fin 32) (v : W64), s.priv w ≠ 0 → s.ctxIdle n c = true →
    exec (.ctxGregAccess w n c r (some v)) s = .next (s.setG n c r v) ∧
    exec (.ctxGregAccess w n c r none) s = .next { s with sys := { s.sys with readData := s.g n c r } }) ∧
  (∀ (s : State) (w : Writer) (n : Fin 96) (c : Fin 4) (r : Fin 32) (v : W64), s.priv w ≠ 0 → s.ctxIdle n c = false →
    exec (.ctxGregAccess w n c r (some v)) s = .next ((s.refuse Reg.engRefuse Code.engBusy c n).accessError)) ∧
  (∀ (s : State) (w : Writer) (n : Fin 96) (k : Fin 8) (v : W32), s.priv w ≠ 0 → exec (.ochDestWrite w n k v) s = .next (
      if bitsW v 16 1 = 1 ∧ ochTarget (bitsW v 0 16) = false then s.refuse Reg.engRefuse Code.engBadCfg 0 n
      else s.setReg Reg.engOchDest (Reg.engOchDest.plain (s.reg Reg.engOchDest n k) (v.setWidth 64) false) n k)) ∧
  (∀ (s : State) (k : Fin 2048) (t : Trans), s.trans[k.val]? = some t → t.op = .msg → t.va < 0x300 → t.space = .dev →
    mustFollow s (s.trans.take k.val) t = false → ((s.dropTrans k).eng (t.va / 8)).inq = [] →
    ((s.dropTrans k).inCh (t.va / 8) (t.va % 8)).length < 4 → exec (.engineTokenIn k) s =
      .next (delivered t Code.ok none (tokenIn (t.va / 8) (t.va % 8) (wordAt t.data 0) (s.dropTrans k)))) ∧
  (∀ (s : State) (n : Fin 96) (k : Nat) (v : W64), (s.eng n).inq = [(k, v)] → (s.inCh n k).length < 4 →
    exec (.engineMsgAdmit n) s = .next (tokenIn n k v (s.setEng n { s.eng n with inq := [] }))) ∧
  (∀ (s : State) (n : Fin 96) (k : Fin 8) (dest : Nat) (v : W64) (rest : List (Nat × W64)), s.outCh n k = (dest, v) :: rest →
    s.poolRoom (90 + n.val / 8) = true → exec (.outputChannelDrain n k) s = .next (
      let t := ((s.setOutCh n k rest).occupy (90 + n.val / 8)).putTrans
        { port := 90 + n.val / 8, master := 80 + n, owner := 0x10 + n, tag := 0, op := .msg, len := 1
          addr := if 0x1000 ≤ dest then 8 * n + k else dest, space := .dev, asid := 0, priv := 0, va := dest
          marked := false, data := [v], asker := .none }
      (upFrom 0 4).foldl (fun t c => if (t.ctx n c).waitCh = k then t.wakeCtx n c 2 else t) t)) ∧
  (∀ (s : State) (n : Fin 96) (c : Nat) (ws : List W64), evqReady n s = some (c, ws) →
    (s.setEng n { s.eng n with evqBuf := (s.eng n).evqBuf.erase (c, ws) }).flag Fld.engCtxEvqEn n c = true →
    exec (.evqBufferDrain n) s = .next (evqWrite n c ws (s.setEng n { s.eng n with evqBuf := (s.eng n).evqBuf.erase (c, ws) }))) ∧
  (∀ (s : State) (k : Fin 2048) (r : Rsp) (n c : Nat) (a : Acc) (v : W64), s.rsps[k.val]? = some r → r.asker = .context n c →
    r.status = Code.ok → r.hasData = true → r.data = [v] →
    (({ s with rsps := dropAt s.rsps k.val } : State).release r.port).ctx n c = { accs := [a], pend := [a.dst] } → a.slot = r.tag →
    a.copy = false → a.count = 1 → a.stReg = none →
    exec (.accessResponse k) s = .next (
      let t := ({ s with rsps := dropAt s.rsps k.val } : State).release r.port
      ((showPending n c (t.setCtx n c {})).setG n c a.dst v).wakeCtx n c 7))

/-- O26. The integer operations that take one issue: result, PC and count of the bundle, in either place. Rests on
09_kell_instruction_set.md: Integer operations; 09_kell_instruction_set.md: Bundles; 09_kell_instruction_set.md: The
programmer's model. -/
def Obligations.IntegerOperationsWriteTheirResult : Prop :=
  (∀ (s : State) (n : Fin 96) (c : Nat) (m0 m1 : Mn) (w0 w1 : W32),
    let rows := fun (w : W32) =>
      let a := s.g n c (opRa w)
      let b := s.g n c (opRb w)
      let d := s.g n c (opRd w)
      let x := BitVec.ofInt 64 (opSImm w)
      let z := BitVec.ofNat 64 (opImm w)
      ([
      (.kAdd n, .add, a + b), (.kSub n, .sub, a - b), (.kAnd n, .and_, a &&& b), (.kOr n, .or_, a ||| b), (.kXor n, .xor, a ^^^ b),
       (.kShl n, .shl, a <<< bitsW b 0 6), (.kShr n, .shr, a >>> bitsW b 0 6), (.kSar n, .sar, a.sshiftRight (bitsW b 0 6)),
       (.kRor n, .ror, a.rotateRight (bitsW b 0 6)), (.kSlt n, .slt, if a.toInt < b.toInt then 1 else 0),
       (.kSltu n, .sltu, if a.toNat < b.toNat then 1 else 0), (.kSeq n, .seq, if a = b then 1 else 0),
       (.kMin n, .min, if a.toInt < b.toInt then a else b), (.kMax n, .max, if a.toInt < b.toInt then b else a),
       (.kMinu n, .minu, if a.toNat < b.toNat then a else b), (.kMaxu n, .maxu, if a.toNat < b.toNat then b else a),
       (.kMul n, .mul, a * b), (.kMulh n, .mulh, BitVec.ofInt 64 (a.toInt * b.toInt / 2 ^ 64)),
       (.kMulhu n, .mulhu, BitVec.ofNat 64 (a.toNat * b.toNat / 2 ^ 64)), (.kClz n, .clz, BitVec.ofNat 64 (leadingZeros a)),
       (.kPopc n, .popc, BitVec.ofNat 64 (onesCount a)), (.kCmovnz n, .cmovnz, if b ≠ 0 then a else d),
       (.kCmovz n, .cmovz, if b = 0 then a else d), (.kAddi n, .addi, a + x), (.kAndi n, .andi, a &&& z), (.kOri n, .ori, a ||| z),
       (.kXori n, .xori, a ^^^ z), (.kSlti n, .slti, if a.toInt < x.toInt then 1 else 0),
       (.kSltiu n, .sltiu, if a.toNat < x.toNat then 1 else 0), (.kShi n, .shi, shiftBy (bitsW w 8 2) a (bitsW w 0 6)),
       (.kLdi n, .ldi, x), (.kInsh n, .insh, putBits d (16 * opK w) 16 (opImm w))] : List (Instr × Mn × W64))
    s.Issues n c m0 m1 w0 w1 → longMn m0 = false → longMn m1 = false →
    ((if op1Ok w0 then (aluOf n c m0 w0 s).2 else 0) ||| (aluOf n c m1 w1 s).2) &&& (s.ctx n c).trapen = 0 →
    (∀ r ∈ rows w0, r.2.1 = m0 → exec r.1 s = .next (finish n c m1 w1 (aluOf n c m1 w1 s).1
      (0 ||| (aluOf n c m1 w1 s).2) (s.pc n c + 8) (s.setG n c (opRd w0) r.2.2))) ∧
    (∀ r ∈ rows w1, r.2.1 = m1 → ∀ t pc, op0 n c m0 w0 s = .done t pc → exec r.1 s = .next (finish n c m1 w1 r.2.2
      ((if op1Ok w0 then (aluOf n c m0 w0 s).2 else 0) ||| 0) (pc.getD (s.pc n c + 8)) t)))

/-- O27. ADDV, SUBV, and the fixed-point, binary64 and conversion operations that take one issue: result and flags. Rests on
09_kell_instruction_set.md: Q32.32 fixed point; 09_kell_instruction_set.md: binary64; 09_kell_instruction_set.md:
Conversions; 09_kell_instruction_set.md: Bundles; notes/assumptions/14.md. -/
def Obligations.FixedAndFloatOperationsWriteTheirResult : Prop :=
  (∀ (s : State) (n : Fin 96) (c : Nat) (m0 m1 : Mn) (w0 w1 : W32),
    let rows := fun (w : W32) =>
      let a := s.g n c (opRa w)
      let b := s.g n c (opRb w)
      let d := s.g n c (opRd w)
      let rm := (s.ctx n c).rm
      ([

       (.kAddv n, .addv, BitVec.ofInt 64 (a.toInt + b.toInt), if -2 ^ 63 ≤ a.toInt + b.toInt ∧ a.toInt + b.toInt < 2 ^ 63 then 0 else fIOV),
       (.kSubv n, .subv, BitVec.ofInt 64 (a.toInt - b.toInt), if -2 ^ 63 ≤ a.toInt - b.toInt ∧ a.toInt - b.toInt < 2 ^ 63 then 0 else fIOV),
       (.kQadd n, .qadd, saturate (a.toInt + b.toInt)), (.kQsub n, .qsub, saturate (a.toInt - b.toInt)),
       (.kQmul n, .qmul, saturate (roundDiv (a.toInt * b.toInt) (2 ^ 32))),
       (.kQshl n, .qshl, saturate (a.toInt * 2 ^ bitsW b 0 6)), (.kQshr n, .qshr, saturate (roundDiv a.toInt (2 ^ bitsW b 0 6))),
       (.kQabs n, .qabs, saturate a.toInt.natAbs), (.kQneg n, .qneg, saturate (-a.toInt)),
       (.kQshli n, .qshli, saturate (a.toInt * 2 ^ bitsW w 0 6)),
       (.kQshri n, .qshri, saturate (roundDiv a.toInt (2 ^ bitsW w 0 6))), (.kFadd n, .fadd, fAdd rm a b),
       (.kFsub n, .fsub, fSub rm a b), (.kFmul n, .fmul, fMul rm a b), (.kFma n, .fma, fMulAdd rm a b d),
       (.kFmin n, .fmin, fMinMax false a b), (.kFmax n, .fmax, fMinMax true a b), (.kFneg n, .fneg, a ^^^ 0x8000000000000000, 0),
       (.kFabs n, .fabs, a &&& 0x7FFFFFFFFFFFFFFF, 0), (.kFeq n, .feq, fCmpEq a b), (.kFlt n, .flt, fCmpLt a b),
       (.kFle n, .fle, fCmpLe a b), (.kFround n, .fround, fRound rm a),
       (.kFcvtFx n, .fcvtFx, roundInt rm a.toInt (-(bitsW w 0 6 : Int)) false), (.kFcvtXf n, .fcvtXf, fToFixed rm a (bitsW w 0 6)),
       (.kFcvtFxu n, .fcvtFxu, roundInt rm a.toNat (-(bitsW w 0 6 : Int)) false)] : List (Instr × Mn × W64 × Nat))
    s.Issues n c m0 m1 w0 w1 → longMn m0 = false → longMn m1 = false →
    ((if op1Ok w0 then (aluOf n c m0 w0 s).2 else 0) ||| (aluOf n c m1 w1 s).2) &&& (s.ctx n c).trapen = 0 →
    (∀ r ∈ rows w0, r.2.1 = m0 → exec r.1 s = .next (finish n c m1 w1 (aluOf n c m1 w1 s).1
      (r.2.2.2 ||| (aluOf n c m1 w1 s).2) (s.pc n c + 8) (s.setG n c (opRd w0) r.2.2.1))) ∧
    (∀ r ∈ rows w1, r.2.1 = m1 → ∀ t pc, op0 n c m0 w0 s = .done t pc → exec r.1 s = .next (finish n c m1 w1 r.2.2.1
      ((if op1Ok w0 then (aluOf n c m0 w0 s).2 else 0) ||| r.2.2.2) (pc.getD (s.pc n c + 8)) t)))

/-- O28. Divisions, remainders and square roots: they hold their bundle at issue and write their result at its end. Rests on
09_kell_instruction_set.md: Integer operations; 09_kell_instruction_set.md: Q32.32 fixed point; 09_kell_instruction_set.md:
binary64; 09_kell_instruction_set.md: Bundles. -/
def Obligations.LongOperationsIssueAndComplete : Prop :=
  (∀ (s : State) (n : Fin 96) (c : Nat) (m0 m1 : Mn) (w0 w1 : W32), s.Issues n c m0 m1 w0 w1 →
    ∀ r ∈ ([(.kDiv n, .div), (.kDivu n, .divu), (.kRem n, .rem), (.kRemu n, .remu), (.kQdiv n, .qdiv), (.kFdiv n, .fdiv),
      (.kFsqrt n, .fsqrt)] : List (Instr × Mn)),
    (r.2 = m0 → exec r.1 s = .next (s.setCtx n c { s.ctx n c with long := true })) ∧
    (∀ t pc, op0 n c m0 w0 s = .done t pc → r.2 = m1 → exec r.1 s = .next (s.setCtx n c { s.ctx n c with long := true }))) ∧
  (∀ (s : State) (n : Fin 96) (c : Nat) (m0 m1 : Mn) (w0 w1 : W32), s.Bundle n c m0 m1 w0 w1 → (s.ctx n c).long = true →
    s.ctxState n c = 2 → s.engClocked n = true →
    ((if op1Ok w0 then (aluOf n c m0 w0 s).2 else 0) ||| (aluOf n c m1 w1 s).2) &&& (s.ctx n c).trapen = 0 →
    let rows := fun (w : W32) =>
      let a := s.g n c (opRa w)
      let b := s.g n c (opRb w)
      let rm := (s.ctx n c).rm
      ([(.div, if b = 0 then BitVec.allOnes 64 else if a = 0x8000000000000000 ∧ b = BitVec.allOnes 64 then a
            else BitVec.ofInt 64 (Int.tdiv a.toInt b.toInt),
          if b = 0 then fIDZ else if a = 0x8000000000000000 ∧ b = BitVec.allOnes 64 then fIOV else 0),
        (.divu, if b = 0 then BitVec.allOnes 64 else BitVec.ofNat 64 (a.toNat / b.toNat), if b = 0 then fIDZ else 0),
        (.rem, if b = 0 then a else BitVec.ofInt 64 (Int.tmod a.toInt b.toInt), if b = 0 then fIDZ else 0),
        (.remu, if b = 0 then a else BitVec.ofNat 64 (a.toNat % b.toNat), if b = 0 then fIDZ else 0),
        (.qdiv, fixDiv a b), (.fdiv, fDiv rm a b), (.fsqrt, fSqrt rm a)] : List (Mn × W64 × Nat))
    (∀ r ∈ rows w0, r.1 = m0 → exec (.longOpComplete n) s = .next (finish n c m1 w1 (aluOf n c m1 w1 s).1
      (r.2.2 ||| (aluOf n c m1 w1 s).2) (s.pc n c + 8) (s.setG n c (opRd w0) r.2.1))) ∧
    (∀ r ∈ rows w1, r.1 = m1 → ∀ t pc, op0 n c m0 w0 s = .done t pc → exec (.longOpComplete n) s = .next
      (finish n c m1 w1 r.2.1 ((if op1Ok w0 then (aluOf n c m0 w0 s).2 else 0) ||| r.2.2) (pc.getD (s.pc n c + 8)) t)))

/-- O29. What division by zero and the one overflowing division return and raise. Formalises R376. -/
def Obligations.DivisionCornersFollowTheirRule : Prop :=
  ∀ (s : State) (n : Fin 96) (c : Nat) (m : Mn) (w : W32), s.Bundle n c m .nop w 0 → (s.ctx n c).long = true →
    s.ctxState n c = 2 → s.engClocked n = true → (s.ctx n c).trapen = 0 → Tab.wf {} s.ctxs = true →
    Tab.wf 0 (s.ctx n c).g = true →
    let a := s.g n c (opRa w)
    let b := s.g n c (opRb w)
    let ends := fun (r : W64) (f : Nat) => ∃ t, exec (.longOpComplete n) s = .next t ∧ t.g n c (opRd w) = r ∧
      (t.ctx n c).flags = (s.ctx n c).flags ||| f
    (b = 0 → (m = .div ∨ m = .divu → ends (BitVec.allOnes 64) fIDZ) ∧ (m = .rem ∨ m = .remu → ends a fIDZ)) ∧
    (a.toInt = -2 ^ 63 → b.toInt = -1 → (m = .div → ends a fIOV) ∧ (m = .rem → ends 0 0))

/-- O30. LDL, STL, LDML and STML: the words of the data memory they read and write. Rests on 09_kell_instruction_set.md: The
engine's own memories; 09_kell_instruction_set.md: Exceptions; 08_motion_engines.md: Local memories. -/
def Obligations.LocalMemoryOperationsAct : Prop :=
  ∀ (s : State) (n : Fin 96) (c : Nat) (m0 m1 : Mn) (w0 w1 : W32), s.Issues n c m0 m1 w0 w1 → longMn m1 = false →
    (aluOf n c m1 w1 s).2 &&& (s.ctx n c).trapen = 0 →
    let a := (s.g n c (opRa w0) + BitVec.ofInt 64 (opOff w0)).toNat
    let z := 2 ^ (opSz w0 / 2)
    let ends := fun t => Host.Outcome.next (finish n c m1 w1 (aluOf n c m1 w1 s).1 (aluOf n c m1 w1 s).2 (s.pc n c + 8) t)
    (m0 = .ldl → a % z = 0 → a + z ≤ 0x10000 → Tab.get 0 s.ecc (dmemBase n + a / 8 * 8) = 0 →
      exec (.kLdl n) s = ends (s.setG n c (opRd w0) (loadValue (opSz w0) (s.memWord (dmemBase n + a / 8 * 8)) (a % 8)))) ∧
    (m0 = .stl → a % z = 0 → a + z ≤ 0x10000 → Tab.get 0 s.ecc (dmemBase n + a / 8 * 8) = 0 →
      exec (.kStl n) s = ends (engWrite (dmemBase n + a / 8 * 8) (s.g n c (opRd w0) <<< (8 * (a % 8))) ((2 ^ z - 1) * 2 ^ (a % 8)) s)) ∧
    (m0 = .ldml → a % 8 = 0 → a + 8 * opN w0 ≤ 0x10000 → (∀ i, i < opN w0 → Tab.get 0 s.ecc (dmemBase n + (a + 8 * i)) = 0) →
      exec (.kLdml n) s = ends (setGs n c (opRd w0) ((upFrom 0 (opN w0)).map fun i => s.memWord (dmemBase n + (a + 8 * i))) s)) ∧
    (m0 = .stml → a % 8 = 0 → a + 8 * opN w0 ≤ 0x10000 →
      exec (.kStml n) s = ends (dmemWrites n a ((upFrom (opRd w0) (opN w0)).map (s.g n c)) s)) ∧
    (m0 = .ldl → a % z ≠ 0 → exec (.kLdl n) s =
      .next (preciseFault n c Code.misaligned false a (s.setCtx n c { s.ctx n c with long := false })))

/-- O31. LD, ST, LDM, STM, ATOM and MCPY: the access they issue, or their local effect. Rests on 09_kell_instruction_set.md:
Translated memory; 09_kell_instruction_set.md: Restartable copy; 08_motion_engines.md: Memory beyond the engine;
11_translation_and_protection.md: Addresses. -/
def Obligations.TranslatedAccessesIssue : Prop :=
  ∀ (s : State) (n : Fin 96) (c : Nat) (m0 m1 : Mn) (w0 w1 : W32), s.Issues n c m0 m1 w0 w1 → longMn m1 = false →
    (aluOf n c m1 w1 s).2 &&& (s.ctx n c).trapen = 0 → s.poolRoom (90 + n.val / 8) = true →
    let va := (s.g n c (opRa w0) + BitVec.ofInt 64 (opOff w0)).toNat
    let ga := (s.g n c (opRa w0)).toNat
    let xl := fun op va => s.translate (engineCaches n) (s.fld Fld.engCtxCfgAsid n c) (s.fld Fld.engCtxCfgPriv n c) op va
    let free := ((s.ctx n c).accs.filter fun a => a.slot < 8).length < 8
    let ends := fun t => Host.Outcome.next (finish n c m1 w1 (aluOf n c m1 w1 s).1 (aluOf n c m1 w1 s).2 (s.pc n c + 8) t)
    ∀ (sp : Space) (ad : Nat),
    (m0 = .ld → va % 8 = 0 → xl .read va = .ok sp ad → free → exec (.kLd n) s = ends (issued n c .read va 1 []
      (some ⟨opRd w0, 1, if opS w0 then some (opRd w0 + 1) else none, false⟩) sp ad s)) ∧
    (m0 = .st → va % 8 = 0 → opS w0 = false → xl .write va = .ok sp ad →
      exec (.kSt n) s = ends (issued n c .write va 1 [s.g n c (opRd w0)] none sp ad s)) ∧
    (m0 = .st → va % 8 = 0 → opS w0 = true → xl .writeAck va = .ok sp ad → free → exec (.kSt n) s =
      ends (issued n c .writeAck va 1 [s.g n c (opRd w0)] (some ⟨0, 0, some (opRd w0 + 1), false⟩) sp ad s)) ∧
    (m0 = .ldm → va % 8 = 0 → va % 64 + 8 * opN w0 ≤ 64 → xl .read va = .ok sp ad → free →
      exec (.kLdm n) s = ends (issued n c .read va (opN w0) [] (some ⟨opRd w0, opN w0, none, false⟩) sp ad s)) ∧
    (m0 = .stm → va % 8 = 0 → va % 64 + 8 * opN w0 ≤ 64 → xl .write va = .ok sp ad →
      exec (.kStm n) s = ends (issued n c .write va (opN w0) ((upFrom (opRd w0) (opN w0)).map (s.g n c)) none sp ad s)) ∧
    (∀ swap : Bool, m0 = (if swap then .atomSwap else .atomAdd) → bitsW w0 2 1 = 0 → ga % 8 = 0 →
      xl (if swap then .swap else .add) ga = .ok sp ad → free →
      exec (if swap then .kAtomSwap n else .kAtomAdd n) s = ends (issued n c (if swap then .swap else .add) ga 1 [s.g n c (opRb w0)]
        (some ⟨opRd w0, 1, if bitsW w0 1 1 = 1 then some (opRd w0 + 1) else none, false⟩) sp ad s)) ∧
    (∀ swap : Bool, m0 = (if swap then .atomSwap else .atomAdd) → bitsW w0 2 1 = 1 → ga % 8 = 0 → ga + 8 ≤ 0x10000 →
      Tab.get 0 s.ecc (dmemBase n + ga) = 0 → exec (if swap then .kAtomSwap n else .kAtomAdd n) s = ends (
        let v := s.memWord (dmemBase n + ga)
        (engWrite (dmemBase n + ga) (if swap then s.g n c (opRb w0) else v + s.g n c (opRb w0)) 255 s).setG n c (opRd w0) v)) ∧
    (m0 = .mcpy → s.g n c (opRd w0) = 0 → exec (.kMcpy n) s = ends s) ∧
    (m0 = .mcpy → s.g n c (opRd w0) ≠ 0 → bitsW w0 0 1 = 0 → (s.ctx n c).copied = none → (s.ctx n c).accs = [] → ga % 8 = 0 →
      xl .read ga = .ok sp ad → exec (.kMcpy n) s = .next (issued n c .read ga 1 [] (some ⟨0, 0, none, true⟩) sp ad s)) ∧
    (m0 = .mcpy → bitsW w0 0 1 = 1 → bitsW w0 1 1 = 1 → ga % 8 = 0 → ga + 8 ≤ 0x10000 → (s.g n c (opRb w0)).toNat % 8 = 0 →
      (s.g n c (opRb w0)).toNat + 8 ≤ 0x10000 → Tab.get 0 s.ecc (dmemBase n + ga) = 0 → s.g n c (opRd w0) ≠ 0 →
      let t := engWrite (dmemBase n + (s.g n c (opRb w0)).toNat) (s.memWord (dmemBase n + ga)) 255 s
      let t := t.setCtx n c { t.ctx n c with copied := none }
      let t := t.setG n c (opRa w0) (t.g n c (opRa w0) + 8)
      let t := t.setG n c (opRb w0) (t.g n c (opRb w0) + 8)
      let t := t.setG n c (opRd w0) (t.g n c (opRd w0) - 1)
      exec (.kMcpy n) s = if t.g n c (opRd w0) = 0 then ends t else .next t)

/-- O32. Branches, calls and jumps: where the PC goes, what is linked, and the faults of a target outside IMEM or misaligned.
Rests on 09_kell_instruction_set.md: Control flow; 09_kell_instruction_set.md: Exceptions; 09_kell_instruction_set.md:
Bundles. -/
def Obligations.ControlFlowMovesThePc : Prop :=
  ∀ (s : State) (n : Fin 96) (c : Nat) (m0 m1 : Mn) (w0 w1 : W32), s.Issues n c m0 m1 w0 w1 → longMn m1 = false →
    (aluOf n c m1 w1 s).2 &&& (s.ctx n c).trapen = 0 →
    let a := s.g n c (opRd w0)
    let b := s.g n c (opRa w0)
    let pc := s.pc n c
    let goal := (pc : Int) + 8 * opSImm w0
    let ends := fun pc t => Host.Outcome.next (finish n c m1 w1 (aluOf n c m1 w1 s).1 (aluOf n c m1 w1 s).2 pc t)
    let fault := fun code => Host.Outcome.next (preciseFault n c code false 0 (s.setCtx n c { s.ctx n c with long := false }))
    (∀ r ∈ ([(.kBr n, .br, true), (.kBeq n, .beq, a == b), (.kBne n, .bne, a != b), (.kBlt n, .blt, decide (a.toInt < b.toInt)),
        (.kBge n, .bge, decide (b.toInt ≤ a.toInt)), (.kBltu n, .bltu, decide (a.toNat < b.toNat)),
        (.kBgeu n, .bgeu, decide (b.toNat ≤ a.toNat)), (.kBz n, .bz, a == 0), (.kBnz n, .bnz, a != 0)] : List (Instr × Mn × Bool)),
      m0 = r.2.1 →
        (r.2.2 = false → exec r.1 s = ends (pc + 8) s) ∧
        (r.2.2 = true → 0 ≤ goal → goal ≤ 0x7FF8 → exec r.1 s = ends goal.toNat s) ∧
        (r.2.2 = true → goal < 0 ∨ 0x7FF8 < goal → exec r.1 s = fault Code.localRange)) ∧
    (m0 = .call → 0 ≤ goal → goal ≤ 0x7FF8 →
      exec (.kCall n) s = ends goal.toNat (s.setG n c (opRd w0) (BitVec.ofNat 64 (pc + 8)))) ∧
    (m0 = .call → goal < 0 ∨ 0x7FF8 < goal → exec (.kCall n) s = fault Code.localRange) ∧
    (m0 = .jr → b.toNat % 8 = 0 → b.toNat ≤ 0x7FF8 → exec (.kJr n) s = ends b.toNat
      (if bitsW w0 0 1 = 1 then s.setG n c (opRd w0) (BitVec.ofNat 64 (pc + 8)) else s)) ∧
    (m0 = .jr → b.toNat % 8 = 0 → 0x7FF8 < b.toNat → exec (.kJr n) s = fault Code.localRange) ∧
    (m0 = .jr → b.toNat % 8 ≠ 0 → exec (.kJr n) s = fault Code.misaligned)

/-- O33. WAIT, RECV, SEND and CHAV: what they do where their condition holds, and the wait where it does not. Rests on
09_kell_instruction_set.md: Waiting and the engine's ports; 08_motion_engines.md: Fabric channels; 08_motion_engines.md:
Contexts; 08_motion_engines.md: Events. -/
def Obligations.WaitsAndChannelsAct : Prop :=
  ∀ (s : State) (n : Fin 96) (c : Nat) (m0 m1 : Mn) (w0 w1 : W32), s.Issues n c m0 m1 w0 w1 → longMn m1 = false →
    (aluOf n c m1 w1 s).2 &&& (s.ctx n c).trapen = 0 →
    let k := bitsW w0 0 3
    let a := s.g n c (opRa w0)
    let ends := fun t => Host.Outcome.next (finish n c m1 w1 (aluOf n c m1 w1 s).1 (aluOf n c m1 w1 s).2 (s.pc n c + 8) t)
    let waits := fun on ch t => Host.Outcome.next (ctxWait n c on ch t s)
    (m0 = .waitToken → exec (.kWaitToken n) s = if s.inCh n k ≠ [] then ends s else waits 1 k 0) ∧
    (m0 = .waitRoom → exec (.kWaitRoom n) s = if (s.outCh n k).length < 4 then ends s else waits 2 k 0) ∧
    (m0 = .waitWake → exec (.kWaitWake n) s = if s.flag Fld.engCtxStatWakePend n c then
        ends (((s.setFlag Fld.engCtxWakePend false n c).setFlag Fld.engCtxStatWakePend false n c).setG n c (opRd w0)
          (BitVec.ofNat 64 (s.fld Fld.engCtxWakeValue n c))) else waits 3 0 0) ∧
    (m0 = .waitCompletion → exec (.kWaitCompletion n) s = if s.evqEmpty n c then waits 4 0 0 else ends s) ∧
    (m0 = .waitTimer → exec (.kWaitTimer n) s = if a.toNat ≤ s.dt.toNat then ends s else waits 5 0 a) ∧
    (m0 = .waitXfer → exec (.kWaitXfer n) s = if (s.ctx n c).xfer.st = 1 then waits 6 0 0 else ends s) ∧
    (m0 = .recv → s.inCh n k = [] → exec (.kRecv n) s = waits 1 k 0) ∧
    (∀ v rest, m0 = .recv → s.inCh n k = v :: rest → exec (.kRecv n) s =
      ends ((showInputs n (s.setEng n { s.eng n with ich := Tab.set [] (s.eng n).ich k rest })).setG n c (opRd w0) v)) ∧
    (m0 = .send → s.flag Fld.engOchDestBound n k = false →
      exec (.kSend n) s = ends (s.setG n c (opRd w0) (BitVec.ofNat 64 Code.chanNotBound))) ∧
    (m0 = .send → s.flag Fld.engOchDestBound n k = true → (s.outCh n k).length < 4 → exec (.kSend n) s =
      ends ((s.setOutCh n k (s.outCh n k ++ [(s.fld Fld.engOchDestTarget n k, a)])).setG n c (opRd w0) (BitVec.ofNat 64 Code.ok))) ∧
    (m0 = .send → s.flag Fld.engOchDestBound n k = true → 4 ≤ (s.outCh n k).length → exec (.kSend n) s =
      if bitsW w0 3 1 = 1 then ends (s.setG n c (opRd w0) (BitVec.ofNat 64 Code.chanFull)) else waits 2 k 0) ∧
    (m0 = .chav → exec (.kChav n) s = ends (s.setG n c (opRd w0) (chavWord n s)))

/-- O34. SNAP, TBW, EVSET, EVCAN, TKWAKE, EVQ, DACW, XFER, RDDT, CSR and PINR: what they write and change. Rests on
09_kell_instruction_set.md: Waiting and the engine's ports; 09_kell_instruction_set.md: System operations;
08_motion_engines.md: Timebases; 08_motion_engines.md: Events; 08_motion_engines.md: DACs; 08_motion_engines.md: Memory
beyond the engine. -/
def Obligations.EngineServicesAct : Prop :=
  ∀ (s : State) (n : Fin 96) (c : Nat) (m0 m1 : Mn) (w0 w1 : W32), s.Issues n c m0 m1 w0 w1 → longMn m1 = false →
    (aluOf n c m1 w1 s).2 &&& (s.ctx n c).trapen = 0 →
    let a := s.g n c (opRa w0)
    let r := fun i => s.g n c (opRa w0 + i)
    let q := fun i => s.g n c (opRb w0 + i)
    let rd := fun (v : W64) (t : State) => t.setG n c (opRd w0) v
    let x := s.ctx n c
    let ends := fun t => Host.Outcome.next (finish n c m1 w1 (aluOf n c m1 w1 s).1 (aluOf n c m1 w1 s).2 (s.pc n c + 8) t)
    (m0 = .snap → exec (.kSnap n) s = ends (setGs n c (opRd w0) (BitVec.ofNat 64 (s.dt.toNat / 250 * 250) ::
      (upFrom 0 (snapN w0)).flatMap fun i => let tb := bitsW a (8 * i) 5
        [s.reg Reg.tbPos tb, s.reg Reg.tbVel tb, s.reg Reg.tbAcc tb, s.reg Reg.tbStat tb]) s)) ∧
    (m0 = .tbw → exec (.kTbw n) s =
      let y := tbWrite (bitsW a 0 5) (q 3) (q 0) (q 1) (q 2) (bitOf a.toNat 8) (bitOf a.toNat 9) s
      ends (rd (BitVec.ofNat 64 y.2) y.1)) ∧
    (m0 = .evset → exec (.kEvset n) s =
      let y := armEvent (.context n c) (0x10 + n) (r 0) (r 1) (r 2) (r 3) s
      ends (rd (replyWord s y.2.1 y.2.2) y.1)) ∧
    (m0 = .evcan → exec (.kEvcan n) s =
      let y := cancelBy (.context n c) (bitsW a 0 12) s
      ends (rd (replyWord y.1 y.2 (bitsW a 0 12)) y.1)) ∧
    (m0 = .tkwake → exec (.kTkwake n) s = if s.flag Fld.engCtxStatWakePend n c then
        ends (rd (BitVec.ofNat 64 (s.fld Fld.engCtxWakeValue n c + 2 ^ 63))
          ((s.setFlag Fld.engCtxWakePend false n c).setFlag Fld.engCtxStatWakePend false n c)) else ends (rd 0 s)) ∧
    (m0 = .evqHead → exec (.kEvqHead n) s = ends (rd (if s.evqEmpty n c then BitVec.allOnes 64 else BitVec.ofNat 64
      (s.fld Fld.engCtxEvqBase n c * 32 + 32 * (s.fld Fld.engCtxEvqPtrRd n c % 2 ^ s.fld Fld.engCtxEvqSize n c))) s)) ∧
    (m0 = .evqPop → exec (.kEvqPop n) s = ends (if s.evqEmpty n c then s
      else s.setFld Fld.engCtxEvqPtrRd ((s.fld Fld.engCtxEvqPtrRd n c + 1) % 2 ^ 16) n c)) ∧
    (m0 = .dacw → exec (.kDacw n) s = let k := bitsW w0 0 4
      if s.fld Fld.pinDacCfgOwner k = 0x10 + n then ends (rd (BitVec.ofNat 64 Code.ok) (s.setFld Fld.pinDacCodeCode (bitsW a 0 16) k))
      else ends (rd (BitVec.ofNat 64 Code.dacNotOwned) (s.deny Code.dacNotOwned (0x10 + n) 5 k))) ∧
    (m0 = .xferStart → (r 0).toNat % 8 = 0 → (r 1).toNat % 8 = 0 → (r 2).toNat % 8 = 0 → x.xfer.st ≠ 1 → x.xfer.st ≠ 2 →
      exec (.kXferStart n) s = ends ((s.setJob (64 + 4 * n + c) { on := true, src := (r 0).toNat, dst := (r 1).toNat, len := (r 2).toNat }).setCtx
        n c { x with xfer := { st := 1, src := (r 0).toNat, dst := (r 1).toNat, len := (r 2).toNat, pc := s.pc n c } })) ∧
    (m0 = .xferStart → (r 0).toNat % 8 = 0 → (r 1).toNat % 8 = 0 → (r 2).toNat % 8 = 0 → x.xfer.st = 1 ∨ x.xfer.st = 2 →
      exec (.kXferStart n) s = .next (ctxWait n c 6 0 0 s)) ∧
    (m0 = .xferStart → (r 0).toNat % 8 ≠ 0 → exec (.kXferStart n) s =
      .next (preciseFault n c Code.misaligned false 0 (s.setCtx n c { x with long := false }))) ∧
    (m0 = .xferResume → exec (.kXferResume n) s =
      ends (if x.xfer.st = 2 then s.setCtx n c { x with xfer := { x.xfer with st := 1 } } else s)) ∧
    (m0 = .xferAbort → exec (.kXferAbort n) s =
      ends (if x.xfer.st = 1 ∨ x.xfer.st = 2 then endXfer n c Code.aborted s else s)) ∧
    (m0 = .xferStatus → exec (.kXferStatus n) s = ends (rd (xferWord n c s) s)) ∧
    (m0 = .rddt → exec (.kRddt n) s = ends (rd s.dt s)) ∧
    (m0 = .csrRead → exec (.kCsrRead n) s = ends (rd (csrRead n c (opRb w0) s) s)) ∧
    (m0 = .csrWrite → exec (.kCsrWrite n) s = ends (rd (csrRead n c (opRb w0) s) (csrWrite n c (opRb w0) a s))) ∧
    (m0 = .csrSet → exec (.kCsrSet n) s =
      ends (rd (csrRead n c (opRb w0) s) (csrWrite n c (opRb w0) (csrRead n c (opRb w0) s ||| a) s))) ∧
    (m0 = .csrClear → exec (.kCsrClear n) s =
      ends (rd (csrRead n c (opRb w0) s) (csrWrite n c (opRb w0) (csrRead n c (opRb w0) s &&& ~~~a) s))) ∧
    (m0 = .pinr → exec (.kPinr n) s = ends (rd (s.reg Reg.pinIn (bitsW w0 0 4)) s))

/-- O35. NOP, FENCE, YIELD, HALT, RFH, CTXSTART and CTXSTOP. Rests on 09_kell_instruction_set.md: System operations;
09_kell_instruction_set.md: Exceptions; 09_kell_instruction_set.md: Bundles; 08_motion_engines.md: Contexts. -/
def Obligations.SystemOperationsAct : Prop :=
  ∀ (s : State) (n : Fin 96) (c : Nat) (m0 m1 : Mn) (w0 w1 : W32), s.Issues n c m0 m1 w0 w1 → longMn m1 = false →
    (aluOf n c m1 w1 s).2 &&& (s.ctx n c).trapen = 0 →
    let d := bitsW (s.g n c (opRa w0)) 0 2
    let x := s.ctx n c
    let quiet := (∀ a ∈ x.accs, 8 ≤ a.slot) ∧ x.posted = 0
    let ends := fun pc t => Host.Outcome.next (finish n c m1 w1 (aluOf n c m1 w1 s).1 (aluOf n c m1 w1 s).2 pc t)
    let next := s.pc n c + 8
    (m0 = .nop → exec (.kNop n) s = ends next s) ∧
    (m0 = .fence → quiet → exec (.kFence n) s = ends next s) ∧
    (m0 = .fence → ¬ quiet → exec (.kFence n) s = .next (if x.stall then s else ctxWait n c 7 0 0 s)) ∧
    (m0 = .yield → (∀ e, e < 4 → e ≠ c → s.ctxState n e = 1 → s.fld Fld.engCtxCfgPrio n e ≠ s.fld Fld.engCtxCfgPrio n c) →
      exec (.kYield n) s = ends next s) ∧
    (∀ e, m0 = .yield → e < 4 → e ≠ c → s.ctxState n e = 1 → s.fld Fld.engCtxCfgPrio n e = s.fld Fld.engCtxCfgPrio n c →
      exec (.kYield n) s = ends next (leaveEngine n c 1 s)) ∧
    (m0 = .halt → exec (.kHalt n) s = ends next (leaveEngine n c 4 s)) ∧
    (m0 = .rfh → x.epc ≤ 0x7FF8 → exec (.kRfh n) s = ends x.epc (s.setFlag Fld.engCtxStatInHandler false n c)) ∧
    (m0 = .ctxstart → exec (.kCtxstart n) s = ends next (ctxStart n d s)) ∧
    (m0 = .ctxstop → exec (.kCtxstop n) s = ends next (if d = c then leaveEngine n c 4 s else ctxStop n d s))

/-- O36. An operation that would raise a trapped flag faults its bundle precisely; untrapped flags are raised as usual.
Formalises R408. -/
def Obligations.TrappedFlagsFaultTheBundle : Prop :=
  ∀ (s t : State) (n : Fin 96) (c : Nat) (m0 m1 : Mn) (w0 w1 : W32) (pc : Option Nat), Tab.wf {} s.ctxs = true →
    op0 n c m0 w0 s = .done t pc →
    let x := s.ctx n c
    let f0 := if op1Ok w0 then (aluOf n c m0 w0 s).2 else 0
    let all := f0 ||| (aluOf n c m1 w1 s).2
    let u := preciseFault n c Code.arithTrap (f0 &&& x.trapen == 0) 0 (s.setCtx n c { x with tcause := all, long := false })
    let goes := fun (i : Instr) =>
      (all &&& x.trapen ≠ 0 → exec i s = .next u ∧
        (u.ctx n c).flags = x.flags ∧ (u.ctx n c).tcause = all ∧ ∀ r, u.g n c r = s.g n c r) ∧
      (all &&& x.trapen = 0 → exec i s = .next (finish n c m1 w1 (aluOf n c m1 w1 s).1 all (pc.getD (s.pc n c + 8)) t))
    (s.Issues n c m0 m1 w0 w1 → longMn m0 = false → longMn m1 = false →
      ∀ r ∈ ([(.kAddv n, .addv), (.kSubv n, .subv), (.kQadd n, .qadd), (.kQsub n, .qsub), (.kQmul n, .qmul), (.kQshl n, .qshl),
        (.kQshr n, .qshr), (.kQabs n, .qabs), (.kQneg n, .qneg), (.kQshli n, .qshli), (.kQshri n, .qshri), (.kFadd n, .fadd),
        (.kFsub n, .fsub), (.kFmul n, .fmul), (.kFma n, .fma), (.kFmin n, .fmin), (.kFmax n, .fmax), (.kFneg n, .fneg),
        (.kFabs n, .fabs), (.kFeq n, .feq), (.kFlt n, .flt), (.kFle n, .fle), (.kFround n, .fround), (.kFcvtFx n, .fcvtFx),
        (.kFcvtXf n, .fcvtXf), (.kFcvtFxu n, .fcvtFxu)] : List (Instr × Mn)), (m0 = r.2 ∨ m1 = r.2) → goes r.1) ∧
    (s.Bundle n c m0 m1 w0 w1 → x.long = true → s.ctxState n c = 2 → s.engClocked n = true → goes (.longOpComplete n))

/-- O37. The parallel host port: half-words gathered into whole targets, read shadows, time-outs, pages and counts. Rests on
10_host_link_and_rings.md: The parallel host port; 10_host_link_and_rings.md: Registers. -/
def Obligations.ParallelHostPortMovesWords : Prop :=
  (∀ (s : State) (a : BitVec 15) (v : BitVec 16) (lost : Fin 4) (merged : Bool),
    let b := s.phpAddr a.toNat
    let t := phpTarget b.1 b.2
    let h := (b.2 - t.1) / 2
    exec (.phpWrite a v true lost merged) s = .next s.accessError ∧
    (h = 0 → exec (.phpWrite a v false lost merged) s = .next { s with php := { s.php with held := some (b.1, t.1, [v.toNat]) } }) ∧
    (∀ l, h ≠ 0 → s.php.held = some (b.1, t.1, l) → l.length = h → h + 1 < t.2 →
      exec (.phpWrite a v false lost merged) s = .next { s with php := { s.php with held := some (b.1, t.1, l ++ [v.toNat]) } }) ∧
    (∀ l, h ≠ 0 → s.php.held = some (b.1, t.1, l) → l.length = h → h + 1 = t.2 → exec (.phpWrite a v false lost merged) s =
      .next (phpStore b.1 t.1 (halves (l ++ [v.toNat])) lost merged { s with php := { s.php with held := none } })) ∧
    (h ≠ 0 → (∀ l, s.php.held = some (b.1, t.1, l) → l.length ≠ h) → exec (.phpWrite a v false lost merged) s =
      let u := (s.bump Fld.rngPhpStatPhpOrder).accessError
      .next { u with php := { u.php with held := none } }) ∧
    (h = 0 → exec (.phpRead a lost) s =
      let r := phpLoad b.1 t.1 lost s
      .next { r.1 with
                php := { r.1.php with shadow := some (b.1, t.1, r.2) }
                sys := { r.1.sys with readData := BitVec.ofNat 64 (bitsW r.2 0 16) } }) ∧
    (∀ x, h ≠ 0 → s.php.shadow = some (b.1, t.1, x) → exec (.phpRead a lost) s =
      .next { s with sys := { s.sys with readData := BitVec.ofNat 64 (bitsW x (16 * h) 16) } }) ∧
    (h ≠ 0 → (∀ x, s.php.shadow ≠ some (b.1, t.1, x)) → exec (.phpRead a lost) s =
      let r := phpLoad b.1 t.1 lost s
      .next { r.1 with sys := { r.1.sys with readData := BitVec.ofNat 64 (bitsW r.2 (16 * h) 16) } })) ∧
  (∀ s : State,
    exec (.phpTimeout true) s = .next { s.bump Fld.rngPhpStatPhpTimeout with php := { s.php with held := none } } ∧
    exec (.phpTimeout false) s = .next { s.bump Fld.rngPhpStatPhpTimeout with
      php := { s.php with shadow := none }
      sys := { s.sys with readData := 0 } } ∧
    exec .phpStatClr s = .next (s.setReg Reg.rngPhpStat 0)) ∧
  (∀ (s : State) (v : W32), exec (.phpPageWrite 0 v) s = .next s) ∧
  (∀ (s : State) (k : Fin 16) (v : W32), k ≠ 0 →
    (bitsW v 13 1 = 0 → 4095 < bitsW v 0 13 → exec (.phpPageWrite k v) s = .next s.accessError) ∧
    (bitsW v 13 1 = 1 ∨ bitsW v 0 13 ≤ 4095 → exec (.phpPageWrite k v) s =
      .next (s.setReg Reg.rngPhpPage (Reg.rngPhpPage.plain (s.reg Reg.rngPhpPage k) (v.setWidth 64) false) k)))

/-- O38. Table reads, invalidations and space writes. Rests on 11_translation_and_protection.md: Addresses;
11_translation_and_protection.md: Caches and invalidation; 11_translation_and_protection.md: When a translation fails;
11_translation_and_protection.md: Registers. -/
def Obligations.TranslationWalksAndInvalidationAct : Prop :=
  (∀ (s : State) (k : Fin 16) (x : Walk) (first own : W64) (err : Bool), s.wtu.walks[k.val]? = some x → x.dev = false →
    ¬ (s.flag Fld.rngLinkUp = true ∧ s.sys.retraining = true) →
    let e := if x.level = 0 then lowestEntry first own else upperEntry x.level own
    (err = true ∨ s.flag Fld.rngLinkUp = false →
      exec (.tableReadDone k first own err) s = .next (walkDone k x (.fault Code.tblReadErr) s)) ∧
    (err = false → s.flag Fld.rngLinkUp = true →
      (∀ t dev, e = .table t dev → exec (.tableReadDone k first own err) s = .next { s with wtu := { s.wtu with
        walks := setAt s.wtu.walks k { x with level := x.level - 1, table := t, dev := dev } } }) ∧
      (∀ size frame r w u dev, e = .leaf size frame r w u dev →
        exec (.tableReadDone k first own err) s = .next (walkDone k x (.leaf size frame r w u dev) s)) ∧
      (∀ code, e = .fault code → exec (.tableReadDone k first own err) s = .next (walkDone k x (.fault code) s)))) ∧
  (∀ (s : State) (w : Writer) (asid : Byte), s.priv w = 2 →
    ∀ r ∈ ([(.invAddress w asid, 0), (.invSpace w asid, 1), (.invAll w asid, 2)] : List (Instr × Nat)),
      (s.flag Fld.wtuInvGo = true → exec r.1 s = .next s) ∧
      (s.flag Fld.wtuInvGo = false → exec r.1 s = .next (
        let v : W64 := BitVec.ofNat 64 (r.2 + asid.toNat * 2 ^ 8 + 2 ^ 31)
        let t := s.setReg Reg.wtuInv (Reg.wtuInv.plain (s.reg Reg.wtuInv) v true)
        ((t.setFlag Fld.wtuInvDone false).setFlag Fld.wtuInvGo true).invalidate))) ∧
  (∀ s : State, s.flag Fld.wtuInvGo = true → (∀ x ∈ s.wtu.walks, x.atGo = false) → (∀ t ∈ s.trans, t.marked = false) →
    exec .invalidateDone s =
      .next (((s.setFlag Fld.wtuInvGo false).setFlag Fld.wtuInvDone true).bump Fld.wtuCntInvalidations)) ∧
  (∀ (s : State) (w : Writer) (a : Fin 256) (v : W64), s.priv w = 2 →
    let new := Reg.wtuSpace.plain (s.reg Reg.wtuSpace a) v true
    bitsW new 1 1 = 0 ∨ bitsW new 12 40 * 4096 < 0x500000 →
    exec (.spaceWrite w a v) s = .next ((s.setReg Reg.wtuSpace new a).invalidateSpace a))

/-- O39. WTU_SVN: a rise consumes one count, and a lower value or one above 128 is refused with LIFE_BAD. Formalises R476. -/
def Obligations.SecurityVersionOnlyRises : Prop :=
  (State.reset.fld Fld.wtuSvnSvn = 0 ∧ State.reset.fld Fld.wtuSvnRemain = 128) ∧
  ∀ (s : State) (w : Writer) (v : W32), s.Regular → s.priv w = 2 → s.flag Fld.wtuLifeStatLifeBusy = false →
    let n := bitsW v 0 8
    (s.fld Fld.wtuSvnSvn < n → n ≤ 128 → s.fld Fld.wtuSvnRemain ≠ 0 → ∃ t, exec (.svnWrite w v) s = .next t ∧
      t.fld Fld.wtuSvnSvn = n ∧ t.fld Fld.wtuSvnRemain + 1 = s.fld Fld.wtuSvnRemain ∧ t.flag Fld.wtuLifeStatLifeBusy = true) ∧
    (n < s.fld Fld.wtuSvnSvn ∨ 128 < n →
      exec (.svnWrite w v) s = .next (s.deny Code.lifeBad 0 0 (Reg.wtuSvn.addr 0 0 / 2 ^ 12)))

/-- O40. WTU_LINK, the key slots, BOOT_LOCK, debug disable, the store's end and the counters. Rests on
11_translation_and_protection.md: Privilege; 11_translation_and_protection.md: Lifetime‑limited settings;
11_translation_and_protection.md: Registers; 11_translation_and_protection.md: Status codes. -/
def Obligations.LinkAndLifetimeWritesAct : Prop :=
  (∀ (s : State) (w : Writer) (l : Fin 3) (v : W32), s.priv w = 2 →
    let p := bitsW v 0 2
    let no := fun code => Host.Outcome.next (s.deny code 0 6 l)
    (l = 2 → s.flag Fld.wtuDebugDisable = true → exec (.linkPrivWrite w l v) s = no Code.lifeSpent) ∧
    (¬ (l = 2 ∧ s.flag Fld.wtuDebugDisable = true) →
      (p = 3 → exec (.linkPrivWrite w l v) s = no Code.ownerBad) ∧
      (p ≠ 3 → p ≠ 2 → (∀ k, k < 3 → k ≠ l.val → s.fld Fld.wtuLinkPriv k ≠ 2) →
        exec (.linkPrivWrite w l v) s = no Code.wardenLast) ∧
      (p ≠ 3 → (p = 2 ∨ ∃ k, k < 3 ∧ k ≠ l.val ∧ s.fld Fld.wtuLinkPriv k = 2) →
        exec (.linkPrivWrite w l v) s = .next (s.setFld Fld.wtuLinkPriv p l)))) ∧
  (∀ (s : State) (w : Writer), s.priv w = 2 → s.flag Fld.wtuLifeStatLifeBusy = false →
    let take := fun (r : Reg) (i : Nat) (key : List W32) =>
      let t := s.setFlag Fld.wtuLifeStatLifeBusy true
      { t with wtu := { t.wtu with life := some (r.addr i 0, s.reg r i, key) } }
    (∀ k : Fin 4, let clear := fun t => (upFrom 0 8).foldl (fun s i => s.setReg Reg.wtuKeyData 0 i) t
      (s.flag Fld.wtuKeyCtlSet k = false → exec (.keyCommit w k) s = .next (clear (
        let t := ((take Reg.wtuKeyCtl k (s.slotKey k)).setFlag Fld.wtuKeyCtlSet true k).setFld Fld.wtuKeyCtlKcv (keyCheck s.stagedKey) k
        { t with wtu := { t.wtu with keys := Tab.set [] t.wtu.keys k s.stagedKey } }))) ∧
      (s.flag Fld.wtuKeyCtlSet k = true → s.slotKey k = s.stagedKey → exec (.keyCommit w k) s = .next (clear s))) ∧
    (∀ v : W32, bitsW v 0 3 ≤ 4 → bitsW v 0 3 ≠ s.fld Fld.wtuBootLockLock → s.fld Fld.wtuBootLockRemain ≠ 0 →
      exec (.bootLockWrite w v) s = .next (
        let t := take Reg.wtuBootLock 0 []
        (t.setFld Fld.wtuBootLockRemain (t.fld Fld.wtuBootLockRemain - 1)).setFld Fld.wtuBootLockLock (bitsW v 0 3))) ∧
    (s.flag Fld.wtuDebugDisable = false → s.flag Fld.wtuDebugRemain = true → s.fld Fld.wtuLinkPriv 0 = 2 →
      exec (.debugDisable w) s = .next (((take Reg.wtuDebug 0 []).setFlag Fld.wtuDebugRemain false).setFlag Fld.wtuDebugDisable true |>.setFld
        Fld.wtuLinkPriv 0 2))) ∧
  (∀ (s : State) (w : Writer), s.priv w ≠ 0 → exec (.wtuCntClr w) s = .next (s.setReg Reg.wtuCnt 0)) ∧
  (∀ s : State, exec .lifeStoreDone s =
    .next { s.setFlag Fld.wtuLifeStatLifeBusy false with wtu := { s.wtu with life := none } })

/-- O41. NOP, COPY, MSG, ARM_SHORT, ARM_INLINE, ARM_IMG, CANCEL, TB_WRITE, LOAD and SHEET: how a ring's oldest descriptor starts.
Rests on 10_host_link_and_rings.md: Descriptors; 10_host_link_and_rings.md: Movers and execution; 10_host_link_and_rings.md:
Completion records; 12_configuration.md: Sources; notes/assumptions/21.md. -/
def Obligations.DescriptorsStart : Prop :=
  (∀ (s : State) (n : Fin 64) (i : Nat) (d : List W64) (rest : List (Nat × List W64)) (lost : Fin 4),
    Tab.wf {} s.jobs = true → (s.job n).on = false → (s.ring n).fetched = (i, d) :: rest → s.fld Fld.rngStatState n = 1 → s.ringsGo = true →
    (s.ring n).record = none → bitOf (descFlags d) 0 = false ∨ s.fenced n = true →
    let t := showServed n ((s.setRing n { s.ring n with fetched := rest }).setJob n { on := true, desc := d, index := i })
    let ext := t.extended n
    let a := descArg d ext
    let w := fun k => BitVec.ofNat 64 (a k)
    let reply := fun (code slot : Nat) (u : State) =>
      Host.Outcome.next (completeDesc n code (setResult n (replyWord u code slot) u))
    (∀ r ∈ ([(.descNop n, 0), (.descCopy n lost, 1), (.descMsg n, 2), (.armShort n, 3), (.armInline n, 4), (.armImg n lost, 5),
      (.descCancel n, 6), (.tbWrite n lost, 7), (.descLoad n lost, 8), (.descSheet n, 9)] : List (Instr × Nat)),
      descRow d = r.2 → descCheck n d t ≠ Code.ok → exec r.1 s = .next (completeDesc n (descCheck n d t) t)) ∧
    (descCheck n d t = Code.ok →
      (descOp d = 0 → exec (.descNop n) s = .next (completeDesc n Code.ok t)) ∧
      (descOp d = 1 → exec (.descCopy n lost) s =
        .next (jobChunk n lost (setTransfer n (a 0) (a 1) (if ext then a 2 else 8 * (if a 2 = 0 then 65536 else a 2)) t))) ∧
      (descOp d = 2 → a 0 < 0x300 ∨ (0x400 ≤ a 0 ∧ a 0 < 0x420) → exec (.descMsg n) s = .next (completeDesc n Code.ok (t.putTrans
        { moverTrans (t.ringMover n) (t.jobOwner n) 0 0 .msg (a 0) 1 .dev (a 0) [w 1] (.mover n) with space := .dev }))) ∧
      (descOp d = 2 → 0x300 ≤ a 0 → (a 0 < 0x400 ∨ 0x420 ≤ a 0) → (a 0 < 0x1000 ∨ 0x1050 ≤ a 0) → exec (.descMsg n) s =
        .next (completeDesc n Code.badReserved (refusedAt (102 + t.ringMover n / 16) t))) ∧
      (descOp d = 3 → bitOf (a 0) 19 = true → exec (.armShort n) s =
        let r := armEvent (.ring n) (t.jobOwner n) (w 1) 0 0 (w 0) t
        reply r.2.1 r.2.2 r.1) ∧
      (descOp d = 3 → bitOf (a 0) 19 = false → exec (.armShort n) s =
        let r := refusedArm (.ring n) Code.badEvent (w 0) t
        reply Code.badEvent r.2 r.1) ∧
      (descOp d = 4 → exec (.armInline n) s =
        let r := armEvent (.ring n) (t.jobOwner n) (w 1) (w 0) (w 2) (w 3) t
        reply r.2.1 r.2.2 r.1) ∧
      (descOp d = 5 → exec (.armImg n lost) s =
        .next (jobChunk n lost (setTransfer n (a 0) (a 1) (32 * (if a 2 = 0 then 256 else a 2)) t))) ∧
      (descOp d = 6 → exec (.descCancel n) s =
        let r := cancelBy (.ring n) (a 0) t
        reply r.2 (a 0) r.1) ∧
      (descOp d = 7 → exec (.tbWrite n lost) s = .next (jobChunk n lost (setTransfer n (a 2) 0 32 t))) ∧
      (descOp d = 8 → exec (.descLoad n lost) s = .next (jobChunk n lost (setTransfer n (a 0) 0 (a 1) t))) ∧
      (descOp d = 9 → exec (.descSheet n) s = .next (setTransfer n 0 (a 0) 3456 t)))) ∧
  (∀ (s : State) (n : Fin 64) (lost : Fin 4), (s.job n).on = true →
    ∀ r ∈ ([(.descCopy n lost, 1), (.armImg n lost, 5), (.tbWrite n lost, 7), (.descLoad n lost, 8)] : List (Instr × Nat)),
      descOp (s.job n).desc = r.2 → exec r.1 s = .next (jobChunk n lost s)) ∧
  (∀ (s : State) (n : Fin 96) (c : Fin 4) (lost : Fin 4), let j := 64 + 4 * n.val + c.val
    (s.job j).on = true → (s.ctx n c).xfer.st = 1 → (s.job j).await = false → (s.job j).put = false → (s.job j).len ≤ (s.job j).done →
    exec (.xferEnd n c lost) s = .next (showMover ((showServed j s).jobMover j) (endXfer n c (s.job j).status (showServed j s))))

/-- O42. Descriptor fetches, host read completions, spine responses and contact sheets. Rests on 10_host_link_and_rings.md:
Descriptors; 10_host_link_and_rings.md: Movers and execution; 10_host_link_and_rings.md: The contact sheet;
05_routing_and_spine.md: Transactions in flight. -/
def Obligations.MoversReadAnswersAndSheets : Prop :=
  (∀ (s : State) (n : Fin 64) (lost : Fin 4), s.ringOpen n 0 = true → s.ringsGo = true →
    let i := s.fld Fld.rngIdxDevIdx n
    let k := if s.extended n then 4 else 2
    let m := s.ringMover n
    let va := s.fld Fld.rngBaseAddr n + 8 * k * i
    let x := s.translate (moverCaches m) (s.fld Fld.rngOwnAsid n) (s.fld Fld.rngOwnPriv n) .read va
    s.fld Fld.rngIdxHostIdx n % s.ringSize n ≠ i → (s.ring n).fetching = false → (s.ring n).record = none →
    (s.ring n).fetched.length < 8 →
    (∀ a, x = .ok .host a → s.flag Fld.rngLinkUp = true → s.sys.retraining = false → exec (.descriptorFetch n lost) s = .next (
      let t := s.setFld Fld.rngIdxDevIdx ((i + 1) % s.ringSize n) n
      let t := { t with hostOut := t.hostOut ++ [HostOut.read a k (102 + m / 16) 0 (.record n)] }
      t.setRing n { s.ring n with fetching := true })) ∧
    (∀ a, x = .ok .host a → s.flag Fld.rngLinkUp = false →
      exec (.descriptorFetch n lost) s = .next ((s.setFld Fld.rngStatState 5 n).setFld Fld.rngStatCode Code.linkDown n)) ∧
    (∀ code, x = .fault code → exec (.descriptorFetch n lost) s = .next (
      let t := s.xlFault code (s.fld Fld.rngOwnAsid n) va (176 + m) (s.fld Fld.rngOwnPriv n) false
      (t.setFld Fld.rngStatState 5 n).setFld Fld.rngStatCode Code.fetchFault n))) ∧
  (∀ (s : State) (k : Fin 4096) (ok : Bool) (data : List W64) (ad words port tag : Nat) (who : Asker),
    s.hostOut[k.val]? = some (.read ad words port tag who) → (ok = true → data.length = words) →
    let t := { s with hostOut := dropAt s.hostOut k }
    let st := if ok then Code.ok else Code.hostErr
    (((∃ p, who = .port p) ∨ ∃ n c, who = .context n c) →
      exec (.hostReadCompletion k ok data) s = .next (t.putRsp ⟨port, tag, st, ok, data, who⟩)) ∧
    (((∃ j, who = .mover j) ∨ (∃ n, who = .record n)) →
      exec (.hostReadCompletion k ok data) s = .next (moverAnswer who st (if ok then data else []) t))) ∧
  (∀ (s : State) (k : Fin 2048) (sec : Fin 80) (tag : Byte) (status : BitVec 16) (data : List W64), s.frozen sec = false →
    let wait := s.spine.inbound.find? fun i => i.sector == sec.val && i.tag == tag.toNat && i.wants
    (wait = none → exec (.spineResponse true k sec tag status data) s = .next (s.bump Fld.stwSportCntDiscard sec)) ∧
    (∀ i, wait = some i →
      let t := { s with spine := { s.spine with inbound := s.spine.inbound.erase i } }
      ((∃ j, i.asker = .mover j) → exec (.spineResponse true k sec tag status data) s =
        .next (moverAnswer i.asker status.toNat (data.take 8) t)) ∧
      ((∃ n c, i.asker = .context n c) → exec (.spineResponse true k sec tag status data) s =
        .next (t.putRsp ⟨i.port, i.mtag, status.toNat, data.take 8 != [], data.take 8, i.asker⟩)))) ∧
  (∀ (s : State) (k : Fin 2048) (sec : Fin 80) (tag : Byte) (status : BitVec 16) (data : List W64) (r : Rsp), s.rsps[k.val]? = some r →
    ((∃ j, r.asker = .mover j) → exec (.spineResponse false k sec tag status data) s =
      .next (moverAnswer r.asker r.status r.data { s with rsps := dropAt s.rsps k })) ∧
    (r.asker = .none → exec (.spineResponse false k sec tag status data) s = .next { s with rsps := dropAt s.rsps k })) ∧
  (∀ s : State, s.dt.toNat % 250 = 0 → s.asleep = false →
    let u := (upFrom 0 64).foldl (fun t n => if (t.job n).on && (t.job n).op n == 9 && (t.job n).done == 0 && (t.job n).acc == [] && !(t.job n).put
      then t.setJob n { t.job n with acc := sheetWords 0 s } else t) s
    let busy := u.trans.any (fun t => t.asker == Asker.sheet) || u.wtu.walks.any fun w => match w.who with | .trans t => t.asker == Asker.sheet | _ => false
    (u.sheetDue = false → exec .sheetCapture s = .next u) ∧
    (u.sheetDue = true → busy = true → exec .sheetCapture s = .next ((u.bump Fld.rngSheetStatSkipped).notice Code.sheetSkipped 0)) ∧
    (u.sheetDue = true → busy = false → exec .sheetCapture s = .next (
      let seq := (u.fld Fld.rngSheetStatSeq + 1) % 2 ^ 32
      let t := u.setFld Fld.rngSheetStatSeq seq
      postSheet (t.fld Fld.rngSheetBaseAsid) (t.fld Fld.rngSheetBaseAddr + 0x1000 * (seq % 2)) 54 (sheetWords seq t) t)))

/-- O43. Doorbells, vector moderation, and the events of the PCIe link. Rests on 10_host_link_and_rings.md: Doorbells;
10_host_link_and_rings.md: The PCIe endpoint; 10_host_link_and_rings.md: Vectors. -/
def Obligations.DoorbellsVectorsAndLinkEventsAct : Prop :=
  (∀ (s : State) (n : Fin 64) (off : Fin 4096) (full : Bool) (v : W32) (merged : Bool),
    let u := if merged then s.bump Fld.rngCntDbMerged n else s
    let i := bitsW v 0 16
    let t := u.setFld Fld.rngIdxHostIdx i n
    (off ≠ 0 ∨ full = false → exec (.doorbell n off full v merged) s = .next s.accessError) ∧
    (i < u.ringSize n → exec (.doorbell n 0 true v merged) s = .next (if t.ringOpen n 1 then ringRoom n t else t)) ∧
    (u.ringSize n ≤ i → s.fld Fld.rngStatState n = 1 ∨ s.fld Fld.rngStatState n = 4 → exec (.doorbell n 0 true v merged) s =
      .next ((u.setFld Fld.rngStatState 5 n).setFld Fld.rngStatCode Code.dbRange n))) ∧
  (∀ (s : State) (n : Fin 64), s.fld Fld.rngModTime n ≠ 0 → (s.ring n).modCount ≠ 0 →
    (s.ring n).modAt + s.fld Fld.rngModTime n * 80000 ≤ s.now →
    exec (.vectorModTimer n) s = .next ((s.setRing n { s.ring n with modCount := 0 }).raiseVector (s.fld Fld.rngCfgVec n))) ∧
  (∀ s : State,
    (s.flag Fld.rngLinkUp = true → exec .linkRetrain s =
      .next { s.bump Fld.rngLinkRetrains with sys := { s.sys with retraining := true } }) ∧
    (∀ (rate : Fin 4) (width : Fin 3), exec (.linkUp rate width) s = .next (
      let t := ((s.setFlag Fld.rngLinkUp true).setFld Fld.rngLinkRate (rate + 1)).setFld Fld.rngLinkWidth (2 ^ width.val)
      { t with sys := { s.sys with retraining := false } })) ∧
    exec .linkDown s = .next (
      let t := (s.setFlag Fld.rngLinkUp false).bump Fld.rngLinkDowns
      hostLost ([12, 13, 17, 18, 19, 20].foldl (fun s x => resetCrossing x s) { t with sys := { s.sys with retraining := false } })) ∧
    ∃ t, exec .functionLevelReset s = .next t ∧ t.rings = [] ∧
      (∀ n : Fin 64, t.reg Reg.rngCfg n = 0x20 ∧ t.reg Reg.rngCtl n = 0 ∧ t.reg Reg.rngStat n = 0 ∧ t.reg Reg.rngIdx n = 0 ∧
        t.reg Reg.rngBase n = 0 ∧ t.reg Reg.rngOwn n = 0) ∧
      (∀ v : Fin 256, t.flag Fld.msixCtrlMask v = true ∧ t.reg Reg.msixAddr v = 0))

/-- O44. Ring enable, disable, resume, abort, stop and settings. Rests on 10_host_link_and_rings.md: Rings;
10_host_link_and_rings.md: Movers and execution; 10_host_link_and_rings.md: The contact sheet; 10_host_link_and_rings.md:
Registers; 11_translation_and_protection.md: Owners; notes/assumptions/31.md; notes/assumptions/32.md. -/
def Obligations.RingsStartStopAndTakeSettings : Prop :=
  (∀ (s : State) (w : Writer) (n : Fin 64), s.priv w ≠ 0 → s.ownerCode w = s.fld Fld.rngOwnOwner n →
    let on := s.setFlag Fld.rngCtlEn true n
    let off := s.setFlag Fld.rngCtlEn false n
    (on.fld Fld.rngStatState n = 0 ∨ on.fld Fld.rngStatState n = 5 → exec (.ringEnable w n) s = .next (
      let t := (ringForget n on).setReg Reg.rngIdx 0 n
      let t := if t.fld Fld.rngCfgType n = 0 then t else t.setFlag Fld.rngStatPhase true n
      let t := t.setFld Fld.rngStatState 1 n
      if t.fld Fld.rngCfgType n = 1 then ringRoom n t else t)) ∧
    (on.fld Fld.rngStatState n = 2 → exec (.ringEnable w n) s = .next (on.setFld Fld.rngStatState 3 n)) ∧
    (off.fld Fld.rngStatState n = 0 → off.fld Fld.rngCfgType n ≠ 1 → exec (.ringDisable w n) s = .next off) ∧
    (off.fld Fld.rngStatState n ≠ 0 → (off.setFld Fld.rngStatState 2 n).fld Fld.rngCfgType n ≠ 1 →
      exec (.ringDisable w n) s = .next (off.setFld Fld.rngStatState 2 n)) ∧
    (s.fld Fld.rngStatState n = 4 → exec (.ringResume w n) s = .next (showMover (s.ringMover n) (s.setFld Fld.rngStatState 1 n)) ∧
      exec (.ringAbort w n) s = .next (completeDesc n Code.aborted (s.setFld Fld.rngStatState 1 n))) ∧
    (s.fld Fld.rngStatState n ≠ 4 → exec (.ringResume w n) s = .next s ∧ exec (.ringAbort w n) s = .next s) ∧
    exec (.ringCntClr w n) s = .next (s.setReg Reg.rngCnt 0 n)) ∧
  (∀ (s : State) (n : Fin 64), (s.ring n).fetching = false → (s.ring n).record = none → (s.ring n).fetched = [] →
    (s.job n).on = false →
    (s.fld Fld.rngStatState n = 2 → exec (.ringStopDone n) s = .next (s.setFld Fld.rngStatState 0 n)) ∧
    (s.fld Fld.rngStatState n = 3 → exec (.ringStopDone n) s = .next (ringStart n (s.setFld Fld.rngStatState 0 n)))) ∧
  (∀ (s : State) (w : Writer) (n : Fin 64) (v : W64), s.priv w ≠ 0 →
    let old := s.reg Reg.rngCfg n
    let new := Reg.rngCfg.plain old ((v.setWidth 32 : W32).setWidth 64) false
    let legal := bitsW new 0 2 ≠ 3 ∧ 4 ≤ bitsW new 3 5 ∧ bitsW new 3 5 ≤ 16
    let base := Reg.rngBase.plain (s.reg Reg.rngBase n) v false
    (s.ownerCode w ≠ s.fld Fld.rngOwnOwner n → ∀ b, exec (.ringCfgWrite w n b v) s = .next ((s.deny Code.notOwner (s.ownerCode w) 3 n).refuse Reg.rngRefuse Code.notOwner n)) ∧
    (s.ownerCode w = s.fld Fld.rngOwnOwner n →
      (¬ legal → exec (.ringCfgWrite w n false v) s = .next (s.refuse Reg.rngRefuse Code.ringBadCfg n)) ∧
      (legal → s.fld Fld.rngStatState n = 0 → exec (.ringCfgWrite w n false v) s = .next (s.setReg Reg.rngCfg new n)) ∧
      (legal → s.fld Fld.rngStatState n ≠ 0 → old &&& ~~~(maskW 20 8) ≠ new &&& ~~~(maskW 20 8) →
        exec (.ringCfgWrite w n false v) s = .next (s.refuse Reg.rngRefuse Code.ringBusy n)) ∧
      (bitsW base 0 6 = 0 → s.fld Fld.rngStatState n = 0 → exec (.ringCfgWrite w n true v) s = .next (s.setReg Reg.rngBase base n)))) ∧
  (∀ (s : State) (w : Writer) (n : Fin 64) (v : W32), s.priv w = 2 →
    let new := Reg.rngOwn.plain (s.reg Reg.rngOwn n) (v.setWidth 64) true
    (1 < bitsW new 0 8 → exec (.ringOwnWrite w n v) s = .next ((s.deny Code.ownerBad 0 3 n).refuse Reg.rngRefuse Code.ownerBad n)) ∧
    (bitsW new 0 8 ≤ 1 → bitsW new 16 2 ≠ 3 → s.fld Fld.rngStatState n = 0 →
      exec (.ringOwnWrite w n v) s = .next (s.setReg Reg.rngOwn new n))) ∧
  (∀ (s : State) (w : Writer) (v : W32), s.priv w ≠ 0 →
    let new := Reg.rngSheetCfg.plain (s.reg Reg.rngSheetCfg) (v.setWidth 64) false
    (10 ≤ bitsW new 0 20 → bitsW new 0 20 ≤ 1000000 → exec (.sheetCfgWrite w v) s = .next ((if bitsW new 20 1 = 1 ∧
      s.flag Fld.rngSheetCfgEn = false then s.setReg Reg.rngSheetStat 0 else s).setReg Reg.rngSheetCfg new)) ∧
    (bitsW new 0 20 < 10 ∨ 1000000 < bitsW new 0 20 →
      exec (.sheetCfgWrite w v) s = .next (s.refuse Reg.rngRefuse Code.ringBadCfg 0)))

/-- O45. The leader's checks, abort and discard of loads, configuration checks and readback. Rests on 12_configuration.md: The
stream; 12_configuration.md: Failures; 12_configuration.md: Readback and checks; 12_configuration.md: Registers. -/
def Obligations.LoaderControlsAct : Prop :=
  (∀ s : State, let u := ldrRefill s
    let l := u.ldr.raw.take 128
    u.ldrState = 1 → u.loadHeld = false → 128 ≤ u.ldr.raw.length →
    (leaderRefusal l u = 0 → exec .streamLeader s = .next (leaderAccepted l u)) ∧
    (leaderRefusal l u ≠ 0 → exec .streamLeader s = .next (leaderRefused (leaderRefusal l u) l u)) ∧
    (leaderForm l = false → exec .streamLeader s = .next (leaderRefused Code.leaderBad l u)) ∧
    (leaderForm l = true → leaderIdentity l u = false → exec .streamLeader s = .next (leaderRefused Code.idMismatch l u)) ∧
    (leaderForm l = true → leaderIdentity l u = true → leaderNum l 6 1 = 1 → leaderNum l 16 2 < u.fld Fld.wtuSvnSvn →
      exec .streamLeader s = .next (leaderRefused Code.svnOld l u))) ∧
  (∀ (s : State) (w : Writer), s.priv w = 2 →
    (s.loading = true → exec (.loadAbort w) s = .next (ldrFail Code.aborted s)) ∧
    (s.loading = false → exec (.loadAbort w) s = .next s) ∧
    (s.loading = false → s.heldMask ≠ 0 → s.heldMask ≠ 2 ^ 80 - 1 → exec (.loadDiscard w) s = .next (let t := s.setHeldMask 0
      { t with ldr := { t.ldr with entered := maskSectors s.heldMask, steps := leaderSteps s.leaderBytes } })) ∧
    (s.ldr.check = false → let t := s.setFlag Fld.ldrCheckDone false
      (t.loading = true → exec (.configCheck w) s = .next ((t.setFlag Fld.ldrCheckRefused true).setFlag Fld.ldrCheckDone true)) ∧
      (t.loading = false → exec (.configCheck w) s = .next (let u := (t.setFlag Fld.ldrCheckRefused false).setFlag Fld.ldrCheckGo true
        { u with ldr := { u.ldr with check := true } }))) ∧
    (∀ v : W32, let t := s.setReg Reg.ldrRbSel (Reg.ldrRbSel.plain (s.reg Reg.ldrRbSel) (v.setWidth 64) true)
      (bitsW v 31 1 = 0 → exec (.readback w v) s = .next t) ∧
      (bitsW v 31 1 = 1 → exec (.readback w v) s = .next (
        let t := t.setFlag Fld.ldrRbSelDone false
        let sec := t.fld Fld.ldrRbSelSector
        let f := t.fld Fld.ldrRbSelFrame
        let c := t.readbackCause sec f
        let u := (upFrom 0 64).foldl (fun s k => s.setReg Reg.ldrRbData (wordAt (if c = 0 then t.frameWords sec f 1 else []) k) k) t
        ((u.setFlag Fld.ldrRbSelRefused (c != 0)).setFld Fld.ldrRbSelCause c).setFlag Fld.ldrRbSelDone true)))) ∧
  (∀ s : State, s.ldr.check = true →
    (s.ldr.bare = false ∨ s.ldrState ≠ 3 → exec .configCheckDone s = .next (checkDone s)) ∧
    (s.ldr.bare = true → s.ldrState = 3 → exec .configCheckDone s = .next (let u := checkDone s
      if u.fld Fld.ldrCheckFails = 0 then gateWait u else checkLoads u)))

/-- O46. The records of a stream's body, its encrypted segments and its trailer. Rests on 12_configuration.md: Records;
12_configuration.md: Frames; 12_configuration.md: Encryption; 12_configuration.md: Several devices; notes/assumptions/8.md;
notes/assumptions/16.md. -/
def Obligations.RecordsOfAStreamAct : Prop :=
  (∀ s : State, let u := ldrRefill s
    let h := wordAt (wordsLE 1 u.body) 0
    let left := match u.ldr.sect with | some (l, _) => l | none => u.leaderField 32 8 - u.ldr.body
    u.mayApply = true → u.ldr.ended = false → u.ldr.body < u.leaderField 32 8 → 8 ≤ u.body.length →
    (6 < bitsW h 0 8 → exec .recordNop s = .next (badRecord u)) ∧
    (∀ r ∈ ([(.recordNop, 0, fun h _ => h == 0, fun _ => 0, fun _ _ s => (s, 0, 0)),
        (.framesRecord, 1, framesForm, fun h => 512 * bitsW h 32 9, fun h bs s => framesApply (bitsW h 16 7) (bitsW h 23 9)
          (pieces 64 (bitsW h 32 9) (wordsLE (64 * bitsW h 32 9) bs)) (darkroom (bitsW h 16 7) s)),
        (.bankRecord, 2, bankForm, fun h => 8 * bitsW h 36 10, bankApply),
        (.ememRecord, 3, ememForm, fun h => 8 * bitsW h 37 14, fun h bs s =>
          (ememWrite ((if bitsW h 23 1 = 1 then dmemBase (bitsW h 16 7) else imemBase (bitsW h 16 7)) + 8 * bitsW h 24 13)
            (wordsLE (bitsW h 37 14) bs) s, 0, 0)),
        (.regRecord, 4, regForm, fun h => 8 * ((bitsW h 40 8 + 1) / 2), regRecord)]
        : List (Instr × Nat × (W64 → State → Bool) × (W64 → Nat) × (W64 → List Byte → State → Applied))),
      bitsW h 0 8 = r.2.1 → let n := 8 + r.2.2.2.1 h
      (bitsW h 8 8 ≠ 0 ∨ r.2.2.1 h u = false ∨ left < n → exec r.1 s = .next (badRecord u)) ∧
      (bitsW h 8 8 = 0 → r.2.2.1 h u = true → n ≤ left → n ≤ u.body.length →
        (u.recordMine = false → exec r.1 s = .next (bodyTake n u)) ∧
        (u.recordMine = true → let a := r.2.2.2.2 h ((u.body.take n).drop 8) u
          exec r.1 s = .next (if a.2.1 = 0 then bodyTake n a.1 else loadFails a.2.1 a.2.2 a.1)))) ∧
    (bitsW h 0 8 = 5 → bitsW h 8 8 = 0 → sectionForm h u = true → exec .sectionRecord s = .next (let t := bodyTake 8 u
      if bitsW h 24 40 = 0 then t
      else { t with ldr := { t.ldr with sect := some (bitsW h 24 40, bitsW h 16 4 == t.fld Fld.ldrChainIndex) } })) ∧
    (bitsW h 0 8 = 6 → endForm h u = true → let a := endApply u
      (a.2.1 = 0 → exec .endRecord s = .next (let t := (bodyTake 8 u).setLdrState 3
        { t with ldr := { t.ldr with ended := true } })) ∧
      (a.2.1 ≠ 0 → (loadFails a.2.1 a.2.2 u).ldrState ≠ 2 → exec .endRecord s = .next (loadFails a.2.1 a.2.2 u)))) ∧
  (∀ s : State, let u := ldrRefill s
    let i := u.ldr.seg
    let n := min 262144 (u.leaderField 32 8 - 262144 * i)
    u.ldrState = 2 → u.ldrEnc = true → u.loadHeld = false → n ≠ 0 → n + 16 ≤ u.ldr.raw.length →
    let key := if i = 0 then u.streamKey else nextKey u.ldr.key i
    let aad := (if i = 0 then u.leaderBytes else []) ++ bytesLE 4 i ++ (u.leaderBytes.drop 20).take 4
    let o := gcmOpen key (segmentIv ((u.leaderBytes.drop 40).take 12) i) aad (u.ldr.raw.take n) ((u.ldr.raw.drop n).take 16)
    exec .segmentTag s = .next (if o.2 then let t := ldrEat (n + 16) u
      { t with ldr := { t.ldr with plain := t.ldr.plain ++ o.1, seg := i + 1, key := key } } else loadFails Code.tagFail 0 u)) ∧
  (∀ s : State, let u := ldrRefill s
    let w := wordAt (wordsLE 1 u.ldr.raw) 0
    u.ldrState = 3 → u.ldr.bare = false → u.loadHeld = false → 8 ≤ u.ldr.raw.length →
    (bitsW w 0 32 ≠ crcEnd u.ldr.crc ∨ bitsW w 32 32 ≠ 0xC0F16E0D → exec .streamTrailer s = .next (loadFails Code.crcFail 0 u)) ∧
    (bitsW w 0 32 = crcEnd u.ldr.crc → bitsW w 32 32 = 0xC0F16E0D → exec .streamTrailer s = .next (
      let t := { u with ldr := { u.ldr with raw := u.ldr.raw.drop 8 } }
      let t := forwardEnd (t.setFlag Fld.arcSlotLoading false t.ldr.slot)
      if t.ldrPartial then exitBegins t else gateWait t)))

/-- O47. A stream that ends early or stalls, GATE, and the start-up steps OUTS, WRITES and RESETS. Rests on 12_configuration.md:
The stream; 12_configuration.md: Full load and start‑up; 12_configuration.md: Failures; 12_configuration.md: Partial
reconfiguration and the darkroom; 14_start_health_and_spares.md: Warm start. -/
def Obligations.StreamsEndAndStartUpStepsRun : Prop :=
  (∀ (s : State) (source : Fin 5), let u := ldrRefill s
    u.streamShort = true → source.val = u.ldrSource → (source ≠ 1 ∨ (Tab.get [] u.arc.images u.ldr.slot).length ≤ u.ldr.slotAt) →
    exec (.streamSourceEnd source) s = .next (showHealth (ldrFail Code.streamShort u))) ∧
  (∀ s : State, s.streamShort = true → s.loadHeld = false → s.ldrRoom ≠ 0 →
    exec .streamStallTimeout s = .next (showHealth (ldrFail Code.streamStall s))) ∧
  (∀ s : State, s.ldrState = 4 →
    exec .gateTimeout s = .next (showHealth (pullGate (ldrFail Code.gateTimeout s))) ∧
    (s.stepsHeld = false → exec .gateHigh s = .next (
      let t := (upFrom 0 80).foldl showTaps ((s.setFlag Fld.ldrStatGateIn true).setLdrState 5)
      let t := if t.phase = 0 then t else t.setPhase 8
      { t with ldr := { t.ldr with steps := t.ldr.order, wave := 0 } }))) ∧
  (∀ s : State, s.ldrState ≠ 4 → exec .gateTimeout s = .next s ∧ exec .gateHigh s = .next s) ∧
  (∀ s : State, s.nextStep = 1 →
    let t := s.stepSectors.foldl (fun s k => s.setFlag Fld.stwSecHoldOutHeld false k) s
    exec .startupOuts s = .next (stepDone (if s.stepKind = 2 then s.stepSectors.foldl (fun s k => sectorPinsWake k s) t
      else pinsWake (t.setFld Fld.ldrStatSteps (t.fld Fld.ldrStatSteps ||| 2 ^ 1))))) ∧
  (∀ s : State, s.nextStep = 2 → ¬ ((s.fld Fld.pwrStateCur = 5 ∨ s.fld Fld.stwRstCauseCause = 6) ∧ s.banksWaking = true) →
    let t := s.stepSectors.foldl (fun s k => s.setFlag Fld.stwSecHoldWrHeld false k) s
    let t := if s.stepKind = 2 then { t with ldr := { t.ldr with banks := t.ldr.banks.filter fun b => !s.stepSectors.contains (b / 16) } }
      else if s.stepKind = 1 then { t with ldr := { t.ldr with allBanks := false, banks := [] } }
      else { t with ldr := { t.ldr with allBanks := false } }
    let t := (t.laterWords 1).foldl laterQueue t
    let t := if s.stepKind = 2 then t else stepShown 2 ((upFrom 0 160).foldl queueRuns t)
    exec .startupWrites s = .next (stepDone ((upFrom 0 160).foldl (fun s q => if s.queRuns q then queSettle q s else s) t))) ∧
  (∀ s : State, s.nextStep = 3 →
    (s.ldr.wave = 0 → s.wavePeriod = 0 →
      exec .startupResets s = .next (stepDone (resetsStart (s.stepSectors.foldl resetLifted s)))) ∧
    (s.ldr.wave = 0 → s.wavePeriod ≠ 0 → exec .startupResets s = .next (let t := columnLifted 0 s
      { t with ldr := { t.ldr with wave := 1 } })) ∧
    (s.ldr.wave ≠ 0 → s.ldr.wave < 9 → exec .resetWaveColumn s = .next (let t := columnLifted s.ldr.wave s
      { t with ldr := { t.ldr with wave := s.ldr.wave + 1 } })) ∧
    (9 ≤ s.ldr.wave → exec .resetWaveColumn s = .next (stepDone (resetsStart (columnLifted s.ldr.wave s)))))

/-- O48. The archive descriptors: checks, refusals, and how ARC_READ to FORMAT and LOAD_SLOT start. Rests on 13_archive.md:
Descriptors; 13_archive.md: Image slots; 13_archive.md: The record store; 13_archive.md: The data area;
10_host_link_and_rings.md: Descriptors. -/
def Obligations.ArchiveDescriptorsStart : Prop :=
  (∀ (s : State) (n : Fin 64) (i : Nat) (d : List W64) (rest : List (Nat × List W64)) (lost : Fin 4),
    Tab.wf {} s.jobs = true → (s.job n).on = false → (s.ring n).fetched = (i, d) :: rest → s.fld Fld.rngStatState n = 1 → s.ringsGo = true →
    (s.ring n).record = none → bitOf (descFlags d) 0 = false ∨ s.fenced n = true →
    let t := showServed n ((s.setRing n { s.ring n with fetched := rest }).setJob n { on := true, desc := d, index := i })
    let a := fun k => descArg d (t.extended n) k
    let done := fun (u : State) => Host.Outcome.next (arcFinish n u)
    (∀ r ∈ ([(.arcRead n lost, 0x40), (.arcWrite n lost, 0x41), (.arcTrim n, 0x42), (.recRead n lost, 0x43), (.recWrite n lost, 0x44),
      (.recDelete n, 0x45), (.imgOpen n, 0x46), (.imgWrite n lost, 0x47), (.imgCommit n, 0x48), (.imgRead n lost, 0x49),
      (.slotSelect n, 0x4A), (.arcFormat n, 0x4C)] : List (Instr × Nat)), descRow d = r.2 →
      (descCheck n d t ≠ Code.ok → exec r.1 s = done (completeDesc n (descCheck n d t) t)) ∧
      (descCheck n d t = Code.ok → arcValuesBad n t = false → t.fld Fld.arcStatState ≠ 1 → exec r.1 s = done (completeDesc n Code.arcOff t)) ∧
      (descCheck n d t = Code.ok → arcRefusal n t ≠ 0 → exec r.1 s = done (completeDesc n (arcRefusal n t) t))) ∧
    (descCheck n d t = Code.ok → arcRefusal n t = 0 →
      (descOp d = 0x40 → exec (.arcRead n lost) s = done (enqueue n (setTransfer n 0 (a 0) (4096 * t.arcCount n) t))) ∧
      (descOp d = 0x41 → exec (.arcWrite n lost) s =
        done (jobChunk n lost (enqueue n (setTransfer n (a 0) 0 (4096 * t.arcCount n) t)))) ∧
      (descOp d = 0x43 → exec (.recRead n lost) s = done (enqueue n (setTransfer n 0 (a 0) (a 2) t))) ∧
      (descOp d = 0x44 → exec (.recWrite n lost) s = done (jobChunk n lost (enqueue n (setTransfer n (a 0) 0 (a 2) t)))) ∧
      (descOp d = 0x46 → exec (.imgOpen n) s =
        done (completeDesc n Code.ok (showStaging { t with arc := { t.arc with staging := some (n, a 0, a 1, []) } }))) ∧
      (descOp d = 0x47 → exec (.imgWrite n lost) s = done (jobChunk n lost (enqueue n (setTransfer n (a 0) 0 (a 2) t)))) ∧
      (descOp d = 0x49 → exec (.imgRead n lost) s = done (enqueue n (setTransfer n 0 (a 0) (a 3) t))) ∧
      (descOp d = 0x4A → exec (.slotSelect n) s = done ((enqueue n t).raiseAction .slotChange)) ∧
      (∀ r ∈ ([(.arcTrim n, 0x42), (.recDelete n, 0x45), (.imgCommit n, 0x48), (.arcFormat n, 0x4C)] : List (Instr × Nat)),
        descOp d = r.2 → exec r.1 s = done (enqueue n t)) ∧
      (descOp d = 0x4B → exec (.loadSlot n) s = .next (
        let u := ldrFromSlot (a 0) (enqueue n t)
        let v := ldrRefill (u.setJob n { u.job n with count := u.ldr.gen + 1 })
        let x := v.job n
        if !x.on ∨ x.op n ≠ 0x4B then v
        else if x.count ≠ v.ldr.gen + 1 then completeDesc n (v.fld Fld.ldrErrCode) v
        else if v.ldrPartial ∧ 2 ≤ v.ldrState ∧ v.leaderField 24 8 ≤ v.fld Fld.ldrProgValue then completeDesc n Code.ok v else v)))) ∧
  (∀ (s : State) (n : Fin 64), (s.job n).on = true → (s.job n).op n = 0x4B →
    let v := ldrRefill (jobChunk n 0 s)
    (v.job n).on = true → (v.job n).op n = 0x4B → (v.job n).count ≠ v.ldr.gen + 1 →
    exec (.loadSlot n) s = .next (completeDesc n (v.fld Fld.ldrErrCode) v))

/-- O49. NAND_OP_DONE: reads are judged, failed blocks retired, and the job, record, image or start an operation served goes on.
Rests on 13_archive.md: The medium and its wiring; 13_archive.md: Wear, disturb and forgetting; 13_archive.md: Codewords and
pages; 13_archive.md: The data area; 13_archive.md: The record store; 13_archive.md: Image slots; 13_archive.md: Starting and
stopping; notes/assumptions/1.md. -/
def Obligations.ArrayOperationsServeTheirJobs : Prop :=
  (∀ (s : State) (b : BitVec 24) (bits : Byte), bits.toNat ≤ 72 → let x := s.block b.toNat
    ¬ (s.fld Fld.arcCfgRdLimit * 1000 ≤ x.reads + 1 ∨ s.fld Fld.arcCfgRefreshBits ≤ bits.toNat) →
    let t := s.setBlock b.toNat { x with reads := x.reads + 1, worst := max x.worst bits.toNat }
    exec (.nandOpDone (.read b bits) .background) s =
      .next (showArc (if t.fld Fld.arcWearWorst < bits.toNat then t.setFld Fld.arcWearWorst bits.toNat else t))) ∧
  (∀ (s : State) (b : BitVec 24) (use : NandUse), (s.block b.toNat).bad = false →
    exec (.nandOpDone (.erase b false) use) s = .next (showArc (retireBlock b.toNat s)) ∧
    (s.mayProgram b.toNat = true → exec (.nandOpDone (.program b false) use) s = .next (showArc (retireBlock b.toNat s))) ∧
    exec (.nandOpDone (.erase b true) .background) s =
      .next (showArc (s.setBlock b.toNat { erases := (s.block b.toNat).erases + 1 }))) ∧
  (∀ (s u : State) (op : NandOp) (n : Fin 64), nandBlock op s = some u → nandOk op = true →
    (u.job n).on = true → u.arc.queue.contains n.val = true → u.arcWaits n = false → u.jobStalled n = false →
    let x := u.job n
    let a := u.arcArg n
    let done := fun (t : State) => Host.Outcome.next (showArc t)
    (x.op n = 0x40 → x.count < u.arcCount n → x.acc.length < 1024 → let lba := a 1 + x.count
      (nandBits op ≤ 72 → exec (.nandOpDone op (.job n)) s =
        done (arcFinish n (u.setJob n { x with acc := x.acc ++ u.sectorWords lba, count := x.count + 1 }))) ∧
      (72 < nandBits op → exec (.nandOpDone op (.job n)) s =
        let t := { u with freeCount := u.freeCount + 512 }
        done (arcFinish n (t.setJob n { x with acc := x.acc ++ (upFrom u.freeCount 512).map Config.freeWord, count := x.count + 1, status := (if x.status = Code.ok then Code.arcUncorrectable else x.status), result := (if x.status = Code.ok then BitVec.ofNat 64 lba else x.result) })))) ∧
    (x.op n = 0x41 → 512 ≤ x.acc.length → exec (.nandOpDone op (.job n)) s = done (arcFinish n ((putSector (a 1 + x.count) (x.acc.take 512) u).setJob n
      { x with acc := x.acc.drop 512, count := x.count + 1, result := BitVec.ofNat 64 (x.count + 1) }))) ∧
    (x.op n = 0x42 → exec (.nandOpDone op (.job n)) s = done (completeDesc n Code.ok { u with arc := { u.arc with
      data := u.arc.data.filter fun e => e.1 < 512 * a 0 || 512 * a 0 + 512 * u.arcCount n ≤ e.1 } })) ∧
    (x.op n = 0x43 → x.count = 0 → Tab.get [] u.arc.recs (a 1) = [] →
      exec (.nandOpDone op (.job n)) s = done (completeDesc n Code.arcNoRecord u)) ∧
    (x.op n = 0x44 → x.len ≤ x.done →
      (u.recordFits (a 1) x.acc.length = true → exec (.nandOpDone op (.job n)) s = done (completeDesc n x.status (setRecord (a 1) x.acc u))) ∧
      (u.recordFits (a 1) x.acc.length = false → exec (.nandOpDone op (.job n)) s = done (completeDesc n Code.arcRecFull u))) ∧
    (x.op n = 0x45 → exec (.nandOpDone op (.job n)) s = done (completeDesc n Code.ok (setRecord (a 0) [] u))) ∧
    (∀ r k len bs, x.op n = 0x48 → u.arc.staging = some (r, k, len, bs) → u.flag Fld.arcSlotLoading k = false → imageOk len bs u = false →
      exec (.nandOpDone op (.job n)) s = done (completeDesc n Code.arcImageBad u))) ∧
  (∀ (s u : State) (op : NandOp), nandBlock op s = some u → nandOk op = true →
    exec (.nandOpDone op .background) s = .next (showArc u) ∧
    (72 < nandBits op → u.ldrReads = true → exec (.nandOpDone op .image) s = .next (showArc (ldrFail Code.streamShort u))) ∧
    (u.lead.underWay.contains .recordSupply = true → u.archiveOk = true →
      exec (.nandOpDone op (.record 4)) s = .next (showArc (setRecord 4 u.supplyWords (u.dropAction .recordSupply)))) ∧
    (u.arc.starting = true → ∀ (ignored page pages luns blocks modes copies), exec (.nandOpDone op (.start 0 ignored page pages luns blocks modes copies)) s =
      .next (showArc (arcRuns Code.arcNoMedium ((u.setFld Fld.arcStatCePresent 0).setFld Fld.arcStatCeIgnored ignored.toNat)))) ∧
    (u.arc.starting = false → ∀ (present ignored page pages luns blocks modes copies),
      exec (.nandOpDone op (.start present ignored page pages luns blocks modes copies)) s = .next (showArc u)))

/-- O50. The patrol's reads, GO and saved place; ARC_CTL.EN with its stop; and the writes of ARC_IF, ARC_CFG and CNT_CLR. Rests
on 13_archive.md: Wear, disturb and forgetting; 13_archive.md: Starting and stopping; 13_archive.md: Registers;
notes/assumptions/22.md; notes/assumptions/33.md. -/
def Obligations.ArchiveCareAndSettings : Prop :=
  (∀ (s : State) (b : BitVec 24) (bits : Byte), s.fld Fld.arcStatState = 1 → s.arc.fault = 0 →
    (s.flag Fld.arcStatPatrol = true ∨ s.flag Fld.arcCfgPatrolDays = true →
      let t := showArc (judgeRead b.toNat bits.toNat (s.setFlag Fld.arcStatPatrol true))
      exec (.patrolRead b bits false) s = .next { t with arc := { t.arc with patrolAt := t.arc.patrolAt + 1 } } ∧
      exec (.patrolRead b bits true) s = .next
        { (t.setFlag Fld.arcStatPatrol false).bump Fld.arcCntPatrolPasses with arc := { t.arc with patrolAt := 0 } }) ∧
    (∀ w : Writer, s.priv w ≠ 0 → exec (.patrolGo w) s = .next (s.setFlag Fld.arcStatPatrol true)) ∧
    exec .patrolPlaceSave s = .next (setRecord 3 [BitVec.ofNat 64 s.arc.patrolAt] s)) ∧
  (∀ s : State, s.arc.fault ≠ 0 ∨ s.fld Fld.arcStatState ≠ 1 → exec .patrolPlaceSave s = .next s ∧
    ∀ w : Writer, s.priv w ≠ 0 → exec (.patrolGo w) s = .next s) ∧
  (∀ (s : State) (w : Writer), s.priv w ≠ 0 →
    let up := s.setFlag Fld.arcCtlEn true
    let dn := s.setFlag Fld.arcCtlEn false
    (s.fld Fld.arcStatState = 0 → exec (.archiveEnable w) s = .next { up with arc := { up.arc with starting := true } } ∧
      exec (.archiveDisable w) s = .next { dn with arc := { dn.arc with starting := false } }) ∧
    (s.fld Fld.arcStatState = 1 → exec (.archiveEnable w) s = .next up ∧ exec (.archiveDisable w) s = .next (dn.setFld Fld.arcStatState 2)) ∧
    (s.fld Fld.arcStatState = 2 → exec (.archiveEnable w) s = .next (up.setFld Fld.arcStatState 3)) ∧
    (s.fld Fld.arcStatState = 3 → exec (.archiveDisable w) s = .next (dn.setFld Fld.arcStatState 2))) ∧
  (∀ s : State, s.fld Fld.arcStatState = 2 ∨ s.fld Fld.arcStatState = 3 → exec .archiveStopDone s = .next (
    let t := s.arc.queue.foldl (fun s n => completeDesc n Code.aborted s) s
    let t := showStaging { t with arc := { t.arc with staging := none, queue := [], starting := s.fld Fld.arcStatState == 3 } }
    let t := ((t.setFld Fld.arcStatState 0).setFlag Fld.arcStatWp true).setFlag Fld.arcStatFormatted false
    showArc (t.setFlag Fld.arcStatPatrol false))) ∧
  (∀ (s : State) (w : Writer) (v : W32), s.priv w ≠ 0 →
    (let new := Reg.arcIf.plain (s.reg Reg.arcIf) (v.setWidth 64) false
     let i := bitsW new 0 2
     let cyc := bitsW new 2 5
     (i ≠ 3 → cyc ≤ 16 → (i = 0 → 4 ≤ cyc) → (i = 1 → 3 ≤ cyc) →
       (bitsW new 7 1 = 1 ∨ s.arc.modes = 0 ∨ bitOf s.arc.modes i = true) → exec (.arcIfWrite w v) s = .next (s.setReg Reg.arcIf new)) ∧
     (i = 3 ∨ 16 < cyc ∨ (i = 0 ∧ cyc < 4) ∨ (i = 1 ∧ cyc < 3) →
       exec (.arcIfWrite w v) s = .next (s.refuse Reg.arcRefuse Code.arcBadCfg 0))) ∧
    (let new := Reg.arcCfg.plain (s.reg Reg.arcCfg) (v.setWidth 64) false
     let bits := bitsW new 1 7
     (0 < bits → bits ≤ 72 → bitsW new 8 16 ≠ 0 → exec (.arcCfgWrite w v) s = .next (s.setReg Reg.arcCfg new)) ∧
     (bits = 0 ∨ 72 < bits ∨ bitsW new 8 16 = 0 → exec (.arcCfgWrite w v) s = .next (s.refuse Reg.arcRefuse Code.arcBadCfg 0))) ∧
    exec (.arcCntClr w) s = .next (s.setReg Reg.arcCnt 0)) ∧
  (∀ (s : State) (w : Writer) (v : W32), s.priv w = 0 →
    exec (.archiveEnable w) s = .next (s.deny Code.wardenOnly 0xFF 6 (writerLink w)) ∧ exec (.archiveDisable w) s = .next (s.deny Code.wardenOnly 0xFF 6 (writerLink w)) ∧
    exec (.arcIfWrite w v) s = .next (s.deny Code.wardenOnly 0xFF 6 (writerLink w)) ∧ exec (.arcCfgWrite w v) s = .next (s.deny Code.wardenOnly 0xFF 6 (writerLink w)) ∧
    exec (.arcCntClr w) s = .next (s.deny Code.wardenOnly 0xFF 6 (writerLink w)) ∧ exec (.patrolGo w) s = .next (s.deny Code.wardenOnly 0xFF 6 (writerLink w)))

/-- O51. Power valid, XRESET_N, the three requested starts, CONFIRM and its timeout, the DONE timeout, retries and the boot
counters. Rests on 14_start_health_and_spares.md: Kinds of start; 14_start_health_and_spares.md: Cold start;
14_start_health_and_spares.md: Warm start; 14_start_health_and_spares.md: Leadership at start; 14_start_health_and_spares.md:
Boot counters and image fallback; 14_start_health_and_spares.md: Registers; notes/assumptions/33.md. -/
def Obligations.StartsBeginConfirmAndRetry : Prop :=
  (∀ (s : State) (straps : Byte) (held : Bool), exec (.powerValid straps held) s = .next (beginCold 1 true held (takeStraps straps s))) ∧
  (∀ (s : State) (straps : Byte), let t := takeStraps straps s
    (s.sys.xresetN = true → exec (.xresetRise straps) s = .next s) ∧
    (s.sys.xresetN = false → straps.toNat / 2 ^ 7 % 2 = 0 ∨ s.sta.retained = false →
      exec (.xresetRise straps) s = .next (beginCold 2 false true t)) ∧
    (s.sys.xresetN = false → straps.toNat / 2 ^ 7 % 2 = 1 → s.sta.retained = true → s.pwr.entering = 0 →
      exec (.xresetRise straps) s = .next (
        let u := t.setFlag Fld.clkStatXtalRun (t.flag Fld.clkStatXtalReady)
        beginWarm 2 false false (u.setFlag Fld.arcStatWp (u.fld Fld.arcStatState != 1))))) ∧
  (∀ s : State, exec .xresetAssert s = .next (
    let t := workEnds s
    let t := { t with sys := { t.sys with xresetN := false }, lead := { t.lead with underWay := [], held := [], waiting := [] } }
    showHealth ((holdHere t).setFlag Fld.arcStatWp true))) ∧
  (∀ (s : State) (w : Writer), s.priv w = 2 →
    (s.agreed = true → s.phase = 0 → exec (.startWarm w) s = .next (beginWarm 3 false false s) ∧
      exec (.startReload w) s = .next (beginWarm 4 true false s) ∧ exec (.startCold w) s = .next (beginCold 5 false true s)) ∧
    (s.agreed = false → let t := s.setFld Fld.stwStartLastCode Code.held
      exec (.startWarm w) s = .next t ∧ exec (.startReload w) s = .next t ∧ exec (.startCold w) s = .next t) ∧
    (s.agreed = true → s.phase ≠ 0 → let t := s.setFld Fld.stwStartLastCode Code.startBusy
      exec (.startWarm w) s = .next t ∧ exec (.startReload w) s = .next t ∧ exec (.startCold w) s = .next t) ∧
    (s.sta.confirm = true → exec (.bootConfirm w) s = .next (startSucceeds s)) ∧
    (s.sta.confirm = false → exec (.bootConfirm w) s = .next s) ∧
    (∀ v : BitVec 16, exec (.confirmTmoWrite w v) s = .next (bootSave (s.setFld Fld.stwBootConfirmTmo v.toNat)))) ∧
  (∀ (s : State) (w : Writer) (v : BitVec 16), s.priv w ≠ 2 →
    let start := Host.Outcome.next (if s.priv w = 0 then s.denyLink w else s.denyWarden w Reg.stwStart.base)
    let boot := Host.Outcome.next (if s.priv w = 0 then s.denyLink w else s.denyWarden w Reg.stwBoot.base)
    exec (.startWarm w) s = start ∧ exec (.startReload w) s = start ∧ exec (.startCold w) s = start ∧ exec (.bootConfirm w) s = boot ∧
    exec (.confirmTmoWrite w v) s = boot) ∧
  (∀ s : State, (s.sta.confirm = true → exec .confirmTimeoutExpiry s = .next (startFailed Code.confirmTimeout s)) ∧
    (s.sta.counted = true → s.phase ≠ 0 →
      (s.loading = true → exec .startDoneTimeout s = .next (ldrFail Code.aborted s)) ∧
      (s.loading = false → exec .startDoneTimeout s = .next (startFailed Code.startFailed s))) ∧
    exec .operatingHour s = .next (bootSave (s.bump Fld.stwBootHours))) ∧
  (∀ s : State,
    (s.agreed = false → exec .startRetry s = .next s) ∧
    (s.agreed = true → s.phase = 0 → let t := { s with sta := { s.sta with retry := none } }
      (s.sta.retry = some true → exec .startRetry s = .next (beginWarm 7 false false t)) ∧
      (s.sta.retry = some false → exec .startRetry s = .next (beginCold 7 false true t)) ∧
      (s.sta.retry = none → exec .startRetry s = .next s)) ∧
    (s.agreed = true → s.phase = 9 → s.lead.held.contains .start = false → let t := s.setPhase 0
      exec .startRetry s = .next (if s.flag Fld.stwRstCauseKind then beginWarm 7 false false t else beginCold 7 false true t)))

/-- O52. BIST requests, the end of a unit's test, the sweeps' limits, HEALTH_CFG, the path monitor, FIX_GO and the end of a
substitution. Rests on 14_start_health_and_spares.md: Built‑in self‑test; 14_start_health_and_spares.md: Densitometers;
14_start_health_and_spares.md: The fixer; 14_start_health_and_spares.md: The spare map; 14_start_health_and_spares.md:
Registers; notes/assumptions/33.md. -/
def Obligations.TestsSweepsAndSubstitutionsAct : Prop :=
  (∀ (s : State) (w : Writer) (k : Fin 128), s.priv w ≠ 0 →
    ∀ r ∈ ([(.bistSector w k, 0, k.val), (.bistEngine w k, 1, k.val), (.bistAnalog w k, 2, k.val), (.bistDevice w, 3, 0)] : List (Instr × Nat × Nat)),
    let u := r.2.1
    let t := s.setReg Reg.bistCtl (Reg.bistCtl.plain (s.reg Reg.bistCtl) ((BitVec.ofNat 32 (u + 16 * r.2.2 + 2 ^ 31)).setWidth 64) false)
    let busy := t.fld Fld.bistStatState = 1 ∨ t.fld Fld.bistStatState = 2 ∨ t.phase ≠ 0
    let ends := fun (code cause : Nat) => Host.Outcome.next (((t.setFld Fld.bistStatState 3).setFld Fld.bistStatCode code).setFld Fld.bistStatCause cause)
    (bistCount u ≤ r.2.2 → exec r.1 s = .next s) ∧
    (r.2.2 < bistCount u →
      (busy → exec r.1 s = .next (t.setFld Fld.bistStatCode Code.bistBusy)) ∧
      (¬ busy → u = 3 → t.agreed = false → exec r.1 s = ends Code.held 0) ∧
      (¬ busy → (u = 3 → t.agreed = true) → bistLimits u r.2.2 t ≠ 0 → exec r.1 s = ends Code.bistLimit (bistLimits u r.2.2 t)) ∧
      (¬ busy → (u = 3 → t.agreed = true) → bistLimits u r.2.2 t = 0 →
        (u = 2 → t.frontUsed r.2.2 = true → exec r.1 s = ends Code.bistInUse 0) ∧
        ((u = 2 → t.frontUsed r.2.2 = false) → exec r.1 s = .next (
          let v := t.setReg Reg.bistStat 1
          let v := if u = 3 then v.raiseAction .bist else v
          showHealth { v with hea := { v.hea with west := bistUnits u r.2.2 0, east := bistUnits u r.2.2 1 } }))))) ∧
  (∀ (s : State) (h : Fin 2) (u : Nat), s.testing h = some u →
    (s.bistLimit h = 0 → exec (.bistUnitDone h false []) s =
      .next (showHealth (bistEnds { s with hea := s.hea.setUnits h ((s.hea.units h).drop 1) }))) ∧
    (∀ failed fails, s.bistLimit h ≠ 0 → exec (.bistUnitDone h failed fails) s = .next (showHealth (bistEnds (bistStopped (s.bistLimit h) s)))) ∧
    (∀ fails, s.bistLimit h = 0 → exec (.bistUnitDone h true fails) s = .next (let t := unitFailed u fails s
      showHealth (bistEnds { t with hea := t.hea.setUnits h ((t.hea.units h).drop 1) })))) ∧
  (∀ (s : State) (h : Fin 2) (failed : Bool) (fails : List W64), s.testing h = none → exec (.bistUnitDone h failed fails) s = .next s) ∧
  (∀ (s : State) (h : Fin 2) (ms : List (Fin 5120 × Int)) (bad : List (Fin 1280)),
    (s.phase ≠ 5 → s.phase ≠ 0 ∨ s.flag Fld.stwHealthCfgSweep = false → exec (.densitometerSweep h ms bad) s = .next s) ∧
    (s.phase = 5 → let n := min 8 (Tab.get 0 s.hea.sweeps h + 1)
      let t := sweepTiles h n (ms.map fun e => (e.1.val, e.2)) { s with hea := { s.hea with sweeps := Tab.set 0 s.hea.sweeps h n } }
      let v := (t.hea.slow.filter fun e => e.1 / 2560 == h.val).foldl (fun s e => judgeTile e.1 e.2 s) t
      exec (.densitometerSweep h ms bad) s = .next (if Tab.get 0 v.hea.sweeps (1 - h.val) = 0 then v else mapDone v))) ∧
  (∀ (s : State) (w : Writer) (v : W32), s.priv w ≠ 0 →
    let new := Reg.stwHealthCfg.plain (s.reg Reg.stwHealthCfg) (v.setWidth 64) false
    (0 < bitsW new 8 8 → bitsW new 8 8 < bitsW new 16 8 → let t := s.setReg Reg.stwHealthCfg new
      exec (.healthCfgWrite w v) s = .next (if t.phase = 0 then judgeTiles t else t)) ∧
    (bitsW new 8 8 = 0 ∨ bitsW new 16 8 ≤ bitsW new 8 8 →
      exec (.healthCfgWrite w v) s = .next (s.setFld Fld.stwFixLastCode Code.healthBadCfg))) ∧
  (∀ (s : State) (n : Fin 96), exec (.enginePathMonitor n false) s = .next (eccLook n s) ∧
    exec (.enginePathMonitor n true) s = .next (trigger 6 7 (n / 48) n true false (eccLook n s))) ∧
  (∀ (s : State) (w : Writer), s.priv w = 2 → s.fld Fld.stwFixMode ≠ 3 →
    exec (.fixGo w) s = .next (fixGo (s.setFld Fld.stwFixMode (s.fld Fld.stwFixMode)))) ∧
  (∀ (s : State) (w : Writer), s.priv w ≠ 2 → exec (.fixGo w) s =
    .next (if s.priv w = 0 then s.denyLink w else s.denyWarden w Reg.stwFix.base)) ∧
  (∀ (s : State) (h : Fin 2),
    (∀ e, s.fixing h = some e → exec (.substitutionDone h) s =
      .next (showHealth (substituted e { s with hea := { s.hea with work := s.hea.work.erase e } }))) ∧
    (s.fixing h = none → exec (.substitutionDone h) s = .next s))

/-- O53. The four power requests, the end of an entry, the wake sources and the end of a wake. Rests on 15_power.md: Power
states; 15_power.md: Registers; 15_power.md: Supply and temperature supervision; notes/assumptions/23.md;
notes/assumptions/33.md. -/
def Obligations.PowerStatesAreEnteredAndLeft : Prop :=
  (∀ (s : State) (w : Writer), s.priv w = 2 →
    ∀ r ∈ ([(.reqRun w, 0), (.reqIdle w, 1), (.reqSafelight w, 2), (.reqDark w, 3)] : List (Instr × Nat)),
    let c := s.fld Fld.pwrStateCur
    let no := fun (code : Nat) => Host.Outcome.next ((s.setFld Fld.pwrStateLastCode code).refuse Reg.pwrRefuse code 0)
    let bad := c = 5 ∨ ((c = 4 ∨ c = 6) ∧ r.2 ≠ 0) ∨ (c = 2 ∧ r.2 = 1)
    let t := s.setFld Fld.pwrStateReq r.2
    (s.agreed = false → exec r.1 s = no Code.held) ∧
    (s.agreed = true → bad → exec r.1 s = no Code.pwrBadState) ∧
    (s.agreed = true → ¬ bad → r.2 = c → exec r.1 s = .next t) ∧
    (s.agreed = true → ¬ bad → r.2 ≠ c → r.2 = 0 → exec r.1 s = .next (powerWake 1 0 t)) ∧
    (s.agreed = true → ¬ bad → r.2 ≠ c → 2 ≤ r.2 → s.anyWake r.2 = false → exec r.1 s = no Code.noWake) ∧
    (s.agreed = true → ¬ bad → r.2 ≠ c → r.2 ≠ 0 → r.2 = 1 ∨ s.anyWake r.2 = true →
      exec r.1 s = .next (enterPower r.2 false { t with lead := { t.lead with underWay := t.lead.underWay ++ [.power] } }))) ∧
  (∀ (s : State) (w : Writer), s.priv w ≠ 2 → let no := Host.Outcome.next (if s.priv w = 0 then s.denyLink w else s.denyWarden w Reg.pwrState.base)
    exec (.reqRun w) s = no ∧ exec (.reqIdle w) s = no ∧ exec (.reqSafelight w) s = no ∧ exec (.reqDark w) s = no) ∧
  (∀ s : State, s.fld Fld.pwrStateCur = 4 ∨ s.fld Fld.pwrStateCur = 6 → s.pwr.dark = false → s.entryReady = true →
    let d := s.dropAction .power
    let asleep := blocksSleep 2 d
    ∀ t, (s.pwr.entering = 1 → t = showHealth ({ railsAt 5 d with pwr := { (railsAt 5 d).pwr with idle := true } }.setCur 1)) →
      (s.pwr.entering = 2 → t = { asleep.setCur 2 with pwr := { asleep.pwr with left := d.positions } }) →
      (s.pwr.entering ≠ 1 → s.pwr.entering ≠ 2 → t = (goDark (blocksSleep 3 d)).setCur 4) →
      (t.metWake = none → exec .powerEntryDone s = .next t) ∧
      (∀ src i, t.metWake = some (src, i) →
        exec .powerEntryDone s = .next (powerWake src i { t with pwr := { t.pwr with latched := none } }))) ∧
  (∀ (s : State) (c : Instr) (src i : Nat),
    (c = .wakeNEdge ∧ src = 2 ∧ i = 0) ∨ (c = .hostRequestWake ∧ src = 6 ∧ i = 0) ∨ (c = .activityWake ∧ src = 7 ∧ i = 0) ∨
    (∃ (p : Fin 4) (rising : Bool), let e := s.fld Fld.pwrWakePortEdge p
      c = .wakePortEdge p rising ∧ src = 3 ∧ i = p ∧ (2 ≤ e ∨ (e = 0 ∧ rising = true) ∨ (e = 1 ∧ rising = false))) ∨
    (∃ j : Fin 2, c = .wakeTbRange j ∧ src = 4 ∧ i = j ∧ s.tbOutside j = true) ∨
    (c = .wakeDt ∧ src = 5 ∧ i = 0 ∧ s.dtReached = true) →
    let cur := s.fld Fld.pwrStateCur
    let t := ((s.setFld Fld.pwrWakeStatSource src).setFld Fld.pwrWakeStatIndex i).setFld Fld.pwrStateCur 5
    let u := { t with pwr := { t.pwr with latched := none } }
    (s.wakeWorks s.pwr.entering src i = false → exec c s = .next s) ∧
    (s.wakeWorks s.pwr.entering src i = true →
      (s.pwr.dark = false → cur = 1 ∨ cur = 2 → s.pwr.entering ≠ 2 → exec c s = .next (u.raiseAction .power)) ∧
      (s.pwr.dark = false → cur = 2 → s.pwr.entering = 2 → exec c s = .next (wakeBegins src i s)) ∧
      (s.pwr.dark = false → cur = 4 → exec c s = .next { s.setFld Fld.pwrStateCur 6 with pwr := { s.pwr with latched := some (src, i) } }) ∧
      (s.pwr.dark = true → cur ≠ 5 → s.tooHot = false → exec c s = .next u) ∧
      (s.pwr.dark = true → s.tooHot = true → exec c s = .next s))) ∧
  (∀ (s : State) (p : Fin 4) (j : Fin 2),
    (s.fld Fld.pwrWakePortEdge p = 0 → exec (.wakePortEdge p false) s = .next s) ∧
    (s.fld Fld.pwrWakePortEdge p = 1 → exec (.wakePortEdge p true) s = .next s) ∧
    (s.tbOutside j = false → exec (.wakeTbRange j) s = .next s) ∧ (s.dtReached = false → exec .wakeDt s = .next s)) ∧
  (∀ s : State, s.fld Fld.pwrStateCur = 5 →
    (s.pwr.dark = true → exec .powerWakeDone s =
      .next (beginWarm 6 false false (s.setFlag Fld.clkStatXtalRun (s.flag Fld.pwrWakeXtalKeep)))) ∧
    (s.pwr.dark = false → s.lead.underWay.contains .power = true → s.pwr.entering ≠ 2 → exec .powerWakeDone s = .next (
      let t := (s.dropAction .power).setFld Fld.pwrStateCur 0
      let t := { t with pwr := { t.pwr with entering := 0, idle := false, stopped := [], left := [] } }
      showHealth (railSettle 1 (railSettle 0 t)))) ∧
    (s.pwr.dark = false → s.lead.underWay.contains .power = true → s.pwr.entering = 2 → s.ldr.steps = [] →
      exec .powerWakeDone s = .next (
      let t := ringsWake (lanesWake (archiveAwake (schedWakes ((s.dropAction .power).setFld Fld.pwrStateCur 0))))
      let t := { t with pwr := { t.pwr with entering := 0, idle := false, stopped := [], left := [] } }
      showHealth (railSettle 1 (railSettle 0 t)))))

/-- O54. VSUP and brown-out, junction readings, BACKLOG, the phase monitor, the rails' slews, and the writes of PWR_VFAB, VBANK,
SUP and PEAK. Rests on 15_power.md: Supply and rails; 15_power.md: The fabric rail; 15_power.md: Field port supplies;
15_power.md: Supply and temperature supervision; 15_power.md: Registers; notes/assumptions/23.md. -/
def Obligations.RailsSupplyAndTemperatureAct : Prop :=
  (∀ (s : State) (v : BitVec 10), let was := s.flag Fld.pwrSupLow
    let low := decide (v.toNat < s.fld Fld.pwrSupLowThr)
    let t := (s.setFld Fld.pwrSupVsup v.toNat).setFlag Fld.pwrSupLow low
    (low = false ∨ was = true → exec (.supplyLowDetect v) s = .next t) ∧
    (low = true → was = false → let u := t.alarm 8 Code.supplyLow 0
      (u.flag Fld.pwrSupLowAct = false → exec (.supplyLowDetect v) s = .next u) ∧
      (u.flag Fld.pwrSupLowAct = true → u.pwr.dark = false → u.pwr.off = false → u.pwr.entering ≠ 3 →
        exec (.supplyLowDetect v) s = .next (enterPower 3 false (u.dropAction .power))))) ∧
  (∀ s : State, exec .brownOut s = .next (
    let t := (holdHere (lanesHalt (linkDown (workEnds s)))).setFlag Fld.arcStatWp true
    let t := (t.setFlag Fld.clkStatRootLocked false).setFlag Fld.clkStatHoldover false
    { t with pwr := { t.pwr with off := true }, lead := { t.lead with underWay := [], held := [], waiting := [] } })) ∧
  (∀ (s : State) (west east : BitVec 10), let m := max west.toNat east.toNat
    let t := s.setFld Fld.pwrTempTemp m
    let t := if t.fld Fld.pwrTempPeak < m then t.setFld Fld.pwrTempPeak m else t
    let hot := decide (2 * (t.fld Fld.pwrTempHotThr + 64) ≤ m)
    let u := t.setFlag Fld.pwrTempHot hot
    let u := if hot = true ∧ t.flag Fld.pwrTempHot = false then u.alarm 7 Code.dieHot 0 else u
    let v := tempCap 1 east.toNat (tempCap 0 west.toNat u)
    let limit := 2 * (v.maxTemp + 10 + 64)
    (m < limit → exec (.tempUpdate west east) s = .next { v with pwr := { v.pwr with hot := 0 } }) ∧
    (limit ≤ m → v.pwr.hot = 0 → exec (.tempUpdate west east) s = .next { v with pwr := { v.pwr with hot := 1 } }) ∧
    (limit ≤ m → v.pwr.hot ≠ 0 → exec (.tempUpdate west east) s = .next (enterDarkNow true { v with pwr := { v.pwr with hot := 2 } }))) ∧
  (∀ (s : State) (h : Fin 2) (b : Fin 1001), let t := s.setFld Fld.pwrRailBacklog b.val h
    let run := if b.val < 10 * t.fld Fld.pwrVfabDown h then Tab.get 0 t.pwr.downs h + 1 else 0
    let u := { t with pwr := { t.pwr with downs := Tab.set 0 t.pwr.downs h (if run = 100 then 0 else run) } }
    let still := u.railFree = false ∨ u.fld Fld.pwrVfabPolicy h = 0 ∨ u.flag Fld.pwrRailSlewing h = true
    let put := fun x => Host.Outcome.next (u.setFld Fld.pwrRailVfab (max (u.railBounds h).1 (min (u.railBounds h).2 x)) h)
    (still → exec (.backlogInterval h b) s = .next u) ∧
    (¬ still → 10 * t.fld Fld.pwrVfabUp h < b.val → exec (.backlogInterval h b) s = put (u.fld Fld.pwrRailVfab h + 3)) ∧
    (¬ still → b.val ≤ 10 * t.fld Fld.pwrVfabUp h → run = 100 → exec (.backlogInterval h b) s = put (u.fld Fld.pwrRailVfab h - 1)) ∧
    (¬ still → b.val ≤ 10 * t.fld Fld.pwrVfabUp h → run ≠ 100 → exec (.backlogInterval h b) s = .next u)) ∧
  (∀ (s : State) (h : Fin 2) (k : Fin 4), exec (.phaseMonitor h k) s = .next (railSettle h (trigger 8 6 h k false false s))) ∧
  (∀ (s : State) (w : Writer) (h : Fin 2) (v : W32), s.priv w ≠ 0 →
    let policy := bitsW v 0 2
    let level := bitsW v 2 6
    let mx := bitsW v 8 6
    let bad := policy = 3 ∨ (policy = 0 ∧ (level < 5 ∨ 45 < level)) ∨ (policy = 2 ∧ (level < 35 ∨ 45 < level)) ∨
      (policy ≠ 0 ∧ (mx < (if policy = 1 then 5 else level) ∨ 45 < mx)) ∨ bitsW v 16 8 ≤ bitsW v 24 8 ∨ 100 < bitsW v 16 8
    (bad → exec (.vfabWrite w h v) s = .next (s.refuse Reg.pwrRefuse Code.railRange 0)) ∧
    (¬ bad → exec (.vfabWrite w h v) s =
      .next (railSettle h (s.setReg Reg.pwrVfab (Reg.pwrVfab.plain (s.reg Reg.pwrVfab h) (v.setWidth 64) false) h)))) ∧
  (∀ (s : State) (w : Writer) (b : Fin 4) (v : W32), s.priv w = 2 → bitsW v 0 2 ≠ 3 →
    let t := (s.setFld Fld.pwrVbankLevel (bitsW v 0 2) b).setFld Fld.pwrVbankDarkOn (bitsW v 2 1) b
    let u := if bitsW v 0 2 ≠ s.fld Fld.pwrVbankLevel b then (t.setFlag Fld.pwrVbankSlewing true b).setFlag Fld.pwrVbankOk false b else t
    (bitsW v 3 1 = 0 → exec (.vbankWrite w b v) s = .next u) ∧
    (bitsW v 3 1 = 1 → u.agreed = true → exec (.vbankWrite w b v) s = .next (raiseRecord .recordSupply u)) ∧
    (bitsW v 3 1 = 1 → u.agreed = false → exec (.vbankWrite w b v) s = .next (u.refuse Reg.pwrRefuse Code.held 0))) ∧
  (∀ (s : State) (w : Writer) (b : Fin 4), s.priv w = 2 → s.fld Fld.pwrVbankLevel b ≠ 3 →
    let u := (s.setFld Fld.pwrVbankLevel (s.fld Fld.pwrVbankLevel b) b).setFld Fld.pwrVbankDarkOn (s.fld Fld.pwrVbankDarkOn b) b
    exec (.vbankSave w b) s = .next (if u.agreed then raiseRecord .recordSupply u else u.refuse Reg.pwrRefuse Code.held 0)) ∧
  (∀ (s : State) (w : Writer) (v : W32), s.priv w ≠ 0 →
    (320 ≤ bitsW v 10 10 → bitsW v 10 10 ≤ 710 →
      exec (.supplyCfgWrite w v) s = .next (s.setReg Reg.pwrSup (Reg.pwrSup.plain (s.reg Reg.pwrSup) (v.setWidth 64) false))) ∧
    (bitsW v 10 10 < 320 ∨ 710 < bitsW v 10 10 → exec (.supplyCfgWrite w v) s = .next (s.refuse Reg.pwrRefuse Code.railRange 0)) ∧
    exec (.tempPeakClr w) s = .next (s.setFld Fld.pwrTempPeak (s.fld Fld.pwrTempTemp))) ∧
  (∀ s : State,
    (∀ h : Fin 2, Tab.get 0 s.pwr.aim h ≠ 0 → let t := s.setFld Fld.pwrRailVfab (Tab.get 0 s.pwr.aim h - 1) h
      exec (.railSlewDone ⟨h.val, by omega⟩) s =
        .next ({ t with pwr := { t.pwr with aim := Tab.set 0 t.pwr.aim h 0 } }.setFlag Fld.pwrRailSlewing false h)) ∧
    (∀ b : Fin 4, s.flag Fld.pwrVbankSlewing b = true → let t := s.setFlag Fld.pwrVbankSlewing false b
      exec (.railSlewDone ⟨2 + b.val, by omega⟩) s =
        .next (t.setFlag Fld.pwrVbankOk (!(s.pwr.dark && !s.flag Fld.pwrVbankDarkOn b)) b)) ∧
    (∀ b : Fin 4, s.flag Fld.pwrVbankSlewing b = false → exec (.railSlewDone ⟨2 + b.val, by omega⟩) s = .next s))

/-- O55. The writes of PIN_CFG, MUX, OVL, OWN, OUT and PWM: refusals first, then the value; the switch at its edge and the PWM's
period. Rests on 16_field_ports.md: The function multiplexer; 16_field_ports.md: Building the pad level; 16_field_ports.md:
Owners; 16_field_ports.md: Registers; 11_translation_and_protection.md: Privilege; notes/assumptions/24.md;
notes/assumptions/31.md; notes/assumptions/32.md. -/
def Obligations.PortSettingsFollowTheirChecks : Prop :=
  (∀ (s : State) (w : Writer) (n : Fin 144) (v : W32), s.priv w = 2 →
    let cfg := s.portReg Reg.pinCfg n
    let mux := s.portReg Reg.pinMux n
    let ovl := s.portReg Reg.pinOvl n
    let owner := s.fld Fld.pinOwnOwner n
    let no := fun (code : Nat) => Host.Outcome.next (s.refuse Reg.pinRefuse code n 0 0)
    (let new := v.toNat % 2 ^ 25
     let used := muxFn mux false ≠ 0 ∨ muxFn mux true ≠ 0 ∨ bitOf ovl 5 = true ∨ bitOf ovl 11 = true
     let busy := bitsOf cfg 0 2 ≠ bitsOf new 0 2 ∧ used
     (portRefusal n new mux ovl owner ≠ 0 → exec (.pinCfgWrite w n v) s = no (portRefusal n new mux ovl owner)) ∧
     (portRefusal n new mux ovl owner = 0 → busy → exec (.pinCfgWrite w n v) s = no Code.pinBusy) ∧
     (portRefusal n new mux ovl owner = 0 → ¬ busy → let t := s.setReg Reg.pinCfg (BitVec.ofNat 64 new) n
       exec (.pinCfgWrite w n v) s = .next (showPin n (if bitOf cfg 0 = bitOf new 0 then t else diffChanged n (bitOf new 0) t)))) ∧
    (let new := v.toNat % 2 ^ 24
     let t := s.setReg Reg.pinMux (BitVec.ofNat 64 new) n
     (portRefusal n cfg new ovl owner ≠ 0 → exec (.pinMuxWrite w n v) s = no (portRefusal n cfg new ovl owner)) ∧
     (portRefusal n cfg new ovl owner = 0 → new = mux → exec (.pinMuxWrite w n v) s = .next s) ∧
     (portRefusal n cfg new ovl owner = 0 → new ≠ mux → t.outsDone = false ∨ t.flag Fld.pinStatSleep n = true → exec (.pinMuxWrite w n v) s = .next t) ∧
     (portRefusal n cfg new ovl owner = 0 → new ≠ mux → t.outsDone = true → t.flag Fld.pinStatSleep n = false →
       let held := t.flag Fld.stwSecHoldOutHeld (homeSector n) || t.flag Fld.stwSecHoldDark (homeSector n)
       exec (.pinMuxWrite w n v) s = .next ((t.setFlag Fld.pinStatSwitching true n).setFlag Fld.pinStatSafe (t.portFabric n && held) n))) ∧
    (let new := v.toNat % 2 ^ 12
     (portRefusal n cfg mux new owner ≠ 0 → exec (.pinOvlWrite w n v) s = no (portRefusal n cfg mux new owner)) ∧
     (portRefusal n cfg mux new owner = 0 → exec (.pinOvlWrite w n v) s = .next (s.setReg Reg.pinOvl (BitVec.ofNat 64 new) n))) ∧
    (let nw := bitsW v 0 8
     let fits := fnAllowed nw (muxFn mux false) = true ∧ fnAllowed nw (muxFn mux true) = true
     (ownerValid nw = false → exec (.pinOwnWrite w n v) s =
       .next ((s.deny Code.ownerBad (s.ownerCode w) 4 n).refuse Reg.pinRefuse Code.ownerBad n 0 0)) ∧
     (ownerValid nw = true → ¬ fits → exec (.pinOwnWrite w n v) s = no Code.pinFnOwner) ∧
     (ownerValid nw = true → fits → exec (.pinOwnWrite w n v) s = .next (s.setFld Fld.pinOwnOwner nw n)))) ∧
  (∀ (s : State) (w : Writer) (n : Fin 144) (v : W32), s.priv w = 1 →
    exec (.pinCfgWrite w n v) s = .next (s.denyWarden w (Reg.pinCfg.addr n 0)) ∧
    exec (.pinMuxWrite w n v) s = .next (s.denyWarden w (Reg.pinMux.addr n 0)) ∧
    exec (.pinOvlWrite w n v) s = .next (s.denyWarden w (Reg.pinOvl.addr n 0)) ∧
    exec (.pinOwnWrite w n v) s = .next (s.denyWarden w (Reg.pinOwn.addr n 0))) ∧
  (∀ (s : State) (w : Writer) (n : Fin 144) (v : W32), s.priv w ≠ 0 →
    (s.ownerCode w ≠ s.fld Fld.pinOwnOwner n → let no := Host.Outcome.next ((s.deny Code.notOwner (s.ownerCode w) 4 n).refuse Reg.pinRefuse Code.notOwner n 0 0)
      exec (.pinOutWrite w n v) s = no ∧ exec (.pinPwmWrite w n v) s = no) ∧
    (s.ownerCode w = s.fld Fld.pinOwnOwner n →
      exec (.pinOutWrite w n v) s = .next (s.setReg Reg.pinOut (BitVec.ofNat 64 (bitsW v 0 4)) n) ∧
      (bitsW v 0 16 < 2 ∨ bitsW v 0 16 < bitsW v 16 16 → exec (.pinPwmWrite w n v) s = .next (s.refuse Reg.pinRefuse Code.pinBadCfg n 0 0)) ∧
      (2 ≤ bitsW v 0 16 → bitsW v 16 16 ≤ bitsW v 0 16 → exec (.pinPwmWrite w n v) s = .next (s.setReg Reg.pinPwm (v.setWidth 64) n)))) ∧
  (∀ (s : State) (n : Fin 144),
    (s.flag Fld.pinStatSwitching n = true → exec (.pinSwitchEdge n) s = .next (muxInForce n (s.setFlag Fld.pinStatSwitching false n))) ∧
    (s.flag Fld.pinStatSwitching n = false → exec (.pinSwitchEdge n) s = .next s) ∧
    (let h := s.pin n
     let period := bitsOf h.pwm 0 16
     (period < 2 → exec (.pwmPeriod n) s = .next (s.setPin n { h with pwm := s.portReg Reg.pinPwm n, pwmAt := s.now })) ∧
     (2 ≤ period → s.now - h.pwmAt < 640 * period → exec (.pwmPeriod n) s = .next s) ∧
     (2 ≤ period → 640 * period ≤ s.now - h.pwmAt → exec (.pwmPeriod n) s =
       .next (s.setPin n { h with pwm := s.portReg Reg.pinPwm n, pwmAt := s.now - (s.now - h.pwmAt) % (640 * period) }))))

/-- O56. Filtered inputs, debounce, LINE_FAULT, the slices' checks, and the writes of DAC, AIN and PIN_GCTL. Rests on
16_field_ports.md: Inputs; 16_field_ports.md: Driver slices; 16_field_ports.md: DAC outputs; 16_field_ports.md: Analog
fronts; 16_field_ports.md: Safe state, darkroom and sleep; 16_field_ports.md: Registers; notes/assumptions/24.md;
notes/assumptions/31.md; notes/assumptions/32.md. -/
def Obligations.InputsSlicesAndConvertersAct : Prop :=
  (∀ (s : State) (n : Fin 144) (b level : Bool), (b = true → s.flag Fld.pinCfgDiff n = false) →
    let l := match s.pad n b with
      | .level x => x
      | _ => level || (!b && s.flag Fld.pinStatLineFault n)
    let h := s.pin n
    ((if b then h.levelB else h.levelA) = l → exec (.pinInputChange n b level) s = .next (showPin n s)) ∧
    ((if b then h.levelB else h.levelA) ≠ l → exec (.pinInputChange n b level) s = .next (showPin n (s.setPin n
      (if b then { h with levelB := l, sinceB := s.now } else { h with levelA := l, sinceA := s.now }))))) ∧
  (∀ (s : State) (n : Fin 144) (level : Bool), s.flag Fld.pinCfgDiff n = true → exec (.pinInputChange n true level) s = .next s) ∧
  (∀ (s : State) (n : Fin 144) (b : Bool), let h := s.pin n
    let due := (if b then h.sinceB else h.sinceA) + 8000000 * s.fld Fld.pinCfgDebounce n
    (s.now < due → exec (.debounceExpiry n b) s = .next s) ∧
    (due ≤ s.now → exec (.debounceExpiry n b) s = .next (setPinIn n b (if b then h.levelB else h.levelA) s))) ∧
  (∀ (s : State) (n : Fin 144) (on : Bool), s.flag Fld.pinCfgDiff n = false → exec (.lineFaultDetect n on) s = .next s) ∧
  (∀ (s : State) (n : Fin 144), s.flag Fld.pinCfgDiff n = true →
    exec (.lineFaultDetect n false) s = .next (showOpen (s.setFlag Fld.pinStatLineFault false n)) ∧
    (s.flag Fld.pinStatLineFault n = false → exec (.lineFaultDetect n true) s = .next (showOpen (inputChange n false true
      ((s.setFlag Fld.pinStatLineFault true n).noticeIf s.pinNotes Code.pinLineFault n))))) ∧
  (∀ (s : State) (n : Fin 144) (b overload : Bool),
    (s.pad n b = .released → exec (.sliceDriveCheck n b overload) s = .next s) ∧
    (s.pad n b ≠ .released → let t := s.setFlag (if b then Fld.pinStatOverloadB else Fld.pinStatOverloadA) true n
      exec (.sliceDriveCheck n b true) s = .next (t.noticeIf s.pinNotes Code.pinOverload n) ∧
      exec (.sliceDriveCheck n b false) s = .next (trigger 7 5 (n / 8) (n % 8 + 8 * b2n b) false false s))) ∧
  (∀ (s : State) (w : Writer) (k : Fin 16) (v : W32), s.priv w ≠ 0 →
    (s.ownerCode w = s.fld Fld.pinDacCfgOwner k → exec (.dacCodeWrite w k v) s = .next (s.setFld Fld.pinDacCodeCode (bitsW v 0 16) k)) ∧
    (s.ownerCode w ≠ s.fld Fld.pinDacCfgOwner k → exec (.dacCodeWrite w k v) s =
      .next ((s.deny Code.notOwner (s.ownerCode w) 5 k).refuse Reg.pinRefuse Code.notOwner k 0 1))) ∧
  (∀ (s : State) (w : Writer) (k : Fin 16) (v : W32), s.priv w = 2 →
    (let busy := bitsW v 0 8 ≠ s.fld Fld.pinDacCfgOwner k ∧ s.dacArmed k = true
     (ownerValid (bitsW v 0 8) = false → exec (.dacCfgWrite w k v) s =
       .next ((s.deny Code.ownerBad (s.ownerCode w) 5 k).refuse Reg.pinRefuse Code.ownerBad k 0 1)) ∧
     (ownerValid (bitsW v 0 8) = true → busy → exec (.dacCfgWrite w k v) s = .next (s.refuse Reg.pinRefuse Code.pinBusy k 0 1)) ∧
     (ownerValid (bitsW v 0 8) = true → ¬ busy → exec (.dacCfgWrite w k v) s =
       .next (s.setReg Reg.pinDacCfg (Reg.pinDacCfg.plain (s.reg Reg.pinDacCfg k) (v.setWidth 64) true) k))) ∧
    (let old := s.reg Reg.pinAinCfg k
     let new := Reg.pinAinCfg.plain old (v.setWidth 64) true
     let busy := bitsW new 0 3 + 8 * bitsW new 5 1 ≠ bitsW old 0 3 + 8 * bitsW old 5 1 ∧ s.frontTaken k = true
     (bitsW v 0 2 = 3 → exec (.ainCfgWrite w k v) s = .next (s.refuse Reg.pinRefuse Code.pinBadCfg k 0 2)) ∧
     (bitsW v 0 2 ≠ 3 → busy → exec (.ainCfgWrite w k v) s = .next (s.refuse Reg.pinRefuse Code.pinBusy k 0 2)) ∧
     (bitsW v 0 2 ≠ 3 → ¬ busy → exec (.ainCfgWrite w k v) s = .next (s.setReg Reg.pinAinCfg new k)))) ∧
  (∀ (s : State) (w : Writer),
    (s.priv w = 2 → let t := s.setFld Fld.pinGctlNoteEn (s.fld Fld.pinGctlNoteEn)
      (t.agreed = true → exec (.pinSave w) s = .next (raiseRecord .recordPorts t)) ∧
      (t.agreed = false → exec (.pinSave w) s = .next (t.refuse Reg.pinRefuse Code.held 0 0 0))) ∧
    (s.priv w = 1 → exec (.pinSave w) s = .next (s.denyWarden w Reg.pinGctl.base)) ∧
    (s.priv w ≠ 0 → exec (.laneCntClr w) s = .next ((upFrom 0 4).foldl (fun s l => s.setReg Reg.pinLaneCnt 0 l) s)))

/-- O57. Lane control, lock, loss and stop, and the messages IDENT and TIME of the tether lanes. Rests on 16_field_ports.md:
Lanes; 16_field_ports.md: Registers; 12_configuration.md: Sources; notes/assumptions/3.md; notes/assumptions/17.md;
notes/assumptions/25.md. -/
def Obligations.LanesTrainLoseAndKeepTime : Prop :=
  (∀ (s : State) (w : Writer) (l : Fin 4) (v : W32), s.priv w = 2 →
    ∀ r ∈ ([(.laneEnable w l v, v ||| 8), (.laneDisable w l v, v &&& ~~~8)] : List (Instr × W32)),
    let old := (s.reg Reg.pinLaneCfg l).toNat
    let x := r.2.toNat % 2 ^ 24
    let new := if l.val < 2 then x - bitsOf x 4 1 * 2 ^ 4 else x
    let on := bitOf new 3
    let queues := l.val < 2 || (s.txQueue (bitsOf new 8 8) && s.rxQueue (bitsOf new 16 8) (bitOf new 4))
    let bad := on = true ∧ bitOf old 3 = false ∧ (bitsOf new 0 3 = 0 ∨ bitsOf new 0 3 = 7 ∨ queues = false)
    let busy := s.fld Fld.pinLaneStatState l ≠ 0 ∧
      (bitsOf old 0 3, bitsOf old 4 1, bitsOf old 8 16) ≠ (bitsOf new 0 3, bitsOf new 4 1, bitsOf new 8 16)
    let t := s.setReg Reg.pinLaneCfg (BitVec.ofNat 64 new) l
    let st := t.fld Fld.pinLaneStatState l
    (bad → exec r.1 s = .next (s.refuse Reg.pinRefuse Code.pinBadCfg l 0 3)) ∧
    (¬ bad → busy → exec r.1 s = .next (s.refuse Reg.pinRefuse Code.pinBusy l 0 3)) ∧
    (¬ bad → ¬ busy →
      (on = bitOf old 3 → exec r.1 s = .next t) ∧
      (on = true → bitOf old 3 = false → exec r.1 s = .next (
        if st = 0 then (if t.asleep then t else laneTrain l t) else if st = 3 then setLaneState l 4 t else t)) ∧
      (on = false → bitOf old 3 = true → exec r.1 s = .next (if st = 0 ∨ st = 3 then t else setLaneState l 3 t)))) ∧
  (∀ (s : State) (l : Fin 4),
    (s.fld Fld.pinLaneStatState l = 3 → exec (.laneStopDone l) s = .next (laneHalt l s)) ∧
    (s.fld Fld.pinLaneStatState l = 4 → exec (.laneStopDone l) s = .next (laneTrain l (laneHalt l s))) ∧
    (s.fld Fld.pinLaneStatState l ≠ 1 → exec (.laneLock l) s = .next s) ∧
    (s.fld Fld.pinLaneStatState l = 1 → let t := s.setLane l { s.lane l with locked := true }
      (2 ≤ l.val → exec (.laneLock l) s = .next (setLaneState l 2 t)) ∧
      (l.val < 2 → exec (.laneLock l) s = .next (tetherAligns l t))) ∧
    (∀ codes : BitVec 16, let t := s.bump Fld.pinLaneCntCodeErr l 0 codes.toNat
      (t.fld Fld.pinLaneStatState l = 1 ∨ t.fld Fld.pinLaneStatState l = 2 → exec (.laneLinkLoss l codes) s =
        .next (laneClockGone l (laneCode l Code.laneDown ((laneTrain l t).bump Fld.pinLaneCntRetrains l)))) ∧
      (t.fld Fld.pinLaneStatState l ≠ 1 → t.fld Fld.pinLaneStatState l ≠ 2 → exec (.laneLinkLoss l codes) s = .next t))) ∧
  (∀ (s : State) (l : Fin 2) (id : W32) (index : Byte) (ack : Bool),
    (s.laneHears l = false → ∀ good, exec (.identMsg l id index ack good) s = .next s) ∧
    (s.laneHears l = true →
      exec (.identMsg l id index ack false) s = .next (s.bump Fld.pinLaneCntCrcErr l) ∧
      (let t := s.setFld Fld.pinLaneStatPeerIndex index.toNat l
       let t := t.setLane l { t.lane l with heard := true, acked := (t.lane l).acked || ack }
       (l.val = 1 ∨ t.follower = false → exec (.identMsg l id index ack true) s = .next (tetherAligns l t)) ∧
       (l.val = 0 → t.follower = true → exec (.identMsg l id index ack true) s = .next (tetherAligns l
         (if t.beyondChain then pullGate t else t.setFld Fld.ldrChainIndex (index.toNat % 16 + 1))))))) ∧
  (∀ (s : State) (l : Fin 2), let h := s.lane l
    (s.fld Fld.pinLaneStatState l = 1 → h.locked = true → exec (.identSendTimer l) s = .next (s.sendLane l
      ⟨1, bytesLE 4 (s.reg Reg.stwDevId).toNat ++ bytesLE 1 (s.fld Fld.ldrChainIndex) ++ bytesLE 1 (b2n h.heard) ++ [0, 0]⟩)) ∧
    (s.fld Fld.pinLaneStatState l ≠ 1 → exec (.identSendTimer l) s = .next s) ∧
    (s.fld Fld.pinLaneStatState l = 2 → exec (.timeSendTimer l) s = .next (s.sendLane l
      ⟨2, bytesLE 8 s.now ++ bytesLE 8 h.echo.toNat ++ bytesLE 8 h.recv.toNat⟩)) ∧
    (s.fld Fld.pinLaneStatState l ≠ 2 → exec (.timeSendTimer l) s = .next s) ∧
    (let t := s.setLane l { s.lane l with good := 0 }
     (t.flag Fld.pinLaneStatOfsValid l = true →
       exec (.timeMissing l) s = .next (laneCode l Code.ofsLost (t.setFlag Fld.pinLaneStatOfsValid false l))) ∧
     (t.flag Fld.pinLaneStatOfsValid l = false → exec (.timeMissing l) s = .next t))) ∧
  (∀ (s : State) (l : Fin 2) (tSend tEcho tRecv d : W64), let t := s.setLane l { s.lane l with echo := tSend, recv := d }
    (s.fld Fld.pinLaneStatState l ≠ 2 → ∀ good, exec (.timeMsg l tSend tEcho tRecv d good) s = .next s) ∧
    (s.fld Fld.pinLaneStatState l = 2 →
      exec (.timeMsg l tSend tEcho tRecv d false) s = .next (s.bump Fld.pinLaneCntCrcErr l) ∧
      (tEcho = 0 → exec (.timeMsg l tSend tEcho tRecv d true) s = .next t) ∧
      (tEcho ≠ 0 → exec (.timeMsg l tSend tEcho tRecv d true) s = .next (
        let o := half (posDiff tRecv tEcho + posDiff tSend d) t
        let y := half (posDiff d tEcho - posDiff tSend tRecv) o.1
        let u := y.1.setReg Reg.pinLaneDly (BitVec.ofInt 32 y.2 |>.setWidth 64) l
        exchange l d.toNat (o.2 - signed 16 (u.fld Fld.pinLaneAsymAsym l)) u))))

/-- O58. STREAM, ACK and EOS of the tether lanes with their timers, and the words of the fabric lanes. Rests on
16_field_ports.md: Lanes; 16_field_ports.md: Registers; 12_configuration.md: Sources; 12_configuration.md: The stream;
notes/assumptions/25.md. -/
def Obligations.StreamsAndWordsCrossTheLanes : Prop :=
  (∀ (s : State) (seq : BitVec 16) (data : List Byte),
    (s.aligned 0 = false ∨ s.beyondChain = true → ∀ good, exec (.streamMsg seq data good) s = .next s) ∧
    (s.aligned 0 = true → s.beyondChain = false → let h := s.lane 0
      exec (.streamMsg seq data false) s = .next (sendAck true (s.bump Fld.pinLaneCntCrcErr 0)) ∧
      (data ≠ [] → data.length ≤ 256 →
        (seq.toNat ≠ h.expect ∨ 16 ≤ h.bufs.length → exec (.streamMsg seq data true) s = .next (sendAck true s)) ∧
        (seq.toNat = h.expect → h.bufs.length < 16 → exec (.streamMsg seq data true) s =
          .next (streamServe (s.setLane 0 { h with bufs := h.bufs ++ [data], expect := (h.expect + 1) % 2 ^ 16 })))))) ∧
  (∀ (s : State) (total : W64),
    (s.aligned 0 = false → ∀ good, exec (.eosMsg total good) s = .next s) ∧
    (s.aligned 0 = true → exec (.eosMsg total false) s = .next (s.bump Fld.pinLaneCntCrcErr 0) ∧
      exec (.eosMsg total true) s = .next (streamTake 40 (s.setLane 0 { s.lane 0 with eos := true })))) ∧
  (∀ s : State, let t := streamTake 40 s
    (t.aligned 0 = true → (t.lane 0).active = true ∨ (t.lane 0).bufs ≠ [] → exec .ackSendTimer s = .next (sendAck false t)) ∧
    (t.aligned 0 = false → exec .ackSendTimer s = .next t) ∧
    (s.aligned 1 = true → exec .streamAckTimeout s =
      .next ((s.lane 1).unacked.foldl (fun s e => s.sendLane 1 (streamMessage e.1 e.2)) s)) ∧
    (s.aligned 1 = false → exec .streamAckTimeout s = .next s)) ∧
  (∀ (s : State) (seq : BitVec 16) (credits : Byte) (nak : Bool),
    (s.laneHears 1 = false → ∀ good, exec (.ackMsg seq credits nak good) s = .next s) ∧
    (s.laneHears 1 = true →
      exec (.ackMsg seq credits nak false) s = .next (s.bump Fld.pinLaneCntCrcErr 1) ∧
      (let h := s.lane 1
       let left := match h.unacked.findIdx? fun e => e.1 == seq.toNat with
         | some i => h.unacked.drop (i + 1)
         | none => h.unacked
       let t := s.setLane 1 { h with unacked := left, credits := credits.toNat }
       exec (.ackMsg seq credits nak true) s = .next (streamPump 32 (if nak then resend t else t))))) ∧
  (∀ (s : State) (l : Fin 2) (v : W64) (sync : BitVec 2), let j := 2 + l.val
    let wide := s.flag Fld.pinLaneCfgPcs j
    let q := s.fld Fld.pinLaneCfgQrx j
    let control := wide && sync.toNat == 2
    let x := if wide then v else v &&& maskW 0 38
    let good := wide = false ∨ (sync ≠ 0 ∧ sync ≠ 3)
    (s.aligned j = false → exec (.laneWordRx l v sync) s = .next s) ∧
    (s.aligned j = true →
      (¬ good → exec (.laneWordRx l v sync) s = .next (s.bump Fld.pinLaneCntCodeErr j)) ∧
      (good → s.flag Fld.pinLaneCfgDropIdle j = true → idleWord wide x control = true → exec (.laneWordRx l v sync) s = .next s) ∧
      (good → s.flag Fld.pinLaneCfgDropIdle j = false ∨ idleWord wide x control = false →
        (s.queRuns q = true → 0 < s.queRoom q → exec (.laneWordRx l v sync) s = .next (queSettle q (queEnter q x control s))) ∧
        (s.queRuns q = false → exec (.laneWordRx l v sync) s = .next (
          let t := (s.bump Fld.pinLaneCntRxDrop j).bump Fld.clkXingCntOverrun (21 + j)
          laneCode j Code.laneRxDrop (t.noticeIf t.clkNotes Code.xingOverrun (21 + j))))))) ∧
  (∀ (s : State) (l : Fin 2), let j := 2 + l.val
    let q := s.fld Fld.pinLaneCfgQtx j
    (s.aligned j = true → s.queRuns q = true → s.flag Fld.queStatEmpty q = false → let p := queLeave q s
      exec (.laneWordTx l) s = .next ((queSettle q p.1).sendLane j
        ⟨0, bytesLE 8 p.2.data.toNat ++ bytesLE 1 (b2n (p.2.last && p.1.flag Fld.pinLaneCfgPcs j))⟩)) ∧
    (s.aligned j = false ∨ s.queRuns q = false ∨ s.flag Fld.queStatEmpty q = true → exec (.laneWordTx l) s = .next s))

/-- O59. The test port: reset, boundary instructions, IDCODE and BYPASS, and CFG_LOAD, CFG_READ and SETUP_RW. Rests on
17_electrical_and_package.md: JTAG and boundary scan; 17_electrical_and_package.md: Identity; 12_configuration.md: Sources;
12_configuration.md: Readback and checks; 11_translation_and_protection.md: Privilege; 11_translation_and_protection.md:
Lifetime‑limited settings; notes/assumptions/26.md. -/
def Obligations.TheTestPortAnswers : Prop :=
  (∀ (s : State) (balls shifted : Nat) (code : Byte),
    let load := fun (ir : Nat) =>
      let t := if s.jtag.ir = 0x20 ∧ ir ≠ 0x20 then sourceEnds 3 s else s
      { t with jtag := { t.jtag with ir := ir, extest := t.jtag.extest && ir == 0, opened := t.jtag.opened && ir == 0x20 } }
    let id := load 2
    let scan := fun (t : State) => { t with jtag := { t.jtag with capture := balls, preload := shifted } }
    exec .jtagReset s = .next { id with jtag := { id.jtag with dr := 0x1096A7CB } } ∧
    exec .jtagIdcode s = .next { id with jtag := { id.jtag with dr := 0x1096A7CB } } ∧
    exec (.jtagSamplePreload balls shifted) s = .next (scan (load 1)) ∧
    exec (.jtagExtest balls shifted) s = .next (let t := scan (load 0)
      { t with jtag := { t.jtag with extest := t.allHeld && !t.outsDone && !t.asleep } }) ∧
    (let t := load (if [0x00, 0x01, 0x02, 0x20, 0x21, 0x22].contains code.toNat then 0xFF else code.toNat)
     exec (.jtagBypass code) s = .next { t with jtag := { t.jtag with dr := 0 } })) ∧
  (∀ (s : State) (bs : List Byte) (sel : BitVec 16) (bar2 : Bool) (word : BitVec 23) (v : W32) (lost : Fin 4),
    let off := fun (t : State) => Host.Outcome.next { t with
      jtag := { t.jtag with code := Code.debugOff, refused := false, cause := 0, frame := [], dr := 0 } }
    let t := jtagInstr 0x20 s
    let u := jtagInstr 0x21 s
    let x := jtagInstr 0x22 s
    (t.flag Fld.wtuDebugDisable = true → exec (.cfgLoad bs) s = off t) ∧
    (u.flag Fld.wtuDebugDisable = true → exec (.cfgRead sel) s = off u) ∧
    (x.flag Fld.wtuDebugDisable = true → exec (.setupRwRead bar2 word lost) s = off x ∧ exec (.setupRwWrite bar2 word v lost) s = off x) ∧
    (t.flag Fld.wtuDebugDisable = false →
      (t.priv .jtag ≠ 2 → exec (.cfgLoad bs) s = .next (let r := t.deny Code.wardenOnly (t.ownerCode .jtag) 6 2
        { r with jtag := { r.jtag with code := Code.wardenOnly } })) ∧
      (t.priv .jtag = 2 → bs = [] → exec (.cfgLoad bs) s = .next { t with jtag := { t.jtag with code := t.streamCode } }) ∧
      (t.priv .jtag = 2 → bs ≠ [] → let o := ldrOffer 3 none t.jtag.opened bs t
        let r := o.1
        (∀ k, o.2 = .took k → exec (.cfgLoad bs) s = .next { r with jtag := { r.jtag with opened := true, code := r.streamCode } }) ∧
        (o.2 = .beyond → exec (.cfgLoad bs) s = .next { r with jtag := { r.jtag with code := r.streamCode } }) ∧
        (∀ c, o.2 = .refused c → exec (.cfgLoad bs) s = .next { r with jtag := { r.jtag with code := c } }))) ∧
    (u.flag Fld.wtuDebugDisable = false → let sec := bitsOf sel.toNat 0 7
      let f := bitsOf sel.toNat 7 9
      (u.readbackCause sec f = 0 → exec (.cfgRead sel) s = .next { u with
        jtag := { u.jtag with code := Code.ok, refused := false, cause := 0, frame := u.frameWords sec f 1 } }) ∧
      (u.readbackCause sec f ≠ 0 → exec (.cfgRead sel) s = .next { u with
        jtag := { u.jtag with code := Code.ok, refused := true, cause := u.readbackCause sec f, frame := List.replicate 64 0 } })) ∧
    (x.flag Fld.wtuDebugDisable = false →
      (exec (.setupRwRead bar2 word lost) s = .next (let r := setupRead bar2 (4 * word.toNat) lost.val x
        { r.1 with jtag := { r.1.jtag with code := if x.priv .jtag = 0 then Code.wardenOnly else Code.ok, dr := r.2 } })) ∧
      (exec (.setupRwWrite bar2 word v lost) s = .next (let f := setupWrite bar2 (4 * word.toNat) v lost.val
        { f x with jtag := { (f x).jtag with code := refusalOf (4 * word.toNat) f x, dr := 0 } })) ∧
      (x.priv .jtag = 0 → bar2 = true → exec (.setupRwRead bar2 word lost) s = .next (let r := x.deny Code.wardenOnly 0xFF 6 2
        { r with jtag := { r.jtag with code := Code.wardenOnly, dr := 0 } }))))
end

