-- ==== Sys2Proof/Laws/State.lean ====
section
/-! SUPPORT. What each update of the state leaves alone: one lemma per field and update, true by definition. -/

namespace Sys2Proof.Machine

/-! ### A register write leaves every other field alone -/

@[simp] theorem State.setReg_pending (s : State) (r : Reg) (v : W64) (i j : Nat) :
    (s.setReg r v i j).pending = s.pending := rfl
@[simp] theorem State.setReg_freeCount (s : State) (r : Reg) (v : W64) (i j : Nat) :
    (s.setReg r v i j).freeCount = s.freeCount := rfl
@[simp] theorem State.setReg_mem (s : State) (r : Reg) (v : W64) (i j : Nat) :
    (s.setReg r v i j).mem = s.mem := rfl
@[simp] theorem State.setReg_dt (s : State) (r : Reg) (v : W64) (i j : Nat) :
    (s.setReg r v i j).dt = s.dt := rfl
@[simp] theorem State.setReg_fine (s : State) (r : Reg) (v : W64) (i j : Nat) :
    (s.setReg r v i j).fine = s.fine := rfl
@[simp] theorem State.setReg_sys (s : State) (r : Reg) (v : W64) (i j : Nat) :
    (s.setReg r v i j).sys = s.sys := rfl
@[simp] theorem State.setReg_lead (s : State) (r : Reg) (v : W64) (i j : Nat) :
    (s.setReg r v i j).lead = s.lead := rfl
@[simp] theorem State.setReg_rings (s : State) (r : Reg) (v : W64) (i j : Nat) :
    (s.setReg r v i j).rings = s.rings := rfl
@[simp] theorem State.setReg_jobs (s : State) (r : Reg) (v : W64) (i j : Nat) :
    (s.setReg r v i j).jobs = s.jobs := rfl
@[simp] theorem State.setReg_trans (s : State) (r : Reg) (v : W64) (i j : Nat) :
    (s.setReg r v i j).trans = s.trans := rfl
@[simp] theorem State.setReg_wtu (s : State) (r : Reg) (v : W64) (i j : Nat) :
    (s.setReg r v i j).wtu = s.wtu := rfl
@[simp] theorem State.setReg_spine (s : State) (r : Reg) (v : W64) (i j : Nat) :
    (s.setReg r v i j).spine = s.spine := rfl
@[simp] theorem State.setReg_parity (s : State) (r : Reg) (v : W64) (i j : Nat) :
    (s.setReg r v i j).parity = s.parity := rfl
@[simp] theorem State.setReg_ecc (s : State) (r : Reg) (v : W64) (i j : Nat) :
    (s.setReg r v i j).ecc = s.ecc := rfl
@[simp] theorem State.setReg_ques (s : State) (r : Reg) (v : W64) (i j : Nat) :
    (s.setReg r v i j).ques = s.ques := rfl
@[simp] theorem State.setReg_rsps (s : State) (r : Reg) (v : W64) (i j : Nat) :
    (s.setReg r v i j).rsps = s.rsps := rfl
@[simp] theorem State.setReg_hostOut (s : State) (r : Reg) (v : W64) (i j : Nat) :
    (s.setReg r v i j).hostOut = s.hostOut := rfl
@[simp] theorem State.setReg_tbs (s : State) (r : Reg) (v : W64) (i j : Nat) :
    (s.setReg r v i j).tbs = s.tbs := rfl
@[simp] theorem State.setReg_sched (s : State) (r : Reg) (v : W64) (i j : Nat) :
    (s.setReg r v i j).sched = s.sched := rfl
@[simp] theorem State.setReg_ctxs (s : State) (r : Reg) (v : W64) (i j : Nat) :
    (s.setReg r v i j).ctxs = s.ctxs := rfl
@[simp] theorem State.setReg_engs (s : State) (r : Reg) (v : W64) (i j : Nat) :
    (s.setReg r v i j).engs = s.engs := rfl
@[simp] theorem State.setReg_clk (s : State) (r : Reg) (v : W64) (i j : Nat) :
    (s.setReg r v i j).clk = s.clk := rfl
@[simp] theorem State.setReg_ldr (s : State) (r : Reg) (v : W64) (i j : Nat) :
    (s.setReg r v i j).ldr = s.ldr := rfl
@[simp] theorem State.setReg_arc (s : State) (r : Reg) (v : W64) (i j : Nat) :
    (s.setReg r v i j).arc = s.arc := rfl
@[simp] theorem State.setReg_sta (s : State) (r : Reg) (v : W64) (i j : Nat) :
    (s.setReg r v i j).sta = s.sta := rfl
@[simp] theorem State.setReg_hea (s : State) (r : Reg) (v : W64) (i j : Nat) :
    (s.setReg r v i j).hea = s.hea := rfl
@[simp] theorem State.setReg_pwr (s : State) (r : Reg) (v : W64) (i j : Nat) :
    (s.setReg r v i j).pwr = s.pwr := rfl
@[simp] theorem State.setReg_pins (s : State) (r : Reg) (v : W64) (i j : Nat) :
    (s.setReg r v i j).pins = s.pins := rfl
@[simp] theorem State.setReg_lanes (s : State) (r : Reg) (v : W64) (i j : Nat) :
    (s.setReg r v i j).lanes = s.lanes := rfl
@[simp] theorem State.setReg_laneOut (s : State) (r : Reg) (v : W64) (i j : Nat) :
    (s.setReg r v i j).laneOut = s.laneOut := rfl
@[simp] theorem State.setReg_jtag (s : State) (r : Reg) (v : W64) (i j : Nat) :
    (s.setReg r v i j).jtag = s.jtag := rfl
@[simp] theorem State.setReg_php (s : State) (r : Reg) (v : W64) (i j : Nat) :
    (s.setReg r v i j).php = s.php := rfl
@[simp] theorem State.setReg_frames (s : State) (r : Reg) (v : W64) (i j : Nat) :
    (s.setReg r v i j).frames = s.frames := rfl
@[simp] theorem State.setReg_cells (s : State) (r : Reg) (v : W64) (i j : Nat) :
    (s.setReg r v i j).cells = s.cells := rfl
@[simp] theorem State.setReg_arbs (s : State) (r : Reg) (v : W64) (i j : Nat) :
    (s.setReg r v i j).arbs = s.arbs := rfl

/-! ### So does setFld -/

@[simp] theorem State.setFld_pending (s : State) (f : Fld) (v i j : Nat) :
    (s.setFld f v i j).pending = s.pending := rfl
@[simp] theorem State.setFld_freeCount (s : State) (f : Fld) (v i j : Nat) :
    (s.setFld f v i j).freeCount = s.freeCount := rfl
@[simp] theorem State.setFld_mem (s : State) (f : Fld) (v i j : Nat) :
    (s.setFld f v i j).mem = s.mem := rfl
@[simp] theorem State.setFld_dt (s : State) (f : Fld) (v i j : Nat) :
    (s.setFld f v i j).dt = s.dt := rfl
@[simp] theorem State.setFld_fine (s : State) (f : Fld) (v i j : Nat) :
    (s.setFld f v i j).fine = s.fine := rfl
@[simp] theorem State.setFld_sys (s : State) (f : Fld) (v i j : Nat) :
    (s.setFld f v i j).sys = s.sys := rfl
@[simp] theorem State.setFld_lead (s : State) (f : Fld) (v i j : Nat) :
    (s.setFld f v i j).lead = s.lead := rfl
@[simp] theorem State.setFld_rings (s : State) (f : Fld) (v i j : Nat) :
    (s.setFld f v i j).rings = s.rings := rfl
@[simp] theorem State.setFld_jobs (s : State) (f : Fld) (v i j : Nat) :
    (s.setFld f v i j).jobs = s.jobs := rfl
@[simp] theorem State.setFld_trans (s : State) (f : Fld) (v i j : Nat) :
    (s.setFld f v i j).trans = s.trans := rfl
@[simp] theorem State.setFld_wtu (s : State) (f : Fld) (v i j : Nat) :
    (s.setFld f v i j).wtu = s.wtu := rfl
@[simp] theorem State.setFld_spine (s : State) (f : Fld) (v i j : Nat) :
    (s.setFld f v i j).spine = s.spine := rfl
@[simp] theorem State.setFld_parity (s : State) (f : Fld) (v i j : Nat) :
    (s.setFld f v i j).parity = s.parity := rfl
@[simp] theorem State.setFld_ecc (s : State) (f : Fld) (v i j : Nat) :
    (s.setFld f v i j).ecc = s.ecc := rfl
@[simp] theorem State.setFld_ques (s : State) (f : Fld) (v i j : Nat) :
    (s.setFld f v i j).ques = s.ques := rfl
@[simp] theorem State.setFld_rsps (s : State) (f : Fld) (v i j : Nat) :
    (s.setFld f v i j).rsps = s.rsps := rfl
@[simp] theorem State.setFld_hostOut (s : State) (f : Fld) (v i j : Nat) :
    (s.setFld f v i j).hostOut = s.hostOut := rfl
@[simp] theorem State.setFld_tbs (s : State) (f : Fld) (v i j : Nat) :
    (s.setFld f v i j).tbs = s.tbs := rfl
@[simp] theorem State.setFld_sched (s : State) (f : Fld) (v i j : Nat) :
    (s.setFld f v i j).sched = s.sched := rfl
@[simp] theorem State.setFld_ctxs (s : State) (f : Fld) (v i j : Nat) :
    (s.setFld f v i j).ctxs = s.ctxs := rfl
@[simp] theorem State.setFld_engs (s : State) (f : Fld) (v i j : Nat) :
    (s.setFld f v i j).engs = s.engs := rfl
@[simp] theorem State.setFld_clk (s : State) (f : Fld) (v i j : Nat) :
    (s.setFld f v i j).clk = s.clk := rfl
@[simp] theorem State.setFld_ldr (s : State) (f : Fld) (v i j : Nat) :
    (s.setFld f v i j).ldr = s.ldr := rfl
@[simp] theorem State.setFld_arc (s : State) (f : Fld) (v i j : Nat) :
    (s.setFld f v i j).arc = s.arc := rfl
@[simp] theorem State.setFld_sta (s : State) (f : Fld) (v i j : Nat) :
    (s.setFld f v i j).sta = s.sta := rfl
@[simp] theorem State.setFld_hea (s : State) (f : Fld) (v i j : Nat) :
    (s.setFld f v i j).hea = s.hea := rfl
@[simp] theorem State.setFld_pwr (s : State) (f : Fld) (v i j : Nat) :
    (s.setFld f v i j).pwr = s.pwr := rfl
@[simp] theorem State.setFld_pins (s : State) (f : Fld) (v i j : Nat) :
    (s.setFld f v i j).pins = s.pins := rfl
@[simp] theorem State.setFld_lanes (s : State) (f : Fld) (v i j : Nat) :
    (s.setFld f v i j).lanes = s.lanes := rfl
@[simp] theorem State.setFld_laneOut (s : State) (f : Fld) (v i j : Nat) :
    (s.setFld f v i j).laneOut = s.laneOut := rfl
@[simp] theorem State.setFld_jtag (s : State) (f : Fld) (v i j : Nat) :
    (s.setFld f v i j).jtag = s.jtag := rfl
@[simp] theorem State.setFld_php (s : State) (f : Fld) (v i j : Nat) :
    (s.setFld f v i j).php = s.php := rfl
@[simp] theorem State.setFld_frames (s : State) (f : Fld) (v i j : Nat) :
    (s.setFld f v i j).frames = s.frames := rfl
@[simp] theorem State.setFld_cells (s : State) (f : Fld) (v i j : Nat) :
    (s.setFld f v i j).cells = s.cells := rfl
@[simp] theorem State.setFld_arbs (s : State) (f : Fld) (v i j : Nat) :
    (s.setFld f v i j).arbs = s.arbs := rfl

/-! ### So does setFlag -/

@[simp] theorem State.setFlag_pending (s : State) (f : Fld) (b : Bool) (i j : Nat) :
    (s.setFlag f b i j).pending = s.pending := rfl
@[simp] theorem State.setFlag_freeCount (s : State) (f : Fld) (b : Bool) (i j : Nat) :
    (s.setFlag f b i j).freeCount = s.freeCount := rfl
@[simp] theorem State.setFlag_mem (s : State) (f : Fld) (b : Bool) (i j : Nat) :
    (s.setFlag f b i j).mem = s.mem := rfl
@[simp] theorem State.setFlag_dt (s : State) (f : Fld) (b : Bool) (i j : Nat) :
    (s.setFlag f b i j).dt = s.dt := rfl
@[simp] theorem State.setFlag_fine (s : State) (f : Fld) (b : Bool) (i j : Nat) :
    (s.setFlag f b i j).fine = s.fine := rfl
@[simp] theorem State.setFlag_sys (s : State) (f : Fld) (b : Bool) (i j : Nat) :
    (s.setFlag f b i j).sys = s.sys := rfl
@[simp] theorem State.setFlag_lead (s : State) (f : Fld) (b : Bool) (i j : Nat) :
    (s.setFlag f b i j).lead = s.lead := rfl
@[simp] theorem State.setFlag_rings (s : State) (f : Fld) (b : Bool) (i j : Nat) :
    (s.setFlag f b i j).rings = s.rings := rfl
@[simp] theorem State.setFlag_jobs (s : State) (f : Fld) (b : Bool) (i j : Nat) :
    (s.setFlag f b i j).jobs = s.jobs := rfl
@[simp] theorem State.setFlag_trans (s : State) (f : Fld) (b : Bool) (i j : Nat) :
    (s.setFlag f b i j).trans = s.trans := rfl
@[simp] theorem State.setFlag_wtu (s : State) (f : Fld) (b : Bool) (i j : Nat) :
    (s.setFlag f b i j).wtu = s.wtu := rfl
@[simp] theorem State.setFlag_spine (s : State) (f : Fld) (b : Bool) (i j : Nat) :
    (s.setFlag f b i j).spine = s.spine := rfl
@[simp] theorem State.setFlag_parity (s : State) (f : Fld) (b : Bool) (i j : Nat) :
    (s.setFlag f b i j).parity = s.parity := rfl
@[simp] theorem State.setFlag_ecc (s : State) (f : Fld) (b : Bool) (i j : Nat) :
    (s.setFlag f b i j).ecc = s.ecc := rfl
@[simp] theorem State.setFlag_ques (s : State) (f : Fld) (b : Bool) (i j : Nat) :
    (s.setFlag f b i j).ques = s.ques := rfl
@[simp] theorem State.setFlag_rsps (s : State) (f : Fld) (b : Bool) (i j : Nat) :
    (s.setFlag f b i j).rsps = s.rsps := rfl
@[simp] theorem State.setFlag_hostOut (s : State) (f : Fld) (b : Bool) (i j : Nat) :
    (s.setFlag f b i j).hostOut = s.hostOut := rfl
@[simp] theorem State.setFlag_tbs (s : State) (f : Fld) (b : Bool) (i j : Nat) :
    (s.setFlag f b i j).tbs = s.tbs := rfl
@[simp] theorem State.setFlag_sched (s : State) (f : Fld) (b : Bool) (i j : Nat) :
    (s.setFlag f b i j).sched = s.sched := rfl
@[simp] theorem State.setFlag_ctxs (s : State) (f : Fld) (b : Bool) (i j : Nat) :
    (s.setFlag f b i j).ctxs = s.ctxs := rfl
@[simp] theorem State.setFlag_engs (s : State) (f : Fld) (b : Bool) (i j : Nat) :
    (s.setFlag f b i j).engs = s.engs := rfl
@[simp] theorem State.setFlag_clk (s : State) (f : Fld) (b : Bool) (i j : Nat) :
    (s.setFlag f b i j).clk = s.clk := rfl
@[simp] theorem State.setFlag_ldr (s : State) (f : Fld) (b : Bool) (i j : Nat) :
    (s.setFlag f b i j).ldr = s.ldr := rfl
@[simp] theorem State.setFlag_arc (s : State) (f : Fld) (b : Bool) (i j : Nat) :
    (s.setFlag f b i j).arc = s.arc := rfl
@[simp] theorem State.setFlag_sta (s : State) (f : Fld) (b : Bool) (i j : Nat) :
    (s.setFlag f b i j).sta = s.sta := rfl
@[simp] theorem State.setFlag_hea (s : State) (f : Fld) (b : Bool) (i j : Nat) :
    (s.setFlag f b i j).hea = s.hea := rfl
@[simp] theorem State.setFlag_pwr (s : State) (f : Fld) (b : Bool) (i j : Nat) :
    (s.setFlag f b i j).pwr = s.pwr := rfl
@[simp] theorem State.setFlag_pins (s : State) (f : Fld) (b : Bool) (i j : Nat) :
    (s.setFlag f b i j).pins = s.pins := rfl
@[simp] theorem State.setFlag_lanes (s : State) (f : Fld) (b : Bool) (i j : Nat) :
    (s.setFlag f b i j).lanes = s.lanes := rfl
@[simp] theorem State.setFlag_laneOut (s : State) (f : Fld) (b : Bool) (i j : Nat) :
    (s.setFlag f b i j).laneOut = s.laneOut := rfl
@[simp] theorem State.setFlag_jtag (s : State) (f : Fld) (b : Bool) (i j : Nat) :
    (s.setFlag f b i j).jtag = s.jtag := rfl
@[simp] theorem State.setFlag_php (s : State) (f : Fld) (b : Bool) (i j : Nat) :
    (s.setFlag f b i j).php = s.php := rfl
@[simp] theorem State.setFlag_frames (s : State) (f : Fld) (b : Bool) (i j : Nat) :
    (s.setFlag f b i j).frames = s.frames := rfl
@[simp] theorem State.setFlag_cells (s : State) (f : Fld) (b : Bool) (i j : Nat) :
    (s.setFlag f b i j).cells = s.cells := rfl
@[simp] theorem State.setFlag_arbs (s : State) (f : Fld) (b : Bool) (i j : Nat) :
    (s.setFlag f b i j).arbs = s.arbs := rfl

/-! ### So does bump -/

@[simp] theorem State.bump_pending (s : State) (f : Fld) (i j k : Nat) :
    (s.bump f i j k).pending = s.pending := rfl
@[simp] theorem State.bump_freeCount (s : State) (f : Fld) (i j k : Nat) :
    (s.bump f i j k).freeCount = s.freeCount := rfl
@[simp] theorem State.bump_mem (s : State) (f : Fld) (i j k : Nat) :
    (s.bump f i j k).mem = s.mem := rfl
@[simp] theorem State.bump_dt (s : State) (f : Fld) (i j k : Nat) :
    (s.bump f i j k).dt = s.dt := rfl
@[simp] theorem State.bump_fine (s : State) (f : Fld) (i j k : Nat) :
    (s.bump f i j k).fine = s.fine := rfl
@[simp] theorem State.bump_sys (s : State) (f : Fld) (i j k : Nat) :
    (s.bump f i j k).sys = s.sys := rfl
@[simp] theorem State.bump_lead (s : State) (f : Fld) (i j k : Nat) :
    (s.bump f i j k).lead = s.lead := rfl
@[simp] theorem State.bump_rings (s : State) (f : Fld) (i j k : Nat) :
    (s.bump f i j k).rings = s.rings := rfl
@[simp] theorem State.bump_jobs (s : State) (f : Fld) (i j k : Nat) :
    (s.bump f i j k).jobs = s.jobs := rfl
@[simp] theorem State.bump_trans (s : State) (f : Fld) (i j k : Nat) :
    (s.bump f i j k).trans = s.trans := rfl
@[simp] theorem State.bump_wtu (s : State) (f : Fld) (i j k : Nat) :
    (s.bump f i j k).wtu = s.wtu := rfl
@[simp] theorem State.bump_spine (s : State) (f : Fld) (i j k : Nat) :
    (s.bump f i j k).spine = s.spine := rfl
@[simp] theorem State.bump_parity (s : State) (f : Fld) (i j k : Nat) :
    (s.bump f i j k).parity = s.parity := rfl
@[simp] theorem State.bump_ecc (s : State) (f : Fld) (i j k : Nat) :
    (s.bump f i j k).ecc = s.ecc := rfl
@[simp] theorem State.bump_ques (s : State) (f : Fld) (i j k : Nat) :
    (s.bump f i j k).ques = s.ques := rfl
@[simp] theorem State.bump_rsps (s : State) (f : Fld) (i j k : Nat) :
    (s.bump f i j k).rsps = s.rsps := rfl
@[simp] theorem State.bump_hostOut (s : State) (f : Fld) (i j k : Nat) :
    (s.bump f i j k).hostOut = s.hostOut := rfl
@[simp] theorem State.bump_tbs (s : State) (f : Fld) (i j k : Nat) :
    (s.bump f i j k).tbs = s.tbs := rfl
@[simp] theorem State.bump_sched (s : State) (f : Fld) (i j k : Nat) :
    (s.bump f i j k).sched = s.sched := rfl
@[simp] theorem State.bump_ctxs (s : State) (f : Fld) (i j k : Nat) :
    (s.bump f i j k).ctxs = s.ctxs := rfl
@[simp] theorem State.bump_engs (s : State) (f : Fld) (i j k : Nat) :
    (s.bump f i j k).engs = s.engs := rfl
@[simp] theorem State.bump_clk (s : State) (f : Fld) (i j k : Nat) :
    (s.bump f i j k).clk = s.clk := rfl
@[simp] theorem State.bump_ldr (s : State) (f : Fld) (i j k : Nat) :
    (s.bump f i j k).ldr = s.ldr := rfl
@[simp] theorem State.bump_arc (s : State) (f : Fld) (i j k : Nat) :
    (s.bump f i j k).arc = s.arc := rfl
@[simp] theorem State.bump_sta (s : State) (f : Fld) (i j k : Nat) :
    (s.bump f i j k).sta = s.sta := rfl
@[simp] theorem State.bump_hea (s : State) (f : Fld) (i j k : Nat) :
    (s.bump f i j k).hea = s.hea := rfl
@[simp] theorem State.bump_pwr (s : State) (f : Fld) (i j k : Nat) :
    (s.bump f i j k).pwr = s.pwr := rfl
@[simp] theorem State.bump_pins (s : State) (f : Fld) (i j k : Nat) :
    (s.bump f i j k).pins = s.pins := rfl
@[simp] theorem State.bump_lanes (s : State) (f : Fld) (i j k : Nat) :
    (s.bump f i j k).lanes = s.lanes := rfl
@[simp] theorem State.bump_laneOut (s : State) (f : Fld) (i j k : Nat) :
    (s.bump f i j k).laneOut = s.laneOut := rfl
@[simp] theorem State.bump_jtag (s : State) (f : Fld) (i j k : Nat) :
    (s.bump f i j k).jtag = s.jtag := rfl
@[simp] theorem State.bump_php (s : State) (f : Fld) (i j k : Nat) :
    (s.bump f i j k).php = s.php := rfl
@[simp] theorem State.bump_frames (s : State) (f : Fld) (i j k : Nat) :
    (s.bump f i j k).frames = s.frames := rfl
@[simp] theorem State.bump_cells (s : State) (f : Fld) (i j k : Nat) :
    (s.bump f i j k).cells = s.cells := rfl
@[simp] theorem State.bump_arbs (s : State) (f : Fld) (i j k : Nat) :
    (s.bump f i j k).arbs = s.arbs := rfl

/-! ### An update of another field leaves the registers alone -/

@[simp] theorem State.reg_pending (s : State) (x : List Instr) (r : Reg) (i j : Nat) :
    ({ s with pending := x } : State).reg r i j = s.reg r i j := rfl
@[simp] theorem State.fld_pending (s : State) (x : List Instr) (f : Fld) (i j : Nat) :
    ({ s with pending := x } : State).fld f i j = s.fld f i j := rfl
@[simp] theorem State.flag_pending (s : State) (x : List Instr) (f : Fld) (i j : Nat) :
    ({ s with pending := x } : State).flag f i j = s.flag f i j := rfl
@[simp] theorem State.reg_freeCount (s : State) (x : Nat) (r : Reg) (i j : Nat) :
    ({ s with freeCount := x } : State).reg r i j = s.reg r i j := rfl
@[simp] theorem State.fld_freeCount (s : State) (x : Nat) (f : Fld) (i j : Nat) :
    ({ s with freeCount := x } : State).fld f i j = s.fld f i j := rfl
@[simp] theorem State.flag_freeCount (s : State) (x : Nat) (f : Fld) (i j : Nat) :
    ({ s with freeCount := x } : State).flag f i j = s.flag f i j := rfl
@[simp] theorem State.reg_mem (s : State) (x : List Host.Cell) (r : Reg) (i j : Nat) :
    ({ s with mem := x } : State).reg r i j = s.reg r i j := rfl
@[simp] theorem State.fld_mem (s : State) (x : List Host.Cell) (f : Fld) (i j : Nat) :
    ({ s with mem := x } : State).fld f i j = s.fld f i j := rfl
@[simp] theorem State.flag_mem (s : State) (x : List Host.Cell) (f : Fld) (i j : Nat) :
    ({ s with mem := x } : State).flag f i j = s.flag f i j := rfl
@[simp] theorem State.reg_dt (s : State) (x : W64) (r : Reg) (i j : Nat) :
    ({ s with dt := x } : State).reg r i j = s.reg r i j := rfl
@[simp] theorem State.fld_dt (s : State) (x : W64) (f : Fld) (i j : Nat) :
    ({ s with dt := x } : State).fld f i j = s.fld f i j := rfl
@[simp] theorem State.flag_dt (s : State) (x : W64) (f : Fld) (i j : Nat) :
    ({ s with dt := x } : State).flag f i j = s.flag f i j := rfl
@[simp] theorem State.reg_fine (s : State) (x : BitVec 5) (r : Reg) (i j : Nat) :
    ({ s with fine := x } : State).reg r i j = s.reg r i j := rfl
@[simp] theorem State.fld_fine (s : State) (x : BitVec 5) (f : Fld) (i j : Nat) :
    ({ s with fine := x } : State).fld f i j = s.fld f i j := rfl
@[simp] theorem State.flag_fine (s : State) (x : BitVec 5) (f : Fld) (i j : Nat) :
    ({ s with fine := x } : State).flag f i j = s.flag f i j := rfl
@[simp] theorem State.reg_sys (s : State) (x : Sys) (r : Reg) (i j : Nat) :
    ({ s with sys := x } : State).reg r i j = s.reg r i j := rfl
@[simp] theorem State.fld_sys (s : State) (x : Sys) (f : Fld) (i j : Nat) :
    ({ s with sys := x } : State).fld f i j = s.fld f i j := rfl
@[simp] theorem State.flag_sys (s : State) (x : Sys) (f : Fld) (i j : Nat) :
    ({ s with sys := x } : State).flag f i j = s.flag f i j := rfl
@[simp] theorem State.reg_lead (s : State) (x : Lead) (r : Reg) (i j : Nat) :
    ({ s with lead := x } : State).reg r i j = s.reg r i j := rfl
@[simp] theorem State.fld_lead (s : State) (x : Lead) (f : Fld) (i j : Nat) :
    ({ s with lead := x } : State).fld f i j = s.fld f i j := rfl
@[simp] theorem State.flag_lead (s : State) (x : Lead) (f : Fld) (i j : Nat) :
    ({ s with lead := x } : State).flag f i j = s.flag f i j := rfl
@[simp] theorem State.reg_rings (s : State) (x : Tab RingHid) (r : Reg) (i j : Nat) :
    ({ s with rings := x } : State).reg r i j = s.reg r i j := rfl
@[simp] theorem State.fld_rings (s : State) (x : Tab RingHid) (f : Fld) (i j : Nat) :
    ({ s with rings := x } : State).fld f i j = s.fld f i j := rfl
@[simp] theorem State.flag_rings (s : State) (x : Tab RingHid) (f : Fld) (i j : Nat) :
    ({ s with rings := x } : State).flag f i j = s.flag f i j := rfl
@[simp] theorem State.reg_jobs (s : State) (x : Tab Job) (r : Reg) (i j : Nat) :
    ({ s with jobs := x } : State).reg r i j = s.reg r i j := rfl
@[simp] theorem State.fld_jobs (s : State) (x : Tab Job) (f : Fld) (i j : Nat) :
    ({ s with jobs := x } : State).fld f i j = s.fld f i j := rfl
@[simp] theorem State.flag_jobs (s : State) (x : Tab Job) (f : Fld) (i j : Nat) :
    ({ s with jobs := x } : State).flag f i j = s.flag f i j := rfl
@[simp] theorem State.reg_trans (s : State) (x : List Trans) (r : Reg) (i j : Nat) :
    ({ s with trans := x } : State).reg r i j = s.reg r i j := rfl
@[simp] theorem State.fld_trans (s : State) (x : List Trans) (f : Fld) (i j : Nat) :
    ({ s with trans := x } : State).fld f i j = s.fld f i j := rfl
@[simp] theorem State.flag_trans (s : State) (x : List Trans) (f : Fld) (i j : Nat) :
    ({ s with trans := x } : State).flag f i j = s.flag f i j := rfl
@[simp] theorem State.reg_wtu (s : State) (x : Wtu) (r : Reg) (i j : Nat) :
    ({ s with wtu := x } : State).reg r i j = s.reg r i j := rfl
@[simp] theorem State.fld_wtu (s : State) (x : Wtu) (f : Fld) (i j : Nat) :
    ({ s with wtu := x } : State).fld f i j = s.fld f i j := rfl
@[simp] theorem State.flag_wtu (s : State) (x : Wtu) (f : Fld) (i j : Nat) :
    ({ s with wtu := x } : State).flag f i j = s.flag f i j := rfl
@[simp] theorem State.reg_spine (s : State) (x : Spine) (r : Reg) (i j : Nat) :
    ({ s with spine := x } : State).reg r i j = s.reg r i j := rfl
@[simp] theorem State.fld_spine (s : State) (x : Spine) (f : Fld) (i j : Nat) :
    ({ s with spine := x } : State).fld f i j = s.fld f i j := rfl
@[simp] theorem State.flag_spine (s : State) (x : Spine) (f : Fld) (i j : Nat) :
    ({ s with spine := x } : State).flag f i j = s.flag f i j := rfl
@[simp] theorem State.reg_parity (s : State) (x : Tab Bool) (r : Reg) (i j : Nat) :
    ({ s with parity := x } : State).reg r i j = s.reg r i j := rfl
@[simp] theorem State.fld_parity (s : State) (x : Tab Bool) (f : Fld) (i j : Nat) :
    ({ s with parity := x } : State).fld f i j = s.fld f i j := rfl
@[simp] theorem State.flag_parity (s : State) (x : Tab Bool) (f : Fld) (i j : Nat) :
    ({ s with parity := x } : State).flag f i j = s.flag f i j := rfl
@[simp] theorem State.reg_ecc (s : State) (x : Tab Nat) (r : Reg) (i j : Nat) :
    ({ s with ecc := x } : State).reg r i j = s.reg r i j := rfl
@[simp] theorem State.fld_ecc (s : State) (x : Tab Nat) (f : Fld) (i j : Nat) :
    ({ s with ecc := x } : State).fld f i j = s.fld f i j := rfl
@[simp] theorem State.flag_ecc (s : State) (x : Tab Nat) (f : Fld) (i j : Nat) :
    ({ s with ecc := x } : State).flag f i j = s.flag f i j := rfl
@[simp] theorem State.reg_ques (s : State) (x : Tab Que) (r : Reg) (i j : Nat) :
    ({ s with ques := x } : State).reg r i j = s.reg r i j := rfl
@[simp] theorem State.fld_ques (s : State) (x : Tab Que) (f : Fld) (i j : Nat) :
    ({ s with ques := x } : State).fld f i j = s.fld f i j := rfl
@[simp] theorem State.flag_ques (s : State) (x : Tab Que) (f : Fld) (i j : Nat) :
    ({ s with ques := x } : State).flag f i j = s.flag f i j := rfl
@[simp] theorem State.reg_rsps (s : State) (x : List Rsp) (r : Reg) (i j : Nat) :
    ({ s with rsps := x } : State).reg r i j = s.reg r i j := rfl
@[simp] theorem State.fld_rsps (s : State) (x : List Rsp) (f : Fld) (i j : Nat) :
    ({ s with rsps := x } : State).fld f i j = s.fld f i j := rfl
@[simp] theorem State.flag_rsps (s : State) (x : List Rsp) (f : Fld) (i j : Nat) :
    ({ s with rsps := x } : State).flag f i j = s.flag f i j := rfl
@[simp] theorem State.reg_hostOut (s : State) (x : List HostOut) (r : Reg) (i j : Nat) :
    ({ s with hostOut := x } : State).reg r i j = s.reg r i j := rfl
@[simp] theorem State.fld_hostOut (s : State) (x : List HostOut) (f : Fld) (i j : Nat) :
    ({ s with hostOut := x } : State).fld f i j = s.fld f i j := rfl
@[simp] theorem State.flag_hostOut (s : State) (x : List HostOut) (f : Fld) (i j : Nat) :
    ({ s with hostOut := x } : State).flag f i j = s.flag f i j := rfl
@[simp] theorem State.reg_tbs (s : State) (x : Tab TbHid) (r : Reg) (i j : Nat) :
    ({ s with tbs := x } : State).reg r i j = s.reg r i j := rfl
@[simp] theorem State.fld_tbs (s : State) (x : Tab TbHid) (f : Fld) (i j : Nat) :
    ({ s with tbs := x } : State).fld f i j = s.fld f i j := rfl
@[simp] theorem State.flag_tbs (s : State) (x : Tab TbHid) (f : Fld) (i j : Nat) :
    ({ s with tbs := x } : State).flag f i j = s.flag f i j := rfl
@[simp] theorem State.reg_sched (s : State) (x : Sched) (r : Reg) (i j : Nat) :
    ({ s with sched := x } : State).reg r i j = s.reg r i j := rfl
@[simp] theorem State.fld_sched (s : State) (x : Sched) (f : Fld) (i j : Nat) :
    ({ s with sched := x } : State).fld f i j = s.fld f i j := rfl
@[simp] theorem State.flag_sched (s : State) (x : Sched) (f : Fld) (i j : Nat) :
    ({ s with sched := x } : State).flag f i j = s.flag f i j := rfl
@[simp] theorem State.reg_ctxs (s : State) (x : Tab Ctx) (r : Reg) (i j : Nat) :
    ({ s with ctxs := x } : State).reg r i j = s.reg r i j := rfl
@[simp] theorem State.fld_ctxs (s : State) (x : Tab Ctx) (f : Fld) (i j : Nat) :
    ({ s with ctxs := x } : State).fld f i j = s.fld f i j := rfl
@[simp] theorem State.flag_ctxs (s : State) (x : Tab Ctx) (f : Fld) (i j : Nat) :
    ({ s with ctxs := x } : State).flag f i j = s.flag f i j := rfl
@[simp] theorem State.reg_engs (s : State) (x : Tab Eng) (r : Reg) (i j : Nat) :
    ({ s with engs := x } : State).reg r i j = s.reg r i j := rfl
@[simp] theorem State.fld_engs (s : State) (x : Tab Eng) (f : Fld) (i j : Nat) :
    ({ s with engs := x } : State).fld f i j = s.fld f i j := rfl
@[simp] theorem State.flag_engs (s : State) (x : Tab Eng) (f : Fld) (i j : Nat) :
    ({ s with engs := x } : State).flag f i j = s.flag f i j := rfl
@[simp] theorem State.reg_clk (s : State) (x : Clk) (r : Reg) (i j : Nat) :
    ({ s with clk := x } : State).reg r i j = s.reg r i j := rfl
@[simp] theorem State.fld_clk (s : State) (x : Clk) (f : Fld) (i j : Nat) :
    ({ s with clk := x } : State).fld f i j = s.fld f i j := rfl
@[simp] theorem State.flag_clk (s : State) (x : Clk) (f : Fld) (i j : Nat) :
    ({ s with clk := x } : State).flag f i j = s.flag f i j := rfl
@[simp] theorem State.reg_ldr (s : State) (x : Ldr) (r : Reg) (i j : Nat) :
    ({ s with ldr := x } : State).reg r i j = s.reg r i j := rfl
@[simp] theorem State.fld_ldr (s : State) (x : Ldr) (f : Fld) (i j : Nat) :
    ({ s with ldr := x } : State).fld f i j = s.fld f i j := rfl
@[simp] theorem State.flag_ldr (s : State) (x : Ldr) (f : Fld) (i j : Nat) :
    ({ s with ldr := x } : State).flag f i j = s.flag f i j := rfl
@[simp] theorem State.reg_arc (s : State) (x : Arc) (r : Reg) (i j : Nat) :
    ({ s with arc := x } : State).reg r i j = s.reg r i j := rfl
@[simp] theorem State.fld_arc (s : State) (x : Arc) (f : Fld) (i j : Nat) :
    ({ s with arc := x } : State).fld f i j = s.fld f i j := rfl
@[simp] theorem State.flag_arc (s : State) (x : Arc) (f : Fld) (i j : Nat) :
    ({ s with arc := x } : State).flag f i j = s.flag f i j := rfl
@[simp] theorem State.reg_sta (s : State) (x : Sta) (r : Reg) (i j : Nat) :
    ({ s with sta := x } : State).reg r i j = s.reg r i j := rfl
@[simp] theorem State.fld_sta (s : State) (x : Sta) (f : Fld) (i j : Nat) :
    ({ s with sta := x } : State).fld f i j = s.fld f i j := rfl
@[simp] theorem State.flag_sta (s : State) (x : Sta) (f : Fld) (i j : Nat) :
    ({ s with sta := x } : State).flag f i j = s.flag f i j := rfl
@[simp] theorem State.reg_hea (s : State) (x : Hea) (r : Reg) (i j : Nat) :
    ({ s with hea := x } : State).reg r i j = s.reg r i j := rfl
@[simp] theorem State.fld_hea (s : State) (x : Hea) (f : Fld) (i j : Nat) :
    ({ s with hea := x } : State).fld f i j = s.fld f i j := rfl
@[simp] theorem State.flag_hea (s : State) (x : Hea) (f : Fld) (i j : Nat) :
    ({ s with hea := x } : State).flag f i j = s.flag f i j := rfl
@[simp] theorem State.reg_pwr (s : State) (x : Pwr) (r : Reg) (i j : Nat) :
    ({ s with pwr := x } : State).reg r i j = s.reg r i j := rfl
@[simp] theorem State.fld_pwr (s : State) (x : Pwr) (f : Fld) (i j : Nat) :
    ({ s with pwr := x } : State).fld f i j = s.fld f i j := rfl
@[simp] theorem State.flag_pwr (s : State) (x : Pwr) (f : Fld) (i j : Nat) :
    ({ s with pwr := x } : State).flag f i j = s.flag f i j := rfl
@[simp] theorem State.reg_pins (s : State) (x : Tab PinHid) (r : Reg) (i j : Nat) :
    ({ s with pins := x } : State).reg r i j = s.reg r i j := rfl
@[simp] theorem State.fld_pins (s : State) (x : Tab PinHid) (f : Fld) (i j : Nat) :
    ({ s with pins := x } : State).fld f i j = s.fld f i j := rfl
@[simp] theorem State.flag_pins (s : State) (x : Tab PinHid) (f : Fld) (i j : Nat) :
    ({ s with pins := x } : State).flag f i j = s.flag f i j := rfl
@[simp] theorem State.reg_lanes (s : State) (x : Tab LaneHid) (r : Reg) (i j : Nat) :
    ({ s with lanes := x } : State).reg r i j = s.reg r i j := rfl
@[simp] theorem State.fld_lanes (s : State) (x : Tab LaneHid) (f : Fld) (i j : Nat) :
    ({ s with lanes := x } : State).fld f i j = s.fld f i j := rfl
@[simp] theorem State.flag_lanes (s : State) (x : Tab LaneHid) (f : Fld) (i j : Nat) :
    ({ s with lanes := x } : State).flag f i j = s.flag f i j := rfl
@[simp] theorem State.reg_laneOut (s : State) (x : Tab (List LaneMsg)) (r : Reg) (i j : Nat) :
    ({ s with laneOut := x } : State).reg r i j = s.reg r i j := rfl
@[simp] theorem State.fld_laneOut (s : State) (x : Tab (List LaneMsg)) (f : Fld) (i j : Nat) :
    ({ s with laneOut := x } : State).fld f i j = s.fld f i j := rfl
@[simp] theorem State.flag_laneOut (s : State) (x : Tab (List LaneMsg)) (f : Fld) (i j : Nat) :
    ({ s with laneOut := x } : State).flag f i j = s.flag f i j := rfl
@[simp] theorem State.reg_jtag (s : State) (x : Jtag) (r : Reg) (i j : Nat) :
    ({ s with jtag := x } : State).reg r i j = s.reg r i j := rfl
@[simp] theorem State.fld_jtag (s : State) (x : Jtag) (f : Fld) (i j : Nat) :
    ({ s with jtag := x } : State).fld f i j = s.fld f i j := rfl
@[simp] theorem State.flag_jtag (s : State) (x : Jtag) (f : Fld) (i j : Nat) :
    ({ s with jtag := x } : State).flag f i j = s.flag f i j := rfl
@[simp] theorem State.reg_php (s : State) (x : Php) (r : Reg) (i j : Nat) :
    ({ s with php := x } : State).reg r i j = s.reg r i j := rfl
@[simp] theorem State.fld_php (s : State) (x : Php) (f : Fld) (i j : Nat) :
    ({ s with php := x } : State).fld f i j = s.fld f i j := rfl
@[simp] theorem State.flag_php (s : State) (x : Php) (f : Fld) (i j : Nat) :
    ({ s with php := x } : State).flag f i j = s.flag f i j := rfl
@[simp] theorem State.reg_frames (s : State) (x : Tab W64) (r : Reg) (i j : Nat) :
    ({ s with frames := x } : State).reg r i j = s.reg r i j := rfl
@[simp] theorem State.fld_frames (s : State) (x : Tab W64) (f : Fld) (i j : Nat) :
    ({ s with frames := x } : State).fld f i j = s.fld f i j := rfl
@[simp] theorem State.flag_frames (s : State) (x : Tab W64) (f : Fld) (i j : Nat) :
    ({ s with frames := x } : State).flag f i j = s.flag f i j := rfl
@[simp] theorem State.reg_cells (s : State) (x : Tab CellHid) (r : Reg) (i j : Nat) :
    ({ s with cells := x } : State).reg r i j = s.reg r i j := rfl
@[simp] theorem State.fld_cells (s : State) (x : Tab CellHid) (f : Fld) (i j : Nat) :
    ({ s with cells := x } : State).fld f i j = s.fld f i j := rfl
@[simp] theorem State.flag_cells (s : State) (x : Tab CellHid) (f : Fld) (i j : Nat) :
    ({ s with cells := x } : State).flag f i j = s.flag f i j := rfl
@[simp] theorem State.reg_arbs (s : State) (x : Tab Arb) (r : Reg) (i j : Nat) :
    ({ s with arbs := x } : State).reg r i j = s.reg r i j := rfl
@[simp] theorem State.fld_arbs (s : State) (x : Tab Arb) (f : Fld) (i j : Nat) :
    ({ s with arbs := x } : State).fld f i j = s.fld f i j := rfl
@[simp] theorem State.flag_arbs (s : State) (x : Tab Arb) (f : Fld) (i j : Nat) :
    ({ s with arbs := x } : State).flag f i j = s.flag f i j := rfl

end Sys2Proof.Machine
end

