-- ==== Sys2Proof/Laws/Table.lean ====
section
/-! SUPPORT. The laws of the sparse tables: a read after a write, every other key left alone, and the canonical form
kept by each operation. -/

namespace Sys2Proof.Machine

theorem Tab.rising_mono {α : Type} {lo lo' : Nat} (h : lo' ≤ lo) :
    ∀ {t : Tab α}, Tab.rising lo t = true → Tab.rising lo' t = true
  | [], _ => rfl
  | (a, _) :: t, ht => by
    simp only [Tab.rising, Bool.and_eq_true, decide_eq_true_eq] at ht ⊢
    exact ⟨Nat.le_trans h ht.1, ht.2⟩

theorem Tab.get_below {α : Type} (d : α) {k : Nat} :
    ∀ {t : Tab α} {lo : Nat}, Tab.rising lo t = true → k < lo → Tab.get d t k = d
  | [], _, _, _ => rfl
  | (a, w) :: t, lo, h, hk => by
    simp only [Tab.rising, Bool.and_eq_true, decide_eq_true_eq] at h
    have hne : k ≠ a := by omega
    simp only [Tab.get, hne, if_false]
    exact Tab.get_below d h.2 (by omega)

theorem Tab.get_put {α : Type} (d v : α) (k k' : Nat) :
    ∀ t : Tab α, Tab.get d (t.put k v) k' = if k' = k then v else Tab.get d t k'
  | [] => by simp [Tab.put, Tab.get]
  | (a, w) :: t => by
    unfold Tab.put
    split
    · rfl
    · split
      · next h => subst h; simp only [Tab.get]; split <;> rfl
      · next h1 h2 =>
        simp only [Tab.get, Tab.get_put d v k k' t]
        by_cases h : k' = a
        · have : k' ≠ k := by omega
          simp [h]; intro h'; omega
        · simp [h]

theorem Tab.get_del {α : Type} (d : α) (k k' : Nat) :
    ∀ {t : Tab α} {lo : Nat}, Tab.rising lo t = true →
      Tab.get d (t.del k) k' = if k' = k then d else Tab.get d t k'
  | [], _, _ => by simp [Tab.del, Tab.get]
  | (a, w) :: t, lo, h => by
    simp only [Tab.rising, Bool.and_eq_true, decide_eq_true_eq] at h
    unfold Tab.del
    split
    · next hk =>
      subst hk
      by_cases hk' : k' = k
      · subst hk'
        simp only [if_true]
        exact Tab.get_below d h.2 (Nat.lt_succ_self _)
      · simp [Tab.get, hk']
    · next hk =>
      simp only [Tab.get, Tab.get_del d k k' h.2]
      by_cases h' : k' = a
      · have : k' ≠ k := by omega
        simp [h']; intro h''; omega
      · simp [h']

/-- A read after a write of a table in canonical form: the value written at its key, every other key as before. -/
theorem Tab.get_set {α : Type} [DecidableEq α] (d v : α) (k k' : Nat) {t : Tab α} {lo : Nat}
    (h : Tab.rising lo t = true) : Tab.get d (Tab.set d t k v) k' = if k' = k then v else Tab.get d t k' := by
  unfold Tab.set
  split
  · next hv => rw [Tab.get_del d k k' h, hv]
  · exact Tab.get_put d v k k' t

theorem Tab.rising_put {α : Type} (k : Nat) (v : α) :
    ∀ {t : Tab α} {lo : Nat}, Tab.rising lo t = true → lo ≤ k → Tab.rising lo (t.put k v) = true
  | [], lo, _, hk => by simp [Tab.put, Tab.rising, hk]
  | (a, w) :: t, lo, h, hk => by
    simp only [Tab.rising, Bool.and_eq_true, decide_eq_true_eq] at h
    unfold Tab.put
    split
    · simp only [Tab.rising, Bool.and_eq_true, decide_eq_true_eq]
      exact ⟨hk, by omega, h.2⟩
    · split
      · next e => subst e; simp only [Tab.rising, Bool.and_eq_true, decide_eq_true_eq]; exact h
      · simp only [Tab.rising, Bool.and_eq_true, decide_eq_true_eq]
        exact ⟨h.1, Tab.rising_put k v h.2 (by omega)⟩

theorem Tab.rising_del {α : Type} (k : Nat) :
    ∀ {t : Tab α} {lo : Nat}, Tab.rising lo t = true → Tab.rising lo (t.del k) = true
  | [], _, _ => rfl
  | (a, w) :: t, lo, h => by
    simp only [Tab.rising, Bool.and_eq_true, decide_eq_true_eq] at h
    unfold Tab.del
    split
    · exact Tab.rising_mono (by omega) h.2
    · simp only [Tab.rising, Bool.and_eq_true, decide_eq_true_eq]
      exact ⟨h.1, Tab.rising_del k h.2⟩

theorem Tab.mem_put {α : Type} (k : Nat) (v : α) (e : Nat × α) :
    ∀ {t : Tab α}, e ∈ t.put k v → e = (k, v) ∨ e ∈ t
  | [], h => by simpa [Tab.put] using h
  | (a, w) :: t, h => by
    unfold Tab.put at h
    split at h
    · simpa using h
    · split at h
      · rcases List.mem_cons.1 h with h | h
        · exact .inl h
        · exact .inr (List.mem_cons_of_mem _ h)
      · rcases List.mem_cons.1 h with h | h
        · exact .inr (h ▸ List.mem_cons_self)
        · rcases Tab.mem_put k v e h with h | h
          · exact .inl h
          · exact .inr (List.mem_cons_of_mem _ h)

theorem Tab.mem_del {α : Type} (k : Nat) (e : Nat × α) : ∀ {t : Tab α}, e ∈ t.del k → e ∈ t
  | [], h => h
  | (a, w) :: t, h => by
    unfold Tab.del at h
    split at h
    · exact List.mem_cons_of_mem _ h
    · rcases List.mem_cons.1 h with h | h
      · exact h ▸ List.mem_cons_self
      · exact List.mem_cons_of_mem _ (Tab.mem_del k e h)

theorem Tab.wf_iff {α : Type} [DecidableEq α] (d : α) (t : Tab α) :
    Tab.wf d t = true ↔ Tab.rising 0 t = true ∧ ∀ e ∈ t, e.2 ≠ d := by
  simp [Tab.wf, Tab.noDefault]

theorem Tab.wf_nil {α : Type} [DecidableEq α] (d : α) : Tab.wf d ([] : Tab α) = true := rfl

/-- Setting a key keeps the canonical form. -/
theorem Tab.wf_set {α : Type} [DecidableEq α] (d : α) {t : Tab α} (h : Tab.wf d t = true) (k : Nat) (v : α) :
    Tab.wf d (Tab.set d t k v) = true := by
  rw [Tab.wf_iff] at h ⊢
  unfold Tab.set
  split
  · exact ⟨Tab.rising_del k h.1, fun e he => h.2 e (Tab.mem_del k e he)⟩
  · next hv =>
    refine ⟨Tab.rising_put k v h.1 (Nat.zero_le _), fun e he => ?_⟩
    rcases Tab.mem_put k v e he with he | he
    · rw [he]; exact hv
    · exact h.2 e he

theorem Tab.rising_filter {α : Type} (p : Nat × α → Bool) :
    ∀ {t : Tab α} {lo : Nat}, Tab.rising lo t = true → Tab.rising lo (t.filter p) = true
  | [], _, _ => rfl
  | (a, w) :: t, lo, h => by
    simp only [Tab.rising, Bool.and_eq_true, decide_eq_true_eq] at h
    rw [List.filter_cons]
    split
    · simp only [Tab.rising, Bool.and_eq_true, decide_eq_true_eq]
      exact ⟨h.1, Tab.rising_filter p h.2⟩
    · exact Tab.rising_mono (by omega) (Tab.rising_filter p h.2)

/-- Keeping only some entries keeps the canonical form. -/
theorem Tab.wf_filter {α : Type} [DecidableEq α] (d : α) (p : Nat × α → Bool) {t : Tab α} (h : Tab.wf d t = true) :
    Tab.wf d (t.filter p) = true := by
  rw [Tab.wf_iff] at h ⊢
  exact ⟨Tab.rising_filter p h.1, fun e he => h.2 e (List.mem_filter.1 he).1⟩

theorem Tab.rising_map {α : Type} (g : Nat × α → Nat × α) (hg : ∀ e, (g e).1 = e.1) :
    ∀ {t : Tab α} {lo : Nat}, Tab.rising lo t = true → Tab.rising lo (t.map g) = true
  | [], _, _ => rfl
  | (a, w) :: t, lo, h => by
    simp only [Tab.rising, Bool.and_eq_true, decide_eq_true_eq] at h
    have e : (g (a, w)).1 = a := hg _
    cases hga : g (a, w) with
    | mk a' w' =>
      rw [hga] at e
      simp only [List.map_cons, hga, Tab.rising, Bool.and_eq_true, decide_eq_true_eq]
      exact ⟨by simp only at e; omega, by simp only at e; rw [e]; exact Tab.rising_map g hg h.2⟩

/-- Mapping the values in place and dropping what an unlisted key reads as keeps the canonical form. -/
theorem Tab.wf_mapFilter {α : Type} [DecidableEq α] (d : α) (g : Nat × α → Nat × α) (hg : ∀ e, (g e).1 = e.1)
    {t : Tab α} (h : Tab.wf d t = true) (p : Nat × α → Bool) (hp : ∀ e, p e = true → e.2 ≠ d) :
    Tab.wf d ((t.map g).filter p) = true := by
  rw [Tab.wf_iff] at h ⊢
  exact ⟨Tab.rising_filter p (Tab.rising_map g hg h.1), fun e he => hp e (List.mem_filter.1 he).2⟩

end Sys2Proof.Machine
end

