-- ==== Sys2Proof/Laws/Regs.lean ====
section
/-! SUPPORT. Registers and their fields: what is read after a write, at the same place and at another. -/

namespace Sys2Proof.Machine

/-- A key is read as before after another key's entry is set, in any table. -/
theorem Tab.get_set_ne {α : Type} [DecidableEq α] (d v : α) {k k' : Nat} (h : k' ≠ k) (t : Tab α) :
    Tab.get d (Tab.set d t k v) k' = Tab.get d t k' := by
  unfold Tab.set
  split
  · induction t with
    | nil => rfl
    | cons e t ih =>
      obtain ⟨a, w⟩ := e
      by_cases ha : k = a
      · subst ha; simp [Tab.del, Tab.get, h]
      · by_cases hb : k' = a <;> simp [Tab.del, Tab.get, ha, hb, ih]
  · induction t with
    | nil => simp [Tab.put, Tab.get, h]
    | cons e t ih =>
      obtain ⟨a, w⟩ := e
      by_cases ha : k < a
      · simp [Tab.put, Tab.get, ha, h]
      · by_cases hb : k = a
        · subst hb; simp [Tab.put, Tab.get, h]
        · by_cases hc : k' = a <;> simp [Tab.put, Tab.get, ha, hb, hc, ih]

/-- A key reads what was set, in a table whose keys rise. -/
theorem Tab.get_set_self {α : Type} [DecidableEq α] (d v : α) (k : Nat) {t : Tab α} (h : t.rising 0 = true) :
    Tab.get d (Tab.set d t k v) k = v := by
  rw [Tab.get_set d v k k h]; simp

/-- A key reads a value set that is not what an unlisted key reads as, in any table. -/
theorem Tab.get_set_listed {α : Type} [DecidableEq α] (d : α) {v : α} (h : v ≠ d) (k : Nat) (t : Tab α) :
    Tab.get d (Tab.set d t k v) k = v := by
  unfold Tab.set
  rw [if_neg h, Tab.get_put]
  simp

/-- The registers of a sound state stand in their canonical form. -/
theorem State.Inv.regular {s : State} (h : s.Inv) : s.Regular := h.canonical.regs

/-- A register reads what was written to it. -/
theorem State.reg_setReg_self {s : State} (h : s.Regular) (r : Reg) (v : W64) (i j : Nat) :
    (s.setReg r v i j).reg r i j = v := by
  simp [State.reg, State.setReg, Tab.get_set_self _ _ _ ((Tab.wf_iff _ _).1 h).1, BitVec.xor_assoc]

/-- A register at another address reads as before. -/
theorem State.reg_setReg_ne (s : State) (r r' : Reg) (v : W64) {i j i' j' : Nat} (h : r'.addr i' j' ≠ r.addr i j) :
    (s.setReg r v i j).reg r' i' j' = s.reg r' i' j' := by
  simp [State.reg, State.setReg, Tab.get_set_ne _ _ h]

/-- The registers stay in their canonical form. -/
theorem State.Regular.setReg {s : State} (h : s.Regular) (r : Reg) (v : W64) (i j : Nat) : (s.setReg r v i j).Regular :=
  Tab.wf_set 0 h _ _

theorem State.Regular.setFld {s : State} (h : s.Regular) (f : Fld) (v i j : Nat) : (s.setFld f v i j).Regular :=
  h.setReg _ _ _ _

theorem State.Regular.setFlag {s : State} (h : s.Regular) (f : Fld) (b : Bool) (i j : Nat) :
    (s.setFlag f b i j).Regular := h.setFld _ _ _ _

/-- A field of a register at another address reads as before. -/
theorem State.fld_setReg_ne (s : State) (f : Fld) (r : Reg) (v : W64) {i j i' j' : Nat}
    (h : f.reg.addr i' j' ≠ r.addr i j) : (s.setReg r v i j).fld f i' j' = s.fld f i' j' := by
  simp [State.fld, State.reg_setReg_ne s _ _ _ h]

theorem State.fld_setFld_ne (s : State) (f f' : Fld) (v : Nat) {i j i' j' : Nat}
    (h : f'.reg.addr i' j' ≠ f.reg.addr i j) : (s.setFld f v i j).fld f' i' j' = s.fld f' i' j' :=
  State.fld_setReg_ne s _ _ _ h

theorem State.fld_setFlag_ne (s : State) (f f' : Fld) (b : Bool) {i j i' j' : Nat}
    (h : f'.reg.addr i' j' ≠ f.reg.addr i j) : (s.setFlag f b i j).fld f' i' j' = s.fld f' i' j' :=
  State.fld_setReg_ne s _ _ _ h

theorem State.fld_bump_ne (s : State) (f f' : Fld) (k : Nat) {i j i' j' : Nat}
    (h : f'.reg.addr i' j' ≠ f.reg.addr i j) : (s.bump f i j k).fld f' i' j' = s.fld f' i' j' :=
  State.fld_setReg_ne s _ _ _ h

theorem State.flag_setReg_ne (s : State) (f : Fld) (r : Reg) (v : W64) {i j i' j' : Nat}
    (h : f.reg.addr i' j' ≠ r.addr i j) : (s.setReg r v i j).flag f i' j' = s.flag f i' j' := by
  simp only [State.flag, State.fld_setReg_ne s _ _ _ h]

theorem State.flag_setFld_ne (s : State) (f f' : Fld) (v : Nat) {i j i' j' : Nat}
    (h : f'.reg.addr i' j' ≠ f.reg.addr i j) : (s.setFld f v i j).flag f' i' j' = s.flag f' i' j' :=
  State.flag_setReg_ne s _ _ _ h

theorem State.flag_setFlag_ne (s : State) (f f' : Fld) (b : Bool) {i j i' j' : Nat}
    (h : f'.reg.addr i' j' ≠ f.reg.addr i j) : (s.setFlag f b i j).flag f' i' j' = s.flag f' i' j' :=
  State.flag_setReg_ne s _ _ _ h

theorem State.flag_bump_ne (s : State) (f f' : Fld) (k : Nat) {i j i' j' : Nat}
    (h : f'.reg.addr i' j' ≠ f.reg.addr i j) : (s.bump f i j k).flag f' i' j' = s.flag f' i' j' :=
  State.flag_setReg_ne s _ _ _ h

theorem State.reg_setFld_ne (s : State) (f : Fld) (r : Reg) (v : Nat) {i j i' j' : Nat}
    (h : r.addr i' j' ≠ f.reg.addr i j) : (s.setFld f v i j).reg r i' j' = s.reg r i' j' :=
  State.reg_setReg_ne s _ _ _ h

theorem State.reg_setFlag_ne (s : State) (f : Fld) (r : Reg) (b : Bool) {i j i' j' : Nat}
    (h : r.addr i' j' ≠ f.reg.addr i j) : (s.setFlag f b i j).reg r i' j' = s.reg r i' j' :=
  State.reg_setReg_ne s _ _ _ h

/-- A bit of a word with a field replaced. -/
theorem putBits_bit (w : W64) (lo len v k : Nat) (hk : k < 64) :
    (putBits w lo len v).getLsbD k = if lo ≤ k ∧ k < lo + len then v.testBit (k - lo) else w.getLsbD k := by
  simp only [putBits, maskW, BitVec.getLsbD_or, BitVec.getLsbD_and, BitVec.getLsbD_not, BitVec.getLsbD_ofNat, hk,
    decide_true, Bool.true_and, ← Nat.shiftLeft_eq, Nat.testBit_shiftLeft, Nat.testBit_two_pow_sub_one, Nat.testBit_mod_two_pow]
  by_cases h1 : lo ≤ k
  · by_cases h2 : k - lo < len
    · have : k < lo + len := by omega
      simp [h1, h2, this]
    · have : ¬ k < lo + len := by omega
      simp [h1, h2, this]
  · simp [h1]

theorem bitsW_testBit {n : Nat} (w : BitVec n) (lo len k : Nat) :
    (bitsW w lo len).testBit k = (decide (k < len) && w.getLsbD (lo + k)) := by
  simp [bitsW, bitsOf, Nat.testBit_mod_two_pow, Nat.testBit_div_two_pow, BitVec.getLsbD, Nat.add_comm]

/-- A field reads what was put into it, cut to its width. -/
theorem bitsW_putBits_self (w : W64) (lo len v : Nat) (h : lo + len ≤ 64) :
    bitsW (putBits w lo len v) lo len = v % 2 ^ len := by
  apply Nat.eq_of_testBit_eq
  intro k
  rw [bitsW_testBit, Nat.testBit_mod_two_pow]
  by_cases hk : k < len
  · rw [putBits_bit _ _ _ _ _ (by omega)]; simp [hk]
  · simp [hk]

/-- A field apart from the one replaced reads as before. -/
theorem bitsW_putBits_apart (w : W64) (lo len lo' len' v : Nat) (h : lo' + len' ≤ lo ∨ lo + len ≤ lo') :
    bitsW (putBits w lo len v) lo' len' = bitsW w lo' len' := by
  apply Nat.eq_of_testBit_eq
  intro k
  rw [bitsW_testBit, bitsW_testBit]
  by_cases hk : k < len'
  · by_cases h64 : lo' + k < 64
    · rw [putBits_bit _ _ _ _ _ h64]
      have : ¬ (lo ≤ lo' + k ∧ lo' + k < lo + len) := by omega
      simp [this]
    · rw [BitVec.getLsbD_of_ge _ _ (by omega), BitVec.getLsbD_of_ge _ _ (by omega)]
  · simp [hk]

/-- A field reads what was set, cut to its width. -/
theorem State.fld_setFld_self {s : State} (h : s.Regular) (f : Fld) (v i j : Nat) (hf : f.lo + f.len ≤ 64) :
    (s.setFld f v i j).fld f i j = v % 2 ^ f.len := by
  simp [State.fld, State.setFld, State.reg_setReg_self h, bitsW_putBits_self _ _ _ _ hf]

/-- A field of the same register apart from the one set reads as before. -/
theorem State.fld_setFld_apart {s : State} (h : s.Regular) (f f' : Fld) (v i j : Nat) (hr : f'.reg = f.reg)
    (ha : f'.lo + f'.len ≤ f.lo ∨ f.lo + f.len ≤ f'.lo) : (s.setFld f v i j).fld f' i j = s.fld f' i j := by
  simp only [State.fld, State.setFld, hr, State.reg_setReg_self h, bitsW_putBits_apart _ _ _ _ _ _ ha]

theorem State.flag_setFld_apart {s : State} (h : s.Regular) (f f' : Fld) (v i j : Nat) (hr : f'.reg = f.reg)
    (ha : f'.lo + f'.len ≤ f.lo ∨ f.lo + f.len ≤ f'.lo) : (s.setFld f v i j).flag f' i j = s.flag f' i j := by
  simp only [State.flag, State.fld_setFld_apart h _ _ _ _ _ hr ha]

/-- A flag reads what was set. -/
theorem State.flag_setFlag_self {s : State} (h : s.Regular) (f : Fld) (b : Bool) (i j : Nat) (hf : f.lo + f.len ≤ 64)
    (hl : 0 < f.len) : (s.setFlag f b i j).flag f i j = b := by
  have h1 : (1 : Nat) < 2 ^ f.len := Nat.one_lt_two_pow (by omega)
  cases b
  · simp [State.flag, State.setFlag, State.fld_setFld_self h _ _ _ _ hf, b2n]
  · simp [State.flag, State.setFlag, State.fld_setFld_self h _ _ _ _ hf, b2n, Nat.mod_eq_of_lt h1]

theorem State.flag_setFlag_apart {s : State} (h : s.Regular) (f f' : Fld) (b : Bool) (i j : Nat) (hr : f'.reg = f.reg)
    (ha : f'.lo + f'.len ≤ f.lo ∨ f.lo + f.len ≤ f'.lo) : (s.setFlag f b i j).flag f' i j = s.flag f' i j :=
  State.flag_setFld_apart h _ _ _ _ _ hr ha

theorem State.fld_setFlag_apart {s : State} (h : s.Regular) (f f' : Fld) (b : Bool) (i j : Nat) (hr : f'.reg = f.reg)
    (ha : f'.lo + f'.len ≤ f.lo ∨ f.lo + f.len ≤ f'.lo) : (s.setFlag f b i j).fld f' i j = s.fld f' i j :=
  State.fld_setFld_apart h _ _ _ _ _ hr ha

/-- Setting a key to what it reads changes nothing in a canonical table. -/
theorem Tab.set_get {α : Type} [DecidableEq α] (d : α) (k : Nat) {t : Tab α} (h : Tab.wf d t = true) :
    Tab.set d t k (Tab.get d t k) = t := by
  have hw := (Tab.wf_iff d t).1 h
  clear h
  obtain ⟨h1, h2⟩ := hw
  generalize 0 = lo at h1
  induction t generalizing lo with
  | nil => simp [Tab.get, Tab.set, Tab.del]
  | cons e t ih =>
    obtain ⟨a, w⟩ := e
    simp only [Tab.rising, Bool.and_eq_true, decide_eq_true_eq] at h1
    by_cases hk : k = a
    · subst hk
      have hne : w ≠ d := h2 (k, w) (by simp)
      simp [Tab.get, Tab.set, Tab.put, hne]
    · have ih' := ih (fun e he => h2 e (by simp [he])) (a + 1) h1.2
      simp only [Tab.get, hk, if_false]
      unfold Tab.set at ih' ⊢
      split
      · rename_i hd
        rw [if_pos hd] at ih'
        simp [Tab.del, hk, ih']
      · rename_i hd
        rw [if_neg hd] at ih'
        have : ¬ k < a := by
          intro hlt
          exact hd (Tab.get_below d h1.2 (by omega))
        simp [Tab.put, this, hk, ih']

/-- Writing what a register holds changes nothing. -/
theorem State.setReg_reg {s : State} (h : s.Regular) (r : Reg) (i j : Nat) : s.setReg r (s.reg r i j) i j = s := by
  have : s.reg r i j ^^^ r.coldAt i = Tab.get 0 s.regs (r.addr i j) := by
    simp [State.reg, BitVec.xor_assoc]
  simp only [State.setReg, this, Tab.set_get 0 _ h]

end Sys2Proof.Machine
end

