-- ==== Sys2Proof/Laws/Parts.lean ====
section
/-! SUPPORT. The parts of the state that stand in tables of their own: setting one leaves the registers alone, writing a
register leaves them alone, and a part reads what was set, by key. -/

namespace Sys2Proof.Machine

/-! ### Setting a part leaves the registers alone -/

@[simp] theorem State.reg_setCell (s : State) (c : Nat) (x : CellHid) (r : Reg) (i j : Nat) :
    (s.setCell c x).reg r i j = s.reg r i j := rfl
@[simp] theorem State.fld_setCell (s : State) (c : Nat) (x : CellHid) (f : Fld) (i j : Nat) :
    (s.setCell c x).fld f i j = s.fld f i j := rfl
@[simp] theorem State.flag_setCell (s : State) (c : Nat) (x : CellHid) (f : Fld) (i j : Nat) :
    (s.setCell c x).flag f i j = s.flag f i j := rfl
@[simp] theorem State.Regular_setCell (s : State) (c : Nat) (x : CellHid) : (s.setCell c x).Regular ↔ s.Regular := Iff.rfl
@[simp] theorem State.reg_setMemWord (s : State) (a : Nat) (w : W64) (r : Reg) (i j : Nat) :
    (s.setMemWord a w).reg r i j = s.reg r i j := rfl
@[simp] theorem State.fld_setMemWord (s : State) (a : Nat) (w : W64) (f : Fld) (i j : Nat) :
    (s.setMemWord a w).fld f i j = s.fld f i j := rfl
@[simp] theorem State.flag_setMemWord (s : State) (a : Nat) (w : W64) (f : Fld) (i j : Nat) :
    (s.setMemWord a w).flag f i j = s.flag f i j := rfl
@[simp] theorem State.Regular_setMemWord (s : State) (a : Nat) (w : W64) : (s.setMemWord a w).Regular ↔ s.Regular := Iff.rfl
@[simp] theorem State.reg_setMemWords (s : State) (a : Nat) (ws : List W64) (r : Reg) (i j : Nat) :
    (s.setMemWords a ws).reg r i j = s.reg r i j := rfl
@[simp] theorem State.fld_setMemWords (s : State) (a : Nat) (ws : List W64) (f : Fld) (i j : Nat) :
    (s.setMemWords a ws).fld f i j = s.fld f i j := rfl
@[simp] theorem State.flag_setMemWords (s : State) (a : Nat) (ws : List W64) (f : Fld) (i j : Nat) :
    (s.setMemWords a ws).flag f i j = s.flag f i j := rfl
@[simp] theorem State.Regular_setMemWords (s : State) (a : Nat) (ws : List W64) : (s.setMemWords a ws).Regular ↔ s.Regular := Iff.rfl
@[simp] theorem State.reg_setEng (s : State) (n : Nat) (e : Eng) (r : Reg) (i j : Nat) :
    (s.setEng n e).reg r i j = s.reg r i j := rfl
@[simp] theorem State.fld_setEng (s : State) (n : Nat) (e : Eng) (f : Fld) (i j : Nat) :
    (s.setEng n e).fld f i j = s.fld f i j := rfl
@[simp] theorem State.flag_setEng (s : State) (n : Nat) (e : Eng) (f : Fld) (i j : Nat) :
    (s.setEng n e).flag f i j = s.flag f i j := rfl
@[simp] theorem State.Regular_setEng (s : State) (n : Nat) (e : Eng) : (s.setEng n e).Regular ↔ s.Regular := Iff.rfl
@[simp] theorem State.reg_setCtx (s : State) (n c : Nat) (x : Ctx) (r : Reg) (i j : Nat) :
    (s.setCtx n c x).reg r i j = s.reg r i j := rfl
@[simp] theorem State.fld_setCtx (s : State) (n c : Nat) (x : Ctx) (f : Fld) (i j : Nat) :
    (s.setCtx n c x).fld f i j = s.fld f i j := rfl
@[simp] theorem State.flag_setCtx (s : State) (n c : Nat) (x : Ctx) (f : Fld) (i j : Nat) :
    (s.setCtx n c x).flag f i j = s.flag f i j := rfl
@[simp] theorem State.Regular_setCtx (s : State) (n c : Nat) (x : Ctx) : (s.setCtx n c x).Regular ↔ s.Regular := Iff.rfl
@[simp] theorem State.reg_setG (s : State) (n c m : Nat) (v : W64) (r : Reg) (i j : Nat) :
    (s.setG n c m v).reg r i j = s.reg r i j := rfl
@[simp] theorem State.fld_setG (s : State) (n c m : Nat) (v : W64) (f : Fld) (i j : Nat) :
    (s.setG n c m v).fld f i j = s.fld f i j := rfl
@[simp] theorem State.flag_setG (s : State) (n c m : Nat) (v : W64) (f : Fld) (i j : Nat) :
    (s.setG n c m v).flag f i j = s.flag f i j := rfl
@[simp] theorem State.Regular_setG (s : State) (n c m : Nat) (v : W64) : (s.setG n c m v).Regular ↔ s.Regular := Iff.rfl
@[simp] theorem State.reg_setChan (s : State) (k : Nat) (c : Chan) (r : Reg) (i j : Nat) :
    (s.setChan k c).reg r i j = s.reg r i j := rfl
@[simp] theorem State.fld_setChan (s : State) (k : Nat) (c : Chan) (f : Fld) (i j : Nat) :
    (s.setChan k c).fld f i j = s.fld f i j := rfl
@[simp] theorem State.flag_setChan (s : State) (k : Nat) (c : Chan) (f : Fld) (i j : Nat) :
    (s.setChan k c).flag f i j = s.flag f i j := rfl
@[simp] theorem State.Regular_setChan (s : State) (k : Nat) (c : Chan) : (s.setChan k c).Regular ↔ s.Regular := Iff.rfl
@[simp] theorem State.reg_setJob (s : State) (k : Nat) (x : Job) (r : Reg) (i j : Nat) :
    (s.setJob k x).reg r i j = s.reg r i j := rfl
@[simp] theorem State.fld_setJob (s : State) (k : Nat) (x : Job) (f : Fld) (i j : Nat) :
    (s.setJob k x).fld f i j = s.fld f i j := rfl
@[simp] theorem State.flag_setJob (s : State) (k : Nat) (x : Job) (f : Fld) (i j : Nat) :
    (s.setJob k x).flag f i j = s.flag f i j := rfl
@[simp] theorem State.Regular_setJob (s : State) (k : Nat) (x : Job) : (s.setJob k x).Regular ↔ s.Regular := Iff.rfl
@[simp] theorem State.reg_setOutCh (s : State) (n k : Nat) (l : List (Nat × W64)) (r : Reg) (i j : Nat) :
    (s.setOutCh n k l).reg r i j = s.reg r i j := rfl
@[simp] theorem State.fld_setOutCh (s : State) (n k : Nat) (l : List (Nat × W64)) (f : Fld) (i j : Nat) :
    (s.setOutCh n k l).fld f i j = s.fld f i j := rfl
@[simp] theorem State.flag_setOutCh (s : State) (n k : Nat) (l : List (Nat × W64)) (f : Fld) (i j : Nat) :
    (s.setOutCh n k l).flag f i j = s.flag f i j := rfl
@[simp] theorem State.Regular_setOutCh (s : State) (n k : Nat) (l : List (Nat × W64)) : (s.setOutCh n k l).Regular ↔ s.Regular := Iff.rfl
@[simp] theorem State.reg_setLane (s : State) (l : Nat) (h : LaneHid) (r : Reg) (i j : Nat) :
    (s.setLane l h).reg r i j = s.reg r i j := rfl
@[simp] theorem State.fld_setLane (s : State) (l : Nat) (h : LaneHid) (f : Fld) (i j : Nat) :
    (s.setLane l h).fld f i j = s.fld f i j := rfl
@[simp] theorem State.flag_setLane (s : State) (l : Nat) (h : LaneHid) (f : Fld) (i j : Nat) :
    (s.setLane l h).flag f i j = s.flag f i j := rfl
@[simp] theorem State.Regular_setLane (s : State) (l : Nat) (h : LaneHid) : (s.setLane l h).Regular ↔ s.Regular := Iff.rfl
@[simp] theorem State.reg_setRing (s : State) (n : Nat) (h : RingHid) (r : Reg) (i j : Nat) :
    (s.setRing n h).reg r i j = s.reg r i j := rfl
@[simp] theorem State.fld_setRing (s : State) (n : Nat) (h : RingHid) (f : Fld) (i j : Nat) :
    (s.setRing n h).fld f i j = s.fld f i j := rfl
@[simp] theorem State.flag_setRing (s : State) (n : Nat) (h : RingHid) (f : Fld) (i j : Nat) :
    (s.setRing n h).flag f i j = s.flag f i j := rfl
@[simp] theorem State.Regular_setRing (s : State) (n : Nat) (h : RingHid) : (s.setRing n h).Regular ↔ s.Regular := Iff.rfl
@[simp] theorem State.reg_setPin (s : State) (n : Nat) (h : PinHid) (r : Reg) (i j : Nat) :
    (s.setPin n h).reg r i j = s.reg r i j := rfl
@[simp] theorem State.fld_setPin (s : State) (n : Nat) (h : PinHid) (f : Fld) (i j : Nat) :
    (s.setPin n h).fld f i j = s.fld f i j := rfl
@[simp] theorem State.flag_setPin (s : State) (n : Nat) (h : PinHid) (f : Fld) (i j : Nat) :
    (s.setPin n h).flag f i j = s.flag f i j := rfl
@[simp] theorem State.Regular_setPin (s : State) (n : Nat) (h : PinHid) : (s.setPin n h).Regular ↔ s.Regular := Iff.rfl
@[simp] theorem State.reg_setQue (s : State) (q : Nat) (x : Que) (r : Reg) (i j : Nat) :
    (s.setQue q x).reg r i j = s.reg r i j := rfl
@[simp] theorem State.fld_setQue (s : State) (q : Nat) (x : Que) (f : Fld) (i j : Nat) :
    (s.setQue q x).fld f i j = s.fld f i j := rfl
@[simp] theorem State.flag_setQue (s : State) (q : Nat) (x : Que) (f : Fld) (i j : Nat) :
    (s.setQue q x).flag f i j = s.flag f i j := rfl
@[simp] theorem State.Regular_setQue (s : State) (q : Nat) (x : Que) : (s.setQue q x).Regular ↔ s.Regular := Iff.rfl
@[simp] theorem State.reg_setTb (s : State) (n : Nat) (h : TbHid) (r : Reg) (i j : Nat) :
    (s.setTb n h).reg r i j = s.reg r i j := rfl
@[simp] theorem State.fld_setTb (s : State) (n : Nat) (h : TbHid) (f : Fld) (i j : Nat) :
    (s.setTb n h).fld f i j = s.fld f i j := rfl
@[simp] theorem State.flag_setTb (s : State) (n : Nat) (h : TbHid) (f : Fld) (i j : Nat) :
    (s.setTb n h).flag f i j = s.flag f i j := rfl
@[simp] theorem State.Regular_setTb (s : State) (n : Nat) (h : TbHid) : (s.setTb n h).Regular ↔ s.Regular := Iff.rfl
@[simp] theorem State.reg_setCal (s : State) (u : Nat) (c : Cal) (r : Reg) (i j : Nat) :
    (s.setCal u c).reg r i j = s.reg r i j := rfl
@[simp] theorem State.fld_setCal (s : State) (u : Nat) (c : Cal) (f : Fld) (i j : Nat) :
    (s.setCal u c).fld f i j = s.fld f i j := rfl
@[simp] theorem State.flag_setCal (s : State) (u : Nat) (c : Cal) (f : Fld) (i j : Nat) :
    (s.setCal u c).flag f i j = s.flag f i j := rfl
@[simp] theorem State.Regular_setCal (s : State) (u : Nat) (c : Cal) : (s.setCal u c).Regular ↔ s.Regular := Iff.rfl
@[simp] theorem State.reg_setPortTags (s : State) (p : Nat) (l : List Nat) (r : Reg) (i j : Nat) :
    (s.setPortTags p l).reg r i j = s.reg r i j := rfl
@[simp] theorem State.fld_setPortTags (s : State) (p : Nat) (l : List Nat) (f : Fld) (i j : Nat) :
    (s.setPortTags p l).fld f i j = s.fld f i j := rfl
@[simp] theorem State.flag_setPortTags (s : State) (p : Nat) (l : List Nat) (f : Fld) (i j : Nat) :
    (s.setPortTags p l).flag f i j = s.flag f i j := rfl
@[simp] theorem State.Regular_setPortTags (s : State) (p : Nat) (l : List Nat) : (s.setPortTags p l).Regular ↔ s.Regular := Iff.rfl
@[simp] theorem State.reg_putTrans (s : State) (t : Trans) (r : Reg) (i j : Nat) :
    (s.putTrans t).reg r i j = s.reg r i j := rfl
@[simp] theorem State.fld_putTrans (s : State) (t : Trans) (f : Fld) (i j : Nat) :
    (s.putTrans t).fld f i j = s.fld f i j := rfl
@[simp] theorem State.flag_putTrans (s : State) (t : Trans) (f : Fld) (i j : Nat) :
    (s.putTrans t).flag f i j = s.flag f i j := rfl
@[simp] theorem State.Regular_putTrans (s : State) (t : Trans) : (s.putTrans t).Regular ↔ s.Regular := Iff.rfl
@[simp] theorem State.reg_putRsp (s : State) (x : Rsp) (r : Reg) (i j : Nat) :
    (s.putRsp x).reg r i j = s.reg r i j := rfl
@[simp] theorem State.fld_putRsp (s : State) (x : Rsp) (f : Fld) (i j : Nat) :
    (s.putRsp x).fld f i j = s.fld f i j := rfl
@[simp] theorem State.flag_putRsp (s : State) (x : Rsp) (f : Fld) (i j : Nat) :
    (s.putRsp x).flag f i j = s.flag f i j := rfl
@[simp] theorem State.Regular_putRsp (s : State) (x : Rsp) : (s.putRsp x).Regular ↔ s.Regular := Iff.rfl
@[simp] theorem State.reg_tookFree (s : State) (r : Reg) (i j : Nat) :
    (s.tookFree).reg r i j = s.reg r i j := rfl
@[simp] theorem State.fld_tookFree (s : State) (f : Fld) (i j : Nat) :
    (s.tookFree).fld f i j = s.fld f i j := rfl
@[simp] theorem State.flag_tookFree (s : State) (f : Fld) (i j : Nat) :
    (s.tookFree).flag f i j = s.flag f i j := rfl
@[simp] theorem State.Regular_tookFree (s : State) : (s.tookFree).Regular ↔ s.Regular := Iff.rfl
@[simp] theorem State.reg_answer (s : State) (v : W64) (r : Reg) (i j : Nat) :
    (s.answer v).reg r i j = s.reg r i j := rfl
@[simp] theorem State.fld_answer (s : State) (v : W64) (f : Fld) (i j : Nat) :
    (s.answer v).fld f i j = s.fld f i j := rfl
@[simp] theorem State.flag_answer (s : State) (v : W64) (f : Fld) (i j : Nat) :
    (s.answer v).flag f i j = s.flag f i j := rfl
@[simp] theorem State.Regular_answer (s : State) (v : W64) : (s.answer v).Regular ↔ s.Regular := Iff.rfl
@[simp] theorem State.reg_accessError (s : State) (r : Reg) (i j : Nat) :
    (s.accessError).reg r i j = s.reg r i j := rfl
@[simp] theorem State.fld_accessError (s : State) (f : Fld) (i j : Nat) :
    (s.accessError).fld f i j = s.fld f i j := rfl
@[simp] theorem State.flag_accessError (s : State) (f : Fld) (i j : Nat) :
    (s.accessError).flag f i j = s.flag f i j := rfl
@[simp] theorem State.Regular_accessError (s : State) : (s.accessError).Regular ↔ s.Regular := Iff.rfl
@[simp] theorem State.reg_setBlock (s : State) (b : Nat) (x : Block) (r : Reg) (i j : Nat) :
    (s.setBlock b x).reg r i j = s.reg r i j := rfl
@[simp] theorem State.fld_setBlock (s : State) (b : Nat) (x : Block) (f : Fld) (i j : Nat) :
    (s.setBlock b x).fld f i j = s.fld f i j := rfl
@[simp] theorem State.flag_setBlock (s : State) (b : Nat) (x : Block) (f : Fld) (i j : Nat) :
    (s.setBlock b x).flag f i j = s.flag f i j := rfl
@[simp] theorem State.Regular_setBlock (s : State) (b : Nat) (x : Block) : (s.setBlock b x).Regular ↔ s.Regular := Iff.rfl
@[simp] theorem State.reg_setJtag (s : State) (x : Jtag) (r : Reg) (i j : Nat) :
    (s.setJtag x).reg r i j = s.reg r i j := rfl
@[simp] theorem State.fld_setJtag (s : State) (x : Jtag) (f : Fld) (i j : Nat) :
    (s.setJtag x).fld f i j = s.fld f i j := rfl
@[simp] theorem State.flag_setJtag (s : State) (x : Jtag) (f : Fld) (i j : Nat) :
    (s.setJtag x).flag f i j = s.flag f i j := rfl
@[simp] theorem State.Regular_setJtag (s : State) (x : Jtag) : (s.setJtag x).Regular ↔ s.Regular := Iff.rfl

/-! ### Writing a register leaves the parts alone -/

@[simp] theorem State.tb_setReg (s : State) (r : Reg) (v : W64) (i j : Nat) (n : Nat) :
    (s.setReg r v i j).tb n = s.tb n := rfl
@[simp] theorem State.tb_setFld (s : State) (f : Fld) (v i j : Nat) (n : Nat) :
    (s.setFld f v i j).tb n = s.tb n := rfl
@[simp] theorem State.tb_setFlag (s : State) (f : Fld) (b : Bool) (i j : Nat) (n : Nat) :
    (s.setFlag f b i j).tb n = s.tb n := rfl
@[simp] theorem State.ring_setReg (s : State) (r : Reg) (v : W64) (i j : Nat) (n : Nat) :
    (s.setReg r v i j).ring n = s.ring n := rfl
@[simp] theorem State.ring_setFld (s : State) (f : Fld) (v i j : Nat) (n : Nat) :
    (s.setFld f v i j).ring n = s.ring n := rfl
@[simp] theorem State.ring_setFlag (s : State) (f : Fld) (b : Bool) (i j : Nat) (n : Nat) :
    (s.setFlag f b i j).ring n = s.ring n := rfl
@[simp] theorem State.job_setReg (s : State) (r : Reg) (v : W64) (i j : Nat) (n : Nat) :
    (s.setReg r v i j).job n = s.job n := rfl
@[simp] theorem State.job_setFld (s : State) (f : Fld) (v i j : Nat) (n : Nat) :
    (s.setFld f v i j).job n = s.job n := rfl
@[simp] theorem State.job_setFlag (s : State) (f : Fld) (b : Bool) (i j : Nat) (n : Nat) :
    (s.setFlag f b i j).job n = s.job n := rfl
@[simp] theorem State.que_setReg (s : State) (r : Reg) (v : W64) (i j : Nat) (n : Nat) :
    (s.setReg r v i j).que n = s.que n := rfl
@[simp] theorem State.que_setFld (s : State) (f : Fld) (v i j : Nat) (n : Nat) :
    (s.setFld f v i j).que n = s.que n := rfl
@[simp] theorem State.que_setFlag (s : State) (f : Fld) (b : Bool) (i j : Nat) (n : Nat) :
    (s.setFlag f b i j).que n = s.que n := rfl
@[simp] theorem State.lane_setReg (s : State) (r : Reg) (v : W64) (i j : Nat) (n : Nat) :
    (s.setReg r v i j).lane n = s.lane n := rfl
@[simp] theorem State.lane_setFld (s : State) (f : Fld) (v i j : Nat) (n : Nat) :
    (s.setFld f v i j).lane n = s.lane n := rfl
@[simp] theorem State.lane_setFlag (s : State) (f : Fld) (b : Bool) (i j : Nat) (n : Nat) :
    (s.setFlag f b i j).lane n = s.lane n := rfl
@[simp] theorem State.pin_setReg (s : State) (r : Reg) (v : W64) (i j : Nat) (n : Nat) :
    (s.setReg r v i j).pin n = s.pin n := rfl
@[simp] theorem State.pin_setFld (s : State) (f : Fld) (v i j : Nat) (n : Nat) :
    (s.setFld f v i j).pin n = s.pin n := rfl
@[simp] theorem State.pin_setFlag (s : State) (f : Fld) (b : Bool) (i j : Nat) (n : Nat) :
    (s.setFlag f b i j).pin n = s.pin n := rfl
@[simp] theorem State.eng_setReg (s : State) (r : Reg) (v : W64) (i j : Nat) (n : Nat) :
    (s.setReg r v i j).eng n = s.eng n := rfl
@[simp] theorem State.eng_setFld (s : State) (f : Fld) (v i j : Nat) (n : Nat) :
    (s.setFld f v i j).eng n = s.eng n := rfl
@[simp] theorem State.eng_setFlag (s : State) (f : Fld) (b : Bool) (i j : Nat) (n : Nat) :
    (s.setFlag f b i j).eng n = s.eng n := rfl
@[simp] theorem State.ctx_setReg (s : State) (r : Reg) (v : W64) (i j : Nat) (n c : Nat) :
    (s.setReg r v i j).ctx n c = s.ctx n c := rfl
@[simp] theorem State.ctx_setFld (s : State) (f : Fld) (v i j : Nat) (n c : Nat) :
    (s.setFld f v i j).ctx n c = s.ctx n c := rfl
@[simp] theorem State.ctx_setFlag (s : State) (f : Fld) (b : Bool) (i j : Nat) (n c : Nat) :
    (s.setFlag f b i j).ctx n c = s.ctx n c := rfl
@[simp] theorem State.slot_setReg (s : State) (r : Reg) (v : W64) (i j : Nat) (n : Nat) :
    (s.setReg r v i j).slot n = s.slot n := rfl
@[simp] theorem State.slot_setFld (s : State) (f : Fld) (v i j : Nat) (n : Nat) :
    (s.setFld f v i j).slot n = s.slot n := rfl
@[simp] theorem State.slot_setFlag (s : State) (f : Fld) (b : Bool) (i j : Nat) (n : Nat) :
    (s.setFlag f b i j).slot n = s.slot n := rfl
@[simp] theorem State.chan_setReg (s : State) (r : Reg) (v : W64) (i j : Nat) (n : Nat) :
    (s.setReg r v i j).chan n = s.chan n := rfl
@[simp] theorem State.chan_setFld (s : State) (f : Fld) (v i j : Nat) (n : Nat) :
    (s.setFld f v i j).chan n = s.chan n := rfl
@[simp] theorem State.chan_setFlag (s : State) (f : Fld) (b : Bool) (i j : Nat) (n : Nat) :
    (s.setFlag f b i j).chan n = s.chan n := rfl
@[simp] theorem State.cell_setReg (s : State) (r : Reg) (v : W64) (i j : Nat) (n : Nat) :
    (s.setReg r v i j).cell n = s.cell n := rfl
@[simp] theorem State.cell_setFld (s : State) (f : Fld) (v i j : Nat) (n : Nat) :
    (s.setFld f v i j).cell n = s.cell n := rfl
@[simp] theorem State.cell_setFlag (s : State) (f : Fld) (b : Bool) (i j : Nat) (n : Nat) :
    (s.setFlag f b i j).cell n = s.cell n := rfl
@[simp] theorem State.cal_setReg (s : State) (r : Reg) (v : W64) (i j : Nat) (n : Nat) :
    (s.setReg r v i j).cal n = s.cal n := rfl
@[simp] theorem State.cal_setFld (s : State) (f : Fld) (v i j : Nat) (n : Nat) :
    (s.setFld f v i j).cal n = s.cal n := rfl
@[simp] theorem State.cal_setFlag (s : State) (f : Fld) (b : Bool) (i j : Nat) (n : Nat) :
    (s.setFlag f b i j).cal n = s.cal n := rfl
@[simp] theorem State.block_setReg (s : State) (r : Reg) (v : W64) (i j : Nat) (n : Nat) :
    (s.setReg r v i j).block n = s.block n := rfl
@[simp] theorem State.block_setFld (s : State) (f : Fld) (v i j : Nat) (n : Nat) :
    (s.setFld f v i j).block n = s.block n := rfl
@[simp] theorem State.block_setFlag (s : State) (f : Fld) (b : Bool) (i j : Nat) (n : Nat) :
    (s.setFlag f b i j).block n = s.block n := rfl
@[simp] theorem State.portTags_setReg (s : State) (r : Reg) (v : W64) (i j : Nat) (n : Nat) :
    (s.setReg r v i j).portTags n = s.portTags n := rfl
@[simp] theorem State.portTags_setFld (s : State) (f : Fld) (v i j : Nat) (n : Nat) :
    (s.setFld f v i j).portTags n = s.portTags n := rfl
@[simp] theorem State.portTags_setFlag (s : State) (f : Fld) (b : Bool) (i j : Nat) (n : Nat) :
    (s.setFlag f b i j).portTags n = s.portTags n := rfl
@[simp] theorem State.g_setReg (s : State) (r : Reg) (v : W64) (i j : Nat) (n c k : Nat) :
    (s.setReg r v i j).g n c k = s.g n c k := rfl
@[simp] theorem State.g_setFld (s : State) (f : Fld) (v i j : Nat) (n c k : Nat) :
    (s.setFld f v i j).g n c k = s.g n c k := rfl
@[simp] theorem State.g_setFlag (s : State) (f : Fld) (b : Bool) (i j : Nat) (n c k : Nat) :
    (s.setFlag f b i j).g n c k = s.g n c k := rfl
@[simp] theorem State.memByte_setReg (s : State) (r : Reg) (v : W64) (i j : Nat) (a : Nat) :
    (s.setReg r v i j).memByte a = s.memByte a := rfl
@[simp] theorem State.memByte_setFld (s : State) (f : Fld) (v i j : Nat) (a : Nat) :
    (s.setFld f v i j).memByte a = s.memByte a := rfl
@[simp] theorem State.memByte_setFlag (s : State) (f : Fld) (b : Bool) (i j : Nat) (a : Nat) :
    (s.setFlag f b i j).memByte a = s.memByte a := rfl
@[simp] theorem State.memWord_setReg (s : State) (r : Reg) (v : W64) (i j : Nat) (a : Nat) :
    (s.setReg r v i j).memWord a = s.memWord a := rfl
@[simp] theorem State.memWord_setFld (s : State) (f : Fld) (v i j : Nat) (a : Nat) :
    (s.setFld f v i j).memWord a = s.memWord a := rfl
@[simp] theorem State.memWord_setFlag (s : State) (f : Fld) (b : Bool) (i j : Nat) (a : Nat) :
    (s.setFlag f b i j).memWord a = s.memWord a := rfl

/-! ### A part at another key reads as before -/

theorem State.tb_setTb_ne (s : State) {k k' : Nat} (x : TbHid) (h : k' ≠ k) : (s.setTb k x).tb k' = s.tb k' :=
  Tab.get_set_ne _ _ h _
theorem State.ring_setRing_ne (s : State) {k k' : Nat} (x : RingHid) (h : k' ≠ k) : (s.setRing k x).ring k' = s.ring k' :=
  Tab.get_set_ne _ _ h _
theorem State.job_setJob_ne (s : State) {k k' : Nat} (x : Job) (h : k' ≠ k) : (s.setJob k x).job k' = s.job k' :=
  Tab.get_set_ne _ _ h _
theorem State.que_setQue_ne (s : State) {k k' : Nat} (x : Que) (h : k' ≠ k) : (s.setQue k x).que k' = s.que k' :=
  Tab.get_set_ne _ _ h _
theorem State.lane_setLane_ne (s : State) {k k' : Nat} (x : LaneHid) (h : k' ≠ k) : (s.setLane k x).lane k' = s.lane k' :=
  Tab.get_set_ne _ _ h _
theorem State.pin_setPin_ne (s : State) {k k' : Nat} (x : PinHid) (h : k' ≠ k) : (s.setPin k x).pin k' = s.pin k' :=
  Tab.get_set_ne _ _ h _
theorem State.eng_setEng_ne (s : State) {k k' : Nat} (x : Eng) (h : k' ≠ k) : (s.setEng k x).eng k' = s.eng k' :=
  Tab.get_set_ne _ _ h _
theorem State.cell_setCell_ne (s : State) {k k' : Nat} (x : CellHid) (h : k' ≠ k) : (s.setCell k x).cell k' = s.cell k' :=
  Tab.get_set_ne _ _ h _
theorem State.chan_setChan_ne (s : State) {k k' : Nat} (x : Chan) (h : k' ≠ k) : (s.setChan k x).chan k' = s.chan k' :=
  Tab.get_set_ne _ _ h _
theorem State.cal_setCal_ne (s : State) {k k' : Nat} (x : Cal) (h : k' ≠ k) : (s.setCal k x).cal k' = s.cal k' :=
  Tab.get_set_ne _ _ h _
theorem State.block_setBlock_ne (s : State) {k k' : Nat} (x : Block) (h : k' ≠ k) : (s.setBlock k x).block k' = s.block k' :=
  Tab.get_set_ne _ _ h _

/-- A context at another place reads as before. -/
theorem State.ctx_setCtx_ne (s : State) {n c n' c' : Nat} (x : Ctx) (h : 4 * n' + c' ≠ 4 * n + c) :
    (s.setCtx n c x).ctx n' c' = s.ctx n' c' :=
  Tab.get_set_ne _ _ h _

end Sys2Proof.Machine
end

