-- ==== Sys2Proof/Laws/Bundles.lean ====
section
/-! SUPPORT. What issuing a bundle comes to once its checks have passed: the cases of `issue` and `runBundle` that the statements
about the engines' operations rest on. -/

namespace Sys2Proof.Machine

/-- A bundle that passes its checks and holds the operation in either place is run. -/
theorem issue_of_issues {s : State} {n c : Nat} {m0 m1 : Mn} {w0 w1 : W32} (h : s.Issues n c m0 m1 w0 w1) {m : Mn}
    (hm : m0 = m ∨ m1 = m) : issue n m s = runBundle n c m0 m1 w0 w1 false s := by
  have hb : s.bundleHas n m = true := by
    simp only [State.bundleHas, h.cur, h.fetched, h.op0, h.op1]
    rcases hm with rfl | rfl <;> simp
  simp only [issue, h.may, hb, Bool.and_self, if_true, h.cur, bundle, h.fetched, h.op0, h.op1, h.passes, h.clear, Bool.false_eq_true,
    if_false]

/-- A bundle of no long operation whose operation 0 is done, and whose flags trap nothing, finishes. -/
theorem runBundle_done {s t : State} {n c : Nat} {m0 m1 : Mn} {w0 w1 : W32} {pc : Option Nat}
    (ho : op0 n c m0 w0 s = .done t pc) (hl0 : longMn m0 = false) (hl1 : longMn m1 = false)
    (hf : ((if op1Ok w0 then (aluOf n c m0 w0 s).2 else 0) ||| (aluOf n c m1 w1 s).2) &&& (s.ctx n c).trapen = 0) (ends : Bool) :
    runBundle n c m0 m1 w0 w1 ends s = finish n c m1 w1 (aluOf n c m1 w1 s).1
      ((if op1Ok w0 then (aluOf n c m0 w0 s).2 else 0) ||| (aluOf n c m1 w1 s).2) (pc.getD (s.pc n c + 8)) t := by
  simp only [runBundle, ho, hl0, hl1, Bool.or_self, Bool.false_and, Bool.false_eq_true, if_false, hf]
  simp

/-- A bundle whose operation 0 waits leaves the context waiting, nothing else of the bundle done. -/
theorem runBundle_wait {s t : State} {n c : Nat} {m0 m1 : Mn} {w0 w1 : W32} {on ch : Nat} {x : W64}
    (ho : op0 n c m0 w0 s = .wait t on ch x) (ends : Bool) : runBundle n c m0 m1 w0 w1 ends s = ctxWait n c on ch x t := by
  simp only [runBundle, ho]

/-- A bundle with a long operation whose operation 0 is done waits in place for its result. -/
theorem runBundle_long {s t : State} {n c : Nat} {m0 m1 : Mn} {w0 w1 : W32} {pc : Option Nat}
    (ho : op0 n c m0 w0 s = .done t pc) (hl : longMn m0 = true ∨ longMn m1 = true) :
    runBundle n c m0 m1 w0 w1 false s = s.setCtx n c { s.ctx n c with long := true } := by
  have : (longMn m0 || longMn m1) = true := by simpa using hl
  simp only [runBundle, ho, this, Bool.not_false, Bool.and_self, if_true]

/-- A long operation's end runs its bundle to the end. -/
theorem longComplete_of_bundle {s : State} {n c : Nat} {m0 m1 : Mn} {w0 w1 : W32} (h : s.Bundle n c m0 m1 w0 w1)
    (hl : (s.ctx n c).long = true) (hs : s.ctxState n c = 2) (hk : s.engClocked n = true) :
    longComplete n s = runBundle n c m0 m1 w0 w1 true s := by
  simp only [longComplete, h.cur, hl, hs, hk, bundle, h.fetched, h.op0, h.op1, h.passes, h.clear, Bool.false_eq_true]
  simp

/-- A bundle whose operation 0 is done, and whose flags trap nothing, finishes when its long operation does. -/
theorem runBundle_ends {s t : State} {n c : Nat} {m0 m1 : Mn} {w0 w1 : W32} {pc : Option Nat}
    (ho : op0 n c m0 w0 s = .done t pc)
    (hf : ((if op1Ok w0 then (aluOf n c m0 w0 s).2 else 0) ||| (aluOf n c m1 w1 s).2) &&& (s.ctx n c).trapen = 0) :
    runBundle n c m0 m1 w0 w1 true s = finish n c m1 w1 (aluOf n c m1 w1 s).1
      ((if op1Ok w0 then (aluOf n c m0 w0 s).2 else 0) ||| (aluOf n c m1 w1 s).2) (pc.getD (s.pc n c + 8)) t := by
  simp only [runBundle, ho, Bool.not_true, Bool.and_false, Bool.false_eq_true, if_false, hf]
  simp

/-- A context reads what was set, where the contexts stand in canonical form. -/
theorem State.ctx_setCtx_self {s : State} (h : Tab.wf {} s.ctxs = true) (n c : Nat) (x : Ctx) : (s.setCtx n c x).ctx n c = x :=
  Tab.get_set_self {} x (4 * n + c) ((Tab.wf_iff _ _).1 h).1

/-- The contexts keep their canonical form. -/
theorem State.wf_setCtx {s : State} (h : Tab.wf {} s.ctxs = true) (n c : Nat) (x : Ctx) : Tab.wf {} (s.setCtx n c x).ctxs = true :=
  Tab.wf_set _ h _ _

/-- Beside a NOP, a finished bundle leaves in gRD what operation 0 wrote, and raises its flags. -/
theorem finish_nop_self {s : State} {n c : Nat} (hc : Tab.wf {} s.ctxs = true) (hg : Tab.wf 0 (s.ctx n c).g = true) (k : Nat)
    (v r1 : W64) (flags pc : Nat) :
    (finish n c .nop 0 r1 flags pc (s.setG n c k v)).g n c k = v ∧
      ((finish n c .nop 0 r1 flags pc (s.setG n c k v)).ctx n c).flags = (s.ctx n c).flags ||| flags := by
  have hw := State.wf_setCtx hc n c { s.ctx n c with g := Tab.set 0 (s.ctx n c).g k v }
  have hx : (finish n c .nop 0 r1 flags pc (s.setG n c k v)).ctx n c =
      { s.ctx n c with g := Tab.set 0 (s.ctx n c).g k v, flags := (s.ctx n c).flags ||| flags,
                       bundles := (s.ctx n c).bundles + 1, long := false } := by
    show ((s.setG n c k v).setCtx n c _).ctx n c = _
    refine (State.ctx_setCtx_self hw n c _).trans ?_
    simp only [State.setG, opWrites, List.foldl_nil, State.ctx_setCtx_self hc]
  refine ⟨?_, by rw [hx]⟩
  rw [State.g, hx]
  exact Tab.get_set_self 0 v k ((Tab.wf_iff _ _).1 hg).1

/-- The operations that may stand in either place (R369), NOP apart. -/
def aluMn : List Mn :=
  intOps ++ qfxOps ++ [.addi, .andi, .ori, .xori, .slti, .sltiu, .shi, .ldi, .insh, .qshli, .qshri] ++ fpOps
    ++ [.fcvtFx, .fcvtXf, .fcvtFxu]

/-- No operation of a table without one that may stand in either place is one that may. -/
theorem aluMn_not_of_table {m : Mn} (hm : m ∈ aluMn) {l : List Mn} {i : Nat} (h : l[i]? = some m) (hd : (l.all fun x => !aluMn.contains x) = true) : False := by
  have := List.all_eq_true.1 hd m (List.mem_of_getElem? h)
  simp [hm] at this
/-- The words of those operations are the ones operation 1 allows (R369). -/
theorem op1Ok_of_alu {w : W32} {m : Mn} (h : opMn w = some m) (hm : m ∈ aluMn) : op1Ok w = true := by
  unfold opMn at h
  unfold op1Ok
  split at h
  all_goals rename_i heq
  all_goals first
    | (rw [heq]; decide)
    | (exfalso; cases h; revert hm; decide) | (cases h)
    | (exact (aluMn_not_of_table hm h (by decide)).elim)
    | (split at h <;> (first | (exfalso; cases h; revert hm; decide) | (cases h) | exact (aluMn_not_of_table hm h (by decide)).elim))

/-- The words of every other operation but NOP are ones operation 1 does not allow (R369). -/
theorem op1Ok_of_not_alu {w : W32} {m : Mn} (h : opMn w = some m) (hm : m ∉ aluMn) (hn : m ≠ .nop) : op1Ok w = false := by
  have tab {l : List Mn} {i : Nat} (h : l[i]? = some m) (hd : (l.all fun x => aluMn.contains x) = true) : False := by
    have := List.all_eq_true.1 hd m (List.mem_of_getElem? h)
    simp at this
    exact hm this
  unfold opMn qfxOp at h
  unfold op1Ok
  split at h
  all_goals rename_i heq
  all_goals first
    | (rw [heq]; decide)
    | (exfalso; cases h; exact hn rfl)
    | (exfalso; cases h; revert hm; decide)
    | (cases h)
    | (exact (tab h (by decide)).elim)
    | (split at h <;> first
        | (exact (tab h (by decide)).elim)
        | (exfalso; cases h)
        | (split at h <;> first
            | (exfalso; cases h; revert hm; decide)
            | (split at h <;> first | (exfalso; cases h; revert hm; decide) | (cases h))))

/-- A bundle whose operation 0 stands nowhere else, is done and meets no long operation or trapped flag beside it, finishes. -/
theorem issue_done {s t : State} {n c : Nat} {m0 m1 : Mn} {w0 w1 : W32} {pc : Option Nat} (hi : s.Issues n c m0 m1 w0 w1)
    (hm : m0 ∉ aluMn) (hn : m0 ≠ .nop) (hl0 : longMn m0 = false) (hl1 : longMn m1 = false)
    (hf : (aluOf n c m1 w1 s).2 &&& (s.ctx n c).trapen = 0) (ho : op0 n c m0 w0 s = .done t pc) :
    issue n m0 s = finish n c m1 w1 (aluOf n c m1 w1 s).1 (aluOf n c m1 w1 s).2 (pc.getD (s.pc n c + 8)) t := by
  have h0 := op1Ok_of_not_alu hi.op0 hm hn
  rw [issue_of_issues hi (.inl rfl), runBundle_done ho hl0 hl1 (by rw [h0]; simpa using hf), h0]
  simp

/-- An aligned local range inside DMEM is allowed. -/
theorem localFault_none {a al k : Nat} (h1 : a % al = 0) (h2 : a + k ≤ 0x10000) : localFault a al k = none := by
  rw [localFault, if_neg (by omega), if_neg (by omega)]

/-- A misaligned one is not. -/
theorem localFault_misaligned {a al k : Nat} (h1 : a % al ≠ 0) : localFault a al k = some Code.misaligned := by
  rw [localFault, if_pos h1]

/-- An access that is aligned, translated, and finds room is issued. -/
theorem access_issued {n c : Nat} {op : TOp} {va len : Nat} {data : List W64} {want : Option Want} {next : State → Res} {s : State}
    {space : Space} {addr : Nat} (ha : va % 8 = 0)
    (ht : s.translate (engineCaches n) (s.fld Fld.engCtxCfgAsid n c) (s.fld Fld.engCtxCfgPriv n c) op va = .ok space addr)
    (hr : want = none ∨ ((s.ctx n c).accs.filter fun a => a.slot < 8).length < 8) (hp : s.poolRoom (90 + n / 8) = true) :
    access n c op va len data want next s = next (issued n c op va len data want space addr s) := by
  unfold access
  simp only [ha, ht, hp]
  rcases hr with rfl | hr
  · simp
  · have h9 : ¬ 8 ≤ ((s.ctx n c).accs.filter fun a => a.slot < 8).length := by omega
    simp [h9]

end Sys2Proof.Machine
end

