-- ==== Sys2Proof/Laws/Dispatch.lean ====
section
/-! SUPPORT. Which meaning each command has: exec at each constructor, true by definition. -/

namespace Sys2Proof.Machine

@[simp] theorem exec_registerWrite (w : Writer) (dword : BitVec 21) (mask : Byte) (v : W64) (s : State) : exec (.registerWrite w dword mask v) s = execRegisterWrite w dword mask v s := rfl
@[simp] theorem exec_shadowLowRead (w : Writer) (off : BitVec 24) (s : State) : exec (.shadowLowRead w off) s = execShadowLowRead w off s := rfl
@[simp] theorem exec_shadowLowWrite (w : Writer) (off : BitVec 24) (v : W32) (s : State) : exec (.shadowLowWrite w off v) s = execShadowLowWrite w off v s := rfl
@[simp] theorem exec_shadowHighWrite (w : Writer) (off : BitVec 24) (v : W32) (s : State) : exec (.shadowHighWrite w off v) s = execShadowHighWrite w off v s := rfl
@[simp] theorem exec_alarmAck (w : Writer) (bits : BitVec 9) (s : State) : exec (.alarmAck w bits) s = execAlarmAck w bits s := rfl
@[simp] theorem exec_viewInterval (goodWest goodEast claimWest claimEast : Bool) (s : State) : exec (.viewInterval goodWest goodEast claimWest claimEast) s = execViewInterval goodWest goodEast claimWest claimEast s := rfl
@[simp] theorem exec_handover (w : Writer) (v : W32) (s : State) : exec (.handover w v) s = execHandover w v s := rfl
@[simp] theorem exec_deviceActionHoldTimeout (s : State) : exec (.deviceActionHoldTimeout) s = execDeviceActionHoldTimeout s := rfl
@[simp] theorem exec_stewardActionResume (s : State) : exec (.stewardActionResume) s = execStewardActionResume s := rfl
@[simp] theorem exec_loadWindow (h : Fin 2) (load : Fin 1001) (s : State) : exec (.loadWindow h load) s = execLoadWindow h load s := rfl
@[simp] theorem exec_loadPeakClr (w : Writer) (h : Fin 2) (s : State) : exec (.loadPeakClr w h) s = execLoadPeakClr w h s := rfl
@[simp] theorem exec_quadEdge (n : Fin 32) (onB a b : Bool) (t : Stamp) (s : State) : exec (.quadEdge n onB a b t) s = execQuadEdge n onB a b t s := rfl
@[simp] theorem exec_quadCountCommit (n : Fin 32) (s : State) : exec (.quadCountCommit n) s = execQuadCountCommit n s := rfl
@[simp] theorem exec_indexEdge (n : Fin 32) (t : Stamp) (s : State) : exec (.indexEdge n t) s = execIndexEdge n t s := rfl
@[simp] theorem exec_adcSample (k : Fin 16) (sc cc : BitVec 14) (t : Stamp) (s : State) : exec (.adcSample k sc cc t) s = execAdcSample k sc cc t s := rfl
@[simp] theorem exec_serialFrameStart (n : Fin 32) (t : Stamp) (s : State) : exec (.serialFrameStart n t) s = execSerialFrameStart n t s := rfl
@[simp] theorem exec_ssiFrameEnd (n : Fin 32) (data : BitVec 48) (parity silent : Bool) (s : State) : exec (.ssiFrameEnd n data parity silent) s = execSsiFrameEnd n data parity silent s := rfl
@[simp] theorem exec_qcsFrameEnd (n : Fin 32) (start : Bool) (status : BitVec 4) (pos : BitVec 40) (seq : BitVec 4) (crc : BitVec 8) (silent : Bool) (s : State) : exec (.qcsFrameEnd n start status pos seq crc silent) s = execQcsFrameEnd n start status pos seq crc silent s := rfl
@[simp] theorem exec_stepEdge (n : Fin 32) (dir wide : Bool) (t : Stamp) (s : State) : exec (.stepEdge n dir wide t) s = execStepEdge n dir wide t s := rfl
@[simp] theorem exec_zeroCrossing (k : Fin 16) (rising : Bool) (t : Stamp) (s : State) : exec (.zeroCrossing k rising t) s = execZeroCrossing k rising t s := rfl
@[simp] theorem exec_tbTimeoutExpiry (n : Fin 32) (s : State) : exec (.tbTimeoutExpiry n) s = execTbTimeoutExpiry n s := rfl
@[simp] theorem exec_tbposMsg (lane : Fin 2) (idx seq : Byte) (p v a stamp : W64) (good : Bool) (s : State) : exec (.tbposMsg lane idx seq p v a stamp good) s = execTbposMsg lane idx seq p v a stamp good s := rfl
@[simp] theorem exec_tetherMsgTimeout (n : Fin 32) (s : State) : exec (.tetherMsgTimeout n) s = execTetherMsgTimeout n s := rfl
@[simp] theorem exec_timebaseUpdate (s : State) : exec (.timebaseUpdate) s = execTimebaseUpdate s := rfl
@[simp] theorem exec_coastLimitExpiry (n : Fin 32) (s : State) : exec (.coastLimitExpiry n) s = execCoastLimitExpiry n s := rfl
@[simp] theorem exec_tbEnable (w : Writer) (n : Fin 32) (s : State) : exec (.tbEnable w n) s = execTbEnable w n s := rfl
@[simp] theorem exec_tbDisable (w : Writer) (n : Fin 32) (s : State) : exec (.tbDisable w n) s = execTbDisable w n s := rfl
@[simp] theorem exec_presetGo (w : Writer) (n : Fin 32) (s : State) : exec (.presetGo w n) s = execPresetGo w n s := rfl
@[simp] theorem exec_gearGo (w : Writer) (n : Fin 32) (s : State) : exec (.gearGo w n) s = execGearGo w n s := rfl
@[simp] theorem exec_errcntClr (w : Writer) (n : Fin 32) (s : State) : exec (.errcntClr w n) s = execErrcntClr w n s := rfl
@[simp] theorem exec_tbCfgWrite (w : Writer) (n : Fin 32) (which : Fin 3) (v : W32) (s : State) : exec (.tbCfgWrite w n which v) s = execTbCfgWrite w n which v s := rfl
@[simp] theorem exec_tbAnaCalWrite (w : Writer) (n : Fin 32) (v : W32) (s : State) : exec (.tbAnaCalWrite w n v) s = execTbAnaCalWrite w n v s := rfl
@[simp] theorem exec_tbSnapGo (w : Writer) (s : State) : exec (.tbSnapGo w) s = execTbSnapGo w s := rfl
@[simp] theorem exec_tbSnapDone (s : State) : exec (.tbSnapDone) s = execTbSnapDone s := rfl
@[simp] theorem exec_fabricArm (k : Fin 32) (port : Fin 80) (cmd w0 w1 w2 w3 : W64) (s : State) : exec (.fabricArm k port cmd w0 w1 w2 w3) s = execFabricArm k port cmd w0 w1 w2 w3 s := rfl
@[simp] theorem exec_fabricCancel (k : Fin 32) (port : Fin 80) (cmd : W64) (s : State) : exec (.fabricCancel k port cmd) s = execFabricCancel k port cmd s := rfl
@[simp] theorem exec_fabricReplyTaken (k : Fin 32) (completion : Bool) (s : State) : exec (.fabricReplyTaken k completion) s = execFabricReplyTaken k completion s := rfl
@[simp] theorem exec_schedPublication (s : State) : exec (.schedPublication) s = execSchedPublication s := rfl
@[simp] theorem exec_eventFire (n : Fin 4096) (t : Stamp) (s : State) : exec (.eventFire n t) s = execEventFire n t s := rfl
@[simp] theorem exec_pulseEnd (n : Fin 4096) (t : Stamp) (s : State) : exec (.pulseEnd n t) s = execPulseEnd n t s := rfl
@[simp] theorem exec_widthLimitExpiry (n : Fin 4096) (t : Stamp) (s : State) : exec (.widthLimitExpiry n t) s = execWidthLimitExpiry n t s := rfl
@[simp] theorem exec_eventExpiry (n : Fin 4096) (s : State) : exec (.eventExpiry n) s = execEventExpiry n s := rfl
@[simp] theorem exec_captureEdge (k : Fin 64) (rising : Bool) (t : Stamp) (s : State) : exec (.captureEdge k rising t) s = execCaptureEdge k rising t s := rfl
@[simp] theorem exec_captureWindowClose (k : Fin 64) (s : State) : exec (.captureWindowClose k) s = execCaptureWindowClose k s := rfl
@[simp] theorem exec_eventTokenDrain (k : Fin 64) (s : State) : exec (.eventTokenDrain k) s = execEventTokenDrain k s := rfl
@[simp] theorem exec_calMeasureDone (u : Fin 128) (s : State) : exec (.calMeasureDone u) s = execCalMeasureDone u s := rfl
@[simp] theorem exec_calRoleSwap (u : Fin 128) (s : State) : exec (.calRoleSwap u) s = execCalRoleSwap u s := rfl
@[simp] theorem exec_calAgeExpiry (u : Fin 128) (s : State) : exec (.calAgeExpiry u) s = execCalAgeExpiry u s := rfl
@[simp] theorem exec_evtKillGo (w : Writer) (v : W32) (s : State) : exec (.evtKillGo w v) s = execEvtKillGo w v s := rfl
@[simp] theorem exec_evtCfgWrite (w : Writer) (h : Fin 2) (v : W32) (s : State) : exec (.evtCfgWrite w h v) s = execEvtCfgWrite w h v s := rfl
@[simp] theorem exec_evtCntClr (w : Writer) (h : Fin 2) (s : State) : exec (.evtCntClr w h) s = execEvtCntClr w h s := rfl
@[simp] theorem exec_evtSlotSel (w : Writer) (slot : Fin 4096) (s : State) : exec (.evtSlotSel w slot) s = execEvtSlotSel w slot s := rfl
@[simp] theorem exec_slotCopyDone (s : State) : exec (.slotCopyDone) s = execSlotCopyDone s := rfl
@[simp] theorem exec_evtLineCfgWrite (w : Writer) (n : Fin 64) (v : W32) (s : State) : exec (.evtLineCfgWrite w n v) s = execEvtLineCfgWrite w n v s := rfl
@[simp] theorem exec_evtCapCfgWrite (w : Writer) (k : Fin 64) (v : W32) (s : State) : exec (.evtCapCfgWrite w k v) s = execEvtCapCfgWrite w k v s := rfl
@[simp] theorem exec_handshakeWord (c : Fin 655360) (onZ : Bool) (s : State) : exec (.handshakeWord c onZ) s = execHandshakeWord c onZ s := rfl
@[simp] theorem exec_cellToken (n : Fin 655360) (a b c d : Option Bool) (s : State) : exec (.cellToken n a b c d) s = execCellToken n a b c d s := rfl
@[simp] theorem exec_bundledTransfer (n : Fin 655360) (a b c d : Option Bool) (s : State) : exec (.bundledTransfer n a b c d) s = execBundledTransfer n a b c d s := rfl
@[simp] theorem exec_arbiterRequest (k : Fin 81920) (side1 : Bool) (s : State) : exec (.arbiterRequest k side1) s = execArbiterRequest k side1 s := rfl
@[simp] theorem exec_arbiterRelease (k : Fin 81920) (side1 : Bool) (s : State) : exec (.arbiterRelease k side1) s = execArbiterRelease k side1 s := rfl
@[simp] theorem exec_sectorUrst (w : Writer) (sec : Fin 80) (on : Bool) (s : State) : exec (.sectorUrst w sec on) s = execSectorUrst w sec on s := rfl
@[simp] theorem exec_cellResetInput (c : Fin 655360) (on : Bool) (s : State) : exec (.cellResetInput c on) s = execCellResetInput c on s := rfl
@[simp] theorem exec_spineRead (p : Fin 80) (hd : W64) (s : State) : exec (.spineRead p hd) s = execSpineRead p hd s := rfl
@[simp] theorem exec_spineWrite (p : Fin 80) (hd : W64) (data : List W64) (s : State) : exec (.spineWrite p hd data) s = execSpineWrite p hd data s := rfl
@[simp] theorem exec_spineWriteAck (p : Fin 80) (hd : W64) (data : List W64) (s : State) : exec (.spineWriteAck p hd data) s = execSpineWriteAck p hd data s := rfl
@[simp] theorem exec_spineAdd (p : Fin 80) (hd v : W64) (s : State) : exec (.spineAdd p hd v) s = execSpineAdd p hd v s := rfl
@[simp] theorem exec_spineSwap (p : Fin 80) (hd v : W64) (s : State) : exec (.spineSwap p hd v) s = execSpineSwap p hd v s := rfl
@[simp] theorem exec_spineMsg (p : Fin 80) (hd v : W64) (s : State) : exec (.spineMsg p hd v) s = execSpineMsg p hd v s := rfl
@[simp] theorem exec_spineHeaderAdmit (p : Fin 80) (s : State) : exec (.spineHeaderAdmit p) s = execSpineHeaderAdmit p s := rfl
@[simp] theorem exec_transactionDelivery (k : Fin 2048) (lost : Fin 4) (taken : Bool) (s : State) : exec (.transactionDelivery k lost taken) s = execTransactionDelivery k lost taken s := rfl
@[simp] theorem exec_spineResponse (fabric : Bool) (k : Fin 2048) (sec : Fin 80) (tag : Byte) (status : BitVec 16) (data : List W64) (s : State) : exec (.spineResponse fabric k sec tag status data) s = execSpineResponse fabric k sec tag status data s := rfl
@[simp] theorem exec_sportTimeout (sec : Fin 80) (tag : Byte) (s : State) : exec (.sportTimeout sec tag) s = execSportTimeout sec tag s := rfl
@[simp] theorem exec_sportCntClr (w : Writer) (p : Fin 106) (s : State) : exec (.sportCntClr w p) s = execSportCntClr w p s := rfl
@[simp] theorem exec_sportPeakClr (w : Writer) (p : Fin 106) (s : State) : exec (.sportPeakClr w p) s = execSportPeakClr w p s := rfl
@[simp] theorem exec_spinePeakClr (w : Writer) (s : State) : exec (.spinePeakClr w) s = execSpinePeakClr w s := rfl
@[simp] theorem exec_tokDestWrite (w : Writer) (c : Fin 64) (v : W32) (s : State) : exec (.tokDestWrite w c v) s = execTokDestWrite w c v s := rfl
@[simp] theorem exec_bankAccessRead (b : Fin 1280) (hd : W64) (lost : Fin 4) (s : State) : exec (.bankAccessRead b hd lost) s = execBankAccessRead b hd lost s := rfl
@[simp] theorem exec_bankAccessWrite (b : Fin 1280) (ack : Bool) (hd : W64) (data : List W64) (lost : Fin 4) (s : State) : exec (.bankAccessWrite b ack hd data lost) s = execBankAccessWrite b ack hd data lost s := rfl
@[simp] theorem exec_bankAccessAdd (b : Fin 1280) (hd v : W64) (lost : Fin 4) (s : State) : exec (.bankAccessAdd b hd v lost) s = execBankAccessAdd b hd v lost s := rfl
@[simp] theorem exec_bankAccessSwap (b : Fin 1280) (hd v : W64) (lost : Fin 4) (s : State) : exec (.bankAccessSwap b hd v lost) s = execBankAccessSwap b hd v lost s := rfl
@[simp] theorem exec_hostBar2Read (w : Writer) (word : BitVec 22) (lost : Fin 4) (s : State) : exec (.hostBar2Read w word lost) s = execHostBar2Read w word lost s := rfl
@[simp] theorem exec_hostBar2Write (w : Writer) (word : BitVec 22) (v : W64) (mask : Byte) (lost : Fin 4) (s : State) : exec (.hostBar2Write w word v mask lost) s = execHostBar2Write w word v mask lost s := rfl
@[simp] theorem exec_bankOwnWrite (w : Writer) (b : Fin 1280) (v : W32) (s : State) : exec (.bankOwnWrite w b v) s = execBankOwnWrite w b v s := rfl
@[simp] theorem exec_bankDrainDone (b : Fin 1280) (s : State) : exec (.bankDrainDone b) s = execBankDrainDone b s := rfl
@[simp] theorem exec_bankRetentionRequest (w : Writer) (b : Fin 1280) (s : State) : exec (.bankRetentionRequest w b) s = execBankRetentionRequest w b s := rfl
@[simp] theorem exec_bankWakeRequest (w : Writer) (b : Fin 1280) (s : State) : exec (.bankWakeRequest w b) s = execBankWakeRequest w b s := rfl
@[simp] theorem exec_bankEntryDone (b : Fin 1280) (s : State) : exec (.bankEntryDone b) s = execBankEntryDone b s := rfl
@[simp] theorem exec_bankWakeDone (b : Fin 1280) (s : State) : exec (.bankWakeDone b) s = execBankWakeDone b s := rfl
@[simp] theorem exec_parityInject (w : Writer) (b : Fin 1280) (s : State) : exec (.parityInject w b) s = execParityInject w b s := rfl
@[simp] theorem exec_bankCntClr (w : Writer) (b : Fin 1280) (s : State) : exec (.bankCntClr w b) s = execBankCntClr w b s := rfl
@[simp] theorem exec_confClr (w : Writer) (s : State) : exec (.confClr w) s = execConfClr w s := rfl
@[simp] theorem exec_qpush (q : Fin 160) (v : W64) (last : Bool) (s : State) : exec (.qpush q v last) s = execQpush q v last s := rfl
@[simp] theorem exec_qpopWait (q : Fin 160) (s : State) : exec (.qpopWait q) s = execQpopWait q s := rfl
@[simp] theorem exec_qpopNow (q : Fin 160) (s : State) : exec (.qpopNow q) s = execQpopNow q s := rfl
@[simp] theorem exec_quePush (q : Fin 160) (ack : Bool) (tag : Byte) (data : List W64) (s : State) : exec (.quePush q ack tag data) s = execQuePush q ack tag data s := rfl
@[simp] theorem exec_quePushEnd (q : Fin 160) (ack : Bool) (tag : Byte) (data : List W64) (s : State) : exec (.quePushEnd q ack tag data) s = execQuePushEnd q ack tag data s := rfl
@[simp] theorem exec_quePop (q : Fin 160) (tag : Byte) (s : State) : exec (.quePop q tag) s = execQuePop q tag s := rfl
@[simp] theorem exec_quePopTagged (q : Fin 160) (tag : Byte) (s : State) : exec (.quePopTagged q tag) s = execQuePopTagged q tag s := rfl
@[simp] theorem exec_queFlush (w : Writer) (q : Fin 160) (s : State) : exec (.queFlush w q) s = execQueFlush w q s := rfl
@[simp] theorem exec_queEnable (w : Writer) (q : Fin 160) (s : State) : exec (.queEnable w q) s = execQueEnable w q s := rfl
@[simp] theorem exec_queEnableDone (q : Fin 160) (s : State) : exec (.queEnableDone q) s = execQueEnableDone q s := rfl
@[simp] theorem exec_queDisable (w : Writer) (q : Fin 160) (s : State) : exec (.queDisable w q) s = execQueDisable w q s := rfl
@[simp] theorem exec_queStopDone (q : Fin 160) (s : State) : exec (.queStopDone q) s = execQueStopDone q s := rfl
@[simp] theorem exec_queWmWrite (w : Writer) (q : Fin 160) (v : W32) (s : State) : exec (.queWmWrite w q v) s = execQueWmWrite w q v s := rfl
@[simp] theorem exec_queCfgWrite (w : Writer) (q : Fin 160) (v : W32) (s : State) : exec (.queCfgWrite w q v) s = execQueCfgWrite w q v s := rfl
@[simp] theorem exec_queCntClr (w : Writer) (q : Fin 160) (s : State) : exec (.queCntClr w q) s = execQueCntClr w q s := rfl
@[simp] theorem exec_oscDelayExpiry (xtal refin : Bool) (s : State) : exec (.oscDelayExpiry xtal refin) s = execOscDelayExpiry xtal refin s := rfl
@[simp] theorem exec_rootSourceRetry (xtal refin : Bool) (s : State) : exec (.rootSourceRetry xtal refin) s = execRootSourceRetry xtal refin s := rfl
@[simp] theorem exec_rootLock (s : State) : exec (.rootLock) s = execRootLock s := rfl
@[simp] theorem exec_refMissingEdge (k : Fin 4) (s : State) : exec (.refMissingEdge k) s = execRefMissingEdge k s := rfl
@[simp] theorem exec_freqWindow (count : BitVec 11) (agree : Bool) (ready : BitVec 4) (s : State) : exec (.freqWindow count agree ready) s = execFreqWindow count agree ready s := rfl
@[simp] theorem exec_pllUnlock (s : State) : exec (.pllUnlock) s = execPllUnlock s := rfl
@[simp] theorem exec_holdoverToIntosc (s : State) : exec (.holdoverToIntosc) s = execHoldoverToIntosc s := rfl
@[simp] theorem exec_autoReturnStart (s : State) : exec (.autoReturnStart) s = execAutoReturnStart s := rfl
@[simp] theorem exec_clkSrcSwitch (w : Writer) (sel : Fin 4) (auto : Bool) (s : State) : exec (.clkSrcSwitch w sel auto) s = execClkSrcSwitch w sel auto s := rfl
@[simp] theorem exec_rootSlewDone (s : State) : exec (.rootSlewDone) s = execRootSlewDone s := rfl
@[simp] theorem exec_clkGateOn (w : Writer) (g : Fin 15) (idle : Byte) (s : State) : exec (.clkGateOn w g idle) s = execClkGateOn w g idle s := rfl
@[simp] theorem exec_clkGateAuto (w : Writer) (g : Fin 15) (idle : Byte) (s : State) : exec (.clkGateAuto w g idle) s = execClkGateAuto w g idle s := rfl
@[simp] theorem exec_clkGateOff (w : Writer) (g : Fin 15) (idle : Byte) (s : State) : exec (.clkGateOff w g idle) s = execClkGateOff w g idle s := rfl
@[simp] theorem exec_clkGateIdleStop (g : Fin 15) (s : State) : exec (.clkGateIdleStop g) s = execClkGateIdleStop g s := rfl
@[simp] theorem exec_clkGateWake (g : Fin 15) (s : State) : exec (.clkGateWake g) s = execClkGateWake g s := rfl
@[simp] theorem exec_clkGateStopDone (g : Fin 15) (s : State) : exec (.clkGateStopDone g) s = execClkGateStopDone g s := rfl
@[simp] theorem exec_crossingRelease (x : Fin 27) (items : BitVec 16) (s : State) : exec (.crossingRelease x items) s = execCrossingRelease x items s := rfl
@[simp] theorem exec_clkMinClr (w : Writer) (s : State) : exec (.clkMinClr w) s = execClkMinClr w s := rfl
@[simp] theorem exec_clkCntClr (w : Writer) (s : State) : exec (.clkCntClr w) s = execClkCntClr w s := rfl
@[simp] theorem exec_engineEnable (w : Writer) (n : Fin 96) (s : State) : exec (.engineEnable w n) s = execEngineEnable w n s := rfl
@[simp] theorem exec_engineDisable (w : Writer) (n : Fin 96) (s : State) : exec (.engineDisable w n) s = execEngineDisable w n s := rfl
@[simp] theorem exec_engineStopDone (n : Fin 96) (s : State) : exec (.engineStopDone n) s = execEngineStopDone n s := rfl
@[simp] theorem exec_engineCntClr (w : Writer) (n : Fin 96) (s : State) : exec (.engineCntClr w n) s = execEngineCntClr w n s := rfl
@[simp] theorem exec_contextStart (w : Writer) (n : Fin 96) (c : Fin 4) (s : State) : exec (.contextStart w n c) s = execContextStart w n c s := rfl
@[simp] theorem exec_contextStop (w : Writer) (n : Fin 96) (c : Fin 4) (s : State) : exec (.contextStop w n c) s = execContextStop w n c s := rfl
@[simp] theorem exec_ctxPcWrite (w : Writer) (n : Fin 96) (c : Fin 4) (v : W32) (s : State) : exec (.ctxPcWrite w n c v) s = execCtxPcWrite w n c v s := rfl
@[simp] theorem exec_ctxCfgWrite (w : Writer) (n : Fin 96) (c : Fin 4) (v : W32) (s : State) : exec (.ctxCfgWrite w n c v) s = execCtxCfgWrite w n c v s := rfl
@[simp] theorem exec_ctxEvqWrite (w : Writer) (n : Fin 96) (c : Fin 4) (ptr : Bool) (v : W32) (s : State) : exec (.ctxEvqWrite w n c ptr v) s = execCtxEvqWrite w n c ptr v s := rfl
@[simp] theorem exec_ctxGregAccess (w : Writer) (n : Fin 96) (c : Fin 4) (r : Fin 32) (write : Option W64) (s : State) : exec (.ctxGregAccess w n c r write) s = execCtxGregAccess w n c r write s := rfl
@[simp] theorem exec_ochDestWrite (w : Writer) (n : Fin 96) (k : Fin 8) (v : W32) (s : State) : exec (.ochDestWrite w n k v) s = execOchDestWrite w n k v s := rfl
@[simp] theorem exec_contextSwitch (n : Fin 96) (s : State) : exec (.contextSwitch n) s = execContextSwitch n s := rfl
@[simp] theorem exec_accessResponse (k : Fin 2048) (s : State) : exec (.accessResponse k) s = execAccessResponse k s := rfl
@[simp] theorem exec_faultDelivery (n : Fin 96) (s : State) : exec (.faultDelivery n) s = execFaultDelivery n s := rfl
@[simp] theorem exec_watchdogExpiry (n : Fin 96) (c : Fin 4) (s : State) : exec (.watchdogExpiry n c) s = execWatchdogExpiry n c s := rfl
@[simp] theorem exec_contextTimerExpiry (n : Fin 96) (c : Fin 4) (s : State) : exec (.contextTimerExpiry n c) s = execContextTimerExpiry n c s := rfl
@[simp] theorem exec_longOpComplete (n : Fin 96) (s : State) : exec (.longOpComplete n) s = execLongOpComplete n s := rfl
@[simp] theorem exec_engineTokenIn (k : Fin 2048) (s : State) : exec (.engineTokenIn k) s = execEngineTokenIn k s := rfl
@[simp] theorem exec_engineMsgAdmit (n : Fin 96) (s : State) : exec (.engineMsgAdmit n) s = execEngineMsgAdmit n s := rfl
@[simp] theorem exec_outputChannelDrain (n : Fin 96) (k : Fin 8) (s : State) : exec (.outputChannelDrain n k) s = execOutputChannelDrain n k s := rfl
@[simp] theorem exec_evqBufferDrain (n : Fin 96) (s : State) : exec (.evqBufferDrain n) s = execEvqBufferDrain n s := rfl
@[simp] theorem exec_xferEnd (n : Fin 96) (c : Fin 4) (lost : Fin 4) (s : State) : exec (.xferEnd n c lost) s = execXferEnd n c lost s := rfl
@[simp] theorem exec_kNop (n : Fin 96) (s : State) : exec (.kNop n) s = execKNop n s := rfl
@[simp] theorem exec_kAdd (n : Fin 96) (s : State) : exec (.kAdd n) s = execKAdd n s := rfl
@[simp] theorem exec_kSub (n : Fin 96) (s : State) : exec (.kSub n) s = execKSub n s := rfl
@[simp] theorem exec_kAnd (n : Fin 96) (s : State) : exec (.kAnd n) s = execKAnd n s := rfl
@[simp] theorem exec_kOr (n : Fin 96) (s : State) : exec (.kOr n) s = execKOr n s := rfl
@[simp] theorem exec_kXor (n : Fin 96) (s : State) : exec (.kXor n) s = execKXor n s := rfl
@[simp] theorem exec_kShl (n : Fin 96) (s : State) : exec (.kShl n) s = execKShl n s := rfl
@[simp] theorem exec_kShr (n : Fin 96) (s : State) : exec (.kShr n) s = execKShr n s := rfl
@[simp] theorem exec_kSar (n : Fin 96) (s : State) : exec (.kSar n) s = execKSar n s := rfl
@[simp] theorem exec_kRor (n : Fin 96) (s : State) : exec (.kRor n) s = execKRor n s := rfl
@[simp] theorem exec_kSlt (n : Fin 96) (s : State) : exec (.kSlt n) s = execKSlt n s := rfl
@[simp] theorem exec_kSltu (n : Fin 96) (s : State) : exec (.kSltu n) s = execKSltu n s := rfl
@[simp] theorem exec_kSeq (n : Fin 96) (s : State) : exec (.kSeq n) s = execKSeq n s := rfl
@[simp] theorem exec_kMin (n : Fin 96) (s : State) : exec (.kMin n) s = execKMin n s := rfl
@[simp] theorem exec_kMax (n : Fin 96) (s : State) : exec (.kMax n) s = execKMax n s := rfl
@[simp] theorem exec_kMinu (n : Fin 96) (s : State) : exec (.kMinu n) s = execKMinu n s := rfl
@[simp] theorem exec_kMaxu (n : Fin 96) (s : State) : exec (.kMaxu n) s = execKMaxu n s := rfl
@[simp] theorem exec_kMul (n : Fin 96) (s : State) : exec (.kMul n) s = execKMul n s := rfl
@[simp] theorem exec_kMulh (n : Fin 96) (s : State) : exec (.kMulh n) s = execKMulh n s := rfl
@[simp] theorem exec_kMulhu (n : Fin 96) (s : State) : exec (.kMulhu n) s = execKMulhu n s := rfl
@[simp] theorem exec_kDiv (n : Fin 96) (s : State) : exec (.kDiv n) s = execKDiv n s := rfl
@[simp] theorem exec_kDivu (n : Fin 96) (s : State) : exec (.kDivu n) s = execKDivu n s := rfl
@[simp] theorem exec_kRem (n : Fin 96) (s : State) : exec (.kRem n) s = execKRem n s := rfl
@[simp] theorem exec_kRemu (n : Fin 96) (s : State) : exec (.kRemu n) s = execKRemu n s := rfl
@[simp] theorem exec_kClz (n : Fin 96) (s : State) : exec (.kClz n) s = execKClz n s := rfl
@[simp] theorem exec_kPopc (n : Fin 96) (s : State) : exec (.kPopc n) s = execKPopc n s := rfl
@[simp] theorem exec_kAddv (n : Fin 96) (s : State) : exec (.kAddv n) s = execKAddv n s := rfl
@[simp] theorem exec_kSubv (n : Fin 96) (s : State) : exec (.kSubv n) s = execKSubv n s := rfl
@[simp] theorem exec_kCmovnz (n : Fin 96) (s : State) : exec (.kCmovnz n) s = execKCmovnz n s := rfl
@[simp] theorem exec_kCmovz (n : Fin 96) (s : State) : exec (.kCmovz n) s = execKCmovz n s := rfl
@[simp] theorem exec_kAddi (n : Fin 96) (s : State) : exec (.kAddi n) s = execKAddi n s := rfl
@[simp] theorem exec_kAndi (n : Fin 96) (s : State) : exec (.kAndi n) s = execKAndi n s := rfl
@[simp] theorem exec_kOri (n : Fin 96) (s : State) : exec (.kOri n) s = execKOri n s := rfl
@[simp] theorem exec_kXori (n : Fin 96) (s : State) : exec (.kXori n) s = execKXori n s := rfl
@[simp] theorem exec_kSlti (n : Fin 96) (s : State) : exec (.kSlti n) s = execKSlti n s := rfl
@[simp] theorem exec_kSltiu (n : Fin 96) (s : State) : exec (.kSltiu n) s = execKSltiu n s := rfl
@[simp] theorem exec_kShi (n : Fin 96) (s : State) : exec (.kShi n) s = execKShi n s := rfl
@[simp] theorem exec_kLdi (n : Fin 96) (s : State) : exec (.kLdi n) s = execKLdi n s := rfl
@[simp] theorem exec_kInsh (n : Fin 96) (s : State) : exec (.kInsh n) s = execKInsh n s := rfl
@[simp] theorem exec_kQadd (n : Fin 96) (s : State) : exec (.kQadd n) s = execKQadd n s := rfl
@[simp] theorem exec_kQsub (n : Fin 96) (s : State) : exec (.kQsub n) s = execKQsub n s := rfl
@[simp] theorem exec_kQmul (n : Fin 96) (s : State) : exec (.kQmul n) s = execKQmul n s := rfl
@[simp] theorem exec_kQdiv (n : Fin 96) (s : State) : exec (.kQdiv n) s = execKQdiv n s := rfl
@[simp] theorem exec_kQshl (n : Fin 96) (s : State) : exec (.kQshl n) s = execKQshl n s := rfl
@[simp] theorem exec_kQshr (n : Fin 96) (s : State) : exec (.kQshr n) s = execKQshr n s := rfl
@[simp] theorem exec_kQabs (n : Fin 96) (s : State) : exec (.kQabs n) s = execKQabs n s := rfl
@[simp] theorem exec_kQneg (n : Fin 96) (s : State) : exec (.kQneg n) s = execKQneg n s := rfl
@[simp] theorem exec_kQshli (n : Fin 96) (s : State) : exec (.kQshli n) s = execKQshli n s := rfl
@[simp] theorem exec_kQshri (n : Fin 96) (s : State) : exec (.kQshri n) s = execKQshri n s := rfl
@[simp] theorem exec_kFadd (n : Fin 96) (s : State) : exec (.kFadd n) s = execKFadd n s := rfl
@[simp] theorem exec_kFsub (n : Fin 96) (s : State) : exec (.kFsub n) s = execKFsub n s := rfl
@[simp] theorem exec_kFmul (n : Fin 96) (s : State) : exec (.kFmul n) s = execKFmul n s := rfl
@[simp] theorem exec_kFdiv (n : Fin 96) (s : State) : exec (.kFdiv n) s = execKFdiv n s := rfl
@[simp] theorem exec_kFsqrt (n : Fin 96) (s : State) : exec (.kFsqrt n) s = execKFsqrt n s := rfl
@[simp] theorem exec_kFma (n : Fin 96) (s : State) : exec (.kFma n) s = execKFma n s := rfl
@[simp] theorem exec_kFmin (n : Fin 96) (s : State) : exec (.kFmin n) s = execKFmin n s := rfl
@[simp] theorem exec_kFmax (n : Fin 96) (s : State) : exec (.kFmax n) s = execKFmax n s := rfl
@[simp] theorem exec_kFneg (n : Fin 96) (s : State) : exec (.kFneg n) s = execKFneg n s := rfl
@[simp] theorem exec_kFabs (n : Fin 96) (s : State) : exec (.kFabs n) s = execKFabs n s := rfl
@[simp] theorem exec_kFeq (n : Fin 96) (s : State) : exec (.kFeq n) s = execKFeq n s := rfl
@[simp] theorem exec_kFlt (n : Fin 96) (s : State) : exec (.kFlt n) s = execKFlt n s := rfl
@[simp] theorem exec_kFle (n : Fin 96) (s : State) : exec (.kFle n) s = execKFle n s := rfl
@[simp] theorem exec_kFround (n : Fin 96) (s : State) : exec (.kFround n) s = execKFround n s := rfl
@[simp] theorem exec_kFcvtFx (n : Fin 96) (s : State) : exec (.kFcvtFx n) s = execKFcvtFx n s := rfl
@[simp] theorem exec_kFcvtXf (n : Fin 96) (s : State) : exec (.kFcvtXf n) s = execKFcvtXf n s := rfl
@[simp] theorem exec_kFcvtFxu (n : Fin 96) (s : State) : exec (.kFcvtFxu n) s = execKFcvtFxu n s := rfl
@[simp] theorem exec_kLdl (n : Fin 96) (s : State) : exec (.kLdl n) s = execKLdl n s := rfl
@[simp] theorem exec_kStl (n : Fin 96) (s : State) : exec (.kStl n) s = execKStl n s := rfl
@[simp] theorem exec_kLdml (n : Fin 96) (s : State) : exec (.kLdml n) s = execKLdml n s := rfl
@[simp] theorem exec_kStml (n : Fin 96) (s : State) : exec (.kStml n) s = execKStml n s := rfl
@[simp] theorem exec_kLd (n : Fin 96) (s : State) : exec (.kLd n) s = execKLd n s := rfl
@[simp] theorem exec_kSt (n : Fin 96) (s : State) : exec (.kSt n) s = execKSt n s := rfl
@[simp] theorem exec_kLdm (n : Fin 96) (s : State) : exec (.kLdm n) s = execKLdm n s := rfl
@[simp] theorem exec_kStm (n : Fin 96) (s : State) : exec (.kStm n) s = execKStm n s := rfl
@[simp] theorem exec_kAtomAdd (n : Fin 96) (s : State) : exec (.kAtomAdd n) s = execKAtomAdd n s := rfl
@[simp] theorem exec_kAtomSwap (n : Fin 96) (s : State) : exec (.kAtomSwap n) s = execKAtomSwap n s := rfl
@[simp] theorem exec_kMcpy (n : Fin 96) (s : State) : exec (.kMcpy n) s = execKMcpy n s := rfl
@[simp] theorem exec_kBr (n : Fin 96) (s : State) : exec (.kBr n) s = execKBr n s := rfl
@[simp] theorem exec_kBeq (n : Fin 96) (s : State) : exec (.kBeq n) s = execKBeq n s := rfl
@[simp] theorem exec_kBne (n : Fin 96) (s : State) : exec (.kBne n) s = execKBne n s := rfl
@[simp] theorem exec_kBlt (n : Fin 96) (s : State) : exec (.kBlt n) s = execKBlt n s := rfl
@[simp] theorem exec_kBge (n : Fin 96) (s : State) : exec (.kBge n) s = execKBge n s := rfl
@[simp] theorem exec_kBltu (n : Fin 96) (s : State) : exec (.kBltu n) s = execKBltu n s := rfl
@[simp] theorem exec_kBgeu (n : Fin 96) (s : State) : exec (.kBgeu n) s = execKBgeu n s := rfl
@[simp] theorem exec_kBz (n : Fin 96) (s : State) : exec (.kBz n) s = execKBz n s := rfl
@[simp] theorem exec_kBnz (n : Fin 96) (s : State) : exec (.kBnz n) s = execKBnz n s := rfl
@[simp] theorem exec_kCall (n : Fin 96) (s : State) : exec (.kCall n) s = execKCall n s := rfl
@[simp] theorem exec_kJr (n : Fin 96) (s : State) : exec (.kJr n) s = execKJr n s := rfl
@[simp] theorem exec_kWaitToken (n : Fin 96) (s : State) : exec (.kWaitToken n) s = execKWaitToken n s := rfl
@[simp] theorem exec_kWaitRoom (n : Fin 96) (s : State) : exec (.kWaitRoom n) s = execKWaitRoom n s := rfl
@[simp] theorem exec_kWaitWake (n : Fin 96) (s : State) : exec (.kWaitWake n) s = execKWaitWake n s := rfl
@[simp] theorem exec_kWaitCompletion (n : Fin 96) (s : State) : exec (.kWaitCompletion n) s = execKWaitCompletion n s := rfl
@[simp] theorem exec_kWaitTimer (n : Fin 96) (s : State) : exec (.kWaitTimer n) s = execKWaitTimer n s := rfl
@[simp] theorem exec_kWaitXfer (n : Fin 96) (s : State) : exec (.kWaitXfer n) s = execKWaitXfer n s := rfl
@[simp] theorem exec_kRecv (n : Fin 96) (s : State) : exec (.kRecv n) s = execKRecv n s := rfl
@[simp] theorem exec_kSend (n : Fin 96) (s : State) : exec (.kSend n) s = execKSend n s := rfl
@[simp] theorem exec_kChav (n : Fin 96) (s : State) : exec (.kChav n) s = execKChav n s := rfl
@[simp] theorem exec_kSnap (n : Fin 96) (s : State) : exec (.kSnap n) s = execKSnap n s := rfl
@[simp] theorem exec_kTbw (n : Fin 96) (s : State) : exec (.kTbw n) s = execKTbw n s := rfl
@[simp] theorem exec_kEvset (n : Fin 96) (s : State) : exec (.kEvset n) s = execKEvset n s := rfl
@[simp] theorem exec_kEvcan (n : Fin 96) (s : State) : exec (.kEvcan n) s = execKEvcan n s := rfl
@[simp] theorem exec_kTkwake (n : Fin 96) (s : State) : exec (.kTkwake n) s = execKTkwake n s := rfl
@[simp] theorem exec_kEvqHead (n : Fin 96) (s : State) : exec (.kEvqHead n) s = execKEvqHead n s := rfl
@[simp] theorem exec_kEvqPop (n : Fin 96) (s : State) : exec (.kEvqPop n) s = execKEvqPop n s := rfl
@[simp] theorem exec_kDacw (n : Fin 96) (s : State) : exec (.kDacw n) s = execKDacw n s := rfl
@[simp] theorem exec_kXferStart (n : Fin 96) (s : State) : exec (.kXferStart n) s = execKXferStart n s := rfl
@[simp] theorem exec_kXferResume (n : Fin 96) (s : State) : exec (.kXferResume n) s = execKXferResume n s := rfl
@[simp] theorem exec_kXferAbort (n : Fin 96) (s : State) : exec (.kXferAbort n) s = execKXferAbort n s := rfl
@[simp] theorem exec_kXferStatus (n : Fin 96) (s : State) : exec (.kXferStatus n) s = execKXferStatus n s := rfl
@[simp] theorem exec_kRddt (n : Fin 96) (s : State) : exec (.kRddt n) s = execKRddt n s := rfl
@[simp] theorem exec_kCsrRead (n : Fin 96) (s : State) : exec (.kCsrRead n) s = execKCsrRead n s := rfl
@[simp] theorem exec_kCsrWrite (n : Fin 96) (s : State) : exec (.kCsrWrite n) s = execKCsrWrite n s := rfl
@[simp] theorem exec_kCsrSet (n : Fin 96) (s : State) : exec (.kCsrSet n) s = execKCsrSet n s := rfl
@[simp] theorem exec_kCsrClear (n : Fin 96) (s : State) : exec (.kCsrClear n) s = execKCsrClear n s := rfl
@[simp] theorem exec_kFence (n : Fin 96) (s : State) : exec (.kFence n) s = execKFence n s := rfl
@[simp] theorem exec_kYield (n : Fin 96) (s : State) : exec (.kYield n) s = execKYield n s := rfl
@[simp] theorem exec_kHalt (n : Fin 96) (s : State) : exec (.kHalt n) s = execKHalt n s := rfl
@[simp] theorem exec_kRfh (n : Fin 96) (s : State) : exec (.kRfh n) s = execKRfh n s := rfl
@[simp] theorem exec_kCtxstart (n : Fin 96) (s : State) : exec (.kCtxstart n) s = execKCtxstart n s := rfl
@[simp] theorem exec_kCtxstop (n : Fin 96) (s : State) : exec (.kCtxstop n) s = execKCtxstop n s := rfl
@[simp] theorem exec_kPinr (n : Fin 96) (s : State) : exec (.kPinr n) s = execKPinr n s := rfl
@[simp] theorem exec_linkRetrain (s : State) : exec (.linkRetrain) s = execLinkRetrain s := rfl
@[simp] theorem exec_linkDown (s : State) : exec (.linkDown) s = execLinkDown s := rfl
@[simp] theorem exec_linkUp (rate : Fin 4) (width : Fin 3) (s : State) : exec (.linkUp rate width) s = execLinkUp rate width s := rfl
@[simp] theorem exec_functionLevelReset (s : State) : exec (.functionLevelReset) s = execFunctionLevelReset s := rfl
@[simp] theorem exec_phpRead (a : BitVec 15) (lost : Fin 4) (s : State) : exec (.phpRead a lost) s = execPhpRead a lost s := rfl
@[simp] theorem exec_phpWrite (a : BitVec 15) (v : BitVec 16) (both : Bool) (lost : Fin 4) (merged : Bool) (s : State) : exec (.phpWrite a v both lost merged) s = execPhpWrite a v both lost merged s := rfl
@[simp] theorem exec_phpTimeout (write : Bool) (s : State) : exec (.phpTimeout write) s = execPhpTimeout write s := rfl
@[simp] theorem exec_phpPageWrite (k : Fin 16) (v : W32) (s : State) : exec (.phpPageWrite k v) s = execPhpPageWrite k v s := rfl
@[simp] theorem exec_phpStatClr (s : State) : exec (.phpStatClr) s = execPhpStatClr s := rfl
@[simp] theorem exec_doorbell (n : Fin 64) (off : Fin 4096) (full : Bool) (v : W32) (merged : Bool) (s : State) : exec (.doorbell n off full v merged) s = execDoorbell n off full v merged s := rfl
@[simp] theorem exec_descriptorFetch (n : Fin 64) (lost : Fin 4) (s : State) : exec (.descriptorFetch n lost) s = execDescriptorFetch n lost s := rfl
@[simp] theorem exec_descNop (n : Fin 64) (s : State) : exec (.descNop n) s = execDescNop n s := rfl
@[simp] theorem exec_descCopy (n : Fin 64) (lost : Fin 4) (s : State) : exec (.descCopy n lost) s = execDescCopy n lost s := rfl
@[simp] theorem exec_descMsg (n : Fin 64) (s : State) : exec (.descMsg n) s = execDescMsg n s := rfl
@[simp] theorem exec_armShort (n : Fin 64) (s : State) : exec (.armShort n) s = execArmShort n s := rfl
@[simp] theorem exec_armInline (n : Fin 64) (s : State) : exec (.armInline n) s = execArmInline n s := rfl
@[simp] theorem exec_armImg (n : Fin 64) (lost : Fin 4) (s : State) : exec (.armImg n lost) s = execArmImg n lost s := rfl
@[simp] theorem exec_descCancel (n : Fin 64) (s : State) : exec (.descCancel n) s = execDescCancel n s := rfl
@[simp] theorem exec_tbWrite (n : Fin 64) (lost : Fin 4) (s : State) : exec (.tbWrite n lost) s = execTbWrite n lost s := rfl
@[simp] theorem exec_descLoad (n : Fin 64) (lost : Fin 4) (s : State) : exec (.descLoad n lost) s = execDescLoad n lost s := rfl
@[simp] theorem exec_descSheet (n : Fin 64) (s : State) : exec (.descSheet n) s = execDescSheet n s := rfl
@[simp] theorem exec_hostReadCompletion (k : Fin 4096) (ok : Bool) (data : List W64) (s : State) : exec (.hostReadCompletion k ok data) s = execHostReadCompletion k ok data s := rfl
@[simp] theorem exec_ringResume (w : Writer) (n : Fin 64) (s : State) : exec (.ringResume w n) s = execRingResume w n s := rfl
@[simp] theorem exec_ringAbort (w : Writer) (n : Fin 64) (s : State) : exec (.ringAbort w n) s = execRingAbort w n s := rfl
@[simp] theorem exec_ringEnable (w : Writer) (n : Fin 64) (s : State) : exec (.ringEnable w n) s = execRingEnable w n s := rfl
@[simp] theorem exec_ringDisable (w : Writer) (n : Fin 64) (s : State) : exec (.ringDisable w n) s = execRingDisable w n s := rfl
@[simp] theorem exec_ringStopDone (n : Fin 64) (s : State) : exec (.ringStopDone n) s = execRingStopDone n s := rfl
@[simp] theorem exec_ringCntClr (w : Writer) (n : Fin 64) (s : State) : exec (.ringCntClr w n) s = execRingCntClr w n s := rfl
@[simp] theorem exec_ringCfgWrite (w : Writer) (n : Fin 64) (base : Bool) (v : W64) (s : State) : exec (.ringCfgWrite w n base v) s = execRingCfgWrite w n base v s := rfl
@[simp] theorem exec_ringOwnWrite (w : Writer) (n : Fin 64) (v : W32) (s : State) : exec (.ringOwnWrite w n v) s = execRingOwnWrite w n v s := rfl
@[simp] theorem exec_vectorModTimer (n : Fin 64) (s : State) : exec (.vectorModTimer n) s = execVectorModTimer n s := rfl
@[simp] theorem exec_sheetCapture (s : State) : exec (.sheetCapture) s = execSheetCapture s := rfl
@[simp] theorem exec_sheetCfgWrite (w : Writer) (v : W32) (s : State) : exec (.sheetCfgWrite w v) s = execSheetCfgWrite w v s := rfl
@[simp] theorem exec_linkPrivWrite (w : Writer) (l : Fin 3) (v : W32) (s : State) : exec (.linkPrivWrite w l v) s = execLinkPrivWrite w l v s := rfl
@[simp] theorem exec_spaceWrite (w : Writer) (a : Fin 256) (v : W64) (s : State) : exec (.spaceWrite w a v) s = execSpaceWrite w a v s := rfl
@[simp] theorem exec_invAddress (w : Writer) (asid : Byte) (s : State) : exec (.invAddress w asid) s = execInvAddress w asid s := rfl
@[simp] theorem exec_invSpace (w : Writer) (asid : Byte) (s : State) : exec (.invSpace w asid) s = execInvSpace w asid s := rfl
@[simp] theorem exec_invAll (w : Writer) (asid : Byte) (s : State) : exec (.invAll w asid) s = execInvAll w asid s := rfl
@[simp] theorem exec_invalidateDone (s : State) : exec (.invalidateDone) s = execInvalidateDone s := rfl
@[simp] theorem exec_tableReadDone (k : Fin 16) (first own : W64) (err : Bool) (s : State) : exec (.tableReadDone k first own err) s = execTableReadDone k first own err s := rfl
@[simp] theorem exec_svnWrite (w : Writer) (v : W32) (s : State) : exec (.svnWrite w v) s = execSvnWrite w v s := rfl
@[simp] theorem exec_keyCommit (w : Writer) (k : Fin 4) (s : State) : exec (.keyCommit w k) s = execKeyCommit w k s := rfl
@[simp] theorem exec_bootLockWrite (w : Writer) (v : W32) (s : State) : exec (.bootLockWrite w v) s = execBootLockWrite w v s := rfl
@[simp] theorem exec_debugDisable (w : Writer) (s : State) : exec (.debugDisable w) s = execDebugDisable w s := rfl
@[simp] theorem exec_lifeStoreDone (s : State) : exec (.lifeStoreDone) s = execLifeStoreDone s := rfl
@[simp] theorem exec_wtuCntClr (w : Writer) (s : State) : exec (.wtuCntClr w) s = execWtuCntClr w s := rfl
@[simp] theorem exec_streamLeader (s : State) : exec (.streamLeader) s = execStreamLeader s := rfl
@[simp] theorem exec_recordNop (s : State) : exec (.recordNop) s = execRecordNop s := rfl
@[simp] theorem exec_framesRecord (s : State) : exec (.framesRecord) s = execFramesRecord s := rfl
@[simp] theorem exec_bankRecord (s : State) : exec (.bankRecord) s = execBankRecord s := rfl
@[simp] theorem exec_ememRecord (s : State) : exec (.ememRecord) s = execEmemRecord s := rfl
@[simp] theorem exec_regRecord (s : State) : exec (.regRecord) s = execRegRecord s := rfl
@[simp] theorem exec_sectionRecord (s : State) : exec (.sectionRecord) s = execSectionRecord s := rfl
@[simp] theorem exec_endRecord (s : State) : exec (.endRecord) s = execEndRecord s := rfl
@[simp] theorem exec_segmentTag (s : State) : exec (.segmentTag) s = execSegmentTag s := rfl
@[simp] theorem exec_streamTrailer (s : State) : exec (.streamTrailer) s = execStreamTrailer s := rfl
@[simp] theorem exec_streamSourceEnd (source : Fin 5) (s : State) : exec (.streamSourceEnd source) s = execStreamSourceEnd source s := rfl
@[simp] theorem exec_streamStallTimeout (s : State) : exec (.streamStallTimeout) s = execStreamStallTimeout s := rfl
@[simp] theorem exec_gateHigh (s : State) : exec (.gateHigh) s = execGateHigh s := rfl
@[simp] theorem exec_gateTimeout (s : State) : exec (.gateTimeout) s = execGateTimeout s := rfl
@[simp] theorem exec_startupOuts (s : State) : exec (.startupOuts) s = execStartupOuts s := rfl
@[simp] theorem exec_startupWrites (s : State) : exec (.startupWrites) s = execStartupWrites s := rfl
@[simp] theorem exec_startupResets (s : State) : exec (.startupResets) s = execStartupResets s := rfl
@[simp] theorem exec_resetWaveColumn (s : State) : exec (.resetWaveColumn) s = execResetWaveColumn s := rfl
@[simp] theorem exec_loadAbort (w : Writer) (s : State) : exec (.loadAbort w) s = execLoadAbort w s := rfl
@[simp] theorem exec_loadDiscard (w : Writer) (s : State) : exec (.loadDiscard w) s = execLoadDiscard w s := rfl
@[simp] theorem exec_configCheck (w : Writer) (s : State) : exec (.configCheck w) s = execConfigCheck w s := rfl
@[simp] theorem exec_configCheckDone (s : State) : exec (.configCheckDone) s = execConfigCheckDone s := rfl
@[simp] theorem exec_readback (w : Writer) (v : W32) (s : State) : exec (.readback w v) s = execReadback w v s := rfl
@[simp] theorem exec_nandOpDone (op : NandOp) (use : NandUse) (s : State) : exec (.nandOpDone op use) s = execNandOpDone op use s := rfl
@[simp] theorem exec_patrolRead (block : BitVec 24) (bits : Byte) (last : Bool) (s : State) : exec (.patrolRead block bits last) s = execPatrolRead block bits last s := rfl
@[simp] theorem exec_patrolGo (w : Writer) (s : State) : exec (.patrolGo w) s = execPatrolGo w s := rfl
@[simp] theorem exec_patrolPlaceSave (s : State) : exec (.patrolPlaceSave) s = execPatrolPlaceSave s := rfl
@[simp] theorem exec_arcRead (n : Fin 64) (lost : Fin 4) (s : State) : exec (.arcRead n lost) s = execArcRead n lost s := rfl
@[simp] theorem exec_arcWrite (n : Fin 64) (lost : Fin 4) (s : State) : exec (.arcWrite n lost) s = execArcWrite n lost s := rfl
@[simp] theorem exec_arcTrim (n : Fin 64) (s : State) : exec (.arcTrim n) s = execArcTrim n s := rfl
@[simp] theorem exec_recRead (n : Fin 64) (lost : Fin 4) (s : State) : exec (.recRead n lost) s = execRecRead n lost s := rfl
@[simp] theorem exec_recWrite (n : Fin 64) (lost : Fin 4) (s : State) : exec (.recWrite n lost) s = execRecWrite n lost s := rfl
@[simp] theorem exec_recDelete (n : Fin 64) (s : State) : exec (.recDelete n) s = execRecDelete n s := rfl
@[simp] theorem exec_imgOpen (n : Fin 64) (s : State) : exec (.imgOpen n) s = execImgOpen n s := rfl
@[simp] theorem exec_imgWrite (n : Fin 64) (lost : Fin 4) (s : State) : exec (.imgWrite n lost) s = execImgWrite n lost s := rfl
@[simp] theorem exec_imgCommit (n : Fin 64) (s : State) : exec (.imgCommit n) s = execImgCommit n s := rfl
@[simp] theorem exec_imgRead (n : Fin 64) (lost : Fin 4) (s : State) : exec (.imgRead n lost) s = execImgRead n lost s := rfl
@[simp] theorem exec_slotSelect (n : Fin 64) (s : State) : exec (.slotSelect n) s = execSlotSelect n s := rfl
@[simp] theorem exec_loadSlot (n : Fin 64) (s : State) : exec (.loadSlot n) s = execLoadSlot n s := rfl
@[simp] theorem exec_arcFormat (n : Fin 64) (s : State) : exec (.arcFormat n) s = execArcFormat n s := rfl
@[simp] theorem exec_archiveEnable (w : Writer) (s : State) : exec (.archiveEnable w) s = execArchiveEnable w s := rfl
@[simp] theorem exec_archiveDisable (w : Writer) (s : State) : exec (.archiveDisable w) s = execArchiveDisable w s := rfl
@[simp] theorem exec_archiveStopDone (s : State) : exec (.archiveStopDone) s = execArchiveStopDone s := rfl
@[simp] theorem exec_arcIfWrite (w : Writer) (v : W32) (s : State) : exec (.arcIfWrite w v) s = execArcIfWrite w v s := rfl
@[simp] theorem exec_arcCfgWrite (w : Writer) (v : W32) (s : State) : exec (.arcCfgWrite w v) s = execArcCfgWrite w v s := rfl
@[simp] theorem exec_arcCntClr (w : Writer) (s : State) : exec (.arcCntClr w) s = execArcCntClr w s := rfl
@[simp] theorem exec_powerValid (straps : Byte) (held : Bool) (s : State) : exec (.powerValid straps held) s = execPowerValid straps held s := rfl
@[simp] theorem exec_xresetRise (straps : Byte) (s : State) : exec (.xresetRise straps) s = execXresetRise straps s := rfl
@[simp] theorem exec_xresetAssert (s : State) : exec (.xresetAssert) s = execXresetAssert s := rfl
@[simp] theorem exec_startWarm (w : Writer) (s : State) : exec (.startWarm w) s = execStartWarm w s := rfl
@[simp] theorem exec_startReload (w : Writer) (s : State) : exec (.startReload w) s = execStartReload w s := rfl
@[simp] theorem exec_startCold (w : Writer) (s : State) : exec (.startCold w) s = execStartCold w s := rfl
@[simp] theorem exec_bootConfirm (w : Writer) (s : State) : exec (.bootConfirm w) s = execBootConfirm w s := rfl
@[simp] theorem exec_confirmTimeoutExpiry (s : State) : exec (.confirmTimeoutExpiry) s = execConfirmTimeoutExpiry s := rfl
@[simp] theorem exec_startDoneTimeout (s : State) : exec (.startDoneTimeout) s = execStartDoneTimeout s := rfl
@[simp] theorem exec_startRetry (s : State) : exec (.startRetry) s = execStartRetry s := rfl
@[simp] theorem exec_confirmTmoWrite (w : Writer) (v : BitVec 16) (s : State) : exec (.confirmTmoWrite w v) s = execConfirmTmoWrite w v s := rfl
@[simp] theorem exec_operatingHour (s : State) : exec (.operatingHour) s = execOperatingHour s := rfl
@[simp] theorem exec_bistSector (w : Writer) (k : Fin 128) (s : State) : exec (.bistSector w k) s = execBistSector w k s := rfl
@[simp] theorem exec_bistEngine (w : Writer) (k : Fin 128) (s : State) : exec (.bistEngine w k) s = execBistEngine w k s := rfl
@[simp] theorem exec_bistAnalog (w : Writer) (k : Fin 128) (s : State) : exec (.bistAnalog w k) s = execBistAnalog w k s := rfl
@[simp] theorem exec_bistDevice (w : Writer) (s : State) : exec (.bistDevice w) s = execBistDevice w s := rfl
@[simp] theorem exec_bistUnitDone (h : Fin 2) (failed : Bool) (fails : List W64) (s : State) : exec (.bistUnitDone h failed fails) s = execBistUnitDone h failed fails s := rfl
@[simp] theorem exec_densitometerSweep (h : Fin 2) (ms : List (Fin 5120 × Int)) (bad : List (Fin 1280)) (s : State) : exec (.densitometerSweep h ms bad) s = execDensitometerSweep h ms bad s := rfl
@[simp] theorem exec_healthCfgWrite (w : Writer) (v : W32) (s : State) : exec (.healthCfgWrite w v) s = execHealthCfgWrite w v s := rfl
@[simp] theorem exec_enginePathMonitor (n : Fin 96) (low : Bool) (s : State) : exec (.enginePathMonitor n low) s = execEnginePathMonitor n low s := rfl
@[simp] theorem exec_fixGo (w : Writer) (s : State) : exec (.fixGo w) s = execFixGo w s := rfl
@[simp] theorem exec_substitutionDone (h : Fin 2) (s : State) : exec (.substitutionDone h) s = execSubstitutionDone h s := rfl
@[simp] theorem exec_supplyLowDetect (vsup : BitVec 10) (s : State) : exec (.supplyLowDetect vsup) s = execSupplyLowDetect vsup s := rfl
@[simp] theorem exec_brownOut (s : State) : exec (.brownOut) s = execBrownOut s := rfl
@[simp] theorem exec_tempUpdate (west east : BitVec 10) (s : State) : exec (.tempUpdate west east) s = execTempUpdate west east s := rfl
@[simp] theorem exec_backlogInterval (h : Fin 2) (backlog : Fin 1001) (s : State) : exec (.backlogInterval h backlog) s = execBacklogInterval h backlog s := rfl
@[simp] theorem exec_phaseMonitor (h : Fin 2) (k : Fin 4) (s : State) : exec (.phaseMonitor h k) s = execPhaseMonitor h k s := rfl
@[simp] theorem exec_vfabWrite (w : Writer) (h : Fin 2) (v : W32) (s : State) : exec (.vfabWrite w h v) s = execVfabWrite w h v s := rfl
@[simp] theorem exec_reqRun (w : Writer) (s : State) : exec (.reqRun w) s = execReqRun w s := rfl
@[simp] theorem exec_reqIdle (w : Writer) (s : State) : exec (.reqIdle w) s = execReqIdle w s := rfl
@[simp] theorem exec_reqSafelight (w : Writer) (s : State) : exec (.reqSafelight w) s = execReqSafelight w s := rfl
@[simp] theorem exec_reqDark (w : Writer) (s : State) : exec (.reqDark w) s = execReqDark w s := rfl
@[simp] theorem exec_powerEntryDone (s : State) : exec (.powerEntryDone) s = execPowerEntryDone s := rfl
@[simp] theorem exec_wakeNEdge (s : State) : exec (.wakeNEdge) s = execWakeNEdge s := rfl
@[simp] theorem exec_wakePortEdge (k : Fin 4) (rising : Bool) (s : State) : exec (.wakePortEdge k rising) s = execWakePortEdge k rising s := rfl
@[simp] theorem exec_wakeTbRange (j : Fin 2) (s : State) : exec (.wakeTbRange j) s = execWakeTbRange j s := rfl
@[simp] theorem exec_wakeDt (s : State) : exec (.wakeDt) s = execWakeDt s := rfl
@[simp] theorem exec_hostRequestWake (s : State) : exec (.hostRequestWake) s = execHostRequestWake s := rfl
@[simp] theorem exec_activityWake (s : State) : exec (.activityWake) s = execActivityWake s := rfl
@[simp] theorem exec_powerWakeDone (s : State) : exec (.powerWakeDone) s = execPowerWakeDone s := rfl
@[simp] theorem exec_vbankWrite (w : Writer) (b : Fin 4) (v : W32) (s : State) : exec (.vbankWrite w b v) s = execVbankWrite w b v s := rfl
@[simp] theorem exec_vbankSave (w : Writer) (b : Fin 4) (s : State) : exec (.vbankSave w b) s = execVbankSave w b s := rfl
@[simp] theorem exec_supplyCfgWrite (w : Writer) (v : W32) (s : State) : exec (.supplyCfgWrite w v) s = execSupplyCfgWrite w v s := rfl
@[simp] theorem exec_tempPeakClr (w : Writer) (s : State) : exec (.tempPeakClr w) s = execTempPeakClr w s := rfl
@[simp] theorem exec_pinCfgWrite (w : Writer) (n : Fin 144) (v : W32) (s : State) : exec (.pinCfgWrite w n v) s = execPinCfgWrite w n v s := rfl
@[simp] theorem exec_pinMuxWrite (w : Writer) (n : Fin 144) (v : W32) (s : State) : exec (.pinMuxWrite w n v) s = execPinMuxWrite w n v s := rfl
@[simp] theorem exec_pinSwitchEdge (n : Fin 144) (s : State) : exec (.pinSwitchEdge n) s = execPinSwitchEdge n s := rfl
@[simp] theorem exec_pinOvlWrite (w : Writer) (n : Fin 144) (v : W32) (s : State) : exec (.pinOvlWrite w n v) s = execPinOvlWrite w n v s := rfl
@[simp] theorem exec_pinOwnWrite (w : Writer) (n : Fin 144) (v : W32) (s : State) : exec (.pinOwnWrite w n v) s = execPinOwnWrite w n v s := rfl
@[simp] theorem exec_pinOutWrite (w : Writer) (n : Fin 144) (v : W32) (s : State) : exec (.pinOutWrite w n v) s = execPinOutWrite w n v s := rfl
@[simp] theorem exec_pinPwmWrite (w : Writer) (n : Fin 144) (v : W32) (s : State) : exec (.pinPwmWrite w n v) s = execPinPwmWrite w n v s := rfl
@[simp] theorem exec_pinInputChange (n : Fin 144) (b level : Bool) (s : State) : exec (.pinInputChange n b level) s = execPinInputChange n b level s := rfl
@[simp] theorem exec_debounceExpiry (n : Fin 144) (b : Bool) (s : State) : exec (.debounceExpiry n b) s = execDebounceExpiry n b s := rfl
@[simp] theorem exec_lineFaultDetect (n : Fin 144) (on : Bool) (s : State) : exec (.lineFaultDetect n on) s = execLineFaultDetect n on s := rfl
@[simp] theorem exec_sliceDriveCheck (n : Fin 144) (b overload : Bool) (s : State) : exec (.sliceDriveCheck n b overload) s = execSliceDriveCheck n b overload s := rfl
@[simp] theorem exec_dacCodeWrite (w : Writer) (k : Fin 16) (v : W32) (s : State) : exec (.dacCodeWrite w k v) s = execDacCodeWrite w k v s := rfl
@[simp] theorem exec_dacCfgWrite (w : Writer) (k : Fin 16) (v : W32) (s : State) : exec (.dacCfgWrite w k v) s = execDacCfgWrite w k v s := rfl
@[simp] theorem exec_ainCfgWrite (w : Writer) (k : Fin 16) (v : W32) (s : State) : exec (.ainCfgWrite w k v) s = execAinCfgWrite w k v s := rfl
@[simp] theorem exec_pinSave (w : Writer) (s : State) : exec (.pinSave w) s = execPinSave w s := rfl
@[simp] theorem exec_laneCntClr (w : Writer) (s : State) : exec (.laneCntClr w) s = execLaneCntClr w s := rfl
@[simp] theorem exec_laneEnable (w : Writer) (l : Fin 4) (v : W32) (s : State) : exec (.laneEnable w l v) s = execLaneEnable w l v s := rfl
@[simp] theorem exec_laneDisable (w : Writer) (l : Fin 4) (v : W32) (s : State) : exec (.laneDisable w l v) s = execLaneDisable w l v s := rfl
@[simp] theorem exec_laneStopDone (l : Fin 4) (s : State) : exec (.laneStopDone l) s = execLaneStopDone l s := rfl
@[simp] theorem exec_laneLinkLoss (l : Fin 4) (codes : BitVec 16) (s : State) : exec (.laneLinkLoss l codes) s = execLaneLinkLoss l codes s := rfl
@[simp] theorem exec_identMsg (l : Fin 2) (identity : W32) (index : Byte) (ack good : Bool) (s : State) : exec (.identMsg l identity index ack good) s = execIdentMsg l identity index ack good s := rfl
@[simp] theorem exec_timeMsg (l : Fin 2) (tSend tEcho tRecv d : W64) (good : Bool) (s : State) : exec (.timeMsg l tSend tEcho tRecv d good) s = execTimeMsg l tSend tEcho tRecv d good s := rfl
@[simp] theorem exec_timeSendTimer (l : Fin 2) (s : State) : exec (.timeSendTimer l) s = execTimeSendTimer l s := rfl
@[simp] theorem exec_streamMsg (seq : BitVec 16) (data : List Byte) (good : Bool) (s : State) : exec (.streamMsg seq data good) s = execStreamMsg seq data good s := rfl
@[simp] theorem exec_ackMsg (seq : BitVec 16) (credits : Byte) (nak good : Bool) (s : State) : exec (.ackMsg seq credits nak good) s = execAckMsg seq credits nak good s := rfl
@[simp] theorem exec_eosMsg (total : W64) (good : Bool) (s : State) : exec (.eosMsg total good) s = execEosMsg total good s := rfl
@[simp] theorem exec_streamAckTimeout (s : State) : exec (.streamAckTimeout) s = execStreamAckTimeout s := rfl
@[simp] theorem exec_laneWordRx (l : Fin 2) (v : W64) (sync : BitVec 2) (s : State) : exec (.laneWordRx l v sync) s = execLaneWordRx l v sync s := rfl
@[simp] theorem exec_laneWordTx (l : Fin 2) (s : State) : exec (.laneWordTx l) s = execLaneWordTx l s := rfl
@[simp] theorem exec_jtagReset (s : State) : exec (.jtagReset) s = execJtagReset s := rfl
@[simp] theorem exec_jtagExtest (balls shifted : Nat) (s : State) : exec (.jtagExtest balls shifted) s = execJtagExtest balls shifted s := rfl
@[simp] theorem exec_jtagSamplePreload (balls shifted : Nat) (s : State) : exec (.jtagSamplePreload balls shifted) s = execJtagSamplePreload balls shifted s := rfl
@[simp] theorem exec_jtagIdcode (s : State) : exec (.jtagIdcode) s = execJtagIdcode s := rfl
@[simp] theorem exec_jtagBypass (code : Byte) (s : State) : exec (.jtagBypass code) s = execJtagBypass code s := rfl
@[simp] theorem exec_cfgLoad (bs : List Byte) (s : State) : exec (.cfgLoad bs) s = execCfgLoad bs s := rfl
@[simp] theorem exec_cfgRead (sel : BitVec 16) (s : State) : exec (.cfgRead sel) s = execCfgRead sel s := rfl
@[simp] theorem exec_setupRwRead (bar2 : Bool) (word : BitVec 23) (lost : Fin 4) (s : State) : exec (.setupRwRead bar2 word lost) s = execSetupRwRead bar2 word lost s := rfl
@[simp] theorem exec_setupRwWrite (bar2 : Bool) (word : BitVec 23) (v : W32) (lost : Fin 4) (s : State) : exec (.setupRwWrite bar2 word v lost) s = execSetupRwWrite bar2 word v lost s := rfl
@[simp] theorem exec_laneLock (l : Fin 4) (s : State) : exec (.laneLock l) s = execLaneLock l s := rfl
@[simp] theorem exec_timeMissing (l : Fin 2) (s : State) : exec (.timeMissing l) s = execTimeMissing l s := rfl
@[simp] theorem exec_identSendTimer (l : Fin 2) (s : State) : exec (.identSendTimer l) s = execIdentSendTimer l s := rfl
@[simp] theorem exec_ackSendTimer (s : State) : exec (.ackSendTimer) s = execAckSendTimer s := rfl
@[simp] theorem exec_activeClockEdge (n : Fin 655360) (a b c d : Bool) (s : State) : exec (.activeClockEdge n a b c d) s = execActiveClockEdge n a b c d s := rfl
@[simp] theorem exec_pwmPeriod (n : Fin 144) (s : State) : exec (.pwmPeriod n) s = execPwmPeriod n s := rfl
@[simp] theorem exec_railSlewDone (r : Fin 6) (s : State) : exec (.railSlewDone r) s = execRailSlewDone r s := rfl

end Sys2Proof.Machine
end

