-- ==== Sys2Proof/Laws/Memory.lean ====
section
/-! SUPPORT. The addressed RAM by bytes: what is read after bytes are written, and the canonical form kept. -/

namespace Sys2Proof.Machine

/-- One byte written: it reads what was written. -/
theorem Memory.get_setByte_self {m : List Host.Cell} (h : Memory.wf m = true) (a : Nat) (b : Byte) :
    Tab.get 0 (setByte m a b) a = b :=
  Tab.get_set_self _ _ _ ((Tab.wf_iff _ _).1 h).1

/-- Every other byte reads as before. -/
theorem Memory.get_setByte_ne (m : List Host.Cell) {a a' : Nat} (b : Byte) (h : a' ≠ a) :
    Tab.get 0 (setByte m a b) a' = Tab.get 0 m a' :=
  Tab.get_set_ne _ _ h _

/-- The canonical form is kept by one byte written, -/
theorem Memory.wf_byte {m : List Host.Cell} (h : Memory.wf m = true) (a : Nat) (b : Byte) :
    Memory.wf (setByte m a b) = true :=
  Tab.wf_set 0 h a b

/-- and by any number of them. -/
theorem Memory.wf_bytes : ∀ (bs : List Byte) {m : List Host.Cell} (a : Nat), Memory.wf m = true →
    Memory.wf (setBytes m a bs) = true
  | [], _, _, h => h
  | b :: bs, _, a, h => Memory.wf_bytes bs (a + 1) (Memory.wf_byte h a b)

/-- A byte outside the bytes written reads as before. -/
theorem Memory.get_setBytes_out : ∀ (bs : List Byte) (m : List Host.Cell) (a a' : Nat), a' < a ∨ a + bs.length ≤ a' →
    Tab.get 0 (setBytes m a bs) a' = Tab.get 0 m a'
  | [], _, _, _, _ => rfl
  | b :: bs, m, a, a', h => by
    simp only [List.length_cons] at h
    rw [setBytes, Memory.get_setBytes_out bs _ _ _ (by omega), Memory.get_setByte_ne _ _ (by omega)]

/-- The k-th byte written reads what was written there. -/
theorem Memory.get_setBytes_in : ∀ (bs : List Byte) (m : List Host.Cell) (a k : Nat), Memory.wf m = true → k < bs.length →
    Tab.get 0 (setBytes m a bs) (a + k) = bs.getD k 0
  | [], _, _, _, _, h => by simp at h
  | b :: bs, m, a, 0, hm, _ => by
    rw [setBytes, Memory.get_setBytes_out _ _ _ _ (by omega)]
    exact Memory.get_setByte_self hm a b
  | b :: bs, m, a, k + 1, hm, h => by
    rw [setBytes, show a + (k + 1) = a + 1 + k by omega,
      Memory.get_setBytes_in bs _ _ _ (Memory.wf_byte hm a b) (by simpa using h)]
    rfl

end Sys2Proof.Machine
end

