-- ==== Sys2Proof/Laws/Ok.lean ====
section
/-! SUPPORT. What every operation of the model keeps: a sound state (State.Inv) whose waiting commands are the same. Here
the relation itself and its laws for the shapes a definition is made of; the lemma of each operation stands in the files
Laws/Ok<Module>.lean. -/

namespace Sys2Proof.Machine

/-- A sound state with `q` waiting. -/
structure Ok (q : List Instr) (s : State) : Prop where
  queue : s.pending = q
  inv   : s.Inv

/-- An answer that is a next state, sound, with `q` waiting. -/
def OkOut (q : List Instr) (o : Out) : Prop := ∃ t, o = .next t ∧ Ok q t

/-- No state, or a sound one with `q` waiting. -/
def OkOpt (q : List Instr) (o : Option State) : Prop := ∀ t, o = some t → Ok q t

/-- The state of an operation's outcome. -/
def Res.state : Res → State
  | .done s _ => s
  | .again s => s
  | .wait s _ _ _ => s
  | .hold s => s
  | .fault s _ _ => s

/-- The outcome of an operation: its state is sound, with `q` waiting. -/
structure OkRes (q : List Instr) (r : Res) : Prop where
  ok : Ok q r.state

theorem OkRes.done {q : List Instr} {s : State} {pc : Option Nat} (h : Ok q s) : OkRes q (.done s pc) := ⟨h⟩
theorem OkRes.again {q : List Instr} {s : State} (h : Ok q s) : OkRes q (.again s) := ⟨h⟩
theorem OkRes.wait {q : List Instr} {s : State} {on ch : Nat} {t : W64} (h : Ok q s) : OkRes q (.wait s on ch t) := ⟨h⟩
theorem OkRes.hold {q : List Instr} {s : State} (h : Ok q s) : OkRes q (.hold s) := ⟨h⟩
theorem OkRes.fault {q : List Instr} {s : State} {code addr : Nat} (h : Ok q s) : OkRes q (.fault s code addr) := ⟨h⟩

theorem ok_done {q : List Instr} {r : Res} {s : State} {pc : Option Nat} (e : r = .done s pc) (h : OkRes q r) :
    Ok q s := by subst e; exact h.ok
theorem ok_again {q : List Instr} {r : Res} {s : State} (e : r = .again s) (h : OkRes q r) : Ok q s := by
  subst e; exact h.ok
theorem ok_wait {q : List Instr} {r : Res} {s : State} {on ch : Nat} {t : W64} (e : r = .wait s on ch t)
    (h : OkRes q r) : Ok q s := by subst e; exact h.ok
theorem ok_hold {q : List Instr} {r : Res} {s : State} (e : r = .hold s) (h : OkRes q r) : Ok q s := by
  subst e; exact h.ok
theorem ok_faultRes {q : List Instr} {r : Res} {s : State} {code addr : Nat} (e : r = .fault s code addr)
    (h : OkRes q r) : Ok q s := by subst e; exact h.ok

theorem OkOut.next {q : List Instr} {s : State} (h : Ok q s) : OkOut q (.next s) := ⟨s, rfl, h⟩

theorem OkOpt.some {q : List Instr} {s : State} (h : Ok q s) : OkOpt q (some s) := by
  intro t e; cases e; exact h

theorem OkOpt.none {q : List Instr} : OkOpt q none := by intro t e; cases e

theorem OkOpt.map {q : List Instr} {o : Option State} {f : State → State} (hf : ∀ s, Ok q s → Ok q (f s))
    (h : OkOpt q o) : OkOpt q (o.map f) := by
  intro t e
  cases o with
  | none => cases e
  | some s => cases e; exact hf s (h s rfl)

theorem ok_fst {q : List Instr} {α : Type} {p : State × α} {s : State} {a : α} (e : p = (s, a)) (h : Ok q p.1) :
    Ok q s := by subst e; exact h

theorem ok_opt {q : List Instr} {o : Option State} {s : State} (e : o = some s) (h : OkOpt q o) : Ok q s := h s e

theorem ok_ite {q : List Instr} {c : Prop} [Decidable c] {a b : State} (ha : Ok q a) (hb : Ok q b) :
    Ok q (if c then a else b) := by split <;> assumption

theorem okRes_ite {q : List Instr} {c : Prop} [Decidable c] {a b : Res} (ha : OkRes q a) (hb : OkRes q b) :
    OkRes q (if c then a else b) := by split <;> assumption

theorem okOpt_ite {q : List Instr} {c : Prop} [Decidable c] {a b : Option State} (ha : OkOpt q a) (hb : OkOpt q b) :
    OkOpt q (if c then a else b) := by split <;> assumption

theorem okOut_ite {q : List Instr} {c : Prop} [Decidable c] {a b : Out} (ha : OkOut q a) (hb : OkOut q b) :
    OkOut q (if c then a else b) := by split <;> assumption

theorem okFst_ite {q : List Instr} {α : Type} {c : Prop} [Decidable c] {a b : State × α} (ha : Ok q a.1)
    (hb : Ok q b.1) : Ok q (if c then a else b).1 := by split <;> assumption

/-- The machine right after reset is sound. -/
theorem State.inv_reset : State.reset.Inv :=
  ⟨⟨rfl, rfl, rfl, rfl⟩, ⟨fun _ h => (List.not_mem_nil h).elim, Nat.zero_le _, Nat.zero_le _, Nat.zero_le _,
    Nat.zero_le _⟩⟩

theorem ok_foldl {q : List Instr} {α : Type} {f : State → α → State} (hf : ∀ s x, Ok q s → Ok q (f s x)) :
    ∀ (l : List α) {s : State}, Ok q s → Ok q (l.foldl f s)
  | [], _, h => h
  | x :: l, _, h => ok_foldl hf l (hf _ x h)

/-- A fold over a list, the state beside something else. -/
theorem ok_foldlFst {q : List Instr} {α β : Type} {f : State × β → α → State × β}
    (hf : ∀ p x, Ok q p.1 → Ok q (f p x).1) : ∀ (l : List α) {p : State × β}, Ok q p.1 → Ok q (l.foldl f p).1
  | [], _, h => h
  | x :: l, _, h => ok_foldlFst hf l (hf _ x h)

/-- A state built from a sound one, the parts that soundness speaks of the same. -/
theorem ok_mk {q : List Instr} {s : State}
    {pending : List Instr} {freeCount : Nat} {regs : Tab W64} {mem : List Host.Cell} {dt : W64} {fine : BitVec 5} {sys :
    Sys} {lead : Lead} {rings : Tab RingHid} {jobs : Tab Job} {trans : List Trans} {wtu : Wtu} {spine : Spine} {parity :
    Tab Bool} {ecc : Tab Nat} {ques : Tab Que} {rsps : List Rsp} {hostOut : List HostOut} {tbs : Tab TbHid} {sched :
    Sched} {ctxs : Tab Ctx} {engs : Tab Eng} {clk : Clk} {ldr : Ldr} {arc : Arc} {sta : Sta} {hea : Hea} {pwr : Pwr}
    {pins : Tab PinHid} {lanes : Tab LaneHid} {laneOut : Tab (List LaneMsg)} {jtag : Jtag} {php : Php} {frames : Tab
    W64} {cells : Tab CellHid} {arbs : Tab Arb}
    (h : Ok q s) (hp : pending = s.pending) (hr : regs = s.regs) (hm : mem = s.mem) (hf : frames = s.frames)
    (he : engs = s.engs) (hw : sched.evtWest = s.sched.evtWest) (hx : sched.evtEast = s.sched.evtEast)
    (hl : hea.planned = s.hea.planned) (hh : ldr.held = s.ldr.held) :
    Ok q (State.mk pending freeCount regs mem dt fine sys lead rings jobs trans wtu spine parity ecc ques rsps hostOut tbs
      sched ctxs engs clk ldr arc sta hea pwr pins lanes laneOut jtag php frames cells arbs) := by
  subst hp hr hm hf he
  exact ⟨h.queue, ⟨⟨h.inv.1.1, h.inv.1.2, h.inv.1.3, h.inv.1.4⟩,
    ⟨h.inv.2.1, hw ▸ h.inv.2.2, hx ▸ h.inv.2.3, hl ▸ h.inv.2.4, hh ▸ h.inv.2.5⟩⟩⟩

theorem okRegs {q : List Instr} {s : State} (h : Ok q s) : Tab.wf 0 s.regs = true := h.inv.1.1
theorem okMem {q : List Instr} {s : State} (h : Ok q s) : Memory.wf s.mem = true := h.inv.1.2
theorem okFrames {q : List Instr} {s : State} (h : Ok q s) : Tab.wf 0 s.frames = true := h.inv.1.3
theorem okEngs {q : List Instr} {s : State} (h : Ok q s) : Tab.wf {} s.engs = true ∧ ∀ e ∈ s.engs, e.2.Within :=
  ⟨h.inv.1.4, h.inv.2.1⟩
theorem okWest {q : List Instr} {s : State} (h : Ok q s) : s.sched.evtWest.length ≤ 256 := h.inv.2.2
theorem okEast {q : List Instr} {s : State} (h : Ok q s) : s.sched.evtEast.length ≤ 256 := h.inv.2.3
theorem okPlanned {q : List Instr} {s : State} (h : Ok q s) : s.hea.planned.length ≤ 64 := h.inv.2.4
theorem okHeld {q : List Instr} {s : State} (h : Ok q s) : s.ldr.held.length ≤ 256 := h.inv.2.5

/-- A state built from a sound one: the parts that soundness speaks of are sound again. -/
theorem ok_mkBy {q : List Instr} {s : State}
    {pending : List Instr} {freeCount : Nat} {regs : Tab W64} {mem : List Host.Cell} {dt : W64} {fine : BitVec 5} {sys :
    Sys} {lead : Lead} {rings : Tab RingHid} {jobs : Tab Job} {trans : List Trans} {wtu : Wtu} {spine : Spine} {parity :
    Tab Bool} {ecc : Tab Nat} {ques : Tab Que} {rsps : List Rsp} {hostOut : List HostOut} {tbs : Tab TbHid} {sched :
    Sched} {ctxs : Tab Ctx} {engs : Tab Eng} {clk : Clk} {ldr : Ldr} {arc : Arc} {sta : Sta} {hea : Hea} {pwr : Pwr}
    {pins : Tab PinHid} {lanes : Tab LaneHid} {laneOut : Tab (List LaneMsg)} {jtag : Jtag} {php : Php} {frames : Tab
    W64} {cells : Tab CellHid} {arbs : Tab Arb}
    (h : Ok q s) (hp : pending = s.pending) (hr : Tab.wf 0 regs = true) (hm : Memory.wf mem = true)
    (hf : Tab.wf 0 frames = true) (he : Tab.wf {} engs = true ∧ ∀ e ∈ engs, e.2.Within) (hw : sched.evtWest.length ≤ 256)
    (hx : sched.evtEast.length ≤ 256) (hl : hea.planned.length ≤ 64) (hh : ldr.held.length ≤ 256) :
    Ok q (State.mk pending freeCount regs mem dt fine sys lead rings jobs trans wtu spine parity ecc ques rsps hostOut tbs
      sched ctxs engs clk ldr arc sta hea pwr pins lanes laneOut jtag php frames cells arbs) := by
  subst hp
  exact ⟨h.queue, ⟨⟨hr, hm, hf, he.1⟩, ⟨he.2, hw, hx, hl, hh⟩⟩⟩

theorem Tab.get_mem {α : Type} (d : α) (k : Nat) : ∀ t : Tab α, Tab.get d t k = d ∨ (k, Tab.get d t k) ∈ t
  | [] => .inl rfl
  | (a, v) :: t => by
    unfold Tab.get
    split
    · next h => subst h; exact .inr List.mem_cons_self
    · rcases Tab.get_mem d k t with h | h
      · exact .inl h
      · exact .inr (List.mem_cons_of_mem _ h)

theorem Tab.mem_set {α : Type} [DecidableEq α] (d : α) (k : Nat) (v : α) (e : Nat × α) {t : Tab α}
    (h : e ∈ Tab.set d t k v) : e = (k, v) ∨ e ∈ t := by
  unfold Tab.set at h
  split at h
  · exact .inr (Tab.mem_del k e h)
  · exact Tab.mem_put k v e h

theorem Eng.within_default : ({} : Eng).Within :=
  ⟨fun _ h => (List.not_mem_nil h).elim, fun _ h => (List.not_mem_nil h).elim, Nat.zero_le _, Nat.zero_le _⟩

/-- Every engine of a sound state is within its buffers. -/
theorem Ok.eng {q : List Instr} {s : State} (h : Ok q s) (n : Nat) : (s.eng n).Within := by
  unfold State.eng
  rcases Tab.get_mem ({} : Eng) n s.engs with e | e
  · rw [e]; exact Eng.within_default
  · exact h.inv.2.1 _ e

theorem Eng.within_ich {e : Eng} (h : e.Within) {k : Nat} {l : List W64} (hl : l.length ≤ 4) :
    Eng.Within { e with ich := Tab.set [] e.ich k l } :=
  ⟨fun c hc => (Tab.mem_set _ _ _ _ hc).elim (fun x => by rw [x]; exact hl) (h.1 c), h.2, h.3, h.4⟩

theorem Eng.within_och {e : Eng} (h : e.Within) {k : Nat} {l : List (Nat × W64)} (hl : l.length ≤ 4) :
    Eng.Within { e with och := Tab.set [] e.och k l } :=
  ⟨h.1, fun c hc => (Tab.mem_set _ _ _ _ hc).elim (fun x => by rw [x]; exact hl) (h.2 c), h.3, h.4⟩

/-- A channel of an engine of a sound state holds no more than 4 tokens. -/
theorem Ok.inCh {q : List Instr} {s : State} (h : Ok q s) (n k : Nat) : (s.inCh n k).length ≤ 4 := by
  unfold State.inCh
  rcases Tab.get_mem ([] : List W64) k (s.eng n).ich with e | e
  · rw [e]; exact Nat.zero_le _
  · exact (h.eng n).1 _ e

theorem Ok.outCh {q : List Instr} {s : State} (h : Ok q s) (n k : Nat) : (s.outCh n k).length ≤ 4 := by
  unfold State.outCh
  rcases Tab.get_mem ([] : List (Nat × W64)) k (s.eng n).och with e | e
  · rw [e]; exact Nat.zero_le _
  · exact (h.eng n).2 _ e

/-- The engines of a sound state: their table is canonical, and each is within its buffers. -/
theorem Ok.engines {q : List Instr} {s : State} (h : Ok q s) :
    Tab.wf {} s.engs = true ∧ ∀ e ∈ s.engs, e.2.Within := ⟨h.inv.1.4, h.inv.2.1⟩

/-- The engine just set reads as set. -/
theorem Ok.eng_setEng {q : List Instr} {s : State} (h : Ok q s) (n : Nat) (e : Eng) : (s.setEng n e).eng n = e := by
  have := Tab.get_set ({} : Eng) e n n ((Tab.wf_iff _ _).1 h.inv.1.4).1
  rw [if_pos rfl] at this
  exact this

theorem Memory.wf_nil : Memory.wf [] = true := rfl

theorem Memory.wf_setByte {m : List Host.Cell} (h : Memory.wf m = true) (a : Nat) (b : Byte) :
    Memory.wf (setByte m a b) = true := Tab.wf_set 0 h a b

theorem Memory.wf_setBytes : ∀ (l : List Byte) {m : List Host.Cell} (a : Nat), Memory.wf m = true →
    Memory.wf (setBytes m a l) = true
  | [], _, _, h => h
  | b :: l, _, a, h => Memory.wf_setBytes l (a + 1) (Memory.wf_setByte h a b)

end Sys2Proof.Machine
end

