-- ==== Sys2Proof/Laws/OkOps.lean ====
section
/-! SUPPORT. What the operations of Machine/Ops.lean keep: each takes a sound state with the same commands waiting to
such a state (see Laws/Ok.lean). -/

namespace Sys2Proof.Machine

theorem State.setReg_ok {qq : List Instr} (s : State) (r : Reg) (v : W64) (i : Nat) (j : Nat) (hs : Ok qq s) : Ok qq (State.setReg s r v i j) := by
  exact ok_mkBy hs rfl (Tab.wf_set 0 hs.inv.1.1 _ _) hs.inv.1.2 hs.inv.1.3 hs.engines hs.inv.2.2 hs.inv.2.3 hs.inv.2.4
    hs.inv.2.5

theorem State.setFld_ok {qq : List Instr} (s : State) (f : Fld) (v : Nat) (i : Nat) (j : Nat) (hs : Ok qq s) : Ok qq (State.setFld s f v i j) := by
  exact State.setReg_ok _ _ _ _ _ hs

theorem State.setFlag_ok {qq : List Instr} (s : State) (f : Fld) (b : Bool) (i : Nat) (j : Nat) (hs : Ok qq s) : Ok qq (State.setFlag s f b i j) := by
  exact State.setFld_ok _ _ _ _ _ hs

theorem State.bump_ok {qq : List Instr} (s : State) (f : Fld) (i : Nat) (j : Nat) (k : Nat) (hs : Ok qq s) : Ok qq (State.bump s f i j k) := by
  exact State.setFld_ok _ _ _ _ _ hs

theorem State.tookFree_ok {qq : List Instr} (s : State) (hs : Ok qq s) : Ok qq (State.tookFree s) := by
  unfold State.tookFree
  repeat' first
    | with_reducible exact ok_mk (by assumption) rfl rfl rfl rfl rfl rfl rfl rfl rfl

theorem State.accessError_ok {qq : List Instr} (s : State) (hs : Ok qq s) : Ok qq (State.accessError s) := by
  unfold State.accessError
  repeat' first
    | with_reducible exact ok_mk (by assumption) rfl rfl rfl rfl rfl rfl rfl rfl rfl

theorem State.setRing_ok {qq : List Instr} (s : State) (n : Nat) (h : RingHid) (hs : Ok qq s) : Ok qq (State.setRing s n h) := by
  unfold State.setRing
  repeat' first
    | with_reducible exact ok_mk (by assumption) rfl rfl rfl rfl rfl rfl rfl rfl rfl

theorem State.raiseVector_ok {qq : List Instr} (s : State) (v : Nat) (hs : Ok qq s) : Ok qq (State.raiseVector s v) := by
  unfold State.raiseVector
  repeat' first
    | with_reducible assumption
    | with_reducible exact ok_mk (by assumption) rfl rfl rfl rfl rfl rfl rfl rfl rfl
    | (extract_lets +onlyGivenNames x; refine have hx : Ok qq x := ?_; ?_; rotate_left; clear_value x; rotate_right; subst x)
    | with_reducible apply State.setFlag_ok
    | with_reducible apply State.setReg_ok
    | with_reducible apply ok_ite

theorem State.postWrite_ok {qq : List Instr} (s : State) (mover : Nat) (owner : Nat) (asid : Nat) (priv : Nat) (addr : Nat) (ws : List W64) (asker : Asker) (hs : Ok qq s) : Ok qq (State.postWrite s mover owner asid priv addr ws asker) := by
  unfold State.postWrite
  repeat' first
    | with_reducible exact ok_mk (by assumption) rfl rfl rfl rfl rfl rfl rfl rfl rfl

theorem State.putRecord_ok {qq : List Instr} (s : State) (n : Nat) (ws : List W64) (hs : Ok qq s) : Ok qq (State.putRecord s n ws) := by
  unfold State.putRecord
  repeat' first
    | with_reducible assumption
    | (extract_lets +onlyGivenNames x; refine have hx : Ok qq x := ?_; ?_; rotate_left; clear_value x; rotate_right; subst x)
    | (extract_lets +onlyGivenNames x; clear_value x)
    | with_reducible apply State.postWrite_ok
    | with_reducible apply State.setFld_ok
    | with_reducible apply State.setRing_ok
    | with_reducible apply State.raiseVector_ok
    | with_reducible apply ok_ite

theorem State.log_ok {qq : List Instr} (s : State) (alarm : Bool) (code : Nat) (src : Nat) (hs : Ok qq s) : Ok qq (State.log s alarm code src) := by
  unfold State.log
  repeat' first
    | with_reducible assumption
    | (extract_lets +onlyGivenNames x; refine have hx : Ok qq x := ?_; ?_; rotate_left; clear_value x; rotate_right; subst x)
    | (extract_lets +onlyGivenNames x; clear_value x)
    | with_reducible apply State.putRecord_ok
    | with_reducible apply State.setRing_ok
    | with_reducible apply State.bump_ok
    | with_reducible apply State.raiseVector_ok
    | with_reducible apply ok_ite

theorem State.notice_ok {qq : List Instr} (s : State) (code : Nat) (src : Nat) (hs : Ok qq s) : Ok qq (State.notice s code src) := by
  unfold State.notice
  repeat' first
    | with_reducible assumption
    | (extract_lets +onlyGivenNames x; refine have hx : Ok qq x := ?_; ?_; rotate_left; clear_value x; rotate_right; subst x)
    | with_reducible apply State.log_ok
    | with_reducible apply State.raiseVector_ok
    | with_reducible apply ok_ite

theorem State.noticeIf_ok {qq : List Instr} (s : State) (b : Bool) (code : Nat) (src : Nat) (hs : Ok qq s) : Ok qq (State.noticeIf s b code src) := by
  unfold State.noticeIf
  repeat' first
    | with_reducible assumption
    | with_reducible apply State.notice_ok
    | with_reducible apply ok_ite

theorem State.alarm_ok {qq : List Instr} (s : State) (bit : Nat) (code : Nat) (src : Nat) (hs : Ok qq s) : Ok qq (State.alarm s bit code src) := by
  unfold State.alarm
  repeat' first
    | with_reducible assumption
    | with_reducible exact ok_mk (by assumption) rfl rfl rfl rfl rfl rfl rfl rfl rfl
    | (extract_lets +onlyGivenNames x; refine have hx : Ok qq x := ?_; ?_; rotate_left; clear_value x; rotate_right; subst x)
    | (extract_lets +onlyGivenNames x; clear_value x)
    | with_reducible apply State.setFld_ok
    | with_reducible apply State.bump_ok
    | with_reducible apply State.log_ok

theorem State.deny_ok {qq : List Instr} (s : State) (code : Nat) (writer : Nat) (kind : Nat) (index : Nat) (hs : Ok qq s) : Ok qq (State.deny s code writer kind index) := by
  unfold State.deny
  repeat' first
    | with_reducible assumption
    | (extract_lets +onlyGivenNames x; refine have hx : Ok qq x := ?_; ?_; rotate_left; clear_value x; rotate_right; subst x)
    | with_reducible apply State.bump_ok
    | with_reducible apply State.setReg_ok
    | with_reducible apply State.noticeIf_ok
    | with_reducible apply ok_ite

theorem State.refuse_ok {qq : List Instr} (s : State) (r : Reg) (code : Nat) (index : Nat) (i : Nat) (top : Nat) (hs : Ok qq s) : Ok qq (State.refuse s r code index i top) := by
  unfold State.refuse
  repeat' first
    | with_reducible assumption
    | (extract_lets +onlyGivenNames x; clear_value x)
    | with_reducible apply State.setReg_ok

theorem State.refuseBank_ok {qq : List Instr} (s : State) (code : Nat) (index : Nat) (kind : Nat) (hs : Ok qq s) : Ok qq (State.refuseBank s code index kind) := by
  unfold State.refuseBank
  repeat' first
    | with_reducible assumption
    | with_reducible apply State.setReg_ok

theorem State.denyWarden_ok {qq : List Instr} (s : State) (w : Writer) (off : Nat) (hs : Ok qq s) : Ok qq (State.denyWarden s w off) := by
  unfold State.denyWarden
  repeat' first
    | with_reducible assumption
    | with_reducible apply State.deny_ok

theorem State.wardenOr_ok {qq : List Instr} (s : State) (w : Writer) (off : Nat) (f : State → State) (hs : Ok qq s) (hf : ∀ s, Ok qq s → Ok qq (f s)) : Ok qq (State.wardenOr s w off f) := by
  unfold State.wardenOr
  repeat' first
    | with_reducible assumption
    | with_reducible apply State.denyWarden_ok
    | with_reducible apply hf
    | with_reducible apply ok_ite

theorem State.denyLink_ok {qq : List Instr} (s : State) (w : Writer) (hs : Ok qq s) : Ok qq (State.denyLink s w) := by
  unfold State.denyLink
  repeat' first
    | with_reducible assumption
    | with_reducible apply State.deny_ok

theorem State.linked_ok {qq : List Instr} (s : State) (w : Writer) (off : Nat) (f : State → State) (hs : Ok qq s) (hf : ∀ s, Ok qq s → Ok qq (f s)) : Ok qq (State.linked s w off f) := by
  unfold State.linked
  repeat' first
    | with_reducible assumption
    | with_reducible apply State.denyLink_ok
    | with_reducible apply hf
    | with_reducible apply ok_ite

theorem State.raiseAction_ok {qq : List Instr} (s : State) (a : Action) (hs : Ok qq s) : Ok qq (State.raiseAction s a) := by
  unfold State.raiseAction
  repeat' first
    | with_reducible exact ok_mk (by assumption) rfl rfl rfl rfl rfl rfl rfl rfl rfl
    | (extract_lets +onlyGivenNames x; clear_value x)
    | with_reducible apply ok_ite

end Sys2Proof.Machine
end

