-- ==== Sys2Proof/Laws/OkCells.lean ====
section
/-! SUPPORT. What the operations of Machine/Cells.lean keep: each takes a sound state with the same commands waiting to
such a state (see Laws/Ok.lean). -/

namespace Sys2Proof.Machine

theorem State.setCell_ok {qq : List Instr} (s : State) (c : Nat) (x : CellHid) (hs : Ok qq s) : Ok qq (State.setCell s c x) := by
  unfold State.setCell
  repeat' first
    | with_reducible exact ok_mk (by assumption) rfl rfl rfl rfl rfl rfl rfl rfl rfl

theorem resetCell_ok {qq : List Instr} (s : State) (c : Nat) (hs : Ok qq s) : Ok qq (resetCell s c) := by
  unfold resetCell
  repeat' first
    | with_reducible assumption
    | (extract_lets +onlyGivenNames x; clear_value x)
    | with_reducible apply State.setCell_ok

theorem releaseCell_ok {qq : List Instr} (s : State) (c : Nat) (hs : Ok qq s) : Ok qq (releaseCell s c) := by
  unfold releaseCell
  repeat' first
    | with_reducible assumption
    | (extract_lets +onlyGivenNames x; clear_value x)
    | with_reducible apply State.setCell_ok
    | with_reducible apply ok_ite

theorem resetSector_ok {qq : List Instr} (s : State) (sec : Nat) (hs : Ok qq s) : Ok qq (resetSector s sec) := by
  unfold resetSector
  repeat' first
    | with_reducible assumption
    | with_reducible exact ok_mk (by assumption) rfl rfl rfl rfl rfl rfl rfl rfl rfl
    | (extract_lets +onlyGivenNames x; refine have hx : Ok qq x := ?_; ?_; rotate_left; clear_value x; rotate_right; subst x)
    | (extract_lets +onlyGivenNames x; clear_value x)
    | with_reducible apply resetCell_ok
    | with_reducible apply State.setCell_ok
    | (with_reducible refine ok_foldl ?_ _ ?_; intro _ _ _)

theorem releaseSector_ok {qq : List Instr} (s : State) (sec : Nat) (hs : Ok qq s) : Ok qq (releaseSector s sec) := by
  unfold releaseSector
  repeat' first
    | with_reducible assumption
    | with_reducible apply releaseCell_ok
    | (with_reducible refine ok_foldl ?_ _ ?_; intro _ _ _)

theorem applyUrst_ok {qq : List Instr} (sec : Nat) (on : Bool) (s : State) (hs : Ok qq s) : Ok qq (applyUrst sec on s) := by
  unfold applyUrst
  repeat' first
    | with_reducible assumption
    | (extract_lets +onlyGivenNames x; refine have hx : Ok qq x := ?_; ?_; rotate_left; clear_value x; rotate_right; subst x)
    | (extract_lets +onlyGivenNames x; clear_value x)
    | with_reducible apply State.setFlag_ok
    | with_reducible apply resetCell_ok
    | with_reducible apply releaseCell_ok
    | with_reducible apply ok_ite
    | (with_reducible refine ok_foldl ?_ _ ?_; intro _ _ _)

theorem sectorUrst_ok {qq : List Instr} (sec : Nat) (on : Bool) (s : State) (hs : Ok qq s) : Ok qq (sectorUrst sec on s) := by
  unfold sectorUrst
  repeat' first
    | with_reducible assumption
    | (extract_lets +onlyGivenNames x; refine have hx : Ok qq x := ?_; ?_; rotate_left; clear_value x; rotate_right; subst x)
    | with_reducible apply State.setFlag_ok
    | with_reducible apply applyUrst_ok
    | with_reducible apply ok_ite

theorem execSectorUrst_ok {qq : List Instr} (w : Writer) (sec : Fin 80) (on : Bool) (s : State) (hs : Ok qq s) : OkOut qq (execSectorUrst w sec on s) := by
  unfold execSectorUrst
  repeat' first
    | with_reducible assumption
    | with_reducible refine OkOut.next ?_
    | with_reducible apply State.linked_ok
    | with_reducible apply sectorUrst_ok

theorem cellRi_ok {qq : List Instr} (c : Nat) (on : Bool) (s : State) (hs : Ok qq s) : Ok qq (cellRi c on s) := by
  unfold cellRi
  repeat' first
    | with_reducible assumption
    | (extract_lets +onlyGivenNames x; refine have hx : Ok qq x := ?_; ?_; rotate_left; clear_value x; rotate_right; subst x)
    | (extract_lets +onlyGivenNames x; clear_value x)
    | with_reducible apply State.setCell_ok
    | with_reducible apply resetCell_ok
    | with_reducible apply releaseCell_ok
    | with_reducible apply ok_ite

theorem execCellResetInput_ok {qq : List Instr} (c : Fin 655360) (on : Bool) (s : State) (hs : Ok qq s) : OkOut qq (execCellResetInput c on s) := by
  unfold execCellResetInput
  repeat' first
    | with_reducible assumption
    | with_reducible refine OkOut.next ?_
    | with_reducible apply cellRi_ok

theorem execHandshakeWord_ok {qq : List Instr} (c : Fin 655360) (onZ : Bool) (s : State) (hs : Ok qq s) : OkOut qq (execHandshakeWord c onZ s) := by
  unfold execHandshakeWord
  repeat' first
    | with_reducible assumption
    | (extract_lets +onlyGivenNames x; clear_value x)
    | with_reducible refine OkOut.next ?_
    | with_reducible apply State.setCell_ok
    | with_reducible apply okOut_ite

theorem cellToken_ok {qq : List Instr} (n : Nat) (a : Option Bool) (b : Option Bool) (c : Option Bool) (d : Option Bool) (s : State) (hs : Ok qq s) : Ok qq (cellToken n a b c d s) := by
  unfold cellToken
  repeat' first
    | with_reducible assumption
    | (extract_lets +onlyGivenNames x; clear_value x)
    | with_reducible apply State.setCell_ok
    | with_reducible apply ok_ite
    | split

theorem execCellToken_ok {qq : List Instr} (n : Fin 655360) (a : Option Bool) (b : Option Bool) (c : Option Bool) (d : Option Bool) (s : State) (hs : Ok qq s) : OkOut qq (execCellToken n a b c d s) := by
  unfold execCellToken
  repeat' first
    | with_reducible assumption
    | with_reducible refine OkOut.next ?_
    | with_reducible apply cellToken_ok

theorem bundled_ok {qq : List Instr} (n : Nat) (a : Option Bool) (b : Option Bool) (c : Option Bool) (d : Option Bool) (s : State) (hs : Ok qq s) : Ok qq (bundled n a b c d s) := by
  unfold bundled
  repeat' first
    | with_reducible assumption
    | (extract_lets +onlyGivenNames x; clear_value x)
    | with_reducible apply State.setCell_ok
    | with_reducible apply ok_ite
    | split

theorem execBundledTransfer_ok {qq : List Instr} (n : Fin 655360) (a : Option Bool) (b : Option Bool) (c : Option Bool) (d : Option Bool) (s : State) (hs : Ok qq s) : OkOut qq (execBundledTransfer n a b c d s) := by
  unfold execBundledTransfer
  repeat' first
    | with_reducible assumption
    | with_reducible refine OkOut.next ?_
    | with_reducible apply bundled_ok

theorem clockEdge_ok {qq : List Instr} (n : Nat) (a : Bool) (b : Bool) (c : Bool) (d : Bool) (s : State) (hs : Ok qq s) : Ok qq (clockEdge n a b c d s) := by
  unfold clockEdge
  repeat' first
    | with_reducible assumption
    | (extract_lets +onlyGivenNames x; clear_value x)
    | with_reducible apply State.setCell_ok
    | with_reducible apply ok_ite

theorem execActiveClockEdge_ok {qq : List Instr} (n : Fin 655360) (a : Bool) (b : Bool) (c : Bool) (d : Bool) (s : State) (hs : Ok qq s) : OkOut qq (execActiveClockEdge n a b c d s) := by
  unfold execActiveClockEdge
  repeat' first
    | with_reducible assumption
    | with_reducible refine OkOut.next ?_
    | with_reducible apply clockEdge_ok

theorem execArbiterRequest_ok {qq : List Instr} (k : Fin 81920) (side1 : Bool) (s : State) (hs : Ok qq s) : OkOut qq (execArbiterRequest k side1 s) := by
  unfold execArbiterRequest
  repeat' first
    | with_reducible assumption
    | with_reducible exact ok_mk (by assumption) rfl rfl rfl rfl rfl rfl rfl rfl rfl
    | (extract_lets +onlyGivenNames x; clear_value x)
    | with_reducible refine OkOut.next ?_
    | with_reducible apply okOut_ite

theorem execArbiterRelease_ok {qq : List Instr} (k : Fin 81920) (side1 : Bool) (s : State) (hs : Ok qq s) : OkOut qq (execArbiterRelease k side1 s) := by
  unfold execArbiterRelease
  repeat' first
    | with_reducible assumption
    | with_reducible exact ok_mk (by assumption) rfl rfl rfl rfl rfl rfl rfl rfl rfl
    | (extract_lets +onlyGivenNames x; clear_value x)
    | with_reducible refine OkOut.next ?_
    | with_reducible apply okOut_ite

end Sys2Proof.Machine
end

