-- ==== Sys2Proof/Laws/OkDeliver.lean ====
section
/-! SUPPORT. What the operations of Machine/Deliver.lean keep: each takes a sound state with the same commands waiting to
such a state (see Laws/Ok.lean). -/

namespace Sys2Proof.Machine

theorem State.setMemWord_ok {qq : List Instr} (s : State) (a : Nat) (w : W64) (hs : Ok qq s) : Ok qq (State.setMemWord s a w) := by
  exact ok_mkBy hs rfl hs.inv.1.1 (Memory.wf_setBytes _ _ hs.inv.1.2) hs.inv.1.3 hs.engines hs.inv.2.2 hs.inv.2.3 hs.inv.2.4 hs.inv.2.5

theorem State.setMemWords_ok {qq : List Instr} (s : State) (a : Nat) (ws : List W64) (hs : Ok qq s) : Ok qq (State.setMemWords s a ws) := by
  exact ok_mkBy hs rfl hs.inv.1.1 (Memory.wf_setBytes _ _ hs.inv.1.2) hs.inv.1.3 hs.engines hs.inv.2.2 hs.inv.2.3 hs.inv.2.4 hs.inv.2.5

theorem State.setEng_ok {qq : List Instr} (s : State) (n : Nat) (e : Eng) (hs : Ok qq s) (he : e.Within) : Ok qq (State.setEng s n e) := by
  refine ok_mkBy hs rfl hs.inv.1.1 hs.inv.1.2 hs.inv.1.3 ⟨Tab.wf_set _ hs.inv.1.4 _ _, fun m hm => ?_⟩ hs.inv.2.2 hs.inv.2.3 hs.inv.2.4 hs.inv.2.5
  rcases Tab.mem_set _ _ _ _ hm with e | e
  · rw [e]; exact he
  · exact hs.inv.2.1 m e

theorem State.setCtx_ok {qq : List Instr} (s : State) (n : Nat) (c : Nat) (x : Ctx) (hs : Ok qq s) : Ok qq (State.setCtx s n c x) := by
  unfold State.setCtx
  repeat' first
    | with_reducible exact ok_mk (by assumption) rfl rfl rfl rfl rfl rfl rfl rfl rfl

theorem State.setCtxState_ok {qq : List Instr} (s : State) (n : Nat) (c : Nat) (st : Nat) (hs : Ok qq s) : Ok qq (State.setCtxState s n c st) := by
  unfold State.setCtxState
  repeat' first
    | with_reducible assumption
    | (extract_lets +onlyGivenNames x; refine have hx : Ok qq x := ?_; ?_; rotate_left; clear_value x; rotate_right; subst x)
    | with_reducible apply State.setFld_ok
    | with_reducible apply State.setFlag_ok
    | with_reducible apply ok_ite

theorem State.wakeCtx_ok {qq : List Instr} (s : State) (n : Nat) (c : Nat) (on : Nat) (hs : Ok qq s) : Ok qq (State.wakeCtx s n c on) := by
  unfold State.wakeCtx
  repeat' first
    | with_reducible assumption
    | (extract_lets +onlyGivenNames x; clear_value x)
    | with_reducible apply State.setCtx_ok
    | with_reducible apply State.setCtxState_ok
    | with_reducible apply ok_ite

theorem evqWrite_ok {qq : List Instr} (n : Nat) (c : Nat) (ws : List W64) (s : State) (hs : Ok qq s) : Ok qq (evqWrite n c ws s) := by
  unfold evqWrite
  extract_lets e i w3 s1 s2 s3
  have h1 : Ok qq s1 := State.setMemWords_ok _ _ _ hs
  have h2 : Ok qq s2 := State.setEng_ok _ _ _ h1 ⟨(hs.eng n).1, (hs.eng n).2, (hs.eng n).3, (hs.eng n).4⟩
  exact State.wakeCtx_ok _ _ _ _ (State.setFld_ok _ _ _ _ _ h2)

theorem evqLost_ok {qq : List Instr} (n : Nat) (c : Nat) (s : State) (hs : Ok qq s) : Ok qq (evqLost n c s) := by
  unfold evqLost
  repeat' first
    | with_reducible assumption
    | with_reducible apply State.noticeIf_ok
    | with_reducible apply State.bump_ok

theorem deliverEvq_ok {qq : List Instr} (n : Nat) (c : Nat) (ws : List W64) (s : State) (hs : Ok qq s) : Ok qq (deliverEvq n c ws s) := by
  unfold deliverEvq
  split
  · exact evqLost_ok _ _ _ hs
  · extract_lets e
    split
    · exact evqWrite_ok _ _ _ _ hs
    · split
      · next hl =>
        refine State.setEng_ok _ _ _ hs ⟨(hs.eng n).1, (hs.eng n).2, (hs.eng n).3, ?_⟩
        rw [List.length_append]
        exact hl
      · exact evqLost_ok _ _ _ hs

theorem deliverRecord_ok {qq : List Instr} (h : Nat) (ring : Nat) (ws : List W64) (s : State) (hs : Ok qq s) : Ok qq (deliverRecord h ring ws s) := by
  unfold deliverRecord
  extract_lets c l
  split
  · exact State.bump_ok _ _ _ _ _ hs
  · split
    · exact State.putRecord_ok _ _ _ hs
    · split
      · next hl =>
        have hlen : (l ++ [(c, ws)]).length ≤ 256 := by rw [List.length_append]; exact hl
        unfold Sched.setEvt
        split
        · exact ok_mkBy hs rfl hs.inv.1.1 hs.inv.1.2 hs.inv.1.3 hs.engines hlen hs.inv.2.3 hs.inv.2.4 hs.inv.2.5
        · exact ok_mkBy hs rfl hs.inv.1.1 hs.inv.1.2 hs.inv.1.3 hs.engines hs.inv.2.2 hlen hs.inv.2.4 hs.inv.2.5
      · exact State.notice_ok _ _ _ (State.bump_ok _ _ _ _ _ hs)

theorem State.setChan_ok {qq : List Instr} (s : State) (k : Nat) (c : Chan) (hs : Ok qq s) : Ok qq (State.setChan s k c) := by
  unfold State.setChan
  repeat' first
    | with_reducible exact ok_mk (by assumption) rfl rfl rfl rfl rfl rfl rfl rfl rfl

theorem deliverWord_ok {qq : List Instr} (k : Nat) (w : W64) (s : State) (hs : Ok qq s) : Ok qq (deliverWord k w s) := by
  unfold deliverWord
  repeat' first
    | with_reducible assumption
    | (extract_lets +onlyGivenNames x; refine have hx : Ok qq x := ?_; ?_; rotate_left; clear_value x; rotate_right; subst x)
    | (extract_lets +onlyGivenNames x; clear_value x)
    | with_reducible apply State.bump_ok
    | with_reducible apply State.setChan_ok
    | with_reducible apply ok_ite

theorem deliverCompl_ok {qq : List Instr} (armer : Armer) (k : Compl) (s : State) (hs : Ok qq s) : Ok qq (deliverCompl armer k s) := by
  unfold deliverCompl
  repeat' first
    | with_reducible assumption
    | with_reducible apply deliverRecord_ok
    | with_reducible apply deliverEvq_ok
    | with_reducible apply deliverWord_ok
    | split

end Sys2Proof.Machine
end

