-- ==== Sys2Proof/Laws/OkClocks.lean ====
section
/-! SUPPORT. What the operations of Machine/Clocks.lean keep: each takes a sound state with the same commands waiting to
such a state (see Laws/Ok.lean). -/

namespace Sys2Proof.Machine

theorem State.setPhase_ok {qq : List Instr} (s : State) (p : Nat) (hs : Ok qq s) : Ok qq (State.setPhase s p) := by
  unfold State.setPhase
  repeat' first
    | with_reducible assumption
    | with_reducible apply State.setFld_ok

theorem State.setReady_ok {qq : List Instr} (s : State) (k : Nat) (b : Bool) (hs : Ok qq s) : Ok qq (State.setReady s k b) := by
  unfold State.setReady
  repeat' first
    | with_reducible assumption
    | with_reducible apply State.setReg_ok

theorem setDegraded_ok {qq : List Instr} (b : Bool) (s : State) (hs : Ok qq s) : Ok qq (setDegraded b s) := by
  unfold setDegraded
  repeat' first
    | with_reducible assumption
    | (extract_lets +onlyGivenNames x; refine have hx : Ok qq x := ?_; ?_; rotate_left; clear_value x; rotate_right; subst x)
    | with_reducible apply State.setFlag_ok
    | (with_reducible refine ok_foldl ?_ _ ?_; intro _ _ _)

theorem clkRefused_ok {qq : List Instr} (code : Nat) (cause : Nat) (g : Nat) (s : State) (hs : Ok qq s) : Ok qq (clkRefused code cause g s) := by
  unfold clkRefused
  repeat' first
    | with_reducible assumption
    | with_reducible apply State.refuse_ok

theorem switchRefused_ok {qq : List Instr} (cause : Nat) (s : State) (hs : Ok qq s) : Ok qq (switchRefused cause s) := by
  unfold switchRefused
  repeat' first
    | with_reducible assumption
    | with_reducible apply State.noticeIf_ok
    | with_reducible apply clkRefused_ok

theorem dropClockAction_ok {qq : List Instr} (s : State) (hs : Ok qq s) : Ok qq (dropClockAction s) := by
  unfold dropClockAction
  repeat' first
    | with_reducible exact ok_mk (by assumption) rfl rfl rfl rfl rfl rfl rfl rfl rfl

theorem clockLoss_ok {qq : List Instr} (cause : Nat) (s : State) (hs : Ok qq s) : Ok qq (clockLoss cause s) := by
  unfold clockLoss
  repeat' first
    | with_reducible assumption
    | with_reducible exact ok_mk (by assumption) rfl rfl rfl rfl rfl rfl rfl rfl rfl
    | (extract_lets +onlyGivenNames x; refine have hx : Ok qq x := ?_; ?_; rotate_left; clear_value x; rotate_right; subst x)
    | (extract_lets +onlyGivenNames x; clear_value x)
    | with_reducible apply State.setFlag_ok
    | with_reducible apply State.setFld_ok
    | with_reducible apply dropClockAction_ok
    | with_reducible apply setDegraded_ok
    | with_reducible apply State.alarm_ok
    | with_reducible apply State.bump_ok

theorem sourceGone_ok {qq : List Instr} (k : Nat) (s : State) (hs : Ok qq s) : Ok qq (sourceGone k s) := by
  unfold sourceGone
  repeat' first
    | with_reducible assumption
    | (extract_lets +onlyGivenNames x; refine have hx : Ok qq x := ?_; ?_; rotate_left; clear_value x; rotate_right; subst x)
    | with_reducible apply State.setReady_ok
    | with_reducible apply clockLoss_ok
    | with_reducible apply switchRefused_ok
    | with_reducible apply State.tookFree_ok
    | with_reducible apply ok_ite

theorem execRefMissingEdge_ok {qq : List Instr} (k : Fin 4) (s : State) (hs : Ok qq s) : OkOut qq (execRefMissingEdge k s) := by
  unfold execRefMissingEdge
  repeat' first
    | with_reducible assumption
    | with_reducible refine OkOut.next ?_
    | with_reducible apply clockLoss_ok
    | with_reducible apply State.setReady_ok
    | with_reducible apply sourceGone_ok
    | with_reducible apply ok_ite

theorem execPllUnlock_ok {qq : List Instr} (s : State) (hs : Ok qq s) : OkOut qq (execPllUnlock s) := by
  unfold execPllUnlock
  repeat' first
    | with_reducible assumption
    | with_reducible refine OkOut.next ?_
    | with_reducible apply clockLoss_ok
    | with_reducible apply ok_ite

theorem readyFlags_ok {qq : List Instr} (ready : BitVec 4) (s : State) (hs : Ok qq s) : Ok qq (readyFlags ready s) := by
  unfold readyFlags
  repeat' first
    | with_reducible assumption
    | with_reducible apply State.setReady_ok
    | with_reducible apply sourceGone_ok
    | with_reducible apply ok_ite
    | (with_reducible refine ok_foldl ?_ _ ?_; intro _ _ _)

theorem freqWindow_ok {qq : List Instr} (count : BitVec 11) (agree : Bool) (ready : BitVec 4) (s : State) (hs : Ok qq s) : Ok qq (freqWindow count agree ready s) := by
  unfold freqWindow
  repeat' first
    | with_reducible assumption
    | with_reducible exact ok_mk (by assumption) rfl rfl rfl rfl rfl rfl rfl rfl rfl
    | (extract_lets +onlyGivenNames x; refine have hx : Ok qq x := ?_; ?_; rotate_left; clear_value x; rotate_right; subst x)
    | (extract_lets +onlyGivenNames x; clear_value x)
    | with_reducible apply State.setFld_ok
    | with_reducible apply readyFlags_ok
    | with_reducible apply State.setFlag_ok
    | with_reducible apply State.noticeIf_ok
    | with_reducible apply clockLoss_ok
    | with_reducible apply ok_ite

theorem execFreqWindow_ok {qq : List Instr} (count : BitVec 11) (agree : Bool) (ready : BitVec 4) (s : State) (hs : Ok qq s) : OkOut qq (execFreqWindow count agree ready s) := by
  unfold execFreqWindow
  repeat' first
    | with_reducible assumption
    | with_reducible refine OkOut.next ?_
    | with_reducible apply freqWindow_ok

theorem execHoldoverToIntosc_ok {qq : List Instr} (s : State) (hs : Ok qq s) : OkOut qq (execHoldoverToIntosc s) := by
  unfold execHoldoverToIntosc
  repeat' first
    | with_reducible assumption
    | with_reducible refine OkOut.next ?_
    | with_reducible apply State.setFlag_ok
    | with_reducible apply State.setFld_ok
    | with_reducible apply ok_ite

theorem takeSource_ok {qq : List Instr} (xtal : Bool) (refin : Bool) (s : State) (hs : Ok qq s) : Ok qq (takeSource xtal refin s) := by
  unfold takeSource
  repeat' first
    | with_reducible assumption
    | with_reducible exact ok_mk (by assumption) rfl rfl rfl rfl rfl rfl rfl rfl rfl
    | (extract_lets +onlyGivenNames x; refine have hx : Ok qq x := ?_; ?_; rotate_left; clear_value x; rotate_right; subst x)
    | (extract_lets +onlyGivenNames x; clear_value x)
    | with_reducible apply State.setPhase_ok
    | with_reducible apply State.setFld_ok
    | with_reducible apply ok_ite

theorem execOscDelayExpiry_ok {qq : List Instr} (xtal : Bool) (refin : Bool) (s : State) (hs : Ok qq s) : OkOut qq (execOscDelayExpiry xtal refin s) := by
  unfold execOscDelayExpiry
  repeat' first
    | with_reducible assumption
    | with_reducible refine OkOut.next ?_
    | with_reducible apply takeSource_ok
    | with_reducible apply State.setPhase_ok
    | with_reducible apply ok_ite

theorem execRootSourceRetry_ok {qq : List Instr} (xtal : Bool) (refin : Bool) (s : State) (hs : Ok qq s) : OkOut qq (execRootSourceRetry xtal refin s) := by
  unfold execRootSourceRetry
  repeat' first
    | with_reducible assumption
    | with_reducible refine OkOut.next ?_
    | with_reducible apply takeSource_ok
    | with_reducible apply ok_ite

theorem beginSwitch_ok {qq : List Instr} (k : Nat) (s : State) (hs : Ok qq s) : Ok qq (beginSwitch k s) := by
  unfold beginSwitch
  repeat' first
    | with_reducible assumption
    | with_reducible exact ok_mk (by assumption) rfl rfl rfl rfl rfl rfl rfl rfl rfl
    | (extract_lets +onlyGivenNames x; refine have hx : Ok qq x := ?_; ?_; rotate_left; clear_value x; rotate_right; subst x)
    | with_reducible apply State.setFlag_ok

theorem autoReturn_ok {qq : List Instr} (s : State) (hs : Ok qq s) : Ok qq (autoReturn s) := by
  unfold autoReturn
  repeat' first
    | with_reducible assumption
    | with_reducible exact ok_mk (by assumption) rfl rfl rfl rfl rfl rfl rfl rfl rfl
    | (extract_lets +onlyGivenNames x; clear_value x)
    | with_reducible apply beginSwitch_ok
    | with_reducible apply State.raiseAction_ok
    | with_reducible apply ok_ite

theorem execAutoReturnStart_ok {qq : List Instr} (s : State) (hs : Ok qq s) : OkOut qq (execAutoReturnStart s) := by
  unfold execAutoReturnStart
  repeat' first
    | with_reducible assumption
    | with_reducible refine OkOut.next ?_
    | with_reducible apply autoReturn_ok

theorem clkSrcWrite_ok {qq : List Instr} (sel : Nat) (auto : Bool) (w : Writer) (s : State) (hs : Ok qq s) : Ok qq (clkSrcWrite sel auto w s) := by
  unfold clkSrcWrite
  repeat' first
    | with_reducible assumption
    | (extract_lets +onlyGivenNames g; refine have hg : ∀ s, Ok qq s → Ok qq (g s) := ?_; ?_; rotate_left; clear_value g; rotate_right; subst g; intro _ _; try dsimp -zeta only)
    | with_reducible apply State.wardenOr_ok
    | with_reducible apply State.setFlag_ok
    | with_reducible apply clkRefused_ok
    | with_reducible apply switchRefused_ok
    | with_reducible apply beginSwitch_ok
    | with_reducible apply State.setFld_ok
    | with_reducible apply ok_ite
    | with_reducible apply hg
    | intro _ _

theorem execClkSrcSwitch_ok {qq : List Instr} (w : Writer) (sel : Fin 4) (auto : Bool) (s : State) (hs : Ok qq s) : OkOut qq (execClkSrcSwitch w sel auto s) := by
  unfold execClkSrcSwitch
  repeat' first
    | with_reducible assumption
    | with_reducible refine OkOut.next ?_
    | with_reducible apply State.linked_ok
    | with_reducible apply clkSrcWrite_ok

theorem slewDone_ok {qq : List Instr} (s : State) (hs : Ok qq s) : Ok qq (slewDone s) := by
  unfold slewDone
  repeat' first
    | with_reducible assumption
    | with_reducible exact ok_mk (by assumption) rfl rfl rfl rfl rfl rfl rfl rfl rfl
    | (extract_lets +onlyGivenNames x; refine have hx : Ok qq x := ?_; ?_; rotate_left; clear_value x; rotate_right; subst x)
    | (extract_lets +onlyGivenNames x; clear_value x)
    | with_reducible apply State.setFlag_ok
    | with_reducible apply State.setFld_ok
    | with_reducible apply dropClockAction_ok
    | with_reducible apply State.noticeIf_ok
    | with_reducible apply setDegraded_ok
    | with_reducible apply ok_ite
    | split

theorem execRootSlewDone_ok {qq : List Instr} (s : State) (hs : Ok qq s) : OkOut qq (execRootSlewDone s) := by
  unfold execRootSlewDone
  repeat' first
    | with_reducible assumption
    | with_reducible refine OkOut.next ?_
    | with_reducible apply slewDone_ok

theorem gateRun_ok {qq : List Instr} (g : Nat) (s : State) (hs : Ok qq s) : Ok qq (gateRun g s) := by
  unfold gateRun
  repeat' first
    | with_reducible assumption
    | with_reducible apply State.setFld_ok
    | split

theorem gateWrite_ok {qq : List Instr} (g : Nat) (mode : Nat) (idle : Nat) (s : State) (hs : Ok qq s) : Ok qq (gateWrite g mode idle s) := by
  unfold gateWrite
  repeat' first
    | with_reducible assumption
    | (extract_lets +onlyGivenNames x; refine have hx : Ok qq x := ?_; ?_; rotate_left; clear_value x; rotate_right; subst x)
    | (extract_lets +onlyGivenNames x; clear_value x)
    | with_reducible apply clkRefused_ok
    | with_reducible apply State.setFld_ok
    | with_reducible apply gateRun_ok
    | with_reducible apply ok_ite
    | split

theorem execClkGateOn_ok {qq : List Instr} (w : Writer) (g : Fin 15) (idle : Byte) (s : State) (hs : Ok qq s) : OkOut qq (execClkGateOn w g idle s) := by
  unfold execClkGateOn
  repeat' first
    | with_reducible assumption
    | with_reducible refine OkOut.next ?_
    | with_reducible apply State.linked_ok
    | with_reducible apply gateWrite_ok

theorem execClkGateAuto_ok {qq : List Instr} (w : Writer) (g : Fin 15) (idle : Byte) (s : State) (hs : Ok qq s) : OkOut qq (execClkGateAuto w g idle s) := by
  unfold execClkGateAuto
  repeat' first
    | with_reducible assumption
    | with_reducible refine OkOut.next ?_
    | with_reducible apply State.linked_ok
    | with_reducible apply gateWrite_ok

theorem execClkGateOff_ok {qq : List Instr} (w : Writer) (g : Fin 15) (idle : Byte) (s : State) (hs : Ok qq s) : OkOut qq (execClkGateOff w g idle s) := by
  unfold execClkGateOff
  repeat' first
    | with_reducible assumption
    | with_reducible refine OkOut.next ?_
    | with_reducible apply State.linked_ok
    | with_reducible apply gateWrite_ok

theorem execClkGateIdleStop_ok {qq : List Instr} (g : Fin 15) (s : State) (hs : Ok qq s) : OkOut qq (execClkGateIdleStop g s) := by
  unfold execClkGateIdleStop
  repeat' first
    | with_reducible assumption
    | with_reducible refine OkOut.next ?_
    | with_reducible apply State.setFld_ok
    | with_reducible apply ok_ite

theorem gateWake_ok {qq : List Instr} (g : Nat) (s : State) (hs : Ok qq s) : Ok qq (gateWake g s) := by
  unfold gateWake
  repeat' first
    | with_reducible assumption
    | (extract_lets +onlyGivenNames x; clear_value x)
    | with_reducible apply State.bump_ok
    | with_reducible apply gateRun_ok
    | with_reducible apply ok_ite

theorem execClkGateWake_ok {qq : List Instr} (g : Fin 15) (s : State) (hs : Ok qq s) : OkOut qq (execClkGateWake g s) := by
  unfold execClkGateWake
  repeat' first
    | with_reducible assumption
    | with_reducible refine OkOut.next ?_
    | with_reducible apply gateWake_ok

theorem execClkGateStopDone_ok {qq : List Instr} (g : Fin 15) (s : State) (hs : Ok qq s) : OkOut qq (execClkGateStopDone g s) := by
  unfold execClkGateStopDone
  repeat' first
    | with_reducible assumption
    | with_reducible refine OkOut.next ?_
    | with_reducible apply State.setFld_ok
    | split

theorem resetCrossing_ok {qq : List Instr} (x : Nat) (s : State) (hs : Ok qq s) : Ok qq (resetCrossing x s) := by
  unfold resetCrossing
  repeat' first
    | with_reducible exact ok_mk (by assumption) rfl rfl rfl rfl rfl rfl rfl rfl rfl

theorem crossingRelease_ok {qq : List Instr} (x : Nat) (items : Nat) (s : State) (hs : Ok qq s) : Ok qq (crossingRelease x items s) := by
  unfold crossingRelease
  repeat' first
    | with_reducible assumption
    | with_reducible exact ok_mk (by assumption) rfl rfl rfl rfl rfl rfl rfl rfl rfl
    | (extract_lets +onlyGivenNames x; refine have hx : Ok qq x := ?_; ?_; rotate_left; clear_value x; rotate_right; subst x)
    | (extract_lets +onlyGivenNames x; clear_value x)
    | with_reducible apply State.noticeIf_ok
    | with_reducible apply State.bump_ok
    | with_reducible apply ok_ite

theorem execCrossingRelease_ok {qq : List Instr} (x : Fin 27) (items : BitVec 16) (s : State) (hs : Ok qq s) : OkOut qq (execCrossingRelease x items s) := by
  unfold execCrossingRelease
  repeat' first
    | with_reducible assumption
    | with_reducible refine OkOut.next ?_
    | with_reducible apply crossingRelease_ok

theorem clkMinClr_ok {qq : List Instr} (s : State) (hs : Ok qq s) : Ok qq (clkMinClr s) := by
  unfold clkMinClr
  repeat' first
    | with_reducible assumption
    | with_reducible apply State.setFld_ok

theorem execClkMinClr_ok {qq : List Instr} (w : Writer) (s : State) (hs : Ok qq s) : OkOut qq (execClkMinClr w s) := by
  unfold execClkMinClr
  repeat' first
    | with_reducible assumption
    | with_reducible refine OkOut.next ?_
    | with_reducible apply State.linked_ok
    | with_reducible apply clkMinClr_ok

theorem clkCntClr_ok {qq : List Instr} (s : State) (hs : Ok qq s) : Ok qq (clkCntClr s) := by
  exact ok_foldl (fun s m h => State.setReg_ok s _ _ _ _ h) _ hs

theorem execClkCntClr_ok {qq : List Instr} (w : Writer) (s : State) (hs : Ok qq s) : OkOut qq (execClkCntClr w s) := by
  unfold execClkCntClr
  repeat' first
    | with_reducible assumption
    | with_reducible refine OkOut.next ?_
    | with_reducible apply State.linked_ok
    | with_reducible apply clkCntClr_ok

end Sys2Proof.Machine
end

