-- ==== Sys2Proof/Laws/OkSpineCore.lean ====
section
/-! SUPPORT. What the operations of Machine/SpineCore.lean keep: each takes a sound state with the same commands waiting to
such a state (see Laws/Ok.lean). -/

namespace Sys2Proof.Machine

theorem State.peak_ok {qq : List Instr} (s : State) (f : Fld) (v : Nat) (i : Nat) (hs : Ok qq s) : Ok qq (State.peak s f v i) := by
  unfold State.peak
  repeat' first
    | with_reducible assumption
    | with_reducible apply State.setFld_ok
    | with_reducible apply ok_ite

theorem State.occupy_ok {qq : List Instr} (s : State) (p : Nat) (hs : Ok qq s) : Ok qq (State.occupy s p) := by
  unfold State.occupy
  repeat' first
    | with_reducible assumption
    | (extract_lets +onlyGivenNames x; refine have hx : Ok qq x := ?_; ?_; rotate_left; clear_value x; rotate_right; subst x)
    | with_reducible apply State.setFld_ok
    | with_reducible apply State.peak_ok

theorem State.release_ok {qq : List Instr} (s : State) (p : Nat) (hs : Ok qq s) : Ok qq (State.release s p) := by
  unfold State.release
  repeat' first
    | with_reducible assumption
    | (extract_lets +onlyGivenNames x; refine have hx : Ok qq x := ?_; ?_; rotate_left; clear_value x; rotate_right; subst x)
    | with_reducible apply State.setFld_ok

theorem State.putTrans_ok {qq : List Instr} (s : State) (t : Trans) (hs : Ok qq s) : Ok qq (State.putTrans s t) := by
  unfold State.putTrans
  repeat' first
    | with_reducible exact ok_mk (by assumption) rfl rfl rfl rfl rfl rfl rfl rfl rfl

theorem State.putRsp_ok {qq : List Instr} (s : State) (r : Rsp) (hs : Ok qq s) : Ok qq (State.putRsp s r) := by
  unfold State.putRsp
  repeat' first
    | with_reducible exact ok_mk (by assumption) rfl rfl rfl rfl rfl rfl rfl rfl rfl

end Sys2Proof.Machine
end

