-- ==== Sys2Proof/Laws/OkWtuCore.lean ====
section
/-! SUPPORT. What the operations of Machine/WtuCore.lean keep: each takes a sound state with the same commands waiting to
such a state (see Laws/Ok.lean). -/

namespace Sys2Proof.Machine

theorem State.xlFault_ok {qq : List Instr} (s : State) (code : Nat) (asid : Nat) (va : Nat) (master : Nat) (priv : Nat) (write : Bool) (hs : Ok qq s) : Ok qq (State.xlFault s code asid va master priv write) := by
  unfold State.xlFault
  repeat' first
    | with_reducible assumption
    | (extract_lets +onlyGivenNames x; refine have hx : Ok qq x := ?_; ?_; rotate_left; clear_value x; rotate_right; subst x)
    | with_reducible apply State.setFlag_ok
    | with_reducible apply State.setReg_ok
    | with_reducible apply State.bump_ok
    | with_reducible apply State.noticeIf_ok
    | with_reducible apply ok_ite

theorem State.startWalk_ok {qq : List Instr} (s : State) (who : WalkFor) (caches : List Nat) (master : Nat) (asid : Nat) (priv : Nat) (write : Bool) (va : Nat) (hs : Ok qq s) : Ok qq (State.startWalk s who caches master asid priv write va) := by
  unfold State.startWalk
  repeat' first
    | with_reducible assumption
    | with_reducible exact ok_mk (by assumption) rfl rfl rfl rfl rfl rfl rfl rfl rfl
    | (extract_lets +onlyGivenNames x; refine have hx : Ok qq x := ?_; ?_; rotate_left; clear_value x; rotate_right; subst x)
    | with_reducible apply State.bump_ok
    | with_reducible apply ok_ite

theorem State.endWalk_ok {qq : List Instr} (s : State) (k : Nat) (hs : Ok qq s) : Ok qq (State.endWalk s k) := by
  unfold State.endWalk
  repeat' first
    | with_reducible assumption
    | with_reducible exact ok_mk (by assumption) rfl rfl rfl rfl rfl rfl rfl rfl rfl
    | (extract_lets +onlyGivenNames x; refine have hx : Ok qq x := ?_; ?_; rotate_left; clear_value x; rotate_right; subst x)
    | with_reducible apply State.bump_ok
    | with_reducible apply ok_ite

theorem State.walkOn_ok {qq : List Instr} (s : State) (k : Nat) (x : Walk) (table : Nat) (dev : Bool) (hs : Ok qq s) : Ok qq (State.walkOn s k x table dev) := by
  unfold State.walkOn
  repeat' first
    | with_reducible exact ok_mk (by assumption) rfl rfl rfl rfl rfl rfl rfl rfl rfl

theorem putLeaf_ok {qq : List Instr} (s : State) (e : Tlb) (hs : Ok qq s) : Ok qq (putLeaf s e) := by
  unfold putLeaf
  repeat' first
    | with_reducible assumption
    | with_reducible exact ok_mk (by assumption) rfl rfl rfl rfl rfl rfl rfl rfl rfl
    | (extract_lets +onlyGivenNames x; refine have hx : Ok qq x := ?_; ?_; rotate_left; clear_value x; rotate_right; subst x)
    | (extract_lets +onlyGivenNames x; clear_value x)
    | with_reducible apply State.tookFree_ok
    | with_reducible apply ok_ite

theorem State.keepLeaf_ok {qq : List Instr} (s : State) (x : Walk) (size : Nat) (frame : Nat) (r : Bool) (w : Bool) (u : Bool) (dev : Bool) (hs : Ok qq s) : Ok qq (State.keepLeaf s x size frame r w u dev) := by
  unfold State.keepLeaf
  repeat' first
    | with_reducible assumption
    | (extract_lets +onlyGivenNames x; clear_value x)
    | with_reducible apply putLeaf_ok
    | with_reducible apply ok_ite
    | (with_reducible refine ok_foldl ?_ _ ?_; intro _ _ _)

theorem State.dropLeaves_ok {qq : List Instr} (s : State) (sel : Tlb → Bool) (mark : Bool) (hs : Ok qq s) : Ok qq (State.dropLeaves s sel mark) := by
  unfold State.dropLeaves
  repeat' first
    | with_reducible exact ok_mk (by assumption) rfl rfl rfl rfl rfl rfl rfl rfl rfl

theorem State.invalidate_ok {qq : List Instr} (s : State) (hs : Ok qq s) : Ok qq (State.invalidate s) := by
  unfold State.invalidate
  repeat' first
    | with_reducible assumption
    | with_reducible exact ok_mk (by assumption) rfl rfl rfl rfl rfl rfl rfl rfl rfl
    | (extract_lets +onlyGivenNames x; refine have hx : Ok qq x := ?_; ?_; rotate_left; clear_value x; rotate_right; subst x)
    | with_reducible apply State.dropLeaves_ok

theorem State.invalidateSpace_ok {qq : List Instr} (s : State) (a : Nat) (hs : Ok qq s) : Ok qq (State.invalidateSpace s a) := by
  unfold State.invalidateSpace
  repeat' first
    | with_reducible assumption
    | with_reducible exact ok_mk (by assumption) rfl rfl rfl rfl rfl rfl rfl rfl rfl
    | (extract_lets +onlyGivenNames x; refine have hx : Ok qq x := ?_; ?_; rotate_left; clear_value x; rotate_right; subst x)
    | with_reducible apply State.dropLeaves_ok

end Sys2Proof.Machine
end

