-- ==== Sys2Proof/Laws/OkBanks.lean ====
section
/-! SUPPORT. What the operations of Machine/Banks.lean keep: each takes a sound state with the same commands waiting to
such a state (see Laws/Ok.lean). -/

namespace Sys2Proof.Machine

theorem recordBad_ok {qq : List Instr} (b : Nat) (w : Nat) (side : Nat) (bytes : Nat) (s : State) (hs : Ok qq s) : Ok qq (recordBad b w side bytes s) := by
  unfold recordBad
  repeat' first
    | with_reducible assumption
    | (extract_lets +onlyGivenNames x; refine have hx : Ok qq x := ?_; ?_; rotate_left; clear_value x; rotate_right; subst x)
    | with_reducible apply State.bump_ok
    | with_reducible apply State.setFlag_ok
    | with_reducible apply State.setReg_ok
    | with_reducible apply State.noticeIf_ok
    | with_reducible apply ok_ite

theorem bankRead_ok {qq : List Instr} (b : Nat) (w : Nat) (side : Nat) (s : State) (hs : Ok qq s) : Ok qq (bankRead b w side s).1 := by
  unfold bankRead
  repeat' first
    | with_reducible assumption
    | (extract_lets +onlyGivenNames x; clear_value x)
    | with_reducible apply recordBad_ok
    | with_reducible apply ok_ite

theorem bankReads_ok {qq : List Instr} (b : Nat) (side : Nat) (a2 : Nat) (a3 : Nat) (a4 : State) (ha4 : Ok qq a4) : Ok qq (bankReads b side a2 a3 a4).1 := by
  revert ha4
  fun_induction bankReads b side a2 a3 a4 <;> intro ha4
  all_goals repeat' first
    | with_reducible assumption
    | with_reducible refine (by assumption : Ok _ _ → Ok _ _) ?_
    | with_reducible refine ok_mk (ok_fst (by assumption) ?_) rfl rfl rfl rfl rfl rfl rfl rfl rfl
    | with_reducible apply bankRead_ok

theorem bankWriteBytes_ok {qq : List Instr} (b : Nat) (w : Nat) (v : W64) (mask : Nat) (s : State) (hs : Ok qq s) : Ok qq (bankWriteBytes b w v mask s) := by
  have hone : ∀ (s : State) (k : Nat), Ok qq s → Ok qq
      (if bitOf mask k then
        { s with mem := setByte s.mem (bankAddr b w + k) (BitVec.ofNat 8 (bitsW v (8 * k) 8)),
                 parity := Tab.set false s.parity (bankAddr b w + k) false }
      else s) := by
    intro s k hs
    split
    · exact ok_mkBy hs rfl hs.inv.1.1 (Memory.wf_setByte hs.inv.1.2 _ _) hs.inv.1.3 hs.engines hs.inv.2.2 hs.inv.2.3 hs.inv.2.4 hs.inv.2.5
    · exact hs
  unfold bankWriteBytes
  extract_lets f x
  have hx : Ok qq x := ok_foldl hone _ hs
  clear_value x
  split
  · exact ok_mk (State.setFlag_ok x _ _ _ _ hx) rfl rfl rfl rfl rfl rfl rfl rfl rfl
  · exact hx

theorem bankWrite_ok {qq : List Instr} (b : Nat) (w : Nat) (v : W64) (s : State) (hs : Ok qq s) : Ok qq (bankWrite b w v s) := by
  unfold bankWrite
  repeat' first
    | with_reducible assumption
    | with_reducible apply bankWriteBytes_ok

theorem bankWrites_ok {qq : List Instr} (b : Nat) (a1 : Nat) (a2 : List W64) (a3 : State) (ha3 : Ok qq a3) : Ok qq (bankWrites b a1 a2 a3) := by
  revert ha3
  fun_induction bankWrites b a1 a2 a3 <;> intro ha3
  all_goals repeat' first
    | with_reducible assumption
    | with_reducible refine (by assumption : Ok _ _ → Ok _ _) ?_
    | with_reducible apply bankWrite_ok

theorem bankDropped_ok {qq : List Instr} (b : Nat) (op : TOp) (s : State) (hs : Ok qq s) : Ok qq (bankDropped b op s) := by
  unfold bankDropped
  repeat' first
    | with_reducible assumption
    | with_reducible apply State.bump_ok
    | with_reducible apply ok_ite

theorem bankPerform_ok {qq : List Instr} (b : Nat) (a : BankAcc) (s : State) (hs : Ok qq s) : Ok qq (bankPerform b a s).1 := by
  unfold bankPerform
  repeat' first
    | with_reducible assumption
    | with_reducible apply bankReads_ok
    | with_reducible apply bankRead_ok
    | with_reducible apply bankWrite_ok
    | with_reducible apply bankWrites_ok
    | with_reducible apply okFst_ite
    | split

theorem bankTake_ok {qq : List Instr} (b : Nat) (a : BankAcc) (s : State) (hs : Ok qq s) : Ok qq (bankTake b a s).1 := by
  unfold bankTake
  repeat' first
    | with_reducible assumption
    | with_reducible apply bankDropped_ok
    | with_reducible apply State.deny_ok
    | with_reducible apply bankPerform_ok
    | with_reducible apply okFst_ite

theorem lostContests_ok {qq : List Instr} (m : Nat) (k : Nat) (s : State) (hs : Ok qq s) : Ok qq (lostContests m k s) := by
  unfold lostContests
  repeat' first
    | with_reducible assumption
    | with_reducible apply State.bump_ok
    | with_reducible apply ok_ite

theorem localAnswer_ok {qq : List Instr} (b : Nat) (op : TOp) (tag : Nat) (status : Nat) (data : Option (List W64)) (s : State) (hs : Ok qq s) : Ok qq (localAnswer b op tag status data s) := by
  unfold localAnswer
  repeat' first
    | with_reducible assumption
    | with_reducible exact ok_mk (by assumption) rfl rfl rfl rfl rfl rfl rfl rfl rfl
    | (extract_lets +onlyGivenNames x; clear_value x)
    | with_reducible apply ok_ite

theorem localPort_ok {qq : List Instr} (b : Nat) (op : TOp) (h : W64) (data : List W64) (lost : Nat) (s : State) (hs : Ok qq s) : Ok qq (localPort b op h data lost s) := by
  unfold localPort
  repeat' first
    | with_reducible assumption
    | (extract_lets +onlyGivenNames x; clear_value x)
    | (extract_lets +onlyGivenNames x; subst x)
    | with_reducible refine ok_mk (ok_fst (by assumption) ?_) rfl rfl rfl rfl rfl rfl rfl rfl rfl
    | with_reducible apply localAnswer_ok
    | with_reducible apply bankTake_ok
    | with_reducible apply lostContests_ok
    | with_reducible apply ok_ite
    | split

theorem execBankAccessRead_ok {qq : List Instr} (b : Fin 1280) (hd : W64) (lost : Fin 4) (s : State) (hs : Ok qq s) : OkOut qq (execBankAccessRead b hd lost s) := by
  unfold execBankAccessRead
  repeat' first
    | with_reducible assumption
    | with_reducible refine OkOut.next ?_
    | with_reducible apply localPort_ok

theorem execBankAccessWrite_ok {qq : List Instr} (b : Fin 1280) (ack : Bool) (hd : W64) (data : List W64) (lost : Fin 4) (s : State) (hs : Ok qq s) : OkOut qq (execBankAccessWrite b ack hd data lost s) := by
  unfold execBankAccessWrite
  repeat' first
    | with_reducible assumption
    | with_reducible refine OkOut.next ?_
    | with_reducible apply localPort_ok

theorem execBankAccessAdd_ok {qq : List Instr} (b : Fin 1280) (hd : W64) (v : W64) (lost : Fin 4) (s : State) (hs : Ok qq s) : OkOut qq (execBankAccessAdd b hd v lost s) := by
  unfold execBankAccessAdd
  repeat' first
    | with_reducible assumption
    | with_reducible refine OkOut.next ?_
    | with_reducible apply localPort_ok

theorem execBankAccessSwap_ok {qq : List Instr} (b : Fin 1280) (hd : W64) (v : W64) (lost : Fin 4) (s : State) (hs : Ok qq s) : OkOut qq (execBankAccessSwap b hd v lost s) := by
  unfold execBankAccessSwap
  repeat' first
    | with_reducible assumption
    | with_reducible refine OkOut.next ?_
    | with_reducible apply localPort_ok

theorem engRead_ok {qq : List Instr} (n : Nat) (a : Nat) (s : State) (hs : Ok qq s) : Ok qq (engRead n a s).1 := by
  unfold engRead
  repeat' first
    | with_reducible assumption
    | with_reducible exact ok_mk (by assumption) rfl rfl rfl rfl rfl rfl rfl rfl rfl
    | (extract_lets +onlyGivenNames x; refine have hx : Ok qq x := ?_; ?_; rotate_left; clear_value x; rotate_right; subst x)
    | with_reducible apply State.bump_ok
    | split

theorem engWrite_ok {qq : List Instr} (a : Nat) (v : W64) (mask : Nat) (s : State) (hs : Ok qq s) : Ok qq (engWrite a v mask s) := by
  have hone : ∀ (l : List Nat) (m : List Host.Cell), Memory.wf m = true → Memory.wf (l.foldl (fun m k =>
      if bitOf mask k then setByte m (a + k) (BitVec.ofNat 8 (bitsW v (8 * k) 8)) else m) m) = true := by
    intro l
    induction l with
    | nil => intro m h; exact h
    | cons k l ih =>
      intro m h
      refine ih _ ?_
      show Memory.wf (if _ then _ else _) = true
      show Memory.wf (if _ then _ else _) = true
      split
      · exact Memory.wf_setByte h _ _
      · exact h
  unfold engWrite
  exact ok_mkBy hs rfl hs.inv.1.1 (hone _ _ hs.inv.1.2) hs.inv.1.3 hs.engines hs.inv.2.2 hs.inv.2.3 hs.inv.2.4 hs.inv.2.5

theorem imemBusy_ok {qq : List Instr} (n : Nat) (s : State) (hs : Ok qq s) : Ok qq (imemBusy n s) := by
  unfold imemBusy
  repeat' first
    | with_reducible assumption
    | with_reducible apply State.accessError_ok
    | with_reducible apply State.refuse_ok

theorem hostRead_ok {qq : List Instr} (off : Nat) (s : State) (hs : Ok qq s) : Ok qq (hostRead off s).1 := by
  unfold hostRead
  repeat' first
    | with_reducible assumption
    | with_reducible apply State.accessError_ok
    | with_reducible apply State.tookFree_ok
    | with_reducible apply bankRead_ok
    | with_reducible apply engRead_ok
    | with_reducible apply okFst_ite
    | split

theorem hostWrite_ok {qq : List Instr} (off : Nat) (v : W64) (mask : Nat) (owner : Nat) (s : State) (hs : Ok qq s) : Ok qq (hostWrite off v mask owner s) := by
  unfold hostWrite
  repeat' first
    | with_reducible assumption
    | with_reducible apply State.accessError_ok
    | with_reducible apply State.deny_ok
    | with_reducible apply bankWriteBytes_ok
    | with_reducible apply imemBusy_ok
    | with_reducible apply engWrite_ok
    | with_reducible apply ok_ite
    | split

theorem execHostBar2Read_ok {qq : List Instr} (w : Writer) (word : BitVec 22) (lost : Fin 4) (s : State) (hs : Ok qq s) : OkOut qq (execHostBar2Read w word lost s) := by
  unfold execHostBar2Read
  repeat' first
    | with_reducible assumption
    | with_reducible apply State.denyLink_ok
    | with_reducible exact ok_mk (by assumption) rfl rfl rfl rfl rfl rfl rfl rfl rfl
    | (extract_lets +onlyGivenNames x; refine have hx : Ok qq x := ?_; ?_; rotate_left; clear_value x; rotate_right; subst x)
    | (extract_lets +onlyGivenNames x; clear_value x)
    | with_reducible refine OkOut.next ?_
    | with_reducible refine ok_mk (ok_fst (by assumption) ?_) rfl rfl rfl rfl rfl rfl rfl rfl rfl
    | with_reducible apply State.deny_ok
    | with_reducible apply hostRead_ok
    | with_reducible apply lostContests_ok
    | with_reducible apply ok_ite
    | split

theorem execHostBar2Write_ok {qq : List Instr} (w : Writer) (word : BitVec 22) (v : W64) (mask : Byte) (lost : Fin 4) (s : State) (hs : Ok qq s) : OkOut qq (execHostBar2Write w word v mask lost s) := by
  unfold execHostBar2Write
  repeat' first
    | with_reducible assumption
    | with_reducible apply State.denyLink_ok
    | with_reducible refine OkOut.next ?_
    | with_reducible apply State.deny_ok
    | with_reducible apply hostWrite_ok
    | with_reducible apply lostContests_ok
    | with_reducible apply ok_ite

theorem bankOwn_ok {qq : List Instr} (b : Nat) (owner : Nat) (sector : Nat) (w : Writer) (s : State) (hs : Ok qq s) : Ok qq (bankOwn b owner sector w s) := by
  unfold bankOwn
  repeat' first
    | with_reducible assumption
    | with_reducible apply State.refuseBank_ok
    | with_reducible apply State.wardenOr_ok
    | with_reducible apply State.deny_ok
    | with_reducible apply State.accessError_ok
    | with_reducible apply State.setFlag_ok
    | with_reducible apply State.setFld_ok
    | with_reducible apply ok_ite
    | split
    | intro _ _

theorem execBankOwnWrite_ok {qq : List Instr} (w : Writer) (b : Fin 1280) (v : W32) (s : State) (hs : Ok qq s) : OkOut qq (execBankOwnWrite w b v s) := by
  unfold execBankOwnWrite
  repeat' first
    | with_reducible assumption
    | with_reducible refine OkOut.next ?_
    | with_reducible apply State.linked_ok
    | with_reducible apply bankOwn_ok

theorem execBankDrainDone_ok {qq : List Instr} (b : Fin 1280) (s : State) (hs : Ok qq s) : OkOut qq (execBankDrainDone b s) := by
  unfold execBankDrainDone
  repeat' first
    | with_reducible assumption
    | with_reducible refine OkOut.next ?_
    | with_reducible apply State.setFlag_ok

theorem bankSleep_ok {qq : List Instr} (b : Nat) (s : State) (hs : Ok qq s) : Ok qq (bankSleep b s) := by
  unfold bankSleep
  repeat' first
    | with_reducible assumption
    | (extract_lets +onlyGivenNames x; refine have hx : Ok qq x := ?_; ?_; rotate_left; clear_value x; rotate_right; subst x)
    | with_reducible apply State.refuseBank_ok
    | with_reducible apply State.setFlag_ok
    | with_reducible apply State.setFld_ok
    | with_reducible apply ok_ite
    | split

theorem bankWake_ok {qq : List Instr} (b : Nat) (s : State) (hs : Ok qq s) : Ok qq (bankWake b s) := by
  unfold bankWake
  repeat' first
    | with_reducible assumption
    | (extract_lets +onlyGivenNames x; refine have hx : Ok qq x := ?_; ?_; rotate_left; clear_value x; rotate_right; subst x)
    | with_reducible apply State.setFlag_ok
    | with_reducible apply State.setFld_ok
    | with_reducible apply ok_ite
    | split

theorem execBankRetentionRequest_ok {qq : List Instr} (w : Writer) (b : Fin 1280) (s : State) (hs : Ok qq s) : OkOut qq (execBankRetentionRequest w b s) := by
  unfold execBankRetentionRequest
  repeat' first
    | with_reducible assumption
    | with_reducible refine OkOut.next ?_
    | with_reducible apply State.linked_ok
    | with_reducible apply bankSleep_ok

theorem execBankWakeRequest_ok {qq : List Instr} (w : Writer) (b : Fin 1280) (s : State) (hs : Ok qq s) : OkOut qq (execBankWakeRequest w b s) := by
  unfold execBankWakeRequest
  repeat' first
    | with_reducible assumption
    | with_reducible refine OkOut.next ?_
    | with_reducible apply State.linked_ok
    | with_reducible apply bankWake_ok

theorem bankEntered_ok {qq : List Instr} (b : Nat) (s : State) (hs : Ok qq s) : Ok qq (bankEntered b s) := by
  unfold bankEntered
  repeat' first
    | with_reducible assumption
    | with_reducible apply State.setFld_ok
    | with_reducible apply ok_ite
    | split

theorem execBankEntryDone_ok {qq : List Instr} (b : Fin 1280) (s : State) (hs : Ok qq s) : OkOut qq (execBankEntryDone b s) := by
  unfold execBankEntryDone
  repeat' first
    | with_reducible assumption
    | with_reducible refine OkOut.next ?_
    | with_reducible apply bankEntered_ok

theorem bankWoken_ok {qq : List Instr} (b : Nat) (s : State) (hs : Ok qq s) : Ok qq (bankWoken b s) := by
  unfold bankWoken
  repeat' first
    | with_reducible assumption
    | with_reducible apply State.setFld_ok
    | with_reducible apply State.setFlag_ok
    | with_reducible apply ok_ite

theorem execBankWakeDone_ok {qq : List Instr} (b : Fin 1280) (s : State) (hs : Ok qq s) : OkOut qq (execBankWakeDone b s) := by
  unfold execBankWakeDone
  repeat' first
    | with_reducible assumption
    | with_reducible refine OkOut.next ?_
    | with_reducible apply bankWoken_ok

theorem parityInject_ok {qq : List Instr} (b : Nat) (w : Writer) (s : State) (hs : Ok qq s) : Ok qq (parityInject b w s) := by
  unfold parityInject
  repeat' first
    | with_reducible assumption
    | with_reducible apply State.wardenOr_ok
    | with_reducible apply State.setFlag_ok
    | intro _ _

theorem execParityInject_ok {qq : List Instr} (w : Writer) (b : Fin 1280) (s : State) (hs : Ok qq s) : OkOut qq (execParityInject w b s) := by
  unfold execParityInject
  repeat' first
    | with_reducible assumption
    | with_reducible refine OkOut.next ?_
    | with_reducible apply State.linked_ok
    | with_reducible apply parityInject_ok

theorem bankCntClr_ok {qq : List Instr} (b : Nat) (s : State) (hs : Ok qq s) : Ok qq (bankCntClr b s) := by
  unfold bankCntClr
  repeat' first
    | with_reducible assumption
    | with_reducible apply State.setReg_ok

theorem execBankCntClr_ok {qq : List Instr} (w : Writer) (b : Fin 1280) (s : State) (hs : Ok qq s) : OkOut qq (execBankCntClr w b s) := by
  unfold execBankCntClr
  repeat' first
    | with_reducible assumption
    | with_reducible refine OkOut.next ?_
    | with_reducible apply State.linked_ok
    | with_reducible apply bankCntClr_ok

theorem confClr_ok {qq : List Instr} (s : State) (hs : Ok qq s) : Ok qq (confClr s) := by
  exact ok_foldl (fun s m h => State.setReg_ok s _ _ _ _ h) _ hs

theorem execConfClr_ok {qq : List Instr} (w : Writer) (s : State) (hs : Ok qq s) : OkOut qq (execConfClr w s) := by
  unfold execConfClr
  repeat' first
    | with_reducible assumption
    | with_reducible refine OkOut.next ?_
    | with_reducible apply State.linked_ok
    | with_reducible apply confClr_ok

end Sys2Proof.Machine
end

