-- ==== Sys2Proof/Laws/OkQueues.lean ====
section
/-! SUPPORT. What the operations of Machine/Queues.lean keep: each takes a sound state with the same commands waiting to
such a state (see Laws/Ok.lean). -/

namespace Sys2Proof.Machine

theorem State.setQue_ok {qq : List Instr} (s : State) (q : Nat) (x : Que) (hs : Ok qq s) : Ok qq (State.setQue s q x) := by
  unfold State.setQue
  repeat' first
    | with_reducible exact ok_mk (by assumption) rfl rfl rfl rfl rfl rfl rfl rfl rfl

theorem queExchange_ok {qq : List Instr} (q : Nat) (s : State) (hs : Ok qq s) : Ok qq (queExchange q s) := by
  unfold queExchange
  repeat' first
    | with_reducible assumption
    | (extract_lets +onlyGivenNames x; refine have hx : Ok qq x := ?_; ?_; rotate_left; clear_value x; rotate_right; subst x)
    | (extract_lets +onlyGivenNames x; clear_value x)
    | with_reducible apply State.setQue_ok
    | with_reducible apply State.setFlag_ok
    | with_reducible apply ok_ite

theorem queShow_ok {qq : List Instr} (q : Nat) (s : State) (hs : Ok qq s) : Ok qq (queShow q s) := by
  unfold queShow
  repeat' first
    | with_reducible assumption
    | (extract_lets +onlyGivenNames x; refine have hx : Ok qq x := ?_; ?_; rotate_left; clear_value x; rotate_right; subst x)
    | (extract_lets +onlyGivenNames x; clear_value x)
    | with_reducible apply State.setFlag_ok
    | with_reducible apply State.setFld_ok

theorem xoffUp_ok {qq : List Instr} (q : Nat) (s : State) (hs : Ok qq s) : Ok qq (xoffUp q s) := by
  unfold xoffUp
  repeat' first
    | with_reducible assumption
    | (extract_lets +onlyGivenNames x; clear_value x)
    | with_reducible apply State.noticeIf_ok
    | with_reducible apply State.setFlag_ok
    | with_reducible apply ok_ite

theorem xoffDown_ok {qq : List Instr} (q : Nat) (s : State) (hs : Ok qq s) : Ok qq (xoffDown q s) := by
  unfold xoffDown
  repeat' first
    | with_reducible assumption
    | with_reducible apply State.noticeIf_ok
    | with_reducible apply State.setFlag_ok
    | with_reducible apply ok_ite

theorem queEnter_ok {qq : List Instr} (q : Nat) (v : W64) (e : Bool) (s : State) (hs : Ok qq s) : Ok qq (queEnter q v e s) := by
  unfold queEnter
  repeat' first
    | with_reducible assumption
    | (extract_lets +onlyGivenNames x; refine have hx : Ok qq x := ?_; ?_; rotate_left; clear_value x; rotate_right; subst x)
    | (extract_lets +onlyGivenNames x; clear_value x)
    | with_reducible apply State.setFlag_ok
    | with_reducible apply State.bump_ok
    | with_reducible apply bankWrite_ok
    | with_reducible apply State.setQue_ok
    | with_reducible apply xoffUp_ok
    | with_reducible apply queShow_ok
    | with_reducible apply queExchange_ok
    | with_reducible apply ok_ite

theorem queEnterAll_ok {qq : List Instr} (q : Nat) (e : Bool) (a2 : List W64) (a3 : State) (ha3 : Ok qq a3) : Ok qq (queEnterAll q e a2 a3) := by
  revert ha3
  fun_induction queEnterAll q e a2 a3 <;> intro ha3
  all_goals repeat' first
    | with_reducible assumption
    | with_reducible refine (by assumption : Ok _ _ → Ok _ _) ?_
    | with_reducible apply queEnter_ok

theorem queUnder_ok {qq : List Instr} (q : Nat) (s : State) (hs : Ok qq s) : Ok qq (queUnder q s).1 := by
  unfold queUnder
  repeat' first
    | with_reducible assumption
    | (extract_lets +onlyGivenNames x; refine have hx : Ok qq x := ?_; ?_; rotate_left; clear_value x; rotate_right; subst x)
    | with_reducible apply State.bump_ok
    | with_reducible apply State.setFlag_ok
    | with_reducible apply State.noticeIf_ok
    | with_reducible apply State.tookFree_ok

theorem queLeave_ok {qq : List Instr} (q : Nat) (s : State) (hs : Ok qq s) : Ok qq (queLeave q s).1 := by
  unfold queLeave
  repeat' first
    | with_reducible assumption
    | (extract_lets +onlyGivenNames x; clear_value x)
    | with_reducible apply queUnder_ok
    | with_reducible apply bankRead_ok
    | with_reducible apply State.setFlag_ok
    | with_reducible apply State.bump_ok
    | with_reducible apply State.setQue_ok
    | with_reducible apply xoffDown_ok
    | with_reducible apply queShow_ok
    | with_reducible apply queExchange_ok
    | with_reducible apply State.setReg_ok
    | with_reducible apply ok_ite
    | split

theorem queAdmit_ok {qq : List Instr} (q : Nat) (s : State) (hs : Ok qq s) : Ok qq (queAdmit q s) := by
  unfold queAdmit
  repeat' first
    | with_reducible assumption
    | (extract_lets +onlyGivenNames x; clear_value x)
    | with_reducible apply queEnter_ok
    | with_reducible apply State.setQue_ok
    | with_reducible apply ok_ite
    | split

theorem queServe_ok {qq : List Instr} (q : Nat) (s : State) (hs : Ok qq s) : Ok qq (queServe q s) := by
  unfold queServe
  repeat' first
    | with_reducible assumption
    | with_reducible apply queLeave_ok
    | with_reducible apply State.setQue_ok
    | with_reducible apply ok_ite

theorem queSettle_ok {qq : List Instr} (q : Nat) (s : State) (hs : Ok qq s) : Ok qq (queSettle q s) := by
  unfold queSettle
  repeat' first
    | with_reducible assumption
    | with_reducible apply queAdmit_ok
    | with_reducible apply queServe_ok

theorem execQpush_ok {qq : List Instr} (q : Fin 160) (v : W64) (last : Bool) (s : State) (hs : Ok qq s) : OkOut qq (execQpush q v last s) := by
  unfold execQpush
  repeat' first
    | with_reducible assumption
    | (extract_lets +onlyGivenNames x; clear_value x)
    | with_reducible refine OkOut.next ?_
    | with_reducible apply queSettle_ok
    | with_reducible apply State.setQue_ok
    | with_reducible apply ok_ite

theorem execQpopWait_ok {qq : List Instr} (q : Fin 160) (s : State) (hs : Ok qq s) : OkOut qq (execQpopWait q s) := by
  unfold execQpopWait
  repeat' first
    | with_reducible assumption
    | (extract_lets +onlyGivenNames x; clear_value x)
    | with_reducible refine OkOut.next ?_
    | with_reducible apply queSettle_ok
    | with_reducible apply State.setQue_ok
    | with_reducible apply ok_ite

theorem execQpopNow_ok {qq : List Instr} (q : Fin 160) (s : State) (hs : Ok qq s) : OkOut qq (execQpopNow q s) := by
  unfold execQpopNow
  repeat' first
    | with_reducible assumption
    | (extract_lets +onlyGivenNames x; clear_value x)
    | with_reducible refine OkOut.next ?_
    | with_reducible apply queLeave_ok
    | with_reducible apply queSettle_ok
    | with_reducible apply State.setQue_ok
    | with_reducible apply ok_ite

theorem windowPush_ok {qq : List Instr} (q : Nat) (owner : Nat) (last : Bool) (op : TOp) (data : List W64) (s : State) (hs : Ok qq s) : Ok qq (windowPush q owner last op data s).1 := by
  unfold windowPush
  repeat' first
    | with_reducible assumption
    | (extract_lets +onlyGivenNames g; refine have hg : ∀ s, Ok qq s → Ok qq (g s) := ?_; ?_; rotate_left; clear_value g; rotate_right; subst g; intro _ _; try dsimp -zeta only)
    | with_reducible apply State.bump_ok
    | with_reducible apply State.deny_ok
    | with_reducible apply State.setFlag_ok
    | with_reducible apply queSettle_ok
    | with_reducible apply queEnterAll_ok
    | with_reducible apply ok_ite
    | with_reducible apply okFst_ite
    | with_reducible apply hg

theorem windowPop_ok {qq : List Instr} (q : Nat) (owner : Nat) (tagged : Bool) (s : State) (hs : Ok qq s) : Ok qq (windowPop q owner tagged s).1 := by
  unfold windowPop
  repeat' first
    | with_reducible assumption
    | with_reducible apply State.deny_ok
    | with_reducible apply queLeave_ok
    | with_reducible apply queSettle_ok
    | with_reducible apply okFst_ite

theorem windowTake_ok {qq : List Instr} (q : Nat) (owner : Nat) (off : Nat) (len : Nat) (op : TOp) (data : List W64) (s : State) (hs : Ok qq s) : Ok qq (windowTake q owner off len op data s).1 := by
  unfold windowTake
  repeat' first
    | with_reducible assumption
    | (extract_lets +onlyGivenNames x; subst x)
    | with_reducible apply windowPush_ok
    | with_reducible apply windowPop_ok
    | with_reducible apply okFst_ite

theorem localWindow_ok {qq : List Instr} (q : Nat) (off : Nat) (op : TOp) (tag : Nat) (len : Nat) (data : List W64) (s : State) (hs : Ok qq s) : Ok qq (localWindow q off op tag len data s) := by
  unfold localWindow
  repeat' first
    | with_reducible assumption
    | (extract_lets +onlyGivenNames x; clear_value x)
    | with_reducible refine ok_mk (ok_fst (by assumption) ?_) rfl rfl rfl rfl rfl rfl rfl rfl rfl
    | with_reducible apply windowTake_ok
    | with_reducible apply ok_ite
    | split

theorem execQuePush_ok {qq : List Instr} (q : Fin 160) (ack : Bool) (tag : Byte) (data : List W64) (s : State) (hs : Ok qq s) : OkOut qq (execQuePush q ack tag data s) := by
  unfold execQuePush
  repeat' first
    | with_reducible assumption
    | with_reducible refine OkOut.next ?_
    | with_reducible apply localWindow_ok
    | with_reducible apply ok_ite

theorem execQuePushEnd_ok {qq : List Instr} (q : Fin 160) (ack : Bool) (tag : Byte) (data : List W64) (s : State) (hs : Ok qq s) : OkOut qq (execQuePushEnd q ack tag data s) := by
  unfold execQuePushEnd
  repeat' first
    | with_reducible assumption
    | with_reducible refine OkOut.next ?_
    | with_reducible apply localWindow_ok
    | with_reducible apply ok_ite

theorem execQuePop_ok {qq : List Instr} (q : Fin 160) (tag : Byte) (s : State) (hs : Ok qq s) : OkOut qq (execQuePop q tag s) := by
  unfold execQuePop
  repeat' first
    | with_reducible assumption
    | with_reducible refine OkOut.next ?_
    | with_reducible apply localWindow_ok

theorem execQuePopTagged_ok {qq : List Instr} (q : Fin 160) (tag : Byte) (s : State) (hs : Ok qq s) : OkOut qq (execQuePopTagged q tag s) := by
  unfold execQuePopTagged
  repeat' first
    | with_reducible assumption
    | with_reducible refine OkOut.next ?_
    | with_reducible apply localWindow_ok

theorem queFlush_ok {qq : List Instr} (q : Nat) (s : State) (hs : Ok qq s) : Ok qq (queFlush q s) := by
  unfold queFlush
  repeat' first
    | with_reducible assumption
    | (extract_lets +onlyGivenNames x; refine have hx : Ok qq x := ?_; ?_; rotate_left; clear_value x; rotate_right; subst x)
    | (extract_lets +onlyGivenNames x; clear_value x)
    | with_reducible apply State.setQue_ok
    | with_reducible apply State.setFlag_ok
    | with_reducible apply State.bump_ok
    | with_reducible apply queShow_ok
    | with_reducible apply queSettle_ok
    | with_reducible apply xoffDown_ok
    | with_reducible apply ok_ite

theorem execQueFlush_ok {qq : List Instr} (w : Writer) (q : Fin 160) (s : State) (hs : Ok qq s) : OkOut qq (execQueFlush w q s) := by
  unfold execQueFlush
  repeat' first
    | with_reducible assumption
    | with_reducible refine OkOut.next ?_
    | with_reducible apply State.linked_ok
    | with_reducible apply queFlush_ok

theorem queBegin_ok {qq : List Instr} (q : Nat) (s : State) (hs : Ok qq s) : Ok qq (queBegin q s) := by
  unfold queBegin
  repeat' first
    | with_reducible assumption
    | (extract_lets +onlyGivenNames x; clear_value x)
    | with_reducible apply State.refuseBank_ok
    | with_reducible apply State.setFlag_ok
    | with_reducible apply ok_ite

theorem queEnable_ok {qq : List Instr} (q : Nat) (s : State) (hs : Ok qq s) : Ok qq (queEnable q s) := by
  unfold queEnable
  repeat' first
    | with_reducible assumption
    | with_reducible apply queBegin_ok
    | with_reducible apply State.setFld_ok
    | with_reducible apply State.setFlag_ok
    | with_reducible apply ok_ite
    | split

theorem execQueEnable_ok {qq : List Instr} (w : Writer) (q : Fin 160) (s : State) (hs : Ok qq s) : OkOut qq (execQueEnable w q s) := by
  unfold execQueEnable
  repeat' first
    | with_reducible assumption
    | with_reducible refine OkOut.next ?_
    | with_reducible apply State.linked_ok
    | with_reducible apply queEnable_ok

theorem queStart_ok {qq : List Instr} (q : Nat) (s : State) (hs : Ok qq s) : Ok qq (queStart q s) := by
  unfold queStart
  repeat' first
    | with_reducible assumption
    | (extract_lets +onlyGivenNames x; refine have hx : Ok qq x := ?_; ?_; rotate_left; clear_value x; rotate_right; subst x)
    | (extract_lets +onlyGivenNames x; clear_value x)
    | with_reducible apply State.setFlag_ok
    | with_reducible apply State.setQue_ok
    | with_reducible apply State.setFld_ok
    | with_reducible apply State.setReg_ok
    | with_reducible apply queSettle_ok
    | with_reducible apply queShow_ok

theorem execQueEnableDone_ok {qq : List Instr} (q : Fin 160) (s : State) (hs : Ok qq s) : OkOut qq (execQueEnableDone q s) := by
  unfold execQueEnableDone
  repeat' first
    | with_reducible assumption
    | with_reducible refine OkOut.next ?_
    | with_reducible apply queStart_ok
    | with_reducible apply ok_ite

theorem queDisable_ok {qq : List Instr} (q : Nat) (s : State) (hs : Ok qq s) : Ok qq (queDisable q s) := by
  unfold queDisable
  repeat' first
    | with_reducible assumption
    | with_reducible apply State.setFld_ok
    | with_reducible apply State.setFlag_ok
    | split

theorem execQueDisable_ok {qq : List Instr} (w : Writer) (q : Fin 160) (s : State) (hs : Ok qq s) : OkOut qq (execQueDisable w q s) := by
  unfold execQueDisable
  repeat' first
    | with_reducible assumption
    | with_reducible refine OkOut.next ?_
    | with_reducible apply State.linked_ok
    | with_reducible apply queDisable_ok

theorem queStopped_ok {qq : List Instr} (q : Nat) (s : State) (hs : Ok qq s) : Ok qq (queStopped q s) := by
  unfold queStopped
  repeat' first
    | with_reducible assumption
    | (extract_lets +onlyGivenNames x; refine have hx : Ok qq x := ?_; ?_; rotate_left; clear_value x; rotate_right; subst x)
    | (extract_lets +onlyGivenNames x; clear_value x)
    | with_reducible apply State.setFlag_ok
    | with_reducible apply State.setQue_ok
    | with_reducible apply State.setFld_ok
    | with_reducible apply queShow_ok
    | with_reducible apply queBegin_ok
    | with_reducible apply ok_ite

theorem execQueStopDone_ok {qq : List Instr} (q : Fin 160) (s : State) (hs : Ok qq s) : OkOut qq (execQueStopDone q s) := by
  unfold execQueStopDone
  repeat' first
    | with_reducible assumption
    | with_reducible refine OkOut.next ?_
    | with_reducible apply queStopped_ok

theorem queWmWrite_ok {qq : List Instr} (q : Nat) (v : W32) (s : State) (hs : Ok qq s) : Ok qq (queWmWrite q v s) := by
  unfold queWmWrite
  repeat' first
    | with_reducible assumption
    | (extract_lets +onlyGivenNames x; refine have hx : Ok qq x := ?_; ?_; rotate_left; clear_value x; rotate_right; subst x)
    | (extract_lets +onlyGivenNames x; clear_value x)
    | with_reducible apply State.refuseBank_ok
    | with_reducible apply State.setFld_ok
    | with_reducible apply State.noticeIf_ok
    | with_reducible apply State.setFlag_ok
    | with_reducible apply xoffUp_ok
    | with_reducible apply xoffDown_ok
    | with_reducible apply ok_ite

theorem execQueWmWrite_ok {qq : List Instr} (w : Writer) (q : Fin 160) (v : W32) (s : State) (hs : Ok qq s) : OkOut qq (execQueWmWrite w q v s) := by
  unfold execQueWmWrite
  repeat' first
    | with_reducible assumption
    | with_reducible refine OkOut.next ?_
    | with_reducible apply State.linked_ok
    | with_reducible apply queWmWrite_ok

theorem queCfgWrite_ok {qq : List Instr} (q : Nat) (v : W32) (w : Writer) (s : State) (hs : Ok qq s) : Ok qq (queCfgWrite q v w s) := by
  unfold queCfgWrite
  repeat' first
    | with_reducible assumption
    | (extract_lets +onlyGivenNames x; clear_value x)
    | with_reducible apply State.deny_ok
    | with_reducible apply State.refuseBank_ok
    | with_reducible apply State.setReg_ok
    | with_reducible apply ok_ite

theorem execQueCfgWrite_ok {qq : List Instr} (w : Writer) (q : Fin 160) (v : W32) (s : State) (hs : Ok qq s) : OkOut qq (execQueCfgWrite w q v s) := by
  unfold execQueCfgWrite
  repeat' first
    | with_reducible assumption
    | with_reducible refine OkOut.next ?_
    | with_reducible apply State.linked_ok
    | with_reducible apply queCfgWrite_ok

theorem queCntClr_ok {qq : List Instr} (q : Nat) (s : State) (hs : Ok qq s) : Ok qq (queCntClr q s) := by
  unfold queCntClr
  repeat' first
    | with_reducible assumption
    | with_reducible apply State.setReg_ok

theorem execQueCntClr_ok {qq : List Instr} (w : Writer) (q : Fin 160) (s : State) (hs : Ok qq s) : OkOut qq (execQueCntClr w q s) := by
  unfold execQueCntClr
  repeat' first
    | with_reducible assumption
    | with_reducible refine OkOut.next ?_
    | with_reducible apply State.linked_ok
    | with_reducible apply queCntClr_ok

end Sys2Proof.Machine
end

