-- ==== Sys2Proof/Laws/OkSchedCore.lean ====
section
/-! SUPPORT. What the operations of Machine/SchedCore.lean keep: each takes a sound state with the same commands waiting to
such a state (see Laws/Ok.lean). -/

namespace Sys2Proof.Machine

theorem State.setTb_ok {qq : List Instr} (s : State) (n : Nat) (h : TbHid) (hs : Ok qq s) : Ok qq (State.setTb s n h) := by
  unfold State.setTb
  repeat' first
    | with_reducible exact ok_mk (by assumption) rfl rfl rfl rfl rfl rfl rfl rfl rfl

theorem State.setSlot_ok {qq : List Instr} (s : State) (n : Nat) (x : Slot) (hs : Ok qq s) : Ok qq (State.setSlot s n x) := by
  unfold State.setSlot
  repeat' first
    | with_reducible assumption
    | with_reducible exact ok_mk (by assumption) rfl rfl rfl rfl rfl rfl rfl rfl rfl
    | (extract_lets +onlyGivenNames x; refine have hx : Ok qq x := ?_; ?_; rotate_left; clear_value x; rotate_right; subst x)
    | (extract_lets +onlyGivenNames x; (first | have hh : Sched := x | have hh : Hea := x | have hh : Ldr := x | have hh : Eng := x); clear hh; subst x)
    | (extract_lets +onlyGivenNames x; clear_value x)
    | with_reducible apply State.setFld_ok

theorem State.freeSlot_ok {qq : List Instr} (s : State) (n : Nat) (hs : Ok qq s) : Ok qq (State.freeSlot s n) := by
  unfold State.freeSlot
  repeat' first
    | with_reducible assumption
    | with_reducible apply State.setSlot_ok

theorem lineApply_ok {qq : List Instr} (s : State) (n : Nat) (t : Nat) (level : Bool) (pulses : Nat) (hs : Ok qq s) : Ok qq (lineApply s n t level pulses).1 := by
  unfold lineApply
  repeat' first
    | with_reducible assumption
    | with_reducible exact ok_mk (by assumption) rfl rfl rfl rfl rfl rfl rfl rfl rfl
    | (extract_lets +onlyGivenNames x; refine have hx : Ok qq x := ?_; ?_; rotate_left; clear_value x; rotate_right; subst x)
    | (extract_lets +onlyGivenNames x; (first | have hh : Sched := x | have hh : Hea := x | have hh : Ldr := x | have hh : Eng := x); clear hh; subst x)
    | (extract_lets +onlyGivenNames x; clear_value x)
    | with_reducible apply State.setFlag_ok
    | with_reducible apply State.setFld_ok
    | with_reducible apply ok_ite

theorem queueMove_ok {qq : List Instr} (s : State) (w3 : W64) (up : Bool) (hs : Ok qq s) : Ok qq (queueMove s w3 up) := by
  unfold queueMove
  repeat' first
    | with_reducible assumption
    | (extract_lets +onlyGivenNames x; clear_value x)
    | with_reducible apply State.setFld_ok
    | with_reducible apply ok_ite

theorem complete_ok {qq : List Instr} (n : Nat) (x : Slot) (status : Nat) (fired : W64) (pos : W64) (extra : Nat) (s : State) (hs : Ok qq s) : Ok qq (complete n x status fired pos extra s) := by
  unfold complete
  repeat' first
    | with_reducible assumption
    | (extract_lets +onlyGivenNames x; refine have hx : Ok qq x := ?_; ?_; rotate_left; clear_value x; rotate_right; subst x)
    | (extract_lets +onlyGivenNames x; clear_value x)
    | (extract_lets +onlyGivenNames x; subst x)
    | with_reducible apply State.noticeIf_ok
    | with_reducible apply State.bump_ok
    | with_reducible apply deliverCompl_ok
    | with_reducible apply ok_ite
    | split

theorem completeUnfired_ok {qq : List Instr} (n : Nat) (x : Slot) (status : Nat) (s : State) (hs : Ok qq s) : Ok qq (completeUnfired n x status s) := by
  unfold completeUnfired
  repeat' first
    | with_reducible assumption
    | (extract_lets +onlyGivenNames x; refine have hx : Ok qq x := ?_; ?_; rotate_left; clear_value x; rotate_right; subst x)
    | (extract_lets +onlyGivenNames x; clear_value x)
    | with_reducible apply State.tookFree_ok
    | with_reducible apply complete_ok

theorem commitNow_ok {qq : List Instr} (n : Nat) (x : Slot) (s : State) (hs : Ok qq s) : Ok qq (commitNow n x s) := by
  unfold commitNow
  repeat' first
    | with_reducible assumption
    | with_reducible apply State.setSlot_ok
    | with_reducible apply queueMove_ok
    | with_reducible apply ok_ite

theorem rearmLoop_ok {qq : List Instr} (a0 : Nat) (a1 : Nat) (a2 : Slot) (a3 : Nat) (a4 : State) (ha4 : Ok qq a4) : Ok qq (rearmLoop a0 a1 a2 a3 a4) := by
  revert ha4
  fun_induction rearmLoop a0 a1 a2 a3 a4 <;> intro ha4
  all_goals repeat' first
    | with_reducible assumption
    | with_reducible refine (by assumption : Ok _ _ → Ok _ _) ?_
    | with_reducible apply State.setSlot_ok
    | with_reducible apply State.freeSlot_ok
    | with_reducible apply completeUnfired_ok
    | with_reducible apply commitNow_ok

theorem afterFiring_ok {qq : List Instr} (n : Nat) (x : Slot) (t : Nat) (held : Nat) (s : State) (hs : Ok qq s) : Ok qq (afterFiring n x t held s) := by
  unfold afterFiring
  repeat' first
    | with_reducible assumption
    | with_reducible apply rearmLoop_ok
    | with_reducible apply State.freeSlot_ok
    | with_reducible apply State.setSlot_ok
    | with_reducible apply ok_ite

theorem releaseRun_ok {qq : List Instr} (r : Run) (s : State) (hs : Ok qq s) : Ok qq (releaseRun r s) := by
  unfold releaseRun
  repeat' first
    | with_reducible assumption
    | with_reducible apply State.freeSlot_ok
    | with_reducible apply ok_ite

theorem endPulse_ok {qq : List Instr} (r : Run) (t : Nat) (status : Option Nat) (limit : Bool) (s : State) (hs : Ok qq s) : Ok qq (endPulse r t status limit s) := by
  unfold endPulse
  repeat' first
    | with_reducible assumption
    | (extract_lets +onlyGivenNames x; clear_value x)
    | with_reducible apply lineApply_ok
    | with_reducible apply complete_ok
    | with_reducible apply releaseRun_ok

theorem endWindow_ok {qq : List Instr} (r : Run) (status : Option Nat) (limit : Bool) (s : State) (hs : Ok qq s) : Ok qq (endWindow r status limit s) := by
  unfold endWindow
  repeat' first
    | with_reducible assumption
    | (extract_lets +onlyGivenNames x; refine have hx : Ok qq x := ?_; ?_; rotate_left; clear_value x; rotate_right; subst x)
    | (extract_lets +onlyGivenNames x; clear_value x)
    | with_reducible apply State.setFlag_ok
    | with_reducible apply complete_ok
    | with_reducible apply releaseRun_ok
    | split

theorem endRun_ok {qq : List Instr} (r : Run) (t : Nat) (status : Option Nat) (limit : Bool) (s : State) (hs : Ok qq s) : Ok qq (endRun r t status limit s) := by
  unfold endRun
  repeat' first
    | with_reducible assumption
    | with_reducible apply endWindow_ok
    | with_reducible apply endPulse_ok
    | with_reducible apply ok_ite

theorem endRuns_ok {qq : List Instr} (a0 : Nat) (a1 : Run → Bool) (a2 : Nat) (a3 : Nat) (a4 : State) (ha4 : Ok qq a4) : Ok qq (endRuns a0 a1 a2 a3 a4) := by
  revert ha4
  fun_induction endRuns a0 a1 a2 a3 a4 <;> intro ha4
  all_goals repeat' first
    | with_reducible assumption
    | with_reducible refine (by assumption : Ok _ _ → Ok _ _) ?_
    | with_reducible exact ok_mk (by assumption) rfl rfl rfl rfl rfl rfl rfl rfl rfl
    | (extract_lets +onlyGivenNames x; have hh : Sched := x; clear hh; subst x)
    | with_reducible apply endRun_ok

theorem withdraw_ok {qq : List Instr} (n : Nat) (x : Slot) (s : State) (hs : Ok qq s) : Ok qq (withdraw n x s) := by
  unfold withdraw
  repeat' first
    | with_reducible assumption
    | with_reducible apply State.setSlot_ok
    | with_reducible apply queueMove_ok

theorem cancelSlot_ok {qq : List Instr} (n : Nat) (s : State) (hs : Ok qq s) : Ok qq (cancelSlot n s).1 := by
  unfold cancelSlot
  repeat' first
    | with_reducible assumption
    | with_reducible exact ok_mk (by assumption) rfl rfl rfl rfl rfl rfl rfl rfl rfl
    | (extract_lets +onlyGivenNames x; (first | have hh : Sched := x | have hh : Hea := x | have hh : Ldr := x | have hh : Eng := x); clear hh; subst x)
    | (extract_lets +onlyGivenNames x; clear_value x)
    | with_reducible apply State.freeSlot_ok
    | with_reducible apply completeUnfired_ok
    | with_reducible apply queueMove_ok
    | with_reducible apply endRun_ok
    | with_reducible apply okFst_ite
    | split

theorem cancelBy_ok {qq : List Instr} (who : Armer) (n : Nat) (s : State) (hs : Ok qq s) : Ok qq (cancelBy who n s).1 := by
  unfold cancelBy
  repeat' first
    | with_reducible assumption
    | (extract_lets +onlyGivenNames x; clear_value x)
    | with_reducible apply cancelSlot_ok
    | with_reducible apply okFst_ite

theorem endTied_ok {qq : List Instr} (status : Nat) (s : State) (n : Nat) (hs : Ok qq s) : Ok qq (endTied status s n) := by
  unfold endTied
  repeat' first
    | with_reducible assumption
    | (extract_lets +onlyGivenNames x; clear_value x)
    | with_reducible apply State.freeSlot_ok
    | with_reducible apply completeUnfired_ok
    | with_reducible apply queueMove_ok
    | with_reducible apply ok_ite

theorem endTimebase_ok {qq : List Instr} (tb : Nat) (status : Nat) (s : State) (hs : Ok qq s) : Ok qq (endTimebase tb status s) := by
  unfold endTimebase
  repeat' first
    | with_reducible assumption
    | (extract_lets +onlyGivenNames x; refine have hx : Ok qq x := ?_; ?_; rotate_left; clear_value x; rotate_right; subst x)
    | with_reducible apply endTied_ok
    | with_reducible apply endRuns_ok
    | (with_reducible refine ok_foldl ?_ _ ?_; intro _ _ _)

theorem holdTied_ok {qq : List Instr} (s : State) (n : Nat) (hs : Ok qq s) : Ok qq (holdTied s n) := by
  unfold holdTied
  repeat' first
    | with_reducible assumption
    | (extract_lets +onlyGivenNames x; clear_value x)
    | with_reducible apply State.setSlot_ok
    | with_reducible apply withdraw_ok
    | with_reducible apply ok_ite

theorem holdTimebase_ok {qq : List Instr} (tb : Nat) (s : State) (hs : Ok qq s) : Ok qq (holdTimebase tb s) := by
  unfold holdTimebase
  repeat' first
    | with_reducible assumption
    | with_reducible apply holdTied_ok
    | (with_reducible refine ok_foldl ?_ _ ?_; intro _ _ _)

theorem jumpTied_ok {qq : List Instr} (old : W64) (new : W64) (s : State) (n : Nat) (hs : Ok qq s) : Ok qq (jumpTied old new s n) := by
  unfold jumpTied
  repeat' first
    | with_reducible assumption
    | (extract_lets +onlyGivenNames x; refine have hx : Ok qq x := ?_; ?_; rotate_left; clear_value x; rotate_right; subst x)
    | (extract_lets +onlyGivenNames x; clear_value x)
    | with_reducible apply withdraw_ok
    | with_reducible apply commitNow_ok
    | with_reducible apply completeUnfired_ok
    | with_reducible apply rearmLoop_ok
    | with_reducible apply State.freeSlot_ok
    | with_reducible apply State.setSlot_ok
    | with_reducible apply ok_ite

theorem jumpTimebase_ok {qq : List Instr} (tb : Nat) (old : W64) (new : W64) (s : State) (hs : Ok qq s) : Ok qq (jumpTimebase tb old new s) := by
  unfold jumpTimebase
  repeat' first
    | with_reducible assumption
    | with_reducible apply jumpTied_ok
    | (with_reducible refine ok_foldl ?_ _ ?_; intro _ _ _)

theorem denyDest_ok {qq : List Instr} (s : State) (w3 : W64) (owner : Nat) (hs : Ok qq s) : Ok qq (denyDest s w3 owner) := by
  unfold denyDest
  repeat' first
    | with_reducible assumption
    | (extract_lets +onlyGivenNames x; clear_value x)
    | with_reducible apply State.deny_ok
    | with_reducible apply ok_ite

theorem refusedArm_ok {qq : List Instr} (who : Armer) (code : Nat) (w3 : W64) (s : State) (hs : Ok qq s) : Ok qq (refusedArm who code w3 s).1 := by
  unfold refusedArm
  repeat' first
    | with_reducible assumption
    | (extract_lets +onlyGivenNames x; refine have hx : Ok qq x := ?_; ?_; rotate_left; clear_value x; rotate_right; subst x)
    | (extract_lets +onlyGivenNames x; clear_value x)
    | with_reducible apply State.tookFree_ok
    | with_reducible apply deliverCompl_ok

theorem acceptArm_ok {qq : List Instr} (who : Armer) (owner : Nat) (w0 : W64) (w1 : W64) (w2 : W64) (w3 : W64) (s : State) (hs : Ok qq s) : Ok qq (acceptArm who owner w0 w1 w2 w3 s).1 := by
  unfold acceptArm
  repeat' first
    | with_reducible assumption
    | (extract_lets +onlyGivenNames x; refine have hx : Ok qq x := ?_; ?_; rotate_left; clear_value x; rotate_right; subst x)
    | (extract_lets +onlyGivenNames x; clear_value x)
    | with_reducible apply denyDest_ok
    | with_reducible apply commitNow_ok
    | with_reducible apply completeUnfired_ok
    | with_reducible apply rearmLoop_ok
    | with_reducible apply State.freeSlot_ok
    | with_reducible apply State.setSlot_ok
    | with_reducible apply ok_ite
    | with_reducible apply okFst_ite
    | split

theorem armEvent_ok {qq : List Instr} (who : Armer) (owner : Nat) (w0 : W64) (w1 : W64) (w2 : W64) (w3 : W64) (s : State) (hs : Ok qq s) : Ok qq (armEvent who owner w0 w1 w2 w3 s).1 := by
  unfold armEvent
  repeat' first
    | with_reducible assumption
    | with_reducible apply acceptArm_ok
    | with_reducible apply refusedArm_ok
    | with_reducible apply okFst_ite

end Sys2Proof.Machine
end

