-- ==== Sys2Proof/Laws/OkScheduler.lean ====
section
/-! SUPPORT. What the operations of Machine/Scheduler.lean keep: each takes a sound state with the same commands waiting to
such a state (see Laws/Ok.lean). -/

namespace Sys2Proof.Machine

theorem channelArm_ok {qq : List Instr} (k : Nat) (cmd : W64) (w0 : W64) (w1 : W64) (w2 : W64) (w3 : W64) (s : State) (hs : Ok qq s) : Ok qq (channelArm k cmd w0 w1 w2 w3 s) := by
  unfold channelArm
  repeat' first
    | with_reducible assumption
    | with_reducible apply armEvent_ok
    | with_reducible apply State.setChan_ok
    | with_reducible apply okFst_ite

theorem channelCancel_ok {qq : List Instr} (k : Nat) (cmd : W64) (s : State) (hs : Ok qq s) : Ok qq (channelCancel k cmd s) := by
  unfold channelCancel
  repeat' first
    | with_reducible assumption
    | (extract_lets +onlyGivenNames x; clear_value x)
    | with_reducible apply cancelBy_ok
    | with_reducible apply State.setChan_ok
    | with_reducible apply okFst_ite

theorem channelToken_ok {qq : List Instr} (k : Nat) (port : Nat) (w : W64) (s : State) (hs : Ok qq s) : Ok qq (channelToken k port w s) := by
  unfold channelToken
  repeat' first
    | with_reducible assumption
    | (extract_lets +onlyGivenNames x; refine have hx : Ok qq x := ?_; ?_; rotate_left; clear_value x; rotate_right; subst x)
    | (extract_lets +onlyGivenNames x; clear_value x)
    | with_reducible apply State.setChan_ok
    | with_reducible apply channelCancel_ok
    | with_reducible apply channelArm_ok
    | with_reducible apply ok_ite
    | split

theorem execFabricArm_ok {qq : List Instr} (k : Fin 32) (port : Fin 80) (cmd : W64) (w0 : W64) (w1 : W64) (w2 : W64) (w3 : W64) (s : State) (hs : Ok qq s) : OkOut qq (execFabricArm k port cmd w0 w1 w2 w3 s) := by
  unfold execFabricArm
  repeat' first
    | with_reducible assumption
    | (extract_lets +onlyGivenNames x; refine have hx : Ok qq x := ?_; ?_; rotate_left; clear_value x; rotate_right; subst x)
    | (extract_lets +onlyGivenNames x; clear_value x)
    | with_reducible refine OkOut.next ?_
    | with_reducible apply State.setChan_ok
    | with_reducible apply channelArm_ok
    | with_reducible apply channelCancel_ok
    | with_reducible apply ok_ite

theorem execFabricCancel_ok {qq : List Instr} (k : Fin 32) (port : Fin 80) (cmd : W64) (s : State) (hs : Ok qq s) : OkOut qq (execFabricCancel k port cmd s) := by
  unfold execFabricCancel
  repeat' first
    | with_reducible assumption
    | with_reducible refine OkOut.next ?_
    | with_reducible apply channelToken_ok
    | with_reducible apply ok_ite

theorem execFabricReplyTaken_ok {qq : List Instr} (k : Fin 32) (completion : Bool) (s : State) (hs : Ok qq s) : OkOut qq (execFabricReplyTaken k completion s) := by
  unfold execFabricReplyTaken
  repeat' first
    | with_reducible assumption
    | (extract_lets +onlyGivenNames x; clear_value x)
    | with_reducible refine OkOut.next ?_
    | with_reducible apply State.setChan_ok

theorem recheck_ok {qq : List Instr} (s : State) (n : Nat) (hs : Ok qq s) : Ok qq (recheck s n) := by
  unfold recheck
  repeat' first
    | with_reducible assumption
    | (extract_lets +onlyGivenNames x; clear_value x)
    | with_reducible apply withdraw_ok
    | with_reducible apply ok_ite
    | split

theorem leaveHorizon_ok {qq : List Instr} (s : State) (n : Nat) (hs : Ok qq s) : Ok qq (leaveHorizon s n) := by
  unfold leaveHorizon
  repeat' first
    | with_reducible assumption
    | (extract_lets +onlyGivenNames x; clear_value x)
    | with_reducible apply State.setSlot_ok

theorem serve_ok {qq : List Instr} (s : State) (c : Cand) (hs : Ok qq s) : Ok qq (serve s c) := by
  unfold serve
  repeat' first
    | with_reducible assumption
    | (extract_lets +onlyGivenNames x; clear_value x)
    | with_reducible apply State.setSlot_ok
    | with_reducible apply State.freeSlot_ok
    | with_reducible apply completeUnfired_ok
    | with_reducible apply commitNow_ok
    | with_reducible apply queueMove_ok
    | with_reducible apply ok_ite

theorem retryNow_ok {qq : List Instr} (s : State) (n : Nat) (hs : Ok qq s) : Ok qq (retryNow s n) := by
  unfold retryNow
  repeat' first
    | with_reducible assumption
    | (extract_lets +onlyGivenNames x; clear_value x)
    | with_reducible apply State.freeSlot_ok
    | with_reducible apply completeUnfired_ok
    | with_reducible apply commitNow_ok
    | with_reducible apply ok_ite

theorem schedPublication_ok {qq : List Instr} (s : State) (hs : Ok qq s) : Ok qq (schedPublication s) := by
  unfold schedPublication
  repeat' first
    | with_reducible assumption
    | (extract_lets +onlyGivenNames x; refine have hx : Ok qq x := ?_; ?_; rotate_left; clear_value x; rotate_right; subst x)
    | (extract_lets +onlyGivenNames x; clear_value x)
    | with_reducible apply recheck_ok
    | with_reducible apply retryNow_ok
    | with_reducible apply serve_ok
    | with_reducible apply leaveHorizon_ok
    | (with_reducible refine ok_foldl ?_ _ ?_; intro _ _ _)

theorem execSchedPublication_ok {qq : List Instr} (s : State) (hs : Ok qq s) : OkOut qq (execSchedPublication s) := by
  unfold execSchedPublication
  repeat' first
    | with_reducible assumption
    | with_reducible refine OkOut.next ?_
    | with_reducible apply schedPublication_ok
    | with_reducible apply ok_ite

theorem firing_ok {qq : List Instr} (x : Slot) (t : Nat) (moved : Bool) (s : State) (hs : Ok qq s) : Ok qq (firing x t moved s).1 := by
  unfold firing
  repeat' first
    | with_reducible assumption
    | (extract_lets +onlyGivenNames x; refine have hx : Ok qq x := ?_; ?_; rotate_left; clear_value x; rotate_right; subst x)
    | (extract_lets +onlyGivenNames x; clear_value x)
    | with_reducible apply State.tookFree_ok
    | with_reducible apply ok_ite

theorem fireIdle_ok {qq : List Instr} (n : Nat) (x : Slot) (t : Nat) (status : Nat) (s : State) (hs : Ok qq s) : Ok qq (fireIdle n x t status s) := by
  unfold fireIdle
  repeat' first
    | with_reducible assumption
    | with_reducible apply firing_ok
    | with_reducible apply afterFiring_ok
    | with_reducible apply complete_ok

theorem fireDone_ok {qq : List Instr} (n : Nat) (x : Slot) (t : Nat) (moved : Bool) (s : State) (hs : Ok qq s) : Ok qq (fireDone n x t moved s) := by
  unfold fireDone
  repeat' first
    | with_reducible assumption
    | with_reducible apply firing_ok
    | with_reducible apply afterFiring_ok
    | with_reducible apply complete_ok

theorem collideLosers_ok {qq : List Instr} (l : List (Nat × Slot)) (s : State) (hs : Ok qq s) : Ok qq (collideLosers l s) := by
  unfold collideLosers
  repeat' first
    | with_reducible assumption
    | with_reducible apply fireIdle_ok
    | with_reducible apply queueMove_ok
    | (with_reducible refine ok_foldl ?_ _ ?_; intro _ _ _)

theorem fireLevel_ok {qq : List Instr} (n : Nat) (x : Slot) (t : Nat) (s : State) (hs : Ok qq s) : Ok qq (fireLevel n x t s) := by
  unfold fireLevel
  repeat' first
    | with_reducible assumption
    | (extract_lets +onlyGivenNames x; clear_value x)
    | with_reducible apply lineApply_ok
    | with_reducible apply fireDone_ok

theorem firePulse_ok {qq : List Instr} (n : Nat) (x : Slot) (t : Nat) (s : State) (hs : Ok qq s) : Ok qq (firePulse n x t s) := by
  unfold firePulse
  extract_lets d k
  split
  · exact fireIdle_ok _ _ _ _ _ hs
  · split
    next e1 =>
    split
    next e2 =>
    have h1 := ok_fst e1 (lineApply_ok _ _ _ _ _ hs)
    have h2 := ok_fst e2 (firing_ok _ _ _ _ h1)
    exact afterFiring_ok _ _ _ _ _ (ok_mk h2 rfl rfl rfl rfl rfl rfl rfl rfl rfl)

theorem fireToken_ok {qq : List Instr} (n : Nat) (x : Slot) (t : Nat) (s : State) (hs : Ok qq s) : Ok qq (fireToken n x t s) := by
  unfold fireToken
  repeat' first
    | with_reducible assumption
    | with_reducible exact ok_mk (by assumption) rfl rfl rfl rfl rfl rfl rfl rfl rfl
    | (extract_lets +onlyGivenNames x; (first | have hh : Sched := x | have hh : Hea := x | have hh : Ldr := x | have hh : Eng := x); clear hh; subst x)
    | (extract_lets +onlyGivenNames x; clear_value x)
    | with_reducible apply fireIdle_ok
    | with_reducible apply fireDone_ok
    | with_reducible apply ok_ite

theorem deliverWake_ok {qq : List Instr} (e : Nat) (c : Nat) (v : Nat) (s : State) (hs : Ok qq s) : Ok qq (deliverWake e c v s).1 := by
  unfold deliverWake
  repeat' first
    | with_reducible assumption
    | (extract_lets +onlyGivenNames x; refine have hx : Ok qq x := ?_; ?_; rotate_left; clear_value x; rotate_right; subst x)
    | (extract_lets +onlyGivenNames x; clear_value x)
    | with_reducible apply State.setFlag_ok
    | with_reducible apply State.setFld_ok
    | with_reducible apply State.wakeCtx_ok

theorem fireWake_ok {qq : List Instr} (n : Nat) (x : Slot) (t : Nat) (s : State) (hs : Ok qq s) : Ok qq (fireWake n x t s) := by
  unfold fireWake
  repeat' first
    | with_reducible assumption
    | with_reducible apply deliverWake_ok
    | with_reducible apply fireIdle_ok
    | with_reducible apply fireDone_ok
    | with_reducible apply ok_ite

theorem fireDac_ok {qq : List Instr} (n : Nat) (x : Slot) (t : Nat) (s : State) (hs : Ok qq s) : Ok qq (fireDac n x t s) := by
  unfold fireDac
  repeat' first
    | with_reducible assumption
    | with_reducible apply fireDone_ok
    | with_reducible apply State.setFld_ok

theorem fireCapture_ok {qq : List Instr} (n : Nat) (x : Slot) (t : Nat) (s : State) (hs : Ok qq s) : Ok qq (fireCapture n x t s) := by
  unfold fireCapture
  extract_lets d
  split
  · exact fireIdle_ok _ _ _ _ _ hs
  · split
    next e2 =>
    have h2 := State.setFlag_ok _ Fld.evtCapStatOpen true d 0 (ok_fst e2 (firing_ok _ _ _ _ hs))
    exact afterFiring_ok _ _ _ _ _ (ok_mk h2 rfl rfl rfl rfl rfl rfl rfl rfl rfl)

theorem act_ok {qq : List Instr} (n : Nat) (x : Slot) (t : Nat) (s : State) (hs : Ok qq s) : Ok qq (act n x t s) := by
  unfold act
  repeat' first
    | with_reducible assumption
    | with_reducible apply fireLevel_ok
    | with_reducible apply firePulse_ok
    | with_reducible apply fireToken_ok
    | with_reducible apply fireWake_ok
    | with_reducible apply fireDac_ok
    | with_reducible apply fireCapture_ok
    | with_reducible apply fireDone_ok
    | split

theorem fireSlot_ok {qq : List Instr} (n : Nat) (at_ : Nat) (s : State) (hs : Ok qq s) : Ok qq (fireSlot n at_ s) := by
  unfold fireSlot
  repeat' first
    | with_reducible assumption
    | (extract_lets +onlyGivenNames x; refine have hx : Ok qq x := ?_; ?_; rotate_left; clear_value x; rotate_right; subst x)
    | (extract_lets +onlyGivenNames x; clear_value x)
    | with_reducible apply queueMove_ok
    | with_reducible apply fireIdle_ok
    | with_reducible apply collideLosers_ok
    | with_reducible apply act_ok
    | with_reducible apply ok_ite

theorem execEventFire_ok {qq : List Instr} (n : Fin 4096) (t : Stamp) (s : State) (hs : Ok qq s) : OkOut qq (execEventFire n t s) := by
  unfold execEventFire
  repeat' first
    | with_reducible assumption
    | with_reducible refine OkOut.next ?_
    | with_reducible apply fireSlot_ok

theorem endSlotRun_ok {qq : List Instr} (p : Run → Bool) (t : Nat) (limit : Bool) (s : State) (hs : Ok qq s) : Ok qq (endSlotRun p t limit s) := by
  unfold endSlotRun
  repeat' first
    | with_reducible assumption
    | with_reducible exact ok_mk (by assumption) rfl rfl rfl rfl rfl rfl rfl rfl rfl
    | (extract_lets +onlyGivenNames x; have hh : Sched := x; clear hh; subst x)
    | with_reducible apply endRun_ok
    | split

theorem execPulseEnd_ok {qq : List Instr} (n : Fin 4096) (t : Stamp) (s : State) (hs : Ok qq s) : OkOut qq (execPulseEnd n t s) := by
  unfold execPulseEnd
  repeat' first
    | with_reducible assumption
    | with_reducible refine OkOut.next ?_
    | with_reducible apply endSlotRun_ok

theorem execWidthLimitExpiry_ok {qq : List Instr} (n : Fin 4096) (t : Stamp) (s : State) (hs : Ok qq s) : OkOut qq (execWidthLimitExpiry n t s) := by
  unfold execWidthLimitExpiry
  repeat' first
    | with_reducible assumption
    | with_reducible refine OkOut.next ?_
    | with_reducible apply endSlotRun_ok

theorem execEventExpiry_ok {qq : List Instr} (n : Fin 4096) (s : State) (hs : Ok qq s) : OkOut qq (execEventExpiry n s) := by
  unfold execEventExpiry
  repeat' first
    | with_reducible assumption
    | (extract_lets +onlyGivenNames x; clear_value x)
    | with_reducible refine OkOut.next ?_
    | with_reducible apply State.freeSlot_ok
    | with_reducible apply completeUnfired_ok
    | with_reducible apply ok_ite

theorem captureEdge_ok {qq : List Instr} (k : Nat) (rising : Bool) (t : Nat) (s : State) (hs : Ok qq s) : Ok qq (captureEdge k rising t s) := by
  unfold captureEdge
  repeat' first
    | with_reducible assumption
    | with_reducible exact ok_mk (by assumption) rfl rfl rfl rfl rfl rfl rfl rfl rfl
    | (extract_lets +onlyGivenNames x; refine have hx : Ok qq x := ?_; ?_; rotate_left; clear_value x; rotate_right; subst x)
    | (extract_lets +onlyGivenNames x; (first | have hh : Sched := x | have hh : Hea := x | have hh : Ldr := x | have hh : Eng := x); clear hh; subst x)
    | (extract_lets +onlyGivenNames x; clear_value x)
    | with_reducible apply State.tookFree_ok
    | with_reducible apply ok_ite

theorem execCaptureEdge_ok {qq : List Instr} (k : Fin 64) (rising : Bool) (t : Stamp) (s : State) (hs : Ok qq s) : OkOut qq (execCaptureEdge k rising t s) := by
  unfold execCaptureEdge
  repeat' first
    | with_reducible assumption
    | with_reducible refine OkOut.next ?_
    | with_reducible apply captureEdge_ok

theorem execCaptureWindowClose_ok {qq : List Instr} (k : Fin 64) (s : State) (hs : Ok qq s) : OkOut qq (execCaptureWindowClose k s) := by
  unfold execCaptureWindowClose
  repeat' first
    | with_reducible assumption
    | with_reducible refine OkOut.next ?_
    | with_reducible apply endSlotRun_ok

theorem tokenDrain_ok {qq : List Instr} (k : Nat) (s : State) (hs : Ok qq s) : Ok qq (tokenDrain k s) := by
  unfold tokenDrain
  repeat' first
    | with_reducible assumption
    | with_reducible exact ok_mk (by assumption) rfl rfl rfl rfl rfl rfl rfl rfl rfl
    | (extract_lets +onlyGivenNames x; refine have hx : Ok qq x := ?_; ?_; rotate_left; clear_value x; rotate_right; subst x)
    | (extract_lets +onlyGivenNames x; (first | have hh : Sched := x | have hh : Hea := x | have hh : Ldr := x | have hh : Eng := x); clear hh; subst x)
    | with_reducible apply State.putTrans_ok
    | with_reducible apply State.occupy_ok
    | with_reducible apply ok_ite
    | split

theorem execEventTokenDrain_ok {qq : List Instr} (k : Fin 64) (s : State) (hs : Ok qq s) : OkOut qq (execEventTokenDrain k s) := by
  unfold execEventTokenDrain
  repeat' first
    | with_reducible assumption
    | with_reducible refine OkOut.next ?_
    | with_reducible apply tokenDrain_ok

theorem setAged_ok {qq : List Instr} (u : Nat) (b : Bool) (s : State) (hs : Ok qq s) : Ok qq (setAged u b s) := by
  unfold setAged
  repeat' first
    | with_reducible assumption
    | (extract_lets +onlyGivenNames x; refine have hx : Ok qq x := ?_; ?_; rotate_left; clear_value x; rotate_right; subst x)
    | (extract_lets +onlyGivenNames x; clear_value x)
    | with_reducible apply State.setFlag_ok
    | with_reducible apply ok_ite

theorem State.setCal_ok {qq : List Instr} (s : State) (u : Nat) (c : Cal) (hs : Ok qq s) : Ok qq (State.setCal s u c) := by
  unfold State.setCal
  repeat' first
    | with_reducible exact ok_mk (by assumption) rfl rfl rfl rfl rfl rfl rfl rfl rfl

theorem execCalMeasureDone_ok {qq : List Instr} (u : Fin 128) (s : State) (hs : Ok qq s) : OkOut qq (execCalMeasureDone u s) := by
  unfold execCalMeasureDone
  repeat' first
    | with_reducible assumption
    | (extract_lets +onlyGivenNames x; clear_value x)
    | with_reducible refine OkOut.next ?_
    | with_reducible apply State.setCal_ok
    | with_reducible apply ok_ite

theorem calSwap_ok {qq : List Instr} (u : Nat) (s : State) (hs : Ok qq s) : Ok qq (calSwap u s) := by
  unfold calSwap
  repeat' first
    | with_reducible assumption
    | (extract_lets +onlyGivenNames x; clear_value x)
    | with_reducible apply setAged_ok
    | with_reducible apply State.setCal_ok
    | with_reducible apply ok_ite

theorem execCalRoleSwap_ok {qq : List Instr} (u : Fin 128) (s : State) (hs : Ok qq s) : OkOut qq (execCalRoleSwap u s) := by
  unfold execCalRoleSwap
  repeat' first
    | with_reducible assumption
    | with_reducible refine OkOut.next ?_
    | with_reducible apply calSwap_ok

theorem execCalAgeExpiry_ok {qq : List Instr} (u : Fin 128) (s : State) (hs : Ok qq s) : OkOut qq (execCalAgeExpiry u s) := by
  unfold execCalAgeExpiry
  repeat' first
    | with_reducible assumption
    | with_reducible refine OkOut.next ?_
    | with_reducible apply setAged_ok

theorem refuseEvt_ok {qq : List Instr} (code : Nat) (index : Nat) (s : State) (hs : Ok qq s) : Ok qq (refuseEvt code index s) := by
  unfold refuseEvt
  repeat' first
    | with_reducible assumption
    | with_reducible apply State.refuse_ok

theorem killOne_ok {qq : List Instr} (s : State) (n : Nat) (hs : Ok qq s) : Ok qq (killOne s n) := by
  unfold killOne
  repeat' first
    | with_reducible assumption
    | with_reducible apply cancelSlot_ok

theorem killLine_ok {qq : List Instr} (s : State) (n : Nat) (hs : Ok qq s) : Ok qq (killLine s n) := by
  unfold killLine
  repeat' first
    | with_reducible assumption
    | (extract_lets +onlyGivenNames x; clear_value x)
    | with_reducible apply lineApply_ok
    | with_reducible apply ok_ite

theorem kill_ok {qq : List Instr} (mode : Nat) (index : Nat) (s : State) (hs : Ok qq s) : Ok qq (kill mode index s) := by
  unfold kill
  repeat' first
    | with_reducible assumption
    | (extract_lets +onlyGivenNames x; refine have hx : Ok qq x := ?_; ?_; rotate_left; clear_value x; rotate_right; subst x)
    | (extract_lets +onlyGivenNames x; clear_value x)
    | with_reducible apply killOne_ok
    | with_reducible apply endRuns_ok
    | with_reducible apply killLine_ok
    | with_reducible apply ok_ite
    | (with_reducible refine ok_foldl ?_ _ ?_; intro _ _ _)

theorem evtKill_ok {qq : List Instr} (w : Writer) (v : W32) (s : State) (hs : Ok qq s) : Ok qq (evtKill w v s) := by
  unfold evtKill
  repeat' first
    | with_reducible assumption
    | (extract_lets +onlyGivenNames x; refine have hx : Ok qq x := ?_; ?_; rotate_left; clear_value x; rotate_right; subst x)
    | (extract_lets +onlyGivenNames x; clear_value x)
    | with_reducible apply State.denyWarden_ok
    | with_reducible apply refuseEvt_ok
    | with_reducible apply State.setReg_ok
    | with_reducible apply kill_ok
    | with_reducible apply ok_ite

theorem execEvtKillGo_ok {qq : List Instr} (w : Writer) (v : W32) (s : State) (hs : Ok qq s) : OkOut qq (execEvtKillGo w v s) := by
  unfold execEvtKillGo
  repeat' first
    | with_reducible assumption
    | with_reducible refine OkOut.next ?_
    | with_reducible apply State.linked_ok
    | with_reducible apply evtKill_ok

theorem evtCntClr_ok {qq : List Instr} (h : Nat) (s : State) (hs : Ok qq s) : Ok qq (evtCntClr h s) := by
  unfold evtCntClr
  repeat' first
    | with_reducible assumption
    | with_reducible apply State.setFlag_ok
    | with_reducible apply State.setReg_ok

theorem execEvtCntClr_ok {qq : List Instr} (w : Writer) (h : Fin 2) (s : State) (hs : Ok qq s) : OkOut qq (execEvtCntClr w h s) := by
  unfold execEvtCntClr
  repeat' first
    | with_reducible assumption
    | with_reducible refine OkOut.next ?_
    | with_reducible apply State.linked_ok
    | with_reducible apply evtCntClr_ok

theorem evtCfgWrite_ok {qq : List Instr} (h : Nat) (v : W32) (s : State) (hs : Ok qq s) : Ok qq (evtCfgWrite h v s) := by
  unfold evtCfgWrite
  repeat' first
    | with_reducible assumption
    | (extract_lets +onlyGivenNames x; refine have hx : Ok qq x := ?_; ?_; rotate_left; clear_value x; rotate_right; subst x)
    | (extract_lets +onlyGivenNames x; clear_value x)
    | with_reducible apply refuseEvt_ok
    | with_reducible apply State.setReg_ok
    | with_reducible apply evtCntClr_ok
    | with_reducible apply ok_ite

theorem execEvtCfgWrite_ok {qq : List Instr} (w : Writer) (h : Fin 2) (v : W32) (s : State) (hs : Ok qq s) : OkOut qq (execEvtCfgWrite w h v s) := by
  unfold execEvtCfgWrite
  repeat' first
    | with_reducible assumption
    | with_reducible refine OkOut.next ?_
    | with_reducible apply State.linked_ok
    | with_reducible apply evtCfgWrite_ok

theorem slotSel_ok {qq : List Instr} (slot : Nat) (s : State) (hs : Ok qq s) : Ok qq (slotSel slot s) := by
  unfold slotSel
  repeat' first
    | with_reducible assumption
    | with_reducible exact ok_mk (by assumption) rfl rfl rfl rfl rfl rfl rfl rfl rfl
    | (extract_lets +onlyGivenNames x; refine have hx : Ok qq x := ?_; ?_; rotate_left; clear_value x; rotate_right; subst x)
    | with_reducible apply State.setFlag_ok
    | with_reducible apply State.setFld_ok

theorem execEvtSlotSel_ok {qq : List Instr} (w : Writer) (slot : Fin 4096) (s : State) (hs : Ok qq s) : OkOut qq (execEvtSlotSel w slot s) := by
  unfold execEvtSlotSel
  repeat' first
    | with_reducible assumption
    | with_reducible refine OkOut.next ?_
    | with_reducible apply State.linked_ok
    | with_reducible apply slotSel_ok

theorem slotCopy_ok {qq : List Instr} (s : State) (hs : Ok qq s) : Ok qq (slotCopy s) := by
  unfold slotCopy
  repeat' first
    | with_reducible assumption
    | with_reducible exact ok_mk (by assumption) rfl rfl rfl rfl rfl rfl rfl rfl rfl
    | (extract_lets +onlyGivenNames x; refine have hx : Ok qq x := ?_; ?_; rotate_left; clear_value x; rotate_right; subst x)
    | (extract_lets +onlyGivenNames x; (first | have hh : Sched := x | have hh : Hea := x | have hh : Ldr := x | have hh : Eng := x); clear hh; subst x)
    | (extract_lets +onlyGivenNames x; clear_value x)
    | with_reducible apply State.setReg_ok
    | with_reducible apply State.setFlag_ok
    | with_reducible apply ok_ite

theorem execSlotCopyDone_ok {qq : List Instr} (s : State) (hs : Ok qq s) : OkOut qq (execSlotCopyDone s) := by
  unfold execSlotCopyDone
  repeat' first
    | with_reducible assumption
    | with_reducible refine OkOut.next ?_
    | with_reducible apply slotCopy_ok

theorem lineCfgWrite_ok {qq : List Instr} (w : Writer) (n : Nat) (v : W32) (s : State) (hs : Ok qq s) : Ok qq (lineCfgWrite w n v s) := by
  unfold lineCfgWrite
  repeat' first
    | with_reducible assumption
    | (extract_lets +onlyGivenNames x; clear_value x)
    | with_reducible apply State.denyWarden_ok
    | with_reducible apply State.deny_ok
    | with_reducible apply refuseEvt_ok
    | with_reducible apply State.setReg_ok
    | with_reducible apply ok_ite

theorem execEvtLineCfgWrite_ok {qq : List Instr} (w : Writer) (n : Fin 64) (v : W32) (s : State) (hs : Ok qq s) : OkOut qq (execEvtLineCfgWrite w n v s) := by
  unfold execEvtLineCfgWrite
  repeat' first
    | with_reducible assumption
    | with_reducible refine OkOut.next ?_
    | with_reducible apply State.linked_ok
    | with_reducible apply lineCfgWrite_ok

theorem capCfgWrite_ok {qq : List Instr} (w : Writer) (k : Nat) (v : W32) (s : State) (hs : Ok qq s) : Ok qq (capCfgWrite w k v s) := by
  unfold capCfgWrite
  repeat' first
    | with_reducible assumption
    | (extract_lets +onlyGivenNames x; clear_value x)
    | with_reducible apply State.denyWarden_ok
    | with_reducible apply State.deny_ok
    | with_reducible apply refuseEvt_ok
    | with_reducible apply State.setReg_ok
    | with_reducible apply ok_ite

theorem execEvtCapCfgWrite_ok {qq : List Instr} (w : Writer) (k : Fin 64) (v : W32) (s : State) (hs : Ok qq s) : OkOut qq (execEvtCapCfgWrite w k v s) := by
  unfold execEvtCapCfgWrite
  repeat' first
    | with_reducible assumption
    | with_reducible refine OkOut.next ?_
    | with_reducible apply State.linked_ok
    | with_reducible apply capCfgWrite_ok

end Sys2Proof.Machine
end

