-- ==== Sys2Proof/Laws/OkSpine.lean ====
section
/-! SUPPORT. What the operations of Machine/Spine.lean keep: each takes a sound state with the same commands waiting to
such a state (see Laws/Ok.lean). -/

namespace Sys2Proof.Machine

theorem State.setPortTags_ok {qq : List Instr} (s : State) (p : Nat) (l : List Nat) (hs : Ok qq s) : Ok qq (State.setPortTags s p l) := by
  unfold State.setPortTags
  repeat' first
    | with_reducible exact ok_mk (by assumption) rfl rfl rfl rfl rfl rfl rfl rfl rfl

theorem State.setHeld_ok {qq : List Instr} (s : State) (p : Nat) (l : List W64) (hs : Ok qq s) : Ok qq (State.setHeld s p l) := by
  unfold State.setHeld
  repeat' first
    | with_reducible exact ok_mk (by assumption) rfl rfl rfl rfl rfl rfl rfl rfl rfl
    | (extract_lets +onlyGivenNames x; clear_value x)
    | with_reducible apply State.setFlag_ok

theorem refusedAt_ok {qq : List Instr} (p : Nat) (s : State) (hs : Ok qq s) : Ok qq (refusedAt p s) := by
  unfold refusedAt
  repeat' first
    | with_reducible assumption
    | with_reducible apply State.bump_ok

theorem spineAccept_ok {qq : List Instr} (p : Nat) (op : TOp) (h : W64) (data : List W64) (s : State) (hs : Ok qq s) : Ok qq (spineAccept p op h data s) := by
  unfold spineAccept
  repeat' first
    | with_reducible assumption
    | (extract_lets +onlyGivenNames x; refine have hx : Ok qq x := ?_; ?_; rotate_left; clear_value x; rotate_right; subst x)
    | (extract_lets +onlyGivenNames x; clear_value x)
    | (extract_lets +onlyGivenNames x; subst x)
    | with_reducible apply State.setPortTags_ok
    | with_reducible apply State.occupy_ok
    | with_reducible apply State.putRsp_ok
    | with_reducible apply refusedAt_ok
    | with_reducible apply State.putTrans_ok
    | with_reducible apply ok_ite

theorem spineOffer_ok {qq : List Instr} (p : Nat) (op : TOp) (h : W64) (data : List W64) (s : State) (hs : Ok qq s) : Ok qq (spineOffer p op h data s) := by
  unfold spineOffer
  repeat' first
    | with_reducible assumption
    | (extract_lets +onlyGivenNames x; refine have hx : Ok qq x := ?_; ?_; rotate_left; clear_value x; rotate_right; subst x)
    | (extract_lets +onlyGivenNames x; clear_value x)
    | (extract_lets +onlyGivenNames x; subst x)
    | with_reducible apply State.bump_ok
    | with_reducible apply State.setHeld_ok
    | with_reducible apply State.setPortTags_ok
    | with_reducible apply State.occupy_ok
    | with_reducible apply State.putRsp_ok
    | with_reducible apply spineAccept_ok
    | with_reducible apply ok_ite

theorem execSpineRead_ok {qq : List Instr} (p : Fin 80) (hd : W64) (s : State) (hs : Ok qq s) : OkOut qq (execSpineRead p hd s) := by
  unfold execSpineRead
  repeat' first
    | with_reducible assumption
    | with_reducible refine OkOut.next ?_
    | with_reducible apply spineOffer_ok

theorem execSpineWrite_ok {qq : List Instr} (p : Fin 80) (hd : W64) (data : List W64) (s : State) (hs : Ok qq s) : OkOut qq (execSpineWrite p hd data s) := by
  unfold execSpineWrite
  repeat' first
    | with_reducible assumption
    | with_reducible refine OkOut.next ?_
    | with_reducible apply spineOffer_ok

theorem execSpineWriteAck_ok {qq : List Instr} (p : Fin 80) (hd : W64) (data : List W64) (s : State) (hs : Ok qq s) : OkOut qq (execSpineWriteAck p hd data s) := by
  unfold execSpineWriteAck
  repeat' first
    | with_reducible assumption
    | with_reducible refine OkOut.next ?_
    | with_reducible apply spineOffer_ok

theorem execSpineAdd_ok {qq : List Instr} (p : Fin 80) (hd : W64) (v : W64) (s : State) (hs : Ok qq s) : OkOut qq (execSpineAdd p hd v s) := by
  unfold execSpineAdd
  repeat' first
    | with_reducible assumption
    | with_reducible refine OkOut.next ?_
    | with_reducible apply spineOffer_ok

theorem execSpineSwap_ok {qq : List Instr} (p : Fin 80) (hd : W64) (v : W64) (s : State) (hs : Ok qq s) : OkOut qq (execSpineSwap p hd v s) := by
  unfold execSpineSwap
  repeat' first
    | with_reducible assumption
    | with_reducible refine OkOut.next ?_
    | with_reducible apply spineOffer_ok

theorem execSpineMsg_ok {qq : List Instr} (p : Fin 80) (hd : W64) (v : W64) (s : State) (hs : Ok qq s) : OkOut qq (execSpineMsg p hd v s) := by
  unfold execSpineMsg
  repeat' first
    | with_reducible assumption
    | with_reducible refine OkOut.next ?_
    | with_reducible apply spineOffer_ok

theorem spineAdmit_ok {qq : List Instr} (p : Nat) (s : State) (hs : Ok qq s) : Ok qq (spineAdmit p s) := by
  unfold spineAdmit
  repeat' first
    | with_reducible assumption
    | (extract_lets +onlyGivenNames x; refine have hx : Ok qq x := ?_; ?_; rotate_left; clear_value x; rotate_right; subst x)
    | with_reducible apply State.setPortTags_ok
    | with_reducible apply State.occupy_ok
    | with_reducible apply State.setHeld_ok
    | with_reducible apply State.putRsp_ok
    | with_reducible apply spineAccept_ok
    | with_reducible apply ok_ite
    | split

theorem execSpineHeaderAdmit_ok {qq : List Instr} (p : Fin 80) (s : State) (hs : Ok qq s) : OkOut qq (execSpineHeaderAdmit p s) := by
  unfold execSpineHeaderAdmit
  repeat' first
    | with_reducible assumption
    | with_reducible refine OkOut.next ?_
    | with_reducible apply spineAdmit_ok

theorem engTake_ok {qq : List Instr} (n : Nat) (a : Nat) (imem : Bool) (op : TOp) (len : Nat) (data : List W64) (s : State) (hs : Ok qq s) : Ok qq (engTake n a imem op len data s).1 := by
  unfold engTake
  repeat' first
    | with_reducible assumption
    | (extract_lets +onlyGivenNames g; refine have hg : ∀ a s, Ok qq s → Ok qq (g a s).1 := ?_; ?_; rotate_left; clear_value g; rotate_right; subst g; intro _ _ _; try dsimp -zeta only)
    | with_reducible apply engRead_ok
    | with_reducible apply imemBusy_ok
    | with_reducible apply engWrite_ok
    | with_reducible apply okFst_ite
    | (with_reducible refine ok_foldl ?_ _ ?_; intro _ _ _)
    | (with_reducible refine ok_foldlFst ?_ _ ?_; intro _ _ _)
    | with_reducible apply hg
    | split

theorem showInputs_ok {qq : List Instr} (n : Nat) (s : State) (hs : Ok qq s) : Ok qq (showInputs n s) := by
  unfold showInputs
  repeat' first
    | with_reducible assumption
    | (extract_lets +onlyGivenNames x; clear_value x)
    | with_reducible apply State.setFld_ok
    | with_reducible apply State.setReg_ok

theorem tokenIn_ok {qq : List Instr} (n : Nat) (k : Nat) (w : W64) (s : State) (hs : Ok qq s) (hl : (s.inCh n k).length < 4) : Ok qq (tokenIn n k w s) := by
  unfold tokenIn
  extract_lets e s1
  have h1 : Ok qq s1 := showInputs_ok _ _ (State.setEng_ok _ _ _ hs (Eng.within_ich (hs.eng n)
    (by rw [List.length_append, List.length_singleton]; omega)))
  refine ok_foldl (fun s c h => ?_) _ h1
  split
  · exact State.wakeCtx_ok _ _ _ _ h
  · exact h

theorem engineMsg_ok {qq : List Instr} (n : Nat) (k : Nat) (w : W64) (s : State) (hs : Ok qq s) : OkOpt qq (engineMsg n k w s) := by
  unfold engineMsg
  extract_lets e s1
  split
  · next hc => exact OkOpt.some (tokenIn_ok _ _ _ _ hs hc.2)
  · split
    · next hl =>
      have h1 : Ok qq s1 := by
        show Ok qq (if _ then _ else _)
        split
        · exact State.bump_ok _ _ _ _ _ hs
        · exact hs
      refine OkOpt.some (State.setEng_ok _ _ _ h1 ⟨(h1.eng n).1, (h1.eng n).2, ?_, (h1.eng n).4⟩)
      rw [List.length_append, List.length_singleton]
      exact hl
    · exact OkOpt.none

theorem presentIn_ok {qq : List Instr} (sec : Nat) (off : Nat) (t : Trans) (taken : Bool) (s : State) (hs : Ok qq s) : Ok qq (presentIn sec off t taken s) := by
  unfold presentIn
  repeat' first
    | with_reducible assumption
    | with_reducible exact ok_mk (by assumption) rfl rfl rfl rfl rfl rfl rfl rfl rfl
    | (extract_lets +onlyGivenNames x; refine have hx : Ok qq x := ?_; ?_; rotate_left; clear_value x; rotate_right; subst x)
    | (extract_lets +onlyGivenNames x; clear_value x)
    | with_reducible apply State.tookFree_ok
    | with_reducible apply ok_ite

theorem postedDone_ok {qq : List Instr} (a : Asker) (s : State) (hs : Ok qq s) : Ok qq (postedDone a s) := by
  unfold postedDone
  repeat' first
    | with_reducible assumption
    | (extract_lets +onlyGivenNames x; refine have hx : Ok qq x := ?_; ?_; rotate_left; clear_value x; rotate_right; subst x)
    | (extract_lets +onlyGivenNames x; clear_value x)
    | with_reducible apply State.noticeIf_ok
    | with_reducible apply State.setCtx_ok
    | with_reducible apply State.wakeCtx_ok
    | split

theorem delivered_ok {qq : List Instr} (t : Trans) (status : Nat) (data : Option (List W64)) (s : State) (hs : Ok qq s) : Ok qq (delivered t status data s) := by
  unfold delivered
  repeat' first
    | with_reducible assumption
    | with_reducible apply State.putRsp_ok
    | with_reducible apply postedDone_ok
    | with_reducible apply State.release_ok
    | with_reducible apply State.occupy_ok
    | with_reducible apply ok_ite

theorem endInbound_ok {qq : List Instr} (sec : Nat) (t : Trans) (s : State) (hs : Ok qq s) : Ok qq (endInbound sec t s) := by
  unfold endInbound
  repeat' first
    | with_reducible assumption
    | with_reducible apply delivered_ok
    | with_reducible apply State.bump_ok
    | with_reducible apply ok_ite

theorem deliverMsg_ok {qq : List Instr} (t : Trans) (taken : Bool) (s : State) (hs : Ok qq s) : OkOpt qq (deliverMsg t taken s) := by
  unfold deliverMsg
  extract_lets w k sec
  split
  · exact OkOpt.map (fun s h => delivered_ok _ _ _ _ h) (engineMsg_ok _ _ _ _ hs)
  · split
    · split
      · exact OkOpt.none
      · exact OkOpt.some (delivered_ok _ _ _ _ (channelToken_ok _ _ _ _ hs))
    · split
      · exact OkOpt.some (endInbound_ok _ _ _ hs)
      · split
        · exact OkOpt.none
        · exact OkOpt.some (delivered_ok _ _ _ _ (presentIn_ok _ _ _ _ _ hs))

theorem deliverDev_ok {qq : List Instr} (t : Trans) (taken : Bool) (s : State) (hs : Ok qq s) : OkOpt qq (deliverDev t taken s) := by
  unfold deliverDev
  extract_lets finish
  have hf : ∀ r, Ok qq r.1 → OkOpt qq (finish r) := by
    rintro ⟨s, a⟩ h
    cases a with
    | wait => exact OkOpt.none
    | done status data => exact OkOpt.some (delivered_ok _ _ _ _ h)
  clear_value finish
  split
  · exact hf _ (bankTake_ok _ _ _ hs)
  · exact hf _ (windowTake_ok _ _ _ _ _ _ _ hs)
  · exact hf _ (engTake_ok _ _ _ _ _ _ _ hs)
  · exact hf _ (engTake_ok _ _ _ _ _ _ _ hs)
  · split
    · exact OkOpt.some (endInbound_ok _ _ _ hs)
    · split
      · exact OkOpt.none
      · extract_lets s1
        have h1 : Ok qq s1 := presentIn_ok _ _ _ _ _ hs
        refine OkOpt.some ?_
        split
        · exact h1
        · exact delivered_ok _ _ _ _ h1
  · exact OkOpt.some (delivered_ok _ _ _ _ hs)

theorem ringError_ok {qq : List Instr} (n : Nat) (code : Nat) (s : State) (hs : Ok qq s) : Ok qq (ringError n code s) := by
  unfold ringError
  repeat' first
    | with_reducible assumption
    | with_reducible apply State.setFld_ok

theorem abandonSheet_ok {qq : List Instr} (s : State) (hs : Ok qq s) : Ok qq (abandonSheet s) := by
  unfold abandonSheet
  repeat' first
    | with_reducible assumption
    | with_reducible exact ok_mk (by assumption) rfl rfl rfl rfl rfl rfl rfl rfl rfl
    | (extract_lets +onlyGivenNames x; refine have hx : Ok qq x := ?_; ?_; rotate_left; clear_value x; rotate_right; subst x)
    | with_reducible apply State.notice_ok
    | with_reducible apply State.bump_ok

theorem deliverHost_ok {qq : List Instr} (t : Trans) (s : State) (hs : Ok qq s) : Ok qq (deliverHost t s) := by
  unfold deliverHost
  repeat' first
    | with_reducible assumption
    | with_reducible exact ok_mk (by assumption) rfl rfl rfl rfl rfl rfl rfl rfl rfl
    | with_reducible apply ringError_ok
    | with_reducible apply abandonSheet_ok
    | with_reducible apply delivered_ok
    | with_reducible apply ok_ite
    | split

theorem transFault_ok {qq : List Instr} (t : Trans) (code : Nat) (s : State) (hs : Ok qq s) : Ok qq (transFault t code s) := by
  unfold transFault
  repeat' first
    | with_reducible assumption
    | (extract_lets +onlyGivenNames x; refine have hx : Ok qq x := ?_; ?_; rotate_left; clear_value x; rotate_right; subst x)
    | with_reducible apply State.xlFault_ok
    | with_reducible apply ringError_ok
    | with_reducible apply abandonSheet_ok
    | with_reducible apply State.putRsp_ok
    | with_reducible apply State.release_ok
    | with_reducible apply refusedAt_ok
    | with_reducible apply ok_ite
    | split

theorem present_ok {qq : List Instr} (t : Trans) (taken : Bool) (s : State) (hs : Ok qq s) : OkOpt qq (present t taken s) := by
  unfold present
  repeat' first
    | with_reducible assumption
    | with_reducible refine OkOpt.some ?_
    | with_reducible exact OkOpt.none
    | with_reducible apply deliverHost_ok
    | with_reducible apply deliverMsg_ok
    | with_reducible apply deliverDev_ok
    | with_reducible apply okOpt_ite
    | split

theorem State.dropTrans_ok {qq : List Instr} (s : State) (k : Nat) (hs : Ok qq s) : Ok qq (State.dropTrans s k) := by
  unfold State.dropTrans
  repeat' first
    | with_reducible exact ok_mk (by assumption) rfl rfl rfl rfl rfl rfl rfl rfl rfl

theorem State.keepTrans_ok {qq : List Instr} (s : State) (k : Nat) (t : Trans) (hs : Ok qq s) : Ok qq (State.keepTrans s k t) := by
  unfold State.keepTrans
  repeat' first
    | with_reducible exact ok_mk (by assumption) rfl rfl rfl rfl rfl rfl rfl rfl rfl

theorem deliver_ok {qq : List Instr} (k : Nat) (lost : Nat) (taken : Bool) (s : State) (hs : Ok qq s) : Ok qq (deliver k lost taken s) := by
  unfold deliver
  repeat' first
    | with_reducible assumption
    | (extract_lets +onlyGivenNames x; clear_value x)
    | with_reducible refine ok_mk (ok_opt (by assumption) ?_) rfl rfl rfl rfl rfl rfl rfl rfl rfl
    | with_reducible apply transFault_ok
    | with_reducible apply State.dropTrans_ok
    | with_reducible apply State.startWalk_ok
    | with_reducible apply present_ok
    | with_reducible apply State.keepTrans_ok
    | with_reducible apply lostContests_ok
    | with_reducible apply ok_ite
    | split

theorem execTransactionDelivery_ok {qq : List Instr} (k : Fin 2048) (lost : Fin 4) (taken : Bool) (s : State) (hs : Ok qq s) : OkOut qq (execTransactionDelivery k lost taken s) := by
  unfold execTransactionDelivery
  repeat' first
    | with_reducible assumption
    | with_reducible refine OkOut.next ?_
    | with_reducible apply deliver_ok

theorem spineRespond_ok {qq : List Instr} (k : Nat) (s : State) (hs : Ok qq s) : Ok qq (spineRespond k s) := by
  unfold spineRespond
  repeat' first
    | with_reducible assumption
    | with_reducible exact ok_mk (by assumption) rfl rfl rfl rfl rfl rfl rfl rfl rfl
    | (extract_lets +onlyGivenNames x; refine have hx : Ok qq x := ?_; ?_; rotate_left; clear_value x; rotate_right; subst x)
    | (extract_lets +onlyGivenNames x; clear_value x)
    | with_reducible apply State.setPortTags_ok
    | with_reducible apply State.release_ok
    | with_reducible apply State.bump_ok
    | with_reducible apply ok_ite
    | split

theorem sportTimeout_ok {qq : List Instr} (sec : Nat) (tag : Nat) (s : State) (hs : Ok qq s) : Ok qq (sportTimeout sec tag s) := by
  unfold sportTimeout
  repeat' first
    | with_reducible assumption
    | with_reducible exact ok_mk (by assumption) rfl rfl rfl rfl rfl rfl rfl rfl rfl
    | (extract_lets +onlyGivenNames x; refine have hx : Ok qq x := ?_; ?_; rotate_left; clear_value x; rotate_right; subst x)
    | (extract_lets +onlyGivenNames x; clear_value x)
    | with_reducible apply State.bump_ok
    | with_reducible apply State.putRsp_ok
    | with_reducible apply ok_ite
    | split

theorem execSportTimeout_ok {qq : List Instr} (sec : Fin 80) (tag : Byte) (s : State) (hs : Ok qq s) : OkOut qq (execSportTimeout sec tag s) := by
  unfold execSportTimeout
  repeat' first
    | with_reducible assumption
    | with_reducible refine OkOut.next ?_
    | with_reducible apply sportTimeout_ok

theorem darkPort_ok {qq : List Instr} (sec : Nat) (s : State) (hs : Ok qq s) : Ok qq (darkPort sec s) := by
  unfold darkPort
  repeat' first
    | with_reducible assumption
    | with_reducible exact ok_mk (by assumption) rfl rfl rfl rfl rfl rfl rfl rfl rfl
    | (extract_lets +onlyGivenNames x; refine have hx : Ok qq x := ?_; ?_; rotate_left; clear_value x; rotate_right; subst x)
    | (extract_lets +onlyGivenNames x; clear_value x)
    | with_reducible apply State.putRsp_ok
    | with_reducible apply State.bump_ok
    | with_reducible apply State.setFlag_ok
    | with_reducible apply State.setHeld_ok
    | with_reducible apply ok_ite
    | (with_reducible refine ok_foldl ?_ _ ?_; intro _ _ _)

theorem sportCntClr_ok {qq : List Instr} (p : Nat) (s : State) (hs : Ok qq s) : Ok qq (sportCntClr p s) := by
  unfold sportCntClr
  repeat' first
    | with_reducible assumption
    | with_reducible apply State.setReg_ok

theorem sportPeakClr_ok {qq : List Instr} (p : Nat) (s : State) (hs : Ok qq s) : Ok qq (sportPeakClr p s) := by
  unfold sportPeakClr
  repeat' first
    | with_reducible assumption
    | with_reducible apply State.setFld_ok

theorem spinePeakClr_ok {qq : List Instr} (s : State) (hs : Ok qq s) : Ok qq (spinePeakClr s) := by
  unfold spinePeakClr
  repeat' first
    | with_reducible assumption
    | with_reducible apply State.setFld_ok

theorem execSportCntClr_ok {qq : List Instr} (w : Writer) (p : Fin 106) (s : State) (hs : Ok qq s) : OkOut qq (execSportCntClr w p s) := by
  unfold execSportCntClr
  repeat' first
    | with_reducible assumption
    | with_reducible refine OkOut.next ?_
    | with_reducible apply State.linked_ok
    | with_reducible apply sportCntClr_ok

theorem execSportPeakClr_ok {qq : List Instr} (w : Writer) (p : Fin 106) (s : State) (hs : Ok qq s) : OkOut qq (execSportPeakClr w p s) := by
  unfold execSportPeakClr
  repeat' first
    | with_reducible assumption
    | with_reducible refine OkOut.next ?_
    | with_reducible apply State.linked_ok
    | with_reducible apply sportPeakClr_ok

theorem execSpinePeakClr_ok {qq : List Instr} (w : Writer) (s : State) (hs : Ok qq s) : OkOut qq (execSpinePeakClr w s) := by
  unfold execSpinePeakClr
  repeat' first
    | with_reducible assumption
    | with_reducible refine OkOut.next ?_
    | with_reducible apply State.linked_ok
    | with_reducible apply spinePeakClr_ok

theorem tokDestWrite_ok {qq : List Instr} (c : Nat) (v : W32) (s : State) (hs : Ok qq s) : Ok qq (tokDestWrite c v s) := by
  unfold tokDestWrite
  repeat' first
    | with_reducible assumption
    | with_reducible apply State.accessError_ok
    | with_reducible apply State.setReg_ok
    | with_reducible apply ok_ite

theorem execTokDestWrite_ok {qq : List Instr} (w : Writer) (c : Fin 64) (v : W32) (s : State) (hs : Ok qq s) : OkOut qq (execTokDestWrite w c v s) := by
  unfold execTokDestWrite
  repeat' first
    | with_reducible assumption
    | with_reducible refine OkOut.next ?_
    | with_reducible apply State.linked_ok
    | with_reducible apply tokDestWrite_ok

end Sys2Proof.Machine
end

