-- ==== Sys2Proof/Laws/OkEngineCore.lean ====
section
/-! SUPPORT. What the operations of Machine/EngineCore.lean keep: each takes a sound state with the same commands waiting to
such a state (see Laws/Ok.lean). -/

namespace Sys2Proof.Machine

theorem State.setG_ok {qq : List Instr} (s : State) (n : Nat) (c : Nat) (r : Nat) (v : W64) (hs : Ok qq s) : Ok qq (State.setG s n c r v) := by
  unfold State.setG
  repeat' first
    | with_reducible assumption
    | (extract_lets +onlyGivenNames x; clear_value x)
    | with_reducible apply State.setCtx_ok

theorem setGs_ok {qq : List Instr} (n : Nat) (c : Nat) (a2 : Nat) (a3 : List W64) (a4 : State) (ha4 : Ok qq a4) : Ok qq (setGs n c a2 a3 a4) := by
  revert ha4
  fun_induction setGs n c a2 a3 a4 <;> intro ha4
  all_goals repeat' first
    | with_reducible assumption
    | with_reducible refine (by assumption : Ok _ _ → Ok _ _) ?_
    | with_reducible apply State.setG_ok

theorem State.setPc_ok {qq : List Instr} (s : State) (n : Nat) (c : Nat) (a : Nat) (hs : Ok qq s) : Ok qq (State.setPc s n c a) := by
  unfold State.setPc
  repeat' first
    | with_reducible assumption
    | with_reducible apply State.setFld_ok

theorem showPending_ok {qq : List Instr} (n : Nat) (c : Nat) (s : State) (hs : Ok qq s) : Ok qq (showPending n c s) := by
  unfold showPending
  repeat' first
    | with_reducible assumption
    | with_reducible apply State.setFld_ok

theorem dropCopies_ok {qq : List Instr} (n : Nat) (c : Nat) (s : State) (hs : Ok qq s) : Ok qq (dropCopies n c s) := by
  unfold dropCopies
  repeat' first
    | with_reducible assumption
    | (extract_lets +onlyGivenNames x; clear_value x)
    | with_reducible apply State.setCtx_ok

theorem leaveEngine_ok {qq : List Instr} (n : Nat) (c : Nat) (st : Nat) (s : State) (hs : Ok qq s) : Ok qq (leaveEngine n c st s) := by
  unfold leaveEngine
  repeat' first
    | with_reducible assumption
    | (extract_lets +onlyGivenNames x; refine have hx : Ok qq x := ?_; ?_; rotate_left; clear_value x; rotate_right; subst x)
    | (extract_lets +onlyGivenNames x; clear_value x)
    | with_reducible apply dropCopies_ok
    | with_reducible apply State.setCtxState_ok
    | with_reducible apply State.setCtx_ok

theorem ctxWait_ok {qq : List Instr} (n : Nat) (c : Nat) (on : Nat) (ch : Nat) (t : W64) (s : State) (hs : Ok qq s) : Ok qq (ctxWait n c on ch t s) := by
  unfold ctxWait
  repeat' first
    | with_reducible assumption
    | (extract_lets +onlyGivenNames x; refine have hx : Ok qq x := ?_; ?_; rotate_left; clear_value x; rotate_right; subst x)
    | (extract_lets +onlyGivenNames x; clear_value x)
    | with_reducible apply State.setFld_ok
    | with_reducible apply leaveEngine_ok
    | with_reducible apply State.setCtx_ok

theorem ctxStart_ok {qq : List Instr} (n : Nat) (c : Nat) (s : State) (hs : Ok qq s) : Ok qq (ctxStart n c s) := by
  unfold ctxStart
  repeat' first
    | with_reducible assumption
    | (extract_lets +onlyGivenNames g; refine have hg : ∀ s, Ok qq s → Ok qq (g s) := ?_; ?_; rotate_left; clear_value g; rotate_right; subst g; intro _ _; try dsimp -zeta only)
    | (extract_lets +onlyGivenNames x; clear_value x)
    | with_reducible apply State.setCtx_ok
    | with_reducible apply State.setCtxState_ok
    | with_reducible apply State.setFlag_ok
    | with_reducible apply ok_ite
    | with_reducible apply hg
    | split

theorem ctxStop_ok {qq : List Instr} (n : Nat) (c : Nat) (s : State) (hs : Ok qq s) : Ok qq (ctxStop n c s) := by
  unfold ctxStop
  repeat' first
    | with_reducible assumption
    | with_reducible apply leaveEngine_ok
    | with_reducible apply State.setCtxState_ok
    | split

theorem faultRecord_ok {qq : List Instr} (n : Nat) (c : Nat) (code : Nat) (pc : Nat) (second : Bool) (deferred : Bool) (addr : Nat) (s : State) (hs : Ok qq s) : Ok qq (faultRecord n c code pc second deferred addr s) := by
  unfold faultRecord
  repeat' first
    | with_reducible assumption
    | (extract_lets +onlyGivenNames x; refine have hx : Ok qq x := ?_; ?_; rotate_left; clear_value x; rotate_right; subst x)
    | with_reducible apply State.setReg_ok

theorem faultStop_ok {qq : List Instr} (n : Nat) (c : Nat) (s : State) (hs : Ok qq s) : Ok qq (faultStop n c s) := by
  unfold faultStop
  repeat' first
    | with_reducible assumption
    | with_reducible apply State.noticeIf_ok
    | with_reducible apply leaveEngine_ok

theorem deliverFault_ok {qq : List Instr} (n : Nat) (c : Nat) (s : State) (hs : Ok qq s) : Ok qq (deliverFault n c s) := by
  unfold deliverFault
  repeat' first
    | with_reducible assumption
    | (extract_lets +onlyGivenNames x; refine have hx : Ok qq x := ?_; ?_; rotate_left; clear_value x; rotate_right; subst x)
    | (extract_lets +onlyGivenNames x; clear_value x)
    | with_reducible apply faultStop_ok
    | with_reducible apply dropCopies_ok
    | with_reducible apply State.setCtx_ok
    | with_reducible apply State.setFlag_ok
    | with_reducible apply State.setPc_ok
    | with_reducible apply ok_ite

theorem preciseFault_ok {qq : List Instr} (n : Nat) (c : Nat) (code : Nat) (second : Bool) (addr : Nat) (s : State) (hs : Ok qq s) : Ok qq (preciseFault n c code second addr s) := by
  unfold preciseFault
  repeat' first
    | with_reducible assumption
    | with_reducible apply faultStop_ok
    | with_reducible apply State.setFlag_ok
    | with_reducible apply deliverFault_ok
    | with_reducible apply faultRecord_ok
    | with_reducible apply ok_ite

theorem chargeFault_ok {qq : List Instr} (n : Nat) (c : Nat) (code : Nat) (pc : Nat) (second : Bool) (addr : Nat) (s : State) (hs : Ok qq s) : Ok qq (chargeFault n c code pc second addr s) := by
  unfold chargeFault
  repeat' first
    | with_reducible assumption
    | (extract_lets +onlyGivenNames x; refine have hx : Ok qq x := ?_; ?_; rotate_left; clear_value x; rotate_right; subst x)
    | (extract_lets +onlyGivenNames x; clear_value x)
    | with_reducible apply State.setFlag_ok
    | with_reducible apply faultRecord_ok
    | with_reducible apply State.setCtx_ok
    | with_reducible apply State.setCtxState_ok
    | with_reducible apply ok_ite

theorem respWait_ok {qq : List Instr} (n : Nat) (c : Nat) (s : State) (hs : Ok qq s) : OkRes qq (respWait n c s) := by
  unfold respWait
  repeat' first
    | with_reducible assumption
    | with_reducible apply okRes_ite
    | with_reducible refine OkRes.wait ?_
    | with_reducible refine OkRes.hold ?_

theorem issued_ok {qq : List Instr} (n : Nat) (c : Nat) (op : TOp) (va : Nat) (len : Nat) (data : List W64) (want : Option Want) (space : Space) (addr : Nat) (s : State) (hs : Ok qq s) : Ok qq (issued n c op va len data want space addr s) := by
  unfold issued
  repeat' first
    | with_reducible assumption
    | (extract_lets +onlyGivenNames x; refine have hx : Ok qq x := ?_; ?_; rotate_left; clear_value x; rotate_right; subst x)
    | (extract_lets +onlyGivenNames x; clear_value x)
    | with_reducible apply State.setFlag_ok
    | with_reducible apply State.occupy_ok
    | with_reducible apply State.setCtx_ok
    | with_reducible apply showPending_ok
    | with_reducible apply State.putTrans_ok
    | split

theorem access_ok {qq : List Instr} (n : Nat) (c : Nat) (op : TOp) (va : Nat) (len : Nat) (data : List W64) (want : Option Want) (next : State → Res) (s : State) (hnext : ∀ x0, Ok qq x0 → OkRes qq (next x0)) (hs : Ok qq s) : OkRes qq (access n c op va len data want next s) := by
  unfold access
  repeat' first
    | with_reducible assumption
    | (extract_lets +onlyGivenNames x; clear_value x)
    | with_reducible apply State.xlFault_ok
    | with_reducible apply respWait_ok
    | with_reducible apply State.startWalk_ok
    | with_reducible apply State.setFlag_ok
    | with_reducible apply State.bump_ok
    | with_reducible apply State.occupy_ok
    | with_reducible apply State.setCtx_ok
    | with_reducible apply showPending_ok
    | with_reducible apply State.putTrans_ok
    | with_reducible apply hnext
    | with_reducible apply issued_ok
    | with_reducible apply ok_ite
    | with_reducible apply okRes_ite
    | with_reducible refine OkRes.hold ?_
    | with_reducible refine OkRes.fault ?_
    | split

theorem accessResponse_ok {qq : List Instr} (k : Nat) (s : State) (hs : Ok qq s) : Ok qq (accessResponse k s) := by
  unfold accessResponse
  repeat' first
    | with_reducible assumption
    | with_reducible exact ok_mk (by assumption) rfl rfl rfl rfl rfl rfl rfl rfl rfl
    | (extract_lets +onlyGivenNames x; refine have hx : Ok qq x := ?_; ?_; rotate_left; clear_value x; rotate_right; subst x)
    | (extract_lets +onlyGivenNames x; clear_value x)
    | with_reducible apply State.release_ok
    | with_reducible apply State.setCtx_ok
    | with_reducible apply showPending_ok
    | with_reducible apply setGs_ok
    | with_reducible apply State.setG_ok
    | with_reducible apply chargeFault_ok
    | with_reducible apply State.wakeCtx_ok
    | with_reducible apply ok_ite
    | split

theorem State.setJob_ok {qq : List Instr} (s : State) (j : Nat) (x : Job) (hs : Ok qq s) : Ok qq (State.setJob s j x) := by
  unfold State.setJob
  repeat' first
    | with_reducible exact ok_mk (by assumption) rfl rfl rfl rfl rfl rfl rfl rfl rfl

theorem State.orphan_ok {qq : List Instr} (s : State) (a : Asker) (hs : Ok qq s) : Ok qq (State.orphan s a) := by
  unfold State.orphan
  repeat' first
    | with_reducible exact ok_mk (by assumption) rfl rfl rfl rfl rfl rfl rfl rfl rfl

theorem endXfer_ok {qq : List Instr} (n : Nat) (c : Nat) (status : Nat) (s : State) (hs : Ok qq s) : Ok qq (endXfer n c status s) := by
  unfold endXfer
  repeat' first
    | with_reducible assumption
    | (extract_lets +onlyGivenNames x; refine have hx : Ok qq x := ?_; ?_; rotate_left; clear_value x; rotate_right; subst x)
    | (extract_lets +onlyGivenNames x; clear_value x)
    | with_reducible apply State.setCtx_ok
    | with_reducible apply State.wakeCtx_ok
    | with_reducible apply State.orphan_ok
    | with_reducible apply State.setJob_ok

theorem abortXfer_ok {qq : List Instr} (n : Nat) (c : Nat) (s : State) (hs : Ok qq s) : Ok qq (abortXfer n c s) := by
  unfold abortXfer
  repeat' first
    | with_reducible assumption
    | (extract_lets +onlyGivenNames x; clear_value x)
    | with_reducible apply endXfer_ok
    | with_reducible apply ok_ite

theorem resumeXfer_ok {qq : List Instr} (n : Nat) (c : Nat) (s : State) (hs : Ok qq s) : Ok qq (resumeXfer n c s) := by
  unfold resumeXfer
  repeat' first
    | with_reducible assumption
    | (extract_lets +onlyGivenNames x; clear_value x)
    | with_reducible apply State.setCtx_ok
    | with_reducible apply ok_ite

end Sys2Proof.Machine
end

