-- ==== Sys2Proof/Laws/OkTbCore.lean ====
section
/-! SUPPORT. What the operations of Machine/TbCore.lean keep: each takes a sound state with the same commands waiting to
such a state (see Laws/Ok.lean). -/

namespace Sys2Proof.Machine

theorem stopBegins_ok {qq : List Instr} (n : Nat) (bit : Nat) (s : State) (hs : Ok qq s) : Ok qq (stopBegins n bit s) := by
  unfold stopBegins
  repeat' first
    | with_reducible assumption
    | (extract_lets +onlyGivenNames x; refine have hx : Ok qq x := ?_; ?_; rotate_left; clear_value x; rotate_right; subst x)
    | (extract_lets +onlyGivenNames x; clear_value x)
    | with_reducible apply State.setTb_ok
    | with_reducible apply State.setFlag_ok
    | with_reducible apply endTimebase_ok
    | with_reducible apply holdTimebase_ok
    | split

theorem raiseFault_ok {qq : List Instr} (n : Nat) (bit : Nat) (cause : Nat) (s : State) (hs : Ok qq s) : Ok qq (raiseFault n bit cause s) := by
  unfold raiseFault
  repeat' first
    | with_reducible assumption
    | (extract_lets +onlyGivenNames x; refine have hx : Ok qq x := ?_; ?_; rotate_left; clear_value x; rotate_right; subst x)
    | (extract_lets +onlyGivenNames x; clear_value x)
    | with_reducible apply State.setTb_ok
    | with_reducible apply State.setFld_ok
    | with_reducible apply State.noticeIf_ok
    | with_reducible apply stopBegins_ok
    | with_reducible apply endTimebase_ok
    | with_reducible apply ok_ite

theorem lasting_ok {qq : List Instr} (n : Nat) (cause : Nat) (on : Bool) (s : State) (hs : Ok qq s) : Ok qq (lasting n cause on s) := by
  unfold lasting
  repeat' first
    | with_reducible assumption
    | (extract_lets +onlyGivenNames x; clear_value x)
    | with_reducible apply raiseFault_ok
    | with_reducible apply State.setTb_ok
    | with_reducible apply ok_ite

theorem lostEdges_ok {qq : List Instr} (n : Nat) (k : Nat) (s : State) (hs : Ok qq s) : Ok qq (lostEdges n k s) := by
  unfold lostEdges
  repeat' first
    | with_reducible assumption
    | with_reducible apply State.bump_ok

theorem takeCounts_ok {qq : List Instr} (n : Nat) (k : Int) (t : Nat) (s : State) (hs : Ok qq s) : Ok qq (takeCounts n k t s) := by
  unfold takeCounts
  repeat' first
    | with_reducible assumption
    | (extract_lets +onlyGivenNames x; clear_value x)
    | with_reducible apply State.setTb_ok

theorem takeWrite_ok {qq : List Instr} (n : Nat) (w : SoftWrite) (s : State) (hs : Ok qq s) : Ok qq (takeWrite n w s).1 := by
  unfold takeWrite
  repeat' first
    | with_reducible assumption
    | (extract_lets +onlyGivenNames x; clear_value x)
    | with_reducible apply State.setTb_ok
    | with_reducible apply okFst_ite

theorem tbWrite_ok {qq : List Instr} (n : Nat) (stamp : W64) (p : W64) (v : W64) (a : W64) (vOk : Bool) (aOk : Bool) (s : State) (hs : Ok qq s) : Ok qq (tbWrite n stamp p v a vOk aOk s).1 := by
  unfold tbWrite
  repeat' first
    | with_reducible assumption
    | with_reducible apply takeWrite_ok
    | with_reducible apply okFst_ite

theorem applyGear_ok {qq : List Instr} (s : State) (n : Nat) (hs : Ok qq s) : Ok qq (applyGear s n) := by
  unfold applyGear
  repeat' first
    | with_reducible assumption
    | (extract_lets +onlyGivenNames x; clear_value x)
    | with_reducible apply State.setTb_ok

theorem gearSet_ok {qq : List Instr} (s : State) (n : Nat) (hs : Ok qq s) : Ok qq (gearSet s n) := by
  unfold gearSet
  repeat' first
    | with_reducible assumption
    | (extract_lets +onlyGivenNames x; clear_value x)
    | with_reducible apply State.setTb_ok

theorem startTimebase_ok {qq : List Instr} (n : Nat) (s : State) (hs : Ok qq s) : Ok qq (startTimebase n s) := by
  unfold startTimebase
  repeat' first
    | with_reducible assumption
    | (extract_lets +onlyGivenNames x; refine have hx : Ok qq x := ?_; ?_; rotate_left; clear_value x; rotate_right; subst x)
    | (extract_lets +onlyGivenNames x; clear_value x)
    | with_reducible apply State.setTb_ok
    | with_reducible apply gearSet_ok
    | with_reducible apply applyGear_ok
    | with_reducible apply State.setFld_ok
    | with_reducible apply State.setFlag_ok
    | with_reducible apply lasting_ok
    | with_reducible apply ok_ite

theorem stopTimebase_ok {qq : List Instr} (n : Nat) (s : State) (hs : Ok qq s) : Ok qq (stopTimebase n s) := by
  unfold stopTimebase
  repeat' first
    | with_reducible assumption
    | (extract_lets +onlyGivenNames x; refine have hx : Ok qq x := ?_; ?_; rotate_left; clear_value x; rotate_right; subst x)
    | (extract_lets +onlyGivenNames x; clear_value x)
    | with_reducible apply endTimebase_ok
    | with_reducible apply State.setFld_ok
    | with_reducible apply State.setFlag_ok
    | with_reducible apply startTimebase_ok
    | with_reducible apply ok_ite

end Sys2Proof.Machine
end

