-- ==== Sys2Proof/Laws/OkEngineOps.lean ====
section
/-! SUPPORT. What the operations of Machine/EngineOps.lean keep: each takes a sound state with the same commands waiting to
such a state (see Laws/Ok.lean). -/

namespace Sys2Proof.Machine

theorem dmemReads_ok {qq : List Instr} (n : Nat) (a1 : Nat) (a2 : Nat) (a3 : State) (ha3 : Ok qq a3) : Ok qq (dmemReads n a1 a2 a3).1 := by
  revert ha3
  fun_induction dmemReads n a1 a2 a3 <;> intro ha3
  all_goals repeat' first
    | with_reducible assumption
    | with_reducible refine (by assumption : Ok _ _ → Ok _ _) ?_
    | with_reducible refine ok_mk (ok_fst (by assumption) ?_) rfl rfl rfl rfl rfl rfl rfl rfl rfl
    | with_reducible apply engRead_ok

theorem dmemWrites_ok {qq : List Instr} (n : Nat) (a1 : Nat) (a2 : List W64) (a3 : State) (ha3 : Ok qq a3) : Ok qq (dmemWrites n a1 a2 a3) := by
  revert ha3
  fun_induction dmemWrites n a1 a2 a3 <;> intro ha3
  all_goals repeat' first
    | with_reducible assumption
    | with_reducible refine (by assumption : Ok _ _ → Ok _ _) ?_
    | with_reducible apply engWrite_ok

theorem opLdl_ok {qq : List Instr} (n : Nat) (c : Nat) (w : W32) (s : State) (hs : Ok qq s) : OkRes qq (opLdl n c w s) := by
  unfold opLdl
  repeat' first
    | with_reducible assumption
    | (extract_lets +onlyGivenNames x; clear_value x)
    | with_reducible apply engRead_ok
    | with_reducible apply State.setG_ok
    | with_reducible apply okRes_ite
    | with_reducible refine OkRes.done ?_
    | with_reducible refine OkRes.fault ?_
    | split

theorem opStl_ok {qq : List Instr} (n : Nat) (c : Nat) (w : W32) (s : State) (hs : Ok qq s) : OkRes qq (opStl n c w s) := by
  unfold opStl
  repeat' first
    | with_reducible assumption
    | (extract_lets +onlyGivenNames x; refine have hx : Ok qq x := ?_; ?_; rotate_left; clear_value x; rotate_right; subst x)
    | (extract_lets +onlyGivenNames x; clear_value x)
    | with_reducible apply engRead_ok
    | with_reducible apply engWrite_ok
    | with_reducible apply ok_ite
    | with_reducible refine OkRes.done ?_
    | with_reducible refine OkRes.fault ?_
    | split

theorem opLdml_ok {qq : List Instr} (n : Nat) (c : Nat) (w : W32) (s : State) (hs : Ok qq s) : OkRes qq (opLdml n c w s) := by
  unfold opLdml
  repeat' first
    | with_reducible assumption
    | (extract_lets +onlyGivenNames x; clear_value x)
    | with_reducible apply dmemReads_ok
    | with_reducible apply setGs_ok
    | with_reducible apply okRes_ite
    | with_reducible refine OkRes.done ?_
    | with_reducible refine OkRes.fault ?_
    | split

theorem opStml_ok {qq : List Instr} (n : Nat) (c : Nat) (w : W32) (s : State) (hs : Ok qq s) : OkRes qq (opStml n c w s) := by
  unfold opStml
  repeat' first
    | with_reducible assumption
    | (extract_lets +onlyGivenNames x; clear_value x)
    | with_reducible apply dmemWrites_ok
    | with_reducible refine OkRes.done ?_
    | with_reducible refine OkRes.fault ?_
    | split

theorem opLd_ok {qq : List Instr} (n : Nat) (c : Nat) (w : W32) (s : State) (hs : Ok qq s) : OkRes qq (opLd n c w s) := by
  unfold opLd
  repeat' first
    | with_reducible assumption
    | with_reducible apply access_ok
    | with_reducible refine OkRes.done ?_
    | intro _ _

theorem opSt_ok {qq : List Instr} (n : Nat) (c : Nat) (w : W32) (s : State) (hs : Ok qq s) : OkRes qq (opSt n c w s) := by
  unfold opSt
  repeat' first
    | with_reducible assumption
    | (extract_lets +onlyGivenNames x; clear_value x)
    | with_reducible apply access_ok
    | with_reducible apply okRes_ite
    | with_reducible refine OkRes.done ?_
    | intro _ _

theorem opLdm_ok {qq : List Instr} (n : Nat) (c : Nat) (w : W32) (s : State) (hs : Ok qq s) : OkRes qq (opLdm n c w s) := by
  unfold opLdm
  repeat' first
    | with_reducible assumption
    | (extract_lets +onlyGivenNames x; clear_value x)
    | with_reducible apply access_ok
    | with_reducible apply okRes_ite
    | with_reducible refine OkRes.done ?_
    | with_reducible refine OkRes.fault ?_
    | intro _ _

theorem opStm_ok {qq : List Instr} (n : Nat) (c : Nat) (w : W32) (s : State) (hs : Ok qq s) : OkRes qq (opStm n c w s) := by
  unfold opStm
  repeat' first
    | with_reducible assumption
    | (extract_lets +onlyGivenNames x; clear_value x)
    | with_reducible apply access_ok
    | with_reducible apply okRes_ite
    | with_reducible refine OkRes.done ?_
    | with_reducible refine OkRes.fault ?_
    | intro _ _

theorem opAtom_ok {qq : List Instr} (n : Nat) (c : Nat) (swap : Bool) (w : W32) (s : State) (hs : Ok qq s) : OkRes qq (opAtom n c swap w s) := by
  unfold opAtom
  repeat' first
    | with_reducible assumption
    | (extract_lets +onlyGivenNames x; clear_value x)
    | with_reducible apply engRead_ok
    | with_reducible apply State.setG_ok
    | with_reducible apply engWrite_ok
    | with_reducible apply access_ok
    | with_reducible apply okRes_ite
    | with_reducible refine OkRes.done ?_
    | with_reducible refine OkRes.fault ?_
    | split
    | intro _ _

theorem copyNext_ok {qq : List Instr} (n : Nat) (c : Nat) (w : W32) (s : State) (hs : Ok qq s) : OkRes qq (copyNext n c w s) := by
  unfold copyNext
  extract_lets x s1 s2 s3 s4
  have h1 : Ok qq s1 := State.setCtx_ok _ _ _ _ hs
  clear_value s1
  have h2 : Ok qq s2 := State.setG_ok _ _ _ _ _ h1
  clear_value s2
  have h3 : Ok qq s3 := State.setG_ok _ _ _ _ _ h2
  clear_value s3
  have h4 : Ok qq s4 := State.setG_ok _ _ _ _ _ h3
  clear_value s4
  split
  · exact OkRes.done h4
  · exact OkRes.again h4

theorem copyWrite_ok {qq : List Instr} (n : Nat) (c : Nat) (w : W32) (v : W64) (s : State) (hs : Ok qq s) : OkRes qq (copyWrite n c w v s) := by
  rw [copyWrite]
  have h := copyNext_ok n c w _ (engWrite_ok (dmemBase n + (s.g n c (opRb w)).toNat) v 255 s hs)
  refine okRes_ite ?_ ?_
  · generalize copyNext n c w (engWrite (dmemBase n + (s.g n c (opRb w)).toNat) v 255 s) = y at h ⊢
    cases localFault (s.g n c (opRb w)).toNat 8 8 with
    | some code => exact OkRes.fault hs
    | none => exact h
  · exact access_ok _ _ _ _ _ _ _ (copyNext n c w) s (fun s h => copyNext_ok _ _ _ _ h) hs

theorem opMcpy_ok {qq : List Instr} (n : Nat) (c : Nat) (w : W32) (s : State) (hs : Ok qq s) : OkRes qq (opMcpy n c w s) := by
  unfold opMcpy
  repeat' first
    | with_reducible assumption
    | (extract_lets +onlyGivenNames x; clear_value x)
    | with_reducible apply engRead_ok
    | with_reducible apply copyWrite_ok
    | with_reducible apply State.setCtx_ok
    | with_reducible apply access_ok
    | with_reducible apply okRes_ite
    | with_reducible refine OkRes.done ?_
    | with_reducible refine OkRes.again ?_
    | with_reducible refine OkRes.hold ?_
    | with_reducible refine OkRes.fault ?_
    | split
    | intro _ _

theorem jumpTo_ok {qq : List Instr} (a : Int) (s : State) (hs : Ok qq s) : OkRes qq (jumpTo a s) := by
  unfold jumpTo
  repeat' first
    | with_reducible assumption
    | with_reducible apply okRes_ite
    | with_reducible refine OkRes.done ?_
    | with_reducible refine OkRes.fault ?_

theorem opBranch_ok {qq : List Instr} (n : Nat) (c : Nat) (m : Mn) (w : W32) (s : State) (hs : Ok qq s) : OkRes qq (opBranch n c m w s) := by
  unfold opBranch
  repeat' first
    | with_reducible assumption
    | with_reducible apply jumpTo_ok
    | with_reducible apply okRes_ite
    | with_reducible refine OkRes.done ?_

theorem linked_ok {qq : List Instr} (n : Nat) (c : Nat) (rd : Nat) (r : Res) (hr : OkRes qq r) : OkRes qq (linked n c rd r) := by
  unfold linked
  split
  · exact OkRes.done (State.setG_ok _ _ _ _ _ hr.ok)
  · exact hr

theorem opJr_ok {qq : List Instr} (n : Nat) (c : Nat) (w : W32) (s : State) (hs : Ok qq s) : OkRes qq (opJr n c w s) := by
  unfold opJr
  repeat' first
    | with_reducible assumption
    | (extract_lets +onlyGivenNames x; clear_value x)
    | with_reducible apply linked_ok
    | with_reducible apply jumpTo_ok
    | with_reducible apply okRes_ite
    | with_reducible refine OkRes.fault ?_

theorem State.setOutCh_ok {qq : List Instr} (s : State) (n : Nat) (k : Nat) (l : List (Nat × W64)) (hs : Ok qq s) (hl : l.length ≤ 4) : Ok qq (State.setOutCh s n k l) := by
  exact State.setEng_ok _ _ _ hs (Eng.within_och (hs.eng n) hl)

theorem takeWake_ok {qq : List Instr} (n : Nat) (c : Nat) (s : State) (hs : Ok qq s) : Ok qq (takeWake n c s).1 := by
  unfold takeWake
  repeat' first
    | with_reducible assumption
    | with_reducible apply State.setFlag_ok

theorem waitOn_ok {qq : List Instr} (holds : Bool) (on : Nat) (ch : Nat) (t : W64) (s : State) (hs : Ok qq s) : OkRes qq (waitOn holds on ch t s) := by
  unfold waitOn
  repeat' first
    | with_reducible assumption
    | with_reducible apply okRes_ite
    | with_reducible refine OkRes.done ?_
    | with_reducible refine OkRes.wait ?_

theorem opRecv_ok {qq : List Instr} (n : Nat) (c : Nat) (w : W32) (s : State) (hs : Ok qq s) : OkRes qq (opRecv n c w s) := by
  unfold opRecv
  extract_lets k
  split
  · exact OkRes.wait hs
  · next v rest e =>
    have hl : rest.length ≤ 4 := by
      have := hs.inCh n k
      rw [e, List.length_cons] at this
      omega
    exact OkRes.done (State.setG_ok _ _ _ _ _ (showInputs_ok _ _ (State.setEng_ok _ _ _ hs (Eng.within_ich (hs.eng n) hl))))

theorem opSend_ok {qq : List Instr} (n : Nat) (c : Nat) (w : W32) (s : State) (hs : Ok qq s) : OkRes qq (opSend n c w s) := by
  unfold opSend
  extract_lets k status
  have h1 : ∀ code s, Ok qq s → OkRes qq (status code s) := fun _ _ h => OkRes.done (State.setG_ok _ _ _ _ _ h)
  split
  · exact h1 _ _ hs
  · split
    · split
      · exact h1 _ _ hs
      · exact OkRes.wait hs
    · next hl =>
      refine h1 _ _ (State.setOutCh_ok _ _ _ _ hs ?_)
      rw [List.length_append, List.length_singleton]
      omega

theorem opSnap_ok {qq : List Instr} (n : Nat) (c : Nat) (w : W32) (s : State) (hs : Ok qq s) : OkRes qq (opSnap n c w s) := by
  unfold opSnap
  repeat' first
    | with_reducible assumption
    | (extract_lets +onlyGivenNames x; clear_value x)
    | with_reducible apply setGs_ok
    | with_reducible refine OkRes.done ?_

theorem opTbw_ok {qq : List Instr} (n : Nat) (c : Nat) (w : W32) (s : State) (hs : Ok qq s) : OkRes qq (opTbw n c w s) := by
  unfold opTbw
  repeat' first
    | with_reducible assumption
    | (extract_lets +onlyGivenNames x; clear_value x)
    | with_reducible apply tbWrite_ok
    | with_reducible apply State.setG_ok
    | with_reducible refine OkRes.done ?_

theorem opEvset_ok {qq : List Instr} (n : Nat) (c : Nat) (w : W32) (s : State) (hs : Ok qq s) : OkRes qq (opEvset n c w s) := by
  unfold opEvset
  repeat' first
    | with_reducible assumption
    | (extract_lets +onlyGivenNames x; clear_value x)
    | with_reducible apply armEvent_ok
    | with_reducible apply State.setG_ok
    | with_reducible refine OkRes.done ?_

theorem opEvcan_ok {qq : List Instr} (n : Nat) (c : Nat) (w : W32) (s : State) (hs : Ok qq s) : OkRes qq (opEvcan n c w s) := by
  unfold opEvcan
  repeat' first
    | with_reducible assumption
    | (extract_lets +onlyGivenNames x; clear_value x)
    | with_reducible apply cancelBy_ok
    | with_reducible apply State.setG_ok
    | with_reducible refine OkRes.done ?_

theorem opTkwake_ok {qq : List Instr} (n : Nat) (c : Nat) (w : W32) (s : State) (hs : Ok qq s) : OkRes qq (opTkwake n c w s) := by
  unfold opTkwake
  repeat' first
    | with_reducible assumption
    | with_reducible apply takeWake_ok
    | with_reducible apply State.setG_ok
    | with_reducible apply okRes_ite
    | with_reducible refine OkRes.done ?_

theorem opEvqHead_ok {qq : List Instr} (n : Nat) (c : Nat) (w : W32) (s : State) (hs : Ok qq s) : OkRes qq (opEvqHead n c w s) := by
  unfold opEvqHead
  repeat' first
    | with_reducible assumption
    | (extract_lets +onlyGivenNames x; clear_value x)
    | with_reducible apply State.setG_ok
    | with_reducible refine OkRes.done ?_

theorem opEvqPop_ok {qq : List Instr} (n : Nat) (c : Nat) (s : State) (hs : Ok qq s) : OkRes qq (opEvqPop n c s) := by
  unfold opEvqPop
  repeat' first
    | with_reducible assumption
    | with_reducible apply State.setFld_ok
    | with_reducible apply ok_ite
    | with_reducible refine OkRes.done ?_

theorem opDacw_ok {qq : List Instr} (n : Nat) (c : Nat) (w : W32) (s : State) (hs : Ok qq s) : OkRes qq (opDacw n c w s) := by
  unfold opDacw
  repeat' first
    | with_reducible assumption
    | (extract_lets +onlyGivenNames g; refine have hg : ∀ a s, Ok qq s → OkRes qq (g a s) := ?_; ?_; rotate_left; clear_value g; rotate_right; subst g; intro _ _ _; try dsimp -zeta only)
    | (extract_lets +onlyGivenNames x; clear_value x)
    | with_reducible apply State.setG_ok
    | with_reducible apply State.setFld_ok
    | with_reducible apply State.deny_ok
    | with_reducible apply okRes_ite
    | with_reducible refine OkRes.done ?_
    | with_reducible apply hg

theorem opXferStart_ok {qq : List Instr} (n : Nat) (c : Nat) (w : W32) (s : State) (hs : Ok qq s) : OkRes qq (opXferStart n c w s) := by
  unfold opXferStart
  repeat' first
    | with_reducible assumption
    | (extract_lets +onlyGivenNames x; refine have hx : Ok qq x := ?_; ?_; rotate_left; clear_value x; rotate_right; subst x)
    | (extract_lets +onlyGivenNames x; clear_value x)
    | with_reducible apply State.setJob_ok
    | with_reducible apply State.setCtx_ok
    | with_reducible apply okRes_ite
    | with_reducible refine OkRes.done ?_
    | with_reducible refine OkRes.wait ?_
    | with_reducible refine OkRes.fault ?_

theorem csrWrite_ok {qq : List Instr} (n : Nat) (c : Nat) (k : Nat) (v : W64) (s : State) (hs : Ok qq s) : Ok qq (csrWrite n c k v s) := by
  unfold csrWrite
  repeat' first
    | with_reducible assumption
    | (extract_lets +onlyGivenNames x; clear_value x)
    | with_reducible apply State.setCtx_ok
    | with_reducible apply State.setFld_ok
    | split

theorem opCsr_ok {qq : List Instr} (n : Nat) (c : Nat) (m : Mn) (w : W32) (s : State) (hs : Ok qq s) : OkRes qq (opCsr n c m w s) := by
  unfold opCsr
  repeat' first
    | with_reducible assumption
    | (extract_lets +onlyGivenNames x; refine have hx : Ok qq x := ?_; ?_; rotate_left; clear_value x; rotate_right; subst x)
    | (extract_lets +onlyGivenNames x; clear_value x)
    | with_reducible apply csrWrite_ok
    | with_reducible apply State.setG_ok
    | with_reducible refine OkRes.done ?_
    | split

theorem opFence_ok {qq : List Instr} (n : Nat) (c : Nat) (s : State) (hs : Ok qq s) : OkRes qq (opFence n c s) := by
  unfold opFence
  repeat' first
    | with_reducible assumption
    | (extract_lets +onlyGivenNames x; clear_value x)
    | with_reducible apply respWait_ok
    | with_reducible apply okRes_ite
    | with_reducible refine OkRes.done ?_

theorem opYield_ok {qq : List Instr} (n : Nat) (c : Nat) (s : State) (hs : Ok qq s) : OkRes qq (opYield n c s) := by
  unfold opYield
  repeat' first
    | with_reducible assumption
    | (extract_lets +onlyGivenNames x; clear_value x)
    | with_reducible apply leaveEngine_ok
    | with_reducible apply ok_ite
    | with_reducible refine OkRes.done ?_

theorem opRfh_ok {qq : List Instr} (n : Nat) (c : Nat) (s : State) (hs : Ok qq s) : OkRes qq (opRfh n c s) := by
  unfold opRfh
  repeat' first
    | with_reducible assumption
    | with_reducible apply jumpTo_ok
    | with_reducible apply State.setFlag_ok
    | with_reducible refine OkRes.done ?_
    | with_reducible refine ok_done (by assumption) ?_
    | split

theorem opCtxstop_ok {qq : List Instr} (n : Nat) (c : Nat) (w : W32) (s : State) (hs : Ok qq s) : OkRes qq (opCtxstop n c w s) := by
  unfold opCtxstop
  repeat' first
    | with_reducible assumption
    | (extract_lets +onlyGivenNames x; clear_value x)
    | with_reducible apply leaveEngine_ok
    | with_reducible apply ctxStop_ok
    | with_reducible apply ok_ite
    | with_reducible refine OkRes.done ?_

theorem toRd_ok {qq : List Instr} (n : Nat) (c : Nat) (w : W32) (v : W64) (s : State) (hs : Ok qq s) : OkRes qq (toRd n c w v s) := by
  unfold toRd
  repeat' first
    | with_reducible assumption
    | with_reducible apply State.setG_ok
    | with_reducible refine OkRes.done ?_

theorem op0_ok {qq : List Instr} (n : Nat) (c : Nat) (m : Mn) (w : W32) (s : State) (hs : Ok qq s) : OkRes qq (op0 n c m w s) := by
  unfold op0
  repeat' first
    | with_reducible assumption
    | with_reducible apply opLdl_ok
    | with_reducible apply opStl_ok
    | with_reducible apply opLdml_ok
    | with_reducible apply opStml_ok
    | with_reducible apply opLd_ok
    | with_reducible apply opSt_ok
    | with_reducible apply opLdm_ok
    | with_reducible apply opStm_ok
    | with_reducible apply opAtom_ok
    | with_reducible apply opMcpy_ok
    | with_reducible apply opBranch_ok
    | with_reducible apply linked_ok
    | with_reducible apply jumpTo_ok
    | with_reducible apply opJr_ok
    | with_reducible apply waitOn_ok
    | with_reducible apply takeWake_ok
    | with_reducible apply toRd_ok
    | with_reducible apply opRecv_ok
    | with_reducible apply opSend_ok
    | with_reducible apply opSnap_ok
    | with_reducible apply opTbw_ok
    | with_reducible apply opEvset_ok
    | with_reducible apply opEvcan_ok
    | with_reducible apply opTkwake_ok
    | with_reducible apply opEvqHead_ok
    | with_reducible apply opEvqPop_ok
    | with_reducible apply opDacw_ok
    | with_reducible apply opXferStart_ok
    | with_reducible apply resumeXfer_ok
    | with_reducible apply abortXfer_ok
    | with_reducible apply opCsr_ok
    | with_reducible apply opFence_ok
    | with_reducible apply opYield_ok
    | with_reducible apply leaveEngine_ok
    | with_reducible apply opRfh_ok
    | with_reducible apply ctxStart_ok
    | with_reducible apply opCtxstop_ok
    | with_reducible apply okRes_ite
    | with_reducible refine OkRes.done ?_
    | with_reducible refine OkRes.wait ?_
    | split

end Sys2Proof.Machine
end

