-- ==== Sys2Proof/Laws/OkEngines.lean ====
section
/-! SUPPORT. What the operations of Machine/Engines.lean keep: each takes a sound state with the same commands waiting to
such a state (see Laws/Ok.lean). -/

namespace Sys2Proof.Machine

theorem finish_ok {qq : List Instr} (n : Nat) (c : Nat) (m1 : Mn) (w1 : W32) (r1 : W64) (flags : Nat) (pc : Nat) (s : State) (hs : Ok qq s) : Ok qq (finish n c m1 w1 r1 flags pc s) := by
  unfold finish
  repeat' first
    | with_reducible assumption
    | (extract_lets +onlyGivenNames x; refine have hx : Ok qq x := ?_; ?_; rotate_left; clear_value x; rotate_right; subst x)
    | (extract_lets +onlyGivenNames x; clear_value x)
    | with_reducible apply State.setG_ok
    | with_reducible apply State.setPc_ok
    | with_reducible apply State.setCtx_ok
    | (with_reducible refine ok_foldl ?_ _ ?_; intro _ _ _)

theorem runBundle_ok {qq : List Instr} (n : Nat) (c : Nat) (m0 : Mn) (m1 : Mn) (w0 : W32) (w1 : W32) (ends : Bool) (s : State) (hs : Ok qq s) : Ok qq (runBundle n c m0 m1 w0 w1 ends s) := by
  unfold runBundle
  repeat' first
    | with_reducible assumption
    | (extract_lets +onlyGivenNames x; clear_value x)
    | with_reducible apply op0_ok
    | with_reducible apply ctxWait_ok
    | with_reducible apply preciseFault_ok
    | with_reducible apply State.setCtx_ok
    | with_reducible apply finish_ok
    | with_reducible apply ok_ite
    | with_reducible refine ok_done (by assumption) ?_
    | with_reducible refine ok_again (by assumption) ?_
    | with_reducible refine ok_wait (by assumption) ?_
    | with_reducible refine ok_hold (by assumption) ?_
    | with_reducible refine ok_faultRes (by assumption) ?_
    | split

theorem fetch_ok {qq : List Instr} (n : Nat) (c : Nat) (s : State) (hs : Ok qq s) : Ok qq (fetch n c s).1 := by
  unfold fetch
  repeat' first
    | with_reducible assumption
    | with_reducible apply engRead_ok

theorem bundle_ok {qq : List Instr} (n : Nat) (c : Nat) (ends : Bool) (s : State) (hs : Ok qq s) : Ok qq (bundle n c ends s) := by
  unfold bundle
  repeat' first
    | with_reducible assumption
    | (extract_lets +onlyGivenNames x; clear_value x)
    | with_reducible refine ok_mk (ok_fst (by assumption) ?_) rfl rfl rfl rfl rfl rfl rfl rfl rfl
    | with_reducible apply fetch_ok
    | with_reducible apply preciseFault_ok
    | with_reducible apply State.tookFree_ok
    | with_reducible apply State.setCtx_ok
    | with_reducible apply respWait_ok
    | with_reducible apply ctxWait_ok
    | with_reducible apply runBundle_ok
    | with_reducible apply ok_ite
    | with_reducible refine ok_wait (by assumption) ?_
    | split

theorem issue_ok {qq : List Instr} (n : Nat) (m : Mn) (s : State) (hs : Ok qq s) : Ok qq (issue n m s) := by
  unfold issue
  repeat' first
    | with_reducible assumption
    | with_reducible apply bundle_ok
    | with_reducible apply ok_ite

theorem longComplete_ok {qq : List Instr} (n : Nat) (s : State) (hs : Ok qq s) : Ok qq (longComplete n s) := by
  unfold longComplete
  repeat' first
    | with_reducible assumption
    | (extract_lets +onlyGivenNames x; clear_value x)
    | with_reducible apply bundle_ok
    | with_reducible apply ok_ite

theorem execLongOpComplete_ok {qq : List Instr} (n : Fin 96) (s : State) (hs : Ok qq s) : OkOut qq (execLongOpComplete n s) := by
  unfold execLongOpComplete
  repeat' first
    | with_reducible assumption
    | with_reducible refine OkOut.next ?_
    | with_reducible apply longComplete_ok

theorem settleStop_ok {qq : List Instr} (n : Nat) (c : Nat) (s : State) (hs : Ok qq s) : Ok qq (settleStop n c s) := by
  unfold settleStop
  repeat' first
    | with_reducible assumption
    | with_reducible apply leaveEngine_ok
    | with_reducible apply ctxStart_ok
    | split

theorem contextSwitch_ok {qq : List Instr} (n : Nat) (s : State) (hs : Ok qq s) : Ok qq (contextSwitch n s) := by
  unfold contextSwitch
  repeat' first
    | with_reducible assumption
    | (extract_lets +onlyGivenNames x; refine have hx : Ok qq x := ?_; ?_; rotate_left; clear_value x; rotate_right; subst x)
    | (extract_lets +onlyGivenNames x; clear_value x)
    | with_reducible apply settleStop_ok
    | with_reducible apply State.setCtxState_ok
    | with_reducible apply leaveEngine_ok
    | with_reducible apply ok_ite
    | split

theorem execContextSwitch_ok {qq : List Instr} (n : Fin 96) (s : State) (hs : Ok qq s) : OkOut qq (execContextSwitch n s) := by
  unfold execContextSwitch
  repeat' first
    | with_reducible assumption
    | with_reducible refine OkOut.next ?_
    | with_reducible apply contextSwitch_ok

theorem execAccessResponse_ok {qq : List Instr} (k : Fin 2048) (s : State) (hs : Ok qq s) : OkOut qq (execAccessResponse k s) := by
  unfold execAccessResponse
  repeat' first
    | with_reducible assumption
    | with_reducible refine OkOut.next ?_
    | with_reducible apply accessResponse_ok

theorem faultDelivery_ok {qq : List Instr} (n : Nat) (s : State) (hs : Ok qq s) : Ok qq (faultDelivery n s) := by
  unfold faultDelivery
  repeat' first
    | with_reducible assumption
    | (extract_lets +onlyGivenNames x; clear_value x)
    | with_reducible apply deliverFault_ok
    | with_reducible apply ok_ite

theorem execFaultDelivery_ok {qq : List Instr} (n : Fin 96) (s : State) (hs : Ok qq s) : OkOut qq (execFaultDelivery n s) := by
  unfold execFaultDelivery
  repeat' first
    | with_reducible assumption
    | with_reducible refine OkOut.next ?_
    | with_reducible apply faultDelivery_ok

theorem watchdog_ok {qq : List Instr} (n : Nat) (c : Nat) (s : State) (hs : Ok qq s) : Ok qq (watchdog n c s) := by
  unfold watchdog
  repeat' first
    | with_reducible assumption
    | (extract_lets +onlyGivenNames x; clear_value x)
    | with_reducible apply chargeFault_ok
    | with_reducible apply State.setCtx_ok
    | with_reducible apply ok_ite

theorem execWatchdogExpiry_ok {qq : List Instr} (n : Fin 96) (c : Fin 4) (s : State) (hs : Ok qq s) : OkOut qq (execWatchdogExpiry n c s) := by
  unfold execWatchdogExpiry
  repeat' first
    | with_reducible assumption
    | with_reducible refine OkOut.next ?_
    | with_reducible apply watchdog_ok

theorem timerExpiry_ok {qq : List Instr} (n : Nat) (c : Nat) (s : State) (hs : Ok qq s) : Ok qq (timerExpiry n c s) := by
  unfold timerExpiry
  repeat' first
    | with_reducible assumption
    | with_reducible apply State.wakeCtx_ok
    | with_reducible apply ok_ite

theorem execContextTimerExpiry_ok {qq : List Instr} (n : Fin 96) (c : Fin 4) (s : State) (hs : Ok qq s) : OkOut qq (execContextTimerExpiry n c s) := by
  unfold execContextTimerExpiry
  repeat' first
    | with_reducible assumption
    | with_reducible refine OkOut.next ?_
    | with_reducible apply timerExpiry_ok

theorem engineRun_ok {qq : List Instr} (n : Nat) (s : State) (hs : Ok qq s) : Ok qq (engineRun n s) := by
  unfold engineRun
  extract_lets s1 x s2
  have h1 : Ok qq s1 := State.setFld_ok _ _ _ _ _ hs
  have h2 : Ok qq s2 := State.setEng_ok _ _ _ h1 ⟨(h1.eng n).1, (h1.eng n).2, (h1.eng n).3, (h1.eng n).4⟩
  refine ok_foldl (fun s c h => ?_) _ h2
  split
  · exact ctxStart_ok _ _ _ h
  · exact h

theorem engineEnable_ok {qq : List Instr} (n : Nat) (s : State) (hs : Ok qq s) : Ok qq (engineEnable n s) := by
  unfold engineEnable
  repeat' first
    | with_reducible assumption
    | (extract_lets +onlyGivenNames x; refine have hx : Ok qq x := ?_; ?_; rotate_left; clear_value x; rotate_right; subst x)
    | with_reducible apply State.refuse_ok
    | with_reducible apply State.setFlag_ok
    | with_reducible apply engineRun_ok
    | with_reducible apply State.setFld_ok
    | with_reducible apply ok_ite
    | split

theorem engineDisable_ok {qq : List Instr} (n : Nat) (s : State) (hs : Ok qq s) : Ok qq (engineDisable n s) := by
  unfold engineDisable
  repeat' first
    | with_reducible assumption
    | (extract_lets +onlyGivenNames x; refine have hx : Ok qq x := ?_; ?_; rotate_left; clear_value x; rotate_right; subst x)
    | with_reducible apply State.setFlag_ok
    | with_reducible apply ctxStop_ok
    | with_reducible apply State.setFld_ok
    | (with_reducible refine ok_foldl ?_ _ ?_; intro _ _ _)
    | split

theorem execEngineEnable_ok {qq : List Instr} (w : Writer) (n : Fin 96) (s : State) (hs : Ok qq s) : OkOut qq (execEngineEnable w n s) := by
  unfold execEngineEnable
  repeat' first
    | with_reducible assumption
    | with_reducible refine OkOut.next ?_
    | with_reducible apply State.linked_ok
    | with_reducible apply engineEnable_ok

theorem execEngineDisable_ok {qq : List Instr} (w : Writer) (n : Fin 96) (s : State) (hs : Ok qq s) : OkOut qq (execEngineDisable w n s) := by
  unfold execEngineDisable
  repeat' first
    | with_reducible assumption
    | with_reducible refine OkOut.next ?_
    | with_reducible apply State.linked_ok
    | with_reducible apply engineDisable_ok

theorem engineStopDone_ok {qq : List Instr} (n : Nat) (s : State) (hs : Ok qq s) : Ok qq (engineStopDone n s) := by
  unfold engineStopDone
  repeat' first
    | with_reducible assumption
    | (extract_lets +onlyGivenNames x; refine have hx : Ok qq x := ?_; ?_; rotate_left; clear_value x; rotate_right; subst x)
    | (extract_lets +onlyGivenNames x; clear_value x)
    | with_reducible apply abortXfer_ok
    | with_reducible apply State.setFld_ok
    | with_reducible apply engineRun_ok
    | with_reducible apply ok_ite
    | (with_reducible refine ok_foldl ?_ _ ?_; intro _ _ _)

theorem execEngineStopDone_ok {qq : List Instr} (n : Fin 96) (s : State) (hs : Ok qq s) : OkOut qq (execEngineStopDone n s) := by
  unfold execEngineStopDone
  repeat' first
    | with_reducible assumption
    | with_reducible refine OkOut.next ?_
    | with_reducible apply engineStopDone_ok

theorem engineCntClr_ok {qq : List Instr} (n : Nat) (s : State) (hs : Ok qq s) : Ok qq (engineCntClr n s) := by
  unfold engineCntClr
  repeat' first
    | with_reducible assumption
    | with_reducible apply State.setReg_ok

theorem execEngineCntClr_ok {qq : List Instr} (w : Writer) (n : Fin 96) (s : State) (hs : Ok qq s) : OkOut qq (execEngineCntClr w n s) := by
  unfold execEngineCntClr
  repeat' first
    | with_reducible assumption
    | with_reducible refine OkOut.next ?_
    | with_reducible apply State.linked_ok
    | with_reducible apply engineCntClr_ok

theorem execContextStart_ok {qq : List Instr} (w : Writer) (n : Fin 96) (c : Fin 4) (s : State) (hs : Ok qq s) : OkOut qq (execContextStart w n c s) := by
  unfold execContextStart
  repeat' first
    | with_reducible assumption
    | with_reducible refine OkOut.next ?_
    | with_reducible apply State.linked_ok
    | with_reducible apply ctxStart_ok

theorem execContextStop_ok {qq : List Instr} (w : Writer) (n : Fin 96) (c : Fin 4) (s : State) (hs : Ok qq s) : OkOut qq (execContextStop w n c s) := by
  unfold execContextStop
  repeat' first
    | with_reducible assumption
    | with_reducible refine OkOut.next ?_
    | with_reducible apply State.linked_ok
    | with_reducible apply ctxStop_ok

theorem ctxPcWrite_ok {qq : List Instr} (n : Nat) (c : Nat) (v : W32) (s : State) (hs : Ok qq s) : Ok qq (ctxPcWrite n c v s) := by
  unfold ctxPcWrite
  repeat' first
    | with_reducible assumption
    | with_reducible apply State.setFld_ok
    | with_reducible apply State.refuse_ok
    | with_reducible apply ok_ite

theorem execCtxPcWrite_ok {qq : List Instr} (w : Writer) (n : Fin 96) (c : Fin 4) (v : W32) (s : State) (hs : Ok qq s) : OkOut qq (execCtxPcWrite w n c v s) := by
  unfold execCtxPcWrite
  repeat' first
    | with_reducible assumption
    | with_reducible refine OkOut.next ?_
    | with_reducible apply State.linked_ok
    | with_reducible apply ctxPcWrite_ok

theorem ctxCfgWrite_ok {qq : List Instr} (w : Writer) (n : Nat) (c : Nat) (v : W32) (s : State) (hs : Ok qq s) : Ok qq (ctxCfgWrite w n c v s) := by
  unfold ctxCfgWrite
  repeat' first
    | with_reducible assumption
    | (extract_lets +onlyGivenNames x; clear_value x)
    | (extract_lets +onlyGivenNames x; subst x)
    | with_reducible apply State.denyWarden_ok
    | with_reducible apply State.refuse_ok
    | with_reducible apply State.setReg_ok
    | with_reducible apply ok_ite

theorem execCtxCfgWrite_ok {qq : List Instr} (w : Writer) (n : Fin 96) (c : Fin 4) (v : W32) (s : State) (hs : Ok qq s) : OkOut qq (execCtxCfgWrite w n c v s) := by
  unfold execCtxCfgWrite
  repeat' first
    | with_reducible assumption
    | with_reducible refine OkOut.next ?_
    | with_reducible apply State.linked_ok
    | with_reducible apply ctxCfgWrite_ok

theorem ctxEvqWrite_ok {qq : List Instr} (n : Nat) (c : Nat) (v : W32) (s : State) (hs : Ok qq s) : Ok qq (ctxEvqWrite n c v s) := by
  unfold ctxEvqWrite
  repeat' first
    | with_reducible assumption
    | (extract_lets +onlyGivenNames x; clear_value x)
    | with_reducible apply State.refuse_ok
    | with_reducible apply State.setReg_ok
    | with_reducible apply ok_ite

theorem ctxEvqPtrWrite_ok {qq : List Instr} (n : Nat) (c : Nat) (v : W32) (s : State) (hs : Ok qq s) : Ok qq (ctxEvqPtrWrite n c v s) := by
  unfold ctxEvqPtrWrite
  repeat' first
    | with_reducible assumption
    | (extract_lets +onlyGivenNames x; clear_value x)
    | with_reducible apply State.refuse_ok
    | with_reducible apply State.setFld_ok
    | with_reducible apply ok_ite

theorem execCtxEvqWrite_ok {qq : List Instr} (w : Writer) (n : Fin 96) (c : Fin 4) (ptr : Bool) (v : W32) (s : State) (hs : Ok qq s) : OkOut qq (execCtxEvqWrite w n c ptr v s) := by
  unfold execCtxEvqWrite
  repeat' first
    | with_reducible assumption
    | with_reducible refine OkOut.next ?_
    | with_reducible apply State.linked_ok
    | with_reducible apply ctxEvqPtrWrite_ok
    | with_reducible apply ctxEvqWrite_ok
    | split

theorem ctxGreg_ok {qq : List Instr} (n : Nat) (c : Nat) (r : Nat) (write : Option W64) (s : State) (hs : Ok qq s) : Ok qq (ctxGreg n c r write s) := by
  unfold ctxGreg
  repeat' first
    | with_reducible assumption
    | with_reducible exact ok_mk (by assumption) rfl rfl rfl rfl rfl rfl rfl rfl rfl
    | (extract_lets +onlyGivenNames x; refine have hx : Ok qq x := ?_; ?_; rotate_left; clear_value x; rotate_right; subst x)
    | (extract_lets +onlyGivenNames x; clear_value x)
    | with_reducible apply State.setG_ok
    | with_reducible apply State.accessError_ok
    | with_reducible apply State.refuse_ok
    | with_reducible apply ok_ite
    | split

theorem execCtxGregAccess_ok {qq : List Instr} (w : Writer) (n : Fin 96) (c : Fin 4) (r : Fin 32) (write : Option W64) (s : State) (hs : Ok qq s) : OkOut qq (execCtxGregAccess w n c r write s) := by
  unfold execCtxGregAccess
  repeat' first
    | with_reducible assumption
    | with_reducible refine OkOut.next ?_
    | with_reducible apply State.linked_ok
    | with_reducible apply ctxGreg_ok

theorem ochDestWrite_ok {qq : List Instr} (n : Nat) (k : Nat) (v : W32) (s : State) (hs : Ok qq s) : Ok qq (ochDestWrite n k v s) := by
  unfold ochDestWrite
  repeat' first
    | with_reducible assumption
    | with_reducible apply State.refuse_ok
    | with_reducible apply State.setReg_ok
    | with_reducible apply ok_ite

theorem execOchDestWrite_ok {qq : List Instr} (w : Writer) (n : Fin 96) (k : Fin 8) (v : W32) (s : State) (hs : Ok qq s) : OkOut qq (execOchDestWrite w n k v s) := by
  unfold execOchDestWrite
  repeat' first
    | with_reducible assumption
    | with_reducible refine OkOut.next ?_
    | with_reducible apply State.linked_ok
    | with_reducible apply ochDestWrite_ok

theorem engineTokenIn_ok {qq : List Instr} (k : Nat) (s : State) (hs : Ok qq s) : Ok qq (engineTokenIn k s) := by
  unfold engineTokenIn
  repeat' first
    | with_reducible assumption
    | with_reducible apply deliver_ok
    | with_reducible apply ok_ite
    | split

theorem execEngineTokenIn_ok {qq : List Instr} (k : Fin 2048) (s : State) (hs : Ok qq s) : OkOut qq (execEngineTokenIn k s) := by
  unfold execEngineTokenIn
  repeat' first
    | with_reducible assumption
    | with_reducible refine OkOut.next ?_
    | with_reducible apply engineTokenIn_ok

theorem engineMsgAdmit_ok {qq : List Instr} (n : Nat) (s : State) (hs : Ok qq s) : Ok qq (engineMsgAdmit n s) := by
  unfold engineMsgAdmit
  split
  · exact hs
  · next k v rest e =>
    split
    · exact hs
    · next hl =>
      have hq : rest.length ≤ 8 := by
        have := (hs.eng n).3
        rw [e, List.length_cons] at this
        omega
      have h0 := State.setEng_ok s n { s.eng n with inq := rest } hs ⟨(hs.eng n).1, (hs.eng n).2, hq, (hs.eng n).4⟩
      have hc : ((s.setEng n { s.eng n with inq := rest }).inCh n k).length < 4 := by
        unfold State.inCh
        rw [hs.eng_setEng]
        exact Nat.lt_of_not_le hl
      have h1 := tokenIn_ok n k v _ h0 hc
      dsimp only
      split
      · exact h1
      · exact ok_ite (State.bump_ok _ _ _ _ _ h1) h1

theorem execEngineMsgAdmit_ok {qq : List Instr} (n : Fin 96) (s : State) (hs : Ok qq s) : OkOut qq (execEngineMsgAdmit n s) := by
  unfold execEngineMsgAdmit
  repeat' first
    | with_reducible assumption
    | with_reducible refine OkOut.next ?_
    | with_reducible apply engineMsgAdmit_ok

theorem outputDrain_ok {qq : List Instr} (n : Nat) (k : Nat) (s : State) (hs : Ok qq s) : Ok qq (outputDrain n k s) := by
  unfold outputDrain
  extract_lets p
  split
  · exact hs
  · next dest v rest e =>
    have hl : rest.length ≤ 4 := by
      have := hs.outCh n k
      rw [e, List.length_cons] at this
      omega
    split
    · exact hs
    · refine ok_foldl (fun s c h => ?_) _ (State.putTrans_ok _ _ (State.occupy_ok _ _ (State.setOutCh_ok _ _ _ _ hs hl)))
      split
      · exact State.wakeCtx_ok _ _ _ _ h
      · exact h

theorem execOutputChannelDrain_ok {qq : List Instr} (n : Fin 96) (k : Fin 8) (s : State) (hs : Ok qq s) : OkOut qq (execOutputChannelDrain n k s) := by
  unfold execOutputChannelDrain
  repeat' first
    | with_reducible assumption
    | with_reducible refine OkOut.next ?_
    | with_reducible apply outputDrain_ok

theorem evqDrain_ok {qq : List Instr} (n : Nat) (s : State) (hs : Ok qq s) : Ok qq (evqDrain n s) := by
  unfold evqDrain
  split
  · exact hs
  · next p e =>
    have h1 := State.setEng_ok s n { s.eng n with evqBuf := (s.eng n).evqBuf.erase p } hs ⟨(hs.eng n).1, (hs.eng n).2,
      (hs.eng n).3, Nat.le_trans List.length_erase_le (hs.eng n).4⟩
    exact ok_ite (evqWrite_ok _ _ _ _ h1) (evqLost_ok _ _ _ h1)

theorem execEvqBufferDrain_ok {qq : List Instr} (n : Fin 96) (s : State) (hs : Ok qq s) : OkOut qq (execEvqBufferDrain n s) := by
  unfold execEvqBufferDrain
  repeat' first
    | with_reducible assumption
    | with_reducible refine OkOut.next ?_
    | with_reducible apply evqDrain_ok

end Sys2Proof.Machine
end

