-- ==== Sys2Proof/Laws/OkLoaderCore.lean ====
section
/-! SUPPORT. What the operations of Machine/LoaderCore.lean keep: each takes a sound state with the same commands waiting to
such a state (see Laws/Ok.lean). -/

namespace Sys2Proof.Machine

theorem State.setLdrState_ok {qq : List Instr} (s : State) (v : Nat) (hs : Ok qq s) : Ok qq (State.setLdrState s v) := by
  unfold State.setLdrState
  repeat' first
    | with_reducible assumption
    | with_reducible apply State.setFld_ok

theorem State.dropAction_ok {qq : List Instr} (s : State) (a : Action) (hs : Ok qq s) : Ok qq (State.dropAction s a) := by
  unfold State.dropAction
  repeat' first
    | with_reducible exact ok_mk (by assumption) rfl rfl rfl rfl rfl rfl rfl rfl rfl

theorem holdSector_ok {qq : List Instr} (sec : Nat) (s : State) (hs : Ok qq s) : Ok qq (holdSector sec s) := by
  unfold holdSector
  repeat' first
    | with_reducible assumption
    | (extract_lets +onlyGivenNames x; refine have hx : Ok qq x := ?_; ?_; rotate_left; clear_value x; rotate_right; subst x)
    | with_reducible apply State.setFlag_ok
    | with_reducible apply resetSector_ok

theorem haltEngine_ok {qq : List Instr} (n : Nat) (s : State) (hs : Ok qq s) : Ok qq (haltEngine n s) := by
  unfold haltEngine
  repeat' first
    | with_reducible assumption
    | (extract_lets +onlyGivenNames x; refine have hx : Ok qq x := ?_; ?_; rotate_left; clear_value x; rotate_right; subst x)
    | (extract_lets +onlyGivenNames x; clear_value x)
    | with_reducible apply abortXfer_ok
    | with_reducible apply leaveEngine_ok
    | with_reducible apply State.setFld_ok
    | with_reducible apply ok_ite
    | (with_reducible refine ok_foldl ?_ _ ?_; intro _ _ _)

theorem holdDevice_ok {qq : List Instr} (s : State) (hs : Ok qq s) : Ok qq (holdDevice s) := by
  unfold holdDevice
  repeat' first
    | with_reducible assumption
    | (extract_lets +onlyGivenNames x; refine have hx : Ok qq x := ?_; ?_; rotate_left; clear_value x; rotate_right; subst x)
    | with_reducible apply holdSector_ok
    | with_reducible apply haltEngine_ok
    | with_reducible apply State.setFld_ok
    | (with_reducible refine ok_foldl ?_ _ ?_; intro _ _ _)

theorem pullGate_ok {qq : List Instr} (s : State) (hs : Ok qq s) : Ok qq (pullGate s) := by
  unfold pullGate
  repeat' first
    | with_reducible assumption
    | with_reducible apply State.setFlag_ok

theorem startFailed_ok {qq : List Instr} (code : Nat) (s : State) (hs : Ok qq s) : Ok qq (startFailed code s) := by
  unfold startFailed
  repeat' first
    | with_reducible assumption
    | with_reducible exact ok_mk (by assumption) rfl rfl rfl rfl rfl rfl rfl rfl rfl
    | (extract_lets +onlyGivenNames x; refine have hx : Ok qq x := ?_; ?_; rotate_left; clear_value x; rotate_right; subst x)
    | (extract_lets +onlyGivenNames x; clear_value x)
    | with_reducible apply State.dropAction_ok
    | with_reducible apply State.setPhase_ok
    | with_reducible apply State.noticeIf_ok
    | with_reducible apply ok_ite

theorem State.setHeldMask_ok {qq : List Instr} (s : State) (m : Nat) (hs : Ok qq s) : Ok qq (State.setHeldMask s m) := by
  unfold State.setHeldMask
  repeat' first
    | with_reducible assumption
    | with_reducible apply State.setFld_ok

theorem failedHolds_ok {qq : List Instr} (s : State) (hs : Ok qq s) : Ok qq (failedHolds s) := by
  unfold failedHolds
  split
  · have h := State.setHeldMask_ok s (s.ldr.entered.foldl (fun m k => m ||| 2 ^ k) s.heldMask) hs
    exact ok_mkBy h rfl h.inv.1.1 h.inv.1.2 h.inv.1.3 h.engines h.inv.2.2 h.inv.2.3 h.inv.2.4 hs.inv.2.5
  · exact pullGate_ok _ (State.setHeldMask_ok _ _ (holdDevice_ok _ hs))

theorem ldrFailAt_ok {qq : List Instr} (code : Nat) (detail : Nat) (off : Nat) (s : State) (hs : Ok qq s) : Ok qq (ldrFailAt code detail off s) := by
  unfold ldrFailAt
  extract_lets ends left s1 s2 s3 s4 s5 s6
  have h1 : Ok qq s1 := State.setReg_ok _ _ _ _ _ hs
  have h2 : Ok qq s2 := ok_ite (failedHolds_ok _ h1) h1
  have h3 : Ok qq s3 := State.dropAction_ok _ _ (State.setLdrState_ok _ _ h2)
  have h4 : Ok qq s4 := ok_mkBy h3 rfl h3.inv.1.1 h3.inv.1.2 h3.inv.1.3 h3.engines h3.inv.2.2 h3.inv.2.3 h3.inv.2.4 (Nat.zero_le _)
  have h5 : Ok qq s5 := State.setFlag_ok _ _ _ _ _ h4
  have h6 : Ok qq s6 := State.noticeIf_ok _ _ _ _ h5
  exact ok_ite (startFailed_ok _ _ h6) h6

theorem ldrFail_ok {qq : List Instr} (code : Nat) (s : State) (hs : Ok qq s) : Ok qq (ldrFail code s) := by
  unfold ldrFail
  repeat' first
    | with_reducible assumption
    | with_reducible apply ldrFailAt_ok

theorem State.setLane_ok {qq : List Instr} (s : State) (l : Nat) (h : LaneHid) (hs : Ok qq s) : Ok qq (State.setLane s l h) := by
  unfold State.setLane
  repeat' first
    | with_reducible exact ok_mk (by assumption) rfl rfl rfl rfl rfl rfl rfl rfl rfl

theorem State.sendLane_ok {qq : List Instr} (s : State) (l : Nat) (m : LaneMsg) (hs : Ok qq s) : Ok qq (State.sendLane s l m) := by
  unfold State.sendLane
  repeat' first
    | with_reducible exact ok_mk (by assumption) rfl rfl rfl rfl rfl rfl rfl rfl rfl

theorem streamPump_ok {qq : List Instr} (a0 : Nat) (a1 : State) (ha1 : Ok qq a1) : Ok qq (streamPump a0 a1) := by
  revert ha1
  fun_induction streamPump a0 a1 <;> intro ha1
  all_goals repeat' first
    | with_reducible assumption
    | with_reducible refine (by assumption : Ok _ _ → Ok _ _) ?_
    | with_reducible apply State.setLane_ok
    | with_reducible apply State.sendLane_ok

theorem forward_ok {qq : List Instr} (bs : List Byte) (s : State) (hs : Ok qq s) : Ok qq (forward bs s) := by
  unfold forward
  repeat' first
    | with_reducible assumption
    | (extract_lets +onlyGivenNames x; clear_value x)
    | with_reducible apply streamPump_ok
    | with_reducible apply State.setLane_ok
    | with_reducible apply ok_ite

theorem forwardEnd_ok {qq : List Instr} (s : State) (hs : Ok qq s) : Ok qq (forwardEnd s) := by
  unfold forwardEnd
  repeat' first
    | with_reducible assumption
    | (extract_lets +onlyGivenNames x; refine have hx : Ok qq x := ?_; ?_; rotate_left; clear_value x; rotate_right; subst x)
    | (extract_lets +onlyGivenNames x; clear_value x)
    | with_reducible apply State.setFlag_ok
    | with_reducible apply streamPump_ok
    | with_reducible apply State.setLane_ok
    | with_reducible apply ok_ite

theorem ldrStart_ok {qq : List Instr} (source : Nat) (ring : Option Nat) (s : State) (hs : Ok qq s) : Ok qq (ldrStart source ring s) := by
  unfold ldrStart
  extract_lets s1 s2 s3
  have h3 : Ok qq s3 := State.setFlag_ok _ _ _ _ _ (State.setReg_ok _ _ _ _ _ (State.setFld_ok _ _ _ _ _ (State.setLdrState_ok _ _ hs)))
  exact ok_mkBy h3 rfl h3.inv.1.1 h3.inv.1.2 h3.inv.1.3 h3.engines h3.inv.2.2 h3.inv.2.3 h3.inv.2.4 (Nat.zero_le _)

theorem ldrPush_ok {qq : List Instr} (bs : List Byte) (s : State) (hs : Ok qq s) : Ok qq (ldrPush bs s) := by
  unfold ldrPush
  repeat' first
    | with_reducible assumption
    | with_reducible exact ok_mk (by assumption) rfl rfl rfl rfl rfl rfl rfl rfl rfl
    | (extract_lets +onlyGivenNames x; refine have hx : Ok qq x := ?_; ?_; rotate_left; clear_value x; rotate_right; subst x)
    | (extract_lets +onlyGivenNames x; (first | have hh : Sched := x | have hh : Hea := x | have hh : Ldr := x); clear hh; subst x)
    | with_reducible apply State.setReg_ok
    | with_reducible apply forward_ok

theorem ldrSkip_ok {qq : List Instr} (bs : List Byte) (s : State) (hs : Ok qq s) : Ok qq (ldrSkip bs s) := by
  unfold ldrSkip
  repeat' first
    | with_reducible assumption
    | with_reducible exact ok_mk (by assumption) rfl rfl rfl rfl rfl rfl rfl rfl rfl
    | (extract_lets +onlyGivenNames x; refine have hx : Ok qq x := ?_; ?_; rotate_left; clear_value x; rotate_right; subst x)
    | (extract_lets +onlyGivenNames x; (first | have hh : Sched := x | have hh : Hea := x | have hh : Ldr := x | have hh : Eng := x); clear hh; subst x)
    | (extract_lets +onlyGivenNames x; clear_value x)
    | with_reducible apply forward_ok
    | with_reducible apply forwardEnd_ok
    | with_reducible apply ok_ite

theorem ldrOffer_ok {qq : List Instr} (source : Nat) (ring : Option Nat) (cont : Bool) (bs : List Byte) (s : State) (hs : Ok qq s) : Ok qq (ldrOffer source ring cont bs s).1 := by
  unfold ldrOffer
  repeat' first
    | with_reducible assumption
    | (extract_lets +onlyGivenNames g; refine have hg : ∀ s, Ok qq s → Ok qq (g s).1 := ?_; ?_; rotate_left; clear_value g; rotate_right; subst g; intro _ _; try dsimp -zeta only)
    | (extract_lets +onlyGivenNames x; clear_value x)
    | with_reducible apply ldrPush_ok
    | with_reducible apply ldrStart_ok
    | with_reducible apply ldrSkip_ok
    | with_reducible apply okFst_ite
    | with_reducible apply hg

theorem ldrEat_ok {qq : List Instr} (k : Nat) (s : State) (hs : Ok qq s) : Ok qq (ldrEat k s) := by
  unfold ldrEat
  repeat' first
    | with_reducible exact ok_mk (by assumption) rfl rfl rfl rfl rfl rfl rfl rfl rfl

theorem ldrFromSlot_ok {qq : List Instr} (slot : Nat) (s : State) (hs : Ok qq s) : Ok qq (ldrFromSlot slot s) := by
  unfold ldrFromSlot
  extract_lets s1 s2 s3
  have h2 : Ok qq s2 := State.setFlag_ok _ _ _ _ _ (ldrStart_ok _ _ _ hs)
  have h3 : Ok qq s3 := State.setFld_ok _ _ _ _ _ h2
  exact ok_mkBy h3 rfl h3.inv.1.1 h3.inv.1.2 h3.inv.1.3 h3.engines h3.inv.2.2 h3.inv.2.3 h3.inv.2.4 h2.inv.2.5

theorem ldrRefill_ok {qq : List Instr} (s : State) (hs : Ok qq s) : Ok qq (ldrRefill s) := by
  unfold ldrRefill
  repeat' first
    | with_reducible assumption
    | with_reducible exact ok_mk (by assumption) rfl rfl rfl rfl rfl rfl rfl rfl rfl
    | (extract_lets +onlyGivenNames x; refine have hx : Ok qq x := ?_; ?_; rotate_left; clear_value x; rotate_right; subst x)
    | (extract_lets +onlyGivenNames x; (first | have hh : Sched := x | have hh : Hea := x | have hh : Ldr := x | have hh : Eng := x); clear hh; subst x)
    | (extract_lets +onlyGivenNames x; clear_value x)
    | with_reducible apply ldrPush_ok
    | with_reducible apply ok_ite

end Sys2Proof.Machine
end

