-- ==== Sys2Proof/Laws/OkMoverCore.lean ====
section
/-! SUPPORT. What the operations of Machine/MoverCore.lean keep: each takes a sound state with the same commands waiting to
such a state (see Laws/Ok.lean). -/

namespace Sys2Proof.Machine

theorem putCompletion_ok {qq : List Instr} (n : Nat) (ws : List W64) (s : State) (hs : Ok qq s) : Ok qq (putCompletion n ws s) := by
  unfold putCompletion
  repeat' first
    | with_reducible assumption
    | (extract_lets +onlyGivenNames x; clear_value x)
    | with_reducible apply State.bump_ok
    | with_reducible apply State.setFlag_ok
    | with_reducible apply State.setRing_ok
    | with_reducible apply State.putRecord_ok
    | with_reducible apply ok_ite

theorem flushEvents_ok {qq : List Instr} (h : Nat) (c : Nat) (a2 : Nat) (a3 : State) (ha3 : Ok qq a3) : Ok qq (flushEvents h c a2 a3) := by
  induction a2 generalizing a3 with
  | zero => exact ha3
  | succ k ih =>
    unfold flushEvents
    extract_lets l
    split
    · exact ha3
    · next p e =>
      have hlen : (l.erase p).length ≤ 256 := Nat.le_trans List.length_erase_le (by
        show (if h = 0 then a3.sched.evtWest else a3.sched.evtEast).length ≤ 256
        split
        · exact ha3.inv.2.2
        · exact ha3.inv.2.3)
      extract_lets rest
      have hr : Ok qq rest := by
        show Ok qq { a3 with sched := if h = 0 then _ else _ }
        split
        · exact ok_mkBy ha3 rfl ha3.inv.1.1 ha3.inv.1.2 ha3.inv.1.3 ha3.engines hlen ha3.inv.2.3 ha3.inv.2.4 ha3.inv.2.5
        · exact ok_mkBy ha3 rfl ha3.inv.1.1 ha3.inv.1.2 ha3.inv.1.3 ha3.engines ha3.inv.2.2 hlen ha3.inv.2.4 ha3.inv.2.5
      split
      · exact ih _ (State.bump_ok _ _ _ _ _ hr)
      · split
        · exact ha3
        · exact ih _ (State.putRecord_ok _ _ _ hr)

theorem flushRecord_ok {qq : List Instr} (n : Nat) (s : State) (hs : Ok qq s) : Ok qq (flushRecord n s) := by
  unfold flushRecord
  repeat' first
    | with_reducible assumption
    | (extract_lets +onlyGivenNames x; refine have hx : Ok qq x := ?_; ?_; rotate_left; clear_value x; rotate_right; subst x)
    | (extract_lets +onlyGivenNames x; clear_value x)
    | with_reducible apply State.setFlag_ok
    | with_reducible apply State.setRing_ok
    | with_reducible apply putCompletion_ok
    | with_reducible apply ok_ite
    | split

theorem ringRoom_ok {qq : List Instr} (c : Nat) (s : State) (hs : Ok qq s) : Ok qq (ringRoom c s) := by
  unfold ringRoom
  repeat' first
    | with_reducible assumption
    | (extract_lets +onlyGivenNames x; refine have hx : Ok qq x := ?_; ?_; rotate_left; clear_value x; rotate_right; subst x)
    | with_reducible apply flushEvents_ok
    | with_reducible apply flushRecord_ok
    | with_reducible apply ok_ite
    | (with_reducible refine ok_foldl ?_ _ ?_; intro _ _ _)

theorem showMover_ok {qq : List Instr} (m : Nat) (s : State) (hs : Ok qq s) : Ok qq (showMover m s) := by
  unfold showMover
  repeat' first
    | with_reducible assumption
    | (extract_lets +onlyGivenNames x; refine have hx : Ok qq x := ?_; ?_; rotate_left; clear_value x; rotate_right; subst x)
    | (extract_lets +onlyGivenNames x; clear_value x)
    | with_reducible apply State.setFlag_ok

theorem showServed_ok {qq : List Instr} (j : Nat) (s : State) (hs : Ok qq s) : Ok qq (showServed j s) := by
  unfold showServed
  repeat' first
    | with_reducible assumption
    | (extract_lets +onlyGivenNames x; clear_value x)
    | with_reducible apply showMover_ok
    | with_reducible apply State.setFld_ok

theorem unqueue_ok {qq : List Instr} (n : Nat) (s : State) (hs : Ok qq s) : Ok qq (unqueue n s) := by
  unfold unqueue
  repeat' first
    | with_reducible assumption
    | with_reducible exact ok_mk (by assumption) rfl rfl rfl rfl rfl rfl rfl rfl rfl
    | (extract_lets +onlyGivenNames x; clear_value x)
    | with_reducible apply State.setFld_ok
    | with_reducible apply ok_ite

theorem completeDesc_ok {qq : List Instr} (n : Nat) (status : Nat) (s : State) (hs : Ok qq s) : Ok qq (completeDesc n status s) := by
  unfold completeDesc
  repeat' first
    | with_reducible assumption
    | (extract_lets +onlyGivenNames x; refine have hx : Ok qq x := ?_; ?_; rotate_left; clear_value x; rotate_right; subst x)
    | (extract_lets +onlyGivenNames x; clear_value x)
    | with_reducible apply unqueue_ok
    | with_reducible apply showMover_ok
    | with_reducible apply State.orphan_ok
    | with_reducible apply State.setJob_ok
    | with_reducible apply State.bump_ok
    | with_reducible apply putCompletion_ok
    | with_reducible apply ok_ite

theorem endJob_ok {qq : List Instr} (j : Nat) (status : Nat) (s : State) (hs : Ok qq s) : Ok qq (endJob j status s) := by
  unfold endJob
  repeat' first
    | with_reducible assumption
    | (extract_lets +onlyGivenNames x; clear_value x)
    | with_reducible apply completeDesc_ok
    | with_reducible apply showMover_ok
    | with_reducible apply endXfer_ok
    | with_reducible apply ok_ite

theorem jobLinkDown_ok {qq : List Instr} (j : Nat) (s : State) (hs : Ok qq s) : Ok qq (jobLinkDown j s) := by
  unfold jobLinkDown
  repeat' first
    | with_reducible assumption
    | (extract_lets +onlyGivenNames x; clear_value x)
    | with_reducible apply unqueue_ok
    | with_reducible apply showMover_ok
    | with_reducible apply ringError_ok
    | with_reducible apply State.setJob_ok
    | with_reducible apply endJob_ok
    | with_reducible apply ok_ite

theorem dropLine_ok {qq : List Instr} (j : Nat) (s : State) (hs : Ok qq s) : Ok qq (dropLine j s) := by
  unfold dropLine
  repeat' first
    | with_reducible assumption
    | (extract_lets +onlyGivenNames x; clear_value x)
    | with_reducible apply State.setJob_ok

theorem jobFault_ok {qq : List Instr} (j : Nat) (code : Nat) (va : Nat) (write : Bool) (s : State) (hs : Ok qq s) : Ok qq (jobFault j code va write s) := by
  unfold jobFault
  repeat' first
    | with_reducible assumption
    | (extract_lets +onlyGivenNames x; refine have hx : Ok qq x := ?_; ?_; rotate_left; clear_value x; rotate_right; subst x)
    | (extract_lets +onlyGivenNames x; clear_value x)
    | with_reducible apply dropLine_ok
    | with_reducible apply State.xlFault_ok
    | with_reducible apply State.setFld_ok
    | with_reducible apply State.setReg_ok
    | with_reducible apply State.bump_ok
    | with_reducible apply State.notice_ok
    | with_reducible apply showMover_ok
    | with_reducible apply completeDesc_ok
    | with_reducible apply State.setJob_ok
    | with_reducible apply chargeFault_ok
    | with_reducible apply State.setCtx_ok
    | with_reducible apply endJob_ok
    | with_reducible apply ok_ite

theorem moverXl_ok {qq : List Instr} (k : Nat) (m : Nat) (asid : Nat) (priv : Nat) (op : TOp) (va : Nat) (s : State) (hs : Ok qq s) : Ok qq (moverXl k m asid priv op va s).1 := by
  unfold moverXl
  repeat' first
    | with_reducible assumption
    | with_reducible apply State.startWalk_ok
    | with_reducible apply ok_ite
    | split

theorem moverXls_ok {qq : List Instr} (j : Nat) (op : TOp) (va : Nat) (words : Nat) (s : State) (hs : Ok qq s) : Ok qq (moverXls j op va words s).1 := by
  unfold moverXls
  repeat' first
    | with_reducible assumption
    | (extract_lets +onlyGivenNames g; refine have hg : ∀ a s, Ok qq s → Ok qq (g a s).1 := ?_; ?_; rotate_left; clear_value g; rotate_right; subst g; intro _ _ _; try dsimp -zeta only)
    | (extract_lets +onlyGivenNames x; clear_value x)
    | with_reducible refine ok_mk (ok_fst (by assumption) ?_) rfl rfl rfl rfl rfl rfl rfl rfl rfl
    | with_reducible apply moverXl_ok
    | with_reducible apply okFst_ite
    | with_reducible apply hg
    | split

theorem devAccess_ok {qq : List Instr} (t : Trans) (lost : Nat) (s : State) (hs : Ok qq s) : Ok qq (devAccess t lost s).1 := by
  unfold devAccess
  repeat' first
    | with_reducible assumption
    | (extract_lets +onlyGivenNames g; refine have hg : ∀ r, Ok qq r.1 → Ok qq (g r).1 := ?_; ?_; rotate_left; clear_value g; rotate_right; subst g; intro _ _; try dsimp -zeta only)
    | with_reducible apply lostContests_ok
    | with_reducible apply bankTake_ok
    | with_reducible apply windowTake_ok
    | with_reducible apply engTake_ok
    | with_reducible apply presentIn_ok
    | with_reducible apply okFst_ite
    | with_reducible apply hg
    | split

theorem lineData_ok {qq : List Instr} (j : Nat) (status : Nat) (bad : Nat) (ws : List W64) (s : State) (hs : Ok qq s) : Ok qq (lineData j status bad ws s).1 := by
  unfold lineData
  repeat' first
    | with_reducible assumption
    | (extract_lets +onlyGivenNames x; clear_value x)
    | with_reducible apply endJob_ok
    | with_reducible apply dropLine_ok
    | with_reducible apply State.setJob_ok
    | with_reducible apply okFst_ite

theorem readPart_ok {qq : List Instr} (j : Nat) (lost : Nat) (s : State) (hs : Ok qq s) : Ok qq (readPart j lost s).1 := by
  unfold readPart
  repeat' first
    | with_reducible assumption
    | (extract_lets +onlyGivenNames x; refine have hx : Ok qq x := ?_; ?_; rotate_left; clear_value x; rotate_right; subst x)
    | (extract_lets +onlyGivenNames x; clear_value x)
    | with_reducible refine ok_mk (ok_fst (by assumption) ?_) rfl rfl rfl rfl rfl rfl rfl rfl rfl
    | with_reducible apply moverXls_ok
    | with_reducible apply jobFault_ok
    | with_reducible apply jobLinkDown_ok
    | with_reducible apply State.setJob_ok
    | with_reducible apply devAccess_ok
    | with_reducible apply lineData_ok
    | with_reducible apply okFst_ite
    | split

theorem readLine_ok {qq : List Instr} (j : Nat) (lost : Nat) (a2 : Nat) (a3 : State) (ha3 : Ok qq a3) : Ok qq (readLine j lost a2 a3).1 := by
  revert ha3
  fun_induction readLine j lost a2 a3 <;> intro ha3
  all_goals repeat' first
    | with_reducible assumption
    | with_reducible refine (by assumption : Ok _ _ → Ok _ _) ?_
    | with_reducible refine ok_mk (ok_fst (by assumption) ?_) rfl rfl rfl rfl rfl rfl rfl rfl rfl
    | with_reducible apply readPart_ok

theorem putFixed_ok {qq : List Instr} (j : Nat) (lost : Nat) (s : State) (hs : Ok qq s) : Ok qq (putFixed j lost s).1 := by
  unfold putFixed
  repeat' first
    | with_reducible assumption
    | (extract_lets +onlyGivenNames x; clear_value x)
    | with_reducible refine ok_mk (ok_fst (by assumption) ?_) rfl rfl rfl rfl rfl rfl rfl rfl rfl
    | with_reducible apply endJob_ok
    | with_reducible apply moverXls_ok
    | with_reducible apply jobFault_ok
    | with_reducible apply jobLinkDown_ok
    | with_reducible apply State.setJob_ok
    | with_reducible apply devAccess_ok
    | with_reducible apply okFst_ite
    | split

theorem putPart_ok {qq : List Instr} (j : Nat) (base : Nat) (s : State) (hs : Ok qq s) : Ok qq (putPart j base s).1 := by
  unfold putPart
  repeat' first
    | with_reducible assumption
    | (extract_lets +onlyGivenNames x; refine have hx : Ok qq x := ?_; ?_; rotate_left; clear_value x; rotate_right; subst x)
    | (extract_lets +onlyGivenNames x; clear_value x)
    | with_reducible refine ok_mk (ok_fst (by assumption) ?_) rfl rfl rfl rfl rfl rfl rfl rfl rfl
    | with_reducible apply moverXls_ok
    | with_reducible apply jobFault_ok
    | with_reducible apply jobLinkDown_ok
    | with_reducible apply State.putTrans_ok
    | with_reducible apply State.setJob_ok
    | with_reducible apply okFst_ite
    | split

theorem putLine_ok {qq : List Instr} (j : Nat) (base : Nat) (lost : Nat) (a3 : Nat) (a4 : State) (ha4 : Ok qq a4) : Ok qq (putLine j base lost a3 a4).1 := by
  revert ha4
  fun_induction putLine j base lost a3 a4 <;> intro ha4
  all_goals repeat' first
    | with_reducible assumption
    | with_reducible refine (by assumption : Ok _ _ → Ok _ _) ?_
    | with_reducible refine ok_mk (ok_fst (by assumption) ?_) rfl rfl rfl rfl rfl rfl rfl rfl rfl
    | with_reducible apply putFixed_ok
    | with_reducible apply putPart_ok
    | with_reducible apply okFst_ite

theorem nextLine_ok {qq : List Instr} (j : Nat) (bytes : Nat) (s : State) (hs : Ok qq s) : Ok qq (nextLine j bytes s) := by
  unfold nextLine
  repeat' first
    | with_reducible assumption
    | (extract_lets +onlyGivenNames x; clear_value x)
    | with_reducible apply State.setJob_ok

end Sys2Proof.Machine
end

