-- ==== Sys2Proof/Laws/OkMovers.lean ====
section
/-! SUPPORT. What the operations of Machine/Movers.lean keep: each takes a sound state with the same commands waiting to
such a state (see Laws/Ok.lean). -/

namespace Sys2Proof.Machine

theorem armImage_ok {qq : List Instr} (j : Nat) (img : List W64) (s : State) (hs : Ok qq s) : Ok qq (armImage j img s).1 := by
  unfold armImage
  repeat' first
    | with_reducible assumption
    | with_reducible apply armEvent_ok
    | with_reducible apply State.setJob_ok

theorem armLine_ok {qq : List Instr} (j : Nat) (a1 : Nat) (a2 : List W64) (a3 : State) (ha3 : Ok qq a3) : Ok qq (armLine j a1 a2 a3).1 := by
  revert ha3
  fun_induction armLine j a1 a2 a3 <;> intro ha3
  all_goals repeat' first
    | with_reducible assumption
    | with_reducible refine (by assumption : Ok _ _ → Ok _ _) ?_
    | with_reducible refine ok_mk (ok_fst (by assumption) ?_) rfl rfl rfl rfl rfl rfl rfl rfl rfl
    | with_reducible apply armImage_ok

theorem loadLine_ok {qq : List Instr} (j : Nat) (s : State) (hs : Ok qq s) : Ok qq (loadLine j s).1 := by
  unfold loadLine
  repeat' first
    | with_reducible assumption
    | (extract_lets +onlyGivenNames x; refine have hx : Ok qq x := ?_; ?_; rotate_left; clear_value x; rotate_right; subst x)
    | (extract_lets +onlyGivenNames x; clear_value x)
    | with_reducible refine ok_mk (ok_fst (by assumption) ?_) rfl rfl rfl rfl rfl rfl rfl rfl rfl
    | with_reducible apply endJob_ok
    | with_reducible apply ldrOffer_ok
    | with_reducible apply State.setJob_ok
    | with_reducible apply nextLine_ok
    | with_reducible apply okFst_ite
    | split

theorem useLine_ok {qq : List Instr} (j : Nat) (s : State) (hs : Ok qq s) : Ok qq (useLine j s).1 := by
  unfold useLine
  repeat' first
    | with_reducible assumption
    | (extract_lets +onlyGivenNames x; refine have hx : Ok qq x := ?_; ?_; rotate_left; clear_value x; rotate_right; subst x)
    | (extract_lets +onlyGivenNames x; clear_value x)
    | with_reducible refine ok_mk (ok_fst (by assumption) ?_) rfl rfl rfl rfl rfl rfl rfl rfl rfl
    | with_reducible apply nextLine_ok
    | with_reducible apply armLine_ok
    | with_reducible apply moverXls_ok
    | with_reducible apply jobFault_ok
    | with_reducible apply State.setJob_ok
    | with_reducible apply tbWrite_ok
    | with_reducible apply endJob_ok
    | with_reducible apply loadLine_ok
    | with_reducible apply okFst_ite
    | split

theorem writeLine_ok {qq : List Instr} (j : Nat) (lost : Nat) (s : State) (hs : Ok qq s) : Ok qq (writeLine j lost s).1 := by
  unfold writeLine
  repeat' first
    | with_reducible assumption
    | (extract_lets +onlyGivenNames x; clear_value x)
    | with_reducible refine ok_mk (ok_fst (by assumption) ?_) rfl rfl rfl rfl rfl rfl rfl rfl rfl
    | with_reducible apply putLine_ok
    | with_reducible apply nextLine_ok
    | split

theorem takeLine_ok {qq : List Instr} (j : Nat) (s : State) (hs : Ok qq s) : Ok qq (takeLine j s).1 := by
  unfold takeLine
  repeat' first
    | with_reducible assumption
    | (extract_lets +onlyGivenNames x; clear_value x)
    | with_reducible apply State.setJob_ok
    | with_reducible apply okFst_ite

theorem jobDone_ok {qq : List Instr} (j : Nat) (s : State) (hs : Ok qq s) : Ok qq (jobDone j s).1 := by
  unfold jobDone
  repeat' first
    | with_reducible assumption
    | (extract_lets +onlyGivenNames x; clear_value x)
    | with_reducible apply endJob_ok
    | with_reducible apply okFst_ite

theorem jobLine_ok {qq : List Instr} (j : Nat) (lost : Nat) (s : State) (hs : Ok qq s) : Ok qq (jobLine j lost s).1 := by
  unfold jobLine
  repeat' first
    | with_reducible assumption
    | (extract_lets +onlyGivenNames x; clear_value x)
    | with_reducible refine ok_mk (ok_fst (by assumption) ?_) rfl rfl rfl rfl rfl rfl rfl rfl rfl
    | with_reducible apply writeLine_ok
    | with_reducible apply jobDone_ok
    | with_reducible apply takeLine_ok
    | with_reducible apply readLine_ok
    | with_reducible apply useLine_ok
    | with_reducible apply okFst_ite
    | split

theorem jobRun_ok {qq : List Instr} (j : Nat) (lost : Nat) (a2 : Nat) (a3 : State) (ha3 : Ok qq a3) : Ok qq (jobRun j lost a2 a3) := by
  revert ha3
  fun_induction jobRun j lost a2 a3 <;> intro ha3
  all_goals repeat' first
    | with_reducible assumption
    | with_reducible refine (by assumption : Ok _ _ → Ok _ _) ?_
    | with_reducible refine ok_mk (ok_fst (by assumption) ?_) rfl rfl rfl rfl rfl rfl rfl rfl rfl
    | with_reducible apply jobLine_ok

theorem jobChunk_ok {qq : List Instr} (j : Nat) (lost : Nat) (s : State) (hs : Ok qq s) : Ok qq (jobChunk j lost s) := by
  unfold jobChunk
  repeat' first
    | with_reducible assumption
    | with_reducible apply jobRun_ok
    | with_reducible apply showServed_ok

theorem setTransfer_ok {qq : List Instr} (n : Nat) (src : Nat) (dst : Nat) (len : Nat) (s : State) (hs : Ok qq s) : Ok qq (setTransfer n src dst len s) := by
  unfold setTransfer
  repeat' first
    | with_reducible assumption
    | (extract_lets +onlyGivenNames x; clear_value x)
    | with_reducible apply State.setJob_ok

theorem setResult_ok {qq : List Instr} (n : Nat) (v : W64) (s : State) (hs : Ok qq s) : Ok qq (setResult n v s) := by
  unfold setResult
  repeat' first
    | with_reducible assumption
    | (extract_lets +onlyGivenNames x; clear_value x)
    | with_reducible apply State.setJob_ok

theorem descToken_ok {qq : List Instr} (n : Nat) (target : Nat) (v : W64) (s : State) (hs : Ok qq s) : Ok qq (descToken n target v s) := by
  unfold descToken
  repeat' first
    | with_reducible assumption
    | (extract_lets +onlyGivenNames x; refine have hx : Ok qq x := ?_; ?_; rotate_left; clear_value x; rotate_right; subst x)
    | (extract_lets +onlyGivenNames x; clear_value x)
    | (extract_lets +onlyGivenNames x; subst x)
    | with_reducible apply completeDesc_ok
    | with_reducible apply refusedAt_ok
    | with_reducible apply State.tookFree_ok
    | with_reducible apply State.putTrans_ok
    | with_reducible apply ok_ite

theorem descReply_ok {qq : List Instr} (n : Nat) (code : Nat) (slot : Nat) (s : State) (hs : Ok qq s) : Ok qq (descReply n code slot s) := by
  unfold descReply
  repeat' first
    | with_reducible assumption
    | with_reducible apply completeDesc_ok
    | with_reducible apply setResult_ok

theorem descBegin_ok {qq : List Instr} (n : Nat) (lost : Nat) (s : State) (hs : Ok qq s) : Ok qq (descBegin n lost s) := by
  unfold descBegin
  repeat' first
    | with_reducible assumption
    | (extract_lets +onlyGivenNames x; clear_value x)
    | with_reducible apply jobChunk_ok
    | with_reducible apply setTransfer_ok
    | with_reducible apply descToken_ok
    | with_reducible apply refusedArm_ok
    | with_reducible apply descReply_ok
    | with_reducible apply armEvent_ok
    | with_reducible apply cancelBy_ok
    | with_reducible apply completeDesc_ok
    | with_reducible apply ok_ite
    | split

theorem descStep_ok {qq : List Instr} (n : Nat) (row : Nat) (lost : Nat) (more : State → State) (s : State) (hmore : ∀ s, Ok qq s → Ok qq (more s)) (hs : Ok qq s) : Ok qq (descStep n row lost more s) := by
  unfold descStep
  repeat' first
    | with_reducible assumption
    | (extract_lets +onlyGivenNames x; refine have hx : Ok qq x := ?_; ?_; rotate_left; clear_value x; rotate_right; subst x)
    | (extract_lets +onlyGivenNames x; clear_value x)
    | with_reducible apply jobChunk_ok
    | with_reducible apply State.setRing_ok
    | with_reducible apply showServed_ok
    | with_reducible apply State.setJob_ok
    | with_reducible apply completeDesc_ok
    | with_reducible apply descBegin_ok
    | with_reducible apply hmore
    | with_reducible apply ok_ite
    | split

theorem execDescNop_ok {qq : List Instr} (n : Fin 64) (s : State) (hs : Ok qq s) : OkOut qq (execDescNop n s) := by
  unfold execDescNop
  repeat' first
    | with_reducible assumption
    | with_reducible refine OkOut.next ?_
    | with_reducible apply descStep_ok
    | dsimp -zeta only [id]
    | intro _ _

theorem execDescCopy_ok {qq : List Instr} (n : Fin 64) (lost : Fin 4) (s : State) (hs : Ok qq s) : OkOut qq (execDescCopy n lost s) := by
  unfold execDescCopy
  repeat' first
    | with_reducible assumption
    | with_reducible refine OkOut.next ?_
    | with_reducible apply descStep_ok
    | dsimp -zeta only [id]
    | intro _ _

theorem execDescMsg_ok {qq : List Instr} (n : Fin 64) (s : State) (hs : Ok qq s) : OkOut qq (execDescMsg n s) := by
  unfold execDescMsg
  repeat' first
    | with_reducible assumption
    | with_reducible refine OkOut.next ?_
    | with_reducible apply descStep_ok
    | dsimp -zeta only [id]
    | intro _ _

theorem execArmShort_ok {qq : List Instr} (n : Fin 64) (s : State) (hs : Ok qq s) : OkOut qq (execArmShort n s) := by
  unfold execArmShort
  repeat' first
    | with_reducible assumption
    | with_reducible refine OkOut.next ?_
    | with_reducible apply descStep_ok
    | dsimp -zeta only [id]
    | intro _ _

theorem execArmInline_ok {qq : List Instr} (n : Fin 64) (s : State) (hs : Ok qq s) : OkOut qq (execArmInline n s) := by
  unfold execArmInline
  repeat' first
    | with_reducible assumption
    | with_reducible refine OkOut.next ?_
    | with_reducible apply descStep_ok
    | dsimp -zeta only [id]
    | intro _ _

theorem execArmImg_ok {qq : List Instr} (n : Fin 64) (lost : Fin 4) (s : State) (hs : Ok qq s) : OkOut qq (execArmImg n lost s) := by
  unfold execArmImg
  repeat' first
    | with_reducible assumption
    | with_reducible refine OkOut.next ?_
    | with_reducible apply descStep_ok
    | dsimp -zeta only [id]
    | intro _ _

theorem execDescCancel_ok {qq : List Instr} (n : Fin 64) (s : State) (hs : Ok qq s) : OkOut qq (execDescCancel n s) := by
  unfold execDescCancel
  repeat' first
    | with_reducible assumption
    | with_reducible refine OkOut.next ?_
    | with_reducible apply descStep_ok
    | dsimp -zeta only [id]
    | intro _ _

theorem execTbWrite_ok {qq : List Instr} (n : Fin 64) (lost : Fin 4) (s : State) (hs : Ok qq s) : OkOut qq (execTbWrite n lost s) := by
  unfold execTbWrite
  repeat' first
    | with_reducible assumption
    | with_reducible refine OkOut.next ?_
    | with_reducible apply descStep_ok
    | dsimp -zeta only [id]
    | intro _ _

theorem execDescLoad_ok {qq : List Instr} (n : Fin 64) (lost : Fin 4) (s : State) (hs : Ok qq s) : OkOut qq (execDescLoad n lost s) := by
  unfold execDescLoad
  repeat' first
    | with_reducible assumption
    | with_reducible refine OkOut.next ?_
    | with_reducible apply descStep_ok
    | dsimp -zeta only [id]
    | intro _ _

theorem execDescSheet_ok {qq : List Instr} (n : Fin 64) (s : State) (hs : Ok qq s) : OkOut qq (execDescSheet n s) := by
  unfold execDescSheet
  repeat' first
    | with_reducible assumption
    | with_reducible refine OkOut.next ?_
    | with_reducible apply descStep_ok
    | dsimp -zeta only [id]
    | intro _ _

theorem execXferEnd_ok {qq : List Instr} (n : Fin 96) (c : Fin 4) (lost : Fin 4) (s : State) (hs : Ok qq s) : OkOut qq (execXferEnd n c lost s) := by
  unfold execXferEnd
  repeat' first
    | with_reducible assumption
    | with_reducible refine OkOut.next ?_
    | with_reducible apply jobChunk_ok

theorem fetchDone_ok {qq : List Instr} (n : Nat) (ws : List W64) (s : State) (hs : Ok qq s) : Ok qq (fetchDone n ws s) := by
  unfold fetchDone
  repeat' first
    | with_reducible assumption
    | (extract_lets +onlyGivenNames x; clear_value x)
    | with_reducible apply State.setRing_ok

theorem descFetch_ok {qq : List Instr} (n : Nat) (lost : Nat) (s : State) (hs : Ok qq s) : Ok qq (descFetch n lost s) := by
  unfold descFetch
  repeat' first
    | with_reducible assumption
    | with_reducible exact ok_mk (by assumption) rfl rfl rfl rfl rfl rfl rfl rfl rfl
    | (extract_lets +onlyGivenNames x; refine have hx : Ok qq x := ?_; ?_; rotate_left; clear_value x; rotate_right; subst x)
    | (extract_lets +onlyGivenNames x; clear_value x)
    | with_reducible refine ok_mk (ok_fst (by assumption) ?_) rfl rfl rfl rfl rfl rfl rfl rfl rfl
    | with_reducible apply moverXl_ok
    | with_reducible apply ringError_ok
    | with_reducible apply State.xlFault_ok
    | with_reducible apply State.setFld_ok
    | with_reducible apply State.setRing_ok
    | with_reducible apply devAccess_ok
    | with_reducible apply fetchDone_ok
    | with_reducible apply ok_ite
    | split

theorem execDescriptorFetch_ok {qq : List Instr} (n : Fin 64) (lost : Fin 4) (s : State) (hs : Ok qq s) : OkOut qq (execDescriptorFetch n lost s) := by
  unfold execDescriptorFetch
  repeat' first
    | with_reducible assumption
    | with_reducible refine OkOut.next ?_
    | with_reducible apply descFetch_ok

theorem moverAnswer_ok {qq : List Instr} (who : Asker) (status : Nat) (ws : List W64) (s : State) (hs : Ok qq s) : Ok qq (moverAnswer who status ws s) := by
  unfold moverAnswer
  repeat' first
    | with_reducible assumption
    | (extract_lets +onlyGivenNames x; refine have hx : Ok qq x := ?_; ?_; rotate_left; clear_value x; rotate_right; subst x)
    | (extract_lets +onlyGivenNames x; clear_value x)
    | with_reducible apply State.setJob_ok
    | with_reducible apply endJob_ok
    | with_reducible apply lineData_ok
    | with_reducible apply ringError_ok
    | with_reducible apply State.setRing_ok
    | with_reducible apply fetchDone_ok
    | with_reducible apply ok_ite
    | split

theorem hostCompletion_ok {qq : List Instr} (k : Nat) (ok : Bool) (data : List W64) (s : State) (hs : Ok qq s) : Ok qq (hostCompletion k ok data s) := by
  unfold hostCompletion
  repeat' first
    | with_reducible assumption
    | with_reducible exact ok_mk (by assumption) rfl rfl rfl rfl rfl rfl rfl rfl rfl
    | (extract_lets +onlyGivenNames x; refine have hx : Ok qq x := ?_; ?_; rotate_left; clear_value x; rotate_right; subst x)
    | (extract_lets +onlyGivenNames x; clear_value x)
    | with_reducible apply State.putRsp_ok
    | with_reducible apply moverAnswer_ok
    | with_reducible apply ok_ite
    | split

theorem execHostReadCompletion_ok {qq : List Instr} (k : Fin 4096) (ok : Bool) (data : List W64) (s : State) (hs : Ok qq s) : OkOut qq (execHostReadCompletion k ok data s) := by
  unfold execHostReadCompletion
  repeat' first
    | with_reducible assumption
    | with_reducible refine OkOut.next ?_
    | with_reducible apply hostCompletion_ok

theorem fabricAnswer_ok {qq : List Instr} (sec : Nat) (tag : Nat) (status : Nat) (data : List W64) (s : State) (hs : Ok qq s) : Ok qq (fabricAnswer sec tag status data s) := by
  unfold fabricAnswer
  repeat' first
    | with_reducible assumption
    | with_reducible exact ok_mk (by assumption) rfl rfl rfl rfl rfl rfl rfl rfl rfl
    | (extract_lets +onlyGivenNames x; refine have hx : Ok qq x := ?_; ?_; rotate_left; clear_value x; rotate_right; subst x)
    | (extract_lets +onlyGivenNames x; clear_value x)
    | with_reducible apply State.bump_ok
    | with_reducible apply moverAnswer_ok
    | with_reducible apply State.putRsp_ok
    | split

theorem moverRespond_ok {qq : List Instr} (k : Nat) (s : State) (hs : Ok qq s) : Ok qq (moverRespond k s) := by
  unfold moverRespond
  repeat' first
    | with_reducible assumption
    | with_reducible exact ok_mk (by assumption) rfl rfl rfl rfl rfl rfl rfl rfl rfl
    | (extract_lets +onlyGivenNames x; refine have hx : Ok qq x := ?_; ?_; rotate_left; clear_value x; rotate_right; subst x)
    | with_reducible apply moverAnswer_ok
    | with_reducible apply spineRespond_ok
    | split

theorem execSpineResponse_ok {qq : List Instr} (fabric : Bool) (k : Fin 2048) (sec : Fin 80) (tag : Byte) (status : BitVec 16) (data : List W64) (s : State) (hs : Ok qq s) : OkOut qq (execSpineResponse fabric k sec tag status data s) := by
  unfold execSpineResponse
  repeat' first
    | with_reducible assumption
    | with_reducible refine OkOut.next ?_
    | with_reducible apply fabricAnswer_ok
    | with_reducible apply moverRespond_ok
    | with_reducible apply ok_ite

theorem postSheet_ok {qq : List Instr} (asid : Nat) (addr : Nat) (a2 : Nat) (a3 : List W64) (a4 : State) (ha4 : Ok qq a4) : Ok qq (postSheet asid addr a2 a3 a4) := by
  revert ha4
  fun_induction postSheet asid addr a2 a3 a4 <;> intro ha4
  all_goals repeat' first
    | with_reducible assumption
    | with_reducible refine (by assumption : Ok _ _ → Ok _ _) ?_
    | with_reducible apply State.postWrite_ok

theorem intervalSheet_ok {qq : List Instr} (s : State) (hs : Ok qq s) : Ok qq (intervalSheet s) := by
  unfold intervalSheet
  repeat' first
    | with_reducible assumption
    | (extract_lets +onlyGivenNames x; refine have hx : Ok qq x := ?_; ?_; rotate_left; clear_value x; rotate_right; subst x)
    | (extract_lets +onlyGivenNames x; clear_value x)
    | with_reducible apply State.notice_ok
    | with_reducible apply State.bump_ok
    | with_reducible apply State.setFld_ok
    | with_reducible apply postSheet_ok
    | with_reducible apply ok_ite

theorem sheetCapture_ok {qq : List Instr} (s : State) (hs : Ok qq s) : Ok qq (sheetCapture s) := by
  unfold sheetCapture
  repeat' first
    | with_reducible assumption
    | (extract_lets +onlyGivenNames x; refine have hx : Ok qq x := ?_; ?_; rotate_left; clear_value x; rotate_right; subst x)
    | (extract_lets +onlyGivenNames x; clear_value x)
    | with_reducible apply State.setJob_ok
    | with_reducible apply intervalSheet_ok
    | with_reducible apply ok_ite
    | (with_reducible refine ok_foldl ?_ _ ?_; intro _ _ _)

theorem execSheetCapture_ok {qq : List Instr} (s : State) (hs : Ok qq s) : OkOut qq (execSheetCapture s) := by
  unfold execSheetCapture
  repeat' first
    | with_reducible assumption
    | with_reducible refine OkOut.next ?_
    | with_reducible apply sheetCapture_ok

end Sys2Proof.Machine
end

