-- ==== Sys2Proof/Laws/OkRings.lean ====
section
/-! SUPPORT. What the operations of Machine/Rings.lean keep: each takes a sound state with the same commands waiting to
such a state (see Laws/Ok.lean). -/

namespace Sys2Proof.Machine

theorem ringRefused_ok {qq : List Instr} (n : Nat) (code : Nat) (s : State) (hs : Ok qq s) : Ok qq (ringRefused n code s) := by
  unfold ringRefused
  repeat' first
    | with_reducible assumption
    | with_reducible apply State.refuse_ok

theorem State.ringOwned_ok {qq : List Instr} (s : State) (w : Writer) (n : Nat) (f : State → State) (hs : Ok qq s) (hf : ∀ s, Ok qq s → Ok qq (f s)) : Ok qq (State.ringOwned s w n f) := by
  unfold State.ringOwned
  repeat' first
    | with_reducible assumption
    | with_reducible apply ringRefused_ok
    | with_reducible apply State.deny_ok
    | with_reducible apply hf
    | with_reducible apply ok_ite

theorem ringCfgWrite_ok {qq : List Instr} (n : Nat) (v : W32) (s : State) (hs : Ok qq s) : Ok qq (ringCfgWrite n v s) := by
  unfold ringCfgWrite
  repeat' first
    | with_reducible assumption
    | (extract_lets +onlyGivenNames x; clear_value x)
    | with_reducible apply ringRefused_ok
    | with_reducible apply State.setReg_ok
    | with_reducible apply ok_ite

theorem ringBaseWrite_ok {qq : List Instr} (n : Nat) (v : W64) (s : State) (hs : Ok qq s) : Ok qq (ringBaseWrite n v s) := by
  unfold ringBaseWrite
  repeat' first
    | with_reducible assumption
    | (extract_lets +onlyGivenNames x; clear_value x)
    | with_reducible apply ringRefused_ok
    | with_reducible apply State.setReg_ok
    | with_reducible apply ok_ite

theorem ringModWrite_ok {qq : List Instr} (n : Nat) (v : W32) (s : State) (hs : Ok qq s) : Ok qq (ringModWrite n v s) := by
  unfold ringModWrite
  repeat' first
    | with_reducible assumption
    | with_reducible apply State.setReg_ok

theorem execRingCfgWrite_ok {qq : List Instr} (w : Writer) (n : Fin 64) (base : Bool) (v : W64) (s : State) (hs : Ok qq s) : OkOut qq (execRingCfgWrite w n base v s) := by
  unfold execRingCfgWrite
  repeat' first
    | with_reducible assumption
    | with_reducible refine OkOut.next ?_
    | with_reducible apply State.linked_ok
    | with_reducible apply State.ringOwned_ok
    | with_reducible apply ringBaseWrite_ok
    | with_reducible apply ringCfgWrite_ok
    | split
    | intro _ _

theorem ringOwnWrite_ok {qq : List Instr} (w : Writer) (n : Nat) (v : W32) (s : State) (hs : Ok qq s) : Ok qq (ringOwnWrite w n v s) := by
  unfold ringOwnWrite
  repeat' first
    | with_reducible assumption
    | (extract_lets +onlyGivenNames x; clear_value x)
    | with_reducible apply State.wardenOr_ok
    | with_reducible apply State.deny_ok
    | with_reducible apply ringRefused_ok
    | with_reducible apply State.setReg_ok
    | with_reducible apply ok_ite
    | split
    | intro _ _

theorem execRingOwnWrite_ok {qq : List Instr} (w : Writer) (n : Fin 64) (v : W32) (s : State) (hs : Ok qq s) : OkOut qq (execRingOwnWrite w n v s) := by
  unfold execRingOwnWrite
  repeat' first
    | with_reducible assumption
    | with_reducible refine OkOut.next ?_
    | with_reducible apply State.linked_ok
    | with_reducible apply ringOwnWrite_ok

theorem ringForget_ok {qq : List Instr} (n : Nat) (s : State) (hs : Ok qq s) : Ok qq (ringForget n s) := by
  unfold ringForget
  repeat' first
    | with_reducible assumption
    | (extract_lets +onlyGivenNames x; refine have hx : Ok qq x := ?_; ?_; rotate_left; clear_value x; rotate_right; subst x)
    | (extract_lets +onlyGivenNames x; clear_value x)
    | with_reducible apply State.setRing_ok
    | with_reducible apply State.orphan_ok
    | with_reducible apply State.setJob_ok
    | with_reducible apply unqueue_ok
    | with_reducible apply showMover_ok
    | with_reducible apply State.setFlag_ok

theorem ringRun_ok {qq : List Instr} (n : Nat) (s : State) (hs : Ok qq s) : Ok qq (ringRun n s) := by
  unfold ringRun
  repeat' first
    | with_reducible assumption
    | (extract_lets +onlyGivenNames x; refine have hx : Ok qq x := ?_; ?_; rotate_left; clear_value x; rotate_right; subst x)
    | with_reducible apply State.setFld_ok
    | with_reducible apply ringRoom_ok
    | with_reducible apply ok_ite

theorem ringStart_ok {qq : List Instr} (n : Nat) (s : State) (hs : Ok qq s) : Ok qq (ringStart n s) := by
  unfold ringStart
  repeat' first
    | with_reducible assumption
    | (extract_lets +onlyGivenNames x; refine have hx : Ok qq x := ?_; ?_; rotate_left; clear_value x; rotate_right; subst x)
    | with_reducible apply State.setReg_ok
    | with_reducible apply ringForget_ok
    | with_reducible apply State.setFlag_ok
    | with_reducible apply ringRun_ok
    | with_reducible apply ok_ite

theorem ringEnable_ok {qq : List Instr} (n : Nat) (s : State) (hs : Ok qq s) : Ok qq (ringEnable n s) := by
  unfold ringEnable
  repeat' first
    | with_reducible assumption
    | (extract_lets +onlyGivenNames x; refine have hx : Ok qq x := ?_; ?_; rotate_left; clear_value x; rotate_right; subst x)
    | with_reducible apply State.setFlag_ok
    | with_reducible apply ringStart_ok
    | with_reducible apply State.setFld_ok
    | split

theorem ringDisable_ok {qq : List Instr} (n : Nat) (s : State) (hs : Ok qq s) : Ok qq (ringDisable n s) := by
  unfold ringDisable
  repeat' first
    | with_reducible assumption
    | (extract_lets +onlyGivenNames x; refine have hx : Ok qq x := ?_; ?_; rotate_left; clear_value x; rotate_right; subst x)
    | with_reducible apply State.setFlag_ok
    | with_reducible apply State.setFld_ok
    | with_reducible apply ringRoom_ok
    | with_reducible apply ok_ite

theorem ringResume_ok {qq : List Instr} (n : Nat) (s : State) (hs : Ok qq s) : Ok qq (ringResume n s) := by
  unfold ringResume
  repeat' first
    | with_reducible assumption
    | with_reducible apply showMover_ok
    | with_reducible apply State.setFld_ok
    | with_reducible apply ok_ite

theorem ringAbort_ok {qq : List Instr} (n : Nat) (s : State) (hs : Ok qq s) : Ok qq (ringAbort n s) := by
  unfold ringAbort
  repeat' first
    | with_reducible assumption
    | with_reducible apply completeDesc_ok
    | with_reducible apply State.setFld_ok
    | with_reducible apply ok_ite

theorem ringCntClr_ok {qq : List Instr} (n : Nat) (s : State) (hs : Ok qq s) : Ok qq (ringCntClr n s) := by
  unfold ringCntClr
  repeat' first
    | with_reducible assumption
    | with_reducible apply State.setReg_ok

theorem execRingEnable_ok {qq : List Instr} (w : Writer) (n : Fin 64) (s : State) (hs : Ok qq s) : OkOut qq (execRingEnable w n s) := by
  unfold execRingEnable
  repeat' first
    | with_reducible assumption
    | with_reducible refine OkOut.next ?_
    | with_reducible apply State.linked_ok
    | with_reducible apply State.ringOwned_ok
    | with_reducible apply ringEnable_ok
    | intro _ _

theorem execRingDisable_ok {qq : List Instr} (w : Writer) (n : Fin 64) (s : State) (hs : Ok qq s) : OkOut qq (execRingDisable w n s) := by
  unfold execRingDisable
  repeat' first
    | with_reducible assumption
    | with_reducible refine OkOut.next ?_
    | with_reducible apply State.linked_ok
    | with_reducible apply State.ringOwned_ok
    | with_reducible apply ringDisable_ok
    | intro _ _

theorem execRingResume_ok {qq : List Instr} (w : Writer) (n : Fin 64) (s : State) (hs : Ok qq s) : OkOut qq (execRingResume w n s) := by
  unfold execRingResume
  repeat' first
    | with_reducible assumption
    | with_reducible refine OkOut.next ?_
    | with_reducible apply State.linked_ok
    | with_reducible apply State.ringOwned_ok
    | with_reducible apply ringResume_ok
    | intro _ _

theorem execRingAbort_ok {qq : List Instr} (w : Writer) (n : Fin 64) (s : State) (hs : Ok qq s) : OkOut qq (execRingAbort w n s) := by
  unfold execRingAbort
  repeat' first
    | with_reducible assumption
    | with_reducible refine OkOut.next ?_
    | with_reducible apply State.linked_ok
    | with_reducible apply State.ringOwned_ok
    | with_reducible apply ringAbort_ok
    | intro _ _

theorem execRingCntClr_ok {qq : List Instr} (w : Writer) (n : Fin 64) (s : State) (hs : Ok qq s) : OkOut qq (execRingCntClr w n s) := by
  unfold execRingCntClr
  repeat' first
    | with_reducible assumption
    | with_reducible refine OkOut.next ?_
    | with_reducible apply State.linked_ok
    | with_reducible apply State.ringOwned_ok
    | with_reducible apply ringCntClr_ok
    | intro _ _

theorem cancelFetched_ok {qq : List Instr} (n : Nat) (a1 : Nat) (a2 : State) (ha2 : Ok qq a2) : Ok qq (cancelFetched n a1 a2) := by
  revert ha2
  fun_induction cancelFetched n a1 a2 <;> intro ha2
  all_goals repeat' first
    | with_reducible assumption
    | with_reducible refine (by assumption : Ok _ _ → Ok _ _) ?_
    | with_reducible apply State.setRing_ok
    | with_reducible apply State.setJob_ok
    | with_reducible apply completeDesc_ok

theorem ringStopDone_ok {qq : List Instr} (n : Nat) (s : State) (hs : Ok qq s) : Ok qq (ringStopDone n s) := by
  unfold ringStopDone
  repeat' first
    | with_reducible assumption
    | (extract_lets +onlyGivenNames x; refine have hx : Ok qq x := ?_; ?_; rotate_left; clear_value x; rotate_right; subst x)
    | (extract_lets +onlyGivenNames x; clear_value x)
    | with_reducible apply completeDesc_ok
    | with_reducible apply cancelFetched_ok
    | with_reducible apply State.setFld_ok
    | with_reducible apply ringStart_ok
    | with_reducible apply ok_ite

theorem execRingStopDone_ok {qq : List Instr} (n : Fin 64) (s : State) (hs : Ok qq s) : OkOut qq (execRingStopDone n s) := by
  unfold execRingStopDone
  repeat' first
    | with_reducible assumption
    | with_reducible refine OkOut.next ?_
    | with_reducible apply ringStopDone_ok

theorem doorbell_ok {qq : List Instr} (n : Nat) (off : Nat) (full : Bool) (v : W32) (merged : Bool) (s : State) (hs : Ok qq s) : Ok qq (doorbell n off full v merged s) := by
  unfold doorbell
  repeat' first
    | with_reducible assumption
    | (extract_lets +onlyGivenNames x; refine have hx : Ok qq x := ?_; ?_; rotate_left; clear_value x; rotate_right; subst x)
    | (extract_lets +onlyGivenNames x; clear_value x)
    | with_reducible apply State.accessError_ok
    | with_reducible apply State.bump_ok
    | with_reducible apply ringError_ok
    | with_reducible apply State.setFld_ok
    | with_reducible apply ringRoom_ok
    | with_reducible apply ok_ite

theorem execDoorbell_ok {qq : List Instr} (n : Fin 64) (off : Fin 4096) (full : Bool) (v : W32) (merged : Bool) (s : State) (hs : Ok qq s) : OkOut qq (execDoorbell n off full v merged s) := by
  unfold execDoorbell
  repeat' first
    | with_reducible assumption
    | with_reducible refine OkOut.next ?_
    | with_reducible apply doorbell_ok

theorem vectorTimer_ok {qq : List Instr} (n : Nat) (s : State) (hs : Ok qq s) : Ok qq (vectorTimer n s) := by
  unfold vectorTimer
  repeat' first
    | with_reducible assumption
    | (extract_lets +onlyGivenNames x; clear_value x)
    | with_reducible apply State.raiseVector_ok
    | with_reducible apply State.setRing_ok
    | with_reducible apply ok_ite

theorem execVectorModTimer_ok {qq : List Instr} (n : Fin 64) (s : State) (hs : Ok qq s) : OkOut qq (execVectorModTimer n s) := by
  unfold execVectorModTimer
  repeat' first
    | with_reducible assumption
    | with_reducible refine OkOut.next ?_
    | with_reducible apply vectorTimer_ok

theorem sheetCfgWrite_ok {qq : List Instr} (v : W32) (s : State) (hs : Ok qq s) : Ok qq (sheetCfgWrite v s) := by
  unfold sheetCfgWrite
  repeat' first
    | with_reducible assumption
    | (extract_lets +onlyGivenNames x; refine have hx : Ok qq x := ?_; ?_; rotate_left; clear_value x; rotate_right; subst x)
    | (extract_lets +onlyGivenNames x; clear_value x)
    | with_reducible apply ringRefused_ok
    | with_reducible apply State.setReg_ok
    | with_reducible apply ok_ite

theorem execSheetCfgWrite_ok {qq : List Instr} (w : Writer) (v : W32) (s : State) (hs : Ok qq s) : OkOut qq (execSheetCfgWrite w v s) := by
  unfold execSheetCfgWrite
  repeat' first
    | with_reducible assumption
    | with_reducible refine OkOut.next ?_
    | with_reducible apply State.linked_ok
    | with_reducible apply sheetCfgWrite_ok

theorem sheetBaseWrite_ok {qq : List Instr} (w : Writer) (v : W64) (s : State) (hs : Ok qq s) : Ok qq (sheetBaseWrite w v s) := by
  unfold sheetBaseWrite
  repeat' first
    | with_reducible assumption
    | with_reducible apply State.wardenOr_ok
    | with_reducible apply ringRefused_ok
    | with_reducible apply State.setReg_ok
    | split
    | intro _ _

theorem execLinkRetrain_ok {qq : List Instr} (s : State) (hs : Ok qq s) : OkOut qq (execLinkRetrain s) := by
  unfold execLinkRetrain
  repeat' first
    | with_reducible assumption
    | with_reducible exact ok_mk (by assumption) rfl rfl rfl rfl rfl rfl rfl rfl rfl
    | (extract_lets +onlyGivenNames x; refine have hx : Ok qq x := ?_; ?_; rotate_left; clear_value x; rotate_right; subst x)
    | (extract_lets +onlyGivenNames x; clear_value x)
    | with_reducible refine OkOut.next ?_
    | with_reducible apply State.bump_ok
    | with_reducible apply ok_ite

theorem execLinkUp_ok {qq : List Instr} (rate : Fin 4) (width : Fin 3) (s : State) (hs : Ok qq s) : OkOut qq (execLinkUp rate width s) := by
  unfold execLinkUp
  repeat' first
    | with_reducible assumption
    | with_reducible exact ok_mk (by assumption) rfl rfl rfl rfl rfl rfl rfl rfl rfl
    | (extract_lets +onlyGivenNames x; refine have hx : Ok qq x := ?_; ?_; rotate_left; clear_value x; rotate_right; subst x)
    | (extract_lets +onlyGivenNames x; clear_value x)
    | with_reducible refine OkOut.next ?_
    | with_reducible apply State.setFld_ok
    | with_reducible apply State.setFlag_ok

theorem hostGone_ok {qq : List Instr} (who : Asker) (s : State) (hs : Ok qq s) : Ok qq (hostGone who s) := by
  unfold hostGone
  repeat' first
    | with_reducible assumption
    | (extract_lets +onlyGivenNames x; clear_value x)
    | with_reducible apply jobLinkDown_ok
    | with_reducible apply ringError_ok
    | with_reducible apply State.setRing_ok
    | with_reducible apply abandonSheet_ok
    | with_reducible apply ok_ite
    | split

theorem hostLost_ok {qq : List Instr} (s : State) (hs : Ok qq s) : Ok qq (hostLost s) := by
  unfold hostLost
  repeat' first
    | with_reducible assumption
    | with_reducible exact ok_mk (by assumption) rfl rfl rfl rfl rfl rfl rfl rfl rfl
    | (extract_lets +onlyGivenNames x; refine have hx : Ok qq x := ?_; ?_; rotate_left; clear_value x; rotate_right; subst x)
    | (extract_lets +onlyGivenNames x; clear_value x)
    | with_reducible apply hostGone_ok
    | with_reducible apply State.putRsp_ok
    | (with_reducible refine ok_foldl ?_ _ ?_; intro _ _ _)
    | split

theorem resetHostCrossings_ok {qq : List Instr} (s : State) (hs : Ok qq s) : Ok qq (resetHostCrossings s) := by
  unfold resetHostCrossings
  repeat' first
    | with_reducible assumption
    | with_reducible apply resetCrossing_ok
    | (with_reducible refine ok_foldl ?_ _ ?_; intro _ _ _)

theorem linkDown_ok {qq : List Instr} (s : State) (hs : Ok qq s) : Ok qq (linkDown s) := by
  unfold linkDown
  repeat' first
    | with_reducible assumption
    | with_reducible exact ok_mk (by assumption) rfl rfl rfl rfl rfl rfl rfl rfl rfl
    | (extract_lets +onlyGivenNames x; refine have hx : Ok qq x := ?_; ?_; rotate_left; clear_value x; rotate_right; subst x)
    | (extract_lets +onlyGivenNames x; clear_value x)
    | with_reducible apply State.bump_ok
    | with_reducible apply State.setFlag_ok
    | with_reducible apply hostLost_ok
    | with_reducible apply resetHostCrossings_ok

theorem execLinkDown_ok {qq : List Instr} (s : State) (hs : Ok qq s) : OkOut qq (execLinkDown s) := by
  unfold execLinkDown
  repeat' first
    | with_reducible assumption
    | with_reducible refine OkOut.next ?_
    | with_reducible apply linkDown_ok

theorem State.coldRange_ok {qq : List Instr} (s : State) (lo : Nat) (hi : Nat) (hs : Ok qq s) : Ok qq (State.coldRange s lo hi) := by
  exact ok_mkBy hs rfl (Tab.wf_filter 0 _ hs.inv.1.1) hs.inv.1.2 hs.inv.1.3 hs.engines hs.inv.2.2 hs.inv.2.3 hs.inv.2.4 hs.inv.2.5

theorem functionReset_ok {qq : List Instr} (s : State) (hs : Ok qq s) : Ok qq (functionReset s) := by
  unfold functionReset
  repeat' first
    | with_reducible assumption
    | with_reducible exact ok_mk (by assumption) rfl rfl rfl rfl rfl rfl rfl rfl rfl
    | (extract_lets +onlyGivenNames x; refine have hx : Ok qq x := ?_; ?_; rotate_left; clear_value x; rotate_right; subst x)
    | (extract_lets +onlyGivenNames x; clear_value x)
    | with_reducible apply hostLost_ok
    | with_reducible apply resetHostCrossings_ok
    | with_reducible apply ringForget_ok
    | with_reducible apply State.coldRange_ok
    | with_reducible apply State.setReg_ok
    | (with_reducible refine ok_foldl ?_ _ ?_; intro _ _ _)

theorem execFunctionLevelReset_ok {qq : List Instr} (s : State) (hs : Ok qq s) : OkOut qq (execFunctionLevelReset s) := by
  unfold execFunctionLevelReset
  repeat' first
    | with_reducible assumption
    | with_reducible refine OkOut.next ?_
    | with_reducible apply functionReset_ok

end Sys2Proof.Machine
end

