-- ==== Sys2Proof/Laws/OkWtu.lean ====
section
/-! SUPPORT. What the operations of Machine/Wtu.lean keep: each takes a sound state with the same commands waiting to
such a state (see Laws/Ok.lean). -/

namespace Sys2Proof.Machine

theorem contextWalkFault_ok {qq : List Instr} (n : Nat) (c : Nat) (code : Nat) (x : Walk) (s : State) (hs : Ok qq s) : Ok qq (contextWalkFault n c code x s) := by
  unfold contextWalkFault
  repeat' first
    | with_reducible assumption
    | (extract_lets +onlyGivenNames x; subst x)
    | with_reducible apply preciseFault_ok
    | with_reducible apply State.xlFault_ok
    | with_reducible apply State.wakeCtx_ok
    | with_reducible apply ok_ite

theorem moverWalkFault_ok {qq : List Instr} (k : Nat) (code : Nat) (x : Walk) (s : State) (hs : Ok qq s) : Ok qq (moverWalkFault k code x s) := by
  unfold moverWalkFault
  repeat' first
    | with_reducible assumption
    | with_reducible apply jobFault_ok
    | with_reducible apply ringError_ok
    | with_reducible apply State.xlFault_ok
    | with_reducible apply ok_ite

theorem transWalked_ok {qq : List Instr} (t : Trans) (x : Walk) (e : WalkEnd) (s : State) (hs : Ok qq s) : Ok qq (transWalked t x e s) := by
  unfold transWalked
  repeat' first
    | with_reducible assumption
    | with_reducible exact ok_mk (by assumption) rfl rfl rfl rfl rfl rfl rfl rfl rfl
    | with_reducible apply transFault_ok
    | split

theorem walkDone_ok {qq : List Instr} (k : Nat) (x : Walk) (e : WalkEnd) (s : State) (hs : Ok qq s) : Ok qq (walkDone k x e s) := by
  unfold walkDone
  repeat' first
    | with_reducible assumption
    | (extract_lets +onlyGivenNames x; refine have hx : Ok qq x := ?_; ?_; rotate_left; clear_value x; rotate_right; subst x)
    | with_reducible apply State.endWalk_ok
    | with_reducible apply State.keepLeaf_ok
    | with_reducible apply transWalked_ok
    | with_reducible apply contextWalkFault_ok
    | with_reducible apply State.wakeCtx_ok
    | with_reducible apply moverWalkFault_ok
    | split

theorem tableWord_ok {qq : List Instr} (a : Nat) (s : State) (hs : Ok qq s) : Ok qq (tableWord a s).1 := by
  unfold tableWord
  repeat' first
    | with_reducible assumption
    | with_reducible refine ok_mk (ok_fst (by assumption) ?_) rfl rfl rfl rfl rfl rfl rfl rfl rfl
    | with_reducible apply bankTake_ok
    | split

theorem tableEntries_ok {qq : List Instr} (x : Walk) (first : W64) (own : W64) (err : Bool) (s : State) (hs : Ok qq s) : Ok qq (tableEntries x first own err s).1 := by
  unfold tableEntries
  repeat' first
    | with_reducible assumption
    | (extract_lets +onlyGivenNames x; clear_value x)
    | with_reducible refine ok_mk (ok_fst (by assumption) ?_) rfl rfl rfl rfl rfl rfl rfl rfl rfl
    | with_reducible apply tableWord_ok
    | with_reducible apply okFst_ite
    | split

theorem tableRead_ok {qq : List Instr} (k : Nat) (first : W64) (own : W64) (err : Bool) (s : State) (hs : Ok qq s) : Ok qq (tableRead k first own err s) := by
  unfold tableRead
  repeat' first
    | with_reducible assumption
    | with_reducible refine ok_mk (ok_fst (by assumption) ?_) rfl rfl rfl rfl rfl rfl rfl rfl rfl
    | with_reducible apply tableEntries_ok
    | with_reducible apply walkDone_ok
    | with_reducible apply State.walkOn_ok
    | with_reducible apply ok_ite
    | split

theorem execTableReadDone_ok {qq : List Instr} (k : Fin 16) (first : W64) (own : W64) (err : Bool) (s : State) (hs : Ok qq s) : OkOut qq (execTableReadDone k first own err s) := by
  unfold execTableReadDone
  repeat' first
    | with_reducible assumption
    | with_reducible refine OkOut.next ?_
    | with_reducible apply tableRead_ok

theorem invWrite_ok {qq : List Instr} (w : Writer) (v : W32) (s : State) (hs : Ok qq s) : Ok qq (invWrite w v s) := by
  unfold invWrite
  repeat' first
    | with_reducible assumption
    | (extract_lets +onlyGivenNames x; refine have hx : Ok qq x := ?_; ?_; rotate_left; clear_value x; rotate_right; subst x)
    | with_reducible apply State.wardenOr_ok
    | with_reducible apply State.setReg_ok
    | with_reducible apply State.invalidate_ok
    | with_reducible apply State.setFlag_ok
    | with_reducible apply ok_ite
    | split
    | intro _ _

theorem invVaWrite_ok {qq : List Instr} (w : Writer) (v : W64) (s : State) (hs : Ok qq s) : Ok qq (invVaWrite w v s) := by
  unfold invVaWrite
  repeat' first
    | with_reducible assumption
    | with_reducible apply State.wardenOr_ok
    | with_reducible apply State.setReg_ok
    | with_reducible apply ok_ite
    | intro _ _

theorem execInvAddress_ok {qq : List Instr} (w : Writer) (asid : Byte) (s : State) (hs : Ok qq s) : OkOut qq (execInvAddress w asid s) := by
  unfold execInvAddress
  repeat' first
    | with_reducible assumption
    | with_reducible refine OkOut.next ?_
    | with_reducible apply State.linked_ok
    | with_reducible apply invWrite_ok

theorem execInvSpace_ok {qq : List Instr} (w : Writer) (asid : Byte) (s : State) (hs : Ok qq s) : OkOut qq (execInvSpace w asid s) := by
  unfold execInvSpace
  repeat' first
    | with_reducible assumption
    | with_reducible refine OkOut.next ?_
    | with_reducible apply State.linked_ok
    | with_reducible apply invWrite_ok

theorem execInvAll_ok {qq : List Instr} (w : Writer) (asid : Byte) (s : State) (hs : Ok qq s) : OkOut qq (execInvAll w asid s) := by
  unfold execInvAll
  repeat' first
    | with_reducible assumption
    | with_reducible refine OkOut.next ?_
    | with_reducible apply State.linked_ok
    | with_reducible apply invWrite_ok

theorem execInvalidateDone_ok {qq : List Instr} (s : State) (hs : Ok qq s) : OkOut qq (execInvalidateDone s) := by
  unfold execInvalidateDone
  repeat' first
    | with_reducible assumption
    | with_reducible refine OkOut.next ?_
    | with_reducible apply State.bump_ok
    | with_reducible apply State.setFlag_ok
    | with_reducible apply ok_ite

theorem spaceWrite_ok {qq : List Instr} (w : Writer) (a : Nat) (v : W64) (s : State) (hs : Ok qq s) : Ok qq (spaceWrite w a v s) := by
  unfold spaceWrite
  repeat' first
    | with_reducible assumption
    | (extract_lets +onlyGivenNames x; clear_value x)
    | with_reducible apply State.wardenOr_ok
    | with_reducible apply State.invalidateSpace_ok
    | with_reducible apply State.setReg_ok
    | with_reducible apply ok_ite
    | intro _ _

theorem execSpaceWrite_ok {qq : List Instr} (w : Writer) (a : Fin 256) (v : W64) (s : State) (hs : Ok qq s) : OkOut qq (execSpaceWrite w a v s) := by
  unfold execSpaceWrite
  repeat' first
    | with_reducible assumption
    | with_reducible refine OkOut.next ?_
    | with_reducible apply State.linked_ok
    | with_reducible apply spaceWrite_ok

theorem fabWrite_ok {qq : List Instr} (w : Writer) (sec : Nat) (v : W32) (s : State) (hs : Ok qq s) : Ok qq (fabWrite w sec v s) := by
  unfold fabWrite
  repeat' first
    | with_reducible assumption
    | with_reducible apply State.wardenOr_ok
    | with_reducible apply State.deny_ok
    | with_reducible apply State.setReg_ok
    | split
    | intro _ _

theorem linkPrivWrite_ok {qq : List Instr} (w : Writer) (l : Nat) (p : Nat) (s : State) (hs : Ok qq s) : Ok qq (linkPrivWrite w l p s) := by
  unfold linkPrivWrite
  repeat' first
    | with_reducible assumption
    | (extract_lets +onlyGivenNames g; refine have hg : ∀ a, Ok qq (g a) := ?_; ?_; rotate_left; clear_value g; rotate_right; subst g; intro _; try dsimp -zeta only)
    | with_reducible apply State.wardenOr_ok
    | with_reducible apply State.deny_ok
    | with_reducible apply State.setFld_ok
    | with_reducible apply ok_ite
    | with_reducible apply hg
    | split
    | intro _ _

theorem execLinkPrivWrite_ok {qq : List Instr} (w : Writer) (l : Fin 3) (v : W32) (s : State) (hs : Ok qq s) : OkOut qq (execLinkPrivWrite w l v s) := by
  unfold execLinkPrivWrite
  repeat' first
    | with_reducible assumption
    | with_reducible refine OkOut.next ?_
    | with_reducible apply State.linked_ok
    | with_reducible apply linkPrivWrite_ok

theorem lifeTake_ok {qq : List Instr} (r : Reg) (i : Nat) (key : List W32) (s : State) (hs : Ok qq s) : Ok qq (lifeTake r i key s) := by
  unfold lifeTake
  repeat' first
    | with_reducible assumption
    | with_reducible exact ok_mk (by assumption) rfl rfl rfl rfl rfl rfl rfl rfl rfl
    | (extract_lets +onlyGivenNames x; refine have hx : Ok qq x := ?_; ?_; rotate_left; clear_value x; rotate_right; subst x)
    | with_reducible apply State.setFlag_ok

theorem lifeDeny_ok {qq : List Instr} (w : Writer) (r : Reg) (i : Nat) (code : Nat) (s : State) (hs : Ok qq s) : Ok qq (lifeDeny w r i code s) := by
  unfold lifeDeny
  repeat' first
    | with_reducible assumption
    | with_reducible apply State.deny_ok

theorem svnWrite_ok {qq : List Instr} (w : Writer) (v : Nat) (s : State) (hs : Ok qq s) : Ok qq (svnWrite w v s) := by
  unfold svnWrite
  repeat' first
    | with_reducible assumption
    | (extract_lets +onlyGivenNames x; refine have hx : Ok qq x := ?_; ?_; rotate_left; clear_value x; rotate_right; subst x)
    | (extract_lets +onlyGivenNames g; refine have hg : ∀ a, Ok qq (g a) := ?_; ?_; rotate_left; clear_value g; rotate_right; subst g; intro _; try dsimp -zeta only)
    | (extract_lets +onlyGivenNames x; clear_value x)
    | with_reducible apply State.wardenOr_ok
    | with_reducible apply lifeDeny_ok
    | with_reducible apply lifeTake_ok
    | with_reducible apply State.setFld_ok
    | with_reducible apply ok_ite
    | with_reducible apply hg
    | intro _ _

theorem execSvnWrite_ok {qq : List Instr} (w : Writer) (v : W32) (s : State) (hs : Ok qq s) : OkOut qq (execSvnWrite w v s) := by
  unfold execSvnWrite
  repeat' first
    | with_reducible assumption
    | with_reducible refine OkOut.next ?_
    | with_reducible apply State.linked_ok
    | with_reducible apply svnWrite_ok

theorem keyCommit_ok {qq : List Instr} (w : Writer) (k : Nat) (s : State) (hs : Ok qq s) : Ok qq (keyCommit w k s) := by
  unfold keyCommit
  repeat' first
    | with_reducible assumption
    | with_reducible exact ok_mk (by assumption) rfl rfl rfl rfl rfl rfl rfl rfl rfl
    | (extract_lets +onlyGivenNames x; refine have hx : Ok qq x := ?_; ?_; rotate_left; clear_value x; rotate_right; subst x)
    | (extract_lets +onlyGivenNames g; refine have hg : ∀ a, Ok qq (g a) := ?_; ?_; rotate_left; clear_value g; rotate_right; subst g; intro _; try dsimp -zeta only)
    | (extract_lets +onlyGivenNames x; clear_value x)
    | with_reducible apply State.wardenOr_ok
    | with_reducible apply lifeDeny_ok
    | with_reducible apply lifeTake_ok
    | with_reducible apply State.setFld_ok
    | with_reducible apply State.setFlag_ok
    | with_reducible apply State.setReg_ok
    | with_reducible apply ok_ite
    | (with_reducible refine ok_foldl ?_ _ ?_; intro _ _ _)
    | with_reducible apply hg
    | intro _ _

theorem execKeyCommit_ok {qq : List Instr} (w : Writer) (k : Fin 4) (s : State) (hs : Ok qq s) : OkOut qq (execKeyCommit w k s) := by
  unfold execKeyCommit
  repeat' first
    | with_reducible assumption
    | with_reducible refine OkOut.next ?_
    | with_reducible apply State.linked_ok
    | with_reducible apply keyCommit_ok

theorem bootLockWrite_ok {qq : List Instr} (w : Writer) (v : Nat) (s : State) (hs : Ok qq s) : Ok qq (bootLockWrite w v s) := by
  unfold bootLockWrite
  repeat' first
    | with_reducible assumption
    | (extract_lets +onlyGivenNames x; refine have hx : Ok qq x := ?_; ?_; rotate_left; clear_value x; rotate_right; subst x)
    | (extract_lets +onlyGivenNames g; refine have hg : ∀ a, Ok qq (g a) := ?_; ?_; rotate_left; clear_value g; rotate_right; subst g; intro _; try dsimp -zeta only)
    | with_reducible apply State.wardenOr_ok
    | with_reducible apply lifeDeny_ok
    | with_reducible apply lifeTake_ok
    | with_reducible apply State.setFld_ok
    | with_reducible apply ok_ite
    | with_reducible apply hg
    | split
    | intro _ _

theorem execBootLockWrite_ok {qq : List Instr} (w : Writer) (v : W32) (s : State) (hs : Ok qq s) : OkOut qq (execBootLockWrite w v s) := by
  unfold execBootLockWrite
  repeat' first
    | with_reducible assumption
    | with_reducible refine OkOut.next ?_
    | with_reducible apply State.linked_ok
    | with_reducible apply bootLockWrite_ok

theorem debugWrite_ok {qq : List Instr} (w : Writer) (v : Bool) (s : State) (hs : Ok qq s) : Ok qq (debugWrite w v s) := by
  unfold debugWrite
  repeat' first
    | with_reducible assumption
    | (extract_lets +onlyGivenNames x; refine have hx : Ok qq x := ?_; ?_; rotate_left; clear_value x; rotate_right; subst x)
    | (extract_lets +onlyGivenNames g; refine have hg : ∀ a, Ok qq (g a) := ?_; ?_; rotate_left; clear_value g; rotate_right; subst g; intro _; try dsimp -zeta only)
    | with_reducible apply State.wardenOr_ok
    | with_reducible apply lifeDeny_ok
    | with_reducible apply lifeTake_ok
    | with_reducible apply State.setFld_ok
    | with_reducible apply State.setFlag_ok
    | with_reducible apply ok_ite
    | with_reducible apply hg
    | intro _ _

theorem execDebugDisable_ok {qq : List Instr} (w : Writer) (s : State) (hs : Ok qq s) : OkOut qq (execDebugDisable w s) := by
  unfold execDebugDisable
  repeat' first
    | with_reducible assumption
    | with_reducible refine OkOut.next ?_
    | with_reducible apply State.linked_ok
    | with_reducible apply debugWrite_ok

theorem execLifeStoreDone_ok {qq : List Instr} (s : State) (hs : Ok qq s) : OkOut qq (execLifeStoreDone s) := by
  unfold execLifeStoreDone
  repeat' first
    | with_reducible assumption
    | with_reducible exact ok_mk (by assumption) rfl rfl rfl rfl rfl rfl rfl rfl rfl
    | (extract_lets +onlyGivenNames x; refine have hx : Ok qq x := ?_; ?_; rotate_left; clear_value x; rotate_right; subst x)
    | (extract_lets +onlyGivenNames x; clear_value x)
    | with_reducible refine OkOut.next ?_
    | with_reducible apply State.setFlag_ok

theorem wtuCntClr_ok {qq : List Instr} (s : State) (hs : Ok qq s) : Ok qq (wtuCntClr s) := by
  unfold wtuCntClr
  repeat' first
    | with_reducible assumption
    | with_reducible apply State.setReg_ok

theorem execWtuCntClr_ok {qq : List Instr} (w : Writer) (s : State) (hs : Ok qq s) : OkOut qq (execWtuCntClr w s) := by
  unfold execWtuCntClr
  repeat' first
    | with_reducible assumption
    | with_reducible refine OkOut.next ?_
    | with_reducible apply State.linked_ok
    | with_reducible apply wtuCntClr_ok

end Sys2Proof.Machine
end

