-- ==== Sys2Proof/Laws/OkSpareCore.lean ====
section
/-! SUPPORT. What the operations of Machine/SpareCore.lean keep: each takes a sound state with the same commands waiting to
such a state (see Laws/Ok.lean). -/

namespace Sys2Proof.Machine

theorem showSector_ok {qq : List Instr} (sec : Nat) (s : State) (hs : Ok qq s) : Ok qq (showSector sec s) := by
  unfold showSector
  repeat' first
    | with_reducible assumption
    | (extract_lets +onlyGivenNames x; refine have hx : Ok qq x := ?_; ?_; rotate_left; clear_value x; rotate_right; subst x)
    | (extract_lets +onlyGivenNames x; clear_value x)
    | with_reducible apply State.setFld_ok
    | with_reducible apply State.setFlag_ok

theorem showWear_ok {qq : List Instr} (h : Nat) (s : State) (hs : Ok qq s) : Ok qq (showWear h s) := by
  unfold showWear
  repeat' first
    | with_reducible assumption
    | (extract_lets +onlyGivenNames x; refine have hx : Ok qq x := ?_; ?_; rotate_left; clear_value x; rotate_right; subst x)
    | (extract_lets +onlyGivenNames x; clear_value x)
    | with_reducible apply State.setFld_ok
    | with_reducible apply State.setFlag_ok

theorem showSlice_ok {qq : List Instr} (e : W64) (s : State) (hs : Ok qq s) : Ok qq (showSlice e s) := by
  unfold showSlice
  repeat' first
    | with_reducible assumption
    | with_reducible apply State.setFlag_ok
    | with_reducible apply ok_ite

theorem showSpares_ok {qq : List Instr} (s : State) (hs : Ok qq s) : Ok qq (showSpares s) := by
  unfold showSpares
  repeat' first
    | with_reducible assumption
    | (extract_lets +onlyGivenNames x; refine have hx : Ok qq x := ?_; ?_; rotate_left; clear_value x; rotate_right; subst x)
    | with_reducible apply showSector_ok
    | with_reducible apply State.setFlag_ok
    | with_reducible apply showSlice_ok
    | with_reducible apply showWear_ok
    | (with_reducible refine ok_foldl ?_ _ ?_; intro _ _ _)

theorem bistRuns_ok {qq : List Instr} (s : State) (hs : Ok qq s) : Ok qq (bistRuns s) := by
  unfold bistRuns
  repeat' first
    | with_reducible assumption
    | (extract_lets +onlyGivenNames x; clear_value x)
    | with_reducible apply State.setFld_ok
    | with_reducible apply ok_ite

theorem showHealth_ok {qq : List Instr} (s : State) (hs : Ok qq s) : Ok qq (showHealth s) := by
  unfold showHealth
  repeat' first
    | with_reducible assumption
    | with_reducible exact ok_mk (by assumption) rfl rfl rfl rfl rfl rfl rfl rfl rfl
    | (extract_lets +onlyGivenNames x; refine have hx : Ok qq x := ?_; ?_; rotate_left; clear_value x; rotate_right; subst x)
    | (extract_lets +onlyGivenNames x; (first | have hh : Sched := x | have hh : Hea := x | have hh : Ldr := x | have hh : Eng := x); clear hh; subst x)
    | (extract_lets +onlyGivenNames x; clear_value x)
    | with_reducible apply bistRuns_ok
    | with_reducible apply State.setFlag_ok
    | with_reducible apply State.setFld_ok
    | (with_reducible refine ok_foldl ?_ _ ?_; intro _ _ _)

theorem zeroSector_ok {qq : List Instr} (sec : Nat) (s : State) (hs : Ok qq s) : Ok qq (zeroSector sec s) := by
  unfold zeroSector
  repeat' first
    | with_reducible assumption
    | (extract_lets +onlyGivenNames x; refine have hx : Ok qq x := ?_; ?_; rotate_left; clear_value x; rotate_right; subst x)
    | with_reducible apply State.setFld_ok
    | with_reducible apply resetSector_ok
    | (with_reducible refine ok_mkBy (by assumption) rfl ?_ ?_ ?_ ?_ ?_ ?_ ?_ ?_) <;> first | with_reducible exact okRegs (by assumption) | with_reducible exact okMem (by assumption) | with_reducible exact okFrames (by assumption) | with_reducible exact okEngs (by assumption) | with_reducible exact okWest (by assumption) | with_reducible exact okEast (by assumption) | with_reducible exact okPlanned (by assumption) | with_reducible exact okHeld (by assumption) | with_reducible exact Nat.zero_le _ | with_reducible exact Nat.le_trans (List.length_filter_le _ _) (okPlanned (by assumption)) | with_reducible exact Tab.wf_filter 0 _ (okFrames (by assumption))

theorem enterDark_ok {qq : List Instr} (sec : Nat) (s : State) (hs : Ok qq s) : Ok qq (enterDark sec s) := by
  unfold enterDark
  repeat' first
    | with_reducible assumption
    | with_reducible apply zeroSector_ok
    | with_reducible apply darkPort_ok
    | with_reducible apply holdSector_ok
    | with_reducible apply State.setFlag_ok

theorem sectorFails_ok {qq : List Instr} (sec : Nat) (s : State) (hs : Ok qq s) : Ok qq (sectorFails sec s) := by
  unfold sectorFails
  repeat' first
    | with_reducible assumption
    | with_reducible apply State.alarm_ok
    | with_reducible apply State.setFlag_ok
    | with_reducible apply enterDark_ok

theorem retireCtx_ok {qq : List Instr} (n : Nat) (c : Nat) (s : State) (hs : Ok qq s) : Ok qq (retireCtx n c s) := by
  unfold retireCtx
  repeat' first
    | with_reducible assumption
    | with_reducible apply State.setCtxState_ok
    | with_reducible apply faultRecord_ok

theorem retireEngine_ok {qq : List Instr} (n : Nat) (hours : Nat) (s : State) (hs : Ok qq s) : Ok qq (retireEngine n hours s) := by
  unfold retireEngine
  repeat' first
    | with_reducible assumption
    | with_reducible exact ok_mk (by assumption) rfl rfl rfl rfl rfl rfl rfl rfl rfl
    | (extract_lets +onlyGivenNames x; refine have hx : Ok qq x := ?_; ?_; rotate_left; clear_value x; rotate_right; subst x)
    | (extract_lets +onlyGivenNames x; clear_value x)
    | with_reducible apply State.setFlag_ok
    | with_reducible apply haltEngine_ok
    | with_reducible apply retireCtx_ok
    | with_reducible apply State.alarm_ok
    | with_reducible apply State.raiseAction_ok
    | (with_reducible refine ok_foldl ?_ _ ?_; intro _ _ _)

theorem exhausted_ok {qq : List Instr} (e : W64) (s : State) (hs : Ok qq s) : Ok qq (exhausted e s) := by
  unfold exhausted
  repeat' first
    | with_reducible assumption
    | with_reducible exact ok_mk (by assumption) rfl rfl rfl rfl rfl rfl rfl rfl rfl
    | (extract_lets +onlyGivenNames x; refine have hx : Ok qq x := ?_; ?_; rotate_left; clear_value x; rotate_right; subst x)
    | (extract_lets +onlyGivenNames x; clear_value x)
    | with_reducible apply State.alarm_ok
    | with_reducible apply State.setFld_ok
    | with_reducible apply retireEngine_ok
    | with_reducible apply State.setFlag_ok
    | with_reducible apply sectorFails_ok
    | with_reducible apply ok_ite
    | split

theorem raiseRecord_ok {qq : List Instr} (a : Action) (s : State) (hs : Ok qq s) : Ok qq (raiseRecord a s) := by
  unfold raiseRecord
  repeat' first
    | with_reducible assumption
    | with_reducible apply State.raiseAction_ok
    | with_reducible apply ok_ite

theorem substituted_ok {qq : List Instr} (e : W64) (s : State) (hs : Ok qq s) : Ok qq (substituted e s) := by
  unfold substituted
  repeat' first
    | with_reducible assumption
    | with_reducible exact ok_mk (by assumption) rfl rfl rfl rfl rfl rfl rfl rfl rfl
    | (extract_lets +onlyGivenNames x; refine have hx : Ok qq x := ?_; ?_; rotate_left; clear_value x; rotate_right; subst x)
    | (extract_lets +onlyGivenNames x; (first | have hh : Sched := x | have hh : Hea := x | have hh : Ldr := x | have hh : Eng := x); clear hh; subst x)
    | (extract_lets +onlyGivenNames x; clear_value x)
    | (extract_lets +onlyGivenNames x; subst x)
    | with_reducible apply State.setFlag_ok
    | with_reducible apply showSlice_ok
    | with_reducible apply showWear_ok
    | with_reducible apply showSector_ok
    | with_reducible apply State.noticeIf_ok
    | with_reducible apply raiseRecord_ok
    | with_reducible apply State.setFld_ok
    | with_reducible apply ok_ite

theorem fixHere_ok {qq : List Instr} (e : W64) (s : State) (hs : Ok qq s) : Ok qq (fixHere e s) := by
  unfold fixHere
  repeat' first
    | with_reducible assumption
    | with_reducible apply exhausted_ok
    | with_reducible apply substituted_ok
    | split

theorem fixNow_ok {qq : List Instr} (e : W64) (s : State) (hs : Ok qq s) : Ok qq (fixNow e s) := by
  unfold fixNow
  repeat' first
    | with_reducible assumption
    | with_reducible exact ok_mk (by assumption) rfl rfl rfl rfl rfl rfl rfl rfl rfl
    | (extract_lets +onlyGivenNames x; (first | have hh : Sched := x | have hh : Hea := x); clear hh; subst x)
    | with_reducible apply exhausted_ok
    | split

theorem fixLater_ok {qq : List Instr} (e : W64) (s : State) (hs : Ok qq s) : Ok qq (fixLater e s) := by
  unfold fixLater
  split
  · exact hs
  · next hl =>
    have hp : (s.hea.planned ++ [e]).length ≤ 64 := by
      rw [List.length_append, List.length_singleton]
      omega
    refine State.noticeIf_ok _ _ _ _ ?_
    exact ok_mkBy hs rfl hs.inv.1.1 hs.inv.1.2 hs.inv.1.3 hs.engines hs.inv.2.2 hs.inv.2.3 hp hs.inv.2.5

theorem trigger_ok {qq : List Instr} (kind : Nat) (cause : Nat) (scope : Nat) (item : Nat) (planned : Bool) (window : Bool) (s : State) (hs : Ok qq s) : Ok qq (trigger kind cause scope item planned window s) := by
  unfold trigger
  repeat' first
    | with_reducible assumption
    | with_reducible exact ok_mk (by assumption) rfl rfl rfl rfl rfl rfl rfl rfl rfl
    | (extract_lets +onlyGivenNames x; (first | have hh : Sched := x | have hh : Hea := x | have hh : Ldr := x | have hh : Eng := x); clear hh; subst x)
    | (extract_lets +onlyGivenNames x; clear_value x)
    | with_reducible apply fixHere_ok
    | with_reducible apply showHealth_ok
    | with_reducible apply fixLater_ok
    | with_reducible apply fixNow_ok
    | with_reducible apply ok_ite
    | (with_reducible refine ok_mkBy (by assumption) rfl ?_ ?_ ?_ ?_ ?_ ?_ ?_ ?_) <;> first | with_reducible exact okRegs (by assumption) | with_reducible exact okMem (by assumption) | with_reducible exact okFrames (by assumption) | with_reducible exact okEngs (by assumption) | with_reducible exact okWest (by assumption) | with_reducible exact okEast (by assumption) | with_reducible exact okPlanned (by assumption) | with_reducible exact okHeld (by assumption) | with_reducible exact Nat.zero_le _ | with_reducible exact Nat.le_trans (List.length_filter_le _ _) (okPlanned (by assumption))

theorem fixPlannedHere_ok {qq : List Instr} (p : W64 → Bool) (s : State) (hs : Ok qq s) : Ok qq (fixPlannedHere p s) := by
  unfold fixPlannedHere
  repeat' first
    | with_reducible assumption
    | (extract_lets +onlyGivenNames x; refine have hx : Ok qq x := ?_; ?_; rotate_left; clear_value x; rotate_right; subst x)
    | (extract_lets +onlyGivenNames x; (first | have hh : Sched := x | have hh : Hea := x | have hh : Ldr := x | have hh : Eng := x); clear hh; subst x)
    | (extract_lets +onlyGivenNames x; clear_value x)
    | with_reducible apply fixHere_ok
    | (with_reducible refine ok_foldl ?_ _ ?_; intro _ _ _)
    | (with_reducible refine ok_mkBy (by assumption) rfl ?_ ?_ ?_ ?_ ?_ ?_ ?_ ?_) <;> first | with_reducible exact okRegs (by assumption) | with_reducible exact okMem (by assumption) | with_reducible exact okFrames (by assumption) | with_reducible exact okEngs (by assumption) | with_reducible exact okWest (by assumption) | with_reducible exact okEast (by assumption) | with_reducible exact okPlanned (by assumption) | with_reducible exact okHeld (by assumption) | with_reducible exact Nat.zero_le _ | with_reducible exact Nat.le_trans (List.length_filter_le _ _) (okPlanned (by assumption))

theorem fixGo_ok {qq : List Instr} (s : State) (hs : Ok qq s) : Ok qq (fixGo s) := by
  unfold fixGo
  extract_lets l x s1
  have h1 : Ok qq s1 := ok_mkBy hs rfl hs.inv.1.1 hs.inv.1.2 hs.inv.1.3 hs.engines hs.inv.2.2 hs.inv.2.3 (Nat.zero_le _) hs.inv.2.5
  exact showHealth_ok _ (ok_foldl (fun s e h => fixNow_ok _ _ h) _ h1)

theorem substitutionDone_ok {qq : List Instr} (h : Nat) (s : State) (hs : Ok qq s) : Ok qq (substitutionDone h s) := by
  unfold substitutionDone
  repeat' first
    | with_reducible assumption
    | with_reducible exact ok_mk (by assumption) rfl rfl rfl rfl rfl rfl rfl rfl rfl
    | (extract_lets +onlyGivenNames x; (first | have hh : Sched := x | have hh : Hea := x | have hh : Ldr := x | have hh : Eng := x); clear hh; subst x)
    | with_reducible apply showHealth_ok
    | with_reducible apply substituted_ok
    | split

theorem finishFixes_ok {qq : List Instr} (s : State) (hs : Ok qq s) : Ok qq (finishFixes s) := by
  unfold finishFixes
  repeat' first
    | with_reducible assumption
    | with_reducible exact ok_mk (by assumption) rfl rfl rfl rfl rfl rfl rfl rfl rfl
    | (extract_lets +onlyGivenNames x; (first | have hh : Sched := x | have hh : Hea := x | have hh : Ldr := x | have hh : Eng := x); clear hh; subst x)
    | (extract_lets +onlyGivenNames x; clear_value x)
    | with_reducible apply substituted_ok
    | (with_reducible refine ok_foldl ?_ _ ?_; intro _ _ _)

end Sys2Proof.Machine
end

