-- ==== Sys2Proof/Laws/OkPinCore.lean ====
section
/-! SUPPORT. What the operations of Machine/PinCore.lean keep: each takes a sound state with the same commands waiting to
such a state (see Laws/Ok.lean). -/

namespace Sys2Proof.Machine

theorem State.setPin_ok {qq : List Instr} (s : State) (n : Nat) (h : PinHid) (hs : Ok qq s) : Ok qq (State.setPin s n h) := by
  unfold State.setPin
  repeat' first
    | with_reducible exact ok_mk (by assumption) rfl rfl rfl rfl rfl rfl rfl rfl rfl

theorem setPinIn_ok {qq : List Instr} (n : Nat) (b : Bool) (level : Bool) (s : State) (hs : Ok qq s) : Ok qq (setPinIn n b level s) := by
  unfold setPinIn
  repeat' first
    | with_reducible assumption
    | (extract_lets +onlyGivenNames x; clear_value x)
    | with_reducible apply State.setReg_ok

theorem showPin_ok {qq : List Instr} (n : Nat) (s : State) (hs : Ok qq s) : Ok qq (showPin n s) := by
  unfold showPin
  repeat' first
    | with_reducible assumption
    | with_reducible apply setPinIn_ok
    | with_reducible apply ok_ite

theorem portSafe_ok {qq : List Instr} (n : Nat) (s : State) (hs : Ok qq s) : Ok qq (portSafe n s) := by
  unfold portSafe
  repeat' first
    | with_reducible assumption
    | with_reducible apply State.setFlag_ok

theorem pinsSafe_ok {qq : List Instr} (s : State) (hs : Ok qq s) : Ok qq (pinsSafe s) := by
  unfold pinsSafe
  repeat' first
    | with_reducible assumption
    | with_reducible apply portSafe_ok
    | (with_reducible refine ok_foldl ?_ _ ?_; intro _ _ _)

theorem sectorPinsSafe_ok {qq : List Instr} (sec : Nat) (s : State) (hs : Ok qq s) : Ok qq (sectorPinsSafe sec s) := by
  unfold sectorPinsSafe
  repeat' first
    | with_reducible assumption
    | with_reducible apply portSafe_ok
    | with_reducible apply ok_ite
    | (with_reducible refine ok_foldl ?_ _ ?_; intro _ _ _)

theorem muxInForce_ok {qq : List Instr} (n : Nat) (s : State) (hs : Ok qq s) : Ok qq (muxInForce n s) := by
  unfold muxInForce
  repeat' first
    | with_reducible assumption
    | (extract_lets +onlyGivenNames x; clear_value x)
    | with_reducible apply State.setPin_ok

theorem portWake_ok {qq : List Instr} (n : Nat) (s : State) (hs : Ok qq s) : Ok qq (portWake n s) := by
  unfold portWake
  repeat' first
    | with_reducible assumption
    | with_reducible apply muxInForce_ok
    | with_reducible apply State.setFlag_ok

theorem pinsWake_ok {qq : List Instr} (s : State) (hs : Ok qq s) : Ok qq (pinsWake s) := by
  unfold pinsWake
  repeat' first
    | with_reducible assumption
    | (extract_lets +onlyGivenNames x; refine have hx : Ok qq x := ?_; ?_; rotate_left; clear_value x; rotate_right; subst x)
    | with_reducible apply portWake_ok
    | with_reducible apply portSafe_ok
    | with_reducible apply ok_ite
    | (with_reducible refine ok_foldl ?_ _ ?_; intro _ _ _)

theorem sectorPinsWake_ok {qq : List Instr} (sec : Nat) (s : State) (hs : Ok qq s) : Ok qq (sectorPinsWake sec s) := by
  unfold sectorPinsWake
  repeat' first
    | with_reducible assumption
    | with_reducible apply portWake_ok
    | with_reducible apply ok_ite
    | (with_reducible refine ok_foldl ?_ _ ?_; intro _ _ _)

theorem pinsSleep_ok {qq : List Instr} (s : State) (hs : Ok qq s) : Ok qq (pinsSleep s) := by
  unfold pinsSleep
  repeat' first
    | with_reducible assumption
    | (extract_lets +onlyGivenNames x; clear_value x)
    | with_reducible apply State.setFlag_ok
    | with_reducible apply State.setPin_ok
    | (with_reducible refine ok_foldl ?_ _ ?_; intro _ _ _)

end Sys2Proof.Machine
end

