-- ==== Sys2Proof/Laws/OkLaneCore.lean ====
section
/-! SUPPORT. What the operations of Machine/LaneCore.lean keep: each takes a sound state with the same commands waiting to
such a state (see Laws/Ok.lean). -/

namespace Sys2Proof.Machine

theorem laneCode_ok {qq : List Instr} (l : Nat) (code : Nat) (s : State) (hs : Ok qq s) : Ok qq (laneCode l code s) := by
  unfold laneCode
  repeat' first
    | with_reducible assumption
    | with_reducible apply State.noticeIf_ok
    | with_reducible apply State.setFld_ok

theorem showChain_ok {qq : List Instr} (l : Nat) (s : State) (hs : Ok qq s) : Ok qq (showChain l s) := by
  unfold showChain
  repeat' first
    | with_reducible assumption
    | with_reducible apply State.setFlag_ok
    | with_reducible apply ok_ite

theorem setLaneState_ok {qq : List Instr} (l : Nat) (v : Nat) (s : State) (hs : Ok qq s) : Ok qq (setLaneState l v s) := by
  unfold setLaneState
  repeat' first
    | with_reducible assumption
    | with_reducible apply showChain_ok
    | with_reducible apply State.setFld_ok

theorem laneTrain_ok {qq : List Instr} (l : Nat) (s : State) (hs : Ok qq s) : Ok qq (laneTrain l s) := by
  unfold laneTrain
  repeat' first
    | with_reducible assumption
    | (extract_lets +onlyGivenNames x; clear_value x)
    | with_reducible apply State.setLane_ok
    | with_reducible apply setLaneState_ok

theorem offsetLost_ok {qq : List Instr} (l : Nat) (s : State) (hs : Ok qq s) : Ok qq (offsetLost l s) := by
  unfold offsetLost
  repeat' first
    | with_reducible assumption
    | (extract_lets +onlyGivenNames x; refine have hx : Ok qq x := ?_; ?_; rotate_left; clear_value x; rotate_right; subst x)
    | (extract_lets +onlyGivenNames x; clear_value x)
    | with_reducible apply State.setLane_ok
    | with_reducible apply laneCode_ok
    | with_reducible apply State.setFlag_ok
    | with_reducible apply ok_ite

theorem laneClockGone_ok {qq : List Instr} (l : Nat) (s : State) (hs : Ok qq s) : Ok qq (laneClockGone l s) := by
  unfold laneClockGone
  repeat' first
    | with_reducible assumption
    | with_reducible apply clockLoss_ok
    | with_reducible apply State.setReady_ok
    | with_reducible apply sourceGone_ok
    | with_reducible apply ok_ite

theorem laneLost_ok {qq : List Instr} (l : Nat) (s : State) (hs : Ok qq s) : Ok qq (laneLost l s) := by
  unfold laneLost
  repeat' first
    | with_reducible assumption
    | (extract_lets +onlyGivenNames x; clear_value x)
    | with_reducible apply laneClockGone_ok
    | with_reducible apply laneCode_ok
    | with_reducible apply State.bump_ok
    | with_reducible apply laneTrain_ok
    | with_reducible apply ok_ite

theorem laneHalt_ok {qq : List Instr} (l : Nat) (s : State) (hs : Ok qq s) : Ok qq (laneHalt l s) := by
  unfold laneHalt
  repeat' first
    | with_reducible assumption
    | with_reducible apply laneClockGone_ok
    | with_reducible apply State.setLane_ok
    | with_reducible apply setLaneState_ok
    | with_reducible apply offsetLost_ok
    | with_reducible apply ok_ite

theorem lanesHalt_ok {qq : List Instr} (s : State) (hs : Ok qq s) : Ok qq (lanesHalt s) := by
  unfold lanesHalt
  repeat' first
    | with_reducible assumption
    | with_reducible apply laneHalt_ok
    | (with_reducible refine ok_foldl ?_ _ ?_; intro _ _ _)

theorem lanesWake_ok {qq : List Instr} (s : State) (hs : Ok qq s) : Ok qq (lanesWake s) := by
  unfold lanesWake
  repeat' first
    | with_reducible assumption
    | with_reducible apply laneTrain_ok
    | with_reducible apply ok_ite
    | (with_reducible refine ok_foldl ?_ _ ?_; intro _ _ _)

end Sys2Proof.Machine
end

