-- ==== Sys2Proof/Laws/OkPowerCore.lean ====
section
/-! SUPPORT. What the operations of Machine/PowerCore.lean keep: each takes a sound state with the same commands waiting to
such a state (see Laws/Ok.lean). -/

namespace Sys2Proof.Machine

theorem slewTo_ok {qq : List Instr} (h : Nat) (v : Nat) (s : State) (hs : Ok qq s) : Ok qq (slewTo h v s) := by
  unfold slewTo
  repeat' first
    | with_reducible assumption
    | with_reducible exact ok_mk (by assumption) rfl rfl rfl rfl rfl rfl rfl rfl rfl
    | (extract_lets +onlyGivenNames x; refine have hx : Ok qq x := ?_; ?_; rotate_left; clear_value x; rotate_right; subst x)
    | (extract_lets +onlyGivenNames x; clear_value x)
    | with_reducible apply State.setFlag_ok

theorem railSettle_ok {qq : List Instr} (h : Nat) (s : State) (hs : Ok qq s) : Ok qq (railSettle h s) := by
  unfold railSettle
  repeat' first
    | with_reducible assumption
    | with_reducible apply slewTo_ok
    | with_reducible apply ok_ite

theorem railsAt_ok {qq : List Instr} (v : Nat) (s : State) (hs : Ok qq s) : Ok qq (railsAt v s) := by
  unfold railsAt
  repeat' first
    | with_reducible assumption
    | with_reducible exact ok_mk (by assumption) rfl rfl rfl rfl rfl rfl rfl rfl rfl
    | (extract_lets +onlyGivenNames x; clear_value x)
    | with_reducible apply State.setFlag_ok
    | with_reducible apply State.setFld_ok
    | (with_reducible refine ok_foldl ?_ _ ?_; intro _ _ _)

theorem showCapped_ok {qq : List Instr} (h : Nat) (s : State) (hs : Ok qq s) : Ok qq (showCapped h s) := by
  unfold showCapped
  repeat' first
    | with_reducible assumption
    | with_reducible apply State.setFlag_ok

theorem banksWake_ok {qq : List Instr} (s : State) (hs : Ok qq s) : Ok qq (banksWake s) := by
  unfold banksWake
  repeat' first
    | with_reducible assumption
    | with_reducible apply State.setFld_ok
    | with_reducible apply ok_ite
    | (with_reducible refine ok_foldl ?_ _ ?_; intro _ _ _)

theorem banksSleep_ok {qq : List Instr} (s : State) (hs : Ok qq s) : Ok qq (banksSleep s) := by
  unfold banksSleep
  repeat' first
    | with_reducible assumption
    | with_reducible apply State.setFlag_ok
    | with_reducible apply State.setFld_ok
    | (with_reducible refine ok_foldl ?_ _ ?_; intro _ _ _)

theorem archiveAwake_ok {qq : List Instr} (s : State) (hs : Ok qq s) : Ok qq (archiveAwake s) := by
  unfold archiveAwake
  repeat' first
    | with_reducible assumption
    | with_reducible exact ok_mk (by assumption) rfl rfl rfl rfl rfl rfl rfl rfl rfl
    | (extract_lets +onlyGivenNames x; clear_value x)
    | with_reducible apply State.setFld_ok
    | with_reducible apply ok_ite
    | split

theorem tbAfterDark_ok {qq : List Instr} (n : Nat) (s : State) (hs : Ok qq s) : Ok qq (tbAfterDark n s) := by
  unfold tbAfterDark
  repeat' first
    | with_reducible assumption
    | (extract_lets +onlyGivenNames x; refine have hx : Ok qq x := ?_; ?_; rotate_left; clear_value x; rotate_right; subst x)
    | (extract_lets +onlyGivenNames x; clear_value x)
    | with_reducible apply State.setTb_ok
    | with_reducible apply State.setFlag_ok
    | with_reducible apply ok_ite

theorem resumeAll_ok {qq : List Instr} (s : State) (hs : Ok qq s) : Ok qq (resumeAll s) := by
  unfold resumeAll
  repeat' first
    | with_reducible assumption
    | with_reducible exact ok_mk (by assumption) rfl rfl rfl rfl rfl rfl rfl rfl rfl
    | (extract_lets +onlyGivenNames x; refine have hx : Ok qq x := ?_; ?_; rotate_left; clear_value x; rotate_right; subst x)
    | (extract_lets +onlyGivenNames x; clear_value x)
    | with_reducible apply lanesWake_ok
    | with_reducible apply archiveAwake_ok
    | with_reducible apply banksWake_ok
    | with_reducible apply State.setFlag_ok
    | with_reducible apply tbAfterDark_ok
    | with_reducible apply ok_ite
    | (with_reducible refine ok_foldl ?_ _ ?_; intro _ _ _)

theorem engineSleeps_ok {qq : List Instr} (n : Nat) (s : State) (hs : Ok qq s) : Ok qq (engineSleeps n s) := by
  unfold engineSleeps
  repeat' first
    | with_reducible assumption
    | with_reducible exact ok_mk (by assumption) rfl rfl rfl rfl rfl rfl rfl rfl rfl
    | (extract_lets +onlyGivenNames x; refine have hx : Ok qq x := ?_; ?_; rotate_left; clear_value x; rotate_right; subst x)
    | (extract_lets +onlyGivenNames x; clear_value x)
    | with_reducible apply ctxStop_ok
    | with_reducible apply State.setFld_ok
    | (with_reducible refine ok_foldl ?_ _ ?_; intro _ _ _)
    | split

theorem archiveSleeps_ok {qq : List Instr} (s : State) (hs : Ok qq s) : Ok qq (archiveSleeps s) := by
  unfold archiveSleeps
  repeat' first
    | with_reducible assumption
    | with_reducible exact ok_mk (by assumption) rfl rfl rfl rfl rfl rfl rfl rfl rfl
    | (extract_lets +onlyGivenNames x; clear_value x)
    | with_reducible apply State.setFld_ok
    | split

theorem engineWakes_ok {qq : List Instr} (n : Nat) (s : State) (hs : Ok qq s) : Ok qq (engineWakes n s) := by
  unfold engineWakes
  split
  · extract_lets s1 x s2
    have h1 : Ok qq s1 := State.setFld_ok _ _ _ _ _ hs
    have h2 : Ok qq s2 := State.setEng_ok _ _ _ h1 ⟨(h1.eng n).1, (h1.eng n).2, (h1.eng n).3, (h1.eng n).4⟩
    refine ok_foldl (fun s c h => ?_) _ h2
    split
    · exact ctxStart_ok _ _ _ h
    · exact h
  · exact hs

theorem ringsWake_ok {qq : List Instr} (s : State) (hs : Ok qq s) : Ok qq (ringsWake s) := by
  unfold ringsWake
  repeat' first
    | with_reducible assumption
    | with_reducible apply ringRun_ok
    | with_reducible apply ok_ite
    | (with_reducible refine ok_foldl ?_ _ ?_; intro _ _ _)

theorem powerAborted_ok {qq : List Instr} (s : State) (hs : Ok qq s) : Ok qq (powerAborted s) := by
  unfold powerAborted
  repeat' first
    | with_reducible assumption
    | with_reducible exact ok_mk (by assumption) rfl rfl rfl rfl rfl rfl rfl rfl rfl
    | (extract_lets +onlyGivenNames x; refine have hx : Ok qq x := ?_; ?_; rotate_left; clear_value x; rotate_right; subst x)
    | (extract_lets +onlyGivenNames x; (first | have hh : Sched := x | have hh : Hea := x | have hh : Ldr := x | have hh : Eng := x); clear hh; subst x)
    | (extract_lets +onlyGivenNames x; clear_value x)
    | with_reducible apply State.setFld_ok
    | with_reducible apply archiveAwake_ok
    | with_reducible apply ringsWake_ok
    | with_reducible apply engineWakes_ok
    | with_reducible apply showHealth_ok
    | with_reducible apply ok_ite
    | (with_reducible refine ok_foldl ?_ _ ?_; intro _ _ _)
    | (with_reducible refine ok_mkBy (by assumption) rfl ?_ ?_ ?_ ?_ ?_ ?_ ?_ ?_) <;> first | with_reducible exact okRegs (by assumption) | with_reducible exact okMem (by assumption) | with_reducible exact okFrames (by assumption) | with_reducible exact okEngs (by assumption) | with_reducible exact okWest (by assumption) | with_reducible exact okEast (by assumption) | with_reducible exact okPlanned (by assumption) | with_reducible exact okHeld (by assumption)
    | split

end Sys2Proof.Machine
end

