-- ==== Sys2Proof/Laws/OkStartCore.lean ====
section
/-! SUPPORT. What the operations of Machine/StartCore.lean keep: each takes a sound state with the same commands waiting to
such a state (see Laws/Ok.lean). -/

namespace Sys2Proof.Machine

theorem ringHalt_ok {qq : List Instr} (n : Nat) (s : State) (hs : Ok qq s) : Ok qq (ringHalt n s) := by
  unfold ringHalt
  repeat' first
    | with_reducible assumption
    | (extract_lets +onlyGivenNames x; refine have hx : Ok qq x := ?_; ?_; rotate_left; clear_value x; rotate_right; subst x)
    | with_reducible apply completeDesc_ok
    | with_reducible apply cancelFetched_ok
    | with_reducible apply State.setFld_ok
    | with_reducible apply ringForget_ok
    | with_reducible apply ok_ite

theorem ringsHalt_ok {qq : List Instr} (keep : Nat → Bool) (s : State) (hs : Ok qq s) : Ok qq (ringsHalt keep s) := by
  unfold ringsHalt
  repeat' first
    | with_reducible assumption
    | (extract_lets +onlyGivenNames x; refine have hx : Ok qq x := ?_; ?_; rotate_left; clear_value x; rotate_right; subst x)
    | (extract_lets +onlyGivenNames g; refine have hg : ∀ s a b, Ok qq s → Ok qq (g s a b) := ?_; ?_; rotate_left; clear_value g; rotate_right; subst g; intro _ _ _ _; try dsimp -zeta only)
    | with_reducible apply ringHalt_ok
    | with_reducible apply ok_ite
    | (with_reducible refine ok_foldl ?_ _ ?_; intro _ _ _)
    | with_reducible apply hg

theorem emptySched_ok {qq : List Instr} (s : State) (hs : Ok qq s) : Ok qq (emptySched s) := by
  unfold emptySched
  extract_lets x s1 s2
  have h1 : Ok qq s1 := ok_mkBy hs rfl hs.inv.1.1 hs.inv.1.2 hs.inv.1.3 hs.engines (Nat.zero_le _) (Nat.zero_le _) hs.inv.2.4 hs.inv.2.5
  have h2 : Ok qq s2 := ok_foldl (fun s n h => State.setFld_ok _ _ _ _ _ (lineApply_ok _ _ _ _ _ h)) _ h1
  exact ok_foldl (fun s n h => State.setFlag_ok _ _ _ _ _ (State.setFld_ok _ _ _ _ _ (State.setFld_ok _ _ _ _ _ h))) _ h2

theorem flushQueues_ok {qq : List Instr} (s : State) (hs : Ok qq s) : Ok qq (flushQueues s) := by
  unfold flushQueues
  repeat' first
    | with_reducible assumption
    | with_reducible apply queFlush_ok
    | (with_reducible refine ok_foldl ?_ _ ?_; intro _ _ _)

theorem drainOutputs_ok {qq : List Instr} (s : State) (hs : Ok qq s) : Ok qq (drainOutputs s) := by
  unfold drainOutputs
  repeat' first
    | with_reducible assumption
    | with_reducible apply outputDrain_ok
    | (with_reducible refine ok_foldl ?_ _ ?_; intro _ _ _)

theorem carryTrans_ok {qq : List Instr} (a0 : Nat) (a1 : Nat) (a2 : State) (ha2 : Ok qq a2) : Ok qq (carryTrans a0 a1 a2) := by
  revert ha2
  fun_induction carryTrans a0 a1 a2 <;> intro ha2
  all_goals repeat' first
    | with_reducible assumption
    | with_reducible refine (by assumption : Ok _ _ → Ok _ _) ?_
    | with_reducible apply deliver_ok

theorem drainSpine_ok {qq : List Instr} (keep : Nat → Bool) (s : State) (hs : Ok qq s) : Ok qq (drainSpine keep s) := by
  unfold drainSpine
  repeat' first
    | with_reducible assumption
    | with_reducible exact ok_mk (by assumption) rfl rfl rfl rfl rfl rfl rfl rfl rfl
    | (extract_lets +onlyGivenNames x; refine have hx : Ok qq x := ?_; ?_; rotate_left; clear_value x; rotate_right; subst x)
    | (extract_lets +onlyGivenNames x; clear_value x)
    | with_reducible apply carryTrans_ok
    | with_reducible apply drainOutputs_ok
    | with_reducible apply State.putRsp_ok
    | with_reducible apply State.bump_ok
    | with_reducible apply State.setFlag_ok
    | with_reducible apply State.setFld_ok
    | with_reducible apply ok_ite
    | (with_reducible refine ok_foldl ?_ _ ?_; intro _ _ _)

theorem settleEngines_ok {qq : List Instr} (s : State) (hs : Ok qq s) : Ok qq (settleEngines s) := by
  unfold settleEngines
  repeat' first
    | with_reducible exact ok_mk (by assumption) rfl rfl rfl rfl rfl rfl rfl rfl rfl

theorem warmStops_ok {qq : List Instr} (keep : Nat → Bool) (host : Bool) (s : State) (hs : Ok qq s) : Ok qq (warmStops keep host s) := by
  unfold warmStops
  repeat' first
    | with_reducible assumption
    | with_reducible exact ok_mk (by assumption) rfl rfl rfl rfl rfl rfl rfl rfl rfl
    | (extract_lets +onlyGivenNames x; refine have hx : Ok qq x := ?_; ?_; rotate_left; clear_value x; rotate_right; subst x)
    | (extract_lets +onlyGivenNames x; clear_value x)
    | with_reducible apply haltEngine_ok
    | with_reducible apply drainSpine_ok
    | with_reducible apply flushQueues_ok
    | with_reducible apply emptySched_ok
    | with_reducible apply ringsHalt_ok
    | with_reducible apply settleEngines_ok
    | with_reducible apply State.setFld_ok
    | with_reducible apply State.setFlag_ok
    | with_reducible apply resetCrossing_ok
    | with_reducible apply resetHostCrossings_ok
    | with_reducible apply ok_ite
    | (with_reducible refine ok_foldl ?_ _ ?_; intro _ _ _)

theorem warmRegs_ok {qq : List Instr} (s : State) (hs : Ok qq s) : Ok qq (warmRegs s) := by
  have hw : ∀ e : Nat × W64, (warmReg e).1 = e.1 := by
    intro e
    unfold warmReg
    cases RegMap.find e.1 <;> rfl
  refine State.setFlag_ok _ _ _ _ _ (State.setFlag_ok _ _ _ _ _ ?_)
  exact ok_mkBy hs rfl (Tab.wf_mapFilter 0 _ hw hs.inv.1.1 _ (fun e he => by simpa using he)) hs.inv.1.2 hs.inv.1.3 hs.engines hs.inv.2.2 hs.inv.2.3 hs.inv.2.4 hs.inv.2.5

theorem keepRings_ok {qq : List Instr} (keep : Nat → Bool) (old : State) (s : State) (_hold : Ok qq old) (hs : Ok qq s) : Ok qq (keepRings keep old s) := by
  unfold keepRings
  repeat' first
    | with_reducible assumption
    | with_reducible apply State.setReg_ok
    | with_reducible apply ok_ite
    | (with_reducible refine ok_foldl ?_ _ ?_; intro _ _ _)

theorem holdHere_ok {qq : List Instr} (s : State) (hs : Ok qq s) : Ok qq (holdHere s) := by
  unfold holdHere
  repeat' first
    | with_reducible assumption
    | (extract_lets +onlyGivenNames x; refine have hx : Ok qq x := ?_; ?_; rotate_left; clear_value x; rotate_right; subst x)
    | (extract_lets +onlyGivenNames x; clear_value x)
    | with_reducible apply pullGate_ok
    | with_reducible apply pinsSafe_ok
    | with_reducible apply holdDevice_ok
    | with_reducible apply State.setFlag_ok
    | (with_reducible refine ok_foldl ?_ _ ?_; intro _ _ _)

theorem holdAll_ok {qq : List Instr} (s : State) (hs : Ok qq s) : Ok qq (holdAll s) := by
  unfold holdAll
  repeat' first
    | with_reducible assumption
    | with_reducible exact ok_mk (by assumption) rfl rfl rfl rfl rfl rfl rfl rfl rfl
    | (extract_lets +onlyGivenNames x; refine have hx : Ok qq x := ?_; ?_; rotate_left; clear_value x; rotate_right; subst x)
    | (extract_lets +onlyGivenNames x; clear_value x)
    | with_reducible apply holdHere_ok
    | with_reducible apply State.setFld_ok
    | (with_reducible refine ok_foldl ?_ _ ?_; intro _ _ _)

theorem bootRestore_ok {qq : List Instr} (ws : List W64) (s : State) (hs : Ok qq s) : Ok qq (bootRestore ws s) := by
  unfold bootRestore
  repeat' first
    | with_reducible assumption
    | with_reducible exact ok_mk (by assumption) rfl rfl rfl rfl rfl rfl rfl rfl rfl
    | (extract_lets +onlyGivenNames x; refine have hx : Ok qq x := ?_; ?_; rotate_left; clear_value x; rotate_right; subst x)
    | (extract_lets +onlyGivenNames x; clear_value x)
    | with_reducible apply State.setFld_ok

theorem mapRestore_ok {qq : List Instr} (ws : List W64) (s : State) (hs : Ok qq s) : Ok qq (mapRestore ws s) := by
  unfold mapRestore
  repeat' first
    | with_reducible exact ok_mk (by assumption) rfl rfl rfl rfl rfl rfl rfl rfl rfl

theorem bootSave_ok {qq : List Instr} (s : State) (hs : Ok qq s) : Ok qq (bootSave s) := by
  unfold bootSave
  repeat' first
    | with_reducible assumption
    | with_reducible exact ok_mk (by assumption) rfl rfl rfl rfl rfl rfl rfl rfl rfl
    | (extract_lets +onlyGivenNames x; refine have hx : Ok qq x := ?_; ?_; rotate_left; clear_value x; rotate_right; subst x)
    | (extract_lets +onlyGivenNames x; clear_value x)
    | with_reducible apply raiseRecord_ok
    | with_reducible apply State.setFlag_ok
    | with_reducible apply ok_ite

theorem lifeLost_ok {qq : List Instr} (s : State) (hs : Ok qq s) : Ok qq (lifeLost s) := by
  unfold lifeLost
  repeat' first
    | with_reducible assumption
    | with_reducible exact ok_mk (by assumption) rfl rfl rfl rfl rfl rfl rfl rfl rfl
    | (extract_lets +onlyGivenNames x; refine have hx : Ok qq x := ?_; ?_; rotate_left; clear_value x; rotate_right; subst x)
    | (extract_lets +onlyGivenNames x; clear_value x)
    | with_reducible apply State.tookFree_ok
    | with_reducible apply State.setReg_ok
    | with_reducible apply ok_ite
    | split

theorem coldState_ok {qq : List Instr} (power : Bool) (held : Bool) (s : State) (hs : Ok qq s) : Ok qq (coldState power held s) := by
  unfold coldState
  extract_lets x1 x2 s1 s2 s3 s4 s5 s6 s7
  have h0 : Ok qq x1 := ok_ite (lifeLost_ok _ hs) hs
  clear_value x1
  have h3 : Ok qq s3 := ok_mkBy h0 rfl (Tab.wf_nil 0) Memory.wf_nil (Tab.wf_nil 0) ⟨rfl, fun _ h => (List.not_mem_nil h).elim⟩
    (Nat.zero_le _) (Nat.zero_le _) (by split; exact Nat.zero_le _; exact okPlanned h0) (Nat.zero_le _)
  have h4 : Ok qq s4 := ok_foldl (fun c e h => showPin_ok _ _ h) _ h3
  clear_value s4
  have h5 : Ok qq s5 := ok_foldl (fun c r h => State.setReg_ok _ _ _ _ _ h) _ h4
  clear_value s5
  have h6 : Ok qq s6 := ok_ite (State.setFld_ok _ _ _ _ _ h5) h5
  clear_value s6
  have h7 : Ok qq s7 := ok_ite (State.setFld_ok _ _ _ _ _ (State.setFld_ok _ _ _ _ _ h6)) h6
  exact ok_foldl (fun c b h => State.setFlag_ok _ _ _ _ _ h) _ (State.setFlag_ok _ _ _ _ _ h7)

theorem rstCause_ok {qq : List Instr} (cause : Nat) (warm : Bool) (s : State) (hs : Ok qq s) : Ok qq (rstCause cause warm s) := by
  unfold rstCause
  repeat' first
    | with_reducible assumption
    | with_reducible apply State.setReg_ok

theorem beginCold_ok {qq : List Instr} (cause : Nat) (power : Bool) (held : Bool) (s : State) (hs : Ok qq s) : Ok qq (beginCold cause power held s) := by
  unfold beginCold
  repeat' first
    | with_reducible assumption
    | with_reducible exact ok_mk (by assumption) rfl rfl rfl rfl rfl rfl rfl rfl rfl
    | (extract_lets +onlyGivenNames x; refine have hx : Ok qq x := ?_; ?_; rotate_left; clear_value x; rotate_right; subst x)
    | with_reducible apply rstCause_ok
    | with_reducible apply coldState_ok
    | with_reducible apply State.setPhase_ok
    | with_reducible apply State.setFld_ok

theorem warmToCold_ok {qq : List Instr} (zeroed : Bool) (s : State) (hs : Ok qq s) : Ok qq (warmToCold zeroed s) := by
  unfold warmToCold
  repeat' first
    | with_reducible assumption
    | with_reducible exact ok_mk (by assumption) rfl rfl rfl rfl rfl rfl rfl rfl rfl
    | (extract_lets +onlyGivenNames x; refine have hx : Ok qq x := ?_; ?_; rotate_left; clear_value x; rotate_right; subst x)
    | (extract_lets +onlyGivenNames x; clear_value x)
    | with_reducible apply State.noticeIf_ok
    | with_reducible apply beginCold_ok

theorem enterBist_ok {qq : List Instr} (analog : Bool) (s : State) (hs : Ok qq s) : Ok qq (enterBist analog s) := by
  have h := State.setPhase_ok s 4 hs
  refine showHealth_ok _ (ok_mkBy h rfl (okRegs h) (okMem h) (okFrames h) (okEngs h) (okWest h) (okEast h) (okPlanned hs) (okHeld h))

theorem bootFallback_ok {qq : List Instr} (s : State) (hs : Ok qq s) : Ok qq (bootFallback s) := by
  unfold bootFallback
  repeat' first
    | with_reducible assumption
    | with_reducible exact ok_mk (by assumption) rfl rfl rfl rfl rfl rfl rfl rfl rfl
    | (extract_lets +onlyGivenNames x; refine have hx : Ok qq x := ?_; ?_; rotate_left; clear_value x; rotate_right; subst x)
    | (extract_lets +onlyGivenNames x; clear_value x)
    | with_reducible apply State.setFld_ok
    | with_reducible apply State.alarm_ok
    | with_reducible apply State.setFlag_ok
    | with_reducible apply ok_ite
    | split

theorem countStart_ok {qq : List Instr} (s : State) (hs : Ok qq s) : Ok qq (countStart s) := by
  unfold countStart
  repeat' first
    | with_reducible assumption
    | with_reducible exact ok_mk (by assumption) rfl rfl rfl rfl rfl rfl rfl rfl rfl
    | (extract_lets +onlyGivenNames x; refine have hx : Ok qq x := ?_; ?_; rotate_left; clear_value x; rotate_right; subst x)
    | (extract_lets +onlyGivenNames x; clear_value x)
    | with_reducible apply State.setFld_ok
    | with_reducible apply bootSave_ok
    | with_reducible apply State.setPhase_ok
    | with_reducible apply ok_ite

theorem startLoads_ok {qq : List Instr} (s : State) (hs : Ok qq s) : Ok qq (startLoads s) := by
  unfold startLoads
  repeat' first
    | with_reducible assumption
    | with_reducible exact ok_mk (by assumption) rfl rfl rfl rfl rfl rfl rfl rfl rfl
    | (extract_lets +onlyGivenNames x; refine have hx : Ok qq x := ?_; ?_; rotate_left; clear_value x; rotate_right; subst x)
    | (extract_lets +onlyGivenNames x; (first | have hh : Sched := x | have hh : Hea := x | have hh : Ldr := x | have hh : Eng := x); clear hh; subst x)
    | with_reducible apply State.setFld_ok
    | with_reducible apply State.setLdrState_ok
    | with_reducible apply ldrFromSlot_ok
    | with_reducible apply ok_ite

theorem countedGo_ok {qq : List Instr} (s : State) (hs : Ok qq s) : Ok qq (countedGo s) := by
  unfold countedGo
  repeat' first
    | with_reducible assumption
    | with_reducible apply startLoads_ok
    | with_reducible apply ok_ite

theorem startLoad_ok {qq : List Instr} (s : State) (hs : Ok qq s) : Ok qq (startLoad s) := by
  unfold startLoad
  repeat' first
    | with_reducible assumption
    | (extract_lets +onlyGivenNames x; refine have hx : Ok qq x := ?_; ?_; rotate_left; clear_value x; rotate_right; subst x)
    | with_reducible apply State.setPhase_ok
    | with_reducible apply bootFallback_ok
    | with_reducible apply bootSave_ok
    | with_reducible apply countedGo_ok
    | with_reducible apply countStart_ok
    | with_reducible apply ok_ite

theorem bootTake_ok {qq : List Instr} (s : State) (hs : Ok qq s) : Ok qq (bootTake s) := by
  unfold bootTake
  repeat' first
    | with_reducible assumption
    | with_reducible exact ok_mk (by assumption) rfl rfl rfl rfl rfl rfl rfl rfl rfl
    | (extract_lets +onlyGivenNames x; refine have hx : Ok qq x := ?_; ?_; rotate_left; clear_value x; rotate_right; subst x)
    | (extract_lets +onlyGivenNames x; clear_value x)
    | with_reducible apply bootRestore_ok
    | with_reducible apply State.setFlag_ok
    | with_reducible apply State.setFld_ok
    | with_reducible apply ok_ite
    | split

theorem settingsTake_ok {qq : List Instr} (s : State) (hs : Ok qq s) : Ok qq (settingsTake s) := by
  unfold settingsTake
  repeat' first
    | with_reducible assumption
    | (extract_lets +onlyGivenNames x; refine have hx : Ok qq x := ?_; ?_; rotate_left; clear_value x; rotate_right; subst x)
    | (extract_lets +onlyGivenNames x; clear_value x)
    | with_reducible apply State.setReg_ok
    | with_reducible apply State.setFlag_ok
    | with_reducible apply State.setFld_ok
    | with_reducible apply ok_ite
    | (with_reducible refine ok_foldl ?_ _ ?_; intro _ _ _)

theorem mapDone_ok {qq : List Instr} (s : State) (hs : Ok qq s) : Ok qq (mapDone s) := by
  unfold mapDone
  repeat' first
    | with_reducible assumption
    | with_reducible exact ok_mk (by assumption) rfl rfl rfl rfl rfl rfl rfl rfl rfl
    | (extract_lets +onlyGivenNames x; refine have hx : Ok qq x := ?_; ?_; rotate_left; clear_value x; rotate_right; subst x)
    | (extract_lets +onlyGivenNames x; (first | have hh : Sched := x | have hh : Hea := x | have hh : Ldr := x | have hh : Eng := x); clear hh; subst x)
    | (extract_lets +onlyGivenNames x; clear_value x)
    | with_reducible apply bootTake_ok
    | with_reducible apply mapRestore_ok
    | with_reducible apply State.setFlag_ok
    | with_reducible apply settingsTake_ok
    | with_reducible apply fixHere_ok
    | with_reducible apply fixPlannedHere_ok
    | with_reducible apply startLoad_ok
    | with_reducible apply showHealth_ok
    | with_reducible apply showSpares_ok
    | (with_reducible refine ok_foldl ?_ _ ?_; intro _ _ _)
    | split

theorem fullBegins_ok {qq : List Instr} (s : State) (hs : Ok qq s) : Ok qq (fullBegins s) := by
  unfold fullBegins
  extract_lets l s1 s2
  have h1 : Ok qq s1 := holdHere_ok _ hs
  have h2 : Ok qq s2 := ok_foldl (fun s k h => State.setFld_ok _ _ _ _ _ h) _ h1
  clear_value s2
  exact ok_mkBy h2 rfl h2.inv.1.1 Memory.wf_nil (Tab.wf_nil 0) h2.engines h2.inv.2.2 h2.inv.2.3 h2.inv.2.4 h2.inv.2.5

theorem beginWarm_ok {qq : List Instr} (cause : Nat) (reload : Bool) (stream : Bool) (s : State) (hs : Ok qq s) : Ok qq (beginWarm cause reload stream s) := by
  unfold beginWarm
  repeat' first
    | with_reducible assumption
    | with_reducible exact ok_mk (by assumption) rfl rfl rfl rfl rfl rfl rfl rfl rfl
    | (extract_lets +onlyGivenNames x; refine have hx : Ok qq x := ?_; ?_; rotate_left; clear_value x; rotate_right; subst x)
    | (extract_lets +onlyGivenNames x; (first | have hh : Sched := x | have hh : Hea := x | have hh : Ldr := x | have hh : Eng := x); clear hh; subst x)
    | (extract_lets +onlyGivenNames x; clear_value x)
    | with_reducible apply ldrFail_ok
    | with_reducible apply finishFixes_ok
    | with_reducible apply resumeAll_ok
    | with_reducible apply keepRings_ok
    | with_reducible apply warmRegs_ok
    | with_reducible apply warmStops_ok
    | with_reducible apply rstCause_ok
    | with_reducible apply holdAll_ok
    | with_reducible apply warmToCold_ok
    | with_reducible apply mapRestore_ok
    | with_reducible apply State.setFld_ok
    | with_reducible apply enterBist_ok
    | with_reducible apply State.setPhase_ok
    | with_reducible apply ok_ite
    | split

theorem warmTested_ok {qq : List Instr} (s : State) (hs : Ok qq s) : Ok qq (warmTested s) := by
  unfold warmTested
  repeat' first
    | with_reducible assumption
    | (extract_lets +onlyGivenNames x; refine have hx : Ok qq x := ?_; ?_; rotate_left; clear_value x; rotate_right; subst x)
    | with_reducible apply fixPlannedHere_ok
    | with_reducible apply showHealth_ok
    | with_reducible apply State.setFlag_ok
    | with_reducible apply fullBegins_ok
    | with_reducible apply countedGo_ok
    | with_reducible apply countStart_ok
    | with_reducible apply State.setPhase_ok
    | with_reducible apply State.setHeldMask_ok
    | with_reducible apply ok_ite

theorem rootLock_ok {qq : List Instr} (s : State) (hs : Ok qq s) : Ok qq (rootLock s) := by
  unfold rootLock
  repeat' first
    | with_reducible assumption
    | with_reducible exact ok_mk (by assumption) rfl rfl rfl rfl rfl rfl rfl rfl rfl
    | (extract_lets +onlyGivenNames x; refine have hx : Ok qq x := ?_; ?_; rotate_left; clear_value x; rotate_right; subst x)
    | (extract_lets +onlyGivenNames x; clear_value x)
    | with_reducible apply State.setFlag_ok
    | with_reducible apply State.setFld_ok
    | with_reducible apply enterBist_ok
    | with_reducible apply State.setPhase_ok
    | with_reducible apply ok_ite

theorem execRootLock_ok {qq : List Instr} (s : State) (hs : Ok qq s) : OkOut qq (execRootLock s) := by
  unfold execRootLock
  repeat' first
    | with_reducible assumption
    | with_reducible refine OkOut.next ?_
    | with_reducible apply rootLock_ok

theorem startSucceeds_ok {qq : List Instr} (s : State) (hs : Ok qq s) : Ok qq (startSucceeds s) := by
  unfold startSucceeds
  repeat' first
    | with_reducible assumption
    | with_reducible exact ok_mk (by assumption) rfl rfl rfl rfl rfl rfl rfl rfl rfl
    | (extract_lets +onlyGivenNames x; refine have hx : Ok qq x := ?_; ?_; rotate_left; clear_value x; rotate_right; subst x)
    | (extract_lets +onlyGivenNames x; clear_value x)
    | with_reducible apply State.setFld_ok
    | with_reducible apply State.setFlag_ok
    | with_reducible apply bootSave_ok

theorem startHeld_ok {qq : List Instr} (s : State) (hs : Ok qq s) : Ok qq (startHeld s) := by
  unfold startHeld
  repeat' first
    | with_reducible assumption
    | with_reducible exact ok_mk (by assumption) rfl rfl rfl rfl rfl rfl rfl rfl rfl
    | (extract_lets +onlyGivenNames x; refine have hx : Ok qq x := ?_; ?_; rotate_left; clear_value x; rotate_right; subst x)
    | with_reducible apply State.setFld_ok
    | with_reducible apply State.setPhase_ok
    | with_reducible apply ok_ite

end Sys2Proof.Machine
end

