-- ==== Sys2Proof/Laws/OkLoading.lean ====
section
/-! SUPPORT. What the operations of Machine/Loading.lean keep: each takes a sound state with the same commands waiting to
such a state (see Laws/Ok.lean). -/

namespace Sys2Proof.Machine

theorem slotJudged_ok {qq : List Instr} (code : Nat) (s : State) (hs : Ok qq s) : Ok qq (slotJudged code s) := by
  unfold slotJudged
  repeat' first
    | with_reducible assumption
    | with_reducible apply completeDesc_ok
    | with_reducible apply ok_ite
    | (with_reducible refine ok_foldl ?_ _ ?_; intro _ _ _)

theorem leaderRefused_ok {qq : List Instr} (code : Nat) (l : List Byte) (s : State) (hs : Ok qq s) : Ok qq (leaderRefused code l s) := by
  unfold leaderRefused
  repeat' first
    | with_reducible assumption
    | (extract_lets +onlyGivenNames x; refine have hx : Ok qq x := ?_; ?_; rotate_left; clear_value x; rotate_right; subst x)
    | with_reducible apply pullGate_ok
    | with_reducible apply forward_ok
    | with_reducible apply State.setFlag_ok
    | with_reducible apply slotJudged_ok
    | with_reducible apply ldrFail_ok
    | with_reducible apply forwardEnd_ok
    | with_reducible apply ok_ite

theorem setLeader_ok {qq : List Instr} (l : List Byte) (s : State) (hs : Ok qq s) : Ok qq (setLeader l s) := by
  unfold setLeader
  repeat' first
    | with_reducible assumption
    | with_reducible apply State.setReg_ok
    | (with_reducible refine ok_foldl ?_ _ ?_; intro _ _ _)

theorem leaderAccepted_ok {qq : List Instr} (l : List Byte) (s : State) (hs : Ok qq s) : Ok qq (leaderAccepted l s) := by
  unfold leaderAccepted
  repeat' first
    | with_reducible assumption
    | with_reducible exact ok_mk (by assumption) rfl rfl rfl rfl rfl rfl rfl rfl rfl
    | (extract_lets +onlyGivenNames x; refine have hx : Ok qq x := ?_; ?_; rotate_left; clear_value x; rotate_right; subst x)
    | (extract_lets +onlyGivenNames x; (first | have hh : Sched := x | have hh : Hea := x | have hh : Ldr := x | have hh : Eng := x); clear hh; subst x)
    | (extract_lets +onlyGivenNames x; clear_value x)
    | with_reducible apply setLeader_ok
    | with_reducible apply State.setFlag_ok
    | with_reducible apply State.setFld_ok
    | with_reducible apply ldrEat_ok
    | with_reducible apply State.setLdrState_ok
    | with_reducible apply forward_ok
    | with_reducible apply slotJudged_ok
    | with_reducible apply State.raiseAction_ok
    | with_reducible apply fullBegins_ok
    | with_reducible apply beginWarm_ok
    | with_reducible apply ok_ite

theorem leader_ok {qq : List Instr} (s : State) (hs : Ok qq s) : Ok qq (leader s) := by
  unfold leader
  repeat' first
    | with_reducible assumption
    | (extract_lets +onlyGivenNames x; refine have hx : Ok qq x := ?_; ?_; rotate_left; clear_value x; rotate_right; subst x)
    | (extract_lets +onlyGivenNames x; clear_value x)
    | with_reducible apply ldrRefill_ok
    | with_reducible apply leaderAccepted_ok
    | with_reducible apply leaderRefused_ok
    | with_reducible apply ok_ite

theorem execStreamLeader_ok {qq : List Instr} (s : State) (hs : Ok qq s) : OkOut qq (execStreamLeader s) := by
  unfold execStreamLeader
  repeat' first
    | with_reducible assumption
    | with_reducible refine OkOut.next ?_
    | with_reducible apply leader_ok

theorem loadAbort_ok {qq : List Instr} (s : State) (hs : Ok qq s) : Ok qq (loadAbort s) := by
  unfold loadAbort
  repeat' first
    | with_reducible assumption
    | with_reducible apply ldrFail_ok
    | with_reducible apply ok_ite

theorem loadDiscard_ok {qq : List Instr} (s : State) (hs : Ok qq s) : Ok qq (loadDiscard s) := by
  unfold loadDiscard
  repeat' first
    | with_reducible assumption
    | (extract_lets +onlyGivenNames x; refine have hx : Ok qq x := ?_; ?_; rotate_left; clear_value x; rotate_right; subst x)
    | (extract_lets +onlyGivenNames x; (first | have hh : Sched := x | have hh : Hea := x | have hh : Ldr := x | have hh : Eng := x); clear hh; subst x)
    | (extract_lets +onlyGivenNames x; clear_value x)
    | with_reducible apply State.setHeldMask_ok
    | with_reducible apply ok_ite
    | (with_reducible refine ok_mkBy (by assumption) rfl ?_ ?_ ?_ ?_ ?_ ?_ ?_ ?_) <;> first | with_reducible exact okRegs (by assumption) | with_reducible exact okMem (by assumption) | with_reducible exact okFrames (by assumption) | with_reducible exact okEngs (by assumption) | with_reducible exact okWest (by assumption) | with_reducible exact okEast (by assumption) | with_reducible exact okPlanned (by assumption) | with_reducible exact okHeld (by assumption)

theorem execLoadAbort_ok {qq : List Instr} (w : Writer) (s : State) (hs : Ok qq s) : OkOut qq (execLoadAbort w s) := by
  unfold execLoadAbort
  repeat' first
    | with_reducible assumption
    | with_reducible refine OkOut.next ?_
    | with_reducible apply State.linked_ok
    | with_reducible apply State.wardenOr_ok
    | with_reducible apply loadAbort_ok
    | intro _ _

theorem execLoadDiscard_ok {qq : List Instr} (w : Writer) (s : State) (hs : Ok qq s) : OkOut qq (execLoadDiscard w s) := by
  unfold execLoadDiscard
  repeat' first
    | with_reducible assumption
    | with_reducible refine OkOut.next ?_
    | with_reducible apply State.linked_ok
    | with_reducible apply State.wardenOr_ok
    | with_reducible apply loadDiscard_ok
    | intro _ _

theorem configCheck_ok {qq : List Instr} (s : State) (hs : Ok qq s) : Ok qq (configCheck s) := by
  unfold configCheck
  repeat' first
    | with_reducible assumption
    | with_reducible exact ok_mk (by assumption) rfl rfl rfl rfl rfl rfl rfl rfl rfl
    | (extract_lets +onlyGivenNames x; refine have hx : Ok qq x := ?_; ?_; rotate_left; clear_value x; rotate_right; subst x)
    | (extract_lets +onlyGivenNames x; (first | have hh : Sched := x | have hh : Hea := x | have hh : Ldr := x | have hh : Eng := x); clear hh; subst x)
    | with_reducible apply State.setFlag_ok
    | with_reducible apply ok_ite

theorem execConfigCheck_ok {qq : List Instr} (w : Writer) (s : State) (hs : Ok qq s) : OkOut qq (execConfigCheck w s) := by
  unfold execConfigCheck
  repeat' first
    | with_reducible assumption
    | with_reducible refine OkOut.next ?_
    | with_reducible apply State.linked_ok
    | with_reducible apply State.wardenOr_ok
    | with_reducible apply configCheck_ok
    | intro _ _

theorem checkDone_ok {qq : List Instr} (s : State) (hs : Ok qq s) : Ok qq (checkDone s) := by
  unfold checkDone
  repeat' first
    | with_reducible assumption
    | with_reducible exact ok_mk (by assumption) rfl rfl rfl rfl rfl rfl rfl rfl rfl
    | (extract_lets +onlyGivenNames x; refine have hx : Ok qq x := ?_; ?_; rotate_left; clear_value x; rotate_right; subst x)
    | (extract_lets +onlyGivenNames x; clear_value x)
    | with_reducible apply State.setFld_ok
    | with_reducible apply State.setFlag_ok
    | with_reducible apply State.noticeIf_ok
    | (with_reducible refine ok_foldl ?_ _ ?_; intro _ _ _)

theorem checkLoads_ok {qq : List Instr} (s : State) (hs : Ok qq s) : Ok qq (checkLoads s) := by
  unfold checkLoads
  extract_lets x1 x2 s1 x3 s2
  have h0 : Ok qq x1 := State.setFlag_ok s Fld.stwRstCauseReloaded true 0 0 hs
  have h1 : Ok qq s1 := ok_mkBy h0 rfl h0.inv.1.1 h0.inv.1.2 h0.inv.1.3 h0.engines h0.inv.2.2 h0.inv.2.3 h0.inv.2.4 hs.inv.2.5
  refine ok_ite (ldrFromSlot_ok _ _ (State.setLdrState_ok _ _ h1)) ?_
  have h2 : Ok qq s2 := ok_mk h1 rfl rfl rfl rfl rfl rfl rfl rfl rfl
  exact State.setLdrState_ok _ _ (State.setHeldMask_ok _ _ h2)

theorem gateWait_ok {qq : List Instr} (s : State) (hs : Ok qq s) : Ok qq (gateWait s) := by
  unfold gateWait
  repeat' first
    | with_reducible assumption
    | (extract_lets +onlyGivenNames x; refine have hx : Ok qq x := ?_; ?_; rotate_left; clear_value x; rotate_right; subst x)
    | with_reducible apply State.setLdrState_ok
    | with_reducible apply State.setFlag_ok
    | with_reducible apply State.setPhase_ok
    | with_reducible apply ok_ite

theorem configCheckDone_ok {qq : List Instr} (s : State) (hs : Ok qq s) : Ok qq (configCheckDone s) := by
  unfold configCheckDone
  repeat' first
    | with_reducible assumption
    | (extract_lets +onlyGivenNames x; refine have hx : Ok qq x := ?_; ?_; rotate_left; clear_value x; rotate_right; subst x)
    | (extract_lets +onlyGivenNames x; clear_value x)
    | with_reducible apply checkDone_ok
    | with_reducible apply gateWait_ok
    | with_reducible apply checkLoads_ok
    | with_reducible apply ok_ite

theorem execConfigCheckDone_ok {qq : List Instr} (s : State) (hs : Ok qq s) : OkOut qq (execConfigCheckDone s) := by
  unfold execConfigCheckDone
  repeat' first
    | with_reducible assumption
    | with_reducible refine OkOut.next ?_
    | with_reducible apply configCheckDone_ok

theorem readback_ok {qq : List Instr} (s : State) (hs : Ok qq s) : Ok qq (readback s) := by
  unfold readback
  repeat' first
    | with_reducible assumption
    | (extract_lets +onlyGivenNames x; refine have hx : Ok qq x := ?_; ?_; rotate_left; clear_value x; rotate_right; subst x)
    | (extract_lets +onlyGivenNames x; clear_value x)
    | with_reducible apply State.setReg_ok
    | with_reducible apply State.setFlag_ok
    | with_reducible apply State.setFld_ok
    | (with_reducible refine ok_foldl ?_ _ ?_; intro _ _ _)

theorem rbSelWrite_ok {qq : List Instr} (w : Writer) (v : W32) (s : State) (hs : Ok qq s) : Ok qq (rbSelWrite w v s) := by
  unfold rbSelWrite
  repeat' first
    | with_reducible assumption
    | (extract_lets +onlyGivenNames x; refine have hx : Ok qq x := ?_; ?_; rotate_left; clear_value x; rotate_right; subst x)
    | (extract_lets +onlyGivenNames x; clear_value x)
    | with_reducible apply State.denyWarden_ok
    | with_reducible apply State.setReg_ok
    | with_reducible apply readback_ok
    | with_reducible apply State.setFlag_ok
    | with_reducible apply ok_ite

theorem execReadback_ok {qq : List Instr} (w : Writer) (v : W32) (s : State) (hs : Ok qq s) : OkOut qq (execReadback w v s) := by
  unfold execReadback
  repeat' first
    | with_reducible assumption
    | with_reducible refine OkOut.next ?_
    | with_reducible apply State.linked_ok
    | with_reducible apply rbSelWrite_ok

end Sys2Proof.Machine
end

