-- ==== Sys2Proof/Laws/OkArchive.lean ====
section
/-! SUPPORT. What the operations of Machine/Archive.lean keep: each takes a sound state with the same commands waiting to
such a state (see Laws/Ok.lean). -/

namespace Sys2Proof.Machine

theorem State.setBlock_ok {qq : List Instr} (s : State) (b : Nat) (x : Block) (hs : Ok qq s) : Ok qq (State.setBlock s b x) := by
  unfold State.setBlock
  repeat' first
    | with_reducible exact ok_mk (by assumption) rfl rfl rfl rfl rfl rfl rfl rfl rfl

theorem showArc_ok {qq : List Instr} (s : State) (hs : Ok qq s) : Ok qq (showArc s) := by
  unfold showArc
  repeat' first
    | with_reducible assumption
    | (extract_lets +onlyGivenNames x; refine have hx : Ok qq x := ?_; ?_; rotate_left; clear_value x; rotate_right; subst x)
    | (extract_lets +onlyGivenNames x; clear_value x)
    | with_reducible apply State.setFld_ok
    | with_reducible apply State.setFlag_ok
    | (with_reducible refine ok_foldl ?_ _ ?_; intro _ _ _)

theorem judgePool_ok {qq : List Instr} (before : State) (s : State) (_hbefore : Ok qq before) (hs : Ok qq s) : Ok qq (judgePool before s) := by
  unfold judgePool
  repeat' first
    | with_reducible assumption
    | with_reducible apply State.noticeIf_ok

theorem judgeRead_ok {qq : List Instr} (b : Nat) (bits : Nat) (s : State) (hs : Ok qq s) : Ok qq (judgeRead b bits s) := by
  unfold judgeRead
  repeat' first
    | with_reducible assumption
    | (extract_lets +onlyGivenNames x; refine have hx : Ok qq x := ?_; ?_; rotate_left; clear_value x; rotate_right; subst x)
    | (extract_lets +onlyGivenNames x; clear_value x)
    | with_reducible apply State.setBlock_ok
    | with_reducible apply State.setFld_ok
    | with_reducible apply State.noticeIf_ok
    | with_reducible apply State.bump_ok
    | with_reducible apply ok_ite

theorem retireBlock_ok {qq : List Instr} (b : Nat) (s : State) (hs : Ok qq s) : Ok qq (retireBlock b s) := by
  unfold retireBlock
  repeat' first
    | with_reducible assumption
    | with_reducible exact ok_mk (by assumption) rfl rfl rfl rfl rfl rfl rfl rfl rfl
    | (extract_lets +onlyGivenNames x; refine have hx : Ok qq x := ?_; ?_; rotate_left; clear_value x; rotate_right; subst x)
    | (extract_lets +onlyGivenNames x; clear_value x)
    | with_reducible apply State.setBlock_ok
    | with_reducible apply judgePool_ok
    | with_reducible apply State.noticeIf_ok
    | with_reducible apply State.bump_ok

theorem nandBlock_ok {qq : List Instr} (op : NandOp) (s : State) (hs : Ok qq s) : OkOpt qq (nandBlock op s) := by
  unfold nandBlock
  repeat' first
    | with_reducible assumption
    | (extract_lets +onlyGivenNames x; clear_value x)
    | with_reducible refine OkOpt.some ?_
    | with_reducible exact OkOpt.none
    | with_reducible apply judgeRead_ok
    | with_reducible apply judgePool_ok
    | with_reducible apply State.setBlock_ok
    | with_reducible apply retireBlock_ok
    | with_reducible apply okOpt_ite
    | split

theorem enqueue_ok {qq : List Instr} (n : Nat) (s : State) (hs : Ok qq s) : Ok qq (enqueue n s) := by
  unfold enqueue
  repeat' first
    | with_reducible exact ok_mk (by assumption) rfl rfl rfl rfl rfl rfl rfl rfl rfl
    | (extract_lets +onlyGivenNames x; clear_value x)
    | with_reducible apply State.setFld_ok

theorem showStaging_ok {qq : List Instr} (s : State) (hs : Ok qq s) : Ok qq (showStaging s) := by
  unfold showStaging
  repeat' first
    | with_reducible assumption
    | with_reducible apply State.setFld_ok
    | with_reducible apply State.setFlag_ok
    | (with_reducible refine ok_foldl ?_ _ ?_; intro _ _ _)
    | split

theorem arcBegin_ok {qq : List Instr} (n : Nat) (lost : Nat) (s : State) (hs : Ok qq s) : Ok qq (arcBegin n lost s) := by
  unfold arcBegin
  repeat' first
    | with_reducible assumption
    | with_reducible exact ok_mk (by assumption) rfl rfl rfl rfl rfl rfl rfl rfl rfl
    | (extract_lets +onlyGivenNames x; refine have hx : Ok qq x := ?_; ?_; rotate_left; clear_value x; rotate_right; subst x)
    | (extract_lets +onlyGivenNames x; clear_value x)
    | with_reducible apply completeDesc_ok
    | with_reducible apply enqueue_ok
    | with_reducible apply setTransfer_ok
    | with_reducible apply jobChunk_ok
    | with_reducible apply showStaging_ok
    | with_reducible apply State.raiseAction_ok
    | with_reducible apply ldrFromSlot_ok
    | with_reducible apply State.setJob_ok
    | with_reducible apply ok_ite
    | split

theorem arcFinish_ok {qq : List Instr} (n : Nat) (s : State) (hs : Ok qq s) : Ok qq (arcFinish n s) := by
  unfold arcFinish
  repeat' first
    | with_reducible assumption
    | (extract_lets +onlyGivenNames x; clear_value x)
    | with_reducible apply completeDesc_ok
    | with_reducible apply ok_ite
    | split

theorem arcRow_ok {qq : List Instr} (n : Nat) (row : Nat) (lost : Nat) (s : State) (hs : Ok qq s) : Ok qq (arcRow n row lost s) := by
  unfold arcRow
  repeat' first
    | with_reducible assumption
    | with_reducible apply arcFinish_ok
    | with_reducible apply descStep_ok
    | with_reducible apply arcBegin_ok

theorem execArcRead_ok {qq : List Instr} (n : Fin 64) (lost : Fin 4) (s : State) (hs : Ok qq s) : OkOut qq (execArcRead n lost s) := by
  unfold execArcRead
  repeat' first
    | with_reducible assumption
    | with_reducible refine OkOut.next ?_
    | with_reducible apply arcRow_ok

theorem execArcWrite_ok {qq : List Instr} (n : Fin 64) (lost : Fin 4) (s : State) (hs : Ok qq s) : OkOut qq (execArcWrite n lost s) := by
  unfold execArcWrite
  repeat' first
    | with_reducible assumption
    | with_reducible refine OkOut.next ?_
    | with_reducible apply arcRow_ok

theorem execArcTrim_ok {qq : List Instr} (n : Fin 64) (s : State) (hs : Ok qq s) : OkOut qq (execArcTrim n s) := by
  unfold execArcTrim
  repeat' first
    | with_reducible assumption
    | with_reducible refine OkOut.next ?_
    | with_reducible apply arcRow_ok

theorem execRecRead_ok {qq : List Instr} (n : Fin 64) (lost : Fin 4) (s : State) (hs : Ok qq s) : OkOut qq (execRecRead n lost s) := by
  unfold execRecRead
  repeat' first
    | with_reducible assumption
    | with_reducible refine OkOut.next ?_
    | with_reducible apply arcRow_ok

theorem execRecWrite_ok {qq : List Instr} (n : Fin 64) (lost : Fin 4) (s : State) (hs : Ok qq s) : OkOut qq (execRecWrite n lost s) := by
  unfold execRecWrite
  repeat' first
    | with_reducible assumption
    | with_reducible refine OkOut.next ?_
    | with_reducible apply arcRow_ok

theorem execRecDelete_ok {qq : List Instr} (n : Fin 64) (s : State) (hs : Ok qq s) : OkOut qq (execRecDelete n s) := by
  unfold execRecDelete
  repeat' first
    | with_reducible assumption
    | with_reducible refine OkOut.next ?_
    | with_reducible apply arcRow_ok

theorem execImgOpen_ok {qq : List Instr} (n : Fin 64) (s : State) (hs : Ok qq s) : OkOut qq (execImgOpen n s) := by
  unfold execImgOpen
  repeat' first
    | with_reducible assumption
    | with_reducible refine OkOut.next ?_
    | with_reducible apply arcRow_ok

theorem execImgWrite_ok {qq : List Instr} (n : Fin 64) (lost : Fin 4) (s : State) (hs : Ok qq s) : OkOut qq (execImgWrite n lost s) := by
  unfold execImgWrite
  repeat' first
    | with_reducible assumption
    | with_reducible refine OkOut.next ?_
    | with_reducible apply arcRow_ok

theorem execImgCommit_ok {qq : List Instr} (n : Fin 64) (s : State) (hs : Ok qq s) : OkOut qq (execImgCommit n s) := by
  unfold execImgCommit
  repeat' first
    | with_reducible assumption
    | with_reducible refine OkOut.next ?_
    | with_reducible apply arcRow_ok

theorem execImgRead_ok {qq : List Instr} (n : Fin 64) (lost : Fin 4) (s : State) (hs : Ok qq s) : OkOut qq (execImgRead n lost s) := by
  unfold execImgRead
  repeat' first
    | with_reducible assumption
    | with_reducible refine OkOut.next ?_
    | with_reducible apply arcRow_ok

theorem execSlotSelect_ok {qq : List Instr} (n : Fin 64) (s : State) (hs : Ok qq s) : OkOut qq (execSlotSelect n s) := by
  unfold execSlotSelect
  repeat' first
    | with_reducible assumption
    | with_reducible refine OkOut.next ?_
    | with_reducible apply arcRow_ok

theorem execArcFormat_ok {qq : List Instr} (n : Fin 64) (s : State) (hs : Ok qq s) : OkOut qq (execArcFormat n s) := by
  unfold execArcFormat
  repeat' first
    | with_reducible assumption
    | with_reducible refine OkOut.next ?_
    | with_reducible apply arcRow_ok

theorem loadSlot_ok {qq : List Instr} (n : Nat) (s : State) (hs : Ok qq s) : Ok qq (loadSlot n s) := by
  unfold loadSlot
  repeat' first
    | with_reducible assumption
    | (extract_lets +onlyGivenNames x; refine have hx : Ok qq x := ?_; ?_; rotate_left; clear_value x; rotate_right; subst x)
    | (extract_lets +onlyGivenNames x; clear_value x)
    | with_reducible apply ldrRefill_ok
    | with_reducible apply descStep_ok
    | with_reducible apply arcBegin_ok
    | with_reducible apply completeDesc_ok
    | with_reducible apply ok_ite

theorem execLoadSlot_ok {qq : List Instr} (n : Fin 64) (s : State) (hs : Ok qq s) : OkOut qq (execLoadSlot n s) := by
  unfold execLoadSlot
  repeat' first
    | with_reducible assumption
    | with_reducible refine OkOut.next ?_
    | with_reducible apply loadSlot_ok

theorem freeWords_ok {qq : List Instr} (k : Nat) (s : State) (hs : Ok qq s) : Ok qq (freeWords k s).1 := by
  unfold freeWords
  repeat' first
    | with_reducible exact ok_mk (by assumption) rfl rfl rfl rfl rfl rfl rfl rfl rfl

theorem nandDeliver_ok {qq : List Instr} (n : Nat) (at' : Nat) (bits : Nat) (ws : List W64) (s : State) (hs : Ok qq s) : Ok qq (nandDeliver n at' bits ws s) := by
  unfold nandDeliver
  repeat' first
    | with_reducible assumption
    | with_reducible apply freeWords_ok
    | with_reducible apply State.setJob_ok
    | with_reducible apply okFst_ite

theorem putSector_ok {qq : List Instr} (lba : Nat) (ws : List W64) (s : State) (hs : Ok qq s) : Ok qq (putSector lba ws s) := by
  unfold putSector
  repeat' first
    | with_reducible exact ok_mk (by assumption) rfl rfl rfl rfl rfl rfl rfl rfl rfl

theorem setRecord_ok {qq : List Instr} (key : Nat) (ws : List W64) (s : State) (hs : Ok qq s) : Ok qq (setRecord key ws s) := by
  unfold setRecord
  repeat' first
    | with_reducible exact ok_mk (by assumption) rfl rfl rfl rfl rfl rfl rfl rfl rfl

theorem commitImage_ok {qq : List Instr} (n : Nat) (s : State) (hs : Ok qq s) : Ok qq (commitImage n s) := by
  unfold commitImage
  repeat' first
    | with_reducible assumption
    | with_reducible exact ok_mk (by assumption) rfl rfl rfl rfl rfl rfl rfl rfl rfl
    | (extract_lets +onlyGivenNames x; refine have hx : Ok qq x := ?_; ?_; rotate_left; clear_value x; rotate_right; subst x)
    | (extract_lets +onlyGivenNames x; clear_value x)
    | with_reducible apply completeDesc_ok
    | with_reducible apply State.setFlag_ok
    | with_reducible apply showArc_ok
    | with_reducible apply showStaging_ok
    | with_reducible apply ok_ite
    | split

theorem selectSlot_ok {qq : List Instr} (n : Nat) (s : State) (hs : Ok qq s) : Ok qq (selectSlot n s) := by
  unfold selectSlot
  repeat' first
    | with_reducible assumption
    | with_reducible exact ok_mk (by assumption) rfl rfl rfl rfl rfl rfl rfl rfl rfl
    | (extract_lets +onlyGivenNames x; refine have hx : Ok qq x := ?_; ?_; rotate_left; clear_value x; rotate_right; subst x)
    | (extract_lets +onlyGivenNames x; clear_value x)
    | with_reducible apply completeDesc_ok
    | with_reducible apply State.dropAction_ok
    | with_reducible apply State.setFld_ok
    | with_reducible apply State.setFlag_ok
    | with_reducible apply bootSave_ok
    | with_reducible apply showArc_ok
    | with_reducible apply ok_ite

theorem arcJob_ok {qq : List Instr} (n : Nat) (bits : Nat) (s : State) (hs : Ok qq s) : Ok qq (arcJob n bits s) := by
  unfold arcJob
  repeat' first
    | with_reducible assumption
    | with_reducible exact ok_mk (by assumption) rfl rfl rfl rfl rfl rfl rfl rfl rfl
    | (extract_lets +onlyGivenNames x; refine have hx : Ok qq x := ?_; ?_; rotate_left; clear_value x; rotate_right; subst x)
    | (extract_lets +onlyGivenNames x; clear_value x)
    | with_reducible apply arcFinish_ok
    | with_reducible apply nandDeliver_ok
    | with_reducible apply putSector_ok
    | with_reducible apply State.setJob_ok
    | with_reducible apply completeDesc_ok
    | with_reducible apply freeWords_ok
    | with_reducible apply setRecord_ok
    | with_reducible apply commitImage_ok
    | with_reducible apply selectSlot_ok
    | with_reducible apply ok_ite
    | with_reducible apply okFst_ite
    | split

theorem formatDone_ok {qq : List Instr} (n : Nat) (bad : List Nat) (s : State) (hs : Ok qq s) : Ok qq (formatDone n bad s) := by
  unfold formatDone
  repeat' first
    | with_reducible assumption
    | with_reducible exact ok_mk (by assumption) rfl rfl rfl rfl rfl rfl rfl rfl rfl
    | (extract_lets +onlyGivenNames x; refine have hx : Ok qq x := ?_; ?_; rotate_left; clear_value x; rotate_right; subst x)
    | (extract_lets +onlyGivenNames x; clear_value x)
    | with_reducible apply State.tookFree_ok
    | with_reducible apply completeDesc_ok
    | with_reducible apply State.setFlag_ok
    | with_reducible apply showArc_ok
    | with_reducible apply showStaging_ok
    | with_reducible apply State.setFld_ok
    | with_reducible apply ok_ite

theorem recordDone_ok {qq : List Instr} (key : Nat) (s : State) (hs : Ok qq s) : Ok qq (recordDone key s) := by
  unfold recordDone
  repeat' first
    | with_reducible assumption
    | with_reducible exact ok_mk (by assumption) rfl rfl rfl rfl rfl rfl rfl rfl rfl
    | (extract_lets +onlyGivenNames x; refine have hx : Ok qq x := ?_; ?_; rotate_left; clear_value x; rotate_right; subst x)
    | (extract_lets +onlyGivenNames x; clear_value x)
    | with_reducible apply State.dropAction_ok
    | with_reducible apply setRecord_ok
    | with_reducible apply State.setFlag_ok
    | with_reducible apply startLoads_ok
    | with_reducible apply ok_ite
    | split

theorem arcRuns_ok {qq : List Instr} (fault : Nat) (s : State) (hs : Ok qq s) : Ok qq (arcRuns fault s) := by
  unfold arcRuns
  repeat' first
    | with_reducible assumption
    | with_reducible exact ok_mk (by assumption) rfl rfl rfl rfl rfl rfl rfl rfl rfl
    | (extract_lets +onlyGivenNames x; refine have hx : Ok qq x := ?_; ?_; rotate_left; clear_value x; rotate_right; subst x)
    | (extract_lets +onlyGivenNames x; clear_value x)
    | with_reducible apply State.setFlag_ok
    | with_reducible apply State.setFld_ok
    | with_reducible apply showArc_ok
    | with_reducible apply enterBist_ok
    | with_reducible apply ok_ite

theorem arcStarted_ok {qq : List Instr} (present : Nat) (ignored : Nat) (page : Nat) (pages : Nat) (luns : Nat) (blocks : Nat) (modes : Nat) (copies : Nat) (s : State) (hs : Ok qq s) : Ok qq (arcStarted present ignored page pages luns blocks modes copies s) := by
  unfold arcStarted
  repeat' first
    | with_reducible assumption
    | with_reducible exact ok_mk (by assumption) rfl rfl rfl rfl rfl rfl rfl rfl rfl
    | (extract_lets +onlyGivenNames x; refine have hx : Ok qq x := ?_; ?_; rotate_left; clear_value x; rotate_right; subst x)
    | (extract_lets +onlyGivenNames x; clear_value x)
    | with_reducible apply State.setFld_ok
    | with_reducible apply arcRuns_ok
    | with_reducible apply State.noticeIf_ok
    | with_reducible apply State.setFlag_ok
    | with_reducible apply ok_ite

theorem imageRead_ok {qq : List Instr} (bits : Nat) (s : State) (hs : Ok qq s) : Ok qq (imageRead bits s) := by
  unfold imageRead
  repeat' first
    | with_reducible assumption
    | with_reducible apply ldrFail_ok
    | with_reducible apply ok_ite

theorem nandDone_ok {qq : List Instr} (op : NandOp) (use : NandUse) (s : State) (hs : Ok qq s) : Ok qq (nandDone op use s) := by
  unfold nandDone
  repeat' first
    | with_reducible assumption
    | (extract_lets +onlyGivenNames x; refine have hx : Ok qq x := ?_; ?_; rotate_left; clear_value x; rotate_right; subst x)
    | with_reducible refine ok_mk (ok_opt (by assumption) ?_) rfl rfl rfl rfl rfl rfl rfl rfl rfl
    | with_reducible apply nandBlock_ok
    | with_reducible apply arcJob_ok
    | with_reducible apply formatDone_ok
    | with_reducible apply recordDone_ok
    | with_reducible apply imageRead_ok
    | with_reducible apply arcStarted_ok
    | with_reducible apply showArc_ok
    | with_reducible apply ok_ite
    | split

theorem execNandOpDone_ok {qq : List Instr} (op : NandOp) (use : NandUse) (s : State) (hs : Ok qq s) : OkOut qq (execNandOpDone op use s) := by
  unfold execNandOpDone
  repeat' first
    | with_reducible assumption
    | with_reducible refine OkOut.next ?_
    | with_reducible apply nandDone_ok

theorem patrolRead_ok {qq : List Instr} (b : Nat) (bits : Nat) (last : Bool) (s : State) (hs : Ok qq s) : Ok qq (patrolRead b bits last s) := by
  unfold patrolRead
  repeat' first
    | with_reducible assumption
    | with_reducible exact ok_mk (by assumption) rfl rfl rfl rfl rfl rfl rfl rfl rfl
    | (extract_lets +onlyGivenNames x; refine have hx : Ok qq x := ?_; ?_; rotate_left; clear_value x; rotate_right; subst x)
    | (extract_lets +onlyGivenNames x; clear_value x)
    | with_reducible apply showArc_ok
    | with_reducible apply judgeRead_ok
    | with_reducible apply State.setFlag_ok
    | with_reducible apply State.bump_ok
    | with_reducible apply ok_ite

theorem execPatrolRead_ok {qq : List Instr} (block : BitVec 24) (bits : Byte) (last : Bool) (s : State) (hs : Ok qq s) : OkOut qq (execPatrolRead block bits last s) := by
  unfold execPatrolRead
  repeat' first
    | with_reducible assumption
    | with_reducible refine OkOut.next ?_
    | with_reducible apply patrolRead_ok

theorem patrolGo_ok {qq : List Instr} (s : State) (hs : Ok qq s) : Ok qq (patrolGo s) := by
  unfold patrolGo
  repeat' first
    | with_reducible assumption
    | with_reducible apply State.setFlag_ok
    | with_reducible apply ok_ite

theorem execPatrolGo_ok {qq : List Instr} (w : Writer) (s : State) (hs : Ok qq s) : OkOut qq (execPatrolGo w s) := by
  unfold execPatrolGo
  repeat' first
    | with_reducible assumption
    | with_reducible refine OkOut.next ?_
    | with_reducible apply State.linked_ok
    | with_reducible apply patrolGo_ok

theorem execPatrolPlaceSave_ok {qq : List Instr} (s : State) (hs : Ok qq s) : OkOut qq (execPatrolPlaceSave s) := by
  unfold execPatrolPlaceSave
  repeat' first
    | with_reducible assumption
    | with_reducible refine OkOut.next ?_
    | with_reducible apply setRecord_ok
    | with_reducible apply ok_ite

theorem archiveEnable_ok {qq : List Instr} (s : State) (hs : Ok qq s) : Ok qq (archiveEnable s) := by
  unfold archiveEnable
  repeat' first
    | with_reducible assumption
    | with_reducible exact ok_mk (by assumption) rfl rfl rfl rfl rfl rfl rfl rfl rfl
    | (extract_lets +onlyGivenNames x; refine have hx : Ok qq x := ?_; ?_; rotate_left; clear_value x; rotate_right; subst x)
    | (extract_lets +onlyGivenNames x; clear_value x)
    | with_reducible apply State.setFlag_ok
    | with_reducible apply State.setFld_ok
    | split

theorem archiveDisable_ok {qq : List Instr} (s : State) (hs : Ok qq s) : Ok qq (archiveDisable s) := by
  unfold archiveDisable
  repeat' first
    | with_reducible assumption
    | with_reducible exact ok_mk (by assumption) rfl rfl rfl rfl rfl rfl rfl rfl rfl
    | (extract_lets +onlyGivenNames x; refine have hx : Ok qq x := ?_; ?_; rotate_left; clear_value x; rotate_right; subst x)
    | (extract_lets +onlyGivenNames x; clear_value x)
    | with_reducible apply State.setFlag_ok
    | with_reducible apply State.setFld_ok
    | split

theorem execArchiveEnable_ok {qq : List Instr} (w : Writer) (s : State) (hs : Ok qq s) : OkOut qq (execArchiveEnable w s) := by
  unfold execArchiveEnable
  repeat' first
    | with_reducible assumption
    | with_reducible refine OkOut.next ?_
    | with_reducible apply State.linked_ok
    | with_reducible apply archiveEnable_ok

theorem execArchiveDisable_ok {qq : List Instr} (w : Writer) (s : State) (hs : Ok qq s) : OkOut qq (execArchiveDisable w s) := by
  unfold execArchiveDisable
  repeat' first
    | with_reducible assumption
    | with_reducible refine OkOut.next ?_
    | with_reducible apply State.linked_ok
    | with_reducible apply archiveDisable_ok

theorem archiveStopDone_ok {qq : List Instr} (s : State) (hs : Ok qq s) : Ok qq (archiveStopDone s) := by
  unfold archiveStopDone
  repeat' first
    | with_reducible assumption
    | with_reducible exact ok_mk (by assumption) rfl rfl rfl rfl rfl rfl rfl rfl rfl
    | (extract_lets +onlyGivenNames x; refine have hx : Ok qq x := ?_; ?_; rotate_left; clear_value x; rotate_right; subst x)
    | (extract_lets +onlyGivenNames x; clear_value x)
    | with_reducible apply completeDesc_ok
    | with_reducible apply showStaging_ok
    | with_reducible apply State.setFlag_ok
    | with_reducible apply State.setFld_ok
    | with_reducible apply showArc_ok
    | with_reducible apply ok_ite
    | (with_reducible refine ok_foldl ?_ _ ?_; intro _ _ _)

theorem execArchiveStopDone_ok {qq : List Instr} (s : State) (hs : Ok qq s) : OkOut qq (execArchiveStopDone s) := by
  unfold execArchiveStopDone
  repeat' first
    | with_reducible assumption
    | with_reducible refine OkOut.next ?_
    | with_reducible apply archiveStopDone_ok

theorem arcRefused_ok {qq : List Instr} (code : Nat) (s : State) (hs : Ok qq s) : Ok qq (arcRefused code s) := by
  unfold arcRefused
  repeat' first
    | with_reducible assumption
    | with_reducible apply State.refuse_ok

theorem arcIfWrite_ok {qq : List Instr} (v : W32) (s : State) (hs : Ok qq s) : Ok qq (arcIfWrite v s) := by
  unfold arcIfWrite
  repeat' first
    | with_reducible assumption
    | (extract_lets +onlyGivenNames x; clear_value x)
    | (extract_lets +onlyGivenNames x; subst x)
    | with_reducible apply arcRefused_ok
    | with_reducible apply State.setReg_ok
    | with_reducible apply ok_ite

theorem execArcIfWrite_ok {qq : List Instr} (w : Writer) (v : W32) (s : State) (hs : Ok qq s) : OkOut qq (execArcIfWrite w v s) := by
  unfold execArcIfWrite
  repeat' first
    | with_reducible assumption
    | with_reducible refine OkOut.next ?_
    | with_reducible apply State.linked_ok
    | with_reducible apply arcIfWrite_ok

theorem arcCfgWrite_ok {qq : List Instr} (v : W32) (s : State) (hs : Ok qq s) : Ok qq (arcCfgWrite v s) := by
  unfold arcCfgWrite
  repeat' first
    | with_reducible assumption
    | (extract_lets +onlyGivenNames x; clear_value x)
    | with_reducible apply arcRefused_ok
    | with_reducible apply State.setReg_ok
    | with_reducible apply ok_ite

theorem execArcCfgWrite_ok {qq : List Instr} (w : Writer) (v : W32) (s : State) (hs : Ok qq s) : OkOut qq (execArcCfgWrite w v s) := by
  unfold execArcCfgWrite
  repeat' first
    | with_reducible assumption
    | with_reducible refine OkOut.next ?_
    | with_reducible apply State.linked_ok
    | with_reducible apply arcCfgWrite_ok

theorem arcCntClr_ok {qq : List Instr} (s : State) (hs : Ok qq s) : Ok qq (arcCntClr s) := by
  unfold arcCntClr
  repeat' first
    | with_reducible assumption
    | with_reducible apply State.setReg_ok

theorem execArcCntClr_ok {qq : List Instr} (w : Writer) (s : State) (hs : Ok qq s) : OkOut qq (execArcCntClr w s) := by
  unfold execArcCntClr
  repeat' first
    | with_reducible assumption
    | with_reducible refine OkOut.next ?_
    | with_reducible apply State.linked_ok
    | with_reducible apply arcCntClr_ok

end Sys2Proof.Machine
end

