-- ==== Sys2Proof/Laws/OkHealth.lean ====
section
/-! SUPPORT. What the operations of Machine/Health.lean keep: each takes a sound state with the same commands waiting to
such a state (see Laws/Ok.lean). -/

namespace Sys2Proof.Machine

theorem startRequest_ok {qq : List Instr} (kind : Nat) (s : State) (hs : Ok qq s) : Ok qq (startRequest kind s) := by
  unfold startRequest
  repeat' first
    | with_reducible assumption
    | with_reducible apply State.setFld_ok
    | with_reducible apply beginWarm_ok
    | with_reducible apply beginCold_ok
    | with_reducible apply ok_ite
    | split

theorem startWrite_ok {qq : List Instr} (w : Writer) (v : W32) (s : State) (hs : Ok qq s) : Ok qq (startWrite w v s) := by
  unfold startWrite
  repeat' first
    | with_reducible assumption
    | with_reducible apply State.wardenOr_ok
    | with_reducible apply startRequest_ok
    | with_reducible apply ok_ite
    | (with_reducible refine ok_foldl ?_ _ ?_; intro _ _ _)
    | intro _ _

theorem execStartWarm_ok {qq : List Instr} (w : Writer) (s : State) (hs : Ok qq s) : OkOut qq (execStartWarm w s) := by
  unfold execStartWarm
  repeat' first
    | with_reducible assumption
    | with_reducible refine OkOut.next ?_
    | with_reducible apply State.linked_ok
    | with_reducible apply startWrite_ok

theorem execStartReload_ok {qq : List Instr} (w : Writer) (s : State) (hs : Ok qq s) : OkOut qq (execStartReload w s) := by
  unfold execStartReload
  repeat' first
    | with_reducible assumption
    | with_reducible refine OkOut.next ?_
    | with_reducible apply State.linked_ok
    | with_reducible apply startWrite_ok

theorem execStartCold_ok {qq : List Instr} (w : Writer) (s : State) (hs : Ok qq s) : OkOut qq (execStartCold w s) := by
  unfold execStartCold
  repeat' first
    | with_reducible assumption
    | with_reducible refine OkOut.next ?_
    | with_reducible apply State.linked_ok
    | with_reducible apply startWrite_ok

theorem takeStraps_ok {qq : List Instr} (straps : BitVec 8) (s : State) (hs : Ok qq s) : Ok qq (takeStraps straps s) := by
  unfold takeStraps
  repeat' first
    | with_reducible exact ok_mk (by assumption) rfl rfl rfl rfl rfl rfl rfl rfl rfl

theorem workEnds_ok {qq : List Instr} (s : State) (hs : Ok qq s) : Ok qq (workEnds s) := by
  unfold workEnds
  extract_lets x s1 s2 y s3 s4
  have h1 : Ok qq s1 := ok_mk hs rfl rfl rfl rfl rfl rfl rfl rfl rfl
  have h2 : Ok qq s2 := ok_ite (ldrFail_ok _ _ h1) h1
  have h3 : Ok qq s3 := ok_mk h2 rfl rfl rfl rfl rfl rfl rfl rfl rfl
  have h4 : Ok qq s4 := ok_ite (State.setFld_ok _ _ _ _ _ (State.setFld_ok _ _ _ _ _ h3)) h3
  exact State.setPhase_ok _ _ h4

theorem xresetAssert_ok {qq : List Instr} (s : State) (hs : Ok qq s) : Ok qq (xresetAssert s) := by
  unfold xresetAssert
  repeat' first
    | with_reducible assumption
    | with_reducible exact ok_mk (by assumption) rfl rfl rfl rfl rfl rfl rfl rfl rfl
    | (extract_lets +onlyGivenNames x; refine have hx : Ok qq x := ?_; ?_; rotate_left; clear_value x; rotate_right; subst x)
    | (extract_lets +onlyGivenNames x; clear_value x)
    | with_reducible apply workEnds_ok
    | with_reducible apply showHealth_ok
    | with_reducible apply State.setFlag_ok
    | with_reducible apply holdHere_ok

theorem execXresetAssert_ok {qq : List Instr} (s : State) (hs : Ok qq s) : OkOut qq (execXresetAssert s) := by
  unfold execXresetAssert
  repeat' first
    | with_reducible assumption
    | with_reducible refine OkOut.next ?_
    | with_reducible apply xresetAssert_ok

theorem xresetRise_ok {qq : List Instr} (straps : BitVec 8) (s : State) (hs : Ok qq s) : Ok qq (xresetRise straps s) := by
  unfold xresetRise
  repeat' first
    | with_reducible assumption
    | (extract_lets +onlyGivenNames x; refine have hx : Ok qq x := ?_; ?_; rotate_left; clear_value x; rotate_right; subst x)
    | with_reducible apply takeStraps_ok
    | with_reducible apply State.setFld_ok
    | with_reducible apply State.setFlag_ok
    | with_reducible apply beginWarm_ok
    | with_reducible apply beginCold_ok
    | with_reducible apply ok_ite

theorem execXresetRise_ok {qq : List Instr} (straps : Byte) (s : State) (hs : Ok qq s) : OkOut qq (execXresetRise straps s) := by
  unfold execXresetRise
  repeat' first
    | with_reducible assumption
    | with_reducible refine OkOut.next ?_
    | with_reducible apply xresetRise_ok

theorem execPowerValid_ok {qq : List Instr} (straps : Byte) (held : Bool) (s : State) (hs : Ok qq s) : OkOut qq (execPowerValid straps held s) := by
  unfold execPowerValid
  repeat' first
    | with_reducible assumption
    | with_reducible refine OkOut.next ?_
    | with_reducible apply beginCold_ok
    | with_reducible apply takeStraps_ok

theorem bootConfirm_ok {qq : List Instr} (s : State) (hs : Ok qq s) : Ok qq (bootConfirm s) := by
  unfold bootConfirm
  repeat' first
    | with_reducible assumption
    | with_reducible apply startSucceeds_ok
    | with_reducible apply ok_ite

theorem execBootConfirm_ok {qq : List Instr} (w : Writer) (s : State) (hs : Ok qq s) : OkOut qq (execBootConfirm w s) := by
  unfold execBootConfirm
  repeat' first
    | with_reducible assumption
    | with_reducible refine OkOut.next ?_
    | with_reducible apply State.linked_ok
    | with_reducible apply State.wardenOr_ok
    | with_reducible apply bootConfirm_ok
    | intro _ _

theorem execConfirmTimeoutExpiry_ok {qq : List Instr} (s : State) (hs : Ok qq s) : OkOut qq (execConfirmTimeoutExpiry s) := by
  unfold execConfirmTimeoutExpiry
  repeat' first
    | with_reducible assumption
    | with_reducible refine OkOut.next ?_
    | with_reducible apply startFailed_ok
    | with_reducible apply ok_ite

theorem startTimeout_ok {qq : List Instr} (s : State) (hs : Ok qq s) : Ok qq (startTimeout s) := by
  unfold startTimeout
  repeat' first
    | with_reducible assumption
    | with_reducible apply ldrFail_ok
    | with_reducible apply startFailed_ok
    | with_reducible apply ok_ite

theorem execStartDoneTimeout_ok {qq : List Instr} (s : State) (hs : Ok qq s) : OkOut qq (execStartDoneTimeout s) := by
  unfold execStartDoneTimeout
  repeat' first
    | with_reducible assumption
    | with_reducible refine OkOut.next ?_
    | with_reducible apply startTimeout_ok

theorem startRetry_ok {qq : List Instr} (s : State) (hs : Ok qq s) : Ok qq (startRetry s) := by
  unfold startRetry
  repeat' first
    | with_reducible assumption
    | with_reducible exact ok_mk (by assumption) rfl rfl rfl rfl rfl rfl rfl rfl rfl
    | (extract_lets +onlyGivenNames g; refine have hg : ∀ a s, Ok qq s → Ok qq (g a s) := ?_; ?_; rotate_left; clear_value g; rotate_right; subst g; intro _ _ _; try dsimp -zeta only)
    | (extract_lets +onlyGivenNames x; clear_value x)
    | with_reducible apply beginWarm_ok
    | with_reducible apply beginCold_ok
    | with_reducible apply State.setPhase_ok
    | with_reducible apply ok_ite
    | with_reducible apply hg
    | split

theorem execStartRetry_ok {qq : List Instr} (s : State) (hs : Ok qq s) : OkOut qq (execStartRetry s) := by
  unfold execStartRetry
  repeat' first
    | with_reducible assumption
    | with_reducible refine OkOut.next ?_
    | with_reducible apply startRetry_ok

theorem confirmTmoWrite_ok {qq : List Instr} (v : Nat) (s : State) (hs : Ok qq s) : Ok qq (confirmTmoWrite v s) := by
  unfold confirmTmoWrite
  repeat' first
    | with_reducible assumption
    | with_reducible apply bootSave_ok
    | with_reducible apply State.setFld_ok

theorem execConfirmTmoWrite_ok {qq : List Instr} (w : Writer) (v : BitVec 16) (s : State) (hs : Ok qq s) : OkOut qq (execConfirmTmoWrite w v s) := by
  unfold execConfirmTmoWrite
  repeat' first
    | with_reducible assumption
    | with_reducible refine OkOut.next ?_
    | with_reducible apply State.linked_ok
    | with_reducible apply State.wardenOr_ok
    | with_reducible apply confirmTmoWrite_ok
    | intro _ _

theorem execOperatingHour_ok {qq : List Instr} (s : State) (hs : Ok qq s) : OkOut qq (execOperatingHour s) := by
  unfold execOperatingHour
  repeat' first
    | with_reducible assumption
    | with_reducible refine OkOut.next ?_
    | with_reducible apply bootSave_ok
    | with_reducible apply State.bump_ok

theorem bistRefused_ok {qq : List Instr} (code : Nat) (cause : Nat) (s : State) (hs : Ok qq s) : Ok qq (bistRefused code cause s) := by
  unfold bistRefused
  repeat' first
    | with_reducible assumption
    | with_reducible apply State.setFld_ok

theorem bistGo_ok {qq : List Instr} (unit : Nat) (k : Nat) (s : State) (hs : Ok qq s) : Ok qq (bistGo unit k s) := by
  unfold bistGo
  repeat' first
    | with_reducible assumption
    | with_reducible exact ok_mk (by assumption) rfl rfl rfl rfl rfl rfl rfl rfl rfl
    | (extract_lets +onlyGivenNames x; refine have hx : Ok qq x := ?_; ?_; rotate_left; clear_value x; rotate_right; subst x)
    | (extract_lets +onlyGivenNames x; (first | have hh : Sched := x | have hh : Hea := x | have hh : Ldr := x | have hh : Eng := x); clear hh; subst x)
    | (extract_lets +onlyGivenNames x; clear_value x)
    | with_reducible apply State.setFld_ok
    | with_reducible apply bistRefused_ok
    | with_reducible apply State.setReg_ok
    | with_reducible apply State.raiseAction_ok
    | with_reducible apply showHealth_ok
    | with_reducible apply ok_ite

theorem bistWrite_ok {qq : List Instr} (v : W32) (s : State) (hs : Ok qq s) : Ok qq (bistWrite v s) := by
  unfold bistWrite
  repeat' first
    | with_reducible assumption
    | (extract_lets +onlyGivenNames x; refine have hx : Ok qq x := ?_; ?_; rotate_left; clear_value x; rotate_right; subst x)
    | (extract_lets +onlyGivenNames x; clear_value x)
    | with_reducible apply State.setReg_ok
    | with_reducible apply bistGo_ok
    | with_reducible apply ok_ite

theorem bistRequest_ok {qq : List Instr} (w : Writer) (unit : Nat) (k : Nat) (s : State) (hs : Ok qq s) : OkOut qq (bistRequest w unit k s) := by
  unfold bistRequest
  repeat' first
    | with_reducible assumption
    | with_reducible refine OkOut.next ?_
    | with_reducible apply State.linked_ok
    | with_reducible apply bistWrite_ok

theorem execBistSector_ok {qq : List Instr} (w : Writer) (k : Fin 128) (s : State) (hs : Ok qq s) : OkOut qq (execBistSector w k s) := by
  unfold execBistSector
  repeat' first
    | with_reducible assumption
    | with_reducible apply bistRequest_ok

theorem execBistEngine_ok {qq : List Instr} (w : Writer) (k : Fin 128) (s : State) (hs : Ok qq s) : OkOut qq (execBistEngine w k s) := by
  unfold execBistEngine
  repeat' first
    | with_reducible assumption
    | with_reducible apply bistRequest_ok

theorem execBistAnalog_ok {qq : List Instr} (w : Writer) (k : Fin 128) (s : State) (hs : Ok qq s) : OkOut qq (execBistAnalog w k s) := by
  unfold execBistAnalog
  repeat' first
    | with_reducible assumption
    | with_reducible apply bistRequest_ok

theorem execBistDevice_ok {qq : List Instr} (w : Writer) (s : State) (hs : Ok qq s) : OkOut qq (execBistDevice w s) := by
  unfold execBistDevice
  repeat' first
    | with_reducible assumption
    | with_reducible apply bistRequest_ok

theorem unitFailed_ok {qq : List Instr} (u : Nat) (fails : List W64) (s : State) (hs : Ok qq s) : Ok qq (unitFailed u fails s) := by
  unfold unitFailed
  repeat' first
    | with_reducible assumption
    | (extract_lets +onlyGivenNames x; refine have hx : Ok qq x := ?_; ?_; rotate_left; clear_value x; rotate_right; subst x)
    | with_reducible apply State.setFlag_ok
    | with_reducible apply State.bump_ok
    | with_reducible apply State.noticeIf_ok
    | with_reducible apply trigger_ok
    | (with_reducible refine ok_foldl ?_ _ ?_; intro _ _ _)

theorem bistEnds_ok {qq : List Instr} (s : State) (hs : Ok qq s) : Ok qq (bistEnds s) := by
  unfold bistEnds
  repeat' first
    | with_reducible assumption
    | (extract_lets +onlyGivenNames x; refine have hx : Ok qq x := ?_; ?_; rotate_left; clear_value x; rotate_right; subst x)
    | (extract_lets +onlyGivenNames x; clear_value x)
    | with_reducible apply State.setReg_ok
    | with_reducible apply warmTested_ok
    | with_reducible apply State.setPhase_ok
    | with_reducible apply State.setFld_ok
    | with_reducible apply State.dropAction_ok
    | with_reducible apply ok_ite

theorem bistStopped_ok {qq : List Instr} (cause : Nat) (s : State) (hs : Ok qq s) : Ok qq (bistStopped cause s) := by
  unfold bistStopped
  repeat' first
    | with_reducible exact ok_mk (by assumption) rfl rfl rfl rfl rfl rfl rfl rfl rfl
    | (extract_lets +onlyGivenNames x; (first | have hh : Sched := x | have hh : Hea := x | have hh : Ldr := x | have hh : Eng := x); clear hh; subst x)
    | (extract_lets +onlyGivenNames x; subst x)
    | with_reducible apply State.setFlag_ok
    | with_reducible apply State.setFld_ok
    | with_reducible apply ok_ite

theorem bistUnitDone_ok {qq : List Instr} (h : Nat) (failed : Bool) (fails : List W64) (s : State) (hs : Ok qq s) : Ok qq (bistUnitDone h failed fails s) := by
  unfold bistUnitDone
  split
  · exact hs
  · next u e =>
    extract_lets cause s1 s2
    split
    · exact showHealth_ok _ (bistEnds_ok _ (bistStopped_ok _ _ hs))
    · have h1 : Ok qq s1 := ok_ite (unitFailed_ok _ _ _ hs) hs
      have hp : (s1.hea.setUnits h ((s1.hea.units h).drop 1)).planned = s1.hea.planned := by unfold Hea.setUnits; split <;> rfl
      exact showHealth_ok _ (bistEnds_ok _ (ok_mk h1 rfl rfl rfl rfl rfl rfl rfl hp rfl))

theorem execBistUnitDone_ok {qq : List Instr} (h : Fin 2) (failed : Bool) (fails : List W64) (s : State) (hs : Ok qq s) : OkOut qq (execBistUnitDone h failed fails s) := by
  unfold execBistUnitDone
  repeat' first
    | with_reducible assumption
    | with_reducible refine OkOut.next ?_
    | with_reducible apply bistUnitDone_ok

theorem judgeTile_ok {qq : List Instr} (key : Nat) (slow : Nat) (s : State) (hs : Ok qq s) : Ok qq (judgeTile key slow s) := by
  unfold judgeTile
  repeat' first
    | with_reducible assumption
    | with_reducible exact ok_mk (by assumption) rfl rfl rfl rfl rfl rfl rfl rfl rfl
    | (extract_lets +onlyGivenNames x; refine have hx : Ok qq x := ?_; ?_; rotate_left; clear_value x; rotate_right; subst x)
    | (extract_lets +onlyGivenNames x; (first | have hh : Sched := x | have hh : Hea := x | have hh : Ldr := x | have hh : Eng := x); clear hh; subst x)
    | (extract_lets +onlyGivenNames x; clear_value x)
    | (extract_lets +onlyGivenNames x; subst x)
    | with_reducible apply trigger_ok
    | with_reducible apply State.noticeIf_ok
    | with_reducible apply ok_ite

theorem judgeTiles_ok {qq : List Instr} (s : State) (hs : Ok qq s) : Ok qq (judgeTiles s) := by
  unfold judgeTiles
  repeat' first
    | with_reducible assumption
    | with_reducible apply judgeTile_ok
    | (with_reducible refine ok_foldl ?_ _ ?_; intro _ _ _)

theorem sweepTiles_ok {qq : List Instr} (h : Nat) (n : Nat) (ms : List (Nat × Int)) (s : State) (hs : Ok qq s) : Ok qq (sweepTiles h n ms s) := by
  unfold sweepTiles
  repeat' first
    | with_reducible assumption
    | with_reducible exact ok_mk (by assumption) rfl rfl rfl rfl rfl rfl rfl rfl rfl
    | (extract_lets +onlyGivenNames x; clear_value x)
    | (with_reducible refine ok_foldl ?_ _ ?_; intro _ _ _)

theorem perrLook_ok {qq : List Instr} (h : Nat) (bad : List Nat) (s : State) (hs : Ok qq s) : Ok qq (perrLook h bad s) := by
  unfold perrLook
  repeat' first
    | with_reducible assumption
    | with_reducible exact ok_mk (by assumption) rfl rfl rfl rfl rfl rfl rfl rfl rfl
    | (extract_lets +onlyGivenNames x; refine have hx : Ok qq x := ?_; ?_; rotate_left; clear_value x; rotate_right; subst x)
    | (extract_lets +onlyGivenNames x; (first | have hh : Sched := x | have hh : Hea := x | have hh : Ldr := x | have hh : Eng := x); clear hh; subst x)
    | (extract_lets +onlyGivenNames x; clear_value x)
    | (extract_lets +onlyGivenNames x; subst x)
    | with_reducible apply trigger_ok
    | with_reducible apply ok_ite
    | (with_reducible refine ok_foldl ?_ _ ?_; intro _ _ _)

theorem eccLook_ok {qq : List Instr} (n : Nat) (s : State) (hs : Ok qq s) : Ok qq (eccLook n s) := by
  unfold eccLook
  repeat' first
    | with_reducible assumption
    | with_reducible exact ok_mk (by assumption) rfl rfl rfl rfl rfl rfl rfl rfl rfl
    | (extract_lets +onlyGivenNames x; refine have hx : Ok qq x := ?_; ?_; rotate_left; clear_value x; rotate_right; subst x)
    | (extract_lets +onlyGivenNames x; (first | have hh : Sched := x | have hh : Hea := x | have hh : Ldr := x | have hh : Eng := x); clear hh; subst x)
    | (extract_lets +onlyGivenNames x; clear_value x)
    | (extract_lets +onlyGivenNames x; subst x)
    | with_reducible apply trigger_ok
    | with_reducible apply ok_ite

theorem sweep_ok {qq : List Instr} (h : Nat) (ms : List (Nat × Int)) (bad : List Nat) (s : State) (hs : Ok qq s) : Ok qq (sweep h ms bad s) := by
  unfold sweep
  repeat' first
    | with_reducible assumption
    | with_reducible exact ok_mk (by assumption) rfl rfl rfl rfl rfl rfl rfl rfl rfl
    | (extract_lets +onlyGivenNames x; refine have hx : Ok qq x := ?_; ?_; rotate_left; clear_value x; rotate_right; subst x)
    | (extract_lets +onlyGivenNames x; (first | have hh : Sched := x | have hh : Hea := x | have hh : Ldr := x | have hh : Eng := x); clear hh; subst x)
    | (extract_lets +onlyGivenNames x; clear_value x)
    | with_reducible apply sweepTiles_ok
    | with_reducible apply judgeTile_ok
    | with_reducible apply mapDone_ok
    | with_reducible apply eccLook_ok
    | with_reducible apply perrLook_ok
    | with_reducible apply showSector_ok
    | with_reducible apply showHealth_ok
    | with_reducible apply showWear_ok
    | with_reducible apply ok_ite
    | (with_reducible refine ok_foldl ?_ _ ?_; intro _ _ _)

theorem execDensitometerSweep_ok {qq : List Instr} (h : Fin 2) (ms : List (Fin 5120 × Int)) (bad : List (Fin 1280)) (s : State) (hs : Ok qq s) : OkOut qq (execDensitometerSweep h ms bad s) := by
  unfold execDensitometerSweep
  repeat' first
    | with_reducible assumption
    | with_reducible refine OkOut.next ?_
    | with_reducible apply sweep_ok

theorem healthRefused_ok {qq : List Instr} (s : State) (hs : Ok qq s) : Ok qq (healthRefused s) := by
  unfold healthRefused
  repeat' first
    | with_reducible assumption
    | with_reducible apply State.setFld_ok

theorem healthCfgWrite_ok {qq : List Instr} (v : W32) (s : State) (hs : Ok qq s) : Ok qq (healthCfgWrite v s) := by
  unfold healthCfgWrite
  repeat' first
    | with_reducible assumption
    | (extract_lets +onlyGivenNames x; refine have hx : Ok qq x := ?_; ?_; rotate_left; clear_value x; rotate_right; subst x)
    | (extract_lets +onlyGivenNames x; clear_value x)
    | with_reducible apply healthRefused_ok
    | with_reducible apply State.setReg_ok
    | with_reducible apply judgeTiles_ok
    | with_reducible apply ok_ite

theorem execHealthCfgWrite_ok {qq : List Instr} (w : Writer) (v : W32) (s : State) (hs : Ok qq s) : OkOut qq (execHealthCfgWrite w v s) := by
  unfold execHealthCfgWrite
  repeat' first
    | with_reducible assumption
    | with_reducible refine OkOut.next ?_
    | with_reducible apply State.linked_ok
    | with_reducible apply healthCfgWrite_ok

theorem pathMonitor_ok {qq : List Instr} (n : Nat) (low : Bool) (s : State) (hs : Ok qq s) : Ok qq (pathMonitor n low s) := by
  unfold pathMonitor
  repeat' first
    | with_reducible assumption
    | (extract_lets +onlyGivenNames x; refine have hx : Ok qq x := ?_; ?_; rotate_left; clear_value x; rotate_right; subst x)
    | with_reducible apply eccLook_ok
    | with_reducible apply trigger_ok
    | with_reducible apply ok_ite

theorem execEnginePathMonitor_ok {qq : List Instr} (n : Fin 96) (low : Bool) (s : State) (hs : Ok qq s) : OkOut qq (execEnginePathMonitor n low s) := by
  unfold execEnginePathMonitor
  repeat' first
    | with_reducible assumption
    | with_reducible refine OkOut.next ?_
    | with_reducible apply pathMonitor_ok

theorem fixWrite_ok {qq : List Instr} (w : Writer) (v : W32) (s : State) (hs : Ok qq s) : Ok qq (fixWrite w v s) := by
  unfold fixWrite
  repeat' first
    | with_reducible assumption
    | (extract_lets +onlyGivenNames x; refine have hx : Ok qq x := ?_; ?_; rotate_left; clear_value x; rotate_right; subst x)
    | (extract_lets +onlyGivenNames x; clear_value x)
    | (extract_lets +onlyGivenNames x; subst x)
    | with_reducible apply State.denyWarden_ok
    | with_reducible apply healthRefused_ok
    | with_reducible apply State.setFld_ok
    | with_reducible apply fixGo_ok
    | with_reducible apply ok_ite

theorem execFixGo_ok {qq : List Instr} (w : Writer) (s : State) (hs : Ok qq s) : OkOut qq (execFixGo w s) := by
  unfold execFixGo
  repeat' first
    | with_reducible assumption
    | with_reducible refine OkOut.next ?_
    | with_reducible apply State.linked_ok
    | with_reducible apply fixWrite_ok
    | intro _ _

theorem execSubstitutionDone_ok {qq : List Instr} (h : Fin 2) (s : State) (hs : Ok qq s) : OkOut qq (execSubstitutionDone h s) := by
  unfold execSubstitutionDone
  repeat' first
    | with_reducible assumption
    | with_reducible refine OkOut.next ?_
    | with_reducible apply substitutionDone_ok

end Sys2Proof.Machine
end

