-- ==== Sys2Proof/Laws/OkPower.lean ====
section
/-! SUPPORT. What the operations of Machine/Power.lean keep: each takes a sound state with the same commands waiting to
such a state (see Laws/Ok.lean). -/

namespace Sys2Proof.Machine

theorem State.setCur_ok {qq : List Instr} (s : State) (v : Nat) (hs : Ok qq s) : Ok qq (State.setCur s v) := by
  unfold State.setCur
  repeat' first
    | with_reducible assumption
    | with_reducible apply State.setFld_ok

theorem pwrRefused_ok {qq : List Instr} (code : Nat) (s : State) (hs : Ok qq s) : Ok qq (pwrRefused code s) := by
  unfold pwrRefused
  repeat' first
    | with_reducible assumption
    | with_reducible apply State.refuse_ok

theorem enterPower_ok {qq : List Instr} (k : Nat) (trip : Bool) (s : State) (hs : Ok qq s) : Ok qq (enterPower k trip s) := by
  unfold enterPower
  repeat' first
    | with_reducible assumption
    | with_reducible exact ok_mk (by assumption) rfl rfl rfl rfl rfl rfl rfl rfl rfl
    | (extract_lets +onlyGivenNames x; refine have hx : Ok qq x := ?_; ?_; rotate_left; clear_value x; rotate_right; subst x)
    | (extract_lets +onlyGivenNames x; (first | have hh : Sched := x | have hh : Hea := x | have hh : Ldr := x | have hh : Eng := x); clear hh; subst x)
    | (extract_lets +onlyGivenNames x; clear_value x)
    | with_reducible apply State.setCur_ok
    | with_reducible apply finishFixes_ok
    | with_reducible apply State.setFlag_ok
    | with_reducible apply archiveSleeps_ok
    | with_reducible apply engineSleeps_ok
    | with_reducible apply ringsHalt_ok
    | with_reducible apply ok_ite
    | (with_reducible refine ok_foldl ?_ _ ?_; intro _ _ _)

theorem schedSleeps_ok {qq : List Instr} (s : State) (hs : Ok qq s) : Ok qq (schedSleeps s) := by
  unfold schedSleeps
  repeat' first
    | with_reducible assumption
    | (extract_lets +onlyGivenNames x; refine have hx : Ok qq x := ?_; ?_; rotate_left; clear_value x; rotate_right; subst x)
    | (extract_lets +onlyGivenNames x; clear_value x)
    | with_reducible apply endRuns_ok
    | with_reducible apply withdraw_ok
    | with_reducible apply State.setSlot_ok
    | with_reducible apply ok_ite
    | (with_reducible refine ok_foldl ?_ _ ?_; intro _ _ _)

theorem startStops_ok {qq : List Instr} (s : State) (hs : Ok qq s) : Ok qq (startStops s) := by
  unfold startStops
  repeat' first
    | with_reducible assumption
    | (extract_lets +onlyGivenNames x; refine have hx : Ok qq x := ?_; ?_; rotate_left; clear_value x; rotate_right; subst x)
    | (extract_lets +onlyGivenNames x; clear_value x)
    | with_reducible apply workEnds_ok
    | with_reducible apply State.setHeldMask_ok
    | with_reducible apply ok_ite

theorem blocksSleep_ok {qq : List Instr} (k : Nat) (s : State) (hs : Ok qq s) : Ok qq (blocksSleep k s) := by
  unfold blocksSleep
  repeat' first
    | with_reducible assumption
    | with_reducible exact ok_mk (by assumption) rfl rfl rfl rfl rfl rfl rfl rfl rfl
    | (extract_lets +onlyGivenNames x; refine have hx : Ok qq x := ?_; ?_; rotate_left; clear_value x; rotate_right; subst x)
    | (extract_lets +onlyGivenNames x; clear_value x)
    | with_reducible apply haltEngine_ok
    | with_reducible apply engineStopDone_ok
    | with_reducible apply archiveStopDone_ok
    | with_reducible apply archiveSleeps_ok
    | with_reducible apply ringsHalt_ok
    | with_reducible apply emptySched_ok
    | with_reducible apply schedSleeps_ok
    | with_reducible apply pinsSleep_ok
    | with_reducible apply drainSpine_ok
    | with_reducible apply startStops_ok
    | with_reducible apply holdDevice_ok
    | with_reducible apply showHealth_ok
    | with_reducible apply banksSleep_ok
    | with_reducible apply lanesHalt_ok
    | with_reducible apply ok_ite
    | (with_reducible refine ok_foldl ?_ _ ?_; intro _ _ _)

theorem goDark_ok {qq : List Instr} (s : State) (hs : Ok qq s) : Ok qq (goDark s) := by
  unfold goDark
  repeat' first
    | with_reducible assumption
    | with_reducible exact ok_mk (by assumption) rfl rfl rfl rfl rfl rfl rfl rfl rfl
    | (extract_lets +onlyGivenNames x; refine have hx : Ok qq x := ?_; ?_; rotate_left; clear_value x; rotate_right; subst x)
    | with_reducible apply linkDown_ok
    | with_reducible apply State.setFlag_ok
    | with_reducible apply ok_ite
    | (with_reducible refine ok_foldl ?_ _ ?_; intro _ _ _)

theorem wakeBegins_ok {qq : List Instr} (src : Nat) (i : Nat) (s : State) (hs : Ok qq s) : Ok qq (wakeBegins src i s) := by
  have key : ∀ (b : State) (l : List (Nat × Nat)), Ok qq b → Ok qq { b with ldr := { b.ldr with steps := l, wave := 0 } } :=
    fun b l h => ok_mk h rfl rfl rfl rfl rfl rfl rfl rfl rfl
  have h1 := State.setCur_ok _ 5 (State.setFld_ok _ Fld.pwrWakeStatIndex i 0 0 (State.setFld_ok _ Fld.pwrWakeStatSource src 0 0 hs))
  unfold wakeBegins
  generalize ((s.setFld Fld.pwrWakeStatSource src).setFld Fld.pwrWakeStatIndex i).setCur 5 = s1 at h1 ⊢
  have h2 : Ok qq { s1 with pwr := { s1.pwr with latched := none } } := ok_mk h1 rfl rfl rfl rfl rfl rfl rfl rfl rfl
  refine ok_ite h2 ?_
  have h3 := State.raiseAction_ok _ .power h2
  exact ok_ite (key _ _ (banksWake_ok _ (railsAt_ok 35 _ h3))) h3

theorem powerWake_ok {qq : List Instr} (src : Nat) (i : Nat) (s : State) (hs : Ok qq s) : Ok qq (powerWake src i s) := by
  unfold powerWake
  repeat' first
    | with_reducible assumption
    | with_reducible exact ok_mk (by assumption) rfl rfl rfl rfl rfl rfl rfl rfl rfl
    | (extract_lets +onlyGivenNames x; refine have hx : Ok qq x := ?_; ?_; rotate_left; clear_value x; rotate_right; subst x)
    | (extract_lets +onlyGivenNames x; clear_value x)
    | with_reducible apply wakeBegins_ok
    | with_reducible apply State.setCur_ok
    | with_reducible apply ok_ite
    | split

theorem powerEntered_ok {qq : List Instr} (s : State) (hs : Ok qq s) : Ok qq (powerEntered s) := by
  unfold powerEntered
  repeat' first
    | with_reducible assumption
    | with_reducible exact ok_mk (by assumption) rfl rfl rfl rfl rfl rfl rfl rfl rfl
    | (extract_lets +onlyGivenNames x; refine have hx : Ok qq x := ?_; ?_; rotate_left; clear_value x; rotate_right; subst x)
    | (extract_lets +onlyGivenNames x; clear_value x)
    | with_reducible apply State.dropAction_ok
    | with_reducible apply showHealth_ok
    | with_reducible apply State.setCur_ok
    | with_reducible apply railsAt_ok
    | with_reducible apply blocksSleep_ok
    | with_reducible apply goDark_ok
    | with_reducible apply powerWake_ok
    | with_reducible apply ok_ite
    | split

theorem execPowerEntryDone_ok {qq : List Instr} (s : State) (hs : Ok qq s) : OkOut qq (execPowerEntryDone s) := by
  unfold execPowerEntryDone
  repeat' first
    | with_reducible assumption
    | with_reducible refine OkOut.next ?_
    | with_reducible apply powerEntered_ok

theorem schedWakes_ok {qq : List Instr} (s : State) (hs : Ok qq s) : Ok qq (schedWakes s) := by
  unfold schedWakes
  repeat' first
    | with_reducible assumption
    | (extract_lets +onlyGivenNames x; clear_value x)
    | with_reducible apply jumpTimebase_ok
    | with_reducible apply ok_ite
    | (with_reducible refine ok_foldl ?_ _ ?_; intro _ _ _)

theorem powerWoken_ok {qq : List Instr} (s : State) (hs : Ok qq s) : Ok qq (powerWoken s) := by
  unfold powerWoken
  repeat' first
    | with_reducible assumption
    | with_reducible exact ok_mk (by assumption) rfl rfl rfl rfl rfl rfl rfl rfl rfl
    | (extract_lets +onlyGivenNames x; refine have hx : Ok qq x := ?_; ?_; rotate_left; clear_value x; rotate_right; subst x)
    | (extract_lets +onlyGivenNames x; clear_value x)
    | with_reducible apply beginWarm_ok
    | with_reducible apply State.setFlag_ok
    | with_reducible apply State.setCur_ok
    | with_reducible apply State.dropAction_ok
    | with_reducible apply ringsWake_ok
    | with_reducible apply lanesWake_ok
    | with_reducible apply archiveAwake_ok
    | with_reducible apply schedWakes_ok
    | with_reducible apply showHealth_ok
    | with_reducible apply railSettle_ok
    | with_reducible apply ok_ite

theorem execPowerWakeDone_ok {qq : List Instr} (s : State) (hs : Ok qq s) : OkOut qq (execPowerWakeDone s) := by
  unfold execPowerWakeDone
  repeat' first
    | with_reducible assumption
    | with_reducible refine OkOut.next ?_
    | with_reducible apply powerWoken_ok

theorem requestRefused_ok {qq : List Instr} (code : Nat) (s : State) (hs : Ok qq s) : Ok qq (requestRefused code s) := by
  unfold requestRefused
  repeat' first
    | with_reducible assumption
    | with_reducible apply pwrRefused_ok
    | with_reducible apply State.setFld_ok

theorem powerRequest_ok {qq : List Instr} (k : Nat) (s : State) (hs : Ok qq s) : Ok qq (powerRequest k s) := by
  unfold powerRequest
  repeat' first
    | with_reducible assumption
    | with_reducible exact ok_mk (by assumption) rfl rfl rfl rfl rfl rfl rfl rfl rfl
    | (extract_lets +onlyGivenNames x; refine have hx : Ok qq x := ?_; ?_; rotate_left; clear_value x; rotate_right; subst x)
    | (extract_lets +onlyGivenNames x; clear_value x)
    | with_reducible apply requestRefused_ok
    | with_reducible apply State.setFld_ok
    | with_reducible apply powerWake_ok
    | with_reducible apply enterPower_ok
    | with_reducible apply ok_ite

theorem pwrStateWrite_ok {qq : List Instr} (w : Writer) (v : W32) (s : State) (hs : Ok qq s) : Ok qq (pwrStateWrite w v s) := by
  unfold pwrStateWrite
  repeat' first
    | with_reducible assumption
    | with_reducible apply State.wardenOr_ok
    | with_reducible apply powerRequest_ok

theorem reqRow_ok {qq : List Instr} (w : Writer) (k : Nat) (s : State) (hs : Ok qq s) : OkOut qq (reqRow w k s) := by
  unfold reqRow
  repeat' first
    | with_reducible assumption
    | with_reducible refine OkOut.next ?_
    | with_reducible apply State.linked_ok
    | with_reducible apply pwrStateWrite_ok

theorem execReqRun_ok {qq : List Instr} (w : Writer) (s : State) (hs : Ok qq s) : OkOut qq (execReqRun w s) := by
  unfold execReqRun
  repeat' first
    | with_reducible assumption
    | with_reducible apply reqRow_ok

theorem execReqIdle_ok {qq : List Instr} (w : Writer) (s : State) (hs : Ok qq s) : OkOut qq (execReqIdle w s) := by
  unfold execReqIdle
  repeat' first
    | with_reducible assumption
    | with_reducible apply reqRow_ok

theorem execReqSafelight_ok {qq : List Instr} (w : Writer) (s : State) (hs : Ok qq s) : OkOut qq (execReqSafelight w s) := by
  unfold execReqSafelight
  repeat' first
    | with_reducible assumption
    | with_reducible apply reqRow_ok

theorem execReqDark_ok {qq : List Instr} (w : Writer) (s : State) (hs : Ok qq s) : OkOut qq (execReqDark w s) := by
  unfold execReqDark
  repeat' first
    | with_reducible assumption
    | with_reducible apply reqRow_ok

theorem execWakeNEdge_ok {qq : List Instr} (s : State) (hs : Ok qq s) : OkOut qq (execWakeNEdge s) := by
  unfold execWakeNEdge
  repeat' first
    | with_reducible assumption
    | with_reducible refine OkOut.next ?_
    | with_reducible apply powerWake_ok

theorem execWakePortEdge_ok {qq : List Instr} (i : Fin 4) (rising : Bool) (s : State) (hs : Ok qq s) : OkOut qq (execWakePortEdge i rising s) := by
  unfold execWakePortEdge
  repeat' first
    | with_reducible assumption
    | (extract_lets +onlyGivenNames x; clear_value x)
    | with_reducible refine OkOut.next ?_
    | with_reducible apply powerWake_ok
    | with_reducible apply ok_ite

theorem execWakeTbRange_ok {qq : List Instr} (j : Fin 2) (s : State) (hs : Ok qq s) : OkOut qq (execWakeTbRange j s) := by
  unfold execWakeTbRange
  repeat' first
    | with_reducible assumption
    | with_reducible refine OkOut.next ?_
    | with_reducible apply powerWake_ok
    | with_reducible apply ok_ite

theorem execWakeDt_ok {qq : List Instr} (s : State) (hs : Ok qq s) : OkOut qq (execWakeDt s) := by
  unfold execWakeDt
  repeat' first
    | with_reducible assumption
    | with_reducible refine OkOut.next ?_
    | with_reducible apply powerWake_ok
    | with_reducible apply ok_ite

theorem execHostRequestWake_ok {qq : List Instr} (s : State) (hs : Ok qq s) : OkOut qq (execHostRequestWake s) := by
  unfold execHostRequestWake
  repeat' first
    | with_reducible assumption
    | with_reducible refine OkOut.next ?_
    | with_reducible apply powerWake_ok

theorem execActivityWake_ok {qq : List Instr} (s : State) (hs : Ok qq s) : OkOut qq (execActivityWake s) := by
  unfold execActivityWake
  repeat' first
    | with_reducible assumption
    | with_reducible refine OkOut.next ?_
    | with_reducible apply powerWake_ok

theorem vfabWrite_ok {qq : List Instr} (h : Nat) (v : W32) (s : State) (hs : Ok qq s) : Ok qq (vfabWrite h v s) := by
  unfold vfabWrite
  repeat' first
    | with_reducible assumption
    | (extract_lets +onlyGivenNames x; clear_value x)
    | (extract_lets +onlyGivenNames x; subst x)
    | with_reducible apply pwrRefused_ok
    | with_reducible apply railSettle_ok
    | with_reducible apply State.setReg_ok
    | with_reducible apply ok_ite

theorem execVfabWrite_ok {qq : List Instr} (w : Writer) (h : Fin 2) (v : W32) (s : State) (hs : Ok qq s) : OkOut qq (execVfabWrite w h v s) := by
  unfold execVfabWrite
  repeat' first
    | with_reducible assumption
    | with_reducible refine OkOut.next ?_
    | with_reducible apply State.linked_ok
    | with_reducible apply vfabWrite_ok

theorem backlogInterval_ok {qq : List Instr} (h : Nat) (backlog : Nat) (s : State) (hs : Ok qq s) : Ok qq (backlogInterval h backlog s) := by
  unfold backlogInterval
  repeat' first
    | with_reducible assumption
    | with_reducible exact ok_mk (by assumption) rfl rfl rfl rfl rfl rfl rfl rfl rfl
    | (extract_lets +onlyGivenNames x; refine have hx : Ok qq x := ?_; ?_; rotate_left; clear_value x; rotate_right; subst x)
    | (extract_lets +onlyGivenNames x; clear_value x)
    | (extract_lets +onlyGivenNames x; subst x)
    | with_reducible apply State.setFld_ok
    | with_reducible apply ok_ite

theorem execBacklogInterval_ok {qq : List Instr} (h : Fin 2) (backlog : Fin 1001) (s : State) (hs : Ok qq s) : OkOut qq (execBacklogInterval h backlog s) := by
  unfold execBacklogInterval
  repeat' first
    | with_reducible assumption
    | with_reducible refine OkOut.next ?_
    | with_reducible apply backlogInterval_ok

theorem phaseMonitor_ok {qq : List Instr} (h : Nat) (k : Nat) (s : State) (hs : Ok qq s) : Ok qq (phaseMonitor h k s) := by
  unfold phaseMonitor
  repeat' first
    | with_reducible assumption
    | with_reducible apply railSettle_ok
    | with_reducible apply trigger_ok

theorem execPhaseMonitor_ok {qq : List Instr} (h : Fin 2) (k : Fin 4) (s : State) (hs : Ok qq s) : OkOut qq (execPhaseMonitor h k s) := by
  unfold execPhaseMonitor
  repeat' first
    | with_reducible assumption
    | with_reducible refine OkOut.next ?_
    | with_reducible apply phaseMonitor_ok

theorem vbankSave_ok {qq : List Instr} (s : State) (hs : Ok qq s) : Ok qq (vbankSave s) := by
  unfold vbankSave
  repeat' first
    | with_reducible assumption
    | with_reducible apply raiseRecord_ok
    | with_reducible apply pwrRefused_ok
    | with_reducible apply ok_ite

theorem vbankWrite_ok {qq : List Instr} (w : Writer) (b : Nat) (v : W32) (s : State) (hs : Ok qq s) : Ok qq (vbankWrite w b v s) := by
  unfold vbankWrite
  repeat' first
    | with_reducible assumption
    | (extract_lets +onlyGivenNames x; refine have hx : Ok qq x := ?_; ?_; rotate_left; clear_value x; rotate_right; subst x)
    | (extract_lets +onlyGivenNames x; clear_value x)
    | (extract_lets +onlyGivenNames x; subst x)
    | with_reducible apply State.denyWarden_ok
    | with_reducible apply pwrRefused_ok
    | with_reducible apply State.setFld_ok
    | with_reducible apply State.setFlag_ok
    | with_reducible apply vbankSave_ok
    | with_reducible apply ok_ite

theorem execVbankWrite_ok {qq : List Instr} (w : Writer) (b : Fin 4) (v : W32) (s : State) (hs : Ok qq s) : OkOut qq (execVbankWrite w b v s) := by
  unfold execVbankWrite
  repeat' first
    | with_reducible assumption
    | with_reducible refine OkOut.next ?_
    | with_reducible apply State.linked_ok
    | with_reducible apply vbankWrite_ok

theorem execVbankSave_ok {qq : List Instr} (w : Writer) (b : Fin 4) (s : State) (hs : Ok qq s) : OkOut qq (execVbankSave w b s) := by
  unfold execVbankSave
  repeat' first
    | with_reducible assumption
    | with_reducible refine OkOut.next ?_
    | with_reducible apply State.linked_ok
    | with_reducible apply vbankWrite_ok
    | intro _ _

theorem railSlewDone_ok {qq : List Instr} (r : Nat) (s : State) (hs : Ok qq s) : Ok qq (railSlewDone r s) := by
  unfold railSlewDone
  repeat' first
    | with_reducible assumption
    | with_reducible exact ok_mk (by assumption) rfl rfl rfl rfl rfl rfl rfl rfl rfl
    | (extract_lets +onlyGivenNames x; refine have hx : Ok qq x := ?_; ?_; rotate_left; clear_value x; rotate_right; subst x)
    | (extract_lets +onlyGivenNames x; clear_value x)
    | with_reducible apply State.setFld_ok
    | with_reducible apply State.setFlag_ok
    | with_reducible apply ok_ite

theorem execRailSlewDone_ok {qq : List Instr} (r : Fin 6) (s : State) (hs : Ok qq s) : OkOut qq (execRailSlewDone r s) := by
  unfold execRailSlewDone
  repeat' first
    | with_reducible assumption
    | with_reducible refine OkOut.next ?_
    | with_reducible apply railSlewDone_ok

theorem enterDarkNow_ok {qq : List Instr} (trip : Bool) (s : State) (hs : Ok qq s) : Ok qq (enterDarkNow trip s) := by
  unfold enterDarkNow
  repeat' first
    | with_reducible assumption
    | with_reducible apply enterPower_ok
    | with_reducible apply State.dropAction_ok
    | with_reducible apply ok_ite

theorem supplyLow_ok {qq : List Instr} (vsup : Nat) (s : State) (hs : Ok qq s) : Ok qq (supplyLow vsup s) := by
  unfold supplyLow
  repeat' first
    | with_reducible assumption
    | (extract_lets +onlyGivenNames x; refine have hx : Ok qq x := ?_; ?_; rotate_left; clear_value x; rotate_right; subst x)
    | (extract_lets +onlyGivenNames x; clear_value x)
    | (extract_lets +onlyGivenNames x; subst x)
    | with_reducible apply State.setFlag_ok
    | with_reducible apply State.setFld_ok
    | with_reducible apply State.alarm_ok
    | with_reducible apply enterDarkNow_ok
    | with_reducible apply ok_ite

theorem execSupplyLowDetect_ok {qq : List Instr} (vsup : BitVec 10) (s : State) (hs : Ok qq s) : OkOut qq (execSupplyLowDetect vsup s) := by
  unfold execSupplyLowDetect
  repeat' first
    | with_reducible assumption
    | with_reducible refine OkOut.next ?_
    | with_reducible apply supplyLow_ok

theorem brownOut_ok {qq : List Instr} (s : State) (hs : Ok qq s) : Ok qq (brownOut s) := by
  unfold brownOut
  repeat' first
    | with_reducible assumption
    | with_reducible exact ok_mk (by assumption) rfl rfl rfl rfl rfl rfl rfl rfl rfl
    | (extract_lets +onlyGivenNames x; refine have hx : Ok qq x := ?_; ?_; rotate_left; clear_value x; rotate_right; subst x)
    | with_reducible apply workEnds_ok
    | with_reducible apply State.setFlag_ok
    | with_reducible apply holdHere_ok
    | with_reducible apply lanesHalt_ok
    | with_reducible apply linkDown_ok

theorem execBrownOut_ok {qq : List Instr} (s : State) (hs : Ok qq s) : OkOut qq (execBrownOut s) := by
  unfold execBrownOut
  repeat' first
    | with_reducible assumption
    | with_reducible refine OkOut.next ?_
    | with_reducible apply brownOut_ok

theorem tempCap_ok {qq : List Instr} (h : Nat) (t : Nat) (s : State) (hs : Ok qq s) : Ok qq (tempCap h t s) := by
  unfold tempCap
  repeat' first
    | with_reducible assumption
    | with_reducible exact ok_mk (by assumption) rfl rfl rfl rfl rfl rfl rfl rfl rfl
    | (extract_lets +onlyGivenNames x; clear_value x)
    | with_reducible apply railSettle_ok
    | with_reducible apply showCapped_ok
    | with_reducible apply ok_ite

theorem tempUpdate_ok {qq : List Instr} (west : Nat) (east : Nat) (s : State) (hs : Ok qq s) : Ok qq (tempUpdate west east s) := by
  unfold tempUpdate
  repeat' first
    | with_reducible assumption
    | with_reducible exact ok_mk (by assumption) rfl rfl rfl rfl rfl rfl rfl rfl rfl
    | (extract_lets +onlyGivenNames x; refine have hx : Ok qq x := ?_; ?_; rotate_left; clear_value x; rotate_right; subst x)
    | (extract_lets +onlyGivenNames x; clear_value x)
    | (extract_lets +onlyGivenNames x; subst x)
    | with_reducible apply State.setFld_ok
    | with_reducible apply State.setFlag_ok
    | with_reducible apply State.alarm_ok
    | with_reducible apply tempCap_ok
    | with_reducible apply enterDarkNow_ok
    | with_reducible apply ok_ite

theorem execTempUpdate_ok {qq : List Instr} (west : BitVec 10) (east : BitVec 10) (s : State) (hs : Ok qq s) : OkOut qq (execTempUpdate west east s) := by
  unfold execTempUpdate
  repeat' first
    | with_reducible assumption
    | with_reducible refine OkOut.next ?_
    | with_reducible apply tempUpdate_ok

theorem supWrite_ok {qq : List Instr} (v : W32) (s : State) (hs : Ok qq s) : Ok qq (supWrite v s) := by
  unfold supWrite
  repeat' first
    | with_reducible assumption
    | (extract_lets +onlyGivenNames x; clear_value x)
    | with_reducible apply pwrRefused_ok
    | with_reducible apply State.setReg_ok
    | with_reducible apply ok_ite

theorem execSupplyCfgWrite_ok {qq : List Instr} (w : Writer) (v : W32) (s : State) (hs : Ok qq s) : OkOut qq (execSupplyCfgWrite w v s) := by
  unfold execSupplyCfgWrite
  repeat' first
    | with_reducible assumption
    | with_reducible refine OkOut.next ?_
    | with_reducible apply State.linked_ok
    | with_reducible apply supWrite_ok

theorem peakClr_ok {qq : List Instr} (s : State) (hs : Ok qq s) : Ok qq (peakClr s) := by
  unfold peakClr
  repeat' first
    | with_reducible assumption
    | with_reducible apply State.setFld_ok

theorem tempWrite_ok {qq : List Instr} (v : W32) (s : State) (hs : Ok qq s) : Ok qq (tempWrite v s) := by
  unfold tempWrite
  repeat' first
    | with_reducible assumption
    | (extract_lets +onlyGivenNames x; refine have hx : Ok qq x := ?_; ?_; rotate_left; clear_value x; rotate_right; subst x)
    | with_reducible apply State.accessError_ok
    | with_reducible apply State.setFld_ok
    | with_reducible apply peakClr_ok
    | with_reducible apply ok_ite

theorem execTempPeakClr_ok {qq : List Instr} (w : Writer) (s : State) (hs : Ok qq s) : OkOut qq (execTempPeakClr w s) := by
  unfold execTempPeakClr
  repeat' first
    | with_reducible assumption
    | with_reducible refine OkOut.next ?_
    | with_reducible apply State.linked_ok
    | with_reducible apply peakClr_ok

theorem wakePortWrite_ok {qq : List Instr} (i : Nat) (v : W32) (s : State) (hs : Ok qq s) : Ok qq (wakePortWrite i v s) := by
  unfold wakePortWrite
  repeat' first
    | with_reducible assumption
    | with_reducible apply State.accessError_ok
    | with_reducible apply State.setReg_ok
    | with_reducible apply ok_ite

end Sys2Proof.Machine
end

