-- ==== Sys2Proof/Laws/OkPins.lean ====
section
/-! SUPPORT. What the operations of Machine/Pins.lean keep: each takes a sound state with the same commands waiting to
such a state (see Laws/Ok.lean). -/

namespace Sys2Proof.Machine

theorem pinRefused_ok {qq : List Instr} (kind : Nat) (code : Nat) (n : Nat) (s : State) (hs : Ok qq s) : Ok qq (pinRefused kind code n s) := by
  unfold pinRefused
  repeat' first
    | with_reducible assumption
    | with_reducible apply State.refuse_ok

theorem showOpen_ok {qq : List Instr} (s : State) (hs : Ok qq s) : Ok qq (showOpen s) := by
  unfold showOpen
  repeat' first
    | with_reducible assumption
    | with_reducible apply lasting_ok
    | with_reducible apply ok_ite
    | (with_reducible refine ok_foldl ?_ _ ?_; intro _ _ _)

theorem diffChanged_ok {qq : List Instr} (n : Nat) (diff : Bool) (s : State) (hs : Ok qq s) : Ok qq (diffChanged n diff s) := by
  unfold diffChanged
  repeat' first
    | with_reducible assumption
    | (extract_lets +onlyGivenNames x; clear_value x)
    | with_reducible apply showPin_ok
    | with_reducible apply State.setPin_ok
    | with_reducible apply showOpen_ok
    | with_reducible apply State.setFlag_ok
    | with_reducible apply ok_ite

theorem pinCfgWrite_ok {qq : List Instr} (w : Writer) (n : Nat) (v : W32) (s : State) (hs : Ok qq s) : Ok qq (pinCfgWrite w n v s) := by
  unfold pinCfgWrite
  repeat' first
    | with_reducible assumption
    | (extract_lets +onlyGivenNames x; refine have hx : Ok qq x := ?_; ?_; rotate_left; clear_value x; rotate_right; subst x)
    | (extract_lets +onlyGivenNames x; clear_value x)
    | with_reducible apply State.wardenOr_ok
    | with_reducible apply pinRefused_ok
    | with_reducible apply State.setReg_ok
    | with_reducible apply diffChanged_ok
    | with_reducible apply showPin_ok
    | with_reducible apply ok_ite
    | intro _ _

theorem execPinCfgWrite_ok {qq : List Instr} (w : Writer) (n : Fin 144) (v : W32) (s : State) (hs : Ok qq s) : OkOut qq (execPinCfgWrite w n v s) := by
  unfold execPinCfgWrite
  repeat' first
    | with_reducible assumption
    | with_reducible refine OkOut.next ?_
    | with_reducible apply State.linked_ok
    | with_reducible apply pinCfgWrite_ok

theorem pinMuxWrite_ok {qq : List Instr} (w : Writer) (n : Nat) (v : W32) (s : State) (hs : Ok qq s) : Ok qq (pinMuxWrite w n v s) := by
  unfold pinMuxWrite
  repeat' first
    | with_reducible assumption
    | (extract_lets +onlyGivenNames x; refine have hx : Ok qq x := ?_; ?_; rotate_left; clear_value x; rotate_right; subst x)
    | (extract_lets +onlyGivenNames x; clear_value x)
    | with_reducible apply State.wardenOr_ok
    | with_reducible apply pinRefused_ok
    | with_reducible apply State.setReg_ok
    | with_reducible apply State.setFlag_ok
    | with_reducible apply ok_ite
    | intro _ _

theorem execPinMuxWrite_ok {qq : List Instr} (w : Writer) (n : Fin 144) (v : W32) (s : State) (hs : Ok qq s) : OkOut qq (execPinMuxWrite w n v s) := by
  unfold execPinMuxWrite
  repeat' first
    | with_reducible assumption
    | with_reducible refine OkOut.next ?_
    | with_reducible apply State.linked_ok
    | with_reducible apply pinMuxWrite_ok

theorem pinSwitch_ok {qq : List Instr} (n : Nat) (s : State) (hs : Ok qq s) : Ok qq (pinSwitch n s) := by
  unfold pinSwitch
  repeat' first
    | with_reducible assumption
    | with_reducible apply muxInForce_ok
    | with_reducible apply State.setFlag_ok
    | with_reducible apply ok_ite

theorem execPinSwitchEdge_ok {qq : List Instr} (n : Fin 144) (s : State) (hs : Ok qq s) : OkOut qq (execPinSwitchEdge n s) := by
  unfold execPinSwitchEdge
  repeat' first
    | with_reducible assumption
    | with_reducible refine OkOut.next ?_
    | with_reducible apply pinSwitch_ok

theorem pinOvlWrite_ok {qq : List Instr} (w : Writer) (n : Nat) (v : W32) (s : State) (hs : Ok qq s) : Ok qq (pinOvlWrite w n v s) := by
  unfold pinOvlWrite
  repeat' first
    | with_reducible assumption
    | (extract_lets +onlyGivenNames x; clear_value x)
    | with_reducible apply State.wardenOr_ok
    | with_reducible apply pinRefused_ok
    | with_reducible apply State.setReg_ok
    | with_reducible apply ok_ite
    | intro _ _

theorem execPinOvlWrite_ok {qq : List Instr} (w : Writer) (n : Fin 144) (v : W32) (s : State) (hs : Ok qq s) : OkOut qq (execPinOvlWrite w n v s) := by
  unfold execPinOvlWrite
  repeat' first
    | with_reducible assumption
    | with_reducible refine OkOut.next ?_
    | with_reducible apply State.linked_ok
    | with_reducible apply pinOvlWrite_ok

theorem pinOwnWrite_ok {qq : List Instr} (w : Writer) (n : Nat) (v : W32) (s : State) (hs : Ok qq s) : Ok qq (pinOwnWrite w n v s) := by
  unfold pinOwnWrite
  repeat' first
    | with_reducible assumption
    | (extract_lets +onlyGivenNames x; clear_value x)
    | with_reducible apply State.wardenOr_ok
    | with_reducible apply State.deny_ok
    | with_reducible apply pinRefused_ok
    | with_reducible apply State.setFld_ok
    | with_reducible apply ok_ite
    | split
    | dsimp -zeta only
    | intro _ _

theorem execPinOwnWrite_ok {qq : List Instr} (w : Writer) (n : Fin 144) (v : W32) (s : State) (hs : Ok qq s) : OkOut qq (execPinOwnWrite w n v s) := by
  unfold execPinOwnWrite
  repeat' first
    | with_reducible assumption
    | with_reducible refine OkOut.next ?_
    | with_reducible apply State.linked_ok
    | with_reducible apply pinOwnWrite_ok

theorem State.portOwned_ok {qq : List Instr} (s : State) (w : Writer) (n : Nat) (f : State → State) (hs : Ok qq s) (hf : ∀ s, Ok qq s → Ok qq (f s)) : Ok qq (State.portOwned s w n f) := by
  unfold State.portOwned
  repeat' first
    | with_reducible assumption
    | with_reducible apply pinRefused_ok
    | with_reducible apply State.deny_ok
    | with_reducible apply hf
    | with_reducible apply ok_ite

theorem pinOutWrite_ok {qq : List Instr} (w : Writer) (n : Nat) (v : W32) (s : State) (hs : Ok qq s) : Ok qq (pinOutWrite w n v s) := by
  unfold pinOutWrite
  repeat' first
    | with_reducible assumption
    | with_reducible apply State.portOwned_ok
    | with_reducible apply State.setReg_ok
    | intro _ _

theorem execPinOutWrite_ok {qq : List Instr} (w : Writer) (n : Fin 144) (v : W32) (s : State) (hs : Ok qq s) : OkOut qq (execPinOutWrite w n v s) := by
  unfold execPinOutWrite
  repeat' first
    | with_reducible assumption
    | with_reducible refine OkOut.next ?_
    | with_reducible apply State.linked_ok
    | with_reducible apply pinOutWrite_ok

theorem pinPwmWrite_ok {qq : List Instr} (w : Writer) (n : Nat) (v : W32) (s : State) (hs : Ok qq s) : Ok qq (pinPwmWrite w n v s) := by
  unfold pinPwmWrite
  repeat' first
    | with_reducible assumption
    | with_reducible apply State.portOwned_ok
    | with_reducible apply pinRefused_ok
    | with_reducible apply State.setReg_ok
    | split
    | intro _ _

theorem execPinPwmWrite_ok {qq : List Instr} (w : Writer) (n : Fin 144) (v : W32) (s : State) (hs : Ok qq s) : OkOut qq (execPinPwmWrite w n v s) := by
  unfold execPinPwmWrite
  repeat' first
    | with_reducible assumption
    | with_reducible refine OkOut.next ?_
    | with_reducible apply State.linked_ok
    | with_reducible apply pinPwmWrite_ok

theorem pwmPeriod_ok {qq : List Instr} (n : Nat) (s : State) (hs : Ok qq s) : Ok qq (pwmPeriod n s) := by
  unfold pwmPeriod
  repeat' first
    | with_reducible assumption
    | (extract_lets +onlyGivenNames x; clear_value x)
    | with_reducible apply State.setPin_ok
    | with_reducible apply ok_ite

theorem execPwmPeriod_ok {qq : List Instr} (n : Fin 144) (s : State) (hs : Ok qq s) : OkOut qq (execPwmPeriod n s) := by
  unfold execPwmPeriod
  repeat' first
    | with_reducible assumption
    | with_reducible refine OkOut.next ?_
    | with_reducible apply pwmPeriod_ok

theorem inputChange_ok {qq : List Instr} (n : Nat) (b : Bool) (level : Bool) (s : State) (hs : Ok qq s) : Ok qq (inputChange n b level s) := by
  unfold inputChange
  repeat' first
    | with_reducible assumption
    | (extract_lets +onlyGivenNames x; refine have hx : Ok qq x := ?_; ?_; rotate_left; clear_value x; rotate_right; subst x)
    | (extract_lets +onlyGivenNames x; clear_value x)
    | with_reducible apply State.setPin_ok
    | with_reducible apply showPin_ok
    | with_reducible apply ok_ite

theorem execPinInputChange_ok {qq : List Instr} (n : Fin 144) (b : Bool) (level : Bool) (s : State) (hs : Ok qq s) : OkOut qq (execPinInputChange n b level s) := by
  unfold execPinInputChange
  repeat' first
    | with_reducible assumption
    | with_reducible refine OkOut.next ?_
    | with_reducible apply inputChange_ok

theorem debounce_ok {qq : List Instr} (n : Nat) (b : Bool) (s : State) (hs : Ok qq s) : Ok qq (debounce n b s) := by
  unfold debounce
  repeat' first
    | with_reducible assumption
    | (extract_lets +onlyGivenNames x; clear_value x)
    | with_reducible apply setPinIn_ok
    | with_reducible apply ok_ite

theorem execDebounceExpiry_ok {qq : List Instr} (n : Fin 144) (b : Bool) (s : State) (hs : Ok qq s) : OkOut qq (execDebounceExpiry n b s) := by
  unfold execDebounceExpiry
  repeat' first
    | with_reducible assumption
    | with_reducible refine OkOut.next ?_
    | with_reducible apply debounce_ok

theorem lineFault_ok {qq : List Instr} (n : Nat) (on : Bool) (s : State) (hs : Ok qq s) : Ok qq (lineFault n on s) := by
  unfold lineFault
  repeat' first
    | with_reducible assumption
    | (extract_lets +onlyGivenNames x; refine have hx : Ok qq x := ?_; ?_; rotate_left; clear_value x; rotate_right; subst x)
    | with_reducible apply State.noticeIf_ok
    | with_reducible apply State.setFlag_ok
    | with_reducible apply showOpen_ok
    | with_reducible apply inputChange_ok
    | with_reducible apply ok_ite

theorem execLineFaultDetect_ok {qq : List Instr} (n : Fin 144) (on : Bool) (s : State) (hs : Ok qq s) : OkOut qq (execLineFaultDetect n on s) := by
  unfold execLineFaultDetect
  repeat' first
    | with_reducible assumption
    | with_reducible refine OkOut.next ?_
    | with_reducible apply lineFault_ok

theorem sliceCheck_ok {qq : List Instr} (n : Nat) (b : Bool) (overload : Bool) (s : State) (hs : Ok qq s) : Ok qq (sliceCheck n b overload s) := by
  unfold sliceCheck
  repeat' first
    | with_reducible assumption
    | with_reducible apply State.noticeIf_ok
    | with_reducible apply State.setFlag_ok
    | with_reducible apply trigger_ok
    | with_reducible apply ok_ite

theorem execSliceDriveCheck_ok {qq : List Instr} (n : Fin 144) (b : Bool) (overload : Bool) (s : State) (hs : Ok qq s) : OkOut qq (execSliceDriveCheck n b overload s) := by
  unfold execSliceDriveCheck
  repeat' first
    | with_reducible assumption
    | with_reducible refine OkOut.next ?_
    | with_reducible apply sliceCheck_ok

theorem dacCodeWrite_ok {qq : List Instr} (w : Writer) (k : Nat) (v : W32) (s : State) (hs : Ok qq s) : Ok qq (dacCodeWrite w k v s) := by
  unfold dacCodeWrite
  repeat' first
    | with_reducible assumption
    | with_reducible apply pinRefused_ok
    | with_reducible apply State.setFld_ok
    | with_reducible apply State.deny_ok
    | with_reducible apply ok_ite

theorem execDacCodeWrite_ok {qq : List Instr} (w : Writer) (k : Fin 16) (v : W32) (s : State) (hs : Ok qq s) : OkOut qq (execDacCodeWrite w k v s) := by
  unfold execDacCodeWrite
  repeat' first
    | with_reducible assumption
    | with_reducible refine OkOut.next ?_
    | with_reducible apply State.linked_ok
    | with_reducible apply dacCodeWrite_ok

theorem dacCfgWrite_ok {qq : List Instr} (w : Writer) (k : Nat) (v : W32) (s : State) (hs : Ok qq s) : Ok qq (dacCfgWrite w k v s) := by
  unfold dacCfgWrite
  repeat' first
    | with_reducible assumption
    | (extract_lets +onlyGivenNames x; clear_value x)
    | with_reducible apply State.wardenOr_ok
    | with_reducible apply State.deny_ok
    | with_reducible apply pinRefused_ok
    | with_reducible apply State.setReg_ok
    | with_reducible apply ok_ite
    | split
    | intro _ _

theorem execDacCfgWrite_ok {qq : List Instr} (w : Writer) (k : Fin 16) (v : W32) (s : State) (hs : Ok qq s) : OkOut qq (execDacCfgWrite w k v s) := by
  unfold execDacCfgWrite
  repeat' first
    | with_reducible assumption
    | with_reducible refine OkOut.next ?_
    | with_reducible apply State.linked_ok
    | with_reducible apply dacCfgWrite_ok

theorem ainCfgWrite_ok {qq : List Instr} (w : Writer) (k : Nat) (v : W32) (s : State) (hs : Ok qq s) : Ok qq (ainCfgWrite w k v s) := by
  unfold ainCfgWrite
  repeat' first
    | with_reducible assumption
    | (extract_lets +onlyGivenNames x; clear_value x)
    | with_reducible apply State.wardenOr_ok
    | with_reducible apply pinRefused_ok
    | with_reducible apply State.setReg_ok
    | with_reducible apply ok_ite
    | split
    | intro _ _

theorem execAinCfgWrite_ok {qq : List Instr} (w : Writer) (k : Fin 16) (v : W32) (s : State) (hs : Ok qq s) : OkOut qq (execAinCfgWrite w k v s) := by
  unfold execAinCfgWrite
  repeat' first
    | with_reducible assumption
    | with_reducible refine OkOut.next ?_
    | with_reducible apply State.linked_ok
    | with_reducible apply ainCfgWrite_ok

theorem pinSave_ok {qq : List Instr} (s : State) (hs : Ok qq s) : Ok qq (pinSave s) := by
  unfold pinSave
  repeat' first
    | with_reducible assumption
    | with_reducible apply raiseRecord_ok
    | with_reducible apply pinRefused_ok
    | with_reducible apply ok_ite

theorem laneCntClr_ok {qq : List Instr} (s : State) (hs : Ok qq s) : Ok qq (laneCntClr s) := by
  unfold laneCntClr
  repeat' first
    | with_reducible assumption
    | with_reducible apply State.setReg_ok
    | (with_reducible refine ok_foldl ?_ _ ?_; intro _ _ _)

theorem pinGctlWrite_ok {qq : List Instr} (w : Writer) (v : W32) (s : State) (hs : Ok qq s) : Ok qq (pinGctlWrite w v s) := by
  unfold pinGctlWrite
  repeat' first
    | with_reducible assumption
    | (extract_lets +onlyGivenNames x; refine have hx : Ok qq x := ?_; ?_; rotate_left; clear_value x; rotate_right; subst x)
    | with_reducible apply State.denyWarden_ok
    | with_reducible apply State.setFld_ok
    | with_reducible apply laneCntClr_ok
    | with_reducible apply pinSave_ok
    | with_reducible apply ok_ite

theorem execPinSave_ok {qq : List Instr} (w : Writer) (s : State) (hs : Ok qq s) : OkOut qq (execPinSave w s) := by
  unfold execPinSave
  repeat' first
    | with_reducible assumption
    | with_reducible refine OkOut.next ?_
    | with_reducible apply State.linked_ok
    | with_reducible apply pinGctlWrite_ok
    | intro _ _

theorem execLaneCntClr_ok {qq : List Instr} (w : Writer) (s : State) (hs : Ok qq s) : OkOut qq (execLaneCntClr w s) := by
  unfold execLaneCntClr
  repeat' first
    | with_reducible assumption
    | with_reducible refine OkOut.next ?_
    | with_reducible apply State.linked_ok
    | with_reducible apply laneCntClr_ok

end Sys2Proof.Machine
end

