-- ==== Sys2Proof/Laws/OkLanes.lean ====
section
/-! SUPPORT. What the operations of Machine/Lanes.lean keep: each takes a sound state with the same commands waiting to
such a state (see Laws/Ok.lean). -/

namespace Sys2Proof.Machine

theorem laneSwitch_ok {qq : List Instr} (l : Nat) (on : Bool) (s : State) (hs : Ok qq s) : Ok qq (laneSwitch l on s) := by
  unfold laneSwitch
  repeat' first
    | with_reducible assumption
    | with_reducible apply laneTrain_ok
    | with_reducible apply setLaneState_ok
    | with_reducible apply ok_ite
    | split

theorem laneCfgWrite_ok {qq : List Instr} (w : Writer) (l : Nat) (v : W32) (s : State) (hs : Ok qq s) : Ok qq (laneCfgWrite w l v s) := by
  unfold laneCfgWrite
  repeat' first
    | with_reducible assumption
    | (extract_lets +onlyGivenNames x; refine have hx : Ok qq x := ?_; ?_; rotate_left; clear_value x; rotate_right; subst x)
    | (extract_lets +onlyGivenNames x; clear_value x)
    | with_reducible apply State.wardenOr_ok
    | with_reducible apply pinRefused_ok
    | with_reducible apply State.setReg_ok
    | with_reducible apply laneSwitch_ok
    | with_reducible apply ok_ite
    | intro _ _

theorem execLaneEnable_ok {qq : List Instr} (w : Writer) (l : Fin 4) (v : W32) (s : State) (hs : Ok qq s) : OkOut qq (execLaneEnable w l v s) := by
  unfold execLaneEnable
  repeat' first
    | with_reducible assumption
    | with_reducible refine OkOut.next ?_
    | with_reducible apply State.linked_ok
    | with_reducible apply laneCfgWrite_ok

theorem execLaneDisable_ok {qq : List Instr} (w : Writer) (l : Fin 4) (v : W32) (s : State) (hs : Ok qq s) : OkOut qq (execLaneDisable w l v s) := by
  unfold execLaneDisable
  repeat' first
    | with_reducible assumption
    | with_reducible refine OkOut.next ?_
    | with_reducible apply State.linked_ok
    | with_reducible apply laneCfgWrite_ok

theorem laneStopDone_ok {qq : List Instr} (l : Nat) (s : State) (hs : Ok qq s) : Ok qq (laneStopDone l s) := by
  unfold laneStopDone
  repeat' first
    | with_reducible assumption
    | with_reducible apply laneHalt_ok
    | with_reducible apply laneTrain_ok
    | split

theorem execLaneStopDone_ok {qq : List Instr} (l : Fin 4) (s : State) (hs : Ok qq s) : OkOut qq (execLaneStopDone l s) := by
  unfold execLaneStopDone
  repeat' first
    | with_reducible assumption
    | with_reducible refine OkOut.next ?_
    | with_reducible apply laneStopDone_ok

theorem laneAligned_ok {qq : List Instr} (l : Nat) (s : State) (hs : Ok qq s) : Ok qq (laneAligned l s) := by
  unfold laneAligned
  repeat' first
    | with_reducible assumption
    | (extract_lets +onlyGivenNames x; refine have hx : Ok qq x := ?_; ?_; rotate_left; clear_value x; rotate_right; subst x)
    | with_reducible apply setLaneState_ok
    | with_reducible apply streamPump_ok
    | with_reducible apply ok_ite

theorem tetherAligns_ok {qq : List Instr} (l : Nat) (s : State) (hs : Ok qq s) : Ok qq (tetherAligns l s) := by
  unfold tetherAligns
  repeat' first
    | with_reducible assumption
    | (extract_lets +onlyGivenNames x; clear_value x)
    | with_reducible apply laneAligned_ok
    | with_reducible apply ok_ite

theorem laneLock_ok {qq : List Instr} (l : Nat) (s : State) (hs : Ok qq s) : Ok qq (laneLock l s) := by
  unfold laneLock
  repeat' first
    | with_reducible assumption
    | (extract_lets +onlyGivenNames x; refine have hx : Ok qq x := ?_; ?_; rotate_left; clear_value x; rotate_right; subst x)
    | (extract_lets +onlyGivenNames x; clear_value x)
    | with_reducible apply State.setLane_ok
    | with_reducible apply laneAligned_ok
    | with_reducible apply tetherAligns_ok
    | with_reducible apply ok_ite

theorem execLaneLock_ok {qq : List Instr} (l : Fin 4) (s : State) (hs : Ok qq s) : OkOut qq (execLaneLock l s) := by
  unfold execLaneLock
  repeat' first
    | with_reducible assumption
    | with_reducible refine OkOut.next ?_
    | with_reducible apply laneLock_ok

theorem execLaneLinkLoss_ok {qq : List Instr} (l : Fin 4) (codes : BitVec 16) (s : State) (hs : Ok qq s) : OkOut qq (execLaneLinkLoss l codes s) := by
  unfold execLaneLinkLoss
  repeat' first
    | with_reducible assumption
    | with_reducible refine OkOut.next ?_
    | with_reducible apply laneLost_ok
    | with_reducible apply State.bump_ok

theorem badMessage_ok {qq : List Instr} (l : Nat) (s : State) (hs : Ok qq s) : Ok qq (badMessage l s) := by
  unfold badMessage
  repeat' first
    | with_reducible assumption
    | with_reducible apply State.bump_ok

theorem ident_ok {qq : List Instr} (l : Nat) (index : Nat) (ack : Bool) (good : Bool) (s : State) (hs : Ok qq s) : Ok qq (ident l index ack good s) := by
  unfold ident
  repeat' first
    | with_reducible assumption
    | (extract_lets +onlyGivenNames x; refine have hx : Ok qq x := ?_; ?_; rotate_left; clear_value x; rotate_right; subst x)
    | (extract_lets +onlyGivenNames x; clear_value x)
    | with_reducible apply badMessage_ok
    | with_reducible apply State.setFld_ok
    | with_reducible apply State.setLane_ok
    | with_reducible apply pullGate_ok
    | with_reducible apply tetherAligns_ok
    | with_reducible apply ok_ite

theorem execIdentMsg_ok {qq : List Instr} (l : Fin 2) (_ident : W32) (index : Byte) (ack : Bool) (good : Bool) (s : State) (hs : Ok qq s) : OkOut qq (execIdentMsg l _ident index ack good s) := by
  unfold execIdentMsg
  repeat' first
    | with_reducible assumption
    | with_reducible refine OkOut.next ?_
    | with_reducible apply ident_ok

theorem identSend_ok {qq : List Instr} (l : Nat) (s : State) (hs : Ok qq s) : Ok qq (identSend l s) := by
  unfold identSend
  repeat' first
    | with_reducible assumption
    | (extract_lets +onlyGivenNames x; clear_value x)
    | with_reducible apply State.sendLane_ok
    | with_reducible apply ok_ite

theorem execIdentSendTimer_ok {qq : List Instr} (l : Fin 2) (s : State) (hs : Ok qq s) : OkOut qq (execIdentSendTimer l s) := by
  unfold execIdentSendTimer
  repeat' first
    | with_reducible assumption
    | with_reducible refine OkOut.next ?_
    | with_reducible apply identSend_ok

theorem half_ok {qq : List Instr} (v : Int) (s : State) (hs : Ok qq s) : Ok qq (half v s).1 := by
  unfold half
  repeat' first
    | with_reducible assumption
    | with_reducible apply State.tookFree_ok

theorem exchange_ok {qq : List Instr} (l : Nat) (d : Nat) (ofs : Int) (s : State) (hs : Ok qq s) : Ok qq (exchange l d ofs s) := by
  unfold exchange
  repeat' first
    | with_reducible assumption
    | (extract_lets +onlyGivenNames x; refine have hx : Ok qq x := ?_; ?_; rotate_left; clear_value x; rotate_right; subst x)
    | (extract_lets +onlyGivenNames x; clear_value x)
    | (extract_lets +onlyGivenNames x; subst x)
    | with_reducible apply State.setLane_ok
    | with_reducible apply State.setReg_ok
    | with_reducible apply offsetLost_ok
    | with_reducible apply State.setFlag_ok
    | with_reducible apply ok_ite

theorem timeMsg_ok {qq : List Instr} (l : Nat) (tSend : W64) (tEcho : W64) (tRecv : W64) (d : W64) (good : Bool) (s : State) (hs : Ok qq s) : Ok qq (timeMsg l tSend tEcho tRecv d good s) := by
  unfold timeMsg
  repeat' first
    | with_reducible assumption
    | (extract_lets +onlyGivenNames x; refine have hx : Ok qq x := ?_; ?_; rotate_left; clear_value x; rotate_right; subst x)
    | (extract_lets +onlyGivenNames x; clear_value x)
    | with_reducible apply badMessage_ok
    | with_reducible apply State.setLane_ok
    | with_reducible apply half_ok
    | with_reducible apply State.setReg_ok
    | with_reducible apply exchange_ok
    | with_reducible apply ok_ite

theorem execTimeMsg_ok {qq : List Instr} (l : Fin 2) (tSend : W64) (tEcho : W64) (tRecv : W64) (d : W64) (good : Bool) (s : State) (hs : Ok qq s) : OkOut qq (execTimeMsg l tSend tEcho tRecv d good s) := by
  unfold execTimeMsg
  repeat' first
    | with_reducible assumption
    | with_reducible refine OkOut.next ?_
    | with_reducible apply timeMsg_ok

theorem timeSend_ok {qq : List Instr} (l : Nat) (s : State) (hs : Ok qq s) : Ok qq (timeSend l s) := by
  unfold timeSend
  repeat' first
    | with_reducible assumption
    | (extract_lets +onlyGivenNames x; clear_value x)
    | with_reducible apply State.sendLane_ok
    | with_reducible apply ok_ite

theorem execTimeSendTimer_ok {qq : List Instr} (l : Fin 2) (s : State) (hs : Ok qq s) : OkOut qq (execTimeSendTimer l s) := by
  unfold execTimeSendTimer
  repeat' first
    | with_reducible assumption
    | with_reducible refine OkOut.next ?_
    | with_reducible apply timeSend_ok

theorem execTimeMissing_ok {qq : List Instr} (l : Fin 2) (s : State) (hs : Ok qq s) : OkOut qq (execTimeMissing l s) := by
  unfold execTimeMissing
  repeat' first
    | with_reducible assumption
    | with_reducible refine OkOut.next ?_
    | with_reducible apply offsetLost_ok

theorem sendAck_ok {qq : List Instr} (nak : Bool) (s : State) (hs : Ok qq s) : Ok qq (sendAck nak s) := by
  unfold sendAck
  repeat' first
    | with_reducible assumption
    | (extract_lets +onlyGivenNames x; clear_value x)
    | with_reducible apply State.sendLane_ok

theorem tetherEnds_ok {qq : List Instr} (s : State) (hs : Ok qq s) : Ok qq (tetherEnds s) := by
  unfold tetherEnds
  repeat' first
    | with_reducible assumption
    | (extract_lets +onlyGivenNames x; refine have hx : Ok qq x := ?_; ?_; rotate_left; clear_value x; rotate_right; subst x)
    | (extract_lets +onlyGivenNames x; clear_value x)
    | with_reducible apply State.setLane_ok
    | with_reducible apply ldrFail_ok
    | with_reducible apply ok_ite

theorem streamTake_ok {qq : List Instr} (a0 : Nat) (a1 : State) (ha1 : Ok qq a1) : Ok qq (streamTake a0 a1) := by
  revert ha1
  fun_induction streamTake a0 a1 <;> intro ha1
  all_goals repeat' first
    | with_reducible assumption
    | with_reducible refine (by assumption : Ok _ _ → Ok _ _) ?_
    | (extract_lets +onlyGivenNames x; clear_value x)
    | with_reducible refine ok_mk (ok_fst (by assumption) ?_) rfl rfl rfl rfl rfl rfl rfl rfl rfl
    | with_reducible apply State.setLane_ok
    | with_reducible apply ldrOffer_ok
    | with_reducible apply tetherEnds_ok

theorem streamServe_ok {qq : List Instr} (s : State) (hs : Ok qq s) : Ok qq (streamServe s) := by
  unfold streamServe
  repeat' first
    | with_reducible assumption
    | (extract_lets +onlyGivenNames x; refine have hx : Ok qq x := ?_; ?_; rotate_left; clear_value x; rotate_right; subst x)
    | (extract_lets +onlyGivenNames x; clear_value x)
    | with_reducible apply streamTake_ok
    | with_reducible apply sendAck_ok
    | with_reducible apply ok_ite

theorem stream_ok {qq : List Instr} (seq : Nat) (data : List Byte) (good : Bool) (s : State) (hs : Ok qq s) : Ok qq (stream seq data good s) := by
  unfold stream
  repeat' first
    | with_reducible assumption
    | (extract_lets +onlyGivenNames x; clear_value x)
    | with_reducible apply sendAck_ok
    | with_reducible apply badMessage_ok
    | with_reducible apply streamServe_ok
    | with_reducible apply State.setLane_ok
    | with_reducible apply ok_ite

theorem execStreamMsg_ok {qq : List Instr} (seq : BitVec 16) (data : List Byte) (good : Bool) (s : State) (hs : Ok qq s) : OkOut qq (execStreamMsg seq data good s) := by
  unfold execStreamMsg
  repeat' first
    | with_reducible assumption
    | with_reducible refine OkOut.next ?_
    | with_reducible apply stream_ok

theorem ackSend_ok {qq : List Instr} (s : State) (hs : Ok qq s) : Ok qq (ackSend s) := by
  unfold ackSend
  repeat' first
    | with_reducible assumption
    | (extract_lets +onlyGivenNames x; refine have hx : Ok qq x := ?_; ?_; rotate_left; clear_value x; rotate_right; subst x)
    | with_reducible apply streamTake_ok
    | with_reducible apply sendAck_ok
    | with_reducible apply ok_ite

theorem execAckSendTimer_ok {qq : List Instr} (s : State) (hs : Ok qq s) : OkOut qq (execAckSendTimer s) := by
  unfold execAckSendTimer
  repeat' first
    | with_reducible assumption
    | with_reducible refine OkOut.next ?_
    | with_reducible apply ackSend_ok

theorem resend_ok {qq : List Instr} (s : State) (hs : Ok qq s) : Ok qq (resend s) := by
  unfold resend
  repeat' first
    | with_reducible assumption
    | with_reducible apply State.sendLane_ok
    | (with_reducible refine ok_foldl ?_ _ ?_; intro _ _ _)

theorem ack_ok {qq : List Instr} (seq : Nat) (credits : Nat) (nak : Bool) (good : Bool) (s : State) (hs : Ok qq s) : Ok qq (ack seq credits nak good s) := by
  unfold ack
  repeat' first
    | with_reducible assumption
    | (extract_lets +onlyGivenNames x; refine have hx : Ok qq x := ?_; ?_; rotate_left; clear_value x; rotate_right; subst x)
    | (extract_lets +onlyGivenNames x; clear_value x)
    | with_reducible apply badMessage_ok
    | with_reducible apply State.setLane_ok
    | with_reducible apply streamPump_ok
    | with_reducible apply resend_ok
    | with_reducible apply ok_ite

theorem execAckMsg_ok {qq : List Instr} (seq : BitVec 16) (credits : Byte) (nak : Bool) (good : Bool) (s : State) (hs : Ok qq s) : OkOut qq (execAckMsg seq credits nak good s) := by
  unfold execAckMsg
  repeat' first
    | with_reducible assumption
    | with_reducible refine OkOut.next ?_
    | with_reducible apply ack_ok

theorem execStreamAckTimeout_ok {qq : List Instr} (s : State) (hs : Ok qq s) : OkOut qq (execStreamAckTimeout s) := by
  unfold execStreamAckTimeout
  repeat' first
    | with_reducible assumption
    | with_reducible refine OkOut.next ?_
    | with_reducible apply resend_ok
    | with_reducible apply ok_ite

theorem eosMsg_ok {qq : List Instr} (good : Bool) (s : State) (hs : Ok qq s) : Ok qq (eosMsg good s) := by
  unfold eosMsg
  repeat' first
    | with_reducible assumption
    | (extract_lets +onlyGivenNames x; clear_value x)
    | with_reducible apply badMessage_ok
    | with_reducible apply streamTake_ok
    | with_reducible apply State.setLane_ok
    | with_reducible apply ok_ite

theorem execEosMsg_ok {qq : List Instr} (_total : W64) (good : Bool) (s : State) (hs : Ok qq s) : OkOut qq (execEosMsg _total good s) := by
  unfold execEosMsg
  repeat' first
    | with_reducible assumption
    | with_reducible refine OkOut.next ?_
    | with_reducible apply eosMsg_ok

theorem wordRx_ok {qq : List Instr} (l : Nat) (v : W64) (sync : Nat) (s : State) (hs : Ok qq s) : Ok qq (wordRx l v sync s) := by
  unfold wordRx
  repeat' first
    | with_reducible assumption
    | (extract_lets +onlyGivenNames x; refine have hx : Ok qq x := ?_; ?_; rotate_left; clear_value x; rotate_right; subst x)
    | (extract_lets +onlyGivenNames x; clear_value x)
    | with_reducible apply State.bump_ok
    | with_reducible apply queSettle_ok
    | with_reducible apply queEnter_ok
    | with_reducible apply laneCode_ok
    | with_reducible apply State.noticeIf_ok
    | with_reducible apply ok_ite

theorem execLaneWordRx_ok {qq : List Instr} (l : Fin 2) (v : W64) (sync : BitVec 2) (s : State) (hs : Ok qq s) : OkOut qq (execLaneWordRx l v sync s) := by
  unfold execLaneWordRx
  repeat' first
    | with_reducible assumption
    | with_reducible refine OkOut.next ?_
    | with_reducible apply wordRx_ok

theorem wordTx_ok {qq : List Instr} (l : Nat) (s : State) (hs : Ok qq s) : Ok qq (wordTx l s) := by
  unfold wordTx
  repeat' first
    | with_reducible assumption
    | (extract_lets +onlyGivenNames x; clear_value x)
    | with_reducible apply queLeave_ok
    | with_reducible apply State.sendLane_ok
    | with_reducible apply queSettle_ok
    | with_reducible apply ok_ite

theorem execLaneWordTx_ok {qq : List Instr} (l : Fin 2) (s : State) (hs : Ok qq s) : OkOut qq (execLaneWordTx l s) := by
  unfold execLaneWordTx
  repeat' first
    | with_reducible assumption
    | with_reducible refine OkOut.next ?_
    | with_reducible apply wordTx_ok

end Sys2Proof.Machine
end

