-- ==== Sys2Proof/Laws/OkLead.lean ====
section
/-! SUPPORT. What the operations of Machine/Lead.lean keep: each takes a sound state with the same commands waiting to
such a state (see Laws/Ok.lean). -/

namespace Sys2Proof.Machine

theorem holdActions_ok {qq : List Instr} (s : State) (hs : Ok qq s) : Ok qq (holdActions s) := by
  unfold holdActions
  repeat' first
    | with_reducible exact ok_mk (by assumption) rfl rfl rfl rfl rfl rfl rfl rfl rfl

theorem abortAction_ok {qq : List Instr} (s : State) (a1 : Action) (hs : Ok qq s) : Ok qq (abortAction s a1) := by
  cases a1 with
  | load => exact ldrFail_ok _ _ hs
  | bist => exact showHealth_ok _ (State.setFld_ok _ _ _ _ _ (State.setFld_ok _ _ _ _ _ (ok_mk hs rfl rfl rfl rfl rfl rfl rfl rfl rfl)))
  | power => exact powerAborted_ok _ hs
  | start => exact startHeld_ok _ hs
  | _ => exact hs

theorem splitStart_ok {qq : List Instr} (s : State) (hs : Ok qq s) : Ok qq (splitStart s) := by
  unfold splitStart
  repeat' first
    | with_reducible assumption
    | with_reducible exact ok_mk (by assumption) rfl rfl rfl rfl rfl rfl rfl rfl rfl
    | (extract_lets +onlyGivenNames x; refine have hx : Ok qq x := ?_; ?_; rotate_left; clear_value x; rotate_right; subst x)
    | (extract_lets +onlyGivenNames x; clear_value x)
    | with_reducible apply State.setPhase_ok
    | with_reducible apply ok_ite

theorem abortHeld_ok {qq : List Instr} (s : State) (hs : Ok qq s) : Ok qq (abortHeld s) := by
  unfold abortHeld
  repeat' first
    | with_reducible assumption
    | with_reducible exact ok_mk (by assumption) rfl rfl rfl rfl rfl rfl rfl rfl rfl
    | (extract_lets +onlyGivenNames x; refine have hx : Ok qq x := ?_; ?_; rotate_left; clear_value x; rotate_right; subst x)
    | (extract_lets +onlyGivenNames x; clear_value x)
    | with_reducible apply startHeld_ok
    | with_reducible apply abortAction_ok
    | with_reducible apply State.setPhase_ok
    | with_reducible apply ok_ite
    | (with_reducible refine ok_foldl ?_ _ ?_; intro _ _ _)

theorem resumeHeld_ok {qq : List Instr} (s : State) (hs : Ok qq s) : Ok qq (resumeHeld s) := by
  unfold resumeHeld
  repeat' first
    | with_reducible assumption
    | with_reducible exact ok_mk (by assumption) rfl rfl rfl rfl rfl rfl rfl rfl rfl
    | (extract_lets +onlyGivenNames x; refine have hx : Ok qq x := ?_; ?_; rotate_left; clear_value x; rotate_right; subst x)
    | (extract_lets +onlyGivenNames x; clear_value x)
    | with_reducible apply State.setPhase_ok
    | with_reducible apply abortHeld_ok
    | with_reducible apply ok_ite

theorem toAgreed_ok {qq : List Instr} (s : State) (hs : Ok qq s) : Ok qq (toAgreed s) := by
  unfold toAgreed
  repeat' first
    | with_reducible assumption
    | with_reducible apply resumeHeld_ok
    | with_reducible apply State.setFld_ok

theorem beginSplit_ok {qq : List Instr} (s : State) (hs : Ok qq s) : Ok qq (beginSplit s) := by
  unfold beginSplit
  repeat' first
    | with_reducible assumption
    | with_reducible exact ok_mk (by assumption) rfl rfl rfl rfl rfl rfl rfl rfl rfl
    | (extract_lets +onlyGivenNames x; refine have hx : Ok qq x := ?_; ?_; rotate_left; clear_value x; rotate_right; subst x)
    | (extract_lets +onlyGivenNames x; clear_value x)
    | with_reducible apply splitStart_ok
    | with_reducible apply holdActions_ok
    | with_reducible apply State.setFld_ok
    | with_reducible apply State.bump_ok
    | with_reducible apply State.setFlag_ok
    | with_reducible apply State.alarm_ok
    | with_reducible apply ok_ite

theorem handoverStep_ok {qq : List Instr} (s : State) (hs : Ok qq s) : Ok qq (handoverStep s) := by
  unfold handoverStep
  repeat' first
    | with_reducible assumption
    | with_reducible exact ok_mk (by assumption) rfl rfl rfl rfl rfl rfl rfl rfl rfl
    | (extract_lets +onlyGivenNames x; refine have hx : Ok qq x := ?_; ?_; rotate_left; clear_value x; rotate_right; subst x)
    | (extract_lets +onlyGivenNames x; clear_value x)
    | with_reducible apply State.setFlag_ok
    | with_reducible apply State.setFld_ok
    | with_reducible apply ok_ite

theorem splitGood_ok {qq : List Instr} (s : State) (hs : Ok qq s) : Ok qq (splitGood s) := by
  unfold splitGood
  repeat' first
    | with_reducible assumption
    | with_reducible exact ok_mk (by assumption) rfl rfl rfl rfl rfl rfl rfl rfl rfl
    | (extract_lets +onlyGivenNames x; refine have hx : Ok qq x := ?_; ?_; rotate_left; clear_value x; rotate_right; subst x)
    | (extract_lets +onlyGivenNames x; clear_value x)
    | with_reducible apply State.setFld_ok
    | with_reducible apply toAgreed_ok
    | with_reducible apply ok_ite

theorem disagree_ok {qq : List Instr} (s : State) (hs : Ok qq s) : Ok qq (disagree s) := by
  unfold disagree
  repeat' first
    | with_reducible assumption
    | (extract_lets +onlyGivenNames x; refine have hx : Ok qq x := ?_; ?_; rotate_left; clear_value x; rotate_right; subst x)
    | (extract_lets +onlyGivenNames x; clear_value x)
    | with_reducible apply holdActions_ok
    | with_reducible apply State.setFld_ok
    | with_reducible apply State.bump_ok
    | with_reducible apply State.setFlag_ok
    | with_reducible apply State.notice_ok
    | with_reducible apply toAgreed_ok
    | with_reducible apply ok_ite

theorem viewInterval_ok {qq : List Instr} (goodWest : Bool) (goodEast : Bool) (claimWest : Bool) (claimEast : Bool) (s : State) (hs : Ok qq s) : Ok qq (viewInterval goodWest goodEast claimWest claimEast s) := by
  unfold viewInterval
  repeat' first
    | with_reducible exact ok_mk (by assumption) rfl rfl rfl rfl rfl rfl rfl rfl rfl
    | (extract_lets +onlyGivenNames x; clear_value x)
    | (extract_lets +onlyGivenNames x; subst x)
    | with_reducible apply splitGood_ok
    | with_reducible apply beginSplit_ok
    | with_reducible apply handoverStep_ok
    | with_reducible apply toAgreed_ok
    | with_reducible apply disagree_ok
    | with_reducible apply ok_ite
    | split
    | dsimp -zeta only

theorem execViewInterval_ok {qq : List Instr} (goodWest : Bool) (goodEast : Bool) (claimWest : Bool) (claimEast : Bool) (s : State) (hs : Ok qq s) : OkOut qq (execViewInterval goodWest goodEast claimWest claimEast s) := by
  unfold execViewInterval
  repeat' first
    | with_reducible assumption
    | with_reducible refine OkOut.next ?_
    | with_reducible apply viewInterval_ok

theorem writeLead_ok {qq : List Instr} (w : Writer) (v : W32) (s : State) (hs : Ok qq s) : Ok qq (writeLead w v s) := by
  unfold writeLead
  repeat' first
    | with_reducible assumption
    | with_reducible exact ok_mk (by assumption) rfl rfl rfl rfl rfl rfl rfl rfl rfl
    | (extract_lets +onlyGivenNames x; refine have hx : Ok qq x := ?_; ?_; rotate_left; clear_value x; rotate_right; subst x)
    | (extract_lets +onlyGivenNames x; clear_value x)
    | with_reducible apply State.setReg_ok
    | with_reducible apply State.denyWarden_ok
    | with_reducible apply State.setFlag_ok
    | with_reducible apply ok_ite

theorem execHandover_ok {qq : List Instr} (w : Writer) (v : W32) (s : State) (hs : Ok qq s) : OkOut qq (execHandover w v s) := by
  unfold execHandover
  repeat' first
    | with_reducible assumption
    | with_reducible refine OkOut.next ?_
    | with_reducible apply State.linked_ok
    | with_reducible apply writeLead_ok

theorem execDeviceActionHoldTimeout_ok {qq : List Instr} (s : State) (hs : Ok qq s) : OkOut qq (execDeviceActionHoldTimeout s) := by
  unfold execDeviceActionHoldTimeout
  repeat' first
    | with_reducible assumption
    | with_reducible refine OkOut.next ?_
    | with_reducible apply abortHeld_ok
    | with_reducible apply ok_ite

theorem execStewardActionResume_ok {qq : List Instr} (s : State) (hs : Ok qq s) : OkOut qq (execStewardActionResume s) := by
  unfold execStewardActionResume
  repeat' first
    | with_reducible assumption
    | with_reducible exact ok_mk (by assumption) rfl rfl rfl rfl rfl rfl rfl rfl rfl
    | (extract_lets +onlyGivenNames x; clear_value x)
    | with_reducible refine OkOut.next ?_
    | with_reducible apply ok_ite

theorem execLoadWindow_ok {qq : List Instr} (h : Fin 2) (load : Fin 1001) (s : State) (hs : Ok qq s) : OkOut qq (execLoadWindow h load s) := by
  unfold execLoadWindow
  repeat' first
    | with_reducible assumption
    | (extract_lets +onlyGivenNames x; refine have hx : Ok qq x := ?_; ?_; rotate_left; clear_value x; rotate_right; subst x)
    | with_reducible refine OkOut.next ?_
    | with_reducible apply State.setFld_ok
    | with_reducible apply ok_ite

theorem loadPeakClr_ok {qq : List Instr} (h : Nat) (s : State) (hs : Ok qq s) : Ok qq (loadPeakClr h s) := by
  unfold loadPeakClr
  repeat' first
    | with_reducible assumption
    | with_reducible apply State.setFld_ok

theorem execLoadPeakClr_ok {qq : List Instr} (w : Writer) (h : Fin 2) (s : State) (hs : Ok qq s) : OkOut qq (execLoadPeakClr w h s) := by
  unfold execLoadPeakClr
  repeat' first
    | with_reducible assumption
    | with_reducible refine OkOut.next ?_
    | with_reducible apply State.linked_ok
    | with_reducible apply loadPeakClr_ok

theorem alarmAck_ok {qq : List Instr} (w : Writer) (bits : BitVec 9) (s : State) (hs : Ok qq s) : Ok qq (alarmAck w bits s) := by
  unfold alarmAck
  repeat' first
    | with_reducible assumption
    | with_reducible exact ok_mk (by assumption) rfl rfl rfl rfl rfl rfl rfl rfl rfl
    | (extract_lets +onlyGivenNames x; refine have hx : Ok qq x := ?_; ?_; rotate_left; clear_value x; rotate_right; subst x)
    | (extract_lets +onlyGivenNames x; clear_value x)
    | with_reducible apply State.wardenOr_ok
    | with_reducible apply State.setFld_ok
    | with_reducible apply ok_ite
    | intro _ _

theorem execAlarmAck_ok {qq : List Instr} (w : Writer) (bits : BitVec 9) (s : State) (hs : Ok qq s) : OkOut qq (execAlarmAck w bits s) := by
  unfold execAlarmAck
  repeat' first
    | with_reducible assumption
    | with_reducible refine OkOut.next ?_
    | with_reducible apply State.linked_ok
    | with_reducible apply alarmAck_ok

end Sys2Proof.Machine
end

