-- ==== Sys2Proof/Laws/OkTimebase.lean ====
section
/-! SUPPORT. What the operations of Machine/Timebase.lean keep: each takes a sound state with the same commands waiting to
such a state (see Laws/Ok.lean). -/

namespace Sys2Proof.Machine

theorem countWaiting_ok {qq : List Instr} (n : Nat) (s : State) (hs : Ok qq s) : Ok qq (countWaiting n s) := by
  unfold countWaiting
  repeat' first
    | with_reducible assumption
    | (extract_lets +onlyGivenNames x; clear_value x)
    | with_reducible apply takeCounts_ok
    | with_reducible apply State.setTb_ok
    | split

theorem quadEdge_ok {qq : List Instr} (n : Nat) (onB : Bool) (a : Bool) (b : Bool) (at_ : Nat) (s : State) (hs : Ok qq s) : Ok qq (quadEdge n onB a b at_ s) := by
  unfold quadEdge
  repeat' first
    | with_reducible assumption
    | (extract_lets +onlyGivenNames x; refine have hx : Ok qq x := ?_; ?_; rotate_left; clear_value x; rotate_right; subst x)
    | (extract_lets +onlyGivenNames x; clear_value x)
    | with_reducible apply State.setTb_ok
    | with_reducible apply raiseFault_ok
    | with_reducible apply lostEdges_ok
    | with_reducible apply countWaiting_ok
    | with_reducible apply ok_ite

theorem execQuadEdge_ok {qq : List Instr} (n : Fin 32) (onB : Bool) (a : Bool) (b : Bool) (t : Stamp) (s : State) (hs : Ok qq s) : OkOut qq (execQuadEdge n onB a b t s) := by
  unfold execQuadEdge
  repeat' first
    | with_reducible assumption
    | with_reducible refine OkOut.next ?_
    | with_reducible apply quadEdge_ok

theorem execQuadCountCommit_ok {qq : List Instr} (n : Fin 32) (s : State) (hs : Ok qq s) : OkOut qq (execQuadCountCommit n s) := by
  unfold execQuadCountCommit
  repeat' first
    | with_reducible assumption
    | with_reducible refine OkOut.next ?_
    | with_reducible apply countWaiting_ok
    | with_reducible apply ok_ite

theorem indexEdge_ok {qq : List Instr} (n : Nat) (at_ : Nat) (s : State) (hs : Ok qq s) : Ok qq (indexEdge n at_ s) := by
  unfold indexEdge
  repeat' first
    | with_reducible assumption
    | (extract_lets +onlyGivenNames x; refine have hx : Ok qq x := ?_; ?_; rotate_left; clear_value x; rotate_right; subst x)
    | (extract_lets +onlyGivenNames x; clear_value x)
    | with_reducible apply State.setReg_ok
    | with_reducible apply State.tookFree_ok
    | with_reducible apply State.setTb_ok
    | with_reducible apply raiseFault_ok
    | with_reducible apply State.setFlag_ok
    | with_reducible apply ok_ite

theorem execIndexEdge_ok {qq : List Instr} (n : Fin 32) (t : Stamp) (s : State) (hs : Ok qq s) : OkOut qq (execIndexEdge n t s) := by
  unfold execIndexEdge
  repeat' first
    | with_reducible assumption
    | with_reducible refine OkOut.next ?_
    | with_reducible apply indexEdge_ok

theorem autoCal_ok {qq : List Instr} (n : Nat) (at_ : Nat) (s : State) (hs : Ok qq s) : Ok qq (autoCal n at_ s) := by
  unfold autoCal
  repeat' first
    | with_reducible assumption
    | (extract_lets +onlyGivenNames x; refine have hx : Ok qq x := ?_; ?_; rotate_left; clear_value x; rotate_right; subst x)
    | (extract_lets +onlyGivenNames x; clear_value x)
    | with_reducible apply State.tookFree_ok
    | with_reducible apply State.setTb_ok
    | with_reducible apply State.setReg_ok
    | with_reducible apply ok_ite

theorem takeSample_ok {qq : List Instr} (ss : Int) (cs : Int) (powered : Bool) (at_ : Nat) (s : State) (n : Nat) (hs : Ok qq s) : Ok qq (takeSample ss cs powered at_ s n) := by
  unfold takeSample
  repeat' first
    | with_reducible assumption
    | (extract_lets +onlyGivenNames x; refine have hx : Ok qq x := ?_; ?_; rotate_left; clear_value x; rotate_right; subst x)
    | (extract_lets +onlyGivenNames x; clear_value x)
    | with_reducible apply lasting_ok
    | with_reducible apply State.setTb_ok
    | with_reducible apply takeCounts_ok
    | with_reducible apply State.tookFree_ok
    | with_reducible apply raiseFault_ok
    | with_reducible apply lostEdges_ok
    | with_reducible apply autoCal_ok
    | with_reducible apply ok_ite
    | split

theorem adcSample_ok {qq : List Instr} (k : Nat) (sc : BitVec 14) (cc : BitVec 14) (at_ : Nat) (s : State) (hs : Ok qq s) : Ok qq (adcSample k sc cc at_ s) := by
  unfold adcSample
  repeat' first
    | with_reducible assumption
    | (extract_lets +onlyGivenNames x; refine have hx : Ok qq x := ?_; ?_; rotate_left; clear_value x; rotate_right; subst x)
    | (extract_lets +onlyGivenNames x; clear_value x)
    | with_reducible apply State.setFld_ok
    | with_reducible apply takeSample_ok
    | with_reducible apply ok_ite
    | (with_reducible refine ok_foldl ?_ _ ?_; intro _ _ _)

theorem execAdcSample_ok {qq : List Instr} (k : Fin 16) (sc : BitVec 14) (cc : BitVec 14) (t : Stamp) (s : State) (hs : Ok qq s) : OkOut qq (execAdcSample k sc cc t s) := by
  unfold execAdcSample
  repeat' first
    | with_reducible assumption
    | with_reducible refine OkOut.next ?_
    | with_reducible apply adcSample_ok

theorem execSerialFrameStart_ok {qq : List Instr} (n : Fin 32) (t : Stamp) (s : State) (hs : Ok qq s) : OkOut qq (execSerialFrameStart n t s) := by
  unfold execSerialFrameStart
  repeat' first
    | with_reducible assumption
    | (extract_lets +onlyGivenNames x; clear_value x)
    | with_reducible refine OkOut.next ?_
    | with_reducible apply State.setTb_ok
    | with_reducible apply ok_ite

theorem badFrame_ok {qq : List Instr} (n : Nat) (cause : Nat) (s : State) (hs : Ok qq s) : Ok qq (badFrame n cause s) := by
  unfold badFrame
  repeat' first
    | with_reducible assumption
    | (extract_lets +onlyGivenNames x; refine have hx : Ok qq x := ?_; ?_; rotate_left; clear_value x; rotate_right; subst x)
    | (extract_lets +onlyGivenNames x; clear_value x)
    | with_reducible apply State.bump_ok
    | with_reducible apply State.setTb_ok
    | with_reducible apply lasting_ok
    | with_reducible apply ok_ite

theorem goodFrame_ok {qq : List Instr} (n : Nat) (len : Nat) (val : Nat) (s : State) (hs : Ok qq s) : Ok qq (goodFrame n len val s) := by
  unfold goodFrame
  repeat' first
    | with_reducible assumption
    | (extract_lets +onlyGivenNames x; refine have hx : Ok qq x := ?_; ?_; rotate_left; clear_value x; rotate_right; subst x)
    | (extract_lets +onlyGivenNames x; clear_value x)
    | with_reducible apply State.setTb_ok
    | with_reducible apply lasting_ok
    | with_reducible apply State.setFlag_ok
    | with_reducible apply ok_ite
    | (with_reducible refine ok_foldl ?_ _ ?_; intro _ _ _)

theorem silentFrame_ok {qq : List Instr} (n : Nat) (s : State) (hs : Ok qq s) : Ok qq (silentFrame n s) := by
  unfold silentFrame
  repeat' first
    | with_reducible assumption
    | with_reducible apply lasting_ok

theorem ssiFrame_ok {qq : List Instr} (n : Nat) (data : BitVec 48) (parity : Bool) (silent : Bool) (s : State) (hs : Ok qq s) : Ok qq (ssiFrame n data parity silent s) := by
  unfold ssiFrame
  repeat' first
    | with_reducible assumption
    | (extract_lets +onlyGivenNames x; clear_value x)
    | with_reducible apply silentFrame_ok
    | with_reducible apply badFrame_ok
    | with_reducible apply goodFrame_ok
    | with_reducible apply ok_ite

theorem execSsiFrameEnd_ok {qq : List Instr} (n : Fin 32) (data : BitVec 48) (parity : Bool) (silent : Bool) (s : State) (hs : Ok qq s) : OkOut qq (execSsiFrameEnd n data parity silent s) := by
  unfold execSsiFrameEnd
  repeat' first
    | with_reducible assumption
    | with_reducible refine OkOut.next ?_
    | with_reducible apply ssiFrame_ok

theorem qcsFrame_ok {qq : List Instr} (n : Nat) (start : Bool) (status : BitVec 4) (pos : BitVec 40) (seq : BitVec 4) (crc : BitVec 8) (silent : Bool) (s : State) (hs : Ok qq s) : Ok qq (qcsFrame n start status pos seq crc silent s) := by
  unfold qcsFrame
  repeat' first
    | with_reducible assumption
    | (extract_lets +onlyGivenNames x; refine have hx : Ok qq x := ?_; ?_; rotate_left; clear_value x; rotate_right; subst x)
    | (extract_lets +onlyGivenNames x; clear_value x)
    | with_reducible apply silentFrame_ok
    | with_reducible apply badFrame_ok
    | with_reducible apply State.setTb_ok
    | with_reducible apply State.setFld_ok
    | with_reducible apply lasting_ok
    | with_reducible apply goodFrame_ok
    | with_reducible apply ok_ite

theorem execQcsFrameEnd_ok {qq : List Instr} (n : Fin 32) (start : Bool) (status : BitVec 4) (pos : BitVec 40) (seq : BitVec 4) (crc : BitVec 8) (silent : Bool) (s : State) (hs : Ok qq s) : OkOut qq (execQcsFrameEnd n start status pos seq crc silent s) := by
  unfold execQcsFrameEnd
  repeat' first
    | with_reducible assumption
    | with_reducible refine OkOut.next ?_
    | with_reducible apply qcsFrame_ok

theorem stepEdge_ok {qq : List Instr} (n : Nat) (dir : Bool) (wide : Bool) (at_ : Nat) (s : State) (hs : Ok qq s) : Ok qq (stepEdge n dir wide at_ s) := by
  unfold stepEdge
  repeat' first
    | with_reducible assumption
    | (extract_lets +onlyGivenNames x; refine have hx : Ok qq x := ?_; ?_; rotate_left; clear_value x; rotate_right; subst x)
    | (extract_lets +onlyGivenNames x; clear_value x)
    | with_reducible apply State.setTb_ok
    | with_reducible apply raiseFault_ok
    | with_reducible apply lostEdges_ok
    | with_reducible apply takeCounts_ok
    | with_reducible apply ok_ite

theorem execStepEdge_ok {qq : List Instr} (n : Fin 32) (dir : Bool) (wide : Bool) (t : Stamp) (s : State) (hs : Ok qq s) : OkOut qq (execStepEdge n dir wide t s) := by
  unfold execStepEdge
  repeat' first
    | with_reducible assumption
    | with_reducible refine OkOut.next ?_
    | with_reducible apply stepEdge_ok

theorem takeCrossing_ok {qq : List Instr} (rising : Bool) (stamp : Nat) (s : State) (n : Nat) (hs : Ok qq s) : Ok qq (takeCrossing rising stamp s n) := by
  unfold takeCrossing
  repeat' first
    | with_reducible assumption
    | (extract_lets +onlyGivenNames x; refine have hx : Ok qq x := ?_; ?_; rotate_left; clear_value x; rotate_right; subst x)
    | (extract_lets +onlyGivenNames x; clear_value x)
    | with_reducible apply State.setTb_ok
    | with_reducible apply takeCounts_ok
    | with_reducible apply lasting_ok
    | with_reducible apply ok_ite

theorem zeroCrossing_ok {qq : List Instr} (k : Nat) (rising : Bool) (at_ : Nat) (s : State) (hs : Ok qq s) : Ok qq (zeroCrossing k rising at_ s) := by
  unfold zeroCrossing
  repeat' first
    | with_reducible assumption
    | with_reducible apply takeCrossing_ok
    | with_reducible apply ok_ite
    | (with_reducible refine ok_foldl ?_ _ ?_; intro _ _ _)

theorem execZeroCrossing_ok {qq : List Instr} (k : Fin 16) (rising : Bool) (t : Stamp) (s : State) (hs : Ok qq s) : OkOut qq (execZeroCrossing k rising t s) := by
  unfold execZeroCrossing
  repeat' first
    | with_reducible assumption
    | with_reducible refine OkOut.next ?_
    | with_reducible apply zeroCrossing_ok

theorem execTbTimeoutExpiry_ok {qq : List Instr} (n : Fin 32) (s : State) (hs : Ok qq s) : OkOut qq (execTbTimeoutExpiry n s) := by
  unfold execTbTimeoutExpiry
  repeat' first
    | with_reducible assumption
    | with_reducible refine OkOut.next ?_
    | with_reducible apply lasting_ok
    | with_reducible apply ok_ite

theorem takeTether_ok {qq : List Instr} (lane : Nat) (p : W64) (v : W64) (a : W64) (stamp : W64) (s : State) (n : Nat) (hs : Ok qq s) : Ok qq (takeTether lane p v a stamp s n) := by
  unfold takeTether
  repeat' first
    | with_reducible assumption
    | (extract_lets +onlyGivenNames x; refine have hx : Ok qq x := ?_; ?_; rotate_left; clear_value x; rotate_right; subst x)
    | (extract_lets +onlyGivenNames x; clear_value x)
    | with_reducible apply lasting_ok
    | with_reducible apply State.setTb_ok
    | with_reducible apply takeWrite_ok
    | with_reducible apply ok_ite

theorem tbpos_ok {qq : List Instr} (lane : Nat) (idx : Byte) (p : W64) (v : W64) (a : W64) (stamp : W64) (good : Bool) (s : State) (hs : Ok qq s) : Ok qq (tbpos lane idx p v a stamp good s) := by
  unfold tbpos
  repeat' first
    | with_reducible assumption
    | with_reducible apply State.bump_ok
    | with_reducible apply takeTether_ok
    | with_reducible apply ok_ite
    | (with_reducible refine ok_foldl ?_ _ ?_; intro _ _ _)

theorem execTbposMsg_ok {qq : List Instr} (lane : Fin 2) (idx : Byte) (_seq : Byte) (p : W64) (v : W64) (a : W64) (stamp : W64) (good : Bool) (s : State) (hs : Ok qq s) : OkOut qq (execTbposMsg lane idx _seq p v a stamp good s) := by
  unfold execTbposMsg
  repeat' first
    | with_reducible assumption
    | with_reducible refine OkOut.next ?_
    | with_reducible apply tbpos_ok

theorem execTetherMsgTimeout_ok {qq : List Instr} (n : Fin 32) (s : State) (hs : Ok qq s) : OkOut qq (execTetherMsgTimeout n s) := by
  unfold execTetherMsgTimeout
  repeat' first
    | with_reducible assumption
    | (extract_lets +onlyGivenNames x; refine have hx : Ok qq x := ?_; ?_; rotate_left; clear_value x; rotate_right; subst x)
    | (extract_lets +onlyGivenNames x; clear_value x)
    | with_reducible refine OkOut.next ?_
    | with_reducible apply State.setTb_ok
    | with_reducible apply lasting_ok
    | with_reducible apply ok_ite

theorem applyWrites_ok {qq : List Instr} (n : Nat) (t : Nat) (direct : Bool) (s : State) (hs : Ok qq s) : Ok qq (applyWrites n t direct s) := by
  unfold applyWrites
  repeat' first
    | with_reducible assumption
    | (extract_lets +onlyGivenNames x; clear_value x)
    | with_reducible apply lasting_ok
    | with_reducible apply State.setTb_ok
    | split

theorem directStep_ok {qq : List Instr} (n : Nat) (t : Nat) (s : State) (hs : Ok qq s) : Ok qq (directStep n t s) := by
  unfold directStep
  repeat' first
    | with_reducible assumption
    | with_reducible exact ok_mk (by assumption) rfl rfl rfl rfl rfl rfl rfl rfl rfl
    | (extract_lets +onlyGivenNames x; refine have hx : Ok qq x := ?_; ?_; rotate_left; clear_value x; rotate_right; subst x)
    | (extract_lets +onlyGivenNames x; clear_value x)
    | with_reducible apply State.setTb_ok
    | split

theorem estimateStep_ok {qq : List Instr} (n : Nat) (t : Nat) (s : State) (hs : Ok qq s) : Ok qq (estimateStep n t s) := by
  unfold estimateStep
  repeat' first
    | with_reducible assumption
    | with_reducible exact ok_mk (by assumption) rfl rfl rfl rfl rfl rfl rfl rfl rfl
    | (extract_lets +onlyGivenNames x; refine have hx : Ok qq x := ?_; ?_; rotate_left; clear_value x; rotate_right; subst x)
    | (extract_lets +onlyGivenNames x; clear_value x)
    | with_reducible apply State.setTb_ok
    | with_reducible apply raiseFault_ok
    | with_reducible apply lasting_ok
    | with_reducible apply ok_ite

theorem gearStep_ok {qq : List Instr} (n : Nat) (t : Nat) (s : State) (hs : Ok qq s) : Ok qq (gearStep n t s) := by
  unfold gearStep
  repeat' first
    | with_reducible assumption
    | with_reducible exact ok_mk (by assumption) rfl rfl rfl rfl rfl rfl rfl rfl rfl
    | (extract_lets +onlyGivenNames x; refine have hx : Ok qq x := ?_; ?_; rotate_left; clear_value x; rotate_right; subst x)
    | (extract_lets +onlyGivenNames x; clear_value x)
    | with_reducible apply raiseFault_ok
    | with_reducible apply State.setFlag_ok
    | with_reducible apply State.setTb_ok
    | with_reducible apply gearSet_ok
    | with_reducible apply State.setReg_ok
    | with_reducible apply ok_ite
    | (with_reducible refine ok_foldl ?_ _ ?_; intro _ _ _)
    | split

theorem presetStep_ok {qq : List Instr} (n : Nat) (t : Nat) (s : State) (hs : Ok qq s) : Ok qq (presetStep n t s) := by
  unfold presetStep
  repeat' first
    | with_reducible assumption
    | (extract_lets +onlyGivenNames x; clear_value x)
    | with_reducible apply State.setFlag_ok
    | with_reducible apply State.setTb_ok
    | with_reducible apply ok_ite

theorem recover_ok {qq : List Instr} (n : Nat) (t : Nat) (s : State) (hs : Ok qq s) : Ok qq (recover n t s) := by
  unfold recover
  repeat' first
    | with_reducible assumption
    | (extract_lets +onlyGivenNames x; clear_value x)
    | with_reducible apply State.setFlag_ok
    | with_reducible apply State.setTb_ok
    | with_reducible apply ok_ite

theorem faultStep_ok {qq : List Instr} (n : Nat) (s : State) (b : Nat) (hs : Ok qq s) : Ok qq (faultStep n s b) := by
  unfold faultStep
  repeat' first
    | with_reducible assumption
    | (extract_lets +onlyGivenNames x; clear_value x)
    | with_reducible apply State.setTb_ok
    | with_reducible apply State.setFld_ok
    | with_reducible apply ok_ite

theorem publish_ok {qq : List Instr} (n : Nat) (t : Nat) (s : State) (hs : Ok qq s) : Ok qq (publish n t s) := by
  unfold publish
  repeat' first
    | with_reducible assumption
    | (extract_lets +onlyGivenNames x; refine have hx : Ok qq x := ?_; ?_; rotate_left; clear_value x; rotate_right; subst x)
    | (extract_lets +onlyGivenNames x; clear_value x)
    | with_reducible apply State.tookFree_ok
    | with_reducible apply State.setFlag_ok
    | with_reducible apply State.setReg_ok
    | with_reducible apply State.setTb_ok
    | with_reducible apply jumpTimebase_ok
    | with_reducible apply endTimebase_ok
    | with_reducible apply ok_ite
    | split

theorem updateOne_ok {qq : List Instr} (t : Nat) (s : State) (n : Nat) (hs : Ok qq s) : Ok qq (updateOne t s n) := by
  unfold updateOne
  repeat' first
    | with_reducible assumption
    | (extract_lets +onlyGivenNames x; refine have hx : Ok qq x := ?_; ?_; rotate_left; clear_value x; rotate_right; subst x)
    | (extract_lets +onlyGivenNames x; clear_value x)
    | (extract_lets +onlyGivenNames x; subst x)
    | with_reducible apply stopTimebase_ok
    | with_reducible apply lasting_ok
    | with_reducible apply applyWrites_ok
    | with_reducible apply gearStep_ok
    | with_reducible apply directStep_ok
    | with_reducible apply estimateStep_ok
    | with_reducible apply presetStep_ok
    | with_reducible apply faultStep_ok
    | with_reducible apply recover_ok
    | with_reducible apply publish_ok
    | with_reducible apply ok_ite
    | (with_reducible refine ok_foldl ?_ _ ?_; intro _ _ _)

theorem exportOne_ok {qq : List Instr} (s : State) (n : Nat) (hs : Ok qq s) : Ok qq (exportOne s n) := by
  unfold exportOne
  repeat' first
    | with_reducible assumption
    | with_reducible exact ok_mk (by assumption) rfl rfl rfl rfl rfl rfl rfl rfl rfl
    | (extract_lets +onlyGivenNames x; refine have hx : Ok qq x := ?_; ?_; rotate_left; clear_value x; rotate_right; subst x)
    | (extract_lets +onlyGivenNames x; clear_value x)
    | with_reducible apply State.setTb_ok
    | with_reducible apply ok_ite
    | (with_reducible refine ok_foldl ?_ _ ?_; intro _ _ _)

theorem timebaseUpdate_ok {qq : List Instr} (s : State) (hs : Ok qq s) : Ok qq (timebaseUpdate s) := by
  unfold timebaseUpdate
  repeat' first
    | with_reducible assumption
    | with_reducible exact ok_mk (by assumption) rfl rfl rfl rfl rfl rfl rfl rfl rfl
    | (extract_lets +onlyGivenNames x; refine have hx : Ok qq x := ?_; ?_; rotate_left; clear_value x; rotate_right; subst x)
    | (extract_lets +onlyGivenNames x; clear_value x)
    | with_reducible apply updateOne_ok
    | with_reducible apply exportOne_ok
    | (with_reducible refine ok_foldl ?_ _ ?_; intro _ _ _)

theorem execTimebaseUpdate_ok {qq : List Instr} (s : State) (hs : Ok qq s) : OkOut qq (execTimebaseUpdate s) := by
  unfold execTimebaseUpdate
  repeat' first
    | with_reducible assumption
    | with_reducible refine OkOut.next ?_
    | with_reducible apply timebaseUpdate_ok
    | with_reducible apply ok_ite

theorem coastLimit_ok {qq : List Instr} (n : Nat) (s : State) (hs : Ok qq s) : Ok qq (coastLimit n s) := by
  unfold coastLimit
  repeat' first
    | with_reducible assumption
    | (extract_lets +onlyGivenNames x; refine have hx : Ok qq x := ?_; ?_; rotate_left; clear_value x; rotate_right; subst x)
    | (extract_lets +onlyGivenNames x; clear_value x)
    | with_reducible apply State.tookFree_ok
    | with_reducible apply State.setTb_ok
    | with_reducible apply State.setFlag_ok
    | with_reducible apply endTimebase_ok
    | with_reducible apply ok_ite
    | split

theorem execCoastLimitExpiry_ok {qq : List Instr} (n : Fin 32) (s : State) (hs : Ok qq s) : OkOut qq (execCoastLimitExpiry n s) := by
  unfold execCoastLimitExpiry
  repeat' first
    | with_reducible assumption
    | with_reducible refine OkOut.next ?_
    | with_reducible apply coastLimit_ok

theorem refuseTb_ok {qq : List Instr} (n : Nat) (code : Nat) (s : State) (hs : Ok qq s) : Ok qq (refuseTb n code s) := by
  unfold refuseTb
  repeat' first
    | with_reducible assumption
    | with_reducible apply State.refuse_ok

theorem tbEnable_ok {qq : List Instr} (n : Nat) (s : State) (hs : Ok qq s) : Ok qq (tbEnable n s) := by
  unfold tbEnable
  repeat' first
    | with_reducible assumption
    | (extract_lets +onlyGivenNames x; refine have hx : Ok qq x := ?_; ?_; rotate_left; clear_value x; rotate_right; subst x)
    | (extract_lets +onlyGivenNames x; clear_value x)
    | with_reducible apply refuseTb_ok
    | with_reducible apply State.setFlag_ok
    | with_reducible apply startTimebase_ok
    | with_reducible apply State.setFld_ok
    | with_reducible apply ok_ite

theorem execTbEnable_ok {qq : List Instr} (w : Writer) (n : Fin 32) (s : State) (hs : Ok qq s) : OkOut qq (execTbEnable w n s) := by
  unfold execTbEnable
  repeat' first
    | with_reducible assumption
    | with_reducible refine OkOut.next ?_
    | with_reducible apply State.linked_ok
    | with_reducible apply tbEnable_ok

theorem tbDisable_ok {qq : List Instr} (n : Nat) (s : State) (hs : Ok qq s) : Ok qq (tbDisable n s) := by
  unfold tbDisable
  repeat' first
    | with_reducible assumption
    | (extract_lets +onlyGivenNames x; refine have hx : Ok qq x := ?_; ?_; rotate_left; clear_value x; rotate_right; subst x)
    | with_reducible apply State.setFlag_ok
    | with_reducible apply State.setFld_ok
    | with_reducible apply ok_ite

theorem execTbDisable_ok {qq : List Instr} (w : Writer) (n : Fin 32) (s : State) (hs : Ok qq s) : OkOut qq (execTbDisable w n s) := by
  unfold execTbDisable
  repeat' first
    | with_reducible assumption
    | with_reducible refine OkOut.next ?_
    | with_reducible apply State.linked_ok
    | with_reducible apply tbDisable_ok

theorem presetGo_ok {qq : List Instr} (n : Nat) (s : State) (hs : Ok qq s) : Ok qq (presetGo n s) := by
  unfold presetGo
  repeat' first
    | with_reducible assumption
    | (extract_lets +onlyGivenNames x; clear_value x)
    | with_reducible apply State.setTb_ok
    | with_reducible apply ok_ite

theorem execPresetGo_ok {qq : List Instr} (w : Writer) (n : Fin 32) (s : State) (hs : Ok qq s) : OkOut qq (execPresetGo w n s) := by
  unfold execPresetGo
  repeat' first
    | with_reducible assumption
    | with_reducible refine OkOut.next ?_
    | with_reducible apply State.linked_ok
    | with_reducible apply presetGo_ok

theorem gearGo_ok {qq : List Instr} (n : Nat) (s : State) (hs : Ok qq s) : Ok qq (gearGo n s) := by
  unfold gearGo
  repeat' first
    | with_reducible assumption
    | (extract_lets +onlyGivenNames x; clear_value x)
    | with_reducible apply refuseTb_ok
    | with_reducible apply State.setTb_ok
    | with_reducible apply applyGear_ok
    | with_reducible apply ok_ite

theorem execGearGo_ok {qq : List Instr} (w : Writer) (n : Fin 32) (s : State) (hs : Ok qq s) : OkOut qq (execGearGo w n s) := by
  unfold execGearGo
  repeat' first
    | with_reducible assumption
    | with_reducible refine OkOut.next ?_
    | with_reducible apply State.linked_ok
    | with_reducible apply gearGo_ok

theorem errcntClr_ok {qq : List Instr} (n : Nat) (s : State) (hs : Ok qq s) : Ok qq (errcntClr n s) := by
  unfold errcntClr
  repeat' first
    | with_reducible assumption
    | with_reducible apply State.setReg_ok

theorem execErrcntClr_ok {qq : List Instr} (w : Writer) (n : Fin 32) (s : State) (hs : Ok qq s) : OkOut qq (execErrcntClr w n s) := by
  unfold execErrcntClr
  repeat' first
    | with_reducible assumption
    | with_reducible refine OkOut.next ?_
    | with_reducible apply State.linked_ok
    | with_reducible apply errcntClr_ok

theorem tbExport_ok {qq : List Instr} (n : Nat) (e : Nat) (s : State) (hs : Ok qq s) : Ok qq (tbExport n e s) := by
  unfold tbExport
  repeat' first
    | with_reducible assumption
    | (extract_lets +onlyGivenNames x; refine have hx : Ok qq x := ?_; ?_; rotate_left; clear_value x; rotate_right; subst x)
    | (extract_lets +onlyGivenNames x; clear_value x)
    | with_reducible apply refuseTb_ok
    | with_reducible apply State.setFld_ok
    | with_reducible apply ok_ite
    | (with_reducible refine ok_foldl ?_ _ ?_; intro _ _ _)

theorem writeTbCtl_ok {qq : List Instr} (n : Nat) (v : W64) (s : State) (hs : Ok qq s) : Ok qq (writeTbCtl n v s) := by
  unfold writeTbCtl
  repeat' first
    | with_reducible assumption
    | (extract_lets +onlyGivenNames x; refine have hx : Ok qq x := ?_; ?_; rotate_left; clear_value x; rotate_right; subst x)
    | with_reducible apply errcntClr_ok
    | with_reducible apply tbExport_ok
    | with_reducible apply tbEnable_ok
    | with_reducible apply tbDisable_ok
    | with_reducible apply gearGo_ok
    | with_reducible apply presetGo_ok
    | with_reducible apply ok_ite

theorem tbCfgWrite_ok {qq : List Instr} (n : Nat) (which : Nat) (v : W32) (s : State) (hs : Ok qq s) : Ok qq (tbCfgWrite n which v s) := by
  unfold tbCfgWrite
  repeat' first
    | with_reducible assumption
    | (extract_lets +onlyGivenNames x; clear_value x)
    | with_reducible apply refuseTb_ok
    | with_reducible apply State.setReg_ok
    | with_reducible apply ok_ite

theorem execTbCfgWrite_ok {qq : List Instr} (w : Writer) (n : Fin 32) (which : Fin 3) (v : W32) (s : State) (hs : Ok qq s) : OkOut qq (execTbCfgWrite w n which v s) := by
  unfold execTbCfgWrite
  repeat' first
    | with_reducible assumption
    | with_reducible refine OkOut.next ?_
    | with_reducible apply State.linked_ok
    | with_reducible apply tbCfgWrite_ok

theorem anaCalWrite_ok {qq : List Instr} (n : Nat) (v : W32) (s : State) (hs : Ok qq s) : Ok qq (anaCalWrite n v s) := by
  unfold anaCalWrite
  repeat' first
    | with_reducible assumption
    | (extract_lets +onlyGivenNames x; clear_value x)
    | with_reducible apply refuseTb_ok
    | with_reducible apply State.setReg_ok
    | with_reducible apply ok_ite

theorem execTbAnaCalWrite_ok {qq : List Instr} (w : Writer) (n : Fin 32) (v : W32) (s : State) (hs : Ok qq s) : OkOut qq (execTbAnaCalWrite w n v s) := by
  unfold execTbAnaCalWrite
  repeat' first
    | with_reducible assumption
    | with_reducible refine OkOut.next ?_
    | with_reducible apply State.linked_ok
    | with_reducible apply anaCalWrite_ok

theorem snapGo_ok {qq : List Instr} (s : State) (hs : Ok qq s) : Ok qq (snapGo s) := by
  unfold snapGo
  repeat' first
    | with_reducible assumption
    | with_reducible exact ok_mk (by assumption) rfl rfl rfl rfl rfl rfl rfl rfl rfl
    | (extract_lets +onlyGivenNames x; refine have hx : Ok qq x := ?_; ?_; rotate_left; clear_value x; rotate_right; subst x)
    | with_reducible apply State.setFlag_ok

theorem execTbSnapGo_ok {qq : List Instr} (w : Writer) (s : State) (hs : Ok qq s) : OkOut qq (execTbSnapGo w s) := by
  unfold execTbSnapGo
  repeat' first
    | with_reducible assumption
    | with_reducible refine OkOut.next ?_
    | with_reducible apply State.linked_ok
    | with_reducible apply snapGo_ok

theorem snapOne_ok {qq : List Instr} (s : State) (n : Nat) (hs : Ok qq s) : Ok qq (snapOne s n) := by
  unfold snapOne
  repeat' first
    | with_reducible assumption
    | (extract_lets +onlyGivenNames x; refine have hx : Ok qq x := ?_; ?_; rotate_left; clear_value x; rotate_right; subst x)
    | with_reducible apply State.setReg_ok

theorem snapDone_ok {qq : List Instr} (s : State) (hs : Ok qq s) : Ok qq (snapDone s) := by
  unfold snapDone
  repeat' first
    | with_reducible assumption
    | with_reducible exact ok_mk (by assumption) rfl rfl rfl rfl rfl rfl rfl rfl rfl
    | (extract_lets +onlyGivenNames x; refine have hx : Ok qq x := ?_; ?_; rotate_left; clear_value x; rotate_right; subst x)
    | (extract_lets +onlyGivenNames x; (first | have hh : Sched := x | have hh : Hea := x | have hh : Ldr := x | have hh : Eng := x); clear hh; subst x)
    | (extract_lets +onlyGivenNames x; clear_value x)
    | with_reducible apply snapOne_ok
    | with_reducible apply State.setFlag_ok
    | with_reducible apply State.setReg_ok
    | with_reducible apply ok_ite
    | (with_reducible refine ok_foldl ?_ _ ?_; intro _ _ _)

theorem execTbSnapDone_ok {qq : List Instr} (s : State) (hs : Ok qq s) : OkOut qq (execTbSnapDone s) := by
  unfold execTbSnapDone
  repeat' first
    | with_reducible assumption
    | with_reducible refine OkOut.next ?_
    | with_reducible apply snapDone_ok

end Sys2Proof.Machine
end

