-- ==== Sys2Proof/Laws/OkAccess.lean ====
section
/-! SUPPORT. What the operations of Machine/Access.lean keep: each takes a sound state with the same commands waiting to
such a state (see Laws/Ok.lean). -/

namespace Sys2Proof.Machine

theorem bankCtlWrite_ok {qq : List Instr} (w : Writer) (b : Nat) (v : W64) (s : State) (hs : Ok qq s) : Ok qq (bankCtlWrite w b v s) := by
  unfold bankCtlWrite
  repeat' first
    | with_reducible assumption
    | (extract_lets +onlyGivenNames x; refine have hx : Ok qq x := ?_; ?_; rotate_left; clear_value x; rotate_right; subst x)
    | with_reducible apply State.denyWarden_ok
    | with_reducible apply State.setFld_ok
    | with_reducible apply bankCntClr_ok
    | with_reducible apply bankSleep_ok
    | with_reducible apply bankWake_ok
    | with_reducible apply ok_ite

theorem queCtlWrite_ok {qq : List Instr} (q : Nat) (v : W64) (s : State) (hs : Ok qq s) : Ok qq (queCtlWrite q v s) := by
  unfold queCtlWrite
  repeat' first
    | with_reducible assumption
    | (extract_lets +onlyGivenNames x; refine have hx : Ok qq x := ?_; ?_; rotate_left; clear_value x; rotate_right; subst x)
    | with_reducible apply queCntClr_ok
    | with_reducible apply queEnable_ok
    | with_reducible apply queDisable_ok
    | with_reducible apply queFlush_ok
    | with_reducible apply ok_ite

theorem engCtlWrite_ok {qq : List Instr} (n : Nat) (v : W64) (s : State) (hs : Ok qq s) : Ok qq (engCtlWrite n v s) := by
  unfold engCtlWrite
  repeat' first
    | with_reducible assumption
    | (extract_lets +onlyGivenNames x; refine have hx : Ok qq x := ?_; ?_; rotate_left; clear_value x; rotate_right; subst x)
    | with_reducible apply State.setFld_ok
    | with_reducible apply engineCntClr_ok
    | with_reducible apply engineEnable_ok
    | with_reducible apply engineDisable_ok
    | with_reducible apply ok_ite

theorem ctxCtlWrite_ok {qq : List Instr} (n : Nat) (c : Nat) (v : W64) (s : State) (hs : Ok qq s) : Ok qq (ctxCtlWrite n c v s) := by
  unfold ctxCtlWrite
  repeat' first
    | with_reducible assumption
    | (extract_lets +onlyGivenNames x; refine have hx : Ok qq x := ?_; ?_; rotate_left; clear_value x; rotate_right; subst x)
    | with_reducible apply ctxStart_ok
    | with_reducible apply ctxStop_ok
    | with_reducible apply ok_ite

theorem ringCtlWrite_ok {qq : List Instr} (n : Nat) (v : W64) (s : State) (hs : Ok qq s) : Ok qq (ringCtlWrite n v s) := by
  unfold ringCtlWrite
  repeat' first
    | with_reducible assumption
    | (extract_lets +onlyGivenNames x; refine have hx : Ok qq x := ?_; ?_; rotate_left; clear_value x; rotate_right; subst x)
    | with_reducible apply ringCntClr_ok
    | with_reducible apply ringResume_ok
    | with_reducible apply ringAbort_ok
    | with_reducible apply ringEnable_ok
    | with_reducible apply ringDisable_ok
    | with_reducible apply ok_ite

theorem wardenBit_ok {qq : List Instr} (r : Reg) (w : Writer) (on : Bool) (f : State → State) (s : State) (hf : ∀ s, Ok qq s → Ok qq (f s)) (hs : Ok qq s) : Ok qq (wardenBit r w on f s) := by
  unfold wardenBit
  repeat' first
    | with_reducible assumption
    | with_reducible apply State.wardenOr_ok
    | with_reducible apply ok_ite

theorem arcCtlWrite_ok {qq : List Instr} (w : Writer) (v : W64) (s : State) (hs : Ok qq s) : Ok qq (arcCtlWrite w v s) := by
  unfold arcCtlWrite
  repeat' first
    | with_reducible assumption
    | (extract_lets +onlyGivenNames x; refine have hx : Ok qq x := ?_; ?_; rotate_left; clear_value x; rotate_right; subst x)
    | with_reducible apply State.denyWarden_ok
    | with_reducible apply State.setFld_ok
    | with_reducible apply arcCntClr_ok
    | with_reducible apply archiveEnable_ok
    | with_reducible apply archiveDisable_ok
    | with_reducible apply patrolGo_ok
    | with_reducible apply ok_ite

theorem bootWrite_ok {qq : List Instr} (w : Writer) (v : W64) (s : State) (hs : Ok qq s) : Ok qq (bootWrite w v s) := by
  unfold bootWrite
  repeat' first
    | with_reducible assumption
    | (extract_lets +onlyGivenNames x; refine have hx : Ok qq x := ?_; ?_; rotate_left; clear_value x; rotate_right; subst x)
    | (extract_lets +onlyGivenNames x; clear_value x)
    | with_reducible apply State.denyWarden_ok
    | with_reducible apply confirmTmoWrite_ok
    | with_reducible apply bootConfirm_ok
    | with_reducible apply ok_ite

theorem sportCfgWrite_ok {qq : List Instr} (p : Nat) (v : W64) (s : State) (hs : Ok qq s) : Ok qq (sportCfgWrite p v s) := by
  unfold sportCfgWrite
  repeat' first
    | with_reducible assumption
    | (extract_lets +onlyGivenNames x; refine have hx : Ok qq x := ?_; ?_; rotate_left; clear_value x; rotate_right; subst x)
    | with_reducible apply State.setFld_ok
    | with_reducible apply sportCntClr_ok
    | with_reducible apply ok_ite

theorem msixCtrlWrite_ok {qq : List Instr} (v : Nat) (x : W64) (s : State) (hs : Ok qq s) : Ok qq (msixCtrlWrite v x s) := by
  unfold msixCtrlWrite
  repeat' first
    | with_reducible assumption
    | with_reducible exact ok_mk (by assumption) rfl rfl rfl rfl rfl rfl rfl rfl rfl
    | (extract_lets +onlyGivenNames x; refine have hx : Ok qq x := ?_; ?_; rotate_left; clear_value x; rotate_right; subst x)
    | (extract_lets +onlyGivenNames x; clear_value x)
    | with_reducible apply State.setFld_ok
    | with_reducible apply State.setReg_ok
    | with_reducible apply ok_ite

theorem plainWrite_ok {qq : List Instr} (r : Reg) (w : Writer) (i : Nat) (j : Nat) (v : W64) (s : State) (hs : Ok qq s) : Ok qq (plainWrite r w i j v s) := by
  unfold plainWrite
  repeat' first
    | with_reducible assumption
    | (extract_lets +onlyGivenNames x; clear_value x)
    | with_reducible apply State.denyWarden_ok
    | with_reducible apply State.setReg_ok
    | with_reducible apply ok_ite

/-- An operation of a register keeps a sound state sound. -/
def KeepsOp (qq : List Instr) (op : RegOp) : Prop := ∀ w i j v s, Ok qq s → Ok qq (op w i j v s)

theorem plainClr_ok {qq : List Instr} (r : Reg) (bit : Nat) (f : State → State) (hf : ∀ s, Ok qq s → Ok qq (f s)) :
    KeepsOp qq (plainClr r bit f) := by
  intro w i j v s hs
  have h := plainWrite_ok r w i j v s hs
  exact ok_ite (hf _ h) h

theorem RegOps.tb_ok {qq : List Instr} : ∀ e ∈ RegOps.tb, KeepsOp qq e.2 := by
  unfold RegOps.tb
  repeat' first
    | with_reducible exact List.forall_mem_nil _
    | with_reducible refine List.forall_mem_cons.2 ⟨?_, ?_⟩
    | with_reducible assumption
    | with_reducible refine plainClr_ok _ _ _ (fun _ _ => ?_)
    | (intro w i j v s hs; dsimp only)
    | with_reducible apply evtKill_ok
    | with_reducible apply evtCfgWrite_ok
    | with_reducible apply slotSel_ok
    | with_reducible apply lineCfgWrite_ok
    | with_reducible apply capCfgWrite_ok
    | with_reducible apply writeTbCtl_ok
    | with_reducible apply tbCfgWrite_ok
    | with_reducible apply anaCalWrite_ok
    | with_reducible apply snapGo_ok
    | with_reducible apply ok_ite

theorem RegOps.fabric_ok {qq : List Instr} : ∀ e ∈ RegOps.fabric, KeepsOp qq e.2 := by
  unfold RegOps.fabric
  repeat' first
    | with_reducible exact List.forall_mem_nil _
    | with_reducible refine List.forall_mem_cons.2 ⟨?_, ?_⟩
    | with_reducible assumption
    | with_reducible refine plainClr_ok _ _ _ (fun _ _ => ?_)
    | (intro w i j v s hs; dsimp only)
    | with_reducible apply bankOwn_ok
    | with_reducible apply confClr_ok
    | with_reducible apply queWmWrite_ok
    | with_reducible apply queCfgWrite_ok
    | with_reducible apply sportPeakClr_ok
    | with_reducible apply spinePeakClr_ok
    | with_reducible apply tokDestWrite_ok
    | with_reducible apply clkSrcWrite_ok
    | with_reducible apply gateWrite_ok
    | with_reducible apply clkMinClr_ok
    | with_reducible apply clkCntClr_ok
    | with_reducible apply sectorUrst_ok
    | with_reducible apply bankCtlWrite_ok
    | with_reducible apply queCtlWrite_ok
    | with_reducible apply sportCfgWrite_ok
    | with_reducible apply ok_ite

theorem RegOps.engines_ok {qq : List Instr} : ∀ e ∈ RegOps.engines, KeepsOp qq e.2 := by
  unfold RegOps.engines
  repeat' first
    | with_reducible exact List.forall_mem_nil _
    | with_reducible refine List.forall_mem_cons.2 ⟨?_, ?_⟩
    | with_reducible assumption
    | with_reducible refine plainClr_ok _ _ _ (fun _ _ => ?_)
    | (intro w i j v s hs; dsimp only)
    | with_reducible apply ctxPcWrite_ok
    | with_reducible apply ctxCfgWrite_ok
    | with_reducible apply ctxEvqWrite_ok
    | with_reducible apply ctxEvqPtrWrite_ok
    | with_reducible apply ochDestWrite_ok
    | with_reducible apply State.ringOwned_ok
    | with_reducible apply ringCfgWrite_ok
    | with_reducible apply ringBaseWrite_ok
    | with_reducible apply ringModWrite_ok
    | with_reducible apply ringOwnWrite_ok
    | with_reducible apply sheetCfgWrite_ok
    | with_reducible apply sheetBaseWrite_ok
    | with_reducible apply engCtlWrite_ok
    | with_reducible apply ctxCtlWrite_ok
    | with_reducible apply ringCtlWrite_ok
    | with_reducible apply msixCtrlWrite_ok

theorem RegOps.protection_ok {qq : List Instr} : ∀ e ∈ RegOps.protection, KeepsOp qq e.2 := by
  unfold RegOps.protection
  repeat' first
    | with_reducible exact List.forall_mem_nil _
    | with_reducible refine List.forall_mem_cons.2 ⟨?_, ?_⟩
    | with_reducible assumption
    | with_reducible refine plainClr_ok _ _ _ (fun _ _ => ?_)
    | (intro w i j v s hs; dsimp only)
    | with_reducible apply invWrite_ok
    | with_reducible apply invVaWrite_ok
    | with_reducible apply spaceWrite_ok
    | with_reducible apply fabWrite_ok
    | with_reducible apply linkPrivWrite_ok
    | with_reducible apply svnWrite_ok
    | with_reducible apply keyCommit_ok
    | with_reducible apply bootLockWrite_ok
    | with_reducible apply debugWrite_ok
    | with_reducible apply wtuCntClr_ok
    | with_reducible apply loadAbort_ok
    | with_reducible apply loadDiscard_ok
    | with_reducible apply configCheck_ok
    | with_reducible apply rbSelWrite_ok
    | with_reducible apply arcIfWrite_ok
    | with_reducible apply arcCfgWrite_ok
    | with_reducible apply wardenBit_ok
    | with_reducible apply arcCtlWrite_ok
    | with_reducible apply ok_ite

theorem RegOps.stewards_ok {qq : List Instr} : ∀ e ∈ RegOps.stewards, KeepsOp qq e.2 := by
  unfold RegOps.stewards
  repeat' first
    | with_reducible exact List.forall_mem_nil _
    | with_reducible refine List.forall_mem_cons.2 ⟨?_, ?_⟩
    | with_reducible assumption
    | with_reducible refine plainClr_ok _ _ _ (fun _ _ => ?_)
    | (intro w i j v s hs; dsimp only)
    | with_reducible apply startWrite_ok
    | with_reducible apply bistWrite_ok
    | with_reducible apply healthCfgWrite_ok
    | with_reducible apply fixWrite_ok
    | with_reducible apply pwrStateWrite_ok
    | with_reducible apply vfabWrite_ok
    | with_reducible apply vbankWrite_ok
    | with_reducible apply supWrite_ok
    | with_reducible apply tempWrite_ok
    | with_reducible apply wakePortWrite_ok
    | with_reducible apply writeLead_ok
    | with_reducible apply loadPeakClr_ok
    | with_reducible apply alarmAck_ok
    | with_reducible apply bootWrite_ok
    | with_reducible apply ok_ite

theorem RegOps.pins_ok {qq : List Instr} : ∀ e ∈ RegOps.pins, KeepsOp qq e.2 := by
  unfold RegOps.pins
  repeat' first
    | with_reducible exact List.forall_mem_nil _
    | with_reducible refine List.forall_mem_cons.2 ⟨?_, ?_⟩
    | with_reducible assumption
    | with_reducible refine plainClr_ok _ _ _ (fun _ _ => ?_)
    | (intro w i j v s hs; dsimp only)
    | with_reducible apply pinCfgWrite_ok
    | with_reducible apply pinMuxWrite_ok
    | with_reducible apply pinOvlWrite_ok
    | with_reducible apply pinOwnWrite_ok
    | with_reducible apply pinOutWrite_ok
    | with_reducible apply pinPwmWrite_ok
    | with_reducible apply dacCodeWrite_ok
    | with_reducible apply dacCfgWrite_ok
    | with_reducible apply ainCfgWrite_ok
    | with_reducible apply pinGctlWrite_ok
    | with_reducible apply laneCfgWrite_ok

theorem RegOps.all_ok {qq : List Instr} : ∀ e ∈ RegOps.all, KeepsOp qq e.2 := by
  unfold RegOps.all
  intro e he
  simp only [List.mem_append] at he
  rcases he with ((((he | he) | he) | he) | he) | he
  · exact RegOps.tb_ok e he
  · exact RegOps.fabric_ok e he
  · exact RegOps.engines_ok e he
  · exact RegOps.protection_ok e he
  · exact RegOps.stewards_ok e he
  · exact RegOps.pins_ok e he

theorem regWrite_ok {qq : List Instr} (r : Reg) (w : Writer) (i : Nat) (j : Nat) (v : W64) (s : State) (hs : Ok qq s) :
    Ok qq (regWrite r w i j v s) := by
  unfold regWrite
  split
  · next op e => exact RegOps.all_ok _ (List.mem_of_find?_eq_some e) w i j v s hs
  · exact plainWrite_ok _ _ _ _ _ _ hs

theorem writeAt_ok {qq : List Instr} (w : Writer) (off : Nat) (v : W64) (s : State) (hs : Ok qq s) : Ok qq (writeAt w off v s) := by
  unfold writeAt
  repeat' first
    | with_reducible assumption
    | with_reducible apply ctxGreg_ok
    | with_reducible apply regWrite_ok
    | with_reducible apply State.accessError_ok
    | split

theorem readAt_ok {qq : List Instr} (off : Nat) (s : State) (hs : Ok qq s) : Ok qq (readAt off s).1 := by
  unfold readAt
  repeat' first
    | with_reducible assumption
    | with_reducible apply State.accessError_ok
    | with_reducible apply okFst_ite
    | split

theorem lowWrite_ok {qq : List Instr} (w : Writer) (off : Nat) (v : W32) (s : State) (hs : Ok qq s) : Ok qq (lowWrite w off v s) := by
  unfold lowWrite
  repeat' first
    | with_reducible exact ok_mk (by assumption) rfl rfl rfl rfl rfl rfl rfl rfl rfl

theorem highWrite_ok {qq : List Instr} (w : Writer) (off : Nat) (v : W32) (s : State) (hs : Ok qq s) : Ok qq (highWrite w off v s) := by
  unfold highWrite
  repeat' first
    | with_reducible assumption
    | with_reducible exact ok_mk (by assumption) rfl rfl rfl rfl rfl rfl rfl rfl rfl
    | (extract_lets +onlyGivenNames x; refine have hx : Ok qq x := ?_; ?_; rotate_left; clear_value x; rotate_right; subst x)
    | (extract_lets +onlyGivenNames x; clear_value x)
    | with_reducible apply writeAt_ok
    | with_reducible apply State.accessError_ok
    | split

theorem wordWrite_ok {qq : List Instr} (w : Writer) (off : Nat) (v : W32) (merged : Bool) (s : State) (hs : Ok qq s) : Ok qq (wordWrite w off v merged s) := by
  unfold wordWrite
  repeat' first
    | with_reducible assumption
    | with_reducible apply doorbell_ok
    | with_reducible apply State.linked_ok
    | with_reducible apply writeAt_ok
    | with_reducible apply lowWrite_ok
    | with_reducible apply highWrite_ok
    | with_reducible apply State.accessError_ok
    | split

theorem wordPart_ok {qq : List Instr} (w : Writer) (off : Nat) (v : W32) (mask : Nat) (merged : Bool) (s : State) (hs : Ok qq s) : Ok qq (wordPart w off v mask merged s) := by
  unfold wordPart
  repeat' first
    | with_reducible assumption
    | with_reducible apply wordWrite_ok
    | with_reducible apply State.accessError_ok
    | with_reducible apply State.linked_ok
    | with_reducible apply ok_ite
    | split

theorem registerWrite_ok {qq : List Instr} (w : Writer) (off : Nat) (mask : Nat) (v : W64) (s : State) (hs : Ok qq s) : Ok qq (registerWrite w off mask v s) := by
  unfold registerWrite
  repeat' first
    | with_reducible assumption
    | with_reducible apply State.linked_ok
    | with_reducible apply writeAt_ok
    | with_reducible apply wordPart_ok
    | with_reducible apply ok_ite

theorem execRegisterWrite_ok {qq : List Instr} (w : Writer) (dword : BitVec 21) (mask : Byte) (v : W64) (s : State) (hs : Ok qq s) : OkOut qq (execRegisterWrite w dword mask v s) := by
  unfold execRegisterWrite
  repeat' first
    | with_reducible assumption
    | with_reducible refine OkOut.next ?_
    | with_reducible apply registerWrite_ok

theorem State.answer_ok {qq : List Instr} (s : State) (v : W64) (hs : Ok qq s) : Ok qq (State.answer s v) := by
  unfold State.answer
  repeat' first
    | with_reducible exact ok_mk (by assumption) rfl rfl rfl rfl rfl rfl rfl rfl rfl

theorem State.linkedRead_ok {qq : List Instr} (s : State) (w : Writer) (off : Nat) (f : State → State × W64) (hs : Ok qq s) (hf : ∀ x0, Ok qq x0 → Ok qq (f x0).1) : Ok qq (State.linkedRead s w off f).1 := by
  unfold State.linkedRead
  repeat' first
    | with_reducible assumption
    | with_reducible apply State.denyLink_ok
    | with_reducible apply hf
    | with_reducible apply okFst_ite

theorem wordRead_ok {qq : List Instr} (w : Writer) (off : Nat) (s : State) (hs : Ok qq s) : Ok qq (wordRead w off s).1 := by
  unfold wordRead
  refine State.linkedRead_ok _ _ _ _ hs (fun s hs => ?_)
  refine okFst_ite (readAt_ok _ _ hs) (okFst_ite ?_ (okFst_ite ?_ hs))
  · exact ok_mk (readAt_ok off s hs) rfl rfl rfl rfl rfl rfl rfl rfl rfl
  · split
    · exact ok_mk hs rfl rfl rfl rfl rfl rfl rfl rfl rfl
    · exact readAt_ok _ _ hs

theorem execShadowLowRead_ok {qq : List Instr} (w : Writer) (off : BitVec 24) (s : State) (hs : Ok qq s) : OkOut qq (execShadowLowRead w off s) := by
  unfold execShadowLowRead
  repeat' first
    | with_reducible assumption
    | with_reducible refine OkOut.next ?_
    | with_reducible apply wordRead_ok
    | with_reducible apply State.answer_ok
    | with_reducible apply ok_ite

theorem execShadowLowWrite_ok {qq : List Instr} (w : Writer) (off : BitVec 24) (v : W32) (s : State) (hs : Ok qq s) : OkOut qq (execShadowLowWrite w off v s) := by
  unfold execShadowLowWrite
  repeat' first
    | with_reducible assumption
    | with_reducible refine OkOut.next ?_
    | with_reducible apply State.linked_ok
    | with_reducible apply lowWrite_ok
    | with_reducible apply ok_ite

theorem execShadowHighWrite_ok {qq : List Instr} (w : Writer) (off : BitVec 24) (v : W32) (s : State) (hs : Ok qq s) : OkOut qq (execShadowHighWrite w off v s) := by
  unfold execShadowHighWrite
  repeat' first
    | with_reducible assumption
    | with_reducible refine OkOut.next ?_
    | with_reducible apply State.linked_ok
    | with_reducible apply highWrite_ok
    | with_reducible apply ok_ite

theorem phpPageWrite_ok {qq : List Instr} (k : Nat) (v : W32) (s : State) (hs : Ok qq s) : Ok qq (phpPageWrite k v s) := by
  unfold phpPageWrite
  repeat' first
    | with_reducible assumption
    | with_reducible apply State.accessError_ok
    | with_reducible apply State.setReg_ok
    | with_reducible apply ok_ite

theorem phpStatClr_ok {qq : List Instr} (s : State) (hs : Ok qq s) : Ok qq (phpStatClr s) := by
  unfold phpStatClr
  repeat' first
    | with_reducible assumption
    | with_reducible apply State.setReg_ok

theorem execPhpPageWrite_ok {qq : List Instr} (k : Fin 16) (v : W32) (s : State) (hs : Ok qq s) : OkOut qq (execPhpPageWrite k v s) := by
  unfold execPhpPageWrite
  repeat' first
    | with_reducible assumption
    | with_reducible refine OkOut.next ?_
    | with_reducible apply phpPageWrite_ok

theorem execPhpStatClr_ok {qq : List Instr} (s : State) (hs : Ok qq s) : OkOut qq (execPhpStatClr s) := by
  unfold execPhpStatClr
  repeat' first
    | with_reducible assumption
    | with_reducible refine OkOut.next ?_
    | with_reducible apply phpStatClr_ok

theorem phpStore_ok {qq : List Instr} (bar2 : Bool) (off : Nat) (v : W64) (lost : Nat) (merged : Bool) (s : State) (hs : Ok qq s) : Ok qq (phpStore bar2 off v lost merged s) := by
  unfold phpStore
  repeat' first
    | with_reducible assumption
    | with_reducible apply State.denyLink_ok
    | (extract_lets +onlyGivenNames x; clear_value x)
    | with_reducible apply State.deny_ok
    | with_reducible apply hostWrite_ok
    | with_reducible apply lostContests_ok
    | with_reducible apply phpPageWrite_ok
    | with_reducible apply phpStatClr_ok
    | with_reducible apply State.accessError_ok
    | with_reducible apply State.linked_ok
    | with_reducible apply writeAt_ok
    | with_reducible apply wordWrite_ok
    | with_reducible apply ok_ite

theorem phpLoad_ok {qq : List Instr} (bar2 : Bool) (off : Nat) (lost : Nat) (s : State) (hs : Ok qq s) : Ok qq (phpLoad bar2 off lost s).1 := by
  unfold phpLoad
  repeat' first
    | with_reducible assumption
    | with_reducible apply State.denyLink_ok
    | with_reducible apply State.deny_ok
    | with_reducible apply hostRead_ok
    | with_reducible apply lostContests_ok
    | with_reducible apply readAt_ok
    | with_reducible apply State.linkedRead_ok
    | with_reducible apply okFst_ite

theorem phpOrder_ok {qq : List Instr} (s : State) (hs : Ok qq s) : Ok qq (phpOrder s) := by
  unfold phpOrder
  repeat' first
    | with_reducible assumption
    | with_reducible exact ok_mk (by assumption) rfl rfl rfl rfl rfl rfl rfl rfl rfl
    | (extract_lets +onlyGivenNames x; refine have hx : Ok qq x := ?_; ?_; rotate_left; clear_value x; rotate_right; subst x)
    | with_reducible apply State.accessError_ok
    | with_reducible apply State.bump_ok

theorem phpWrite_ok {qq : List Instr} (a : Nat) (v : Nat) (lost : Nat) (merged : Bool) (s : State) (hs : Ok qq s) : Ok qq (phpWrite a v lost merged s) := by
  unfold phpWrite
  repeat' first
    | with_reducible assumption
    | with_reducible exact ok_mk (by assumption) rfl rfl rfl rfl rfl rfl rfl rfl rfl
    | (extract_lets +onlyGivenNames x; clear_value x)
    | with_reducible apply phpStore_ok
    | with_reducible apply phpOrder_ok
    | with_reducible apply ok_ite
    | split

theorem execPhpWrite_ok {qq : List Instr} (a : BitVec 15) (v : BitVec 16) (both : Bool) (lost : Fin 4) (merged : Bool) (s : State) (hs : Ok qq s) : OkOut qq (execPhpWrite a v both lost merged s) := by
  unfold execPhpWrite
  repeat' first
    | with_reducible assumption
    | with_reducible refine OkOut.next ?_
    | with_reducible apply State.accessError_ok
    | with_reducible apply phpWrite_ok
    | with_reducible apply ok_ite

theorem phpRead_ok {qq : List Instr} (a : Nat) (lost : Nat) (s : State) (hs : Ok qq s) : Ok qq (phpRead a lost s) := by
  unfold phpRead
  split
  next bar2 byte e =>
  split
  next off x e2 =>
  extract_lets h part
  have hl : ∀ y, Ok qq ((phpLoad bar2 off lost s).1.answer y) := fun y => State.answer_ok _ _ (phpLoad_ok _ _ _ _ hs)
  refine ok_ite ?_ ?_
  · exact State.answer_ok _ _ (ok_mk (phpLoad_ok bar2 off lost s hs) rfl rfl rfl rfl rfl rfl rfl rfl rfl)
  · split
    · exact ok_ite (State.answer_ok _ _ hs) (hl _)
    · exact hl _

theorem execPhpRead_ok {qq : List Instr} (a : BitVec 15) (lost : Fin 4) (s : State) (hs : Ok qq s) : OkOut qq (execPhpRead a lost s) := by
  unfold execPhpRead
  repeat' first
    | with_reducible assumption
    | with_reducible refine OkOut.next ?_
    | with_reducible apply phpRead_ok

theorem phpTimeout_ok {qq : List Instr} (write : Bool) (s : State) (hs : Ok qq s) : Ok qq (phpTimeout write s) := by
  unfold phpTimeout
  repeat' first
    | with_reducible assumption
    | with_reducible exact ok_mk (by assumption) rfl rfl rfl rfl rfl rfl rfl rfl rfl
    | (extract_lets +onlyGivenNames x; refine have hx : Ok qq x := ?_; ?_; rotate_left; clear_value x; rotate_right; subst x)
    | (extract_lets +onlyGivenNames x; clear_value x)
    | with_reducible apply State.bump_ok
    | with_reducible apply State.answer_ok
    | with_reducible apply ok_ite

theorem execPhpTimeout_ok {qq : List Instr} (write : Bool) (s : State) (hs : Ok qq s) : OkOut qq (execPhpTimeout write s) := by
  unfold execPhpTimeout
  repeat' first
    | with_reducible assumption
    | with_reducible refine OkOut.next ?_
    | with_reducible apply phpTimeout_ok

end Sys2Proof.Machine
end

