-- ==== Sys2Proof/Laws/OkIdle.lean ====
section
/-! SUPPORT. What the operations of Machine/Idle.lean keep: each takes a sound state with the same commands waiting to
such a state (see Laws/Ok.lean). -/

namespace Sys2Proof.Machine

theorem idle_ok {qq : List Instr} (s : State) (hs : Ok qq s) : Ok qq (idle s) := by
  unfold idle
  repeat' first
    | with_reducible assumption
    | with_reducible exact ok_mk (by assumption) rfl rfl rfl rfl rfl rfl rfl rfl rfl
    | with_reducible apply ok_ite

end Sys2Proof.Machine
end

