-- ==== Sys2Proof/Laws/OkLoader.lean ====
section
/-! SUPPORT. What the operations of Machine/Loader.lean keep: each takes a sound state with the same commands waiting to
such a state (see Laws/Ok.lean). -/

namespace Sys2Proof.Machine

theorem loadFails_ok {qq : List Instr} (code : Nat) (detail : Nat) (s : State) (hs : Ok qq s) : Ok qq (loadFails code detail s) := by
  unfold loadFails
  repeat' first
    | with_reducible assumption
    | with_reducible apply showHealth_ok
    | with_reducible apply ldrFailAt_ok

theorem badRecord_ok {qq : List Instr} (s : State) (hs : Ok qq s) : Ok qq (badRecord s) := by
  unfold badRecord
  repeat' first
    | with_reducible assumption
    | with_reducible apply loadFails_ok

theorem bodyTake_ok {qq : List Instr} (k : Nat) (s : State) (hs : Ok qq s) : Ok qq (bodyTake k s) := by
  unfold bodyTake
  repeat' first
    | with_reducible assumption
    | with_reducible exact ok_mk (by assumption) rfl rfl rfl rfl rfl rfl rfl rfl rfl
    | (extract_lets +onlyGivenNames x; refine have hx : Ok qq x := ?_; ?_; rotate_left; clear_value x; rotate_right; subst x)
    | (extract_lets +onlyGivenNames x; (first | have hh : Sched := x | have hh : Hea := x | have hh : Ldr := x | have hh : Eng := x); clear hh; subst x)
    | with_reducible apply ldrEat_ok
    | with_reducible apply ok_ite

theorem record_ok {qq : List Instr} (ty : Nat) (form : W64 → State → Bool) (size : W64 → Nat) (apply : W64 → List Byte → State → Applied) (s : State) (happly : ∀ x0 x1 x2, Ok qq x2 → Ok qq (apply x0 x1 x2).1) (hs : Ok qq s) : Ok qq (record ty form size apply s) := by
  unfold record
  repeat' first
    | with_reducible assumption
    | (extract_lets +onlyGivenNames x; refine have hx : Ok qq x := ?_; ?_; rotate_left; clear_value x; rotate_right; subst x)
    | (extract_lets +onlyGivenNames x; clear_value x)
    | with_reducible apply ldrRefill_ok
    | with_reducible apply badRecord_ok
    | with_reducible apply bodyTake_ok
    | with_reducible apply loadFails_ok
    | with_reducible apply happly
    | with_reducible apply ok_ite

theorem recordNop_ok {qq : List Instr} (s : State) (hs : Ok qq s) : Ok qq (recordNop s) := by
  unfold recordNop
  repeat' first
    | with_reducible assumption
    | (extract_lets +onlyGivenNames x; refine have hx : Ok qq x := ?_; ?_; rotate_left; clear_value x; rotate_right; subst x)
    | (extract_lets +onlyGivenNames x; clear_value x)
    | with_reducible apply ldrRefill_ok
    | with_reducible apply badRecord_ok
    | with_reducible apply record_ok
    | with_reducible apply ok_ite
    | dsimp -zeta only
    | intro _ _ _ _

theorem execRecordNop_ok {qq : List Instr} (s : State) (hs : Ok qq s) : OkOut qq (execRecordNop s) := by
  unfold execRecordNop
  repeat' first
    | with_reducible assumption
    | with_reducible refine OkOut.next ?_
    | with_reducible apply recordNop_ok

theorem frameWrite_ok {qq : List Instr} (sec : Nat) (f : Nat) (ws : List W64) (s : State) (hs : Ok qq s) : Ok qq (frameWrite sec f ws s) := by
  have hone : ∀ (l : List Nat) (t : Tab W64), Tab.wf 0 t = true →
      Tab.wf 0 (l.foldl (fun t k => Tab.set 0 t ((sec * 416 + f) * 64 + k) (wordAt ws k)) t) = true := by
    intro l
    induction l with
    | nil => intro t h; exact h
    | cons k l ih => intro t h; exact ih _ (Tab.wf_set 0 h _ _)
  unfold frameWrite
  exact ok_mkBy hs rfl hs.inv.1.1 hs.inv.1.2 (hone _ _ hs.inv.1.3) hs.engines hs.inv.2.2 hs.inv.2.3 hs.inv.2.4 hs.inv.2.5

theorem borderKeep_ok {qq : List Instr} (sec : Nat) (ws : List W64) (s : State) (hs : Ok qq s) : Ok qq (borderKeep sec ws s) := by
  unfold borderKeep
  repeat' first
    | with_reducible exact ok_mk (by assumption) rfl rfl rfl rfl rfl rfl rfl rfl rfl

theorem frameNoted_ok {qq : List Instr} (sec : Nat) (f : Nat) (s : State) (hs : Ok qq s) : Ok qq (frameNoted sec f s) := by
  unfold frameNoted
  repeat' first
    | with_reducible exact ok_mk (by assumption) rfl rfl rfl rfl rfl rfl rfl rfl rfl

theorem darkroom_ok {qq : List Instr} (sec : Nat) (s : State) (hs : Ok qq s) : Ok qq (darkroom sec s) := by
  unfold darkroom
  repeat' first
    | with_reducible assumption
    | with_reducible exact ok_mk (by assumption) rfl rfl rfl rfl rfl rfl rfl rfl rfl
    | (extract_lets +onlyGivenNames x; refine have hx : Ok qq x := ?_; ?_; rotate_left; clear_value x; rotate_right; subst x)
    | (extract_lets +onlyGivenNames x; (first | have hh : Sched := x | have hh : Hea := x | have hh : Ldr := x | have hh : Eng := x); clear hh; subst x)
    | with_reducible apply sectorPinsSafe_ok
    | with_reducible apply enterDark_ok
    | with_reducible apply fixPlannedHere_ok
    | with_reducible apply showHealth_ok
    | with_reducible apply ok_ite

theorem framesApply_ok {qq : List Instr} (sec : Nat) (a1 : Nat) (a2 : List (List W64)) (a3 : State) (ha3 : Ok qq a3) : Ok qq (framesApply sec a1 a2 a3).1 := by
  revert ha3
  fun_induction framesApply sec a1 a2 a3 <;> intro ha3
  all_goals repeat' first
    | with_reducible assumption
    | with_reducible refine (by assumption : Ok _ _ → Ok _ _) ?_
    | with_reducible apply frameWrite_ok
    | with_reducible apply borderKeep_ok
    | with_reducible apply frameNoted_ok
    | with_reducible apply ok_ite

theorem frames_ok {qq : List Instr} (s : State) (hs : Ok qq s) : Ok qq (frames s) := by
  unfold frames
  repeat' first
    | with_reducible assumption
    | (extract_lets +onlyGivenNames x; clear_value x)
    | with_reducible apply record_ok
    | with_reducible apply framesApply_ok
    | with_reducible apply darkroom_ok
    | intro _ _ _ _

theorem execFramesRecord_ok {qq : List Instr} (s : State) (hs : Ok qq s) : OkOut qq (execFramesRecord s) := by
  unfold execFramesRecord
  repeat' first
    | with_reducible assumption
    | with_reducible refine OkOut.next ?_
    | with_reducible apply frames_ok

theorem bankApply_ok {qq : List Instr} (h : W64) (bs : List Byte) (s : State) (hs : Ok qq s) : Ok qq (bankApply h bs s).1 := by
  unfold bankApply
  repeat' first
    | with_reducible assumption
    | with_reducible exact ok_mk (by assumption) rfl rfl rfl rfl rfl rfl rfl rfl rfl
    | (extract_lets +onlyGivenNames x; refine have hx : Ok qq x := ?_; ?_; rotate_left; clear_value x; rotate_right; subst x)
    | (extract_lets +onlyGivenNames x; (first | have hh : Sched := x | have hh : Hea := x | have hh : Ldr := x | have hh : Eng := x); clear hh; subst x)
    | (extract_lets +onlyGivenNames x; clear_value x)
    | with_reducible apply darkroom_ok
    | with_reducible apply bankWrites_ok
    | with_reducible apply ok_ite
    | with_reducible apply okFst_ite

theorem execBankRecord_ok {qq : List Instr} (s : State) (hs : Ok qq s) : OkOut qq (execBankRecord s) := by
  unfold execBankRecord
  repeat' first
    | with_reducible assumption
    | with_reducible refine OkOut.next ?_
    | with_reducible apply record_ok
    | with_reducible apply bankApply_ok

theorem ememWrite_ok {qq : List Instr} (a0 : Nat) (a1 : List W64) (a2 : State) (ha2 : Ok qq a2) : Ok qq (ememWrite a0 a1 a2) := by
  revert ha2
  fun_induction ememWrite a0 a1 a2 <;> intro ha2
  all_goals repeat' first
    | with_reducible assumption
    | with_reducible refine (by assumption : Ok _ _ → Ok _ _) ?_
    | with_reducible apply engWrite_ok

theorem execEmemRecord_ok {qq : List Instr} (s : State) (hs : Ok qq s) : OkOut qq (execEmemRecord s) := by
  unfold execEmemRecord
  repeat' first
    | with_reducible assumption
    | (extract_lets +onlyGivenNames x; clear_value x)
    | with_reducible refine OkOut.next ?_
    | with_reducible apply record_ok
    | with_reducible apply ememWrite_ok
    | intro _ _ _ _

theorem regRest_ok {qq : List Instr} (off : Nat) (v : W64) (s : State) (hs : Ok qq s) : Ok qq (regRest off v s) := by
  unfold regRest
  repeat' first
    | with_reducible assumption
    | (extract_lets +onlyGivenNames x; refine have hx : Ok qq x := ?_; ?_; rotate_left; clear_value x; rotate_right; subst x)
    | with_reducible apply queCntClr_ok
    | with_reducible apply queFlush_ok
    | with_reducible apply State.setFld_ok
    | with_reducible apply engineCntClr_ok
    | with_reducible apply sportCfgWrite_ok
    | with_reducible apply ok_ite
    | split

theorem regApply_ok {qq : List Instr} (off : Nat) (v : W64) (s : State) (hs : Ok qq s) : Ok qq (regApply off v s) := by
  unfold regApply
  repeat' first
    | with_reducible assumption
    | with_reducible exact ok_mk (by assumption) rfl rfl rfl rfl rfl rfl rfl rfl rfl
    | (extract_lets +onlyGivenNames x; refine have hx : Ok qq x := ?_; ?_; rotate_left; clear_value x; rotate_right; subst x)
    | (extract_lets +onlyGivenNames x; (first | have hh : Sched := x | have hh : Hea := x | have hh : Ldr := x | have hh : Eng := x); clear hh; subst x)
    | with_reducible apply writeAt_ok
    | with_reducible apply regRest_ok
    | with_reducible apply ok_ite

theorem noRefusals_ok {qq : List Instr} (off : Nat) (s : State) (hs : Ok qq s) : Ok qq (noRefusals off s) := by
  unfold noRefusals
  repeat' first
    | with_reducible assumption
    | with_reducible apply State.setReg_ok

theorem regWords_ok {qq : List Instr} (a0 : List (Nat × W32)) (a1 : State) (ha1 : Ok qq a1) : Ok qq (regWords a0 a1).1 := by
  revert ha1
  fun_induction regWords a0 a1 <;> intro ha1
  all_goals repeat' first
    | with_reducible assumption
    | with_reducible refine (by assumption : Ok _ _ → Ok _ _) ?_
    | with_reducible apply regApply_ok

theorem regRecord_ok {qq : List Instr} (h : W64) (bs : List Byte) (s : State) (hs : Ok qq s) : Ok qq (regRecord h bs s).1 := by
  unfold regRecord
  extract_lets off n l held
  refine okFst_ite hs (okFst_ite hs (okFst_ite ?_ (regWords_ok _ _ hs)))
  by_cases hl : 256 < held.length
  · rw [if_pos hl]
    exact hs
  · rw [if_neg hl]
    exact ok_mkBy hs rfl hs.inv.1.1 hs.inv.1.2 hs.inv.1.3 hs.engines hs.inv.2.2 hs.inv.2.3 hs.inv.2.4 (Nat.le_of_not_lt hl)

theorem execRegRecord_ok {qq : List Instr} (s : State) (hs : Ok qq s) : OkOut qq (execRegRecord s) := by
  unfold execRegRecord
  repeat' first
    | with_reducible assumption
    | with_reducible refine OkOut.next ?_
    | with_reducible apply record_ok
    | with_reducible apply regRecord_ok

theorem sectionOpen_ok {qq : List Instr} (s : State) (hs : Ok qq s) : Ok qq (sectionOpen s) := by
  unfold sectionOpen
  repeat' first
    | with_reducible assumption
    | with_reducible exact ok_mk (by assumption) rfl rfl rfl rfl rfl rfl rfl rfl rfl
    | (extract_lets +onlyGivenNames x; refine have hx : Ok qq x := ?_; ?_; rotate_left; clear_value x; rotate_right; subst x)
    | (extract_lets +onlyGivenNames x; (first | have hh : Sched := x | have hh : Hea := x | have hh : Ldr := x | have hh : Eng := x); clear hh; subst x)
    | (extract_lets +onlyGivenNames x; clear_value x)
    | with_reducible apply ldrRefill_ok
    | with_reducible apply record_ok
    | with_reducible apply ok_ite
    | dsimp -zeta only
    | intro _ _ _ _

theorem execSectionRecord_ok {qq : List Instr} (s : State) (hs : Ok qq s) : OkOut qq (execSectionRecord s) := by
  unfold execSectionRecord
  repeat' first
    | with_reducible assumption
    | with_reducible refine OkOut.next ?_
    | with_reducible apply sectionOpen_ok

theorem bordersTaken_ok {qq : List Instr} (s : State) (hs : Ok qq s) : Ok qq (bordersTaken s) := by
  unfold bordersTaken
  repeat' first
    | with_reducible assumption
    | with_reducible exact ok_mk (by assumption) rfl rfl rfl rfl rfl rfl rfl rfl rfl
    | (extract_lets +onlyGivenNames x; refine have hx : Ok qq x := ?_; ?_; rotate_left; clear_value x; rotate_right; subst x)
    | (extract_lets +onlyGivenNames x; clear_value x)
    | with_reducible apply frameWrite_ok
    | (with_reducible refine ok_foldl ?_ _ ?_; intro _ _ _)

theorem endApply_ok {qq : List Instr} (s : State) (hs : Ok qq s) : Ok qq (endApply s).1 := by
  unfold endApply
  repeat' first
    | with_reducible assumption
    | (extract_lets +onlyGivenNames x; clear_value x)
    | with_reducible apply okFst_ite

theorem endRecord_ok {qq : List Instr} (s : State) (hs : Ok qq s) : Ok qq (endRecord s) := by
  unfold endRecord
  repeat' first
    | with_reducible assumption
    | (extract_lets +onlyGivenNames x; refine have hx : Ok qq x := ?_; ?_; rotate_left; clear_value x; rotate_right; subst x)
    | (extract_lets +onlyGivenNames x; (first | have hh : Sched := x | have hh : Hea := x | have hh : Ldr := x | have hh : Eng := x); clear hh; subst x)
    | with_reducible apply record_ok
    | with_reducible apply endApply_ok
    | with_reducible apply State.setLdrState_ok
    | with_reducible apply ok_ite
    | (with_reducible refine ok_mkBy (by assumption) rfl ?_ ?_ ?_ ?_ ?_ ?_ ?_ ?_) <;> first | with_reducible exact okRegs (by assumption) | with_reducible exact okMem (by assumption) | with_reducible exact okFrames (by assumption) | with_reducible exact okEngs (by assumption) | with_reducible exact okWest (by assumption) | with_reducible exact okEast (by assumption) | with_reducible exact okPlanned (by assumption) | with_reducible exact okHeld (by assumption)
    | intro _ _ _ _

theorem execEndRecord_ok {qq : List Instr} (s : State) (hs : Ok qq s) : OkOut qq (execEndRecord s) := by
  unfold execEndRecord
  repeat' first
    | with_reducible assumption
    | with_reducible refine OkOut.next ?_
    | with_reducible apply endRecord_ok

theorem segmentTag_ok {qq : List Instr} (s : State) (hs : Ok qq s) : Ok qq (segmentTag s) := by
  unfold segmentTag
  repeat' first
    | with_reducible assumption
    | with_reducible exact ok_mk (by assumption) rfl rfl rfl rfl rfl rfl rfl rfl rfl
    | (extract_lets +onlyGivenNames x; refine have hx : Ok qq x := ?_; ?_; rotate_left; clear_value x; rotate_right; subst x)
    | (extract_lets +onlyGivenNames x; (first | have hh : Sched := x | have hh : Hea := x | have hh : Ldr := x | have hh : Eng := x); clear hh; subst x)
    | (extract_lets +onlyGivenNames x; clear_value x)
    | with_reducible apply ldrRefill_ok
    | with_reducible apply ldrEat_ok
    | with_reducible apply loadFails_ok
    | with_reducible apply ok_ite

theorem execSegmentTag_ok {qq : List Instr} (s : State) (hs : Ok qq s) : OkOut qq (execSegmentTag s) := by
  unfold execSegmentTag
  repeat' first
    | with_reducible assumption
    | with_reducible refine OkOut.next ?_
    | with_reducible apply segmentTag_ok

theorem showTaps_ok {qq : List Instr} (s : State) (k : Nat) (hs : Ok qq s) : Ok qq (showTaps s k) := by
  unfold showTaps
  repeat' first
    | with_reducible assumption
    | (extract_lets +onlyGivenNames x; clear_value x)
    | with_reducible apply State.setFld_ok

theorem exitBegins_ok {qq : List Instr} (s : State) (hs : Ok qq s) : Ok qq (exitBegins s) := by
  unfold exitBegins
  extract_lets s1 s2 held x
  have h1 : Ok qq s1 := bordersTaken_ok _ hs
  have h2 : Ok qq s2 := ok_foldl (fun s k h => showTaps_ok _ _ h) _ h1
  clear_value s2
  have h3 : Ok qq { s2 with ldr := { s2.ldr with held := [] } } := ok_mkBy h2 rfl h2.inv.1.1 h2.inv.1.2 h2.inv.1.3 h2.engines h2.inv.2.2 h2.inv.2.3 h2.inv.2.4 (Nat.zero_le _)
  split
  next s3 code detail e =>
  have h4 : Ok qq s3 := ok_fst e (regWords_ok _ _ h3)
  refine ok_ite (loadFails_ok _ _ _ h4) ?_
  have h5 := State.setLdrState_ok s3 5 h4
  exact ok_mkBy h5 rfl h5.inv.1.1 h5.inv.1.2 h5.inv.1.3 h5.engines h5.inv.2.2 h5.inv.2.3 h5.inv.2.4 h4.inv.2.5

theorem trailer_ok {qq : List Instr} (s : State) (hs : Ok qq s) : Ok qq (trailer s) := by
  unfold trailer
  repeat' first
    | with_reducible assumption
    | with_reducible exact ok_mk (by assumption) rfl rfl rfl rfl rfl rfl rfl rfl rfl
    | (extract_lets +onlyGivenNames x; refine have hx : Ok qq x := ?_; ?_; rotate_left; clear_value x; rotate_right; subst x)
    | (extract_lets +onlyGivenNames x; (first | have hh : Sched := x | have hh : Hea := x | have hh : Ldr := x | have hh : Eng := x); clear hh; subst x)
    | (extract_lets +onlyGivenNames x; clear_value x)
    | with_reducible apply ldrRefill_ok
    | with_reducible apply loadFails_ok
    | with_reducible apply forwardEnd_ok
    | with_reducible apply State.setFlag_ok
    | with_reducible apply exitBegins_ok
    | with_reducible apply gateWait_ok
    | with_reducible apply ok_ite

theorem execStreamTrailer_ok {qq : List Instr} (s : State) (hs : Ok qq s) : OkOut qq (execStreamTrailer s) := by
  unfold execStreamTrailer
  repeat' first
    | with_reducible assumption
    | with_reducible refine OkOut.next ?_
    | with_reducible apply trailer_ok

theorem sourceEnds_ok {qq : List Instr} (source : Nat) (s : State) (hs : Ok qq s) : Ok qq (sourceEnds source s) := by
  unfold sourceEnds
  repeat' first
    | with_reducible assumption
    | (extract_lets +onlyGivenNames x; refine have hx : Ok qq x := ?_; ?_; rotate_left; clear_value x; rotate_right; subst x)
    | (extract_lets +onlyGivenNames x; subst x)
    | with_reducible apply ldrRefill_ok
    | with_reducible apply showHealth_ok
    | with_reducible apply ldrFail_ok
    | with_reducible apply ok_ite

theorem execStreamSourceEnd_ok {qq : List Instr} (source : Fin 5) (s : State) (hs : Ok qq s) : OkOut qq (execStreamSourceEnd source s) := by
  unfold execStreamSourceEnd
  repeat' first
    | with_reducible assumption
    | with_reducible refine OkOut.next ?_
    | with_reducible apply sourceEnds_ok

theorem streamStall_ok {qq : List Instr} (s : State) (hs : Ok qq s) : Ok qq (streamStall s) := by
  unfold streamStall
  repeat' first
    | with_reducible assumption
    | with_reducible apply showHealth_ok
    | with_reducible apply ldrFail_ok
    | with_reducible apply ok_ite

theorem execStreamStallTimeout_ok {qq : List Instr} (s : State) (hs : Ok qq s) : OkOut qq (execStreamStallTimeout s) := by
  unfold execStreamStallTimeout
  repeat' first
    | with_reducible assumption
    | with_reducible refine OkOut.next ?_
    | with_reducible apply streamStall_ok

theorem gateHigh_ok {qq : List Instr} (s : State) (hs : Ok qq s) : Ok qq (gateHigh s) := by
  unfold gateHigh
  repeat' first
    | with_reducible assumption
    | with_reducible exact ok_mk (by assumption) rfl rfl rfl rfl rfl rfl rfl rfl rfl
    | (extract_lets +onlyGivenNames x; refine have hx : Ok qq x := ?_; ?_; rotate_left; clear_value x; rotate_right; subst x)
    | (extract_lets +onlyGivenNames x; (first | have hh : Sched := x | have hh : Hea := x | have hh : Ldr := x | have hh : Eng := x); clear hh; subst x)
    | with_reducible apply State.setLdrState_ok
    | with_reducible apply State.setFlag_ok
    | with_reducible apply showTaps_ok
    | with_reducible apply State.setPhase_ok
    | with_reducible apply ok_ite
    | (with_reducible refine ok_foldl ?_ _ ?_; intro _ _ _)

theorem execGateHigh_ok {qq : List Instr} (s : State) (hs : Ok qq s) : OkOut qq (execGateHigh s) := by
  unfold execGateHigh
  repeat' first
    | with_reducible assumption
    | with_reducible refine OkOut.next ?_
    | with_reducible apply gateHigh_ok

theorem execGateTimeout_ok {qq : List Instr} (s : State) (hs : Ok qq s) : OkOut qq (execGateTimeout s) := by
  unfold execGateTimeout
  repeat' first
    | with_reducible assumption
    | with_reducible refine OkOut.next ?_
    | with_reducible apply showHealth_ok
    | with_reducible apply pullGate_ok
    | with_reducible apply ldrFail_ok
    | with_reducible apply ok_ite

theorem stepShown_ok {qq : List Instr} (k : Nat) (s : State) (hs : Ok qq s) : Ok qq (stepShown k s) := by
  unfold stepShown
  repeat' first
    | with_reducible assumption
    | with_reducible apply State.setFld_ok

theorem sectorsLeave_ok {qq : List Instr} (l : List Nat) (s : State) (hs : Ok qq s) : Ok qq (sectorsLeave l s) := by
  unfold sectorsLeave
  repeat' first
    | with_reducible assumption
    | with_reducible exact ok_mk (by assumption) rfl rfl rfl rfl rfl rfl rfl rfl rfl
    | (extract_lets +onlyGivenNames x; refine have hx : Ok qq x := ?_; ?_; rotate_left; clear_value x; rotate_right; subst x)
    | (extract_lets +onlyGivenNames g; refine have hg : ∀ s a, Ok qq s → Ok qq (g s a) := ?_; ?_; rotate_left; clear_value g; rotate_right; subst g; intro _ _ _; try dsimp -zeta only)
    | (extract_lets +onlyGivenNames x; clear_value x)
    | with_reducible apply State.setFlag_ok
    | with_reducible apply applyUrst_ok
    | with_reducible apply ok_ite
    | (with_reducible refine ok_foldl ?_ _ ?_; intro _ _ _)
    | with_reducible apply hg

theorem loadDone_ok {qq : List Instr} (l : List Nat) (s : State) (hs : Ok qq s) : Ok qq (loadDone l s) := by
  unfold loadDone
  repeat' first
    | with_reducible assumption
    | (extract_lets +onlyGivenNames x; refine have hx : Ok qq x := ?_; ?_; rotate_left; clear_value x; rotate_right; subst x)
    | with_reducible apply State.setFld_ok
    | with_reducible apply State.setLdrState_ok
    | with_reducible apply State.bump_ok
    | (with_reducible refine ok_foldl ?_ _ ?_; intro _ _ _)

theorem doneNotice_ok {qq : List Instr} (s : State) (hs : Ok qq s) : Ok qq (doneNotice s) := by
  unfold doneNotice
  repeat' first
    | with_reducible assumption
    | with_reducible apply State.noticeIf_ok

theorem startDone_ok {qq : List Instr} (s : State) (hs : Ok qq s) : Ok qq (startDone s) := by
  unfold startDone
  repeat' first
    | with_reducible assumption
    | with_reducible exact ok_mk (by assumption) rfl rfl rfl rfl rfl rfl rfl rfl rfl
    | (extract_lets +onlyGivenNames x; refine have hx : Ok qq x := ?_; ?_; rotate_left; clear_value x; rotate_right; subst x)
    | (extract_lets +onlyGivenNames x; clear_value x)
    | with_reducible apply State.dropAction_ok
    | with_reducible apply State.setPhase_ok
    | with_reducible apply startSucceeds_ok
    | with_reducible apply State.setFlag_ok
    | with_reducible apply ok_ite

theorem exhaustedEnds_ok {qq : List Instr} (s : State) (hs : Ok qq s) : Ok qq (exhaustedEnds s) := by
  unfold exhaustedEnds
  repeat' first
    | with_reducible assumption
    | with_reducible apply bootSave_ok
    | with_reducible apply State.setFld_ok
    | with_reducible apply State.setFlag_ok
    | with_reducible apply ok_ite

theorem deviceDone_ok {qq : List Instr} (s : State) (hs : Ok qq s) : Ok qq (deviceDone s) := by
  unfold deviceDone
  repeat' first
    | with_reducible assumption
    | with_reducible exact ok_mk (by assumption) rfl rfl rfl rfl rfl rfl rfl rfl rfl
    | (extract_lets +onlyGivenNames x; refine have hx : Ok qq x := ?_; ?_; rotate_left; clear_value x; rotate_right; subst x)
    | (extract_lets +onlyGivenNames x; (first | have hh : Sched := x | have hh : Hea := x | have hh : Ldr := x | have hh : Eng := x); clear hh; subst x)
    | (extract_lets +onlyGivenNames x; clear_value x)
    | with_reducible apply State.setLdrState_ok
    | with_reducible apply exhaustedEnds_ok
    | with_reducible apply State.dropAction_ok
    | with_reducible apply loadDone_ok
    | with_reducible apply State.setHeldMask_ok
    | with_reducible apply startDone_ok
    | with_reducible apply doneNotice_ok
    | with_reducible apply ok_ite

theorem sectorsDone_ok {qq : List Instr} (s : State) (hs : Ok qq s) : Ok qq (sectorsDone s) := by
  unfold sectorsDone
  repeat' first
    | with_reducible assumption
    | with_reducible exact ok_mk (by assumption) rfl rfl rfl rfl rfl rfl rfl rfl rfl
    | (extract_lets +onlyGivenNames x; refine have hx : Ok qq x := ?_; ?_; rotate_left; clear_value x; rotate_right; subst x)
    | (extract_lets +onlyGivenNames x; (first | have hh : Sched := x | have hh : Hea := x | have hh : Ldr := x | have hh : Eng := x); clear hh; subst x)
    | (extract_lets +onlyGivenNames x; clear_value x)
    | with_reducible apply sectorsLeave_ok
    | with_reducible apply doneNotice_ok
    | with_reducible apply loadDone_ok
    | with_reducible apply showHealth_ok
    | with_reducible apply ok_ite

theorem stepDone_ok {qq : List Instr} (s : State) (hs : Ok qq s) : Ok qq (stepDone s) := by
  unfold stepDone
  repeat' first
    | with_reducible exact ok_mk (by assumption) rfl rfl rfl rfl rfl rfl rfl rfl rfl
    | (extract_lets +onlyGivenNames x; (first | have hh : Sched := x | have hh : Hea := x | have hh : Ldr := x | have hh : Eng := x); clear hh; subst x)
    | (extract_lets +onlyGivenNames x; clear_value x)
    | (extract_lets +onlyGivenNames x; subst x)
    | with_reducible apply deviceDone_ok
    | with_reducible apply sectorsDone_ok
    | with_reducible apply ok_ite

theorem startupOuts_ok {qq : List Instr} (s : State) (hs : Ok qq s) : Ok qq (startupOuts s) := by
  unfold startupOuts
  repeat' first
    | with_reducible assumption
    | (extract_lets +onlyGivenNames x; refine have hx : Ok qq x := ?_; ?_; rotate_left; clear_value x; rotate_right; subst x)
    | (extract_lets +onlyGivenNames x; clear_value x)
    | with_reducible apply State.setFlag_ok
    | with_reducible apply stepDone_ok
    | with_reducible apply sectorPinsWake_ok
    | with_reducible apply pinsWake_ok
    | with_reducible apply stepShown_ok
    | with_reducible apply ok_ite
    | (with_reducible refine ok_foldl ?_ _ ?_; intro _ _ _)

theorem execStartupOuts_ok {qq : List Instr} (s : State) (hs : Ok qq s) : OkOut qq (execStartupOuts s) := by
  unfold execStartupOuts
  repeat' first
    | with_reducible assumption
    | with_reducible refine OkOut.next ?_
    | with_reducible apply startupOuts_ok

theorem laterQueue_ok {qq : List Instr} (s : State) (e : Nat × W32) (hs : Ok qq s) : Ok qq (laterQueue s e) := by
  unfold laterQueue
  repeat' first
    | with_reducible assumption
    | with_reducible apply queEnable_ok
    | with_reducible apply queDisable_ok
    | with_reducible apply ok_ite

theorem queueRuns_ok {qq : List Instr} (s : State) (q : Nat) (hs : Ok qq s) : Ok qq (queueRuns s q) := by
  unfold queueRuns
  repeat' first
    | with_reducible assumption
    | (extract_lets +onlyGivenNames x; clear_value x)
    | with_reducible apply State.refuseBank_ok
    | with_reducible apply queStart_ok
    | with_reducible apply ok_ite

theorem startupWrites_ok {qq : List Instr} (s : State) (hs : Ok qq s) : Ok qq (startupWrites s) := by
  unfold startupWrites
  repeat' first
    | with_reducible assumption
    | with_reducible exact ok_mk (by assumption) rfl rfl rfl rfl rfl rfl rfl rfl rfl
    | (extract_lets +onlyGivenNames x; refine have hx : Ok qq x := ?_; ?_; rotate_left; clear_value x; rotate_right; subst x)
    | (extract_lets +onlyGivenNames x; (first | have hh : Sched := x | have hh : Hea := x | have hh : Ldr := x | have hh : Eng := x); clear hh; subst x)
    | (extract_lets +onlyGivenNames x; clear_value x)
    | (extract_lets +onlyGivenNames x; subst x)
    | with_reducible apply State.setFlag_ok
    | with_reducible apply laterQueue_ok
    | with_reducible apply stepShown_ok
    | with_reducible apply queueRuns_ok
    | with_reducible apply stepDone_ok
    | with_reducible apply queSettle_ok
    | with_reducible apply ok_ite
    | (with_reducible refine ok_foldl ?_ _ ?_; intro _ _ _)

theorem execStartupWrites_ok {qq : List Instr} (s : State) (hs : Ok qq s) : OkOut qq (execStartupWrites s) := by
  unfold execStartupWrites
  repeat' first
    | with_reducible assumption
    | with_reducible refine OkOut.next ?_
    | with_reducible apply startupWrites_ok

theorem laterPort_ok {qq : List Instr} (s : State) (e : Nat × W32) (hs : Ok qq s) : Ok qq (laterPort s e) := by
  unfold laterPort
  repeat' first
    | with_reducible assumption
    | with_reducible apply State.setFld_ok
    | with_reducible apply ok_ite

theorem laterEngine_ok {qq : List Instr} (s : State) (e : Nat × W32) (hs : Ok qq s) : Ok qq (laterEngine s e) := by
  unfold laterEngine
  repeat' first
    | with_reducible assumption
    | with_reducible apply engineEnable_ok
    | with_reducible apply engineDisable_ok
    | with_reducible apply ok_ite

theorem contextsReset_ok {qq : List Instr} (s : State) (hs : Ok qq s) : Ok qq (contextsReset s) := by
  unfold contextsReset
  repeat' first
    | with_reducible assumption
    | with_reducible exact ok_mk (by assumption) rfl rfl rfl rfl rfl rfl rfl rfl rfl
    | (extract_lets +onlyGivenNames x; refine have hx : Ok qq x := ?_; ?_; rotate_left; clear_value x; rotate_right; subst x)
    | with_reducible apply State.setFld_ok
    | (with_reducible refine ok_foldl ?_ _ ?_; intro _ _ _)

theorem engineStarts_ok {qq : List Instr} (s : State) (n : Nat) (hs : Ok qq s) : Ok qq (engineStarts s n) := by
  unfold engineStarts
  repeat' first
    | with_reducible assumption
    | with_reducible apply engineRun_ok
    | with_reducible apply ok_ite

theorem resetsStart_ok {qq : List Instr} (s : State) (hs : Ok qq s) : Ok qq (resetsStart s) := by
  unfold resetsStart
  repeat' first
    | with_reducible assumption
    | (extract_lets +onlyGivenNames x; refine have hx : Ok qq x := ?_; ?_; rotate_left; clear_value x; rotate_right; subst x)
    | with_reducible apply contextsReset_ok
    | with_reducible apply laterPort_ok
    | with_reducible apply laterEngine_ok
    | with_reducible apply ringsWake_ok
    | with_reducible apply engineStarts_ok
    | with_reducible apply railSettle_ok
    | with_reducible apply stepShown_ok
    | with_reducible apply engineWakes_ok
    | with_reducible apply ok_ite
    | (with_reducible refine ok_foldl ?_ _ ?_; intro _ _ _)
    | split

theorem resetLifted_ok {qq : List Instr} (s : State) (k : Nat) (hs : Ok qq s) : Ok qq (resetLifted s k) := by
  unfold resetLifted
  repeat' first
    | with_reducible assumption
    | with_reducible apply releaseSector_ok
    | with_reducible apply State.setFlag_ok

theorem columnLifted_ok {qq : List Instr} (c : Nat) (s : State) (hs : Ok qq s) : Ok qq (columnLifted c s) := by
  unfold columnLifted
  repeat' first
    | with_reducible assumption
    | with_reducible apply resetLifted_ok
    | (with_reducible refine ok_foldl ?_ _ ?_; intro _ _ _)

theorem startupResets_ok {qq : List Instr} (s : State) (hs : Ok qq s) : Ok qq (startupResets s) := by
  unfold startupResets
  repeat' first
    | with_reducible assumption
    | with_reducible exact ok_mk (by assumption) rfl rfl rfl rfl rfl rfl rfl rfl rfl
    | (extract_lets +onlyGivenNames x; refine have hx : Ok qq x := ?_; ?_; rotate_left; clear_value x; rotate_right; subst x)
    | (extract_lets +onlyGivenNames x; (first | have hh : Sched := x | have hh : Hea := x | have hh : Ldr := x | have hh : Eng := x); clear hh; subst x)
    | with_reducible apply stepDone_ok
    | with_reducible apply resetsStart_ok
    | with_reducible apply resetLifted_ok
    | with_reducible apply columnLifted_ok
    | with_reducible apply ok_ite
    | (with_reducible refine ok_foldl ?_ _ ?_; intro _ _ _)

theorem execStartupResets_ok {qq : List Instr} (s : State) (hs : Ok qq s) : OkOut qq (execStartupResets s) := by
  unfold execStartupResets
  repeat' first
    | with_reducible assumption
    | with_reducible refine OkOut.next ?_
    | with_reducible apply startupResets_ok

theorem resetColumn_ok {qq : List Instr} (s : State) (hs : Ok qq s) : Ok qq (resetColumn s) := by
  unfold resetColumn
  repeat' first
    | with_reducible assumption
    | with_reducible exact ok_mk (by assumption) rfl rfl rfl rfl rfl rfl rfl rfl rfl
    | (extract_lets +onlyGivenNames x; refine have hx : Ok qq x := ?_; ?_; rotate_left; clear_value x; rotate_right; subst x)
    | (extract_lets +onlyGivenNames x; (first | have hh : Sched := x | have hh : Hea := x | have hh : Ldr := x | have hh : Eng := x); clear hh; subst x)
    | (extract_lets +onlyGivenNames x; clear_value x)
    | with_reducible apply columnLifted_ok
    | with_reducible apply stepDone_ok
    | with_reducible apply resetsStart_ok
    | with_reducible apply ok_ite

theorem execResetWaveColumn_ok {qq : List Instr} (s : State) (hs : Ok qq s) : OkOut qq (execResetWaveColumn s) := by
  unfold execResetWaveColumn
  repeat' first
    | with_reducible assumption
    | with_reducible refine OkOut.next ?_
    | with_reducible apply resetColumn_ok

end Sys2Proof.Machine
end

