-- ==== Sys2Proof/Laws/OkJtag.lean ====
section
/-! SUPPORT. What the operations of Machine/Jtag.lean keep: each takes a sound state with the same commands waiting to
such a state (see Laws/Ok.lean). -/

namespace Sys2Proof.Machine

theorem State.setJtag_ok {qq : List Instr} (s : State) (j : Jtag) (hs : Ok qq s) : Ok qq (State.setJtag s j) := by
  unfold State.setJtag
  repeat' first
    | with_reducible exact ok_mk (by assumption) rfl rfl rfl rfl rfl rfl rfl rfl rfl

theorem jtagInstr_ok {qq : List Instr} (ir : Nat) (s : State) (hs : Ok qq s) : Ok qq (jtagInstr ir s) := by
  unfold jtagInstr
  repeat' first
    | with_reducible assumption
    | (extract_lets +onlyGivenNames x; refine have hx : Ok qq x := ?_; ?_; rotate_left; clear_value x; rotate_right; subst x)
    | (extract_lets +onlyGivenNames x; clear_value x)
    | with_reducible apply sourceEnds_ok
    | with_reducible apply State.setJtag_ok
    | with_reducible apply ok_ite

theorem jtagReset_ok {qq : List Instr} (s : State) (hs : Ok qq s) : Ok qq (jtagReset s) := by
  unfold jtagReset
  repeat' first
    | with_reducible assumption
    | (extract_lets +onlyGivenNames x; refine have hx : Ok qq x := ?_; ?_; rotate_left; clear_value x; rotate_right; subst x)
    | (extract_lets +onlyGivenNames x; clear_value x)
    | with_reducible apply jtagInstr_ok
    | with_reducible apply State.setJtag_ok

theorem execJtagReset_ok {qq : List Instr} (s : State) (hs : Ok qq s) : OkOut qq (execJtagReset s) := by
  unfold execJtagReset
  repeat' first
    | with_reducible assumption
    | with_reducible refine OkOut.next ?_
    | with_reducible apply jtagReset_ok

theorem boundary_ok {qq : List Instr} (ir : Nat) (balls : Nat) (shifted : Nat) (s : State) (hs : Ok qq s) : Ok qq (boundary ir balls shifted s) := by
  unfold boundary
  repeat' first
    | with_reducible assumption
    | (extract_lets +onlyGivenNames x; refine have hx : Ok qq x := ?_; ?_; rotate_left; clear_value x; rotate_right; subst x)
    | (extract_lets +onlyGivenNames x; clear_value x)
    | with_reducible apply jtagInstr_ok
    | with_reducible apply State.setJtag_ok

theorem execJtagExtest_ok {qq : List Instr} (balls : Nat) (shifted : Nat) (s : State) (hs : Ok qq s) : OkOut qq (execJtagExtest balls shifted s) := by
  unfold execJtagExtest
  repeat' first
    | with_reducible assumption
    | (extract_lets +onlyGivenNames x; refine have hx : Ok qq x := ?_; ?_; rotate_left; clear_value x; rotate_right; subst x)
    | (extract_lets +onlyGivenNames x; clear_value x)
    | with_reducible refine OkOut.next ?_
    | with_reducible apply boundary_ok
    | with_reducible apply State.setJtag_ok

theorem execJtagSamplePreload_ok {qq : List Instr} (balls : Nat) (shifted : Nat) (s : State) (hs : Ok qq s) : OkOut qq (execJtagSamplePreload balls shifted s) := by
  unfold execJtagSamplePreload
  repeat' first
    | with_reducible assumption
    | with_reducible refine OkOut.next ?_
    | with_reducible apply boundary_ok

theorem execJtagIdcode_ok {qq : List Instr} (s : State) (hs : Ok qq s) : OkOut qq (execJtagIdcode s) := by
  unfold execJtagIdcode
  repeat' first
    | with_reducible assumption
    | (extract_lets +onlyGivenNames x; refine have hx : Ok qq x := ?_; ?_; rotate_left; clear_value x; rotate_right; subst x)
    | (extract_lets +onlyGivenNames x; clear_value x)
    | with_reducible refine OkOut.next ?_
    | with_reducible apply jtagInstr_ok
    | with_reducible apply State.setJtag_ok

theorem execJtagBypass_ok {qq : List Instr} (code : Byte) (s : State) (hs : Ok qq s) : OkOut qq (execJtagBypass code s) := by
  unfold execJtagBypass
  repeat' first
    | with_reducible assumption
    | (extract_lets +onlyGivenNames x; refine have hx : Ok qq x := ?_; ?_; rotate_left; clear_value x; rotate_right; subst x)
    | (extract_lets +onlyGivenNames x; clear_value x)
    | with_reducible refine OkOut.next ?_
    | with_reducible apply jtagInstr_ok
    | with_reducible apply State.setJtag_ok

theorem debugOff_ok {qq : List Instr} (s : State) (hs : Ok qq s) : Ok qq (debugOff s) := by
  unfold debugOff
  repeat' first
    | with_reducible assumption
    | (extract_lets +onlyGivenNames x; clear_value x)
    | with_reducible apply State.setJtag_ok

theorem quemos_ok {qq : List Instr} (ir : Nat) (f : State → State) (s : State) (hf : ∀ s, Ok qq s → Ok qq (f s)) (hs : Ok qq s) : Ok qq (quemos ir f s) := by
  unfold quemos
  repeat' first
    | with_reducible assumption
    | (extract_lets +onlyGivenNames x; refine have hx : Ok qq x := ?_; ?_; rotate_left; clear_value x; rotate_right; subst x)
    | with_reducible apply jtagInstr_ok
    | with_reducible apply debugOff_ok
    | with_reducible apply hf
    | with_reducible apply ok_ite

theorem cfgLoad_ok {qq : List Instr} (bs : List Byte) (s : State) (hs : Ok qq s) : Ok qq (cfgLoad bs s) := by
  unfold cfgLoad
  repeat' first
    | with_reducible assumption
    | (extract_lets +onlyGivenNames x; refine have hx : Ok qq x := ?_; ?_; rotate_left; clear_value x; rotate_right; subst x)
    | (extract_lets +onlyGivenNames x; clear_value x)
    | with_reducible refine ok_mk (ok_fst (by assumption) ?_) rfl rfl rfl rfl rfl rfl rfl rfl rfl
    | with_reducible apply State.deny_ok
    | with_reducible apply State.setJtag_ok
    | with_reducible apply ldrOffer_ok
    | with_reducible apply ok_ite
    | split

theorem execCfgLoad_ok {qq : List Instr} (bs : List Byte) (s : State) (hs : Ok qq s) : OkOut qq (execCfgLoad bs s) := by
  unfold execCfgLoad
  repeat' first
    | with_reducible assumption
    | with_reducible refine OkOut.next ?_
    | with_reducible apply quemos_ok
    | with_reducible apply cfgLoad_ok

theorem cfgRead_ok {qq : List Instr} (sel : Nat) (s : State) (hs : Ok qq s) : Ok qq (cfgRead sel s) := by
  unfold cfgRead
  repeat' first
    | with_reducible assumption
    | (extract_lets +onlyGivenNames x; clear_value x)
    | with_reducible apply State.setJtag_ok

theorem execCfgRead_ok {qq : List Instr} (sel : BitVec 16) (s : State) (hs : Ok qq s) : OkOut qq (execCfgRead sel s) := by
  unfold execCfgRead
  repeat' first
    | with_reducible assumption
    | with_reducible refine OkOut.next ?_
    | with_reducible apply quemos_ok
    | with_reducible apply cfgRead_ok

theorem setupWrite_ok {qq : List Instr} (bar2 : Bool) (off : Nat) (v : W32) (lost : Nat) (s : State) (hs : Ok qq s) : Ok qq (setupWrite bar2 off v lost s) := by
  unfold setupWrite
  repeat' first
    | with_reducible assumption
    | with_reducible apply State.denyLink_ok
    | (extract_lets +onlyGivenNames x; subst x)
    | with_reducible apply wordWrite_ok
    | with_reducible apply State.linked_ok
    | with_reducible apply State.accessError_ok
    | with_reducible apply State.deny_ok
    | with_reducible apply hostWrite_ok
    | with_reducible apply lostContests_ok
    | with_reducible apply ok_ite

theorem setupRead_ok {qq : List Instr} (bar2 : Bool) (off : Nat) (lost : Nat) (s : State) (hs : Ok qq s) : Ok qq (setupRead bar2 off lost s).1 := by
  unfold setupRead
  repeat' first
    | with_reducible assumption
    | with_reducible apply State.denyLink_ok
    | with_reducible apply wordRead_ok
    | with_reducible apply State.linkedRead_ok
    | with_reducible apply State.deny_ok
    | with_reducible apply hostRead_ok
    | with_reducible apply lostContests_ok
    | with_reducible apply okFst_ite
    | dsimp -zeta only
    | intro _ _

theorem setupAnswer_ok {qq : List Instr} (code : Nat) (v : W64) (s : State) (hs : Ok qq s) : Ok qq (setupAnswer code v s) := by
  unfold setupAnswer
  repeat' first
    | with_reducible assumption
    | (extract_lets +onlyGivenNames x; clear_value x)
    | with_reducible apply State.setJtag_ok

theorem execSetupRwRead_ok {qq : List Instr} (bar2 : Bool) (word : BitVec 23) (lost : Fin 4) (s : State) (hs : Ok qq s) : OkOut qq (execSetupRwRead bar2 word lost s) := by
  unfold execSetupRwRead
  repeat' first
    | with_reducible assumption
    | (extract_lets +onlyGivenNames x; clear_value x)
    | with_reducible refine OkOut.next ?_
    | with_reducible apply quemos_ok
    | with_reducible apply setupRead_ok
    | with_reducible apply setupAnswer_ok
    | dsimp -zeta only
    | intro _ _

theorem execSetupRwWrite_ok {qq : List Instr} (bar2 : Bool) (word : BitVec 23) (v : W32) (lost : Fin 4) (s : State) (hs : Ok qq s) : OkOut qq (execSetupRwWrite bar2 word v lost s) := by
  unfold execSetupRwWrite
  repeat' first
    | with_reducible assumption
    | (extract_lets +onlyGivenNames g; refine have hg : ∀ s, Ok qq s → Ok qq (g s) := ?_; ?_; rotate_left; clear_value g; rotate_right; subst g; intro _ _; try dsimp -zeta only)
    | (extract_lets +onlyGivenNames x; clear_value x)
    | with_reducible refine OkOut.next ?_
    | with_reducible apply quemos_ok
    | with_reducible apply setupWrite_ok
    | with_reducible apply setupAnswer_ok
    | with_reducible apply hg
    | intro _ _

end Sys2Proof.Machine
end

