-- ==== Sys2Proof/Laws/OkKellRows.lean ====
section
/-! SUPPORT. What the operations of Machine/KellRows.lean keep: each takes a sound state with the same commands waiting to
such a state (see Laws/Ok.lean). -/

namespace Sys2Proof.Machine

theorem execKNop_ok {qq : List Instr} (n : Fin 96) (s : State) (hs : Ok qq s) : OkOut qq (execKNop n s) := by
  unfold execKNop
  repeat' first
    | with_reducible assumption
    | with_reducible refine OkOut.next ?_
    | with_reducible apply issue_ok

theorem execKAdd_ok {qq : List Instr} (n : Fin 96) (s : State) (hs : Ok qq s) : OkOut qq (execKAdd n s) := by
  unfold execKAdd
  repeat' first
    | with_reducible assumption
    | with_reducible refine OkOut.next ?_
    | with_reducible apply issue_ok

theorem execKSub_ok {qq : List Instr} (n : Fin 96) (s : State) (hs : Ok qq s) : OkOut qq (execKSub n s) := by
  unfold execKSub
  repeat' first
    | with_reducible assumption
    | with_reducible refine OkOut.next ?_
    | with_reducible apply issue_ok

theorem execKAnd_ok {qq : List Instr} (n : Fin 96) (s : State) (hs : Ok qq s) : OkOut qq (execKAnd n s) := by
  unfold execKAnd
  repeat' first
    | with_reducible assumption
    | with_reducible refine OkOut.next ?_
    | with_reducible apply issue_ok

theorem execKOr_ok {qq : List Instr} (n : Fin 96) (s : State) (hs : Ok qq s) : OkOut qq (execKOr n s) := by
  unfold execKOr
  repeat' first
    | with_reducible assumption
    | with_reducible refine OkOut.next ?_
    | with_reducible apply issue_ok

theorem execKXor_ok {qq : List Instr} (n : Fin 96) (s : State) (hs : Ok qq s) : OkOut qq (execKXor n s) := by
  unfold execKXor
  repeat' first
    | with_reducible assumption
    | with_reducible refine OkOut.next ?_
    | with_reducible apply issue_ok

theorem execKShl_ok {qq : List Instr} (n : Fin 96) (s : State) (hs : Ok qq s) : OkOut qq (execKShl n s) := by
  unfold execKShl
  repeat' first
    | with_reducible assumption
    | with_reducible refine OkOut.next ?_
    | with_reducible apply issue_ok

theorem execKShr_ok {qq : List Instr} (n : Fin 96) (s : State) (hs : Ok qq s) : OkOut qq (execKShr n s) := by
  unfold execKShr
  repeat' first
    | with_reducible assumption
    | with_reducible refine OkOut.next ?_
    | with_reducible apply issue_ok

theorem execKSar_ok {qq : List Instr} (n : Fin 96) (s : State) (hs : Ok qq s) : OkOut qq (execKSar n s) := by
  unfold execKSar
  repeat' first
    | with_reducible assumption
    | with_reducible refine OkOut.next ?_
    | with_reducible apply issue_ok

theorem execKRor_ok {qq : List Instr} (n : Fin 96) (s : State) (hs : Ok qq s) : OkOut qq (execKRor n s) := by
  unfold execKRor
  repeat' first
    | with_reducible assumption
    | with_reducible refine OkOut.next ?_
    | with_reducible apply issue_ok

theorem execKSlt_ok {qq : List Instr} (n : Fin 96) (s : State) (hs : Ok qq s) : OkOut qq (execKSlt n s) := by
  unfold execKSlt
  repeat' first
    | with_reducible assumption
    | with_reducible refine OkOut.next ?_
    | with_reducible apply issue_ok

theorem execKSltu_ok {qq : List Instr} (n : Fin 96) (s : State) (hs : Ok qq s) : OkOut qq (execKSltu n s) := by
  unfold execKSltu
  repeat' first
    | with_reducible assumption
    | with_reducible refine OkOut.next ?_
    | with_reducible apply issue_ok

theorem execKSeq_ok {qq : List Instr} (n : Fin 96) (s : State) (hs : Ok qq s) : OkOut qq (execKSeq n s) := by
  unfold execKSeq
  repeat' first
    | with_reducible assumption
    | with_reducible refine OkOut.next ?_
    | with_reducible apply issue_ok

theorem execKMin_ok {qq : List Instr} (n : Fin 96) (s : State) (hs : Ok qq s) : OkOut qq (execKMin n s) := by
  unfold execKMin
  repeat' first
    | with_reducible assumption
    | with_reducible refine OkOut.next ?_
    | with_reducible apply issue_ok

theorem execKMax_ok {qq : List Instr} (n : Fin 96) (s : State) (hs : Ok qq s) : OkOut qq (execKMax n s) := by
  unfold execKMax
  repeat' first
    | with_reducible assumption
    | with_reducible refine OkOut.next ?_
    | with_reducible apply issue_ok

theorem execKMinu_ok {qq : List Instr} (n : Fin 96) (s : State) (hs : Ok qq s) : OkOut qq (execKMinu n s) := by
  unfold execKMinu
  repeat' first
    | with_reducible assumption
    | with_reducible refine OkOut.next ?_
    | with_reducible apply issue_ok

theorem execKMaxu_ok {qq : List Instr} (n : Fin 96) (s : State) (hs : Ok qq s) : OkOut qq (execKMaxu n s) := by
  unfold execKMaxu
  repeat' first
    | with_reducible assumption
    | with_reducible refine OkOut.next ?_
    | with_reducible apply issue_ok

theorem execKMul_ok {qq : List Instr} (n : Fin 96) (s : State) (hs : Ok qq s) : OkOut qq (execKMul n s) := by
  unfold execKMul
  repeat' first
    | with_reducible assumption
    | with_reducible refine OkOut.next ?_
    | with_reducible apply issue_ok

theorem execKMulh_ok {qq : List Instr} (n : Fin 96) (s : State) (hs : Ok qq s) : OkOut qq (execKMulh n s) := by
  unfold execKMulh
  repeat' first
    | with_reducible assumption
    | with_reducible refine OkOut.next ?_
    | with_reducible apply issue_ok

theorem execKMulhu_ok {qq : List Instr} (n : Fin 96) (s : State) (hs : Ok qq s) : OkOut qq (execKMulhu n s) := by
  unfold execKMulhu
  repeat' first
    | with_reducible assumption
    | with_reducible refine OkOut.next ?_
    | with_reducible apply issue_ok

theorem execKDiv_ok {qq : List Instr} (n : Fin 96) (s : State) (hs : Ok qq s) : OkOut qq (execKDiv n s) := by
  unfold execKDiv
  repeat' first
    | with_reducible assumption
    | with_reducible refine OkOut.next ?_
    | with_reducible apply issue_ok

theorem execKDivu_ok {qq : List Instr} (n : Fin 96) (s : State) (hs : Ok qq s) : OkOut qq (execKDivu n s) := by
  unfold execKDivu
  repeat' first
    | with_reducible assumption
    | with_reducible refine OkOut.next ?_
    | with_reducible apply issue_ok

theorem execKRem_ok {qq : List Instr} (n : Fin 96) (s : State) (hs : Ok qq s) : OkOut qq (execKRem n s) := by
  unfold execKRem
  repeat' first
    | with_reducible assumption
    | with_reducible refine OkOut.next ?_
    | with_reducible apply issue_ok

theorem execKRemu_ok {qq : List Instr} (n : Fin 96) (s : State) (hs : Ok qq s) : OkOut qq (execKRemu n s) := by
  unfold execKRemu
  repeat' first
    | with_reducible assumption
    | with_reducible refine OkOut.next ?_
    | with_reducible apply issue_ok

theorem execKClz_ok {qq : List Instr} (n : Fin 96) (s : State) (hs : Ok qq s) : OkOut qq (execKClz n s) := by
  unfold execKClz
  repeat' first
    | with_reducible assumption
    | with_reducible refine OkOut.next ?_
    | with_reducible apply issue_ok

theorem execKPopc_ok {qq : List Instr} (n : Fin 96) (s : State) (hs : Ok qq s) : OkOut qq (execKPopc n s) := by
  unfold execKPopc
  repeat' first
    | with_reducible assumption
    | with_reducible refine OkOut.next ?_
    | with_reducible apply issue_ok

theorem execKAddv_ok {qq : List Instr} (n : Fin 96) (s : State) (hs : Ok qq s) : OkOut qq (execKAddv n s) := by
  unfold execKAddv
  repeat' first
    | with_reducible assumption
    | with_reducible refine OkOut.next ?_
    | with_reducible apply issue_ok

theorem execKSubv_ok {qq : List Instr} (n : Fin 96) (s : State) (hs : Ok qq s) : OkOut qq (execKSubv n s) := by
  unfold execKSubv
  repeat' first
    | with_reducible assumption
    | with_reducible refine OkOut.next ?_
    | with_reducible apply issue_ok

theorem execKCmovnz_ok {qq : List Instr} (n : Fin 96) (s : State) (hs : Ok qq s) : OkOut qq (execKCmovnz n s) := by
  unfold execKCmovnz
  repeat' first
    | with_reducible assumption
    | with_reducible refine OkOut.next ?_
    | with_reducible apply issue_ok

theorem execKCmovz_ok {qq : List Instr} (n : Fin 96) (s : State) (hs : Ok qq s) : OkOut qq (execKCmovz n s) := by
  unfold execKCmovz
  repeat' first
    | with_reducible assumption
    | with_reducible refine OkOut.next ?_
    | with_reducible apply issue_ok

theorem execKAddi_ok {qq : List Instr} (n : Fin 96) (s : State) (hs : Ok qq s) : OkOut qq (execKAddi n s) := by
  unfold execKAddi
  repeat' first
    | with_reducible assumption
    | with_reducible refine OkOut.next ?_
    | with_reducible apply issue_ok

theorem execKAndi_ok {qq : List Instr} (n : Fin 96) (s : State) (hs : Ok qq s) : OkOut qq (execKAndi n s) := by
  unfold execKAndi
  repeat' first
    | with_reducible assumption
    | with_reducible refine OkOut.next ?_
    | with_reducible apply issue_ok

theorem execKOri_ok {qq : List Instr} (n : Fin 96) (s : State) (hs : Ok qq s) : OkOut qq (execKOri n s) := by
  unfold execKOri
  repeat' first
    | with_reducible assumption
    | with_reducible refine OkOut.next ?_
    | with_reducible apply issue_ok

theorem execKXori_ok {qq : List Instr} (n : Fin 96) (s : State) (hs : Ok qq s) : OkOut qq (execKXori n s) := by
  unfold execKXori
  repeat' first
    | with_reducible assumption
    | with_reducible refine OkOut.next ?_
    | with_reducible apply issue_ok

theorem execKSlti_ok {qq : List Instr} (n : Fin 96) (s : State) (hs : Ok qq s) : OkOut qq (execKSlti n s) := by
  unfold execKSlti
  repeat' first
    | with_reducible assumption
    | with_reducible refine OkOut.next ?_
    | with_reducible apply issue_ok

theorem execKSltiu_ok {qq : List Instr} (n : Fin 96) (s : State) (hs : Ok qq s) : OkOut qq (execKSltiu n s) := by
  unfold execKSltiu
  repeat' first
    | with_reducible assumption
    | with_reducible refine OkOut.next ?_
    | with_reducible apply issue_ok

theorem execKShi_ok {qq : List Instr} (n : Fin 96) (s : State) (hs : Ok qq s) : OkOut qq (execKShi n s) := by
  unfold execKShi
  repeat' first
    | with_reducible assumption
    | with_reducible refine OkOut.next ?_
    | with_reducible apply issue_ok

theorem execKLdi_ok {qq : List Instr} (n : Fin 96) (s : State) (hs : Ok qq s) : OkOut qq (execKLdi n s) := by
  unfold execKLdi
  repeat' first
    | with_reducible assumption
    | with_reducible refine OkOut.next ?_
    | with_reducible apply issue_ok

theorem execKInsh_ok {qq : List Instr} (n : Fin 96) (s : State) (hs : Ok qq s) : OkOut qq (execKInsh n s) := by
  unfold execKInsh
  repeat' first
    | with_reducible assumption
    | with_reducible refine OkOut.next ?_
    | with_reducible apply issue_ok

theorem execKQadd_ok {qq : List Instr} (n : Fin 96) (s : State) (hs : Ok qq s) : OkOut qq (execKQadd n s) := by
  unfold execKQadd
  repeat' first
    | with_reducible assumption
    | with_reducible refine OkOut.next ?_
    | with_reducible apply issue_ok

theorem execKQsub_ok {qq : List Instr} (n : Fin 96) (s : State) (hs : Ok qq s) : OkOut qq (execKQsub n s) := by
  unfold execKQsub
  repeat' first
    | with_reducible assumption
    | with_reducible refine OkOut.next ?_
    | with_reducible apply issue_ok

theorem execKQmul_ok {qq : List Instr} (n : Fin 96) (s : State) (hs : Ok qq s) : OkOut qq (execKQmul n s) := by
  unfold execKQmul
  repeat' first
    | with_reducible assumption
    | with_reducible refine OkOut.next ?_
    | with_reducible apply issue_ok

theorem execKQdiv_ok {qq : List Instr} (n : Fin 96) (s : State) (hs : Ok qq s) : OkOut qq (execKQdiv n s) := by
  unfold execKQdiv
  repeat' first
    | with_reducible assumption
    | with_reducible refine OkOut.next ?_
    | with_reducible apply issue_ok

theorem execKQshl_ok {qq : List Instr} (n : Fin 96) (s : State) (hs : Ok qq s) : OkOut qq (execKQshl n s) := by
  unfold execKQshl
  repeat' first
    | with_reducible assumption
    | with_reducible refine OkOut.next ?_
    | with_reducible apply issue_ok

theorem execKQshr_ok {qq : List Instr} (n : Fin 96) (s : State) (hs : Ok qq s) : OkOut qq (execKQshr n s) := by
  unfold execKQshr
  repeat' first
    | with_reducible assumption
    | with_reducible refine OkOut.next ?_
    | with_reducible apply issue_ok

theorem execKQabs_ok {qq : List Instr} (n : Fin 96) (s : State) (hs : Ok qq s) : OkOut qq (execKQabs n s) := by
  unfold execKQabs
  repeat' first
    | with_reducible assumption
    | with_reducible refine OkOut.next ?_
    | with_reducible apply issue_ok

theorem execKQneg_ok {qq : List Instr} (n : Fin 96) (s : State) (hs : Ok qq s) : OkOut qq (execKQneg n s) := by
  unfold execKQneg
  repeat' first
    | with_reducible assumption
    | with_reducible refine OkOut.next ?_
    | with_reducible apply issue_ok

theorem execKQshli_ok {qq : List Instr} (n : Fin 96) (s : State) (hs : Ok qq s) : OkOut qq (execKQshli n s) := by
  unfold execKQshli
  repeat' first
    | with_reducible assumption
    | with_reducible refine OkOut.next ?_
    | with_reducible apply issue_ok

theorem execKQshri_ok {qq : List Instr} (n : Fin 96) (s : State) (hs : Ok qq s) : OkOut qq (execKQshri n s) := by
  unfold execKQshri
  repeat' first
    | with_reducible assumption
    | with_reducible refine OkOut.next ?_
    | with_reducible apply issue_ok

theorem execKFadd_ok {qq : List Instr} (n : Fin 96) (s : State) (hs : Ok qq s) : OkOut qq (execKFadd n s) := by
  unfold execKFadd
  repeat' first
    | with_reducible assumption
    | with_reducible refine OkOut.next ?_
    | with_reducible apply issue_ok

theorem execKFsub_ok {qq : List Instr} (n : Fin 96) (s : State) (hs : Ok qq s) : OkOut qq (execKFsub n s) := by
  unfold execKFsub
  repeat' first
    | with_reducible assumption
    | with_reducible refine OkOut.next ?_
    | with_reducible apply issue_ok

theorem execKFmul_ok {qq : List Instr} (n : Fin 96) (s : State) (hs : Ok qq s) : OkOut qq (execKFmul n s) := by
  unfold execKFmul
  repeat' first
    | with_reducible assumption
    | with_reducible refine OkOut.next ?_
    | with_reducible apply issue_ok

theorem execKFdiv_ok {qq : List Instr} (n : Fin 96) (s : State) (hs : Ok qq s) : OkOut qq (execKFdiv n s) := by
  unfold execKFdiv
  repeat' first
    | with_reducible assumption
    | with_reducible refine OkOut.next ?_
    | with_reducible apply issue_ok

theorem execKFsqrt_ok {qq : List Instr} (n : Fin 96) (s : State) (hs : Ok qq s) : OkOut qq (execKFsqrt n s) := by
  unfold execKFsqrt
  repeat' first
    | with_reducible assumption
    | with_reducible refine OkOut.next ?_
    | with_reducible apply issue_ok

theorem execKFma_ok {qq : List Instr} (n : Fin 96) (s : State) (hs : Ok qq s) : OkOut qq (execKFma n s) := by
  unfold execKFma
  repeat' first
    | with_reducible assumption
    | with_reducible refine OkOut.next ?_
    | with_reducible apply issue_ok

theorem execKFmin_ok {qq : List Instr} (n : Fin 96) (s : State) (hs : Ok qq s) : OkOut qq (execKFmin n s) := by
  unfold execKFmin
  repeat' first
    | with_reducible assumption
    | with_reducible refine OkOut.next ?_
    | with_reducible apply issue_ok

theorem execKFmax_ok {qq : List Instr} (n : Fin 96) (s : State) (hs : Ok qq s) : OkOut qq (execKFmax n s) := by
  unfold execKFmax
  repeat' first
    | with_reducible assumption
    | with_reducible refine OkOut.next ?_
    | with_reducible apply issue_ok

theorem execKFneg_ok {qq : List Instr} (n : Fin 96) (s : State) (hs : Ok qq s) : OkOut qq (execKFneg n s) := by
  unfold execKFneg
  repeat' first
    | with_reducible assumption
    | with_reducible refine OkOut.next ?_
    | with_reducible apply issue_ok

theorem execKFabs_ok {qq : List Instr} (n : Fin 96) (s : State) (hs : Ok qq s) : OkOut qq (execKFabs n s) := by
  unfold execKFabs
  repeat' first
    | with_reducible assumption
    | with_reducible refine OkOut.next ?_
    | with_reducible apply issue_ok

theorem execKFeq_ok {qq : List Instr} (n : Fin 96) (s : State) (hs : Ok qq s) : OkOut qq (execKFeq n s) := by
  unfold execKFeq
  repeat' first
    | with_reducible assumption
    | with_reducible refine OkOut.next ?_
    | with_reducible apply issue_ok

theorem execKFlt_ok {qq : List Instr} (n : Fin 96) (s : State) (hs : Ok qq s) : OkOut qq (execKFlt n s) := by
  unfold execKFlt
  repeat' first
    | with_reducible assumption
    | with_reducible refine OkOut.next ?_
    | with_reducible apply issue_ok

theorem execKFle_ok {qq : List Instr} (n : Fin 96) (s : State) (hs : Ok qq s) : OkOut qq (execKFle n s) := by
  unfold execKFle
  repeat' first
    | with_reducible assumption
    | with_reducible refine OkOut.next ?_
    | with_reducible apply issue_ok

theorem execKFround_ok {qq : List Instr} (n : Fin 96) (s : State) (hs : Ok qq s) : OkOut qq (execKFround n s) := by
  unfold execKFround
  repeat' first
    | with_reducible assumption
    | with_reducible refine OkOut.next ?_
    | with_reducible apply issue_ok

theorem execKFcvtFx_ok {qq : List Instr} (n : Fin 96) (s : State) (hs : Ok qq s) : OkOut qq (execKFcvtFx n s) := by
  unfold execKFcvtFx
  repeat' first
    | with_reducible assumption
    | with_reducible refine OkOut.next ?_
    | with_reducible apply issue_ok

theorem execKFcvtXf_ok {qq : List Instr} (n : Fin 96) (s : State) (hs : Ok qq s) : OkOut qq (execKFcvtXf n s) := by
  unfold execKFcvtXf
  repeat' first
    | with_reducible assumption
    | with_reducible refine OkOut.next ?_
    | with_reducible apply issue_ok

theorem execKFcvtFxu_ok {qq : List Instr} (n : Fin 96) (s : State) (hs : Ok qq s) : OkOut qq (execKFcvtFxu n s) := by
  unfold execKFcvtFxu
  repeat' first
    | with_reducible assumption
    | with_reducible refine OkOut.next ?_
    | with_reducible apply issue_ok

theorem execKLdl_ok {qq : List Instr} (n : Fin 96) (s : State) (hs : Ok qq s) : OkOut qq (execKLdl n s) := by
  unfold execKLdl
  repeat' first
    | with_reducible assumption
    | with_reducible refine OkOut.next ?_
    | with_reducible apply issue_ok

theorem execKStl_ok {qq : List Instr} (n : Fin 96) (s : State) (hs : Ok qq s) : OkOut qq (execKStl n s) := by
  unfold execKStl
  repeat' first
    | with_reducible assumption
    | with_reducible refine OkOut.next ?_
    | with_reducible apply issue_ok

theorem execKLdml_ok {qq : List Instr} (n : Fin 96) (s : State) (hs : Ok qq s) : OkOut qq (execKLdml n s) := by
  unfold execKLdml
  repeat' first
    | with_reducible assumption
    | with_reducible refine OkOut.next ?_
    | with_reducible apply issue_ok

theorem execKStml_ok {qq : List Instr} (n : Fin 96) (s : State) (hs : Ok qq s) : OkOut qq (execKStml n s) := by
  unfold execKStml
  repeat' first
    | with_reducible assumption
    | with_reducible refine OkOut.next ?_
    | with_reducible apply issue_ok

theorem execKLd_ok {qq : List Instr} (n : Fin 96) (s : State) (hs : Ok qq s) : OkOut qq (execKLd n s) := by
  unfold execKLd
  repeat' first
    | with_reducible assumption
    | with_reducible refine OkOut.next ?_
    | with_reducible apply issue_ok

theorem execKSt_ok {qq : List Instr} (n : Fin 96) (s : State) (hs : Ok qq s) : OkOut qq (execKSt n s) := by
  unfold execKSt
  repeat' first
    | with_reducible assumption
    | with_reducible refine OkOut.next ?_
    | with_reducible apply issue_ok

theorem execKLdm_ok {qq : List Instr} (n : Fin 96) (s : State) (hs : Ok qq s) : OkOut qq (execKLdm n s) := by
  unfold execKLdm
  repeat' first
    | with_reducible assumption
    | with_reducible refine OkOut.next ?_
    | with_reducible apply issue_ok

theorem execKStm_ok {qq : List Instr} (n : Fin 96) (s : State) (hs : Ok qq s) : OkOut qq (execKStm n s) := by
  unfold execKStm
  repeat' first
    | with_reducible assumption
    | with_reducible refine OkOut.next ?_
    | with_reducible apply issue_ok

theorem execKAtomAdd_ok {qq : List Instr} (n : Fin 96) (s : State) (hs : Ok qq s) : OkOut qq (execKAtomAdd n s) := by
  unfold execKAtomAdd
  repeat' first
    | with_reducible assumption
    | with_reducible refine OkOut.next ?_
    | with_reducible apply issue_ok

theorem execKAtomSwap_ok {qq : List Instr} (n : Fin 96) (s : State) (hs : Ok qq s) : OkOut qq (execKAtomSwap n s) := by
  unfold execKAtomSwap
  repeat' first
    | with_reducible assumption
    | with_reducible refine OkOut.next ?_
    | with_reducible apply issue_ok

theorem execKMcpy_ok {qq : List Instr} (n : Fin 96) (s : State) (hs : Ok qq s) : OkOut qq (execKMcpy n s) := by
  unfold execKMcpy
  repeat' first
    | with_reducible assumption
    | with_reducible refine OkOut.next ?_
    | with_reducible apply issue_ok

theorem execKBr_ok {qq : List Instr} (n : Fin 96) (s : State) (hs : Ok qq s) : OkOut qq (execKBr n s) := by
  unfold execKBr
  repeat' first
    | with_reducible assumption
    | with_reducible refine OkOut.next ?_
    | with_reducible apply issue_ok

theorem execKBeq_ok {qq : List Instr} (n : Fin 96) (s : State) (hs : Ok qq s) : OkOut qq (execKBeq n s) := by
  unfold execKBeq
  repeat' first
    | with_reducible assumption
    | with_reducible refine OkOut.next ?_
    | with_reducible apply issue_ok

theorem execKBne_ok {qq : List Instr} (n : Fin 96) (s : State) (hs : Ok qq s) : OkOut qq (execKBne n s) := by
  unfold execKBne
  repeat' first
    | with_reducible assumption
    | with_reducible refine OkOut.next ?_
    | with_reducible apply issue_ok

theorem execKBlt_ok {qq : List Instr} (n : Fin 96) (s : State) (hs : Ok qq s) : OkOut qq (execKBlt n s) := by
  unfold execKBlt
  repeat' first
    | with_reducible assumption
    | with_reducible refine OkOut.next ?_
    | with_reducible apply issue_ok

theorem execKBge_ok {qq : List Instr} (n : Fin 96) (s : State) (hs : Ok qq s) : OkOut qq (execKBge n s) := by
  unfold execKBge
  repeat' first
    | with_reducible assumption
    | with_reducible refine OkOut.next ?_
    | with_reducible apply issue_ok

theorem execKBltu_ok {qq : List Instr} (n : Fin 96) (s : State) (hs : Ok qq s) : OkOut qq (execKBltu n s) := by
  unfold execKBltu
  repeat' first
    | with_reducible assumption
    | with_reducible refine OkOut.next ?_
    | with_reducible apply issue_ok

theorem execKBgeu_ok {qq : List Instr} (n : Fin 96) (s : State) (hs : Ok qq s) : OkOut qq (execKBgeu n s) := by
  unfold execKBgeu
  repeat' first
    | with_reducible assumption
    | with_reducible refine OkOut.next ?_
    | with_reducible apply issue_ok

theorem execKBz_ok {qq : List Instr} (n : Fin 96) (s : State) (hs : Ok qq s) : OkOut qq (execKBz n s) := by
  unfold execKBz
  repeat' first
    | with_reducible assumption
    | with_reducible refine OkOut.next ?_
    | with_reducible apply issue_ok

theorem execKBnz_ok {qq : List Instr} (n : Fin 96) (s : State) (hs : Ok qq s) : OkOut qq (execKBnz n s) := by
  unfold execKBnz
  repeat' first
    | with_reducible assumption
    | with_reducible refine OkOut.next ?_
    | with_reducible apply issue_ok

theorem execKCall_ok {qq : List Instr} (n : Fin 96) (s : State) (hs : Ok qq s) : OkOut qq (execKCall n s) := by
  unfold execKCall
  repeat' first
    | with_reducible assumption
    | with_reducible refine OkOut.next ?_
    | with_reducible apply issue_ok

theorem execKJr_ok {qq : List Instr} (n : Fin 96) (s : State) (hs : Ok qq s) : OkOut qq (execKJr n s) := by
  unfold execKJr
  repeat' first
    | with_reducible assumption
    | with_reducible refine OkOut.next ?_
    | with_reducible apply issue_ok

theorem execKWaitToken_ok {qq : List Instr} (n : Fin 96) (s : State) (hs : Ok qq s) : OkOut qq (execKWaitToken n s) := by
  unfold execKWaitToken
  repeat' first
    | with_reducible assumption
    | with_reducible refine OkOut.next ?_
    | with_reducible apply issue_ok

theorem execKWaitRoom_ok {qq : List Instr} (n : Fin 96) (s : State) (hs : Ok qq s) : OkOut qq (execKWaitRoom n s) := by
  unfold execKWaitRoom
  repeat' first
    | with_reducible assumption
    | with_reducible refine OkOut.next ?_
    | with_reducible apply issue_ok

theorem execKWaitWake_ok {qq : List Instr} (n : Fin 96) (s : State) (hs : Ok qq s) : OkOut qq (execKWaitWake n s) := by
  unfold execKWaitWake
  repeat' first
    | with_reducible assumption
    | with_reducible refine OkOut.next ?_
    | with_reducible apply issue_ok

theorem execKWaitCompletion_ok {qq : List Instr} (n : Fin 96) (s : State) (hs : Ok qq s) : OkOut qq (execKWaitCompletion n s) := by
  unfold execKWaitCompletion
  repeat' first
    | with_reducible assumption
    | with_reducible refine OkOut.next ?_
    | with_reducible apply issue_ok

theorem execKWaitTimer_ok {qq : List Instr} (n : Fin 96) (s : State) (hs : Ok qq s) : OkOut qq (execKWaitTimer n s) := by
  unfold execKWaitTimer
  repeat' first
    | with_reducible assumption
    | with_reducible refine OkOut.next ?_
    | with_reducible apply issue_ok

theorem execKWaitXfer_ok {qq : List Instr} (n : Fin 96) (s : State) (hs : Ok qq s) : OkOut qq (execKWaitXfer n s) := by
  unfold execKWaitXfer
  repeat' first
    | with_reducible assumption
    | with_reducible refine OkOut.next ?_
    | with_reducible apply issue_ok

theorem execKRecv_ok {qq : List Instr} (n : Fin 96) (s : State) (hs : Ok qq s) : OkOut qq (execKRecv n s) := by
  unfold execKRecv
  repeat' first
    | with_reducible assumption
    | with_reducible refine OkOut.next ?_
    | with_reducible apply issue_ok

theorem execKSend_ok {qq : List Instr} (n : Fin 96) (s : State) (hs : Ok qq s) : OkOut qq (execKSend n s) := by
  unfold execKSend
  repeat' first
    | with_reducible assumption
    | with_reducible refine OkOut.next ?_
    | with_reducible apply issue_ok

theorem execKChav_ok {qq : List Instr} (n : Fin 96) (s : State) (hs : Ok qq s) : OkOut qq (execKChav n s) := by
  unfold execKChav
  repeat' first
    | with_reducible assumption
    | with_reducible refine OkOut.next ?_
    | with_reducible apply issue_ok

theorem execKSnap_ok {qq : List Instr} (n : Fin 96) (s : State) (hs : Ok qq s) : OkOut qq (execKSnap n s) := by
  unfold execKSnap
  repeat' first
    | with_reducible assumption
    | with_reducible refine OkOut.next ?_
    | with_reducible apply issue_ok

theorem execKTbw_ok {qq : List Instr} (n : Fin 96) (s : State) (hs : Ok qq s) : OkOut qq (execKTbw n s) := by
  unfold execKTbw
  repeat' first
    | with_reducible assumption
    | with_reducible refine OkOut.next ?_
    | with_reducible apply issue_ok

theorem execKEvset_ok {qq : List Instr} (n : Fin 96) (s : State) (hs : Ok qq s) : OkOut qq (execKEvset n s) := by
  unfold execKEvset
  repeat' first
    | with_reducible assumption
    | with_reducible refine OkOut.next ?_
    | with_reducible apply issue_ok

theorem execKEvcan_ok {qq : List Instr} (n : Fin 96) (s : State) (hs : Ok qq s) : OkOut qq (execKEvcan n s) := by
  unfold execKEvcan
  repeat' first
    | with_reducible assumption
    | with_reducible refine OkOut.next ?_
    | with_reducible apply issue_ok

theorem execKTkwake_ok {qq : List Instr} (n : Fin 96) (s : State) (hs : Ok qq s) : OkOut qq (execKTkwake n s) := by
  unfold execKTkwake
  repeat' first
    | with_reducible assumption
    | with_reducible refine OkOut.next ?_
    | with_reducible apply issue_ok

theorem execKEvqHead_ok {qq : List Instr} (n : Fin 96) (s : State) (hs : Ok qq s) : OkOut qq (execKEvqHead n s) := by
  unfold execKEvqHead
  repeat' first
    | with_reducible assumption
    | with_reducible refine OkOut.next ?_
    | with_reducible apply issue_ok

theorem execKEvqPop_ok {qq : List Instr} (n : Fin 96) (s : State) (hs : Ok qq s) : OkOut qq (execKEvqPop n s) := by
  unfold execKEvqPop
  repeat' first
    | with_reducible assumption
    | with_reducible refine OkOut.next ?_
    | with_reducible apply issue_ok

theorem execKDacw_ok {qq : List Instr} (n : Fin 96) (s : State) (hs : Ok qq s) : OkOut qq (execKDacw n s) := by
  unfold execKDacw
  repeat' first
    | with_reducible assumption
    | with_reducible refine OkOut.next ?_
    | with_reducible apply issue_ok

theorem execKXferStart_ok {qq : List Instr} (n : Fin 96) (s : State) (hs : Ok qq s) : OkOut qq (execKXferStart n s) := by
  unfold execKXferStart
  repeat' first
    | with_reducible assumption
    | with_reducible refine OkOut.next ?_
    | with_reducible apply issue_ok

theorem execKXferResume_ok {qq : List Instr} (n : Fin 96) (s : State) (hs : Ok qq s) : OkOut qq (execKXferResume n s) := by
  unfold execKXferResume
  repeat' first
    | with_reducible assumption
    | with_reducible refine OkOut.next ?_
    | with_reducible apply issue_ok

theorem execKXferAbort_ok {qq : List Instr} (n : Fin 96) (s : State) (hs : Ok qq s) : OkOut qq (execKXferAbort n s) := by
  unfold execKXferAbort
  repeat' first
    | with_reducible assumption
    | with_reducible refine OkOut.next ?_
    | with_reducible apply issue_ok

theorem execKXferStatus_ok {qq : List Instr} (n : Fin 96) (s : State) (hs : Ok qq s) : OkOut qq (execKXferStatus n s) := by
  unfold execKXferStatus
  repeat' first
    | with_reducible assumption
    | with_reducible refine OkOut.next ?_
    | with_reducible apply issue_ok

theorem execKRddt_ok {qq : List Instr} (n : Fin 96) (s : State) (hs : Ok qq s) : OkOut qq (execKRddt n s) := by
  unfold execKRddt
  repeat' first
    | with_reducible assumption
    | with_reducible refine OkOut.next ?_
    | with_reducible apply issue_ok

theorem execKCsrRead_ok {qq : List Instr} (n : Fin 96) (s : State) (hs : Ok qq s) : OkOut qq (execKCsrRead n s) := by
  unfold execKCsrRead
  repeat' first
    | with_reducible assumption
    | with_reducible refine OkOut.next ?_
    | with_reducible apply issue_ok

theorem execKCsrWrite_ok {qq : List Instr} (n : Fin 96) (s : State) (hs : Ok qq s) : OkOut qq (execKCsrWrite n s) := by
  unfold execKCsrWrite
  repeat' first
    | with_reducible assumption
    | with_reducible refine OkOut.next ?_
    | with_reducible apply issue_ok

theorem execKCsrSet_ok {qq : List Instr} (n : Fin 96) (s : State) (hs : Ok qq s) : OkOut qq (execKCsrSet n s) := by
  unfold execKCsrSet
  repeat' first
    | with_reducible assumption
    | with_reducible refine OkOut.next ?_
    | with_reducible apply issue_ok

theorem execKCsrClear_ok {qq : List Instr} (n : Fin 96) (s : State) (hs : Ok qq s) : OkOut qq (execKCsrClear n s) := by
  unfold execKCsrClear
  repeat' first
    | with_reducible assumption
    | with_reducible refine OkOut.next ?_
    | with_reducible apply issue_ok

theorem execKFence_ok {qq : List Instr} (n : Fin 96) (s : State) (hs : Ok qq s) : OkOut qq (execKFence n s) := by
  unfold execKFence
  repeat' first
    | with_reducible assumption
    | with_reducible refine OkOut.next ?_
    | with_reducible apply issue_ok

theorem execKYield_ok {qq : List Instr} (n : Fin 96) (s : State) (hs : Ok qq s) : OkOut qq (execKYield n s) := by
  unfold execKYield
  repeat' first
    | with_reducible assumption
    | with_reducible refine OkOut.next ?_
    | with_reducible apply issue_ok

theorem execKHalt_ok {qq : List Instr} (n : Fin 96) (s : State) (hs : Ok qq s) : OkOut qq (execKHalt n s) := by
  unfold execKHalt
  repeat' first
    | with_reducible assumption
    | with_reducible refine OkOut.next ?_
    | with_reducible apply issue_ok

theorem execKRfh_ok {qq : List Instr} (n : Fin 96) (s : State) (hs : Ok qq s) : OkOut qq (execKRfh n s) := by
  unfold execKRfh
  repeat' first
    | with_reducible assumption
    | with_reducible refine OkOut.next ?_
    | with_reducible apply issue_ok

theorem execKCtxstart_ok {qq : List Instr} (n : Fin 96) (s : State) (hs : Ok qq s) : OkOut qq (execKCtxstart n s) := by
  unfold execKCtxstart
  repeat' first
    | with_reducible assumption
    | with_reducible refine OkOut.next ?_
    | with_reducible apply issue_ok

theorem execKCtxstop_ok {qq : List Instr} (n : Fin 96) (s : State) (hs : Ok qq s) : OkOut qq (execKCtxstop n s) := by
  unfold execKCtxstop
  repeat' first
    | with_reducible assumption
    | with_reducible refine OkOut.next ?_
    | with_reducible apply issue_ok

theorem execKPinr_ok {qq : List Instr} (n : Fin 96) (s : State) (hs : Ok qq s) : OkOut qq (execKPinr n s) := by
  unfold execKPinr
  repeat' first
    | with_reducible assumption
    | with_reducible refine OkOut.next ?_
    | with_reducible apply issue_ok

end Sys2Proof.Machine
end

