-- ==== Sys2Proof/Laws/OkExec.lean ====
section
/-! SUPPORT. Every command keeps what every step keeps: one case for each row, closed by its meaning's own lemma. -/

namespace Sys2Proof.Laws

open Sys2Proof Sys2Proof.Machine

/-- Every command keeps the form of the state and leaves the queue, but for what it puts there. -/
theorem exec_ok (qq) (c : Instr) (s : State) (hs : Ok qq s) : OkOut qq (exec c s) := by
  cases c with
  | registerWrite => exact execRegisterWrite_ok _ _ _ _ _ hs
  | shadowLowRead => exact execShadowLowRead_ok _ _ _ hs
  | shadowLowWrite => exact execShadowLowWrite_ok _ _ _ _ hs
  | shadowHighWrite => exact execShadowHighWrite_ok _ _ _ _ hs
  | alarmAck => exact execAlarmAck_ok _ _ _ hs
  | viewInterval => exact execViewInterval_ok _ _ _ _ _ hs
  | handover => exact execHandover_ok _ _ _ hs
  | deviceActionHoldTimeout => exact execDeviceActionHoldTimeout_ok _ hs
  | stewardActionResume => exact execStewardActionResume_ok _ hs
  | loadWindow => exact execLoadWindow_ok _ _ _ hs
  | loadPeakClr => exact execLoadPeakClr_ok _ _ _ hs
  | quadEdge => exact execQuadEdge_ok _ _ _ _ _ _ hs
  | quadCountCommit => exact execQuadCountCommit_ok _ _ hs
  | indexEdge => exact execIndexEdge_ok _ _ _ hs
  | adcSample => exact execAdcSample_ok _ _ _ _ _ hs
  | serialFrameStart => exact execSerialFrameStart_ok _ _ _ hs
  | ssiFrameEnd => exact execSsiFrameEnd_ok _ _ _ _ _ hs
  | qcsFrameEnd => exact execQcsFrameEnd_ok _ _ _ _ _ _ _ _ hs
  | stepEdge => exact execStepEdge_ok _ _ _ _ _ hs
  | zeroCrossing => exact execZeroCrossing_ok _ _ _ _ hs
  | tbTimeoutExpiry => exact execTbTimeoutExpiry_ok _ _ hs
  | tbposMsg a b c d e f g h => exact execTbposMsg_ok a b c d e f g h s hs
  | tetherMsgTimeout => exact execTetherMsgTimeout_ok _ _ hs
  | timebaseUpdate => exact execTimebaseUpdate_ok _ hs
  | coastLimitExpiry => exact execCoastLimitExpiry_ok _ _ hs
  | tbEnable => exact execTbEnable_ok _ _ _ hs
  | tbDisable => exact execTbDisable_ok _ _ _ hs
  | presetGo => exact execPresetGo_ok _ _ _ hs
  | gearGo => exact execGearGo_ok _ _ _ hs
  | errcntClr => exact execErrcntClr_ok _ _ _ hs
  | tbCfgWrite => exact execTbCfgWrite_ok _ _ _ _ _ hs
  | tbAnaCalWrite => exact execTbAnaCalWrite_ok _ _ _ _ hs
  | tbSnapGo => exact execTbSnapGo_ok _ _ hs
  | tbSnapDone => exact execTbSnapDone_ok _ hs
  | fabricArm => exact execFabricArm_ok _ _ _ _ _ _ _ _ hs
  | fabricCancel => exact execFabricCancel_ok _ _ _ _ hs
  | fabricReplyTaken => exact execFabricReplyTaken_ok _ _ _ hs
  | schedPublication => exact execSchedPublication_ok _ hs
  | eventFire => exact execEventFire_ok _ _ _ hs
  | pulseEnd => exact execPulseEnd_ok _ _ _ hs
  | widthLimitExpiry => exact execWidthLimitExpiry_ok _ _ _ hs
  | eventExpiry => exact execEventExpiry_ok _ _ hs
  | captureEdge => exact execCaptureEdge_ok _ _ _ _ hs
  | captureWindowClose => exact execCaptureWindowClose_ok _ _ hs
  | eventTokenDrain => exact execEventTokenDrain_ok _ _ hs
  | calMeasureDone => exact execCalMeasureDone_ok _ _ hs
  | calRoleSwap => exact execCalRoleSwap_ok _ _ hs
  | calAgeExpiry => exact execCalAgeExpiry_ok _ _ hs
  | evtKillGo => exact execEvtKillGo_ok _ _ _ hs
  | evtCfgWrite => exact execEvtCfgWrite_ok _ _ _ _ hs
  | evtCntClr => exact execEvtCntClr_ok _ _ _ hs
  | evtSlotSel => exact execEvtSlotSel_ok _ _ _ hs
  | slotCopyDone => exact execSlotCopyDone_ok _ hs
  | evtLineCfgWrite => exact execEvtLineCfgWrite_ok _ _ _ _ hs
  | evtCapCfgWrite => exact execEvtCapCfgWrite_ok _ _ _ _ hs
  | handshakeWord => exact execHandshakeWord_ok _ _ _ hs
  | cellToken => exact execCellToken_ok _ _ _ _ _ _ hs
  | bundledTransfer => exact execBundledTransfer_ok _ _ _ _ _ _ hs
  | arbiterRequest => exact execArbiterRequest_ok _ _ _ hs
  | arbiterRelease => exact execArbiterRelease_ok _ _ _ hs
  | sectorUrst => exact execSectorUrst_ok _ _ _ _ hs
  | cellResetInput => exact execCellResetInput_ok _ _ _ hs
  | spineRead => exact execSpineRead_ok _ _ _ hs
  | spineWrite => exact execSpineWrite_ok _ _ _ _ hs
  | spineWriteAck => exact execSpineWriteAck_ok _ _ _ _ hs
  | spineAdd => exact execSpineAdd_ok _ _ _ _ hs
  | spineSwap => exact execSpineSwap_ok _ _ _ _ hs
  | spineMsg => exact execSpineMsg_ok _ _ _ _ hs
  | spineHeaderAdmit => exact execSpineHeaderAdmit_ok _ _ hs
  | transactionDelivery => exact execTransactionDelivery_ok _ _ _ _ hs
  | spineResponse => exact execSpineResponse_ok _ _ _ _ _ _ _ hs
  | sportTimeout => exact execSportTimeout_ok _ _ _ hs
  | sportCntClr => exact execSportCntClr_ok _ _ _ hs
  | sportPeakClr => exact execSportPeakClr_ok _ _ _ hs
  | spinePeakClr => exact execSpinePeakClr_ok _ _ hs
  | tokDestWrite => exact execTokDestWrite_ok _ _ _ _ hs
  | bankAccessRead => exact execBankAccessRead_ok _ _ _ _ hs
  | bankAccessWrite => exact execBankAccessWrite_ok _ _ _ _ _ _ hs
  | bankAccessAdd => exact execBankAccessAdd_ok _ _ _ _ _ hs
  | bankAccessSwap => exact execBankAccessSwap_ok _ _ _ _ _ hs
  | hostBar2Read => exact execHostBar2Read_ok _ _ _ _ hs
  | hostBar2Write => exact execHostBar2Write_ok _ _ _ _ _ _ hs
  | bankOwnWrite => exact execBankOwnWrite_ok _ _ _ _ hs
  | bankDrainDone => exact execBankDrainDone_ok _ _ hs
  | bankRetentionRequest => exact execBankRetentionRequest_ok _ _ _ hs
  | bankWakeRequest => exact execBankWakeRequest_ok _ _ _ hs
  | bankEntryDone => exact execBankEntryDone_ok _ _ hs
  | bankWakeDone => exact execBankWakeDone_ok _ _ hs
  | parityInject => exact execParityInject_ok _ _ _ hs
  | bankCntClr => exact execBankCntClr_ok _ _ _ hs
  | confClr => exact execConfClr_ok _ _ hs
  | qpush => exact execQpush_ok _ _ _ _ hs
  | qpopWait => exact execQpopWait_ok _ _ hs
  | qpopNow => exact execQpopNow_ok _ _ hs
  | quePush => exact execQuePush_ok _ _ _ _ _ hs
  | quePushEnd => exact execQuePushEnd_ok _ _ _ _ _ hs
  | quePop => exact execQuePop_ok _ _ _ hs
  | quePopTagged => exact execQuePopTagged_ok _ _ _ hs
  | queFlush => exact execQueFlush_ok _ _ _ hs
  | queEnable => exact execQueEnable_ok _ _ _ hs
  | queEnableDone => exact execQueEnableDone_ok _ _ hs
  | queDisable => exact execQueDisable_ok _ _ _ hs
  | queStopDone => exact execQueStopDone_ok _ _ hs
  | queWmWrite => exact execQueWmWrite_ok _ _ _ _ hs
  | queCfgWrite => exact execQueCfgWrite_ok _ _ _ _ hs
  | queCntClr => exact execQueCntClr_ok _ _ _ hs
  | oscDelayExpiry => exact execOscDelayExpiry_ok _ _ _ hs
  | rootSourceRetry => exact execRootSourceRetry_ok _ _ _ hs
  | rootLock => exact execRootLock_ok _ hs
  | refMissingEdge => exact execRefMissingEdge_ok _ _ hs
  | freqWindow => exact execFreqWindow_ok _ _ _ _ hs
  | pllUnlock => exact execPllUnlock_ok _ hs
  | holdoverToIntosc => exact execHoldoverToIntosc_ok _ hs
  | autoReturnStart => exact execAutoReturnStart_ok _ hs
  | clkSrcSwitch => exact execClkSrcSwitch_ok _ _ _ _ hs
  | rootSlewDone => exact execRootSlewDone_ok _ hs
  | clkGateOn => exact execClkGateOn_ok _ _ _ _ hs
  | clkGateAuto => exact execClkGateAuto_ok _ _ _ _ hs
  | clkGateOff => exact execClkGateOff_ok _ _ _ _ hs
  | clkGateIdleStop => exact execClkGateIdleStop_ok _ _ hs
  | clkGateWake => exact execClkGateWake_ok _ _ hs
  | clkGateStopDone => exact execClkGateStopDone_ok _ _ hs
  | crossingRelease => exact execCrossingRelease_ok _ _ _ hs
  | clkMinClr => exact execClkMinClr_ok _ _ hs
  | clkCntClr => exact execClkCntClr_ok _ _ hs
  | engineEnable => exact execEngineEnable_ok _ _ _ hs
  | engineDisable => exact execEngineDisable_ok _ _ _ hs
  | engineStopDone => exact execEngineStopDone_ok _ _ hs
  | engineCntClr => exact execEngineCntClr_ok _ _ _ hs
  | contextStart => exact execContextStart_ok _ _ _ _ hs
  | contextStop => exact execContextStop_ok _ _ _ _ hs
  | ctxPcWrite => exact execCtxPcWrite_ok _ _ _ _ _ hs
  | ctxCfgWrite => exact execCtxCfgWrite_ok _ _ _ _ _ hs
  | ctxEvqWrite => exact execCtxEvqWrite_ok _ _ _ _ _ _ hs
  | ctxGregAccess => exact execCtxGregAccess_ok _ _ _ _ _ _ hs
  | ochDestWrite => exact execOchDestWrite_ok _ _ _ _ _ hs
  | contextSwitch => exact execContextSwitch_ok _ _ hs
  | accessResponse => exact execAccessResponse_ok _ _ hs
  | faultDelivery => exact execFaultDelivery_ok _ _ hs
  | watchdogExpiry => exact execWatchdogExpiry_ok _ _ _ hs
  | contextTimerExpiry => exact execContextTimerExpiry_ok _ _ _ hs
  | longOpComplete => exact execLongOpComplete_ok _ _ hs
  | engineTokenIn => exact execEngineTokenIn_ok _ _ hs
  | engineMsgAdmit => exact execEngineMsgAdmit_ok _ _ hs
  | outputChannelDrain => exact execOutputChannelDrain_ok _ _ _ hs
  | evqBufferDrain => exact execEvqBufferDrain_ok _ _ hs
  | xferEnd => exact execXferEnd_ok _ _ _ _ hs
  | kNop => exact execKNop_ok _ _ hs
  | kAdd => exact execKAdd_ok _ _ hs
  | kSub => exact execKSub_ok _ _ hs
  | kAnd => exact execKAnd_ok _ _ hs
  | kOr => exact execKOr_ok _ _ hs
  | kXor => exact execKXor_ok _ _ hs
  | kShl => exact execKShl_ok _ _ hs
  | kShr => exact execKShr_ok _ _ hs
  | kSar => exact execKSar_ok _ _ hs
  | kRor => exact execKRor_ok _ _ hs
  | kSlt => exact execKSlt_ok _ _ hs
  | kSltu => exact execKSltu_ok _ _ hs
  | kSeq => exact execKSeq_ok _ _ hs
  | kMin => exact execKMin_ok _ _ hs
  | kMax => exact execKMax_ok _ _ hs
  | kMinu => exact execKMinu_ok _ _ hs
  | kMaxu => exact execKMaxu_ok _ _ hs
  | kMul => exact execKMul_ok _ _ hs
  | kMulh => exact execKMulh_ok _ _ hs
  | kMulhu => exact execKMulhu_ok _ _ hs
  | kDiv => exact execKDiv_ok _ _ hs
  | kDivu => exact execKDivu_ok _ _ hs
  | kRem => exact execKRem_ok _ _ hs
  | kRemu => exact execKRemu_ok _ _ hs
  | kClz => exact execKClz_ok _ _ hs
  | kPopc => exact execKPopc_ok _ _ hs
  | kAddv => exact execKAddv_ok _ _ hs
  | kSubv => exact execKSubv_ok _ _ hs
  | kCmovnz => exact execKCmovnz_ok _ _ hs
  | kCmovz => exact execKCmovz_ok _ _ hs
  | kAddi => exact execKAddi_ok _ _ hs
  | kAndi => exact execKAndi_ok _ _ hs
  | kOri => exact execKOri_ok _ _ hs
  | kXori => exact execKXori_ok _ _ hs
  | kSlti => exact execKSlti_ok _ _ hs
  | kSltiu => exact execKSltiu_ok _ _ hs
  | kShi => exact execKShi_ok _ _ hs
  | kLdi => exact execKLdi_ok _ _ hs
  | kInsh => exact execKInsh_ok _ _ hs
  | kQadd => exact execKQadd_ok _ _ hs
  | kQsub => exact execKQsub_ok _ _ hs
  | kQmul => exact execKQmul_ok _ _ hs
  | kQdiv => exact execKQdiv_ok _ _ hs
  | kQshl => exact execKQshl_ok _ _ hs
  | kQshr => exact execKQshr_ok _ _ hs
  | kQabs => exact execKQabs_ok _ _ hs
  | kQneg => exact execKQneg_ok _ _ hs
  | kQshli => exact execKQshli_ok _ _ hs
  | kQshri => exact execKQshri_ok _ _ hs
  | kFadd => exact execKFadd_ok _ _ hs
  | kFsub => exact execKFsub_ok _ _ hs
  | kFmul => exact execKFmul_ok _ _ hs
  | kFdiv => exact execKFdiv_ok _ _ hs
  | kFsqrt => exact execKFsqrt_ok _ _ hs
  | kFma => exact execKFma_ok _ _ hs
  | kFmin => exact execKFmin_ok _ _ hs
  | kFmax => exact execKFmax_ok _ _ hs
  | kFneg => exact execKFneg_ok _ _ hs
  | kFabs => exact execKFabs_ok _ _ hs
  | kFeq => exact execKFeq_ok _ _ hs
  | kFlt => exact execKFlt_ok _ _ hs
  | kFle => exact execKFle_ok _ _ hs
  | kFround => exact execKFround_ok _ _ hs
  | kFcvtFx => exact execKFcvtFx_ok _ _ hs
  | kFcvtXf => exact execKFcvtXf_ok _ _ hs
  | kFcvtFxu => exact execKFcvtFxu_ok _ _ hs
  | kLdl => exact execKLdl_ok _ _ hs
  | kStl => exact execKStl_ok _ _ hs
  | kLdml => exact execKLdml_ok _ _ hs
  | kStml => exact execKStml_ok _ _ hs
  | kLd => exact execKLd_ok _ _ hs
  | kSt => exact execKSt_ok _ _ hs
  | kLdm => exact execKLdm_ok _ _ hs
  | kStm => exact execKStm_ok _ _ hs
  | kAtomAdd => exact execKAtomAdd_ok _ _ hs
  | kAtomSwap => exact execKAtomSwap_ok _ _ hs
  | kMcpy => exact execKMcpy_ok _ _ hs
  | kBr => exact execKBr_ok _ _ hs
  | kBeq => exact execKBeq_ok _ _ hs
  | kBne => exact execKBne_ok _ _ hs
  | kBlt => exact execKBlt_ok _ _ hs
  | kBge => exact execKBge_ok _ _ hs
  | kBltu => exact execKBltu_ok _ _ hs
  | kBgeu => exact execKBgeu_ok _ _ hs
  | kBz => exact execKBz_ok _ _ hs
  | kBnz => exact execKBnz_ok _ _ hs
  | kCall => exact execKCall_ok _ _ hs
  | kJr => exact execKJr_ok _ _ hs
  | kWaitToken => exact execKWaitToken_ok _ _ hs
  | kWaitRoom => exact execKWaitRoom_ok _ _ hs
  | kWaitWake => exact execKWaitWake_ok _ _ hs
  | kWaitCompletion => exact execKWaitCompletion_ok _ _ hs
  | kWaitTimer => exact execKWaitTimer_ok _ _ hs
  | kWaitXfer => exact execKWaitXfer_ok _ _ hs
  | kRecv => exact execKRecv_ok _ _ hs
  | kSend => exact execKSend_ok _ _ hs
  | kChav => exact execKChav_ok _ _ hs
  | kSnap => exact execKSnap_ok _ _ hs
  | kTbw => exact execKTbw_ok _ _ hs
  | kEvset => exact execKEvset_ok _ _ hs
  | kEvcan => exact execKEvcan_ok _ _ hs
  | kTkwake => exact execKTkwake_ok _ _ hs
  | kEvqHead => exact execKEvqHead_ok _ _ hs
  | kEvqPop => exact execKEvqPop_ok _ _ hs
  | kDacw => exact execKDacw_ok _ _ hs
  | kXferStart => exact execKXferStart_ok _ _ hs
  | kXferResume => exact execKXferResume_ok _ _ hs
  | kXferAbort => exact execKXferAbort_ok _ _ hs
  | kXferStatus => exact execKXferStatus_ok _ _ hs
  | kRddt => exact execKRddt_ok _ _ hs
  | kCsrRead => exact execKCsrRead_ok _ _ hs
  | kCsrWrite => exact execKCsrWrite_ok _ _ hs
  | kCsrSet => exact execKCsrSet_ok _ _ hs
  | kCsrClear => exact execKCsrClear_ok _ _ hs
  | kFence => exact execKFence_ok _ _ hs
  | kYield => exact execKYield_ok _ _ hs
  | kHalt => exact execKHalt_ok _ _ hs
  | kRfh => exact execKRfh_ok _ _ hs
  | kCtxstart => exact execKCtxstart_ok _ _ hs
  | kCtxstop => exact execKCtxstop_ok _ _ hs
  | kPinr => exact execKPinr_ok _ _ hs
  | linkRetrain => exact execLinkRetrain_ok _ hs
  | linkDown => exact execLinkDown_ok _ hs
  | linkUp => exact execLinkUp_ok _ _ _ hs
  | functionLevelReset => exact execFunctionLevelReset_ok _ hs
  | phpRead => exact execPhpRead_ok _ _ _ hs
  | phpWrite => exact execPhpWrite_ok _ _ _ _ _ _ hs
  | phpTimeout => exact execPhpTimeout_ok _ _ hs
  | phpPageWrite => exact execPhpPageWrite_ok _ _ _ hs
  | phpStatClr => exact execPhpStatClr_ok _ hs
  | doorbell => exact execDoorbell_ok _ _ _ _ _ _ hs
  | descriptorFetch => exact execDescriptorFetch_ok _ _ _ hs
  | descNop => exact execDescNop_ok _ _ hs
  | descCopy => exact execDescCopy_ok _ _ _ hs
  | descMsg => exact execDescMsg_ok _ _ hs
  | armShort => exact execArmShort_ok _ _ hs
  | armInline => exact execArmInline_ok _ _ hs
  | armImg => exact execArmImg_ok _ _ _ hs
  | descCancel => exact execDescCancel_ok _ _ hs
  | tbWrite => exact execTbWrite_ok _ _ _ hs
  | descLoad => exact execDescLoad_ok _ _ _ hs
  | descSheet => exact execDescSheet_ok _ _ hs
  | hostReadCompletion => exact execHostReadCompletion_ok _ _ _ _ hs
  | ringResume => exact execRingResume_ok _ _ _ hs
  | ringAbort => exact execRingAbort_ok _ _ _ hs
  | ringEnable => exact execRingEnable_ok _ _ _ hs
  | ringDisable => exact execRingDisable_ok _ _ _ hs
  | ringStopDone => exact execRingStopDone_ok _ _ hs
  | ringCntClr => exact execRingCntClr_ok _ _ _ hs
  | ringCfgWrite => exact execRingCfgWrite_ok _ _ _ _ _ hs
  | ringOwnWrite => exact execRingOwnWrite_ok _ _ _ _ hs
  | vectorModTimer => exact execVectorModTimer_ok _ _ hs
  | sheetCapture => exact execSheetCapture_ok _ hs
  | sheetCfgWrite => exact execSheetCfgWrite_ok _ _ _ hs
  | linkPrivWrite => exact execLinkPrivWrite_ok _ _ _ _ hs
  | spaceWrite => exact execSpaceWrite_ok _ _ _ _ hs
  | invAddress => exact execInvAddress_ok _ _ _ hs
  | invSpace => exact execInvSpace_ok _ _ _ hs
  | invAll => exact execInvAll_ok _ _ _ hs
  | invalidateDone => exact execInvalidateDone_ok _ hs
  | tableReadDone => exact execTableReadDone_ok _ _ _ _ _ hs
  | svnWrite => exact execSvnWrite_ok _ _ _ hs
  | keyCommit => exact execKeyCommit_ok _ _ _ hs
  | bootLockWrite => exact execBootLockWrite_ok _ _ _ hs
  | debugDisable => exact execDebugDisable_ok _ _ hs
  | lifeStoreDone => exact execLifeStoreDone_ok _ hs
  | wtuCntClr => exact execWtuCntClr_ok _ _ hs
  | streamLeader => exact execStreamLeader_ok _ hs
  | recordNop => exact execRecordNop_ok _ hs
  | framesRecord => exact execFramesRecord_ok _ hs
  | bankRecord => exact execBankRecord_ok _ hs
  | ememRecord => exact execEmemRecord_ok _ hs
  | regRecord => exact execRegRecord_ok _ hs
  | sectionRecord => exact execSectionRecord_ok _ hs
  | endRecord => exact execEndRecord_ok _ hs
  | segmentTag => exact execSegmentTag_ok _ hs
  | streamTrailer => exact execStreamTrailer_ok _ hs
  | streamSourceEnd => exact execStreamSourceEnd_ok _ _ hs
  | streamStallTimeout => exact execStreamStallTimeout_ok _ hs
  | gateHigh => exact execGateHigh_ok _ hs
  | gateTimeout => exact execGateTimeout_ok _ hs
  | startupOuts => exact execStartupOuts_ok _ hs
  | startupWrites => exact execStartupWrites_ok _ hs
  | startupResets => exact execStartupResets_ok _ hs
  | resetWaveColumn => exact execResetWaveColumn_ok _ hs
  | loadAbort => exact execLoadAbort_ok _ _ hs
  | loadDiscard => exact execLoadDiscard_ok _ _ hs
  | configCheck => exact execConfigCheck_ok _ _ hs
  | configCheckDone => exact execConfigCheckDone_ok _ hs
  | readback => exact execReadback_ok _ _ _ hs
  | nandOpDone => exact execNandOpDone_ok _ _ _ hs
  | patrolRead => exact execPatrolRead_ok _ _ _ _ hs
  | patrolGo => exact execPatrolGo_ok _ _ hs
  | patrolPlaceSave => exact execPatrolPlaceSave_ok _ hs
  | arcRead => exact execArcRead_ok _ _ _ hs
  | arcWrite => exact execArcWrite_ok _ _ _ hs
  | arcTrim => exact execArcTrim_ok _ _ hs
  | recRead => exact execRecRead_ok _ _ _ hs
  | recWrite => exact execRecWrite_ok _ _ _ hs
  | recDelete => exact execRecDelete_ok _ _ hs
  | imgOpen => exact execImgOpen_ok _ _ hs
  | imgWrite => exact execImgWrite_ok _ _ _ hs
  | imgCommit => exact execImgCommit_ok _ _ hs
  | imgRead => exact execImgRead_ok _ _ _ hs
  | slotSelect => exact execSlotSelect_ok _ _ hs
  | loadSlot => exact execLoadSlot_ok _ _ hs
  | arcFormat => exact execArcFormat_ok _ _ hs
  | archiveEnable => exact execArchiveEnable_ok _ _ hs
  | archiveDisable => exact execArchiveDisable_ok _ _ hs
  | archiveStopDone => exact execArchiveStopDone_ok _ hs
  | arcIfWrite => exact execArcIfWrite_ok _ _ _ hs
  | arcCfgWrite => exact execArcCfgWrite_ok _ _ _ hs
  | arcCntClr => exact execArcCntClr_ok _ _ hs
  | powerValid => exact execPowerValid_ok _ _ _ hs
  | xresetRise => exact execXresetRise_ok _ _ hs
  | xresetAssert => exact execXresetAssert_ok _ hs
  | startWarm => exact execStartWarm_ok _ _ hs
  | startReload => exact execStartReload_ok _ _ hs
  | startCold => exact execStartCold_ok _ _ hs
  | bootConfirm => exact execBootConfirm_ok _ _ hs
  | confirmTimeoutExpiry => exact execConfirmTimeoutExpiry_ok _ hs
  | startDoneTimeout => exact execStartDoneTimeout_ok _ hs
  | startRetry => exact execStartRetry_ok _ hs
  | confirmTmoWrite => exact execConfirmTmoWrite_ok _ _ _ hs
  | operatingHour => exact execOperatingHour_ok _ hs
  | bistSector => exact execBistSector_ok _ _ _ hs
  | bistEngine => exact execBistEngine_ok _ _ _ hs
  | bistAnalog => exact execBistAnalog_ok _ _ _ hs
  | bistDevice => exact execBistDevice_ok _ _ hs
  | bistUnitDone => exact execBistUnitDone_ok _ _ _ _ hs
  | densitometerSweep => exact execDensitometerSweep_ok _ _ _ _ hs
  | healthCfgWrite => exact execHealthCfgWrite_ok _ _ _ hs
  | enginePathMonitor => exact execEnginePathMonitor_ok _ _ _ hs
  | fixGo => exact execFixGo_ok _ _ hs
  | substitutionDone => exact execSubstitutionDone_ok _ _ hs
  | supplyLowDetect => exact execSupplyLowDetect_ok _ _ hs
  | brownOut => exact execBrownOut_ok _ hs
  | tempUpdate => exact execTempUpdate_ok _ _ _ hs
  | backlogInterval => exact execBacklogInterval_ok _ _ _ hs
  | phaseMonitor => exact execPhaseMonitor_ok _ _ _ hs
  | vfabWrite => exact execVfabWrite_ok _ _ _ _ hs
  | reqRun => exact execReqRun_ok _ _ hs
  | reqIdle => exact execReqIdle_ok _ _ hs
  | reqSafelight => exact execReqSafelight_ok _ _ hs
  | reqDark => exact execReqDark_ok _ _ hs
  | powerEntryDone => exact execPowerEntryDone_ok _ hs
  | wakeNEdge => exact execWakeNEdge_ok _ hs
  | wakePortEdge => exact execWakePortEdge_ok _ _ _ hs
  | wakeTbRange => exact execWakeTbRange_ok _ _ hs
  | wakeDt => exact execWakeDt_ok _ hs
  | hostRequestWake => exact execHostRequestWake_ok _ hs
  | activityWake => exact execActivityWake_ok _ hs
  | powerWakeDone => exact execPowerWakeDone_ok _ hs
  | vbankWrite => exact execVbankWrite_ok _ _ _ _ hs
  | vbankSave => exact execVbankSave_ok _ _ _ hs
  | supplyCfgWrite => exact execSupplyCfgWrite_ok _ _ _ hs
  | tempPeakClr => exact execTempPeakClr_ok _ _ hs
  | pinCfgWrite => exact execPinCfgWrite_ok _ _ _ _ hs
  | pinMuxWrite => exact execPinMuxWrite_ok _ _ _ _ hs
  | pinSwitchEdge => exact execPinSwitchEdge_ok _ _ hs
  | pinOvlWrite => exact execPinOvlWrite_ok _ _ _ _ hs
  | pinOwnWrite => exact execPinOwnWrite_ok _ _ _ _ hs
  | pinOutWrite => exact execPinOutWrite_ok _ _ _ _ hs
  | pinPwmWrite => exact execPinPwmWrite_ok _ _ _ _ hs
  | pinInputChange => exact execPinInputChange_ok _ _ _ _ hs
  | debounceExpiry => exact execDebounceExpiry_ok _ _ _ hs
  | lineFaultDetect => exact execLineFaultDetect_ok _ _ _ hs
  | sliceDriveCheck => exact execSliceDriveCheck_ok _ _ _ _ hs
  | dacCodeWrite => exact execDacCodeWrite_ok _ _ _ _ hs
  | dacCfgWrite => exact execDacCfgWrite_ok _ _ _ _ hs
  | ainCfgWrite => exact execAinCfgWrite_ok _ _ _ _ hs
  | pinSave => exact execPinSave_ok _ _ hs
  | laneCntClr => exact execLaneCntClr_ok _ _ hs
  | laneEnable => exact execLaneEnable_ok _ _ _ _ hs
  | laneDisable => exact execLaneDisable_ok _ _ _ _ hs
  | laneStopDone => exact execLaneStopDone_ok _ _ hs
  | laneLinkLoss => exact execLaneLinkLoss_ok _ _ _ hs
  | identMsg a b c d e => exact execIdentMsg_ok a b c d e s hs
  | timeMsg => exact execTimeMsg_ok _ _ _ _ _ _ _ hs
  | timeSendTimer => exact execTimeSendTimer_ok _ _ hs
  | streamMsg => exact execStreamMsg_ok _ _ _ _ hs
  | ackMsg => exact execAckMsg_ok _ _ _ _ _ hs
  | eosMsg a b => exact execEosMsg_ok a b s hs
  | streamAckTimeout => exact execStreamAckTimeout_ok _ hs
  | laneWordRx => exact execLaneWordRx_ok _ _ _ _ hs
  | laneWordTx => exact execLaneWordTx_ok _ _ hs
  | jtagReset => exact execJtagReset_ok _ hs
  | jtagExtest => exact execJtagExtest_ok _ _ _ hs
  | jtagSamplePreload => exact execJtagSamplePreload_ok _ _ _ hs
  | jtagIdcode => exact execJtagIdcode_ok _ hs
  | jtagBypass => exact execJtagBypass_ok _ _ hs
  | cfgLoad => exact execCfgLoad_ok _ _ hs
  | cfgRead => exact execCfgRead_ok _ _ hs
  | setupRwRead => exact execSetupRwRead_ok _ _ _ _ hs
  | setupRwWrite => exact execSetupRwWrite_ok _ _ _ _ _ hs
  | laneLock => exact execLaneLock_ok _ _ hs
  | timeMissing => exact execTimeMissing_ok _ _ hs
  | identSendTimer => exact execIdentSendTimer_ok _ _ hs
  | ackSendTimer => exact execAckSendTimer_ok _ hs
  | activeClockEdge => exact execActiveClockEdge_ok _ _ _ _ _ _ hs
  | pwmPeriod => exact execPwmPeriod_ok _ _ hs
  | railSlewDone => exact execRailSlewDone_ok _ _ hs

end Sys2Proof.Laws
end

