-- ==== Sys2Proof/Laws/Steps.lean ====
section
/-! SUPPORT. What the larger shared operations leave alone, and how the rows of descriptors, bundles, tests and lanes begin: small
lemmas that the statements about single commands cite. -/

namespace Sys2Proof.Laws

open Sys2Proof Sys2Proof.Machine

/-- What the reads of local memory answer where no word is damaged. -/
theorem dmemReads_clear (n : Nat) : ∀ (k a : Nat) (s : State), (∀ i, i < k → Tab.get 0 s.ecc (dmemBase n + (a + 8 * i)) = 0) →
    dmemReads n a k s = (s, (upFrom 0 k).map (fun i => s.memWord (dmemBase n + (a + 8 * i))), false) := by
  have up : ∀ (k a : Nat), upFrom (a + 1) k = (upFrom a k).map (· + 1) := by
    intro k; induction k with
    | zero => intro a; rfl
    | succ k ih => intro a; simp only [upFrom, List.map]; rw [ih]
  intro k; induction k with
  | zero => intro a s h; rfl
  | succ k ih =>
    intro a s h
    have h0 := h 0 (by omega)
    simp only [Nat.mul_zero, Nat.add_zero] at h0
    have h1 := ih (a + 8) s (by intro i hi; have := h (i + 1) (by omega); rw [← this]; congr 1; omega)
    simp only [dmemReads, engRead, h0, h1, upFrom, List.map, up, List.map_map, Nat.mul_zero, Nat.add_zero]
    simp only [Bool.or_self, Prod.mk.injEq, List.cons.injEq, true_and, and_true]
    apply List.map_congr_left
    intro i _
    simp only [Function.comp]
    congr 1; omega

/-- A fold that appends is a flatMap. -/
theorem foldl_append_flatMap {α β : Type} (f : α → List β) : ∀ (l : List α) (acc : List β),
    l.foldl (fun ws i => ws ++ f i) acc = acc ++ l.flatMap f := by
  intro l; induction l with
  | nil => intro acc; simp
  | cons a l ih => intro acc; simp [ih, List.append_assoc]

/-- An engine without its pending registers keeps its other parts. -/
theorem drop_keeps {s : State} (h : Tab.wf {} s.ctxs = true) (n c : Nat) :
    ((dropCopies n c s).ctx n c).flags = (s.ctx n c).flags ∧ ((dropCopies n c s).ctx n c).tcause = (s.ctx n c).tcause ∧
      ((dropCopies n c s).ctx n c).g = (s.ctx n c).g ∧ Tab.wf {} (dropCopies n c s).ctxs = true := by
  refine ⟨?_, ?_, ?_, State.wf_setCtx h n c _⟩ <;> (unfold dropCopies; rw [State.ctx_setCtx_self h])

/-- Raising a vector leaves the contexts. -/
theorem raiseVector_ctxs (s : State) (v : Nat) : (s.raiseVector v).ctxs = s.ctxs := by
  unfold State.raiseVector
  dsimp only
  split
  · rfl
  · split <;> rfl

/-- A record put leaves the contexts. -/
theorem putRecord_ctxs (s : State) (n : Nat) (ws : List W64) : (s.putRecord n ws).ctxs = s.ctxs := by
  unfold State.putRecord
  dsimp only
  repeat (first | rfl | (rw [raiseVector_ctxs]) | split)

/-- A log record leaves the contexts. -/
theorem log_ctxs (s : State) (b : Bool) (x y : Nat) : (s.log b x y).ctxs = s.ctxs := by
  unfold State.log
  dsimp only
  split
  · split
    · exact putRecord_ctxs s _ _
    · split
      · rw [raiseVector_ctxs]; rfl
      · rfl
  · rfl

/-- A notice leaves the contexts. -/
theorem noticeIf_ctxs (s : State) (b : Bool) (x y : Nat) : (s.noticeIf b x y).ctxs = s.ctxs := by
  unfold State.noticeIf State.notice
  dsimp only
  split
  · split
    · rw [raiseVector_ctxs, log_ctxs]
    · exact log_ctxs s _ _ _
  · rfl

/-- A flag leaves every context. -/
theorem ctx_setFlag (s : State) (f : Fld) (b : Bool) (i j n c : Nat) : (s.setFlag f b i j).ctx n c = s.ctx n c := rfl

/-- A pc set leaves the hidden part of every context. -/
theorem ctx_setPc (s : State) (n c a n' c' : Nat) : (s.setPc n c a).ctx n' c' = s.ctx n' c' := rfl

/-- What a fault that stops a context keeps. -/
theorem faultStop_keeps {s : State} (h : Tab.wf {} s.ctxs = true) (n c : Nat) :
    ((faultStop n c s).ctx n c).flags = (s.ctx n c).flags ∧ ((faultStop n c s).ctx n c).tcause = (s.ctx n c).tcause ∧
      ((faultStop n c s).ctx n c).g = (s.ctx n c).g := by
  obtain ⟨h1, h2, h3, h4⟩ := drop_keeps h n c
  have hx : (faultStop n c s).ctx n c = { (dropCopies n c s).ctx n c with long := false } := by
    unfold faultStop State.ctx
    rw [noticeIf_ctxs]
    exact State.ctx_setCtx_self h4 n c _
  rw [hx]
  exact ⟨h1, h2, h3⟩

/-- What the delivery of a fault keeps. -/
theorem deliverFault_keeps {s : State} (h : Tab.wf {} s.ctxs = true) (n c : Nat) :
    ((deliverFault n c s).ctx n c).flags = (s.ctx n c).flags ∧ ((deliverFault n c s).ctx n c).tcause = (s.ctx n c).tcause ∧
      ((deliverFault n c s).ctx n c).g = (s.ctx n c).g := by
  unfold deliverFault
  split
  · exact faultStop_keeps h n c
  · obtain ⟨h1, h2, h3, h4⟩ := drop_keeps (State.wf_setCtx h n c { s.ctx n c with epc := s.pc n c }) n c
    rw [State.ctx_setCtx_self h] at h1 h2 h3
    dsimp only
    refine ⟨?_, ?_, ?_⟩ <;> rw [ctx_setPc, ctx_setFlag, ctx_setFlag] <;> assumption

/-- A fault record leaves the contexts. -/
theorem ctxs_faultRecord (n c code pc : Nat) (a b : Bool) (k : Nat) (s : State) : (faultRecord n c code pc a b k s).ctxs = s.ctxs := by
  unfold faultRecord
  generalize BitVec.ofNat 64 _ = v
  generalize BitVec.ofNat 64 _ = w
  rw [State.setReg_ctxs, State.setReg_ctxs]

/-- A flag leaves the contexts. -/
theorem ctxs_setFlag (s : State) (f : Fld) (b : Bool) (i j : Nat) : (s.setFlag f b i j).ctxs = s.ctxs := rfl

/-- What a precise fault keeps. -/
theorem preciseFault_keeps {s : State} (h : Tab.wf {} s.ctxs = true) (n c code : Nat) (sec : Bool) (a : Nat) :
    ((preciseFault n c code sec a s).ctx n c).flags = (s.ctx n c).flags ∧
      ((preciseFault n c code sec a s).ctx n c).tcause = (s.ctx n c).tcause ∧
      ((preciseFault n c code sec a s).ctx n c).g = (s.ctx n c).g := by
  unfold preciseFault
  split
  · have k := faultStop_keeps (s := s.setFlag Fld.engCtxFaultMulti true n c) (by rw [ctxs_setFlag]; exact h) n c
    rw [ctx_setFlag] at k
    exact k
  · generalize hv : faultRecord n c code (s.pc n c) sec false a s = v
    have hc : v.ctxs = s.ctxs := by rw [← hv, ctxs_faultRecord]
    have hx : v.ctx n c = s.ctx n c := by unfold State.ctx; rw [hc]
    have k := deliverFault_keeps (s := v) (by rw [hc]; exact h) n c
    rw [hx] at k
    exact k

/-- How a row takes a ring's oldest descriptor. -/
theorem descStep_start {s : State} {n row lost : Nat} {more : State → State} {i : Nat} {d : List W64} {rest : List (Nat × List W64)}
    (h1 : (s.job n).on = false) (h2 : (s.ring n).fetched = (i, d) :: rest) (h3 : descRow d = row)
    (h4 : s.fld Fld.rngStatState n = 1) (h5 : s.ringsGo = true) (h6 : (s.ring n).record = none)
    (h7 : bitOf (descFlags d) 0 = false ∨ s.fenced n = true) :
    descStep n row lost more s =
      let t := showServed n ((s.setRing n { s.ring n with fetched := rest }).setJob n { on := true, desc := d, index := i })
      if descCheck n d t ≠ Code.ok then completeDesc n (descCheck n d t) t
      else if row < 0x40 then descBegin n lost t else more t := by
  have h7' : (bitOf (descFlags d) 0 && !s.fenced n) = false := by rcases h7 with h | h <;> simp [h]
  simp only [descStep, h1, h2, h7', Bool.false_eq_true, if_false]
  rw [if_neg]
  rw [h3, h4, h5, h6]
  simp

/-- Showing whom a mover serves leaves the jobs. -/
theorem showServed_jobs (j : Nat) (s : State) : (showServed j s).jobs = s.jobs := by
  unfold showServed showMover
  dsimp only
  simp only [State.setFlag_jobs, State.setFld_jobs]

/-- Showing whom a mover serves leaves the contexts. -/
theorem showServed_ctxs (j : Nat) (s : State) : (showServed j s).ctxs = s.ctxs := by
  unfold showServed showMover
  dsimp only
  simp only [State.setFlag_ctxs, State.setFld_ctxs]

/-- MSG to an engine channel or a queue. -/
theorem descToken_plain (n tg : Nat) (v : W64) (s : State) (h : tg < 0x300 ∨ (0x400 ≤ tg ∧ tg < 0x420)) :
    descToken n tg v s = completeDesc n Code.ok (s.putTrans
      { moverTrans (s.ringMover n) (s.jobOwner n) 0 0 .msg tg 1 .dev tg [v] (.mover n) with space := .dev }) := by
  have hs : ¬ (0x1000 ≤ tg ∧ tg < 0x1050) := by omega
  unfold descToken
  dsimp only
  rw [if_neg (by simp; omega), if_neg hs, if_neg hs]

/-- MSG to a target that does not exist. -/
theorem descToken_none (n tg : Nat) (v : W64) (s : State) (h : 0x300 ≤ tg) (h2 : tg < 0x400 ∨ 0x420 ≤ tg)
    (h3 : tg < 0x1000 ∨ 0x1050 ≤ tg) :
    descToken n tg v s = completeDesc n Code.badReserved (refusedAt (102 + s.ringMover n / 16) s) := by
  unfold descToken
  dsimp only
  rw [if_pos (by simp; omega)]

/-- A job set reads back. -/
theorem job_setJob_self {s : State} (h : Tab.wf {} s.jobs = true) (k : Nat) (x : Job) : Tab.get {} (s.setJob k x).jobs k = x :=
  Tab.get_set_self {} x k ((Tab.wf_iff _ _).1 h).1

/-- Ownership of a vector by its owner. -/
theorem owned {s : State} {w : Writer} {off n : Nat} {f : State → State} (hp : s.priv w ≠ 0) (ho : s.ownerCode w = s.fld Fld.rngOwnOwner n) :
    s.linked w off (fun s => s.ringOwned w n f) = f s := by
  simp only [State.linked, if_neg hp, State.ringOwned, ho, if_true]

/-- A table filtered by key reads as before at the keys kept. -/
theorem Tab_get_filter {α : Type} (d : α) (p : Nat → Bool) (k : Nat) : ∀ t : Tab α,
    Tab.get d (t.filter fun e => p e.1) k = if p k then Tab.get d t k else d := by
  intro t; induction t with
  | nil => simp [Tab.get]
  | cons e t ih =>
    obtain ⟨a, v⟩ := e
    by_cases hp : p a
    · simp only [List.filter, hp, Tab.get]
      by_cases hk : k = a
      · subst hk; simp [hp]
      · simp [hk, ih]
    · simp only [List.filter, hp, Tab.get]
      by_cases hk : k = a
      · subst hk; simp [hp, ih]
      · simp [hk, ih]

/-- The stream pump leaves the loader. -/
theorem streamPump_ldr : ∀ (k : Nat) (s : State), (streamPump k s).ldr = s.ldr := by
  intro k; induction k with
  | zero => intro s; rfl
  | succ k ih =>
    intro s
    unfold streamPump
    dsimp only
    split
    · rfl
    · split
      · split
        · rfl
        · rw [ih]; rfl
      · split <;> rfl

/-- Forwarding leaves the loader. -/
theorem forward_ldr (bs : List Byte) (s : State) : (forward bs s).ldr = s.ldr := by
  unfold forward
  dsimp only
  split
  · rw [streamPump_ldr]; rfl
  · rfl

/-- A refill leaves the bytes of the body. -/
theorem ldrRefill_body (s : State) : (ldrRefill s).ldr.body = s.ldr.body := by
  unfold ldrRefill
  dsimp only
  split
  · unfold ldrPush
    rw [forward_ldr]
    rfl
  · rfl

/-- What taking bytes of the body leaves of it. -/
theorem bodyTake_body (k : Nat) (s : State) : (bodyTake k s).ldr.body = s.ldr.body + k := by
  unfold bodyTake ldrEat; dsimp only; split <;> rfl

/-- The length of a range. -/
theorem upFrom_length (a k : Nat) : (upFrom a k).length = k := by
  induction k generalizing a with
  | zero => rfl
  | succ k ih => exact congrArg (· + 1) (ih (a + 1))

/-- UNIT and INDEX of a request written to BIST_CTL. -/
theorem bistCtl_unit (old : W64) (u k : Nat) (hu : u < 8) (hk : k < 128) :
    bitsW (Reg.bistCtl.plain old ((BitVec.ofNat 32 (u + 16 * k + 2 ^ 31)).setWidth 64) false) 0 3 = u ∧
    bitsW (Reg.bistCtl.plain old ((BitVec.ofNat 32 (u + 16 * k + 2 ^ 31)).setWidth 64) false) 4 7 = k := by
  have e (lo len : Nat) (h : ∀ i, i < len → (0x7F7 : W64).getLsbD (lo + i) = true) :
      bitsW (Reg.bistCtl.plain old ((BitVec.ofNat 32 (u + 16 * k + 2 ^ 31)).setWidth 64) false) lo len =
        bitsW ((BitVec.ofNat 32 (u + 16 * k + 2 ^ 31)).setWidth 64) lo len := by
    apply Nat.eq_of_testBit_eq
    intro i
    rw [bitsW_testBit, bitsW_testBit]
    by_cases hi : i < len
    · have := h i hi
      simp only [Reg.plain, Reg.bistCtl, BitVec.getLsbD_and, BitVec.getLsbD_or, BitVec.getLsbD_not, Bool.false_eq_true, if_false,
        this]
      by_cases l : lo + i < 64
      · simp [l]
      · rw [BitVec.getLsbD_of_ge _ _ (by omega)] at this
        exact absurd this (by decide)
    · simp [hi]
  have v : (BitVec.setWidth 64 (BitVec.ofNat 32 (u + 16 * k + 2 ^ 31))).toNat = u + 16 * k + 2 ^ 31 := by
    rw [BitVec.toNat_setWidth, BitVec.toNat_ofNat]
    omega
  refine ⟨(e 0 3 ?_).trans ?_, (e 4 7 ?_).trans ?_⟩
  · decide
  · unfold bitsW bitsOf; rw [v]; omega
  · decide
  · unfold bitsW bitsOf; rw [v]; omega

/-- How EN moves a lane, as one equation. -/
theorem laneSwitch_eq (l : Nat) (on : Bool) (s : State) :
    laneSwitch l on s = if on then (if s.fld Fld.pinLaneStatState l = 0 then (if s.asleep then s else laneTrain l s)
      else if s.fld Fld.pinLaneStatState l = 3 then setLaneState l 4 s else s)
    else (if s.fld Fld.pinLaneStatState l = 0 ∨ s.fld Fld.pinLaneStatState l = 3 then s else setLaneState l 3 s) := by
  unfold laneSwitch
  generalize s.fld Fld.pinLaneStatState l = st
  match st, on with
  | 0, true => cases s.asleep <;> rfl
  | 0, false => rfl
  | 1, true => rfl
  | 1, false => rfl
  | 2, true => rfl
  | 2, false => rfl
  | 3, true => rfl
  | 3, false => rfl
  | n + 4, true => simp
  | n + 4, false => simp

end Sys2Proof.Laws
end

