-- ==== Sys2Proof/WellFormed.lean ====
section
/-! DEFINITION. Which commands are well formed: those whose operands fit together as the spec's wires and messages carry them.
Most operands are bounded by their types alone. -/

namespace Sys2Proof

/-- The data words of one transaction: 1 to 8 (R211). -/
def words (data : List W64) : Bool := decide (1 ≤ data.length) && decide (data.length ≤ 8)

/-- The tiles a half's sweep measures lie in its own sectors, 2,560 tiles to a half, and each is named once (R595). -/
def ownTiles (h : Fin 2) (ms : List (Fin 5120 × Int)) : Bool :=
  ms.all (fun e => e.1.val / 2560 == h.val) && (ms.map (·.1)).Nodup

/-- The banks whose parity a half looks at are its own, 640 to a half, each named once. -/
def ownBanks (h : Fin 2) (bad : List (Fin 1280)) : Bool := bad.all (fun b => b.val / 640 == h.val) && bad.Nodup

/-- Which operation of the NAND array serves which use (R547, R550, R551, R568): images and the start are read, a format erases,
records are read or programmed. -/
def nandPair (op : NandOp) (use : NandUse) : Bool :=
  match op, use with
  | .read _ _, .format _ _ => false
  | .program _ _, .format _ _ => false
  | .erase _ _, .format _ bad => bad.Nodup
  | .program _ _, .image => false
  | .erase _ _, .image => false
  | .program _ _, .start .. => false
  | .erase _ _, .start .. => false
  | .erase _ _, .record _ => false
  | _, _ => true

/-- Is a command well formed? -/
def Instr.wf (i : Instr) : Bool :=
  match i with
  | .registerWrite _ _ _ _ => true
  | .shadowLowRead _ _ => true
  | .shadowLowWrite _ _ _ => true
  | .shadowHighWrite _ _ _ => true
  | .alarmAck _ _ => true
  | .viewInterval _ _ _ _ => true
  | .handover _ _ => true
  | .deviceActionHoldTimeout => true
  | .stewardActionResume => true
  | .loadWindow _ _ => true
  | .loadPeakClr _ _ => true
  | .quadEdge _ _ _ _ _ => true
  | .quadCountCommit _ => true
  | .indexEdge _ _ => true
  | .adcSample _ _ _ _ => true
  | .serialFrameStart _ _ => true
  | .ssiFrameEnd _ _ _ _ => true
  | .qcsFrameEnd _ _ _ _ _ _ _ => true
  | .stepEdge _ _ _ _ => true
  | .zeroCrossing _ _ _ => true
  | .tbTimeoutExpiry _ => true
  | .tbposMsg _ _ _ _ _ _ _ _ => true
  | .tetherMsgTimeout _ => true
  | .timebaseUpdate => true
  | .coastLimitExpiry _ => true
  | .tbEnable _ _ => true
  | .tbDisable _ _ => true
  | .presetGo _ _ => true
  | .gearGo _ _ => true
  | .errcntClr _ _ => true
  | .tbCfgWrite _ _ _ _ => true
  | .tbAnaCalWrite _ _ _ => true
  | .tbSnapGo _ => true
  | .tbSnapDone => true
  | .fabricArm _ _ _ _ _ _ _ => true
  | .fabricCancel _ _ _ => true
  | .fabricReplyTaken _ _ => true
  | .schedPublication => true
  | .eventFire _ _ => true
  | .pulseEnd _ _ => true
  | .widthLimitExpiry _ _ => true
  | .eventExpiry _ => true
  | .captureEdge _ _ _ => true
  | .captureWindowClose _ => true
  | .eventTokenDrain _ => true
  | .calMeasureDone _ => true
  | .calRoleSwap _ => true
  | .calAgeExpiry _ => true
  | .evtKillGo _ _ => true
  | .evtCfgWrite _ _ _ => true
  | .evtCntClr _ _ => true
  | .evtSlotSel _ _ => true
  | .slotCopyDone => true
  | .evtLineCfgWrite _ _ _ => true
  | .evtCapCfgWrite _ _ _ => true
  | .handshakeWord _ _ => true
  | .cellToken _ _ _ _ _ => true
  | .bundledTransfer _ _ _ _ _ => true
  | .arbiterRequest _ _ => true
  | .arbiterRelease _ _ => true
  | .sectorUrst _ _ _ => true
  | .cellResetInput _ _ => true
  | .spineRead _ _ => true
  | .spineWrite _ _ data => words data
  | .spineWriteAck _ _ data => words data
  | .spineAdd _ _ _ => true
  | .spineSwap _ _ _ => true
  | .spineMsg _ _ _ => true
  | .spineHeaderAdmit _ => true
  | .transactionDelivery _ _ _ => true
  | .spineResponse _ _ _ _ _ data => decide (data.length ≤ 8)
  | .sportTimeout _ _ => true
  | .sportCntClr _ _ => true
  | .sportPeakClr _ _ => true
  | .spinePeakClr _ => true
  | .tokDestWrite _ _ _ => true
  | .bankAccessRead _ _ _ => true
  | .bankAccessWrite _ _ _ data _ => words data
  | .bankAccessAdd _ _ _ _ => true
  | .bankAccessSwap _ _ _ _ => true
  | .hostBar2Read _ _ _ => true
  | .hostBar2Write _ _ _ _ _ => true
  | .bankOwnWrite _ _ _ => true
  | .bankDrainDone _ => true
  | .bankRetentionRequest _ _ => true
  | .bankWakeRequest _ _ => true
  | .bankEntryDone _ => true
  | .bankWakeDone _ => true
  | .parityInject _ _ => true
  | .bankCntClr _ _ => true
  | .confClr _ => true
  | .qpush _ _ _ => true
  | .qpopWait _ => true
  | .qpopNow _ => true
  | .quePush _ _ _ data => words data
  | .quePushEnd _ _ _ data => words data
  | .quePop _ _ => true
  | .quePopTagged _ _ => true
  | .queFlush _ _ => true
  | .queEnable _ _ => true
  | .queEnableDone _ => true
  | .queDisable _ _ => true
  | .queStopDone _ => true
  | .queWmWrite _ _ _ => true
  | .queCfgWrite _ _ _ => true
  | .queCntClr _ _ => true
  | .oscDelayExpiry _ _ => true
  | .rootSourceRetry _ _ => true
  | .rootLock => true
  | .refMissingEdge _ => true
  | .freqWindow _ _ _ => true
  | .pllUnlock => true
  | .holdoverToIntosc => true
  | .autoReturnStart => true
  | .clkSrcSwitch _ _ _ => true
  | .rootSlewDone => true
  | .clkGateOn _ _ _ => true
  | .clkGateAuto _ _ _ => true
  | .clkGateOff _ _ _ => true
  | .clkGateIdleStop _ => true
  | .clkGateWake _ => true
  | .clkGateStopDone _ => true
  | .crossingRelease _ _ => true
  | .clkMinClr _ => true
  | .clkCntClr _ => true
  | .engineEnable _ _ => true
  | .engineDisable _ _ => true
  | .engineStopDone _ => true
  | .engineCntClr _ _ => true
  | .contextStart _ _ _ => true
  | .contextStop _ _ _ => true
  | .ctxPcWrite _ _ _ _ => true
  | .ctxCfgWrite _ _ _ _ => true
  | .ctxEvqWrite _ _ _ _ _ => true
  | .ctxGregAccess _ _ _ _ _ => true
  | .ochDestWrite _ _ _ _ => true
  | .contextSwitch _ => true
  | .accessResponse _ => true
  | .faultDelivery _ => true
  | .watchdogExpiry _ _ => true
  | .contextTimerExpiry _ _ => true
  | .longOpComplete _ => true
  | .engineTokenIn _ => true
  | .engineMsgAdmit _ => true
  | .outputChannelDrain _ _ => true
  | .evqBufferDrain _ => true
  | .xferEnd _ _ _ => true
  | .kNop _ => true
  | .kAdd _ => true
  | .kSub _ => true
  | .kAnd _ => true
  | .kOr _ => true
  | .kXor _ => true
  | .kShl _ => true
  | .kShr _ => true
  | .kSar _ => true
  | .kRor _ => true
  | .kSlt _ => true
  | .kSltu _ => true
  | .kSeq _ => true
  | .kMin _ => true
  | .kMax _ => true
  | .kMinu _ => true
  | .kMaxu _ => true
  | .kMul _ => true
  | .kMulh _ => true
  | .kMulhu _ => true
  | .kDiv _ => true
  | .kDivu _ => true
  | .kRem _ => true
  | .kRemu _ => true
  | .kClz _ => true
  | .kPopc _ => true
  | .kAddv _ => true
  | .kSubv _ => true
  | .kCmovnz _ => true
  | .kCmovz _ => true
  | .kAddi _ => true
  | .kAndi _ => true
  | .kOri _ => true
  | .kXori _ => true
  | .kSlti _ => true
  | .kSltiu _ => true
  | .kShi _ => true
  | .kLdi _ => true
  | .kInsh _ => true
  | .kQadd _ => true
  | .kQsub _ => true
  | .kQmul _ => true
  | .kQdiv _ => true
  | .kQshl _ => true
  | .kQshr _ => true
  | .kQabs _ => true
  | .kQneg _ => true
  | .kQshli _ => true
  | .kQshri _ => true
  | .kFadd _ => true
  | .kFsub _ => true
  | .kFmul _ => true
  | .kFdiv _ => true
  | .kFsqrt _ => true
  | .kFma _ => true
  | .kFmin _ => true
  | .kFmax _ => true
  | .kFneg _ => true
  | .kFabs _ => true
  | .kFeq _ => true
  | .kFlt _ => true
  | .kFle _ => true
  | .kFround _ => true
  | .kFcvtFx _ => true
  | .kFcvtXf _ => true
  | .kFcvtFxu _ => true
  | .kLdl _ => true
  | .kStl _ => true
  | .kLdml _ => true
  | .kStml _ => true
  | .kLd _ => true
  | .kSt _ => true
  | .kLdm _ => true
  | .kStm _ => true
  | .kAtomAdd _ => true
  | .kAtomSwap _ => true
  | .kMcpy _ => true
  | .kBr _ => true
  | .kBeq _ => true
  | .kBne _ => true
  | .kBlt _ => true
  | .kBge _ => true
  | .kBltu _ => true
  | .kBgeu _ => true
  | .kBz _ => true
  | .kBnz _ => true
  | .kCall _ => true
  | .kJr _ => true
  | .kWaitToken _ => true
  | .kWaitRoom _ => true
  | .kWaitWake _ => true
  | .kWaitCompletion _ => true
  | .kWaitTimer _ => true
  | .kWaitXfer _ => true
  | .kRecv _ => true
  | .kSend _ => true
  | .kChav _ => true
  | .kSnap _ => true
  | .kTbw _ => true
  | .kEvset _ => true
  | .kEvcan _ => true
  | .kTkwake _ => true
  | .kEvqHead _ => true
  | .kEvqPop _ => true
  | .kDacw _ => true
  | .kXferStart _ => true
  | .kXferResume _ => true
  | .kXferAbort _ => true
  | .kXferStatus _ => true
  | .kRddt _ => true
  | .kCsrRead _ => true
  | .kCsrWrite _ => true
  | .kCsrSet _ => true
  | .kCsrClear _ => true
  | .kFence _ => true
  | .kYield _ => true
  | .kHalt _ => true
  | .kRfh _ => true
  | .kCtxstart _ => true
  | .kCtxstop _ => true
  | .kPinr _ => true
  | .linkRetrain => true
  | .linkDown => true
  | .linkUp _ _ => true
  | .functionLevelReset => true
  | .phpRead _ _ => true
  | .phpWrite _ _ _ _ _ => true
  | .phpTimeout _ => true
  | .phpPageWrite _ _ => true
  | .phpStatClr => true
  | .doorbell _ _ _ _ _ => true
  | .descriptorFetch _ _ => true
  | .descNop _ => true
  | .descCopy _ _ => true
  | .descMsg _ => true
  | .armShort _ => true
  | .armInline _ => true
  | .armImg _ _ => true
  | .descCancel _ => true
  | .tbWrite _ _ => true
  | .descLoad _ _ => true
  | .descSheet _ => true
  | .hostReadCompletion _ ok data => if ok then words data else data.isEmpty
  | .ringResume _ _ => true
  | .ringAbort _ _ => true
  | .ringEnable _ _ => true
  | .ringDisable _ _ => true
  | .ringStopDone _ => true
  | .ringCntClr _ _ => true
  | .ringCfgWrite _ _ _ _ => true
  | .ringOwnWrite _ _ _ => true
  | .vectorModTimer _ => true
  | .sheetCapture => true
  | .sheetCfgWrite _ _ => true
  | .linkPrivWrite _ _ _ => true
  | .spaceWrite _ _ _ => true
  | .invAddress _ _ => true
  | .invSpace _ _ => true
  | .invAll _ _ => true
  | .invalidateDone => true
  | .tableReadDone _ _ _ _ => true
  | .svnWrite _ _ => true
  | .keyCommit _ _ => true
  | .bootLockWrite _ _ => true
  | .debugDisable _ => true
  | .lifeStoreDone => true
  | .wtuCntClr _ => true
  | .streamLeader => true
  | .recordNop => true
  | .framesRecord => true
  | .bankRecord => true
  | .ememRecord => true
  | .regRecord => true
  | .sectionRecord => true
  | .endRecord => true
  | .segmentTag => true
  | .streamTrailer => true
  | .streamSourceEnd _ => true
  | .streamStallTimeout => true
  | .gateHigh => true
  | .gateTimeout => true
  | .startupOuts => true
  | .startupWrites => true
  | .startupResets => true
  | .resetWaveColumn => true
  | .loadAbort _ => true
  | .loadDiscard _ => true
  | .configCheck _ => true
  | .configCheckDone => true
  | .readback _ _ => true
  | .nandOpDone op use => nandPair op use
  | .patrolRead _ _ _ => true
  | .patrolGo _ => true
  | .patrolPlaceSave => true
  | .arcRead _ _ => true
  | .arcWrite _ _ => true
  | .arcTrim _ => true
  | .recRead _ _ => true
  | .recWrite _ _ => true
  | .recDelete _ => true
  | .imgOpen _ => true
  | .imgWrite _ _ => true
  | .imgCommit _ => true
  | .imgRead _ _ => true
  | .slotSelect _ => true
  | .loadSlot _ => true
  | .arcFormat _ => true
  | .archiveEnable _ => true
  | .archiveDisable _ => true
  | .archiveStopDone => true
  | .arcIfWrite _ _ => true
  | .arcCfgWrite _ _ => true
  | .arcCntClr _ => true
  | .powerValid _ _ => true
  | .xresetRise _ => true
  | .xresetAssert => true
  | .startWarm _ => true
  | .startReload _ => true
  | .startCold _ => true
  | .bootConfirm _ => true
  | .confirmTimeoutExpiry => true
  | .startDoneTimeout => true
  | .startRetry => true
  | .confirmTmoWrite _ _ => true
  | .operatingHour => true
  | .bistSector _ _ => true
  | .bistEngine _ _ => true
  | .bistAnalog _ _ => true
  | .bistDevice _ => true
  | .bistUnitDone _ failed fails => failed || fails.isEmpty
  | .densitometerSweep h ms bad => ownTiles h ms && ownBanks h bad
  | .healthCfgWrite _ _ => true
  | .enginePathMonitor _ _ => true
  | .fixGo _ => true
  | .substitutionDone _ => true
  | .supplyLowDetect _ => true
  | .brownOut => true
  | .tempUpdate _ _ => true
  | .backlogInterval _ _ => true
  | .phaseMonitor _ _ => true
  | .vfabWrite _ _ _ => true
  | .reqRun _ => true
  | .reqIdle _ => true
  | .reqSafelight _ => true
  | .reqDark _ => true
  | .powerEntryDone => true
  | .wakeNEdge => true
  | .wakePortEdge _ _ => true
  | .wakeTbRange _ => true
  | .wakeDt => true
  | .hostRequestWake => true
  | .activityWake => true
  | .powerWakeDone => true
  | .vbankWrite _ _ _ => true
  | .vbankSave _ _ => true
  | .supplyCfgWrite _ _ => true
  | .tempPeakClr _ => true
  | .pinCfgWrite _ _ _ => true
  | .pinMuxWrite _ _ _ => true
  | .pinSwitchEdge _ => true
  | .pinOvlWrite _ _ _ => true
  | .pinOwnWrite _ _ _ => true
  | .pinOutWrite _ _ _ => true
  | .pinPwmWrite _ _ _ => true
  | .pinInputChange _ _ _ => true
  | .debounceExpiry _ _ => true
  | .lineFaultDetect _ _ => true
  | .sliceDriveCheck _ _ _ => true
  | .dacCodeWrite _ _ _ => true
  | .dacCfgWrite _ _ _ => true
  | .ainCfgWrite _ _ _ => true
  | .pinSave _ => true
  | .laneCntClr _ => true
  | .laneEnable _ _ _ => true
  | .laneDisable _ _ _ => true
  | .laneStopDone _ => true
  | .laneLinkLoss _ _ => true
  | .identMsg _ _ _ _ _ => true
  | .timeMsg _ _ _ _ _ _ => true
  | .timeSendTimer _ => true
  | .streamMsg _ data _ => decide (1 ≤ data.length) && decide (data.length ≤ 256)
  | .ackMsg _ _ _ _ => true
  | .eosMsg _ _ => true
  | .streamAckTimeout => true
  | .laneWordRx _ _ _ => true
  | .laneWordTx _ => true
  | .jtagReset => true
  | .jtagExtest _ _ => true
  | .jtagSamplePreload _ _ => true
  | .jtagIdcode => true
  | .jtagBypass _ => true
  | .cfgLoad _ => true
  | .cfgRead _ => true
  | .setupRwRead _ _ _ => true
  | .setupRwWrite _ _ _ _ => true
  | .laneLock _ => true
  | .timeMissing _ => true
  | .identSendTimer _ => true
  | .ackSendTimer => true
  | .activeClockEdge _ _ _ _ _ => true
  | .pwmPeriod _ => true
  | .railSlewDone _ => true

end Sys2Proof
end

