-- ==== Sys2Proof/Tests/Slice0.lean ====
section
/-! SUPPORT. The tests: an ill-formed term for each check of WellFormed, the worked values of the spec on one command each, and for
every statement a state that meets its hypotheses. -/

namespace Sys2Proof.Tests

open Sys2Proof Sys2Proof.Machine

-- one theorem at a time: a `decide +kernel` waits for every theorem before it, and each that waits would hold a thread of its own
set_option Elab.async false

/-! ### Well-formedness: an ill-formed term for each check -/

theorem test_write_of_no_words : (Instr.spineWrite 0 0 []).wf = false := by decide
theorem test_write_of_nine_words : (Instr.spineWriteAck 0 0 [0, 0, 0, 0, 0, 0, 0, 0, 0]).wf = false := by decide
theorem test_bank_write_of_no_words : (Instr.bankAccessWrite 0 true 0 [] 0).wf = false := by decide
theorem test_push_of_no_words : (Instr.quePush 0 false 0 []).wf = false := by decide
theorem test_push_end_of_nine_words : (Instr.quePushEnd 0 true 0 [0, 0, 0, 0, 0, 0, 0, 0, 0]).wf = false := by decide
theorem test_response_of_nine_words : (Instr.spineResponse false 0 0 0 0 [0, 0, 0, 0, 0, 0, 0, 0, 0]).wf = false := by decide
theorem test_good_completion_of_no_words : (Instr.hostReadCompletion 0 true []).wf = false := by decide
theorem test_failed_completion_with_words : (Instr.hostReadCompletion 0 false [0]).wf = false := by decide
theorem test_format_never_reads : (Instr.nandOpDone (.read 0 0) (.format 0 [])).wf = false := by decide
theorem test_format_never_programs : (Instr.nandOpDone (.program 0 true) (.format 0 [])).wf = false := by decide
theorem test_format_names_a_bad_block_once : (Instr.nandOpDone (.erase 0 true) (.format 0 [7, 7])).wf = false := by decide
theorem test_image_never_programs : (Instr.nandOpDone (.program 0 true) .image).wf = false := by decide
theorem test_image_never_erases : (Instr.nandOpDone (.erase 0 true) .image).wf = false := by decide
theorem test_start_never_programs : (Instr.nandOpDone (.program 0 true) (.start 0 0 0 0 0 0 0 0)).wf = false := by decide
theorem test_start_never_erases : (Instr.nandOpDone (.erase 0 true) (.start 0 0 0 0 0 0 0 0)).wf = false := by decide
theorem test_record_never_erases : (Instr.nandOpDone (.erase 0 true) (.record 0)).wf = false := by decide
theorem test_passed_unit_has_no_fails : (Instr.bistUnitDone 0 false [0]).wf = false := by decide
theorem test_sweep_of_the_other_half : (Instr.densitometerSweep 0 [(2560, 0)] []).wf = false := by decide
theorem test_sweep_names_a_tile_once : (Instr.densitometerSweep 0 [(1, 0), (1, 5)] []).wf = false := by decide
theorem test_banks_of_the_other_half : (Instr.densitometerSweep 1 [] [0]).wf = false := by decide
theorem test_sweep_names_a_bank_once : (Instr.densitometerSweep 0 [] [3, 3]).wf = false := by decide
theorem test_stream_of_no_bytes : (Instr.streamMsg 0 [] true).wf = false := by decide
theorem test_stream_of_257_bytes : (Instr.streamMsg 0 (List.replicate 257 0) true).wf = false := by decide +kernel
theorem test_sweep_of_its_half : (Instr.densitometerSweep 1 [(2560, 0)] [640]).wf = true := by decide

/-! ### The worked values of the spec -/

/-- The operation words of 09_kell_instruction_set, Worked example. -/
theorem test_words_of_the_x_loop :
    opMn 0xD0410000 = some .snap ∧ opMn 0x10E40010 = some .fcvtFx ∧ opMn 0x052A1801 = some .sub ∧ opMn 0x0DAE5805 = some .fma ∧
      opMn 0x05F39803 = some .or_ ∧ opMn 0x122F0040 = some .fcvtXf ∧ opMn 0xEA510000 = some .dacw := by decide
/-- The fields of bundle D's FMA: RD 13, RA 14, RB 11. -/
theorem test_fields_of_fma : opRd 0x0DAE5805 = 13 ∧ opRa 0x0DAE5805 = 14 ∧ opRb 0x0DAE5805 = 11 := by decide
/-- 0x0420_0000 with 24 fraction bits is 4.125. -/
theorem test_fcvt_fx : fFromFixed 0 0x04200000 24 = (0x4010800000000000, 0) := by decide +kernel
/-- 30 × 4.125 + 250,000 = 250,123.75. -/
theorem test_fma_exact : fMulAdd 0 (fFromFixed 0 30 0).1 (fFromFixed 0 0x04200000 24).1 (fFromFixed 0 250000 0).1 =
    ((fFromFixed 0 1000495 2).1, 0) := by decide +kernel
/-- 250,123.75 × 32,768 / 550,000 + 32,768 = 47,669.918, written to the DAC as 47,670. -/
theorem test_dac_code : (fToFixed 0 (fMulAdd 0 (fFromFixed 0 1000495 2).1
    (fDiv 0 (fFromFixed 0 32768 0).1 (fFromFixed 0 550000 0).1).1 (fFromFixed 0 32768 0).1).1 0).1 = 47670 := by decide +kernel
/-- 04_fabric_cells, Worked example: the sum table 0x96 and the carry table 0xE8 add 1 + 1 + 0 to 0, carry 1. -/
theorem test_adder_tables :
    let i := tableIndex 7 true true false false
    bitOf 0xE8E89696 i = false ∧ bitOf 0xE8E89696 (16 + i) = true := by decide
/-- The coolant valve's event: its action, slot rule, destination and timebase. -/
theorem test_valve_event : bitsOf 0x0308D304 0 6 = 4 ∧ bitsOf 0x0308D304 8 4 = 3 ∧ bitsOf 0x0308D304 24 8 = 3 := by decide
/-- 10_host_link_and_rings, Worked example: the COPY descriptor. -/
theorem test_copy_descriptor :
    let d : List W64 := [0x0000204008000601, 0x014000007F001840]
    descOp d = 1 ∧ descFlags d = 6 ∧ descArg d false 0 = 0x20400800 ∧ descArg d false 1 = 0x7F001840 ∧ descArg d false 2 = 320 := by
  decide
/-- 11_translation_and_protection, Worked example: the L2 entry leads to the L1 table in bank 1,274. -/
theorem test_upper_entry : upperEntry 2 0x4FA021 = .table 0x4FA000 true := by decide
/-- The same example's leaf: R, W and DEV on the frame 0x200_1000. -/
theorem test_leaf_entry : lowestEntry 0 0x200102F = .leaf 12 0x2001000 true true false true := by decide
/-- 14_start_health_and_spares, Worked example: 4.246 % reads 42. -/
theorem test_slowdown_of_the_plc_tile : slowdown 8 (List.replicate 8 42464) = 42 := by decide
/-- The same example's entry of the spare map. -/
theorem test_spare_entry : spareEntry 2 2 13 0x1B 41250 = 0x00A12200001B0D22 := by decide
/-- 12_configuration, Worked example: the FRAMES header of sector 12. -/
theorem test_frames_header : bitsW (0x000001A0000C0001 : W64) 0 8 = 1 ∧ bitsW (0x000001A0000C0001 : W64) 16 7 = 12 ∧
    bitsW (0x000001A0000C0001 : W64) 32 9 = 416 := by decide

/-! ### Witnesses -/

/-- Timebase 3 running from a source. -/
def tbOn (src : Nat) : State := (State.reset.setFld Fld.tbStatState 1 3).setFld Fld.tbCfgSrc src 3
/-- An event on the DT timebase of a slot, one firing, with an action and a destination. -/
def dtEvent (act dest st : Nat) (target : Nat) : Slot :=
  { w0 := dtPos target, w3 := BitVec.ofNat 64 (63 + act * 2 ^ 8 + dest * 2 ^ 24), st := st, remain := 1 }
/-- A run of an event with an action and a destination. -/
def runOf (act dest : Nat) : Run := { slot := 5, img := dtEvent act dest 4 20000, held := true }
/-- The last cell of a half with a record, out of reset. -/
def cellOf (r : Nat) : State :=
  ({ State.reset with frames := [(cellKey 327679, BitVec.ofNat 64 r)] } : State).setReg Reg.stwSecHold 0 39
/-- Sector 79 no longer held. -/
def sector79 : State := State.reset.setReg Reg.stwSecHold 0 79
/-- A transaction of sector 79 for the last DMEM word. -/
def dmemTrans (op : TOp) (sp : Space) (ws : List W64) : Trans :=
  { port := 79, master := 79, owner := 2, tag := 255, op := op, len := 1, addr := 0x13FFFF8, space := sp, asid := 0, priv := 0
    va := 0x13FFFF8, marked := false, data := ws, asker := .port 79 }
/-- Bank 1279 owned by the fabric of its sector, which is not held. -/
def bankState : State := sector79.setReg Reg.bnkOwn (BitVec.ofNat 64 (2 + 79 * 256)) 1279
/-- Queue 159 of sector 79, running, both ends set to SPINE with owner FABRIC. -/
def queState (cfg : Nat) : State :=
  ((sector79.setReg Reg.queCfg (BitVec.ofNat 64 cfg) 159).setFld Fld.queStatState 1 159).setFlag Fld.queStatEmpty true 159
/-- Engine 95 running, its context 0 running. -/
def engRun : State := (State.reset.setFld Fld.engStatState 1 95).setCtxState 95 0 2
/-- Engine 95's context 0 about to issue a bundle of two operation words. -/
def kState (w0 w1 : Nat) : State := engRun.setMemWord (imemBase 95) (BitVec.ofNat 64 (w0 + w1 * 2 ^ 32))
/-- What `State.Bundle` asks, as a decision. -/
def bundleB (s : State) (n c : Nat) (m0 m1 : Mn) (w0 w1 : W32) : Bool :=
  s.curCtx n == c && Tab.get 0 s.ecc (imemBase n + s.pc n c) == 0 &&
    BitVec.ofNat 32 (bitsW (s.memWord (imemBase n + s.pc n c)) 0 32) == w0 &&
    BitVec.ofNat 32 (bitsW (s.memWord (imemBase n + s.pc n c)) 32 32) == w1 && opMn w0 == some m0 && opMn w1 == some m1 &&
    (bundleStop n c false (some m0) (some m1) w0 w1 s).isNone && !touchesPending n c (some m0) (some m1) w0 w1 s
theorem bundle_of {s : State} {n c : Nat} {m0 m1 : Mn} {w0 w1 : W32} (h : bundleB s n c m0 m1 w0 w1 = true) :
    s.Bundle n c m0 m1 w0 w1 := by
  simp only [bundleB, Bool.and_eq_true, beq_iff_eq, Bool.not_eq_true', Option.isNone_iff_eq_none] at h
  obtain ⟨⟨⟨⟨⟨⟨⟨h2, h3⟩, h4⟩, h5⟩, h6⟩, h7⟩, h8⟩, h9⟩ := h
  exact ⟨h2, by simp only [fetch, engRead, h3, h4, h5], h6, h7, h8, h9⟩
/-- What `State.Issues` asks, as a decision. -/
def issuesB (s : State) (n c : Nat) (m0 m1 : Mn) (w0 w1 : W32) : Bool := s.mayIssue n && bundleB s n c m0 m1 w0 w1
theorem issues_of {s : State} {n c : Nat} {m0 m1 : Mn} {w0 w1 : W32} (h : issuesB s n c m0 m1 w0 w1 = true) :
    s.Issues n c m0 m1 w0 w1 := by
  rw [issuesB, Bool.and_eq_true] at h
  exact ⟨bundle_of h.2, h.1⟩
/-- An operation word: major opcode, gRD 3, gRA 4, gRB and the low bits. -/
def opWord (maj rb fn : Nat) : Nat := maj * 2 ^ 26 + 3 * 2 ^ 21 + 4 * 2 ^ 16 + rb * 2 ^ 11 + fn
/-- May the word of an operation issue from `kState` in operation 0, beside a NOP? -/
def issues0 (p : Mn × Nat) : Bool := issuesB (kState p.2 0) 95 0 p.1 .nop (BitVec.ofNat 32 p.2) 0
/-- May the word of an operation issue from `kState` in operation 1, beside a NOP? -/
def issues1 (p : Mn × Nat) : Bool := issuesB (kState 0 p.2) 95 0 .nop p.1 0 (BitVec.ofNat 32 p.2)
/-- A loader that waits for a leader, with a stream's first bytes. -/
def ldrState (st source : Nat) (raw : List Byte) : State :=
  let s := (State.reset.setLdrState st).setFld Fld.ldrStatSource source
  { s with ldr := { s.ldr with raw := raw } }

/-- States that meet the hypotheses of StepPerformsTheFrontCommand. -/
theorem wit_StepPerformsTheFrontCommand :
    ({ State.reset with pending := [.linkRetrain] } : State).pending = .linkRetrain :: [] ∧
    (State.reset.setFlag Fld.clkStatRootLocked true).rootRuns = true ∧
    ({ State.reset with pwr := { dark := true } } : State).rootRuns = false ∧ State.reset.rootRuns = false ∧
    State.reset.pwr.dark = false ∧ State.reset.pending = [] := by decide

/-- A state with a command waiting that meets the hypothesis of EveryStepKeepsTheInvariant. -/
theorem wit_EveryStepKeepsTheInvariant : ({ State.reset with pending := [.timebaseUpdate, .rootLock] } : State).Inv :=
  ⟨⟨State.inv_reset.canonical.regs, State.inv_reset.canonical.mem, State.inv_reset.canonical.frames, State.inv_reset.canonical.engs⟩,
    ⟨State.inv_reset.within.engs, State.inv_reset.within.west, State.inv_reset.within.east, State.inv_reset.within.planned,
      State.inv_reset.within.held⟩⟩

/-- A state and a step that meet the hypotheses of EveryStepKeepsTheInvariant and CommandsLeaveTheQueueInOrder. -/
theorem wit_CommandsLeaveTheQueueInOrder : State.reset.Inv ∧ step State.reset = .next State.reset :=
  ⟨State.inv_reset, rfl⟩

/-- States and operands that meet the hypotheses of RegisterWriteReadsBack: the reset state, and the fields of TB_CFG at the ends of
the word and beside each other. -/
theorem wit_RegisterWriteReadsBack :
    State.reset.Regular ∧ Reg.tbSrc.addr 0 0 ≠ Reg.tbCfg.addr 0 0 ∧ Fld.tbCfgSrc.lo + Fld.tbCfgSrc.len ≤ 64 ∧
    Fld.tbCfgBw.reg = Fld.tbCfgSrc.reg ∧ Fld.tbCfgSrc.lo + Fld.tbCfgSrc.len ≤ Fld.tbCfgBw.lo := by decide

/-- A state and an address that meet the hypothesis of MemoryWordReadsBack. -/
theorem wit_MemoryWordReadsBack : Memory.wf State.reset.mem = true := by decide

/-- Writers and registers that meet the hypotheses of SetupWritesReachTheirRegister: a Warden's and a Supervisor's whole write of
TB_GEAR_OFS[0] and TB_REV[31], the Supervisor's of a Warden's field, an offset without a register, held words. -/
theorem wit_SetupWritesReachTheirRegister :
    (gregAt (8 * (0x8004 : BitVec 21).toNat) = none ∧
      RegMap.find (8 * (0x8004 : BitVec 21).toNat) = some (Reg.tbGearOfs, 0, 0) ∧ Reg.tbGearOfs.wide = true ∧
      RegOps.all.find? (·.1 == Reg.tbGearOfs.base) = none ∧ State.reset.priv .pcie = 2) ∧
    (0x40064 = 8 * (0x800C : BitVec 21).toNat + 4 * b2n true ∧ gregAt 0x40064 = none ∧ bellAt 0x40064 = none ∧
      RegMap.find 0x40064 = some (Reg.tbRev, 0, 0) ∧ Reg.tbRev.wide = false ∧
      RegOps.all.find? (·.1 == Reg.tbRev.base) = none ∧
      (State.reset.setFld Fld.wtuLinkPriv 1).priv .pcie = 1 ∧ Reg.tbRev.rww ||| Reg.tbRev.rwl = 0 ∧
      State.reset.priv .pcie = 2) ∧
    (0x140 = 8 * (0x28 : BitVec 21).toNat + 4 * b2n false ∧ gregAt 0x140 = none ∧ bellAt 0x140 = none ∧
      RegMap.find 0x140 = some (Reg.wtuKeyData, 0, 0) ∧ Reg.wtuKeyData.wide = false ∧ RegOps.all.find? (·.1 == Reg.wtuKeyData.base) = none ∧
      (State.reset.setFld Fld.wtuLinkPriv 1).priv .pcie = 1 ∧
      Reg.wtuKeyData.touchesRww ((State.reset.setFld Fld.wtuLinkPriv 1).reg Reg.wtuKeyData 0 0) 1 = true) ∧
    (State.reset.priv .pcie ≠ 0 ∧ bellAt (8 * (0 : BitVec 21).toNat) = none ∧ 0 < (14 : Byte).toNat ∧ (14 : Byte).toNat < 15) ∧
    (State.reset.priv .pcie ≠ 0 ∧ gregAt (8 * (0x1FFFF : BitVec 21).toNat) = none ∧
      RegMap.find (8 * (0x1FFFF : BitVec 21).toNat) = none ∧ bellAt (8 * (0x1FFFF : BitVec 21).toNat) = none) ∧
    ((State.reset.setFld Fld.wtuLinkPriv 0).priv .pcie = 0 ∧ wideAt (8 * (0x8004 : BitVec 21).toNat) = true) ∧
    (State.reset.priv .pcie ≠ 0 ∧ wideAt (0x40020 : BitVec 24).toNat = true) ∧
    (State.reset.priv .pcie = 2 ∧ gregAt (0x40020 : BitVec 24).toNat = none ∧
      RegMap.find (0x40020 : BitVec 24).toNat = some (Reg.tbGearOfs, 0, 0) ∧ Reg.tbGearOfs.w1c = 0 ∧
      (({ State.reset with sys := { writeShadow := [⟨.pcie, 0x40020, 5⟩] } } : State).sys.writeShadow.find? fun h =>
        h.who == .pcie && h.off == (0x40020 : BitVec 24).toNat) = some ⟨.pcie, (0x40020 : BitVec 24).toNat, 5⟩) ∧
    (State.reset.sys.writeShadow.find? fun h => h.who == .pcie && h.off == (0x40020 : BitVec 24).toNat) = none ∧
    ((0x40020 : BitVec 24).toNat % 8 = 0 ∧ Reg.tbGearOfs.base ≠ Reg.tbDt.base ∧
      Reg.tbGearOfs.base ≠ Reg.wtuKeyData.base) := by
  and_intros <;> decide +kernel

/-- States that meet the hypotheses of LeadCommandsTakeEffect, clause by clause. -/
theorem wit_LeadCommandsTakeEffect :
    (State.reset.fld Fld.stwLeadState = 0 ∧ State.reset.fld Fld.stwLeadDisagree = 0 ∧ State.reset.lead.handover = 0) ∧
    ((State.reset.setFld Fld.stwLeadState 2).fld Fld.stwLeadState = 2 ∧
      (State.reset.setFld Fld.stwLeadState 2).lead.goodRun + 1 < 8 ∧ (State.reset.setFld Fld.stwLeadState 2).agreed = false) ∧
    ({ State.reset with lead := { handover := 3 } } : State).lead.handover = 3 ∧
    (State.reset.Regular ∧ State.reset.warden .pcie = true ∧ State.reset.agreed = true ∧
      State.reset.flag Fld.stwLeadHandover = false) ∧
    ((State.reset.setFld Fld.stwLeadState 2).Regular ∧ (State.reset.setFld Fld.stwLeadState 2).warden .pcie = true ∧
      (State.reset.setFld Fld.stwLeadState 2).flag Fld.stwLeadHandover = false) ∧
    (({ State.reset.setFld Fld.stwLeadState 1 with lead := { held := [.clockReturn] } } : State).agreed = false ∧
      ({ State.reset.setFld Fld.stwLeadState 1 with lead := { held := [.clockReturn] } } : State).lead.held = [.clockReturn]) ∧
    State.reset.priv .pcie ≠ 0 ∧
    (State.reset.fld Fld.stwAlarmPend &&& (~~~(1 : BitVec 9)).toNat = 0 ∧ (1 : BitVec 9) ≠ 0) ∧
    (State.reset.setFld Fld.wtuLinkPriv 1).priv .pcie = 1 := by
  and_intros <;> decide +kernel

/-- States that meet the hypotheses of SourceCommandsMeasure, clause by clause. -/
theorem wit_SourceCommandsMeasure :
    ((tbOn 1).tbTakes 3 1 = true ∧ ((tbOn 1).tb 3).waitEdge = none ∧ ((tbOn 1).tb 3).lastEdge = none) ∧
    (let s := { tbOn 1 with tbs := [(3, { lastEdge := some (6400, true), waitEdge := some (6400, 1) })] }
     s.tbTakes 3 1 = true ∧ (s.tb 3).lastEdge = some (6400, true) ∧ (8399 : Stamp).toNat / 32 * 32 < 6400 + 2000 ∧
     (s.tb 3).waitEdge = some (6400, 1)) ∧
    (let s := (tbOn 1).setFlag Fld.tbSrcIndexEn true 3
     s.tbTakes 3 1 = true ∧ s.flag Fld.tbSrcIndexEn 3 = true ∧ s.pwr.dark = false ∧ s.fld Fld.tbRevValue 3 = 0 ∧
     s.flag Fld.tbCfgRefOnIndex 3 = false ∧ (s.tb 3).waitEdge = none) ∧
    (State.reset.setFld Fld.pinAinCfgMode 1 15).fld Fld.pinAinCfgMode 15 = 1 ∧
    ((tbOn 3).tbTakes 3 3 = true ∧ bitOf ((tbOn 3).fld Fld.tbSrcpValue 3) 16 = false) ∧
    (let s := (tbOn 4).setFld Fld.tbSrcpValue 0x4000 3
     s.tbTakes 3 4 = true ∧ (s.tb 3).lastSeq = none ∧ 16 = bitsOf (s.fld Fld.tbSrcpValue 3) 10 6 ∧
      crc8 0xFF (msbFirst 4 (0 : BitVec 4).toNat ++ msbFirst 16 ((0x1234 : BitVec 40).toNat % 2 ^ 16) ++
        msbFirst 4 (5 : BitVec 4).toNat) = (76 : Byte).toNat) ∧
    ((tbOn 5).tbTakes 3 5 = true ∧ ((tbOn 5).tb 3).lastEdge = none) ∧
    (let s := (tbOn 6).setFld Fld.pinAinCfgMode 2 0
     s.fld Fld.pinAinCfgMode 0 = 2 ∧ ((upFrom 0 32).filter fun m => s.tbTakes m 6 && s.fld Fld.tbSrcAin m == 0) = [3] ∧
     (s.tb 3).lastCross = none) ∧
    (let s := (tbOn 7).setFld Fld.tbTimeoutValue 50 3
     s.tbTakes 3 7 = true ∧ s.flag Fld.tbTimeoutValue 3 = true ∧ bitOf (s.tb 3).stuck 7 = false) ∧
    (let s := (tbOn 8).setFlag Fld.pinLaneStatOfsValid true 0
     ((upFrom 0 32).filter fun m => s.tbTakes m 8 && s.fld Fld.tbSrcIn0 m == 0 && s.fld Fld.tbSrcIn1 m == (0 : Byte).toNat) = [3] ∧
     s.flag Fld.pinLaneStatOfsValid 0 = true ∧ s.tbTakes 3 8 = true) := by
  and_intros <;> decide +kernel

/-- States that meet the hypotheses of TimebaseControlTakesEffect, clause by clause. -/
theorem wit_TimebaseControlTakesEffect :
    (let s := State.reset.setFld Fld.tbCfgSrc 1 3
     s.priv .pcie ≠ 0 ∧ s.fld Fld.tbStatState 3 = 0 ∧ enableCheck s 3 = 0) ∧
    (State.reset.fld Fld.tbStatState 3 = 0 ∧ enableCheck State.reset 3 ≠ 0) ∧
    (let s := (tbOn 1).setFld Fld.tbStatState 2 3
     s.fld Fld.tbStatState 3 = 2 ∧ enableCheck s 3 = 0) ∧
    ((tbOn 1).fld Fld.tbStatState 3 = 1 ∧ (tbOn 1).priv .pcie ≠ 0) ∧
    (let s := (tbOn 9).setFld Fld.tbGearDenValue 7 3
     s.fld Fld.tbStatState 3 = 1 ∧ s.fld Fld.tbCfgSrc 3 = 9 ∧ s.fld Fld.tbGearDenValue 3 ≠ 0) ∧
    (State.reset.setFld Fld.tbGearDenValue 0 3).fld Fld.tbGearDenValue 3 = 0 ∧
    (State.reset.flag Fld.tbCtlEn 3 = false ∧ srcValues (State.reset.fld Fld.tbCfgSrc 3) (0 : Fin 3).val (1 : W32).toNat = 0) ∧
    (srcValues ((tbOn 1).fld Fld.tbCfgSrc 3) 0 (2 : W32).toNat = 0 ∧ ((tbOn 1).reg Reg.tbCfg 3 ^^^
      Reg.tbCfg.plain ((tbOn 1).reg Reg.tbCfg 3) ((2 : W32).setWidth 64) true) &&& 0x1F080F ≠ 0) ∧
    (State.reset.setFlag Fld.tbAnaCalAuto false 3).flag Fld.tbAnaCalAuto 3 = false ∧
    (let s := { State.reset.setReg Reg.tbSnapMask 8 with sched := { snapPend := true } }
     s.sched.snapPend = true ∧ (upFrom 0 32).filter (fun m => bitOf (s.fld Fld.tbSnapMaskValue) m) = [3]) ∧
    State.reset.sched.snapPend = false := by
  and_intros <;> decide +kernel

/-- A state that meets the hypotheses of TimebaseUpdatePublishes: timebase 3 a SOFTWARE one in DIRECT with a write. -/
theorem wit_TimebaseUpdatePublishes :
    (let s := { ((tbOn 7).setFld Fld.tbSrcpValue 1 3).setFlag Fld.clkStatRootLocked true with tbs := [(3, { write := some ⟨0, 5, 0, 0⟩ })] }
     s.rootRuns = true ∧ (∀ m ∈ upFrom 0 32, m ≠ 3 → s.fld Fld.tbStatState m = 0) ∧ (∀ m ∈ upFrom 0 32, s.fld Fld.tbCtlExport m = 0) ∧
     s.fld Fld.tbStatState 3 = 1 ∧ s.fld Fld.tbCfgSrc 3 = 7 ∧ bitOf (s.fld Fld.tbSrcpValue 3) 0 = true ∧
     s.fld Fld.tbFaultActive 3 = 0 ∧ (s.tb 3).write = some ⟨0, 5, 0, 0⟩ ∧ (s.tb 3).queued = [] ∧ (s.tb 3).presetReq = false ∧
     (s.tb 3).jumped = false ∧ s.Regular) ∧
    (let s := ((tbOn 1).setFld Fld.tbFaultActive 1 3).setFld Fld.tbCfgStopAct 1 3
     s.tbStopped 3 = true ∧ s.fld Fld.tbCfgStopAct 3 = 1 ∧ (s.tb 3).failed = false ∧ s.sched.slots = [] ∧ s.sched.runs = []) := by
  and_intros <;> decide +kernel

/-- States that meet the hypotheses of SchedulerEventsTakeEffect, clause by clause. -/
theorem wit_SchedulerEventsTakeEffect :
    ((State.reset.chan 31).reply = none ∧ (State.reset.chan 31).cmd = none ∧
      (State.reset.setFlag Fld.stwSecHoldOutHeld false 79).mute 79 = false ∧
      bitsW (1 : W64) 0 4 = 1 ∧ bitsW (1 : W64) 4 60 = 0 ∧ bitsW (0x50002 : W64) 0 4 = 2 ∧ bitsW (0x50002 : W64) 4 12 = 0 ∧
      bitsW (0x50002 : W64) 28 36 = 0) ∧
    (let x := dtEvent 0 1 1 20000
     let s : State := { State.reset with sched := { slots := [(4095, x)] } }
     let s := s.setFld Fld.evtCfgHorizon 63 1
     s.asleep = false ∧ s.sched.slots = [(4095, x)] ∧ x.st = 1 ∧ x.atOnce = false ∧ s.tbOff (evTb x.w3) = false ∧
     candidate s 4095 = some ⟨4095, 20000, true, false, false⟩ ∧ (s.pub (evTb x.w3)).inst + 16000 ≤ 20000) ∧
    (let x := dtEvent 0 1 1 8000
     let s : State := { State.reset with sched := { slots := [(5, x)] } }
     let s := s.setFld Fld.evtCfgHorizon 63 0
     s.asleep = false ∧ s.sched.slots = [(5, x)] ∧ x.st = 1 ∧ x.atOnce = false ∧ x.deadline = none ∧ s.tbOff (evTb x.w3) = false ∧
     candidate s 5 = some ⟨5, 8000, true, false, false⟩ ∧ (s.pub (evTb x.w3)).inst + 8000 ≤ 8000 ∧
     8000 < (s.pub (evTb x.w3)).inst + 16000 ∧ s.hasRoom x.w3 = true) ∧
    (let x := { dtEvent 0 63 3 20000 with pred := some 20000 }
     let s : State := { State.reset with sched := { slots := [(5, x)] } }
     s.asleep = false ∧ s.sched.slots = [(5, x)] ∧ x.st = 3 ∧ x.atOnce = false ∧ x.pred = some 20000 ∧ evAction x.w3 = 0) ∧
    (let x := { dtEvent 6 15 3 20000 with pred := some 20000 }
     let s : State := { State.reset with sched := { slots := [(5, x)] } }
     s.asleep = false ∧ s.sched.slots = [(5, x)] ∧ x.st = 3 ∧ x.atOnce = false ∧ x.pred = some 20000 ∧ evAction x.w3 = 6) ∧
    ((runOf 3 1).slot = (5 : Fin 4096).val ∧ evAction (runOf 3 1).img.w3 = 3) ∧
    (let r := { runOf 3 1 with img := { (runOf 3 1).img with w3 := (runOf 3 1).img.w3 + 0x1000 } }
     r.slot = (5 : Fin 4096).val ∧ evWunit r.img.w3 = 1 ∧ evAction r.img.w3 = 3) ∧
    (let s : State := { State.reset with sched := { slots := [(5, { dtEvent 0 1 1 20000 with deadline := some 7 })] } }
     (s.slot 5).st = 1 ∧ (s.slot 5).deadline.isSome = true) ∧
    (let s := (State.reset.setFlag Fld.evtCapStatOpen true 63).setFld Fld.evtCapCfgEdge 2 63
     s.flag Fld.evtCapStatOpen 63 = true ∧ s.fld Fld.evtCapCfgEdge 63 = 2) ∧
    (evAction (runOf 7 63).img.w3 = 7 ∧ evDest (runOf 7 63).img.w3 = (63 : Fin 64).val) ∧
    (let s : State := { State.reset with sched := { tokens := [(63, [9])] } }
     let s := s.setFlag Fld.stwTokDestBound true 63
     Tab.get [] s.sched.tokens 63 = [9] ∧ s.flag Fld.stwTokDestBound 63 = true ∧ s.poolRoom (104 + 63 / 32) = true) ∧
    (let s := ((State.reset.setFlag Fld.clkStatRootLocked true).setFlag Fld.evtCfgCalEn true 1).setCal 127 { measured := true }
     s.calRuns 127 = true ∧ (s.cal 127).measured = true ∧ s.sched.slots = []) := by
  and_intros <;> decide +kernel

/-- States that meet the hypotheses of SchedulerRegisterCommandsTakeEffect, clause by clause. -/
theorem wit_SchedulerRegisterCommandsTakeEffect :
    (State.reset.priv .pcie = 2 ∧ bitsW ((0x80000102 : W32).setWidth 64) 0 2 < 3 ∧ bitsW ((0x80000102 : W32).setWidth 64) 31 1 = 1) ∧
    bitsW ((0x80000103 : W32).setWidth 64) 0 2 = 3 ∧
    (bitsW ((0x1A01 : W32).setWidth 64) 0 6 ≠ 0 ∧ bitsW ((0x1A01 : W32).setWidth 64) 8 5 < 27 ∧
      bitsW ((0x1A01 : W32).setWidth 64) 17 1 = 0) ∧
    27 ≤ bitsW ((0x1B01 : W32).setWidth 64) 8 5 ∧
    (let s : State := { State.reset with sched := { copyPend := true } }
     s.sched.copyPend = true) ∧
    (let v : W32 := 0x8F010
     ownerValid (bitsW (v.setWidth 64) 0 8) = true ∧ bitsW (v.setWidth 64) 9 2 ≠ 3 ∧
     bitsW (v.setWidth 64) 12 8 / 72 = (63 : Fin 64).val / 32 ∧ State.reset.lineBusy 63 = false) ∧
    (let v : W32 := 0xFF010
     let s : State := { State.reset with sched := { runs := [runOf 3 63] } }
     ownerValid (bitsW (v.setWidth 64) 0 8) = true ∧ bitsW (v.setWidth 64) 9 2 ≠ 3 ∧ bitsW (v.setWidth 64) 12 8 = 0xFF ∧
     s.lineBusy 63 = true ∧ (s.reg Reg.evtLineCfg 63 ^^^
       Reg.evtLineCfg.plain (s.reg Reg.evtLineCfg 63) (v.setWidth 64) true) &&& 0xFF1FF ≠ 0) ∧
    (let v : W32 := 0x8008F
     ownerValid (bitsW (v.setWidth 64) 11 8) = true ∧ bitsW (v.setWidth 64) 9 2 ≠ 3 ∧
     bitsW (v.setWidth 64) 0 8 / 72 = (63 : Fin 64).val / 32) := by
  and_intros <;> decide +kernel

/-- States that meet the hypotheses of CellsActOnTheirInputs, clause by clause. -/
theorem wit_CellsActOnTheirInputs :
    ((cellOf 0x4).cellReset 327679 = false ∧ (cellOf 0x4).frozen (cellSector 327679) = false ∧
      cellMode ((cellOf 0x4).cellCfg 327679) = 0 ∧
      usedValid (cellUse ((cellOf 0x4).cellCfg 327679)) (some true) none none none = true ∧
      ((cellOf 0x4).cell 327679).y = none ∧ ((cellOf 0x4).cell 327679).z = none ∧
      usedValid (cellUse ((cellOf 0x4).cellCfg 327679)) none none none none = false) ∧
    ((cellOf 1).cellReset 327679 = false ∧ (cellOf 1).frozen (cellSector 327679) = false ∧
      cellMode ((cellOf 1).cellCfg 327679) = 1 ∧ bitsOf (cellParam ((cellOf 1).cellCfg 327679)) 0 3 = 0 ∧
      ((cellOf 1).cell 327679).y = none ∧ ((cellOf 1).cell 327679).z = none) ∧
    (∀ k ∈ [0, 1, 2, 3, 4, 5, 6], (cellOf (1 + k * 64)).cellReset 327679 = false ∧
      (cellOf (1 + k * 64)).frozen (cellSector 327679) = false ∧ cellMode ((cellOf (1 + k * 64)).cellCfg 327679) = 1 ∧
      bitsOf (cellParam ((cellOf (1 + k * 64)).cellCfg 327679)) 0 3 = k ∧
      ((cellOf (1 + k * 64)).cell 327679).y = none ∧ bitOf ((cellOf (1 + k * 64)).cell 327679).levels 0 ≠ true ∧
      ((cellOf (1 + k * 64)).cell 327679).since = 0) ∧
    (∀ k ∈ [0, 1, 2], (cellOf (2 + k * 64)).cellReset 327679 = false ∧ (cellOf (2 + k * 64)).frozen (cellSector 327679) = false ∧
      cellMode ((cellOf (2 + k * 64)).cellCfg 327679) = 2 ∧ (cellOf (2 + k * 64)).flag Fld.stwSecHoldWrHeld (cellSector 327679) = false ∧
      ((cellOf (2 + k * 64)).cell 327679).y = none ∧ ((cellOf (2 + k * 64)).cell 327679).z = none ∧
      bitsOf (cellParam ((cellOf (2 + k * 64)).cellCfg 327679)) 0 2 ≠ 3) ∧
    (let s := (cellOf 3).setCell 327679 { edges := 3 }
     s.cellReset 327679 = false ∧ s.frozen (cellSector 327679) = false ∧ cellMode (s.cellCfg 327679) = 3 ∧
      s.flag Fld.stwSecHoldWrHeld (cellSector 327679) = false ∧ 3 ≤ (s.cell 327679).edges ∧
      bitOf (cellParam (s.cellCfg 327679)) 18 = false ∧ bitsOf (cellParam (s.cellCfg 327679)) 19 3 ≠ 4) ∧
    ((cellOf 3).cellReset 327679 = false ∧ ((cellOf 3).cell 327679).edges < 3 ∧
      bitsOf (cellParam ((cellOf 3).cellCfg 327679)) 19 3 < 4) ∧
    (cellOf 0).frozen (cellSector 327679) = false := by
  and_intros <;> decide +kernel

/-- States that meet the hypotheses of FabricResetsAndArbitersAct, clause by clause. -/
theorem wit_FabricResetsAndArbitersAct :
    (let s := (cellOf 0).setFlag Fld.stwSecHoldUrst true 39
     s.flag Fld.stwSecHoldDark 39 = false ∧ s.flag Fld.stwSecHoldUrstAct 39 = !true) ∧
    ((State.reset.setFlag Fld.stwSecHoldDark true 79).setFlag Fld.stwSecHoldUrst true 79).flag Fld.stwSecHoldDark 79 = true ∧
    (let s := cellOf (2 ^ 46)
     s.cellReset 327679 = false ∧ (s.setCell 327679 { s.cell 327679 with ri := true }).cellReset 327679 = true) ∧
    (let s := (cellOf (2 ^ 46)).setCell 327679 { ri := true }
     s.cellReset 327679 = true ∧ (s.setCell 327679 { s.cell 327679 with ri := false }).cellReset 327679 = false) ∧
    ((cellOf 0).frozen (40959 / 1024) = false ∧ (cellOf 0).clusterReset 40959 = false ∧ Tab.get {} (cellOf 0).arbs 40959 = {}) ∧
    (let s : State := { cellOf 0 with arbs := [(40959, { req0 := true, gnt0 := true, last1 := false })] }
     s.clusterReset 40959 = false ∧ Tab.get {} s.arbs 40959 = { req0 := true, gnt0 := true, last1 := false }) ∧
    (let s : State := { cellOf 0 with arbs := [(40959, { req0 := true, req1 := true, gnt0 := true, last1 := false })] }
     s.clusterReset 40959 = false ∧ Tab.get {} s.arbs 40959 = { req0 := true, req1 := true, gnt0 := true, last1 := false }) := by
  and_intros <;> decide +kernel

/-- States that meet the hypotheses of SpineTakesTransactions, clause by clause. -/
theorem wit_SpineTakesTransactions :
    (sector79.mute 79 = false ∧ sector79.heldAt 79 = [] ∧ sector79.poolRoom 79 = true ∧
      sector79.flag Fld.stwSecHoldWrHeld 79 = false ∧ (sector79.portTags 79).contains (hdrTag 0xFF01) = false) ∧
    (hdrOp 0xFF01 = 1 ∧ hdrCheck .read 0xFF01 = Code.ok) ∧
    (hdrOp 0xFF72 = 2 ∧ hdrCheck .write 0xFF72 = Code.ok ∧ [0, 0, 0, 0, 0, 0, 0, (0 : W64)].length = hdrLen 0xFF72) ∧
    (hdrOp 0xFF73 = 3 ∧ hdrCheck .writeAck 0xFF73 = Code.ok ∧ [0, 0, 0, 0, 0, 0, 0, (0 : W64)].length = hdrLen 0xFF73) ∧
    (hdrOp 0xFF04 = 4 ∧ hdrCheck .add 0xFF04 = Code.ok) ∧ (hdrOp 0xFF05 = 5 ∧ hdrCheck .swap 0xFF05 = Code.ok) ∧
    (hdrOp 0x041F0006 = 6 ∧ hdrCheck .msg 0x041F0006 = Code.ok ∧ bitsW (0x041F0006 : W64) 16 16 < 0x420) ∧
    (hdrOp 0x81 = 1 ∧ hdrCheck .read 0x81 ≠ Code.ok) ∧
    (hdrOp 0x82 = 2 ∧ hdrCheck .write 0x82 ≠ Code.ok ∧ [(0 : W64)].length = hdrLen 0x82) ∧
    (let s := sector79.setFld Fld.stwSportStatInflight 64 79
     s.mute 79 = false ∧ s.heldAt 79 = [] ∧ s.poolRoom 79 = false) ∧
    (let s := sector79.setHeld 79 [1]
     s.heldAt 79 = [1] ∧ opOf 1 = some .read ∧ s.poolRoom 79 = true ∧ (s.portTags 79).contains (hdrTag 1) = false) := by
  and_intros <;> decide +kernel

/-- States that meet the hypotheses of SpineDeliversAndKeepsCount, clause by clause. -/
theorem wit_SpineDeliversAndKeepsCount :
    (let t := dmemTrans .read .dev []
     let s : State := { State.reset with trans := [t] }
     s.trans[0]? = some t ∧ translateTrans t s = (t, .ok .dev 0x13FFFF8) ∧ mustFollow s [] t = false ∧
     (present t true (s.dropTrans 0)).isSome = true ∧ targetOf t.addr = .dmem 95 0xFFF8 ∧ t.len = 1 ∧
     Tab.get 0 s.ecc (dmemBase 95 + 0xFFF8) = 0) ∧
    (let t := dmemTrans .read .virt []
     let s : State := { State.reset with trans := [t] }
     s.trans[0]? = some t ∧ translateTrans t s = (t, .fault Code.fabOff) ∧ mustFollow s [] t = false) ∧
    (let t := dmemTrans .write .dev [7]
     let s : State := { State.reset with trans := [t] }
     s.trans[0]? = some t ∧ mustFollow s [] t = false ∧ t.master < 176) ∧
    (let i : Inb := ⟨79, 255, true, 3, 9, 1, .port 3⟩
     i.sector = (79 : Fin 80).val ∧ i.tag = (255 : Byte).toNat ∧ i.wants = true) ∧
    State.reset.priv .pcie ≠ 0 := by

  and_intros <;> decide +kernel

/-- States that meet the hypotheses of BankAccessesAct, clause by clause. -/
theorem wit_BankAccessesAct :
    (bankState.bankLoading 1279 = false ∧ bankState.flag Fld.bnkStatQbound 1279 = false ∧
      1279 ∉ bankState.hea.moving ∧ bankState.fld Fld.bnkStatPstate 1279 = 0 ∧ bankState.frozen (1279 / 16) = false ∧
      bankState.bankOwned 1279 2 (1279 / 16) = true ∧ bankState.flag Fld.bnkStatDraining 1279 = false ∧
      bankState.flag Fld.stwSecHoldWrHeld (1279 / 16) = false ∧ bankState.badBytes 1279 511 = 0) ∧
    (hdrOp 0x1FFFF01 = 1 ∧ localCheck .read 0x1FFFF01 = Code.ok ∧ hdrLen 0x1FFFF01 = 1 ∧ bitsW (0x1FFFF01 : W64) 16 9 = 511) ∧
    (hdrOp 0x1F8FF72 = 2 ∧ localCheck .write 0x1F8FF72 = Code.ok ∧ [0, 0, 0, 0, 0, 0, 0, (0 : W64)].length = hdrLen 0x1F8FF72) ∧
    (hdrOp 0x1F8FF73 = 3 ∧ localCheck .writeAck 0x1F8FF73 = Code.ok ∧ [0, 0, 0, 0, 0, 0, 0, (0 : W64)].length = hdrLen 0x1F8FF73) ∧
    (hdrOp 0x1FFFF04 = 4 ∧ localCheck .add 0x1FFFF04 = Code.ok ∧ hdrOp 0x1FFFF05 = 5 ∧ localCheck .swap 0x1FFFF05 = Code.ok) ∧
    (sector79.frozen (1279 / 16) = false ∧ sector79.flag Fld.stwSecHoldWrHeld (1279 / 16) = false ∧
      sector79.bankOwned 1279 2 (1279 / 16) = false) ∧
    (State.reset.priv .pcie ≠ 0 ∧ targetOf (8 * (655359 : BitVec 22).toNat) = .bank 1279 511 ∧
      State.reset.bankLoading 1279 = false ∧ State.reset.flag Fld.bnkStatQbound 1279 = false ∧
      State.reset.flag Fld.bnkStatDraining 1279 = false ∧
      State.reset.fld Fld.bnkStatPstate 1279 = 0 ∧ State.reset.badBytes 1279 511 = 0 ∧
      State.reset.bankOwned 1279 (State.reset.ownerCode .pcie) 80 = true) ∧
    (targetOf (8 * (2609151 : BitVec 22).toNat) = .imem 95 0x7FF8 ∧ Tab.get 0 State.reset.ecc (imemBase 95 + 0x7FF8) = 0 ∧
      State.reset.fld Fld.engStatState 95 = 0 ∧ (State.reset.setFld Fld.engStatState 1 95).fld Fld.engStatState 95 ≠ 0) ∧
    (targetOf (8 * (2621439 : BitVec 22).toNat) = .dmem 95 0xFFF8 ∧ Tab.get 0 State.reset.ecc (dmemBase 95 + 0xFFF8) = 0) ∧
    (State.reset.setReg Reg.wtuLink 0 0).priv .pcie = 0 := by
  and_intros <;> decide +kernel

/-- States that meet the hypotheses of BankControlsAct, clause by clause. -/
theorem wit_BankControlsAct :
    (State.reset.priv .pcie = 2 ∧ (State.reset.setReg Reg.wtuLink 1 2).priv .jtag = 1) ∧
    (State.reset.flag Fld.bnkCtlRet 1279 = false ∧ State.reset.flag Fld.bnkStatQbound 1279 = false ∧
      (State.reset.setFlag Fld.bnkCtlRet true 1279).fld Fld.bnkStatPstate 1279 = 0) ∧
    (State.reset.setFlag Fld.bnkStatQbound true 1279).flag Fld.bnkStatQbound 1279 = true ∧
    (let s := (State.reset.setFlag Fld.bnkCtlRet true 1279).setFld Fld.bnkStatPstate 2 1279
     s.flag Fld.bnkCtlRet 1279 = true ∧ (s.setFlag Fld.bnkCtlRet false 1279).fld Fld.bnkStatPstate 1279 = 2) ∧
    (∀ k ∈ [1, 3, 4], (State.reset.setFld Fld.bnkStatPstate k 1279).flag Fld.bnkStatDraining 1279 = false ∧
      (State.reset.setFld Fld.bnkStatPstate k 1279).fld Fld.bnkStatPstate 1279 = k) := by
  and_intros <;> decide +kernel

/-- States that meet the hypotheses of QueueEndsPushAndPop, clause by clause. -/
theorem wit_QueueEndsPushAndPop :
    (let s := queState 0
     s.flag Fld.queCfgProdPort 159 = false ∧ (s.que 159).held = none ∧ s.frozen (queSector 159) = false ∧
     s.flag Fld.queCfgConsPort 159 = false ∧ (s.que 159).waiting = false ∧ s.queRuns 159 = true ∧ s.queHeld 159 = false) ∧
    (let s := queState 0x80B
     s.frozen (queSector 159) = false ∧ s.flag Fld.queCfgProdPort 159 = true ∧ s.fld Fld.queCfgProdOwner 159 = 2 ∧
     s.fld Fld.queStatState 159 = 1 ∧ s.flag Fld.stwSecHoldWrHeld (queSector 159) = false ∧ s.queHeld 159 = false ∧
     7 < s.queRoom 159 ∧ s.flag Fld.queCfgConsPort 159 = true ∧ s.fld Fld.queCfgConsOwner 159 = 2) ∧
    (let s := (queState 0x80B).setQue 159 { ends0 := List.replicate 512 false }
     s.queRoom 159 ≤ 0 ∧ s.flag Fld.queCfgProdPort 159 = true ∧ s.queHeld 159 = false) := by
  and_intros <;> decide +kernel

/-- States that meet the hypotheses of QueueControlsAct, clause by clause. -/
theorem wit_QueueControlsAct :
    (State.reset.priv .pcie ≠ 0 ∧ State.reset.fld Fld.queStatState 159 = 0 ∧ State.reset.flag Fld.queCtlEn 159 = false) ∧
    (State.reset.setFlag Fld.queCtlEn true 159).flag Fld.queCtlEn 159 = true ∧
    (∀ k ∈ [1, 2, 3], (State.reset.setFld Fld.queStatState k 159).fld Fld.queStatState 159 = k) ∧
    (queState 0).queRuns 159 = true ∧
    (1024 < bitsW (1025 : W32) 0 11 ∧ bitsW (0x10001 : W32) 0 11 ≠ 0 ∧ bitsW (0x10001 : W32) 0 11 ≤ bitsW (0x10001 : W32) 16 11 ∧
      bitsW (0x3FF0400 : W32) 16 11 < bitsW (0x3FF0400 : W32) 0 11 ∧ bitsW (0x3FF0400 : W32) 0 11 ≤ 1024) ∧
    (ownerValid (bitsW (0x80B : W32) 2 8) = true ∧ ownerValid (bitsW (0x80B : W32) 10 8) = true) := by
  and_intros <;> decide +kernel

/-- States that meet the hypotheses of ClockRootActs, clause by clause. -/
theorem wit_ClockRootActs :
    (let s := (State.reset.setPhase 1).setFlag Fld.clkStatRootLocked false
     s.phase = 1 ∧ (s.setPhase 2).clk.taken = false ∧ (s.setPhase 2).flag Fld.clkStatRootLocked = false) ∧
    (let s := ((State.reset.setPhase 2).setFlag Fld.clkStatRootLocked false)
     s.phase = 2 ∧ s.clk.taken = false ∧ s.flag Fld.clkStatRootLocked = false ∧
     ((s.setFlag Fld.clkStatRootLocked true).setFld Fld.ldrStatSteps 1).flag Fld.stwRstCauseKind = false) ∧
    (let s := (State.reset.setFlag Fld.clkStatRootLocked true).setFld Fld.clkSrcActive 3
     s.flag Fld.clkStatRootLocked = true ∧ s.fld Fld.clkSrcActive = (3 : Fin 4).val ∧ s.fld Fld.clkSrcActive ≠ (0 : Fin 4).val ∧
     s.clk.target ≠ some 0) ∧
    (let s := (State.reset.setFlag Fld.clkStatRootLocked true).setFld Fld.clkSrcActive 3
     let t := readyFlags 0 (let u := s.setFld Fld.clkMonRefCount 990
       if 990 < u.fld Fld.clkMonMinCount then u.setFld Fld.clkMonMinCount 990 else u)
     t.flag Fld.clkStatRootLocked = true ∧ t.fld Fld.clkSrcActive < 4 ∧ t.clk.bad = 0) ∧
    (let s : State := { (State.reset.setFlag Fld.clkStatRootLocked true).setFld Fld.clkSrcActive 0 with clk := { bad := 1 } }
     let t := readyFlags 0 (let u := s.setFld Fld.clkMonRefCount 1011
       if 1011 < u.fld Fld.clkMonMinCount then u.setFld Fld.clkMonMinCount 1011 else u)
     t.flag Fld.clkStatRootLocked = true ∧ t.fld Fld.clkSrcActive < 4 ∧ t.clk.bad ≠ 0) ∧
    (let s := State.reset.setFld Fld.clkSrcActive 5
     s.fld Fld.clkSrcActive = 5 ∧ s.flag Fld.clkStatIntoscFail = false) ∧
    (let s := ((State.reset.setFlag Fld.clkStatLoss true).setFlag Fld.clkSrcAutoRet true).setReady 0 true
     s.flag Fld.clkStatLoss = true ∧ s.flag Fld.clkSrcAutoRet = true ∧ s.flag Fld.clkSrcSwitching = false ∧
     s.srcReady (s.fld Fld.clkSrcSel) = true ∧ s.agreed = true) ∧
    (let s := (State.reset.setReady 3 true).setFld Fld.clkSrcActive 0
     s.priv .pcie = 2 ∧ s.agreed = true ∧ s.flag Fld.clkSrcSwitching = false ∧ (3 : Fin 4).val ≠ s.fld Fld.clkSrcActive ∧ s.srcReady 3 = true) ∧
    (let s : State := { State.reset with clk := { target := some 3 } }
     let t := ((s.setFld Fld.clkSrcActive 3).setFlag Fld.clkSrcSwitching false).setFlag Fld.clkStatSlewing false
     let t := (t.setFlag Fld.clkStatRootLocked true).setFlag Fld.clkStatHoldover false
     let t := dropClockAction { t with clk := { t.clk with target := none } }
     t.flag Fld.clkStatLoss = false) := by
  and_intros <;> decide +kernel

/-- States that meet the hypotheses of ClockGatesAndCrossingsAct, clause by clause. -/
theorem wit_ClockGatesAndCrossingsAct :
    (let s := State.reset.setFld Fld.clkGateState 1 14
     ((s.setFld Fld.clkGateMode 0 14).setFld Fld.clkGateIdle 255 14).fld Fld.clkGateState 14 = 1) ∧
    (let s := (State.reset.setFld Fld.clkGateMode 0 14).setFld Fld.clkGateState 0 14
     s.fld Fld.clkGateMode 14 = 0 ∧ ((s.setFld Fld.clkGateMode 1 14).setFld Fld.clkGateIdle 255 14).fld Fld.clkGateState 14 = 0 ∧
     s.gateStopped 14 = true ∧ ((s.setFld Fld.clkGateMode 2 14).setFld Fld.clkGateIdle 255 14).fld Fld.clkGateState 14 = 0) ∧
    (State.reset.setFld Fld.engStatState 1 95).gateStopped 11 = false ∧
    (∀ k ∈ [0, 1, 2, 3], (let s := (State.reset.setFld Fld.clkGateMode 1 11).setFld Fld.clkGateState k 11
     s.fld Fld.clkGateMode 11 = 1 ∧ s.fld Fld.clkGateState 11 = k)) ∧
    ((State.reset.setFld Fld.clkGateMode 1 11).setFld Fld.clkGateState 0 11).gateIdle 11 = true ∧
    (let s : State := { State.reset with clk := { reset := [26] } }
     (26 : Fin 27).val ∈ s.clk.reset) := by
  and_intros <;> decide +kernel

/-- States that meet the hypotheses of EnginesAndContextsStartAndStop, clause by clause. -/
theorem wit_EnginesAndContextsStartAndStop :
    (State.reset.priv .pcie ≠ 0 ∧ State.reset.flag Fld.engStatRetired 95 = false ∧
      (State.reset.setFlag Fld.engCtlEn true 95).fld Fld.engStatState 95 = 0) ∧
    ((State.reset.setFld Fld.engStatState 2 95).setFlag Fld.engCtlEn true 95).fld Fld.engStatState 95 = 2 ∧
    (State.reset.setFlag Fld.engStatRetired true 95).flag Fld.engStatRetired 95 = true ∧
    ((State.reset.setFld Fld.engStatState 1 95).setFlag Fld.engCtlEn false 95).fld Fld.engStatState 95 = 1 ∧
    (State.reset.setFld Fld.engStatState 2 95).engQuiet 95 = true ∧
    (∀ k ∈ [0, 1, 2, 3, 4, 5, 6, 7], (State.reset.setCtxState 95 3 k).ctxState 95 3 = k) ∧
    (engRun.fld Fld.engStatState 95 = 1 ∧ engRun.engClocked 95 = true ∧ engRun.curCtx 95 = 0 ∧ engRun.ctxState 95 0 = 2) ∧
    (let s := engRun.setCtxState 95 3 1
     s.fld Fld.engStatState 95 = 1 ∧ s.engClocked 95 = true ∧ s.curCtx 95 = 0 ∧ s.nextCtx 95 0 = some 3 ∧ s.ctxState 95 0 = 2) ∧
    (let s := (engRun.setCtxState 95 3 1).setCtxState 95 0 4
     s.fld Fld.engStatState 95 = 1 ∧ s.engClocked 95 = true ∧ s.curCtx 95 = 0 ∧ s.nextCtx 95 0 = some 3 ∧ s.ctxState 95 0 = 4) ∧
    (let s := engRun.setFlag Fld.engCtxStatFaultPend true 95 0
     s.ctxState 95 0 = 2 ∧ s.engClocked 95 = true ∧ s.flag Fld.engCtxStatFaultPend 95 0 = true ∧ (s.ctx 95 0).long = false) ∧
    (let s : State := { engRun.setFld Fld.engCtxCfgWdog 1 95 0 with dt := 2500 }
     s.fld Fld.engCtxCfgWdog 95 0 ≠ 0 ∧ s.ctxState 95 0 = 2 ∧ (s.ctx 95 0).wdogAt + s.fld Fld.engCtxCfgWdog 95 0 * 80000 ≤ s.now) ∧
    (State.reset.ctx 95 3).timer.toNat ≤ State.reset.dt.toNat ∧
    (let s := engRun.setCtx 95 0 { long := true }
     (s.ctx 95 (s.curCtx 95)).long = true ∧ s.ctxState 95 (s.curCtx 95) = 2 ∧ s.engClocked 95 = true) := by
  and_intros <;> decide +kernel

/-- States that meet the hypotheses of ContextRegistersAndChannelsAct, clause by clause. -/
theorem wit_ContextRegistersAndChannelsAct :
    (State.reset.priv .pcie = 2 ∧ State.reset.ctxIdle 95 3 = true ∧ engRun.ctxIdle 95 0 = false) ∧
    (let s := (State.reset.setReg Reg.wtuLink 1 2).setFlag Fld.wtuSpaceClass true 255
     s.priv .jtag = 1 ∧ s.flag Fld.wtuSpaceClass (bitsW (0x7F8 : W32) 3 8) = true ∧
     bitsW (0x7F8 : W32) 3 8 ≠ bitsW (s.reg Reg.engCtxCfg 95 3) 3 8) ∧
    (let t : Trans := { dmemTrans .msg .dev [7] with va := 0x2FF, addr := 0x2FF }
     let s : State := { State.reset with trans := [t] }
     s.trans[0]? = some t ∧ t.op = .msg ∧ t.va < 0x300 ∧ mustFollow s [] t = false ∧ ((s.dropTrans 0).eng (t.va / 8)).inq = [] ∧
     ((s.dropTrans 0).inCh (t.va / 8) (t.va % 8)).length < 4) ∧
    (let s := State.reset.setEng 95 { inq := [(7, 9)] }
     (s.eng 95).inq = [(7, 9)] ∧ (s.inCh 95 7).length < 4) ∧
    (let s := State.reset.setOutCh 95 7 [(0x104F, 9)]
     s.outCh 95 7 = [(0x104F, 9)] ∧ s.poolRoom (90 + 95 / 8) = true) ∧
    (let s := (State.reset.setFlag Fld.engCtxEvqEn true 95 3).setEng 95 { evqBuf := [(3, [])] }
     evqReady 95 s = some (3, []) ∧ (s.setEng 95 { s.eng 95 with evqBuf := [] }).flag Fld.engCtxEvqEn 95 3 = true) ∧
    (let a : Acc := ⟨7, false, 31, 1, none, true, 0, false, 0⟩
     let r : Rsp := ⟨101, 7, 0, true, [9], .context 95 3⟩
     let s : State := { State.reset.setCtx 95 3 { accs := [a], pend := [31] } with rsps := [r] }
     s.rsps[0]? = some r ∧ r.status = Code.ok ∧
     (({ s with rsps := dropAt s.rsps 0 } : State).release r.port).ctx 95 3 = { accs := [a], pend := [a.dst] }) := by
  and_intros <;> decide +kernel

/-- The words of these operations in operation 0, and in operation 1. -/
def intWords : List (Mn × Nat) := [
  (.add, opWord 1 5 0), (.sub, opWord 1 5 1), (.and_, opWord 1 5 2), (.or_, opWord 1 5 3), (.xor, opWord 1 5 4),
  (.shl, opWord 1 5 5), (.shr, opWord 1 5 6), (.sar, opWord 1 5 7), (.ror, opWord 1 5 8), (.slt, opWord 1 5 9),
  (.sltu, opWord 1 5 10), (.seq, opWord 1 5 11), (.min, opWord 1 5 12), (.max, opWord 1 5 13), (.minu, opWord 1 5 14),
  (.maxu, opWord 1 5 15), (.mul, opWord 1 5 16), (.mulh, opWord 1 5 17), (.mulhu, opWord 1 5 18), (.clz, opWord 1 0 23),
  (.popc, opWord 1 0 24), (.cmovnz, opWord 1 5 27), (.cmovz, opWord 1 5 28), (.addi, opWord 8 0 9), (.andi, opWord 9 0 9),
  (.ori, opWord 10 0 9), (.xori, opWord 11 0 9), (.slti, opWord 12 0 9), (.sltiu, opWord 13 0 9), (.shi, opWord 14 0 9),
  (.ldi, 0x0F * 2 ^ 26 + 3 * 2 ^ 21 + 9), (.insh, 0x10 * 2 ^ 26 + 3 * 2 ^ 21 + 3 * 2 ^ 19 + 9)]
/-- Each of them can issue in either place from a state where nothing is trapped. -/
theorem wit_IntegerOperationsWriteTheirResult :
    intWords.all issues0 = true ∧ intWords.all issues1 = true ∧
    ∀ p ∈ intWords, longMn p.1 = false ∧ ((kState p.2 0).ctx 95 0).trapen = 0 ∧ ((kState 0 p.2).ctx 95 0).trapen = 0 := by
  and_intros <;> decide +kernel

/-- The words of these operations. -/
def fixWords : List (Mn × Nat) := [
  (.addv, opWord 1 5 25), (.subv, opWord 1 5 26), (.qadd, opWord 2 5 0), (.qsub, opWord 2 5 1), (.qmul, opWord 2 5 2),
  (.qshl, opWord 2 5 4), (.qshr, opWord 2 5 5), (.qabs, opWord 2 0 6), (.qneg, opWord 2 0 7), (.qshli, opWord 2 0 0x7F),
  (.qshri, opWord 2 0 0x80), (.fadd, opWord 3 5 0), (.fsub, opWord 3 5 1), (.fmul, opWord 3 5 2), (.fma, opWord 3 5 5),
  (.fmin, opWord 3 5 6), (.fmax, opWord 3 5 7), (.fneg, opWord 3 0 8), (.fabs, opWord 3 0 9), (.feq, opWord 3 5 10),
  (.flt, opWord 3 5 11), (.fle, opWord 3 5 12), (.fround, opWord 3 0 13), (.fcvtFx, opWord 4 0 0x3F), (.fcvtXf, opWord 4 0 0x7F),
  (.fcvtFxu, opWord 4 0 0xBF)]
/-- Each of them can issue in either place from a state where nothing is trapped. -/
theorem wit_FixedAndFloatOperationsWriteTheirResult :
    fixWords.all issues0 = true ∧ fixWords.all issues1 = true ∧
    ∀ p ∈ fixWords, longMn p.1 = false ∧ ((kState p.2 0).ctx 95 0).trapen = 0 ∧ ((kState 0 p.2).ctx 95 0).trapen = 0 := by
  and_intros <;> decide +kernel

/-- The words of these operations. -/
def longWords : List (Mn × Nat) :=
  [(.div, opWord 1 5 19), (.divu, opWord 1 5 20), (.rem, opWord 1 5 21), (.remu, opWord 1 5 22), (.qdiv, opWord 2 5 3),
   (.fdiv, opWord 3 5 3), (.fsqrt, opWord 3 0 4)]
/-- Each of them can issue in either place, and end, from a state where nothing is trapped. -/
theorem wit_LongOperationsIssueAndComplete :
    longWords.all issues0 = true ∧ longWords.all issues1 = true ∧
    (∀ p ∈ longWords, (let s := (kState p.2 0).setCtx 95 0 { long := true }
      (s.ctx 95 0).long = true ∧ s.ctxState 95 0 = 2 ∧ s.engClocked 95 = true ∧ (s.ctx 95 0).trapen = 0 ∧
      bundleB s 95 0 p.1 .nop (BitVec.ofNat 32 p.2) 0 = true)) := by
  and_intros <;> decide +kernel

/-- A bundle of an operation of integer FN `fn` beside a NOP, about to end, gRA and gRB as given. -/
def divEnds (fn : Nat) (a b : W64) : State :=
  (kState (opWord 1 5 fn) 0).setCtx 95 0 { g := Tab.set 0 (Tab.set 0 [] 4 a) 5 b, long := true }
/-- What `State.Bundle` asks of it, and the rest of what DivisionCornersFollowTheirRule does. -/
def divOk (p : Mn × Nat × W64 × W64) : Bool :=
  let s := divEnds p.2.1 p.2.2.1 p.2.2.2
  bundleB s 95 0 p.1 .nop (BitVec.ofNat 32 (opWord 1 5 p.2.1)) 0 &&
  (s.ctx 95 0).long && s.ctxState 95 0 == 2 && s.engClocked 95 && (s.ctx 95 0).trapen == 0 && Tab.wf {} s.ctxs &&
  Tab.wf 0 (s.ctx 95 0).g && s.g 95 0 4 == p.2.2.1 && s.g 95 0 5 == p.2.2.2
/-- States that meet the hypotheses of DivisionCornersFollowTheirRule: a zero divisor for each, and −2⁶³ by −1. -/
theorem wit_DivisionCornersFollowTheirRule :
    ([(.div, 19, 7, 0), (.divu, 20, 7, 0), (.rem, 21, 7, 0), (.remu, 22, 7, 0), (.div, 19, 0x8000000000000000, -1),
      (.rem, 21, 0x8000000000000000, -1)] : List (Mn × Nat × W64 × W64)).all divOk = true := by
  decide +kernel

/-- The words of these operations: a byte load and store, a word load and store, and eight words. -/
def localWords : List (Mn × Nat) :=
  [(.ldl, opWord 0x14 0 9), (.stl, opWord 0x15 0 9), (.ldl, opWord 0x14 0 0xC008), (.stl, opWord 0x15 0 0xC008),
   (.ldml, opWord 0x16 0 0xE008), (.stml, opWord 0x17 0 0xE008), (.ldl, opWord 0x14 0 0xC009)]
/-- Each can issue; the ranges 9 of a byte, 8 of a word and 8 of eight words are aligned and inside DMEM, 9 of a word is not. -/
theorem wit_LocalMemoryOperationsAct :
    localWords.all issues0 = true ∧
    (∀ p ∈ localWords, let s := kState p.2 0
      longMn .nop = false ∧ (aluOf 95 0 .nop 0 s).2 &&& (s.ctx 95 0).trapen = 0 ∧ Tab.get 0 s.ecc (dmemBase 95 + 8) = 0 ∧
      (s.g 95 0 (opRa (BitVec.ofNat 32 p.2)) + BitVec.ofInt 64 (opOff (BitVec.ofNat 32 p.2))).toNat =
        (if p.2 % 2 = 1 then 9 else 8)) ∧
    (9 % 2 ^ (opSz (BitVec.ofNat 32 (opWord 0x14 0 9)) / 2) = 0 ∧ 8 % 2 ^ (opSz (BitVec.ofNat 32 (opWord 0x14 0 0xC008)) / 2) = 0 ∧
      9 % 2 ^ (opSz (BitVec.ofNat 32 (opWord 0x14 0 0xC009)) / 2) ≠ 0 ∧
      (∀ i, i < opN (BitVec.ofNat 32 (opWord 0x16 0 0xE008)) → Tab.get 0 State.reset.ecc (dmemBase 95 + (8 + 8 * i)) = 0)) := by
  and_intros <;> decide +kernel

/-- A leaf that maps the first page of space 0 for reads and writes, cached for engine 95. -/
def leaf0 : Tlb := ⟨95, 0, 0, 12, 0, true, true, true, true⟩
/-- `kState` with that leaf, space 0 on, and gRA, gRB, gRD as given. -/
def xState (w0 : Nat) (a b d : W64) : State :=
  let s := (kState w0 0).setFlag Fld.wtuSpaceEn true 0
  { s with
    wtu := { s.wtu with cache := [leaf0] }
    ctxs := Tab.set {} s.ctxs (4 * 95) { g := Tab.set 0 (Tab.set 0 (Tab.set 0 [] 4 a) 5 b) 3 d } }
/-- Does the word issue from `xState`, with room and a place free? -/
def xOk (p : Mn × Nat × W64) : Bool :=
  let s := xState p.2.1 8 16 p.2.2
  issuesB s 95 0 p.1 .nop (BitVec.ofNat 32 p.2.1) 0 && s.poolRoom (90 + 95 / 8) && (s.ctx 95 0).accs == [] &&
    (s.ctx 95 0).trapen == 0 && (s.ctx 95 0).copied.isNone && Tab.get 0 s.ecc (dmemBase 95 + 8) == 0
/-- Is the access of an operation at byte 8 translated there? -/
def xlOk (op : TOp) : Bool :=
  (xState 0 8 16 1).translate (engineCaches 95) 0 0 op 8 == .ok .dev 8
/-- States that meet the hypotheses of TranslatedAccessesIssue, clause by clause. -/
theorem wit_TranslatedAccessesIssue :
    ([(.ld, opWord 0x18 0 0, 1), (.ld, opWord 0x18 0 0x8000, 1), (.st, opWord 0x19 0 0, 1), (.st, opWord 0x19 0 0x8000, 1),
      (.ldm, opWord 0x1A 0 0xC000, 1), (.stm, opWord 0x1B 0 0xC000, 1), (.atomAdd, opWord 0x1C 5 0, 1),
      (.atomSwap, opWord 0x1C 5 1, 1), (.atomAdd, opWord 0x1C 5 4, 1), (.atomSwap, opWord 0x1C 5 5, 1), (.mcpy, opWord 0x1D 5 0, 0),
      (.mcpy, opWord 0x1D 5 0, 7), (.mcpy, opWord 0x1D 5 3, 7)] : List (Mn × Nat × W64)).all xOk = true ∧
    [TOp.read, .write, .writeAck, .add, .swap].all xlOk = true ∧
    ((xState 0 8 16 1).fld Fld.engCtxCfgAsid 95 0 = 0 ∧ (xState 0 8 16 1).fld Fld.engCtxCfgPriv 95 0 = 0 ∧
      (xState 0 8 16 1).g 95 0 4 = 8 ∧ (xState 0 8 16 1).g 95 0 5 = 16 ∧ (xState 0 8 16 7).g 95 0 3 = 7) := by
  and_intros <;> decide +kernel

/-- A branch word: an offset in bundles from a PC of 0, gRA 3 and gRB 4. -/
def brWord (maj imm : Nat) : Nat := maj * 2 ^ 26 + 3 * 2 ^ 21 + 4 * 2 ^ 16 + imm
/-- `kState` with g3 and g4 as given. -/
def gState (w0 : Nat) (a b : W64) : State :=
  let s := kState w0 0
  { s with ctxs := Tab.set {} s.ctxs (4 * 95) { g := Tab.set 0 (Tab.set 0 [] 3 a) 4 b } }
/-- Does the word issue from `gState`, with nothing trapped? -/
def gOk (p : Mn × Nat × W64 × W64) : Bool :=
  let s := gState p.2.1 p.2.2.1 p.2.2.2
  issuesB s 95 0 p.1 .nop (BitVec.ofNat 32 p.2.1) 0 && (s.ctx 95 0).trapen == 0
/-- Branches to 0, to the last bundle of IMEM, and outside it; of each condition both outcomes; calls and jumps likewise. -/
theorem wit_ControlFlowMovesThePc :
    ([(.br, 0x20 * 2 ^ 26 + 0xFFF, 0, 0), (.br, 0x20 * 2 ^ 26, 0, 0), (.br, 0x20 * 2 ^ 26 + 0x1000, 0, 0),
      (.beq, brWord 0x21 1, 5, 5), (.beq, brWord 0x21 1, 5, 6), (.bne, brWord 0x22 1, 5, 6), (.bne, brWord 0x22 1, 5, 5),
      (.blt, brWord 0x23 1, -1, 0), (.blt, brWord 0x23 1, 0, -1), (.bge, brWord 0x24 1, 0, -1), (.bge, brWord 0x24 1, -1, 0),
      (.bltu, brWord 0x25 1, 0, -1), (.bltu, brWord 0x25 1, -1, 0), (.bgeu, brWord 0x26 1, -1, 0), (.bgeu, brWord 0x26 1, 0, -1),
      (.bz, 0x27 * 2 ^ 26 + 3 * 2 ^ 21 + 1, 0, 0), (.bz, 0x27 * 2 ^ 26 + 3 * 2 ^ 21 + 1, 1, 0),
      (.bnz, 0x28 * 2 ^ 26 + 3 * 2 ^ 21 + 1, 1, 0), (.bnz, 0x28 * 2 ^ 26 + 3 * 2 ^ 21 + 1, 0, 0),
      (.call, 0x29 * 2 ^ 26 + 31 * 2 ^ 21 + 0xFFF, 0, 0), (.call, 0x29 * 2 ^ 26 + 31 * 2 ^ 21 + 0xFFFF, 0, 0),
      (.jr, 0x2A * 2 ^ 26 + 4 * 2 ^ 16, 0, 0x7FF8), (.jr, opWord 0x2A 0 1, 0, 0), (.jr, opWord 0x2A 0 1, 0, 0x8000),
      (.jr, opWord 0x2A 0 1, 0, 4)] : List (Mn × Nat × W64 × W64)).all gOk = true ∧
    (aluOf 95 0 .nop 0 State.reset).2 = 0 ∧ (gState (brWord 0x21 1) 5 6).pc 95 0 = 0 ∧ (gState (brWord 0x21 1) 5 6).g 95 0 3 = 5 ∧
    (gState (brWord 0x21 1) 5 6).g 95 0 4 = 6 ∧
    8 * opSImm (BitVec.ofNat 32 (0x20 * 2 ^ 26 + 0xFFF)) = 0x7FF8 ∧ 8 * opSImm (BitVec.ofNat 32 (0x20 * 2 ^ 26 + 0x1000)) = 0x8000 ∧
    8 * opSImm (BitVec.ofNat 32 (0x29 * 2 ^ 26 + 31 * 2 ^ 21 + 0xFFFF)) = -8 := by
  and_intros <;> decide +kernel

/-- A wait's word: its condition in RB, and the low bits; and the other words of the channels. -/
def waitWord (rb fn ra : Nat) : Nat := 0x30 * 2 ^ 26 + ra * 2 ^ 16 + rb * 2 ^ 11 + fn
/-- Engine 95 about to issue a word, with a token in input channel 7 and output channel 7 bound or not. -/
def chState (w0 : Nat) (held : Nat) (bound : Bool) : State :=
  let s := (kState w0 0).setFlag Fld.engOchDestBound bound 95 7
  s.setEng 95 { s.eng 95 with ich := [(7, [0x1234])], och := if held = 0 then [] else [(7, List.replicate held (0, 1))] }
/-- Does the word issue there? -/
def chOk (p : Mn × Nat × Nat × Bool) : Bool :=
  issuesB (chState p.2.1 p.2.2.1 p.2.2.2) 95 0 p.1 .nop (BitVec.ofNat 32 p.2.1) 0
/-- Each word issues, with its condition met and not met; the channels hold what the clauses ask. -/
theorem wit_WaitsAndChannelsAct :
    ([(.waitToken, waitWord 1 7 0, 0, true), (.waitRoom, waitWord 2 7 0, 4, true), (.waitRoom, waitWord 2 7 0, 3, true),
      (.waitWake, waitWord 3 0 0, 0, true), (.waitCompletion, waitWord 4 0 0, 0, true), (.waitTimer, waitWord 5 0 0, 0, true),
      (.waitXfer, waitWord 6 0 0, 0, true), (.recv, 0x31 * 2 ^ 26 + 3 * 2 ^ 21 + 7, 0, true),
      (.recv, 0x31 * 2 ^ 26 + 3 * 2 ^ 21 + 6, 0, true), (.send, opWord 0x32 0 7, 0, false), (.send, opWord 0x32 0 7, 3, true),
      (.send, opWord 0x32 0 7, 4, true), (.send, opWord 0x32 0 15, 4, true), (.chav, 0x33 * 2 ^ 26 + 3 * 2 ^ 21, 0, true)]
      : List (Mn × Nat × Nat × Bool)).all chOk = true ∧
    (aluOf 95 0 .nop 0 State.reset).2 = 0 ∧ (chState 0 4 true).inCh 95 7 = [0x1234] ∧ (chState 0 4 true).inCh 95 6 = [] ∧
    ((chState 0 4 true).outCh 95 7).length = 4 ∧ ((chState 0 3 true).outCh 95 7).length = 3 ∧
    (chState 0 4 true).flag Fld.engOchDestBound 95 7 = true ∧ (chState 0 4 false).flag Fld.engOchDestBound 95 7 = false := by
  and_intros <;> decide +kernel

/-- Engine 95's context 0 at Supervisor privilege, about to issue a word, with gRA and the registers after it set and a transfer in a
state. -/
def svState (w0 : Nat) (a : W64) (st : Nat) (wake : Bool) : State :=
  let s := ((kState w0 0).setFlag Fld.engCtxCfgPriv true 95 0).setFlag Fld.engCtxStatWakePend wake 95 0
  { s with ctxs := Tab.set {} s.ctxs (4 * 95) { xfer := { st := st }, g := Tab.set 0 (Tab.set 0 (Tab.set 0 [] 4 a) 5 16) 6 8 } }
/-- Does the word issue there, with the flags of nothing trapped? -/
def svOk (p : Mn × Nat × W64 × Nat × Bool) : Bool :=
  let s := svState p.2.1 p.2.2.1 p.2.2.2.1 p.2.2.2.2
  issuesB s 95 0 p.1 .nop (BitVec.ofNat 32 p.2.1) 0 && (s.ctx 95 0).trapen == 0
/-- Each word issues; the forms of XFER START with an aligned and a misaligned register, with none and one under way. -/
theorem wit_EngineServicesAct :
    ([(.snap, opWord 0x34 0 3, 0, 0, false), (.tbw, opWord 0x35 5 0, 0, 0, false), (.evset, opWord 0x36 0 0, 0, 0, false),
      (.evcan, opWord 0x37 0 0, 0, 0, false), (.tkwake, 0x38 * 2 ^ 26 + 3 * 2 ^ 21, 0, 0, true),
      (.tkwake, 0x38 * 2 ^ 26 + 3 * 2 ^ 21, 0, 0, false), (.evqHead, 0x39 * 2 ^ 26 + 3 * 2 ^ 21, 0, 0, false),
      (.evqPop, 0x39 * 2 ^ 26 + 1, 0, 0, false), (.dacw, opWord 0x3A 0 15, 7, 0, false),
      (.xferStart, 0x3B * 2 ^ 26 + 4 * 2 ^ 16, 8, 0, false), (.xferStart, 0x3B * 2 ^ 26 + 4 * 2 ^ 16, 8, 1, false),
      (.xferStart, 0x3B * 2 ^ 26 + 4 * 2 ^ 16, 9, 0, false), (.xferResume, 0x3B * 2 ^ 26 + 1, 0, 2, false),
      (.xferAbort, 0x3B * 2 ^ 26 + 2, 0, 1, false), (.xferStatus, 0x3B * 2 ^ 26 + 3 * 2 ^ 21 + 3, 0, 0, false),
      (.rddt, 0x3C * 2 ^ 26 + 3 * 2 ^ 21, 0, 0, false), (.csrRead, opWord 0x3D 8 0, 0, 0, false),
      (.csrWrite, opWord 0x3D 9 1, 3, 0, false), (.csrSet, opWord 0x3D 6 2, 3, 0, false), (.csrClear, opWord 0x3D 1 3, 3, 0, false),
      (.pinr, 0x3F * 2 ^ 26 + 3 * 2 ^ 21 + 8, 0, 0, false)] : List (Mn × Nat × W64 × Nat × Bool)).all svOk = true ∧
    (aluOf 95 0 .nop 0 State.reset).2 = 0 ∧
    (opRa (BitVec.ofNat 32 (0x3B * 2 ^ 26 + 4 * 2 ^ 16)) = 4 ∧ (svState 0 9 0 false).g 95 0 4 = 9 ∧ (svState 0 8 0 false).g 95 0 4 = 8 ∧
      (svState 0 8 0 false).g 95 0 5 = 16 ∧ (svState 0 8 0 false).g 95 0 6 = 8) ∧
    (((svState 0 8 2 false).ctx 95 0).xfer.st = 2 ∧ (svState 0 8 2 true).flag Fld.engCtxStatWakePend 95 0 = true) := by
  and_intros <;> decide +kernel

/-- Engine 95's context 0 about to issue a word at Supervisor privilege, in the handler or not, context 3 READY with a priority. -/
def syState (w0 : Nat) (inHandler : Bool) (prio : Nat) (posted epc : Nat) : State :=
  let s := ((kState w0 0).setFlag Fld.engCtxCfgPriv true 95 0).setFlag Fld.engCtxStatInHandler inHandler 95 0
  let s := (s.setCtxState 95 3 1).setFld Fld.engCtxCfgPrio prio 95 3
  { s with ctxs := Tab.set {} s.ctxs (4 * 95) { posted := posted, epc := epc, g := Tab.set 0 [] 4 3 } }
/-- Does the word issue there? -/
def syOk (p : Mn × Nat × Bool × Nat × Nat × Nat) : Bool :=
  let s := syState p.2.1 p.2.2.1 p.2.2.2.1 p.2.2.2.2.1 p.2.2.2.2.2
  issuesB s 95 0 p.1 .nop (BitVec.ofNat 32 p.2.1) 0 && (s.ctx 95 0).trapen == 0
/-- Each word issues, with a fence met and not met, an equal and another priority READY, the handler left for the last bundle, and
another context named and its own. -/
theorem wit_SystemOperationsAct :
    ([(.nop, 0, false, 0, 0, 0), (.fence, 0x3E * 2 ^ 26, false, 0, 0, 0), (.fence, 0x3E * 2 ^ 26, false, 0, 1, 0),
      (.yield, 0x3E * 2 ^ 26 + 1, false, 0, 0, 0), (.yield, 0x3E * 2 ^ 26 + 1, false, 3, 0, 0),
      (.halt, 0x3E * 2 ^ 26 + 2, false, 0, 0, 0), (.rfh, 0x3E * 2 ^ 26 + 3, true, 0, 0, 0x7FF8),
      (.ctxstart, 0x3E * 2 ^ 26 + 4 * 2 ^ 16 + 4, false, 0, 0, 0), (.ctxstop, 0x3E * 2 ^ 26 + 4 * 2 ^ 16 + 5, false, 0, 0, 0),
      (.ctxstop, 0x3E * 2 ^ 26 + 5, false, 0, 0, 0)] : List (Mn × Nat × Bool × Nat × Nat × Nat)).all syOk = true ∧
    (aluOf 95 0 .nop 0 State.reset).2 = 0 ∧ ((syState 0 false 0 0 0).ctx 95 0).accs = [] ∧
    (syState 0 false 0 0 0).ctxState 95 3 = 1 ∧ (syState 0 false 0 0 0).fld Fld.engCtxCfgPrio 95 3 = (syState 0 false 0 0 0).fld Fld.engCtxCfgPrio 95 0 ∧
    (syState 0 false 3 0 0).fld Fld.engCtxCfgPrio 95 3 ≠ (syState 0 false 3 0 0).fld Fld.engCtxCfgPrio 95 0 ∧
    (∀ e, e < 4 → e ≠ 0 → e ≠ 3 → (syState 0 false 3 0 0).ctxState 95 e ≠ 1) := by
  and_intros <;> decide +kernel

/-- Engine 95's context 0 with g3 the greatest signed number and g4 one, and some traps enabled. -/
def trState (w0 : Nat) (trapen : Nat) (long : Bool) : State :=
  let s := kState w0 0
  { s with ctxs := Tab.set {} s.ctxs (4 * 95) { trapen := trapen, long := long, g := Tab.set 0 (Tab.set 0 [] 4 0x7FFFFFFFFFFFFFFF) 5 1 } }
/-- ADDV of the greatest number and one issues, would raise IOV, and is trapped or not; a division by zero's end likewise. -/
theorem wit_TrappedFlagsFaultTheBundle :
    (∀ e ∈ [0, 255],
      issuesB (trState (opWord 1 5 25) e false) 95 0 .addv .nop (BitVec.ofNat 32 (opWord 1 5 25)) 0 = true ∧
      bundleB (trState (opWord 1 6 19) e true) 95 0 .div .nop (BitVec.ofNat 32 (opWord 1 6 19)) 0 = true) ∧
    Tab.wf {} (trState (opWord 1 5 25) 255 false).ctxs = true ∧
    (aluOf 95 0 .addv (BitVec.ofNat 32 (opWord 1 5 25)) (trState (opWord 1 5 25) 255 false)).2 &&& 255 ≠ 0 ∧
    (aluOf 95 0 .div (BitVec.ofNat 32 (opWord 1 6 19)) (trState (opWord 1 6 19) 255 true)).2 &&& 255 ≠ 0 ∧
    ((trState 0 255 true).ctx 95 0).trapen = 255 ∧ ((trState 0 255 true).ctx 95 0).long = true ∧
    (trState 0 255 true).ctxState 95 0 = 2 ∧ (trState 0 255 true).engClocked 95 = true := by
  and_intros <;> decide +kernel

/-- A state whose port holds a half-word of the narrow target at 0x4 of page 0's registers, or has its shadow. -/
def portState (held : Option (Bool × Nat × List Nat)) (shadow : Option (Bool × Nat × W64)) : State :=
  { State.reset with php := { held := held, shadow := shadow } }
/-- Addresses 0, 1 and 2047 of page 0: the lowest half-word of a target, and the last of two; page 15 reaches a bank. -/
theorem wit_ParallelHostPortMovesWords :
    (let s := portState (some (false, 0x1000000, [5])) (some (false, 0x1000000, 7))
     s.phpAddr 0 = (false, 0x1000000) ∧ phpTarget false 0x1000000 = (0x1000000, 2) ∧ s.phpAddr 1 = (false, 0x1000002) ∧
     phpTarget false 0x1000002 = (0x1000000, 2) ∧ s.php.held = some (false, 0x1000000, [5]) ∧
     s.php.shadow = some (false, 0x1000000, 7) ∧ s.phpAddr 2047 = (false, 0x1000FFE) ∧ phpTarget false 0x1000FFE = (0x1000FFC, 2)) ∧
    (let s := (portState (some (true, 0, [5])) none).setFlag Fld.rngPhpPageBar true 15
     s.phpAddr (15 * 2048 + 1) = (true, 2) ∧ phpTarget true 2 = (0, 4) ∧ (2 - 0) / 2 = [5].length ∧ 1 + 1 < 4 ∧
     s.php.shadow = none) ∧
    (bitsW (4096 : W32) 13 1 = 0 ∧ 4095 < bitsW (4096 : W32) 0 13 ∧ bitsW (4095 : W32) 0 13 ≤ 4095) ∧ (15 : Fin 16) ≠ 0 := by
  and_intros <;> decide +kernel

/-- A state with the link up and walk 15 at a level. -/
def walkState (level : Nat) : State :=
  let x : Walk := ⟨.context 95 0, [95], 175, 0, 0, false, 0x1000, level, 0x2000, false, false, false⟩
  let s := State.reset.setFlag Fld.rngLinkUp true
  { s with wtu := { s.wtu with walks := List.replicate 16 x } }
/-- A walk at level 3 meets a table entry, no entry; at level 0 a leaf; GO can be set and end; the last space takes a root. -/
theorem wit_TranslationWalksAndInvalidationAct :
    ((walkState 3).wtu.walks[15]?.map (fun x => (x.dev, x.level)) = some (false, 3) ∧ (walkState 3).flag Fld.rngLinkUp = true ∧
      (walkState 3).sys.retraining = false ∧ upperEntry 3 0x5001 = .table 0x5000 false ∧ upperEntry 3 0 = .fault Code.notMapped ∧
      lowestEntry 0 0x700F = .leaf 12 0x7000 true true false false) ∧
    State.reset.priv .pcie = 2 ∧ State.reset.flag Fld.wtuInvGo = false ∧
    ((State.reset.setFlag Fld.wtuInvGo true).flag Fld.wtuInvGo = true ∧ (State.reset.setFlag Fld.wtuInvGo true).wtu.walks = [] ∧
      (State.reset.setFlag Fld.wtuInvGo true).trans = []) ∧
    (let new := fun v => Reg.wtuSpace.plain (State.reset.reg Reg.wtuSpace 255) v true
     bitsW (new 0x4FF003) 12 40 * 4096 < 0x500000 ∧ bitsW (new 0x500001) 1 1 = 0) := by
  and_intros <;> decide +kernel

/-- From 0 to 128 in one step with one change left; back to a lower value, and to 129. -/
theorem wit_SecurityVersionOnlyRises :
    State.reset.priv .pcie = 2 ∧ (State.reset.setFld Fld.wtuSvnRemain 1).flag Fld.wtuLifeStatLifeBusy = false ∧
    (State.reset.setFld Fld.wtuSvnRemain 1).fld Fld.wtuSvnSvn < bitsW (128 : W32) 0 8 ∧ bitsW (128 : W32) 0 8 ≤ 128 ∧
    (State.reset.setFld Fld.wtuSvnRemain 1).fld Fld.wtuSvnRemain ≠ 0 ∧ 128 < bitsW (129 : W32) 0 8 ∧
    bitsW (126 : W32) 0 8 < (State.reset.setFld Fld.wtuSvnSvn 127).fld Fld.wtuSvnSvn ∧
    (State.reset.setFld Fld.wtuSvnSvn 127).priv .pcie = 2 := by
  and_intros <;> decide +kernel

/-- The states of each clause: at reset every link holds Warden privilege; with one alone; a debug port disabled; a slot with its key. -/
theorem wit_LinkAndLifetimeWritesAct :
    (let s := State.reset
     s.priv .pcie = 2 ∧ s.flag Fld.wtuLifeStatLifeBusy = false ∧ s.flag Fld.wtuDebugDisable = false ∧ s.flag Fld.wtuDebugRemain = true ∧
     s.fld Fld.wtuLinkPriv 0 = 2 ∧ s.fld Fld.wtuLinkPriv 1 = 2 ∧ s.flag Fld.wtuKeyCtlSet 3 = false ∧ s.fld Fld.wtuBootLockLock = 0 ∧
     s.fld Fld.wtuBootLockRemain ≠ 0 ∧ bitsW (4 : W32) 0 3 ≤ 4 ∧ bitsW (4 : W32) 0 3 ≠ s.fld Fld.wtuBootLockLock) ∧
    (bitsW (3 : W32) 0 2 = 3 ∧ bitsW (1 : W32) 0 2 ≠ 3 ∧ bitsW (1 : W32) 0 2 ≠ 2) ∧
    (let s := (State.reset.setFld Fld.wtuLinkPriv 0 1).setFld Fld.wtuLinkPriv 0 2
     s.priv .pcie = 2 ∧ ∀ k, k < 3 → k ≠ 0 → s.fld Fld.wtuLinkPriv k ≠ 2) ∧
    ((State.reset.setFlag Fld.wtuDebugDisable true).flag Fld.wtuDebugDisable = true ∧
      (State.reset.setFlag Fld.wtuDebugDisable true).priv .php = 2) ∧
    (let s := State.reset.setFlag Fld.wtuKeyCtlSet true 3
     let s := { s with wtu := { s.wtu with keys := [(3, List.replicate 8 0)] } }
     s.flag Fld.wtuKeyCtlSet 3 = true ∧ s.slotKey 3 = s.stagedKey) := by
  and_intros <;> decide +kernel

/-- Ring 63 running as a command ring of Warden privilege, with one fetched descriptor. -/
def descState (ext : Bool) (d : List W64) : State :=
  let s := ((State.reset.setFld Fld.rngStatState 1 63).setFlag Fld.rngCfgFormat ext 63).setFld Fld.rngOwnPriv 2 63
  s.setRing 63 { s.ring 63 with fetched := [(5, d)] }
/-- Do such a ring's row and checks take it? -/
def descOk (p : Bool × List W64) : Bool :=
  let s := descState p.1 p.2
  let t := showServed 63 ((s.setRing 63 { s.ring 63 with fetched := [] }).setJob 63 { on := true, desc := p.2, index := 5 })
  Tab.wf {} s.jobs && !(s.job 63).on && (s.ring 63).fetched == [(5, p.2)] && s.fld Fld.rngStatState 63 == 1 && s.ringsGo &&
    (s.ring 63).record.isNone && !bitOf (descFlags p.2) 0 && descCheck 63 p.2 t == Code.ok && t.extended 63 == p.1
/-- The first word of a Classic descriptor: its operation, and the bits from bit 16 on. -/
def d0 (op hi : Nat) : W64 := BitVec.ofNat 64 (op + hi * 2 ^ 16)
/-- One descriptor of each row passes its checks, a MSG to the last engine channel and one to a target that does not exist; one is
refused; an engine's transfer is done. -/
theorem wit_DescriptorsStart :
    ([(false, [d0 0 0, 0]), (false, [d0 1 8, 16]), (false, [d0 2 0x2FF, 7]), (false, [d0 2 0x300, 7]), (false, [d0 2 0x41F, 7]),
      (false, [d0 3 (8 * 2 ^ 32), 7]), (false, [d0 3 0, 7]), (true, [d0 4 0, 1, 2, 3]), (false, [d0 5 32, 8]), (false, [d0 6 4095, 0]),
      (false, [d0 7 0, 8]), (false, [d0 8 8, 8]), (false, [d0 9 64, 0])] : List (Bool × List W64)).all descOk = true ∧
    (descArg [d0 2 0x2FF, 7] false 0 = 0x2FF ∧ descArg [d0 2 0x300, 7] false 0 = 0x300 ∧ bitOf (descArg [d0 3 (8 * 2 ^ 32), 7] false 0) 19 = true ∧
      bitOf (descArg [d0 3 0, 7] false 0) 19 = false) ∧
    (let d := [d0 9 1, 0]
     let s := descState false d
     let t := showServed 63 ((s.setRing 63 { s.ring 63 with fetched := [] }).setJob 63 { on := true, desc := d, index := 5 })
     descRow d = 9 ∧ descCheck 63 d t ≠ Code.ok) ∧
    (let s := State.reset.setJob 63 { on := true, desc := [d0 1 8, 16] }
     (s.job 63).on = true ∧ descOp (s.job 63).desc = 1) ∧
    (let s := (State.reset.setJob (64 + 4 * 95 + 3) { on := true, len := 8, done := 8 }).setCtx 95 3 { xfer := { st := 1 } }
     (s.job 447).on = true ∧ (s.ctx 95 3).xfer.st = 1 ∧ (s.job 447).await = false ∧ (s.job 447).put = false ∧
     (s.job 447).len ≤ (s.job 447).done) := by
  and_intros <;> decide +kernel

/-- Ring 63 running, with space 0 on, the link up or not, and host index 5. -/
def fetchState (link : Bool) (leaf : Bool) : State :=
  let s := ((State.reset.setFld Fld.rngStatState 1 63).setFld Fld.rngIdxHostIdx 5 63).setFlag Fld.rngLinkUp link
  let s := (s.setFlag Fld.wtuSpaceEn leaf 0).setFld Fld.rngBaseAddr 64 63
  { s with wtu := { s.wtu with cache := [⟨108, 0, 0, 12, 0x5000, true, true, true, false⟩] } }
/-- A host read, an inbound access and a response on their ways, asked by someone. -/
def askState (who : Asker) : State :=
  let s := State.reset
  { s with
    hostOut := [.read 0 1 102 3 who]
    rsps := [⟨102, 3, 0, true, [7], who⟩]
    spine := { s.spine with inbound := [⟨79, 255, true, 102, 3, 1, who⟩] } }
/-- States that meet the hypotheses of MoversReadAnswersAndSheets, clause by clause. -/
theorem wit_MoversReadAnswersAndSheets :
    ([(true, true), (false, true), (true, false)].all fun p =>
      let s := fetchState p.1 p.2
      s.ringOpen 63 0 && s.ringsGo && s.fld Fld.rngIdxHostIdx 63 % s.ringSize 63 != s.fld Fld.rngIdxDevIdx 63 &&
      !(s.ring 63).fetching && (s.ring 63).record.isNone && decide ((s.ring 63).fetched.length < 8) && !s.sys.retraining &&
      s.flag Fld.rngLinkUp == p.1 &&
      s.translate (moverCaches (s.ringMover 63)) 0 0 .read 64 == (if p.2 then .ok .host 0x5040 else .fault Code.spaceOff)) = true ∧
    ([Asker.port 79, .context 95 3, .mover 447, .record 63, .none].all fun who =>
      (askState who).hostOut[0]? == some (.read 0 1 102 3 who) && (askState who).rsps[0]? == some ⟨102, 3, 0, true, [7], who⟩ &&
      ((askState who).spine.inbound.find? fun i => i.sector == 79 && i.tag == 255 && i.wants) == some ⟨79, 255, true, 102, 3, 1, who⟩) = true ∧
    (State.reset.spine.inbound = [] ∧ sector79.frozen 79 = false) ∧
    (let s := State.reset
     s.dt.toNat % 250 = 0 ∧ s.asleep = false ∧ s.sheetDue = false) ∧
    (let s := (State.reset.setFlag Fld.rngSheetCfgEn true).setFld Fld.rngSheetCfgInterval 10
     s.sheetDue = true ∧ s.trans = [] ∧ s.wtu.walks = []) := by
  and_intros <;> decide +kernel

/-- A doorbell inside and outside ring 63; a moderated vector due; a link up. -/
theorem wit_DoorbellsVectorsAndLinkEventsAct :
    (let s := State.reset.setFld Fld.rngStatState 4 63
     s.ringSize 63 = 16 ∧ s.fld Fld.rngStatState 63 = 4 ∧ bitsW (15 : W32) 0 16 < 16 ∧ 16 ≤ bitsW (16 : W32) 0 16) ∧
    (let s := (State.reset.setFld Fld.rngModTime 1 63).setRing 63 { modCount := 3, modAt := 0 }
     let s := { s with dt := 2500 }
     s.fld Fld.rngModTime 63 ≠ 0 ∧ (s.ring 63).modCount ≠ 0 ∧ (s.ring 63).modAt + s.fld Fld.rngModTime 63 * 80000 ≤ s.now) ∧
    (State.reset.setFlag Fld.rngLinkUp true).flag Fld.rngLinkUp = true := by
  and_intros <;> decide +kernel

/-- The states of ring 63 the clauses ask for, its owner the Warden; legal and illegal settings; another owner. -/
theorem wit_RingsStartStopAndTakeSettings :
    ([0, 2, 3, 4, 5].all fun st =>
      let s := State.reset.setFld Fld.rngStatState st 63
      s.priv .pcie == 2 && s.ownerCode .pcie == s.fld Fld.rngOwnOwner 63 && s.fld Fld.rngStatState 63 == st &&
      (s.setFlag Fld.rngCtlEn true 63).fld Fld.rngStatState 63 == st && (s.setFlag Fld.rngCtlEn false 63).fld Fld.rngStatState 63 == st &&
      (s.setFlag Fld.rngCtlEn false 63).fld Fld.rngCfgType 63 == 0 && !(s.ring 63).fetching && (s.ring 63).record.isNone &&
      (s.ring 63).fetched == [] && !(s.job 63).on) = true ∧
    (let new := fun v => Reg.rngCfg.plain (State.reset.reg Reg.rngCfg 63) v false
     (bitsW (new 0x82) 0 2 ≠ 3 ∧ bitsW (new 0x82) 3 5 = 16) ∧ bitsW (new 0x83) 0 2 = 3 ∧ bitsW (new 0x88) 3 5 = 17 ∧
     State.reset.reg Reg.rngCfg 63 &&& ~~~(maskW 20 8) ≠ new 0x82 &&& ~~~(maskW 20 8)) ∧
    bitsW (Reg.rngBase.plain (State.reset.reg Reg.rngBase 63) 64 false) 0 6 = 0 ∧
    (State.reset.setFld Fld.rngOwnOwner 1 63).ownerCode .pcie ≠ (State.reset.setFld Fld.rngOwnOwner 1 63).fld Fld.rngOwnOwner 63 ∧
    (let new := fun v => Reg.rngOwn.plain (State.reset.reg Reg.rngOwn 63) v true
     1 < bitsW (new 2) 0 8 ∧ bitsW (new 0x20001) 0 8 ≤ 1 ∧ bitsW (new 0x20001) 16 2 ≠ 3) ∧
    (let new := fun v => Reg.rngSheetCfg.plain (State.reset.reg Reg.rngSheetCfg) v false
     bitsW (new 10) 0 20 = 10 ∧ bitsW (new (2 ^ 20 + 1000000)) 0 20 = 1000000 ∧ bitsW (new (2 ^ 20 + 1000000)) 20 1 = 1 ∧
     bitsW (new 9) 0 20 < 10 ∧ 1000000 < bitsW (new 1000001) 0 20) := by
  and_intros <;> decide +kernel

/-- A leader of a class for a device, of a body of 8 bytes, with a security version and a mask of sectors. -/
def mkLeader (cls dev svn mask : Nat) : List Byte :=
  let zeros (k : Nat) : List Byte := List.replicate k 0
  let l := bytesLE 4 0x41524F54 ++ bytesLE 2 1 ++ bytesLE 1 cls ++ zeros 1 ++ bytesLE 4 dev ++ zeros 4 ++ bytesLE 2 svn
    ++ bytesLE 1 1 ++ zeros 5 ++ bytesLE 8 144 ++ bytesLE 8 8 ++ zeros 12 ++ bytesLE 2 1 ++ zeros 2 ++ bytesLE 10 mask ++ zeros 58
  l ++ bytesLE 4 (crc32c l)
/-- This device's DEV_ID. -/
def ownId : Nat := (State.reset.reg Reg.stwDevId).toNat
/-- Leaders that pass the form check, the identity check and all checks, and one that fails each; the states of the other clauses. -/
theorem wit_LoaderControlsAct :
    (let s := ldrState 1 2 (List.replicate 128 0)
     (ldrRefill s).ldrState = 1 ∧ (ldrRefill s).loadHeld = false ∧ (ldrRefill s).ldr.raw.length = 128 ∧
     leaderForm ((ldrRefill s).ldr.raw.take 128) = false) ∧
    ((mkLeader 1 ownId 0 1).length = 128 ∧ leaderForm (mkLeader 1 ownId 0 1) = true ∧ leaderForm (mkLeader 1 (ownId + 1) 0 1) = true) ∧
    (let u := (ldrState 1 2 (mkLeader 1 ownId 0 1)).setHeldMask 0
     ldrRefill u = u ∧ leaderRefusal (mkLeader 1 ownId 0 1) u = 0 ∧ leaderIdentity (mkLeader 1 (ownId + 1) 0 1) u = false) ∧
    (let u := (ldrState 1 2 (mkLeader 1 ownId 0 1)).setFld Fld.wtuSvnSvn 1
     leaderIdentity (mkLeader 1 ownId 0 1) u = true ∧ leaderNum (mkLeader 1 ownId 0 1) 6 1 = 1 ∧
     leaderNum (mkLeader 1 ownId 0 1) 16 2 < u.fld Fld.wtuSvnSvn) ∧
    (State.reset.priv .pcie = 2 ∧ State.reset.loading = false ∧ (State.reset.setHeldMask 1).heldMask = 1 ∧
      (State.reset.setHeldMask 1).loading = false ∧ (ldrState 5 2 []).loading = true ∧ State.reset.ldr.check = false ∧
      (State.reset.setFlag Fld.ldrCheckDone false).loading = false ∧ ((ldrState 5 2 []).setFlag Fld.ldrCheckDone false).loading = true) ∧
    (let s := ldrState 3 2 []
     let t := { s with ldr := { s.ldr with check := true, bare := true } }
     t.ldr.check = true ∧ t.ldr.bare = true ∧ t.ldrState = 3) := by
  and_intros <;> decide +kernel

/-- A loader at its body: the stream's class, the body's length, its key flag, and the bytes that wait. -/
def recState (cls total : Nat) (enc : Bool) (bs : List Byte) : State :=
  let s := (((ldrState 2 2 bs).setFld Fld.ldrStatClass cls).setFlag Fld.ldrStatEnc enc).setReg Reg.ldrLeader (BitVec.ofNat 64 total) 4
  s.setReg Reg.ldrLeader (BitVec.allOnes 64) 7
/-- Is a record of one type, with so many bytes after its header, judged as its form says? -/
def recOk (p : Nat × Nat × Nat × Nat × (W64 → State → Bool) × Bool) : Bool :=
  let (cls, total, head, tail, form, good) := p
  let s := recState cls total false (bytesLE 8 head ++ List.replicate tail 0)
  let u := ldrRefill s
  let h := wordAt (wordsLE 1 u.body) 0
  u.mayApply && !u.ldr.ended && decide (u.ldr.body < u.leaderField 32 8) && u.body.length == 8 + tail && h == BitVec.ofNat 64 head &&
    bitsW h 8 8 == 0 && form h u == good && u.recordMine && u.ldr.sect.isNone && u.leaderField 32 8 == total
/-- Records of every type with a good and a bad form, one of another device's section, an encrypted segment, and trailers. -/
theorem wit_RecordsOfAStreamAct :
    ([(1, 16, 7, 0, fun _ _ => true, true), (1, 16, 0, 0, fun h _ => h == 0, true), (1, 16, 2 ^ 63, 0, fun h _ => h == 0, false),
      (1, 1024, 1 + 2 ^ 32, 512, framesForm, true), (1, 1024, 1, 0, framesForm, false), (1, 64, 2 + 2 ^ 36, 8, bankForm, true),
      (1, 64, 2, 0, bankForm, false), (0, 64, 3 + 2 ^ 37, 8, ememForm, true), (1, 64, 3 + 2 ^ 37, 8, ememForm, false),
      (1, 64, 4 + 0x60000 * 2 ^ 16 + 2 ^ 40, 8, regForm, true), (1, 64, 4, 0, regForm, false), (2, 64, 5 + 8 * 2 ^ 24, 8, sectionForm, true),
      (2, 64, 5, 8, sectionForm, true), (1, 8, 6, 0, endForm, true)]
      : List (Nat × Nat × Nat × Nat × (W64 → State → Bool) × Bool)).all recOk = true ∧
    (let s := recState 2 64 false (List.replicate 8 0)
     let s := { s with ldr := { s.ldr with sect := some (8, false) } }
     (ldrRefill s).mayApply = true ∧ (ldrRefill s).recordMine = false) ∧
    (let u := ldrRefill (recState 1 8 true (List.replicate 24 0))
     u.ldrState = 2 ∧ u.ldrEnc = true ∧ u.loadHeld = false ∧ u.leaderField 32 8 = 8 ∧ u.ldr.seg = 0 ∧ u.ldr.raw.length = 24) ∧
    ([0, crcEnd 0xFFFFFFFF + 0xC0F16E0D * 2 ^ 32].all fun w =>
      let u := ldrRefill (ldrState 3 2 (bytesLE 8 w))
      u.ldrState == 3 && !u.ldr.bare && !u.loadHeld && u.ldr.raw.length == 8 && u.ldr.crc == 0xFFFFFFFF &&
        (wordAt (wordsLE 1 u.ldr.raw) 0).toNat == w) = true := by
  and_intros <;> decide +kernel
/-- END of a PARTIAL stream that wrote nothing fails, whatever the opaque verdict on classes; whether the other outcome of END occurs
rests on that verdict (log entry 8), so no state can be shown for it. -/
theorem wit_RecordsOfAStreamAct_end : let u := recState 1 8 false (bytesLE 8 6)
    (endApply u).2.1 ≠ 0 ∧ (loadFails (endApply u).2.1 (endApply u).2.2 u).ldrState ≠ 2 := by
  intro u
  have hs : (u.ldrPartial && (upFrom 0 80).any fun k =>
    bitOf (u.leaderField 56 10) k && Tab.get 0 u.ldr.wrote k != 2 ^ 416 - 1) = true := by decide +kernel
  have e : endApply u = (u, Code.routeClass, 0) ∨ endApply u = (u, Code.sectorIncomplete, 0) := by
    unfold endApply
    dsimp only
    split
    · exact .inl rfl
    · exact .inr rfl
  rcases e with e | e <;> (rw [e]; decide +kernel)

/-- A loader in the start-up steps, with one step to come, a column of the wave under way, and a period. -/
def stepState (k wave period : Nat) : State :=
  let s := ldrState 5 2 []
  { s with ldr := { s.ldr with steps := [(k, 0)], wave := wave, period := period } }
/-- States that meet the hypotheses of StreamsEndAndStartUpStepsRun, clause by clause. -/
theorem wit_StreamsEndAndStartUpStepsRun :
    (let u := ldrRefill (ldrState 1 2 [])
     u.streamShort = true ∧ u.ldrSource = 2) ∧
    (let u := ldrRefill (ldrState 1 1 [])
     u.streamShort = true ∧ u.ldrSource = 1 ∧ (Tab.get [] u.arc.images u.ldr.slot).length ≤ u.ldr.slotAt) ∧
    ((ldrState 1 2 []).streamShort = true ∧ (ldrState 1 2 []).loadHeld = false ∧ (ldrState 1 2 []).ldrRoom = 128) ∧
    ((ldrState 4 2 []).ldrState = 4 ∧ (ldrState 4 2 []).stepsHeld = false ∧ State.reset.ldrState ≠ 4) ∧
    ((stepState 1 0 0).nextStep = 1 ∧ (stepState 1 0 0).stepKind = 1) ∧
    ((stepState 2 0 0).nextStep = 2 ∧ (stepState 2 0 0).fld Fld.pwrStateCur = 0 ∧ (stepState 2 0 0).fld Fld.stwRstCauseCause ≠ 6) ∧
    ((stepState 3 0 0).nextStep = 3 ∧ (stepState 3 0 0).wavePeriod = 0 ∧ (stepState 3 0 1000).wavePeriod = 1000 ∧
      (stepState 3 0 1000).nextStep = 3 ∧ (stepState 3 8 1000).nextStep = 3 ∧ (stepState 3 8 1000).ldr.wave = 8 ∧
      (stepState 3 9 1000).nextStep = 3 ∧ (stepState 3 9 1000).ldr.wave = 9) := by
  and_intros <;> decide +kernel

/-- Ring 63 running as a command ring of Warden privilege, with one fetched archive descriptor, the archive in RUN or not, with an
open staging, images in slot 0, a store and a pool. -/
def arcState (run ext : Bool) (d : List W64) : State :=
  let s := ((State.reset.setFld Fld.rngStatState 1 63).setFlag Fld.rngCfgFormat ext 63).setFld Fld.rngOwnPriv 2 63
  let s := if run then s.setFld Fld.arcStatState 1 else s
  let s := (s.setFld Fld.arcStatCePresent 1).setFld Fld.arcGeomBlocks 64
  let s := s.setRing 63 { s.ring 63 with fetched := [(5, d)] }
  let a : Arc := { s.arc with sectors := 100, slotBlocks := 1, rsBlocks := 4 }
  { s with arc := { a with images := [(0, List.replicate 64 1)], staging := some (63, 1, 64, []) } }
/-- Do such a ring's row and checks take it, and what does the archive refuse it with? -/
def arcAsk (p : Bool × Bool × List W64) : Bool × Nat :=
  let d := p.2.2
  let s := arcState p.1 p.2.1 d
  let t := showServed 63 ((s.setRing 63 { s.ring 63 with fetched := [] }).setJob 63 { on := true, desc := d, index := 5 })
  (Tab.wf {} s.jobs && !(s.job 63).on && (s.ring 63).fetched == [(5, d)] && s.fld Fld.rngStatState 63 == 1 && s.ringsGo &&
    (s.ring 63).record.isNone && !bitOf (descFlags d) 0 && descCheck 63 d t == Code.ok, arcRefusal 63 t)
/-- The first word of a descriptor: its operation, and the bits from bit 16 on. -/
def a0 (op hi : Nat) : W64 := BitVec.ofNat 64 (op + hi * 2 ^ 16)
/-- One descriptor of each row. -/
def arcRows : List (Bool × List W64) :=
  [(false, [a0 0x40 8, 99 + 2 ^ 32]), (false, [a0 0x41 8, 2 ^ 32]), (false, [a0 0x42 0, 2 ^ 32]), (false, [a0 0x43 8, 0x100 + 8 * 2 ^ 16]),
   (false, [a0 0x44 8, 0x100 + 8 * 2 ^ 16]), (false, [a0 0x45 0, 0x100]), (false, [a0 0x46 0, 1 + 64 * 2 ^ 32]),
   (false, [a0 0x47 8, 1 + 64 * 2 ^ 32]), (false, [a0 0x48 0, 1]), (false, [a0 0x49 8, 64 * 2 ^ 32]), (false, [a0 0x4A 0, 0]),
   (false, [a0 0x4B 0, 0]), (false, [a0 0x4C 0, 0x464D])]
/-- Each row's descriptor passes its checks; in RUN the archive takes it, and outside RUN it refuses it with ARC_OFF; one sector too
far is ARC_RANGE; a reserved bit is refused before. -/
theorem wit_ArchiveDescriptorsStart :
    (arcRows.all fun p => arcAsk (true, p) == (true, 0)) = true ∧
    (arcRows.all fun p => arcAsk (false, p) == (true, Code.arcOff)) = true ∧
    (arcRows.all fun p => !arcValuesBad 63 ((arcState false p.1 p.2).setJob 63 { on := true, desc := p.2 })) = true ∧
    arcAsk (true, false, [a0 0x40 8, 100 + 2 ^ 32]) = (true, Code.arcRange) ∧
    (descRow [a0 0x42 1, 2 ^ 32] = 0x42 ∧ descCheck 63 [a0 0x42 1, 2 ^ 32] (arcState true false [a0 0x42 1, 2 ^ 32]) ≠ Code.ok) ∧
    (let s := State.reset.setJob 63 { on := true, desc := [a0 0x4B 0, 0], len := 8 }
     let v := ldrRefill (jobChunk 63 0 s)
     (s.job 63).on = true ∧ (s.job 63).op 63 = 0x4B ∧ (v.job 63).on = true ∧ (v.job 63).op 63 = 0x4B ∧
     (v.job 63).count ≠ v.ldr.gen + 1) := by
  and_intros <;> decide +kernel

/-- Ring 63's job in the archive's queue, with a list of words and counts. -/
def jobState (op k : Nat) (acc : List W64) (w1 : Nat) : State :=
  let s := State.reset.setJob 63 { on := true, desc := [BitVec.ofNat 64 (op + 8 * 2 ^ 16), BitVec.ofNat 64 w1], acc := acc, count := k }
  { s with arc := { s.arc with queue := [63], sectors := 100, rsBlocks := 4 } }
/-- What a job's array operation asks: a read of block 5 with a number of bits corrected. -/
def jobOk (s : State) (op bits : Nat) : Bool :=
  match nandBlock (.read 5 (BitVec.ofNat 8 bits)) s with
  | none => false
  | some u => (u.job 63).on && u.arc.queue.contains 63 && !u.arcWaits 63 && !u.jobStalled 63 && (u.job 63).op 63 == op &&
    nandOk (.read 5 (BitVec.ofNat 8 bits))
/-- States that meet the hypotheses of ArrayOperationsServeTheirJobs, clause by clause, at 72 and 73 bits. -/
theorem wit_ArrayOperationsServeTheirJobs :
    (let s := (State.reset.setFld Fld.arcCfgRdLimit 1).setFld Fld.arcCfgRefreshBits 73
     (72 : Byte).toNat ≤ 72 ∧ ¬ (s.fld Fld.arcCfgRdLimit * 1000 ≤ (s.block (0xFFFFFF : BitVec 24).toNat).reads + 1 ∨
       s.fld Fld.arcCfgRefreshBits ≤ (72 : Byte).toNat)) ∧
    ((State.reset.block 5).bad = false ∧ State.reset.mayProgram 5 = true) ∧
    (jobOk (jobState 0x40 0 [] (2 ^ 32)) 0x40 72 = true ∧ jobOk (jobState 0x40 0 [] (2 ^ 32)) 0x40 73 = true ∧
      (jobState 0x40 0 [] (2 ^ 32)).arcCount 63 = 1) ∧
    (jobOk (jobState 0x41 0 (List.replicate 512 1) (2 ^ 32)) 0x41 0 = true ∧ jobOk (jobState 0x42 0 [] (2 ^ 32)) 0x42 0 = true ∧
      jobOk (jobState 0x43 0 [] 0x100) 0x43 0 = true ∧ jobOk (jobState 0x44 0 [5] 0x100) 0x44 0 = true ∧
      jobOk (jobState 0x45 0 [] 0x100) 0x45 0 = true ∧ jobOk (jobState 0x48 0 [] 1) 0x48 0 = true) ∧
    ((jobState 0x44 0 [5] 0x100).recordFits ((jobState 0x44 0 [5] 0x100).arcArg 63 1) 1 = true ∧
      (let s := { State.reset with arc := { State.reset.arc with rsBlocks := 2 } }
       s.recordFits 0x100 1 = false) ∧
      (let s := { State.reset with arc := { State.reset.arc with staging := some (63, 1, 64, [1]) } }
       s.arc.staging = some (63, 1, 64, [1]) ∧ s.flag Fld.arcSlotLoading 1 = false ∧ imageOk 64 [1] s = false)) ∧
    (let s := State.reset.setLdrState 1
     let u := (s.setFld Fld.ldrStatSource 1)
     72 < nandBits (.read 5 73) ∧ nandOk (.read 5 73) = true ∧ u.ldrReads = true) ∧
    (let s := (State.reset.setFld Fld.arcStatState 1).setFlag Fld.arcStatFormatted true
     let u := { s with lead := { s.lead with underWay := [.recordSupply] } }
     u.lead.underWay.contains .recordSupply = true ∧ u.archiveOk = true) ∧
    ({ State.reset with arc := { State.reset.arc with starting := true } } : State).arc.starting = true ∧
    ({ State.reset with arc := { State.reset.arc with starting := false } } : State).arc.starting = false := by
  and_intros <;> decide +kernel

/-- States that meet the hypotheses of ArchiveCareAndSettings, with values at the ends of their ranges. -/
theorem wit_ArchiveCareAndSettings :
    (let s := (State.reset.setFld Fld.arcStatState 1).setFlag Fld.arcStatPatrol true
     s.fld Fld.arcStatState = 1 ∧ s.arc.fault = 0 ∧ s.flag Fld.arcStatPatrol = true ∧ s.priv .pcie ≠ 0) ∧
    (State.reset.fld Fld.arcStatState = 0 ∧ (State.reset.setFld Fld.arcStatState 2).fld Fld.arcStatState = 2 ∧
      (State.reset.setFld Fld.arcStatState 3).fld Fld.arcStatState = 3 ∧ (State.reset.setFld Fld.arcStatState 3).priv .php ≠ 0) ∧
    (let ifs := fun v : W32 => Reg.arcIf.plain (State.reset.reg Reg.arcIf) (v.setWidth 64) false
     bitsW (ifs 0x42) 0 2 = 2 ∧ bitsW (ifs 0x42) 2 5 = 16 ∧ State.reset.arc.modes = 0 ∧
     bitsW (ifs 0x10) 0 2 = 0 ∧ bitsW (ifs 0x10) 2 5 = 4 ∧ bitsW (ifs 0x0D) 0 2 = 1 ∧ bitsW (ifs 0x0D) 2 5 = 3 ∧
     bitsW (ifs 0x0C) 0 2 = 0 ∧ bitsW (ifs 0x0C) 2 5 = 3 ∧ bitsW (ifs 0x46) 2 5 = 17 ∧ bitsW (ifs 0x43) 0 2 = 3) ∧
    (let cfg := fun v : W32 => Reg.arcCfg.plain (State.reset.reg Reg.arcCfg) (v.setWidth 64) false
     bitsW (cfg 0x190) 1 7 = 72 ∧ bitsW (cfg 0x190) 8 16 = 1 ∧ bitsW (cfg 0x192) 1 7 = 73 ∧ bitsW (cfg 0x100) 1 7 = 0 ∧
     bitsW (cfg 0x90) 8 16 = 0) ∧
    (State.reset.setFld Fld.wtuLinkPriv 0).priv .pcie = 0 := by
  and_intros <;> decide +kernel

/-- States that meet the hypotheses of StartsBeginConfirmAndRetry, clause by clause. -/
theorem wit_StartsBeginConfirmAndRetry :
    (let low := { State.reset with sys := { State.reset.sys with xresetN := false } }
     low.sys.xresetN = false ∧ (0x7F : Byte).toNat / 2 ^ 7 % 2 = 0 ∧ (0x80 : Byte).toNat / 2 ^ 7 % 2 = 1 ∧ low.pwr.entering = 0) ∧
    ({ State.reset with sta := { State.reset.sta with retained := true } } : State).sta.retained = true ∧
    ({ State.reset with sys := { State.reset.sys with xresetN := true } } : State).sys.xresetN = true ∧
    (State.reset.priv .pcie = 2 ∧ State.reset.agreed = true ∧ (State.reset.setPhase 0).phase = 0 ∧ (State.reset.setPhase 9).phase = 9 ∧
      (State.reset.setPhase 0).agreed = true ∧ (State.reset.setPhase 9).priv .php = 2) ∧
    ((State.reset.setFld Fld.stwLeadState 1).agreed = false ∧ (State.reset.setFld Fld.stwLeadState 1).priv .pcie = 2) ∧
    ((State.reset.setFld Fld.wtuLinkPriv 1).priv .pcie ≠ 2 ∧ (State.reset.setFld Fld.wtuLinkPriv 0).priv .pcie = 0) ∧
    (let s := State.reset.setPhase 6
     let s := { s with sta := { s.sta with confirm := true, counted := true } }
     s.sta.confirm = true ∧ s.sta.counted = true ∧ s.phase ≠ 0 ∧ s.loading = false ∧ (s.setLdrState 2).loading = true ∧
     (s.setLdrState 2).phase ≠ 0) ∧
    (let s := State.reset.setPhase 0
     let t := { s with sta := { s.sta with retry := some true } }
     let u := { s with sta := { s.sta with retry := some false } }
     t.agreed = true ∧ t.phase = 0 ∧ t.sta.retry = some true ∧ u.sta.retry = some false ∧ s.sta.retry = none) ∧
    (let s := State.reset.setPhase 9
     s.agreed = true ∧ s.phase = 9 ∧ s.lead.held.contains .start = false) := by
  and_intros <;> decide +kernel

/-- A device with its rails, its root and its temperature within the limits of a test, and no start under way. -/
def testState : State :=
  let s := (upFrom 0 2).foldl (fun s h => s.setFld Fld.pwrRailVfab 34 h) (State.reset.setPhase 0)
  (s.setFlag Fld.clkStatRootLocked true).setFld Fld.pwrTempTemp 130
/-- The same with a unit under test. -/
def testing (u : Nat) : State :=
  let s := testState.setFld Fld.bistStatState 2
  { s with hea := { s.hea with west := [u] } }
/-- States that meet the hypotheses of TestsSweepsAndSubstitutionsAct, clause by clause, with units and margins at their ends. -/
theorem wit_TestsSweepsAndSubstitutionsAct :
    (bistCount 0 ≤ 80 ∧ 79 < bistCount 0 ∧ 95 < bistCount 1 ∧ bistCount 1 ≤ 96 ∧ 15 < bistCount 2 ∧ bistCount 2 ≤ 16 ∧ 0 < bistCount 3) ∧
    (State.reset.priv .pcie ≠ 0 ∧ testState.priv .pcie ≠ 0) ∧
    (let t := testState.setReg Reg.bistCtl 0x804F0000
     t.fld Fld.bistStatState = 0 ∧ t.phase = 0 ∧ t.agreed = true ∧ bistLimits 0 79 t = 0 ∧ bistLimits 3 0 t = 0 ∧ t.frontUsed 15 = false) ∧
    ((testState.setFld Fld.bistStatState 1).fld Fld.bistStatState = 1 ∧ (testState.setFld Fld.stwLeadState 1).agreed = false ∧
      bistLimits 0 79 (testState.setFld Fld.pwrRailVfab 29 1) = 1 ∧ (testState.setFld Fld.pinDacCfgOwner 1 15).frontUsed 15 = true) ∧
    ((testing 39).testing 0 = some 39 ∧ (testing 39).bistLimit 0 = 0 ∧ ((testing 39).setFld Fld.pwrRailVfab 46 0).bistLimit 0 ≠ 0 ∧
      ((testing 39).setFld Fld.pwrRailVfab 46 0).testing 0 = some 39 ∧ testState.testing 1 = none) ∧
    ((State.reset.setPhase 6).phase ≠ 5 ∧ (State.reset.setPhase 6).phase ≠ 0 ∧ (State.reset.setPhase 5).phase = 5) ∧
    (let cfg := fun v : W32 => Reg.stwHealthCfg.plain (State.reset.reg Reg.stwHealthCfg) (v.setWidth 64) false
     bitsW (cfg 0x020100) 8 8 = 1 ∧ bitsW (cfg 0x020100) 16 8 = 2 ∧ bitsW (cfg 0x010100) 16 8 = 1 ∧ bitsW (cfg 0x020000) 8 8 = 0) ∧
    (State.reset.priv .pcie = 2 ∧ State.reset.fld Fld.stwFixMode ≠ 3 ∧ (State.reset.setFld Fld.wtuLinkPriv 1).priv .pcie ≠ 2) ∧
    (let s := { State.reset with hea := { State.reset.hea with work := [spareEntry 2 2 79 63 0] } }
     s.fixing 1 = some (spareEntry 2 2 79 63 0) ∧ s.fixing 0 = none) := by
  and_intros <;> decide +kernel

/-- A device in a power state, on its way to one or from it, its power change under way. -/
def powerState (cur entering : Nat) (dark : Bool) : State :=
  let s := ((State.reset.setFld Fld.pwrStateCur cur).setFlag Fld.pwrWakeWakeNEn true).setFlag Fld.pwrWakeHostEn true
  let s := { s with pwr := { s.pwr with entering := entering, dark := dark } }
  { s with lead := { s.lead with underWay := [.power] } }
/-- States that meet the hypotheses of PowerStatesAreEnteredAndLeft, clause by clause. -/
theorem wit_PowerStatesAreEnteredAndLeft :
    (let s := powerState 0 0 false
     s.priv .pcie = 2 ∧ s.agreed = true ∧ s.fld Fld.pwrStateCur = 0 ∧ s.anyWake 2 = true ∧ s.anyWake 3 = true ∧
     State.reset.anyWake 3 = false ∧ (s.setFld Fld.stwLeadState 1).agreed = false) ∧
    ((powerState 5 1 false).fld Fld.pwrStateCur = 5 ∧ (powerState 6 1 false).fld Fld.pwrStateCur = 6 ∧
      (powerState 2 2 false).fld Fld.pwrStateCur = 2 ∧ (State.reset.setFld Fld.wtuLinkPriv 1).priv .pcie ≠ 2) ∧
    ((powerState 4 1 false).fld Fld.pwrStateCur = 4 ∧ (powerState 4 1 false).pwr.dark = false ∧ (powerState 4 1 false).entryReady = true ∧
      (powerState 4 2 false).entryReady = true ∧ (powerState 4 3 false).entryReady = true ∧
      (let t := (powerState 1 1 false).setFlag Fld.pwrWakeWakeNEn true
       t.metWake = none) ∧
      (let t := powerState 2 2 false
       let u := { t with pwr := { t.pwr with latched := some (2, 0) } }
       u.metWake = some (2, 0))) ∧
    ((powerState 1 1 false).wakeWorks 1 2 0 = true ∧ (powerState 1 1 false).wakeWorks 1 5 0 = false ∧
      (powerState 2 2 false).wakeWorks 2 6 0 = true ∧ (powerState 4 3 true).wakeWorks 3 2 0 = true ∧ (powerState 4 3 true).pwr.dark = true ∧
      (powerState 4 3 true).wakeWorks 3 6 0 = false ∧ (powerState 4 3 true).tooHot = false ∧
      (((powerState 4 3 true).setFlag Fld.pwrTempTripped true).setFld Fld.pwrTempTemp 308).tooHot = true) ∧
    (State.reset.fld Fld.pwrWakePortEdge 3 = 0 ∧ ((State.reset.setFld Fld.pwrWakePortEdge 1 3).fld Fld.pwrWakePortEdge 3 = 1) ∧
      ((State.reset.setFld Fld.pwrWakePortEdge 2 3).fld Fld.pwrWakePortEdge 3 = 2) ∧ State.reset.dtReached = true ∧
      (State.reset.setReg Reg.pwrWakeDt 1).dtReached = false ∧ (State.reset.setReg Reg.pwrWakeLo 1 1).tbOutside 1 = true ∧
      State.reset.tbOutside 1 = false) ∧
    ((powerState 5 3 true).fld Fld.pwrStateCur = 5 ∧ (powerState 5 3 true).pwr.dark = true ∧ (powerState 5 1 false).pwr.dark = false ∧
      (powerState 5 1 false).lead.underWay.contains .power = true ∧ (powerState 5 2 false).ldr.steps = [] ∧
      (powerState 5 2 false).fld Fld.pwrStateCur = 5) := by
  and_intros <;> decide +kernel

/-- A device in RUN past its RESETS step, with the East half's policy and BACKLOG limits. -/
def railState (policy : Nat) : State :=
  let s := (State.reset.setFld Fld.ldrStatSteps 15).setFld Fld.pwrVfabPolicy policy 1
  (s.setFld Fld.pwrVfabUp 80 1).setFld Fld.pwrVfabDown 20 1
/-- States that meet the hypotheses of RailsSupplyAndTemperatureAct, clause by clause, at the ends of each range. -/
theorem wit_RailsSupplyAndTemperatureAct :
    (let s := State.reset.setFld Fld.pwrSupLowThr 320
     (319 : BitVec 10).toNat < s.fld Fld.pwrSupLowThr ∧ s.flag Fld.pwrSupLow = false ∧ ¬ (320 : BitVec 10).toNat < s.fld Fld.pwrSupLowThr ∧
     (let t := (s.setFlag Fld.pwrSupLowAct true).alarm 8 Code.supplyLow 0
      t.flag Fld.pwrSupLowAct = true ∧ t.pwr.dark = false ∧ t.pwr.off = false ∧ t.pwr.entering ≠ 3)) ∧
    (State.reset.maxTemp = 100 ∧ (347 : BitVec 10).toNat < 2 * (100 + 10 + 64) ∧ 2 * (100 + 10 + 64) ≤ (348 : BitVec 10).toNat ∧
      State.reset.pwr.hot = 0 ∧ ({ State.reset with pwr := { State.reset.pwr with hot := 1 } } : State).pwr.hot ≠ 0) ∧
    (let s := railState 1
     s.railFree = true ∧ s.fld Fld.pwrVfabPolicy 1 ≠ 0 ∧ s.flag Fld.pwrRailSlewing 1 = false ∧ 10 * s.fld Fld.pwrVfabUp 1 < 801 ∧
     800 ≤ 10 * s.fld Fld.pwrVfabUp 1 ∧ 199 < 10 * s.fld Fld.pwrVfabDown 1 ∧ State.reset.railFree = false ∧
     (let t := { s with pwr := { s.pwr with downs := [(1, 99)] } }
      Tab.get 0 t.pwr.downs 1 + 1 = 100)) ∧
    (let bad := fun v : W32 => decide (bitsW v 0 2 = 3 ∨ (bitsW v 0 2 = 0 ∧ (bitsW v 2 6 < 5 ∨ 45 < bitsW v 2 6)) ∨
       (bitsW v 0 2 = 2 ∧ (bitsW v 2 6 < 35 ∨ 45 < bitsW v 2 6)) ∨ (bitsW v 0 2 ≠ 0 ∧ (bitsW v 8 6 < (if bitsW v 0 2 = 1 then 5 else bitsW v 2 6) ∨
       45 < bitsW v 8 6)) ∨ bitsW v 16 8 ≤ bitsW v 24 8 ∨ 100 < bitsW v 16 8)
     bad 0x00640014 = false ∧ bad 0x00640010 = true ∧ bad 0x006405B5 = false ∧ bad 0x00650014 = true ∧ State.reset.priv .pcie = 2) ∧
    (bitsW (0xA : W32) 0 2 ≠ 3 ∧ bitsW (0xA : W32) 3 1 = 1 ∧ bitsW (0x2 : W32) 3 1 = 0 ∧
      ((State.reset.setFld Fld.stwLeadState 1).agreed = false) ∧ State.reset.agreed = true ∧ State.reset.fld Fld.pwrVbankLevel 3 ≠ 3) ∧
    (bitsW (0x50000 : W32) 10 10 = 320 ∧ bitsW (0xB1800 : W32) 10 10 = 710 ∧ bitsW (0x4FC00 : W32) 10 10 = 319 ∧ bitsW (0xB1C00 : W32) 10 10 = 711) ∧
    (Tab.get 0 ({ State.reset with pwr := { State.reset.pwr with aim := [(1, 41)] } } : State).pwr.aim 1 ≠ 0 ∧
      (State.reset.setFlag Fld.pwrVbankSlewing true 3).flag Fld.pwrVbankSlewing 3 = true ∧ State.reset.flag Fld.pwrVbankSlewing 3 = false) := by
  and_intros <;> decide +kernel

/-- States and values that meet the hypotheses of PortSettingsFollowTheirChecks, clause by clause, at port 143. -/
theorem wit_PortSettingsFollowTheirChecks :
    (let s := State.reset
     s.priv .pcie = 2 ∧ portRefusal 143 0 0 0 0 = 0 ∧ portRefusal 143 0 0x005005 0 0 ≠ 0 ∧ portRefusal 143 1 0x1000 0 0 ≠ 0 ∧
     portRefusal 143 0 3 0 0 = Code.pinFnOwner ∧ portRefusal 143 0 2 (2 ^ 5) 0 = Code.pinBadCfg ∧ portRefusal 143 0 0x1FB 0 0 ≠ 0 ∧
     s.portReg Reg.pinMux 143 = 0 ∧ s.portReg Reg.pinOvl 143 = 0 ∧ s.fld Fld.pinOwnOwner 143 = 0) ∧
    (let s := State.reset.setReg Reg.pinMux 1 143
     let mux := s.portReg Reg.pinMux 143
     muxFn mux false ≠ 0 ∧ portRefusal 143 2 mux (s.portReg Reg.pinOvl 143) (s.fld Fld.pinOwnOwner 143) = 0 ∧
     bitsOf (s.portReg Reg.pinCfg 143) 0 2 ≠ bitsOf 2 0 2) ∧
    (let s := State.reset.setFld Fld.ldrStatSteps 15
     let t := s.setReg Reg.pinMux 1 143
     t.outsDone = true ∧ t.flag Fld.pinStatSleep 143 = false ∧ (State.reset.setReg Reg.pinMux 1 143).outsDone = false) ∧
    (ownerValid (bitsW (0xFF : W32) 0 8) = false ∧ ownerValid (bitsW (2 : W32) 0 8) = true ∧ fnAllowed 2 0 = true ∧ fnAllowed 2 1 = false) ∧
    (State.reset.setFld Fld.wtuLinkPriv 1).priv .pcie = 1 ∧
    (let s := State.reset.setFld Fld.pinOwnOwner (State.reset.ownerCode .pcie) 143
     s.ownerCode .pcie = s.fld Fld.pinOwnOwner 143 ∧ s.priv .pcie ≠ 0 ∧
     (s.setFld Fld.pinOwnOwner 2 143).ownerCode .pcie ≠ (s.setFld Fld.pinOwnOwner 2 143).fld Fld.pinOwnOwner 143) ∧
    (bitsW (0x20002 : W32) 0 16 = 2 ∧ bitsW (0x20002 : W32) 16 16 = 2 ∧ bitsW (0x30002 : W32) 16 16 = 3 ∧ bitsW (1 : W32) 0 16 = 1) ∧
    ((State.reset.setFlag Fld.pinStatSwitching true 143).flag Fld.pinStatSwitching 143 = true ∧
      State.reset.flag Fld.pinStatSwitching 143 = false) ∧
    (let s := ({ State.reset with dt := 40 } : State).setPin 143 { pwm := 0x10002, pwmAt := 0 }
     bitsOf (s.pin 143).pwm 0 16 = 2 ∧ s.now - (s.pin 143).pwmAt = 1280 ∧ bitsOf (State.reset.pin 143).pwm 0 16 < 2 ∧
     (let t := { s with dt := 39 }
      t.now - (t.pin 143).pwmAt < 640 * 2)) := by
  and_intros <;> decide +kernel

/-- States that meet the hypotheses of InputsSlicesAndConvertersAct, clause by clause, at the last port and front. -/
theorem wit_InputsSlicesAndConvertersAct :
    (State.reset.flag Fld.pinCfgDiff 143 = false ∧ State.reset.pad 143 true = .released ∧ (State.reset.pin 143).levelB = false ∧
      (State.reset.setFlag Fld.pinCfgDiff true 143).flag Fld.pinCfgDiff 143 = true ∧
      (State.reset.setFlag Fld.pinCfgDiff true 143).flag Fld.pinStatLineFault 143 = false) ∧
    (let s := ({ State.reset with dt := 250000 } : State).setFld Fld.pinCfgDebounce 1 143
     (s.pin 143).sinceA + 8000000 * s.fld Fld.pinCfgDebounce 143 = 8000000 ∧ s.now = 8000000 ∧
     (let t := { s with dt := 249999 }
      t.now < 8000000)) ∧
    (let s := (State.reset.setFld Fld.ldrStatSteps 15).setFlag Fld.pinOutOeA true 143
     let t := (s.setFlag Fld.pinStatSafe false 143).setPin 143 { mux := 1 }
     t.pad 143 false ≠ .released) ∧
    (let s := State.reset.setFld Fld.pinDacCfgOwner (State.reset.ownerCode .pcie) 15
     s.ownerCode .pcie = s.fld Fld.pinDacCfgOwner 15 ∧ s.priv .pcie = 2 ∧
     (s.setFld Fld.pinDacCfgOwner 2 15).ownerCode .pcie ≠ (s.setFld Fld.pinDacCfgOwner 2 15).fld Fld.pinDacCfgOwner 15) ∧
    (ownerValid (bitsW (0xFF : W32) 0 8) = false ∧ ownerValid (bitsW (2 : W32) 0 8) = true ∧ bitsW (2 : W32) 0 8 ≠ State.reset.fld Fld.pinDacCfgOwner 15 ∧
      (let s := State.reset.setSlot 5 (dtEvent 6 15 1 0)
       s.dacArmed 15 = true) ∧ State.reset.dacArmed 15 = false) ∧
    (bitsW (3 : W32) 0 2 = 3 ∧ bitsW (1 : W32) 0 2 ≠ 3 ∧
      (let s := (((State.reset.setFld Fld.tbStatState 1 3).setFld Fld.tbCfgSrc 2 3).setFld Fld.tbSrcAin 15 3)
       s.frontTaken 15 = true) ∧ State.reset.frontTaken 15 = false ∧
      bitsW (Reg.pinAinCfg.plain (State.reset.reg Reg.pinAinCfg 15) ((1 : W32).setWidth 64) true) 0 3 ≠ bitsW (State.reset.reg Reg.pinAinCfg 15) 0 3) ∧
    (State.reset.agreed = true ∧ (State.reset.setFld Fld.stwLeadState 1).agreed = false ∧ (State.reset.setFld Fld.wtuLinkPriv 1).priv .pcie = 1) := by
  and_intros <;> decide +kernel

/-- A lane in a STATE, locked. -/
def laneIn (l st : Nat) : State :=
  (State.reset.setFld Fld.pinLaneStatState st l).setLane l { locked := true }
/-- States that meet the hypotheses of LanesTrainLoseAndKeepTime, clause by clause. -/
theorem wit_LanesTrainLoseAndKeepTime :
    (State.reset.priv .pcie = 2 ∧ (State.reset.reg Reg.pinLaneCfg 1).toNat = 0 ∧ bitOf ((1 : W32) ||| 8).toNat 3 = true ∧
      bitsOf ((1 : W32) ||| 8).toNat 0 3 = 1 ∧ bitsOf ((7 : W32) ||| 8).toNat 0 3 = 7 ∧ State.reset.fld Fld.pinLaneStatState 1 = 0 ∧
      bitOf ((9 : W32) &&& ~~~8).toNat 3 = false ∧ State.reset.txQueue 0 = false ∧
      (let s := ((State.reset.setReg Reg.pinLaneCfg 9 1).setFld Fld.pinLaneStatState 2 1)
       bitOf (s.reg Reg.pinLaneCfg 1).toNat 3 = true ∧ s.fld Fld.pinLaneStatState 1 ≠ 0 ∧
       bitsOf (s.reg Reg.pinLaneCfg 1).toNat 0 3 ≠ bitsOf ((2 : W32) &&& ~~~8).toNat 0 3)) ∧
    ((laneIn 3 3).fld Fld.pinLaneStatState 3 = 3 ∧ (laneIn 3 4).fld Fld.pinLaneStatState 3 = 4 ∧ (laneIn 3 1).fld Fld.pinLaneStatState 3 = 1 ∧
      (laneIn 1 1).fld Fld.pinLaneStatState 1 = 1 ∧ ((laneIn 3 2).bump Fld.pinLaneCntCodeErr 3 0 65535).fld Fld.pinLaneStatState 3 = 2) ∧
    ((laneIn 0 1).laneHears 0 = true ∧ (laneIn 1 2).laneHears 1 = true ∧ (laneIn 0 0).laneHears 0 = false ∧
      (let s := (laneIn 0 1).setFld Fld.wtuBootLockLock 4
       s.follower = true ∧ s.beyondChain = false ∧ (s.setFld Fld.pinLaneStatPeerIndex 15 0).beyondChain = true) ∧ (laneIn 0 1).follower = false) ∧
    ((laneIn 1 2).fld Fld.pinLaneStatState 1 = 2 ∧ ((laneIn 1 1).lane 1).locked = true ∧
      ((laneIn 1 2).setFlag Fld.pinLaneStatOfsValid true 1).flag Fld.pinLaneStatOfsValid 1 = true ∧
      (laneIn 1 2).flag Fld.pinLaneStatOfsValid 1 = false) := by
  and_intros <;> decide +kernel

/-- A lane aligned, with a message under way. -/
def laneUp (l : Nat) : State :=
  (State.reset.setFld Fld.pinLaneStatState 2 l).setLane l { locked := true, active := true, unacked := [(7, [1]), (8, [2])], expect := 65535 }
/-- States that meet the hypotheses of StreamsAndWordsCrossTheLanes, clause by clause. -/
theorem wit_StreamsAndWordsCrossTheLanes :
    ((laneUp 0).aligned 0 = true ∧ (laneUp 0).beyondChain = false ∧ ((laneUp 0).lane 0).expect = (65535 : BitVec 16).toNat ∧
      ((laneUp 0).lane 0).bufs.length < 16 ∧ State.reset.aligned 0 = false ∧
      (let s := (laneUp 0).setLane 0 { (laneUp 0).lane 0 with bufs := List.replicate 16 [1] }
       16 ≤ (s.lane 0).bufs.length)) ∧
    ((streamTake 40 (laneUp 0)).aligned 0 = true ∧ ((streamTake 40 (laneUp 0)).lane 0).active = true ∧
      (streamTake 40 State.reset).aligned 0 = false ∧ (laneUp 1).aligned 1 = true ∧ State.reset.aligned 1 = false) ∧
    ((laneUp 1).laneHears 1 = true ∧ State.reset.laneHears 1 = false) ∧
    (let s := (laneUp 3).setFlag Fld.pinLaneCfgPcs true 3
     s.aligned 3 = true ∧ s.flag Fld.pinLaneCfgPcs 3 = true ∧ (laneUp 3).flag Fld.pinLaneCfgPcs 3 = false ∧
     idleWord true 0x1E true = true ∧ idleWord false 0x50BC false = false ∧ idleWord false (0x11 * 2 ^ 32 + 0x50BC) false = true ∧
     s.flag Fld.pinLaneCfgDropIdle 3 = false ∧ (s.setFlag Fld.pinLaneCfgDropIdle true 3).flag Fld.pinLaneCfgDropIdle 3 = true ∧
     s.queRuns (s.fld Fld.pinLaneCfgQrx 3) = false) ∧
    (let s := ((queState 0).setFld Fld.pinLaneStatState 2 3).setFld Fld.pinLaneCfgQrx 159 3
     let t := (s.setFld Fld.pinLaneCfgQtx 159 3).setFlag Fld.queStatEmpty false 159
     s.fld Fld.pinLaneCfgQrx 3 = 159 ∧ s.queRuns 159 = true ∧ 0 < s.queRoom 159 ∧ s.aligned 3 = true ∧
     t.fld Fld.pinLaneCfgQtx 3 = 159 ∧ t.aligned 3 = true ∧ t.queRuns 159 = true ∧ t.flag Fld.queStatEmpty 159 = false) := by
  and_intros <;> decide +kernel

/-- States that meet the hypotheses of TheTestPortAnswers, clause by clause. -/
theorem wit_TheTestPortAnswers :
    ((jtagInstr 0x20 State.reset).flag Fld.wtuDebugDisable = false ∧ (jtagInstr 0x21 State.reset).flag Fld.wtuDebugDisable = false ∧
      (jtagInstr 0x22 State.reset).flag Fld.wtuDebugDisable = false) ∧
    (let s := State.reset.setFlag Fld.wtuDebugDisable true
     (jtagInstr 0x20 s).flag Fld.wtuDebugDisable = true ∧ (jtagInstr 0x21 s).flag Fld.wtuDebugDisable = true ∧
     (jtagInstr 0x22 s).flag Fld.wtuDebugDisable = true) ∧
    ((jtagInstr 0x20 State.reset).priv .jtag = 2 ∧ (jtagInstr 0x20 (State.reset.setFld Fld.wtuLinkPriv 1 2)).priv .jtag ≠ 2 ∧
      (jtagInstr 0x22 (State.reset.setFld Fld.wtuLinkPriv 0 2)).priv .jtag = 0) ∧
    (let u := jtagInstr 0x21 State.reset
     u.readbackCause 127 511 ≠ 0 ∧ (let s := jtagInstr 0x21 (State.reset.setReg Reg.stwSecHold 0 79)
       s.readbackCause 79 0 = 0)) ∧
    (let t := jtagInstr 0x20 State.reset
     (ldrOffer 3 none false [1, 2, 3] t).2 = .took 3) ∧
    ((ldrOffer 3 none false [1] (jtagInstr 0x20 (ldrState 1 2 []))).2 = .refused Code.ldrBusy ∧
      (ldrOffer 3 none true [1] (jtagInstr 0x20 State.reset)).2 = .beyond) := by
  and_intros <;> decide +kernel

end Sys2Proof.Tests
end

/-! PROOFS of the family 09_kell_instruction_set: what an operation of either place leaves when it ends beside a NOP, the corner
cases of division (R376), and trapped flags (R408). -/

namespace Sys2Proof.Machine

/-! ### An operation of either place in operation 0 -/

/-- In operation 0 an operation of either place (R369) writes its result to gRD and does nothing else. -/
theorem op0_of_alu (n c : Nat) (w : W32) (s : State) :
    ∀ m ∈ aluMn, op0 n c m w s = .done (s.setG n c (opRd w) (aluOf n c m w s).1) none := by
  simp only [aluMn, intOps, qfxOps, fpOps, List.cons_append, List.nil_append, List.forall_mem_cons, List.not_mem_nil,
    false_implies, implies_true, and_true]
  and_intros <;> rfl

/-- LONG_OP_COMPLETE runs the bundle of a running context to its end (R372). -/
theorem exec_longOpComplete_of_bundle {s : State} {n : Fin 96} {c : Nat} {m0 m1 : Mn} {w0 w1 : W32}
    (hb : s.Bundle n c m0 m1 w0 w1) (hl : (s.ctx n c).long = true) (hs : s.ctxState n c = 2) (hk : s.engClocked n = true) :
    exec (.longOpComplete n) s = .next (runBundle n c m0 m1 w0 w1 true s) := by
  rw [exec_longOpComplete, execLongOpComplete, longComplete_of_bundle hb hl hs hk]

/-- A NOP raises no flag. -/
theorem aluOf_nop_flags (n c : Nat) (w : W32) (s : State) : (aluOf n c .nop w s).2 = 0 := rfl

/-- The end of a bundle that holds one operation of either place beside a NOP, with no flag trapped: gRD holds the result, and
the operation's flags join FLAGS (R367, R372). -/
theorem longOpComplete_beside_nop {s : State} {n : Fin 96} {c : Nat} {m : Mn} {w : W32} (hb : s.Bundle n c m .nop w 0)
    (hl : (s.ctx n c).long = true) (hs : s.ctxState n c = 2) (hk : s.engClocked n = true) (ht : (s.ctx n c).trapen = 0)
    (hc : Tab.wf {} s.ctxs = true) (hg : Tab.wf 0 (s.ctx n c).g = true) (hm : m ∈ aluMn) :
    ∃ t, exec (.longOpComplete n) s = .next t ∧ t.g n c (opRd w) = (aluOf n c m w s).1 ∧
      (t.ctx n c).flags = (s.ctx n c).flags ||| (aluOf n c m w s).2 := by
  have hf : (if op1Ok w then (aluOf n c m w s).2 else 0) ||| (aluOf n c .nop 0 s).2 = (aluOf n c m w s).2 := by
    rw [if_pos (op1Ok_of_alu hb.op0 hm), aluOf_nop_flags, Nat.or_zero]
  have hends := runBundle_ends (op0_of_alu n c w s m hm) (m1 := .nop) (w1 := 0) (by rw [ht, Nat.and_zero])
  have hexec := exec_longOpComplete_of_bundle hb hl hs hk
  rw [hends, hf] at hexec
  exact ⟨_, hexec, finish_nop_self hc hg (opRd w) _ _ _ _⟩

/-! ### The corner cases of division (R376) -/

theorem intDiv_zero (a : W64) : intDiv a 0 = (BitVec.allOnes 64, fIDZ) := rfl
theorem natDiv_zero (a : W64) : natDiv a 0 = (BitVec.allOnes 64, fIDZ) := rfl
theorem intRem_zero (a : W64) : intRem a 0 = (a, fIDZ) := rfl
theorem natRem_zero (a : W64) : natRem a 0 = (a, fIDZ) := rfl

/-- A divisor that reads −1 is not 0. -/
theorem ne_zero_of_toInt_neg_one {b : W64} (h : b.toInt = -1) : b ≠ 0 := by
  rintro rfl
  exact absurd h (by decide)

/-- The one signed division whose quotient does not fit returns the dividend and raises IOV. -/
theorem intDiv_overflow {a b : W64} (ha : a.toInt = -2 ^ 63) (hb : b.toInt = -1) : intDiv a b = (a, fIOV) := by
  rw [intDiv, if_neg (ne_zero_of_toInt_neg_one hb), if_pos ⟨by rw [ha]; rfl, hb⟩]

/-- The remainder of the same operands is 0 and raises nothing. -/
theorem intRem_overflow {a b : W64} (ha : a.toInt = -2 ^ 63) (hb : b.toInt = -1) : intRem a b = (0, 0) := by
  rw [intRem, if_neg (ne_zero_of_toInt_neg_one hb), ha, hb]
  rfl

/-- Settles O29: the bundle's end leaves what the ALU computes, and the corners are the ALU's own cases. -/
theorem divisionCornersFollowTheirRule : Obligations.DivisionCornersFollowTheirRule := by
  intro s n c m w hB hl hs hk ht hc hg a b ends
  have key {r : W64} {f : Nat} (hm : m ∈ aluMn) (h : aluOf n c m w s = (r, f)) : ends r f := by
    have he := longOpComplete_beside_nop hB hl hs hk ht hc hg hm
    rwa [h] at he
  refine ⟨fun hb => ⟨?_, ?_⟩, fun ha hb => ⟨?_, ?_⟩⟩
  · rintro (rfl | rfl)
    · exact key (by decide) (show intDiv a b = _ by rw [hb, intDiv_zero])
    · exact key (by decide) (show natDiv a b = _ by rw [hb, natDiv_zero])
  · rintro (rfl | rfl)
    · exact key (by decide) (show intRem a b = _ by rw [hb, intRem_zero])
    · exact key (by decide) (show natRem a b = _ by rw [hb, natRem_zero])
  · rintro rfl
    exact key (by decide) (intDiv_overflow ha hb)
  · rintro rfl
    exact key (by decide) (intRem_overflow ha hb)

/-! ### Trapped flags (R408) -/

/-- A bundle that has its results, one of whose flags is trapped, faults with all its flags in TCAUSE. -/
theorem runBundle_trapped {s t : State} {n c : Nat} {m0 m1 : Mn} {w0 w1 : W32} {pc : Option Nat} {ends : Bool}
    (ho : op0 n c m0 w0 s = .done t pc) (hl : ends = true ∨ longMn m0 = false ∧ longMn m1 = false) :
    let x := s.ctx n c
    let f0 := if op1Ok w0 then (aluOf n c m0 w0 s).2 else 0
    let all := f0 ||| (aluOf n c m1 w1 s).2
    all &&& x.trapen ≠ 0 → runBundle n c m0 m1 w0 w1 ends s =
      preciseFault n c Code.arithTrap (f0 &&& x.trapen == 0) 0 (s.setCtx n c { x with tcause := all, long := false }) := by
  intro x f0 all hf
  have hr : ((longMn m0 || longMn m1) && !ends) = false := by
    rcases hl with h | ⟨h0, h1⟩
    · rw [h, Bool.not_true, Bool.and_false]
    · rw [h0, h1, Bool.or_self, Bool.false_and]
  simp only [runBundle, ho, hr, Bool.false_eq_true, if_false]
  exact if_pos hf

/-- The same bundle with none of its flags trapped finishes. -/
theorem runBundle_untrapped {s t : State} {n c : Nat} {m0 m1 : Mn} {w0 w1 : W32} {pc : Option Nat} {ends : Bool}
    (ho : op0 n c m0 w0 s = .done t pc) (hl : ends = true ∨ longMn m0 = false ∧ longMn m1 = false) :
    let all := (if op1Ok w0 then (aluOf n c m0 w0 s).2 else 0) ||| (aluOf n c m1 w1 s).2
    all &&& (s.ctx n c).trapen = 0 →
      runBundle n c m0 m1 w0 w1 ends s = finish n c m1 w1 (aluOf n c m1 w1 s).1 all (pc.getD (s.pc n c + 8)) t := by
  intro all hf
  rcases hl with rfl | ⟨h0, h1⟩
  · exact runBundle_ends ho hf
  · exact runBundle_done ho h0 h1 hf ends

/-- A trap's fault leaves FLAGS and the registers, and TCAUSE as the trap set it. -/
theorem trapFault_keeps {s : State} (hc : Tab.wf {} s.ctxs = true) (n c code all : Nat) (second : Bool) (addr : Nat) :
    let u := preciseFault n c code second addr (s.setCtx n c { s.ctx n c with tcause := all, long := false })
    (u.ctx n c).flags = (s.ctx n c).flags ∧ (u.ctx n c).tcause = all ∧ ∀ r, u.g n c r = s.g n c r := by
  obtain ⟨hflags, htcause, hregs⟩ := Laws.preciseFault_keeps
    (State.wf_setCtx hc n c { s.ctx n c with tcause := all, long := false }) n c code second addr
  rw [State.ctx_setCtx_self hc] at hflags htcause hregs
  exact ⟨hflags, htcause, fun r => congrArg (Tab.get 0 · r) hregs⟩

/-- The single-issue operations that can raise a flag, with the commands that issue them. -/
def flagRows (n : Fin 96) : List (Instr × Mn) :=
  [(.kAddv n, .addv), (.kSubv n, .subv), (.kQadd n, .qadd), (.kQsub n, .qsub), (.kQmul n, .qmul), (.kQshl n, .qshl),
   (.kQshr n, .qshr), (.kQabs n, .qabs), (.kQneg n, .qneg), (.kQshli n, .qshli), (.kQshri n, .qshri), (.kFadd n, .fadd),
   (.kFsub n, .fsub), (.kFmul n, .fmul), (.kFma n, .fma), (.kFmin n, .fmin), (.kFmax n, .fmax), (.kFneg n, .fneg),
   (.kFabs n, .fabs), (.kFeq n, .feq), (.kFlt n, .flt), (.kFle n, .fle), (.kFround n, .fround), (.kFcvtFx n, .fcvtFx),
   (.kFcvtXf n, .fcvtXf), (.kFcvtFxu n, .fcvtFxu)]

/-- Each of those commands issues its operation. -/
theorem exec_flagRows (n : Fin 96) (s : State) : ∀ r ∈ flagRows n, exec r.1 s = .next (issue n r.2 s) := by
  simp only [flagRows, List.forall_mem_cons, List.not_mem_nil, false_implies, implies_true, and_true]
  and_intros <;> rfl

/-- Settles O36: issued or at its long operation's end, the bundle runs, and its trapped flags decide between the fault and the
finish. -/
theorem trappedFlagsFaultTheBundle : Obligations.TrappedFlagsFaultTheBundle := by
  intro s t n c m0 m1 w0 w1 pc hc ho x f0 all u goes
  have runs {i : Instr} {ends : Bool} (hl : ends = true ∨ longMn m0 = false ∧ longMn m1 = false)
      (he : exec i s = .next (runBundle n c m0 m1 w0 w1 ends s)) : goes i := by
    refine ⟨fun hf => ⟨?_, trapFault_keeps hc n c _ _ _ _⟩, fun hf => ?_⟩
    · rw [he, runBundle_trapped ho hl hf]
    · rw [he, runBundle_untrapped ho hl hf]
  refine ⟨fun hi h0 h1 r hr hm => ?_, fun hb hl hs hk => ?_⟩
  · exact runs (.inr ⟨h0, h1⟩) (by rw [exec_flagRows n s r hr, issue_of_issues hi hm])
  · exact runs (.inl rfl) (exec_longOpComplete_of_bundle hb hl hs hk)

end Sys2Proof.Machine

/-! PROOFS of the family 11_translation_and_protection: a Warden's write of a lifetime register, and WTU_SVN (R476). -/

namespace Sys2Proof.Machine

/-! ### A Warden's write of a lifetime register -/

/-- The Warden writes under owner code WARDEN (R455). -/
theorem State.ownerCode_of_warden {s : State} {w : Writer} (hw : s.priv w = 2) : s.ownerCode w = 0 := if_pos hw

/-- On a link at Warden privilege neither the link nor the register turns the writer away. -/
theorem State.linked_wardenOr {s : State} {w : Writer} (hw : s.priv w = 2) (off off' : Nat) (f : State → State) :
    s.linked w off (fun s => s.wardenOr w off' f) = f s := by
  simp [State.linked, State.wardenOr, State.warden, hw]

/-- The store shows busy once it has taken a register. -/
theorem lifeTake_busy {s : State} (h : s.Regular) (r : Reg) (i : Nat) (key : List W32) :
    (lifeTake r i key s).flag Fld.wtuLifeStatLifeBusy = true :=
  State.flag_setFlag_self h _ _ _ _ (by decide) (by decide)

/-- Fields outside WTU_LIFE_STAT read as before while the store takes a register. -/
theorem lifeTake_fld (r : Reg) (i : Nat) (key : List W32) (s : State) {f : Fld} {i' j' : Nat}
    (hf : f.reg.addr i' j' ≠ Reg.wtuLifeStat.addr 0 0) : (lifeTake r i key s).fld f i' j' = s.fld f i' j' :=
  State.fld_setFlag_ne s Fld.wtuLifeStatLifeBusy f true hf

theorem State.Regular.lifeTake {s : State} (h : s.Regular) (r : Reg) (i : Nat) (key : List W32) :
    (lifeTake r i key s).Regular :=
  h.setFlag Fld.wtuLifeStatLifeBusy true 0 0

/-- A Warden's refused lifetime write stands in the denial record under code WARDEN (R485). -/
theorem lifeDeny_of_warden {s : State} {w : Writer} (hw : s.priv w = 2) (r : Reg) (i code : Nat) :
    lifeDeny w r i code s = s.deny code 0 0 (r.addr i 0 / 2 ^ 12) := by
  rw [lifeDeny, State.ownerCode_of_warden hw]

/-! ### WTU_SVN (R476) -/

/-- WTU_SVN after a rise to `v`: one change less, however large the step, and the store at work on it. -/
def svnRaised (v : Nat) (s : State) : State :=
  ((lifeTake Reg.wtuSvn 0 [] s).setFld Fld.wtuSvnRemain (s.fld Fld.wtuSvnRemain - 1)).setFld Fld.wtuSvnSvn v

/-- What a Warden's SVN_WRITE does while the store is free: the refusals, the equal value and the rise, in this order. -/
theorem exec_svnWrite_of_warden {s : State} {w : Writer} (hw : s.priv w = 2) (hb : s.flag Fld.wtuLifeStatLifeBusy = false)
    (v : W32) :
    let no := fun code => s.deny code 0 0 (Reg.wtuSvn.addr 0 0 / 2 ^ 12)
    exec (.svnWrite w v) s = .next (
      if bitsW v 0 8 < s.fld Fld.wtuSvnSvn ∨ 128 < bitsW v 0 8 then no Code.lifeBad
      else if bitsW v 0 8 = s.fld Fld.wtuSvnSvn then s
      else if s.fld Fld.wtuSvnRemain = 0 then no Code.lifeSpent
      else svnRaised (bitsW v 0 8) s) := by
  have hr := lifeTake_fld Reg.wtuSvn 0 [] s (f := Fld.wtuSvnRemain) (i' := 0) (j' := 0) (by decide)
  rw [exec_svnWrite, execSvnWrite]
  unfold svnWrite
  simp only [State.linked_wardenOr hw, lifeDeny_of_warden hw, hb, hr, svnRaised, Bool.false_eq_true, if_false]

/-- A value of the field's width is the SVN the rise leaves. -/
theorem svnRaised_svn {s : State} (h : s.Regular) {v : Nat} (hv : v < 2 ^ 8) :
    (svnRaised v s).fld Fld.wtuSvnSvn = v := by
  rw [svnRaised, State.fld_setFld_self ((h.lifeTake _ _ _).setFld _ _ _ _) _ _ _ _ (by decide)]
  exact Nat.mod_eq_of_lt hv

/-- A rise leaves one change less. -/
theorem svnRaised_remain {s : State} (h : s.Regular) (v : Nat) :
    (svnRaised v s).fld Fld.wtuSvnRemain = s.fld Fld.wtuSvnRemain - 1 := by
  have hlt : s.fld Fld.wtuSvnRemain < 2 ^ 8 := Nat.mod_lt _ (by decide)
  rw [svnRaised, State.fld_setFld_apart ((h.lifeTake _ _ _).setFld _ _ _ _) Fld.wtuSvnSvn Fld.wtuSvnRemain _ _ _ rfl (by decide),
    State.fld_setFld_self (h.lifeTake _ _ _) _ _ _ _ (by decide)]
  exact Nat.mod_eq_of_lt (Nat.lt_of_le_of_lt (Nat.sub_le _ _) hlt)

/-- A rise leaves the store busy. -/
theorem svnRaised_busy {s : State} (h : s.Regular) (v : Nat) :
    (svnRaised v s).flag Fld.wtuLifeStatLifeBusy = true := by
  rw [svnRaised, State.flag_setFld_ne _ _ _ _ (by decide), State.flag_setFld_ne _ _ _ _ (by decide), lifeTake_busy h]

/-- Settles O39: the cold word of WTU_SVN, then the branches of a Warden's write while the store is free. -/
theorem securityVersionOnlyRises : Obligations.SecurityVersionOnlyRises := by
  refine ⟨by decide, fun s w v h hw hb => ⟨fun hup hmax hleft => ?_, fun hbad => ?_⟩⟩
  · refine ⟨svnRaised (bitsW v 0 8) s, ?_, svnRaised_svn h (by omega), ?_, svnRaised_busy h _⟩
    · rw [exec_svnWrite_of_warden hw hb, if_neg (by omega), if_neg (by omega), if_neg hleft]
    · rw [svnRaised_remain h]
      omega
  · rw [exec_svnWrite_of_warden hw hb, if_pos hbad]

end Sys2Proof.Machine

/-! PROOFS about steps, registers and memory: the queue and the invariant under every step, and the accessors of the state. -/

namespace Sys2Proof.Machine

/-! ### Steps -/

/-- A step with a command waiting performs it on the state with the queue's rest. -/
theorem step_of_front {s : State} {c : Instr} {rest : List Instr} (h : s.pending = c :: rest) :
    step s = exec c { s with pending := rest } := by
  simp only [step, h]

/-- A step with nothing waiting idles. -/
theorem step_of_empty {s : State} (h : s.pending = []) : step s = .next (idle s) := by
  simp only [step, h]

/-- Settles O1: the two cases of a step, and the three of an idle one. -/
theorem stepPerformsTheFrontCommand : Obligations.StepPerformsTheFrontCommand := by
  refine ⟨fun c rest s h => step_of_front h, fun s h hr => ?_, fun s h hr hd => ?_, fun s h hr hd => ?_⟩
  all_goals rw [step_of_empty h, idle, hr]
  · rfl
  · rw [hd]; rfl
  · rw [hd]; rfl

/-- Settles O2. -/
theorem resetIsSound : Obligations.ResetIsSound := ⟨State.inv_reset, rfl⟩

/-- From a sound state a step answers a sound state, before which the commands behind the first wait. -/
theorem step_ok {s : State} (h : s.Inv) : OkOut s.pending.tail (step s) := by
  cases hq : s.pending with
  | nil =>
    rw [step_of_empty hq]
    exact .next (idle_ok s ⟨hq, h⟩)
  | cons c rest =>
    rw [step_of_front hq]
    exact Laws.exec_ok rest c _ ⟨rfl, ⟨⟨h.canonical.regs, h.canonical.mem, h.canonical.frames, h.canonical.engs⟩,
      ⟨h.within.engs, h.within.west, h.within.east, h.within.planned, h.within.held⟩⟩⟩

/-- Settles O3: every step keeps what is sound, command by command. -/
theorem everyStepKeepsTheInvariant : Obligations.EveryStepKeepsTheInvariant := fun _ h =>
  let ⟨t, hstep, hok⟩ := step_ok h
  ⟨t, hstep, hok.inv⟩

/-- Settles O4: what every step keeps names the queue it leaves. -/
theorem commandsLeaveTheQueueInOrder : Obligations.CommandsLeaveTheQueueInOrder := by
  intro s t h ht
  obtain ⟨u, hstep, hok⟩ := step_ok h
  cases ht.symm.trans hstep
  exact hok.queue

/-! ### Registers and memory -/

/-- Settles O5: the laws of a register write and of a field. -/
theorem registerWriteReadsBack : Obligations.RegisterWriteReadsBack :=
  ⟨fun s r v i j h => ⟨State.reg_setReg_self h r v i j, h.setReg r v i j, fun r' _ _ ha => State.reg_setReg_ne s r r' v ha,
      _, rfl⟩,
    fun _ f g v i j h hf => ⟨State.fld_setFld_self h f v i j hf, fun hr ha => State.fld_setFld_apart h f g v i j hr ha⟩⟩

theorem bytesLE_length (k : Nat) : ∀ v, (bytesLE k v).length = k := by
  induction k with
  | zero => exact fun _ => rfl
  | succ k ih => exact fun v => congrArg (· + 1) (ih (v / 256))

/-- The k bytes of a number spell it, cut to k bytes. -/
theorem natLE_bytesLE (k : Nat) : ∀ v, natLE (bytesLE k v) = v % 256 ^ k := by
  induction k with
  | zero => intro v; rw [Nat.pow_zero, Nat.mod_one]; rfl
  | succ k ih =>
    intro v
    rw [bytesLE, natLE, ih, BitVec.toNat_ofNat, Nat.pow_succ' (m := 256)]
    exact (Nat.mod_mul (x := v) (a := 256)).symm

/-- Byte i of the k bytes of a number. -/
theorem bytesLE_getD (k : Nat) : ∀ v i, i < k → (bytesLE k v).getD i 0 = BitVec.ofNat 8 (v / 256 ^ i) := by
  induction k with
  | zero => exact fun _ _ h => absurd h (Nat.not_lt_zero _)
  | succ k ih =>
    intro v i h
    cases i with
    | zero => rw [Nat.pow_zero, Nat.div_one]; rfl
    | succ i =>
      rw [bytesLE, List.getD_cons_succ, ih _ _ (Nat.lt_of_succ_lt_succ h), Nat.div_div_eq_div_mul, Nat.pow_succ']

/-- Counting up from a maps the places of a list to its entries. -/
theorem map_upFrom_eq {α : Type} (f : Nat → α) (d : α) : ∀ (l : List α) (a : Nat),
    (∀ k, k < l.length → f (a + k) = l.getD k d) → (upFrom a l.length).map f = l
  | [], _, _ => rfl
  | x :: l, a, h => by
    have h0 : f a = x := h 0 (Nat.succ_pos _)
    have hrest := map_upFrom_eq f d l (a + 1) fun k hk => by
      rw [Nat.add_assoc, Nat.add_comm 1 k]
      exact h (k + 1) (Nat.succ_lt_succ hk)
    rw [List.length_cons, upFrom, List.map_cons, h0, hrest]

/-- The bytes written read back, in their order. -/
theorem State.memBytes_setMemWord {s : State} (h : Memory.wf s.mem = true) (a : Nat) (w : W64) :
    (s.setMemWord a w).memBytes a 8 = bytesLE 8 w.toNat :=
  map_upFrom_eq _ 0 (bytesLE 8 w.toNat) a fun k hk => Memory.get_setBytes_in _ _ a k h hk

/-- Settles O6: the eight bytes of the word stand where they were written, and they spell it. -/
theorem memoryWordReadsBack : Obligations.MemoryWordReadsBack := by
  intro s a w h
  have hlen : (bytesLE 8 w.toNat).length = 8 := bytesLE_length 8 _
  refine ⟨?_, fun k hk => ?_, fun b hb => ?_, Memory.wf_bytes _ a h, _, rfl⟩
  · rw [State.memWord, State.memBytes_setMemWord h, natLE_bytesLE, Nat.mod_eq_of_lt (by omega), BitVec.ofNat_toNat,
      BitVec.setWidth_eq]
  · have hbyte : (s.setMemWord a w).memByte (a + k) = (bytesLE 8 w.toNat).getD k 0 :=
      Memory.get_setBytes_in _ s.mem a k h (by omega)
    rw [hbyte, bytesLE_getD 8 _ k hk]
    have hpow : 256 ^ k = 2 ^ (8 * k) := (Nat.pow_mul (a := 2) (m := 8) (n := k)).symm
    apply BitVec.eq_of_toNat_eq
    rw [BitVec.toNat_ofNat, BitVec.toNat_setWidth, BitVec.toNat_ushiftRight, Nat.shiftRight_eq_div_pow, hpow]
  · exact Memory.get_setBytes_out _ s.mem a b (by omega)

end Sys2Proof.Machine

/-! PROOFS about the engines' operations of either place (R369): what each leaves in its register and in FLAGS, in operation 0 and in
operation 1, and how the long ones wait and end (R371, R372). -/

namespace Sys2Proof.Machine

/-! ### Bundles with an operation of either place -/

section

variable {s t : State} {n c : Nat} {m0 m1 : Mn} {w0 w1 : W32} {v : W64} {f : Nat} {pc : Option Nat} {ends : Bool}

/-- The flags operation 0 adds to its bundle's. -/
def flags0 (n c : Nat) (m0 : Mn) (w0 : W32) (s : State) : Nat := if op1Ok w0 then (aluOf n c m0 w0 s).2 else 0

/-- A bundle whose operation 0 is done, whose long operations have ended, and whose flags trap nothing, finishes (R372). -/
theorem runBundle_finish (ho : op0 n c m0 w0 s = .done t pc) (hl : ends = true ∨ longMn m0 = false ∧ longMn m1 = false)
    (hf : (flags0 n c m0 w0 s ||| (aluOf n c m1 w1 s).2) &&& (s.ctx n c).trapen = 0) :
    runBundle n c m0 m1 w0 w1 ends s = finish n c m1 w1 (aluOf n c m1 w1 s).1
      (flags0 n c m0 w0 s ||| (aluOf n c m1 w1 s).2) (pc.getD (s.pc n c + 8)) t :=
  runBundle_untrapped ho hl hf

/-- In operation 0 an operation of either place writes its result to gRD and joins its flags to those of operation 1. -/
theorem runBundle_alu0 (h0 : opMn w0 = some m0) (hm : m0 ∈ aluMn) (ha : aluOf n c m0 w0 s = (v, f))
    (hl : ends = true ∨ longMn m0 = false ∧ longMn m1 = false)
    (hf : (flags0 n c m0 w0 s ||| (aluOf n c m1 w1 s).2) &&& (s.ctx n c).trapen = 0) :
    runBundle n c m0 m1 w0 w1 ends s = finish n c m1 w1 (aluOf n c m1 w1 s).1 (f ||| (aluOf n c m1 w1 s).2) (s.pc n c + 8)
      (s.setG n c (opRd w0) v) := by
  have hflags : flags0 n c m0 w0 s = f := by rw [flags0, if_pos (op1Ok_of_alu h0 hm), ha]
  rw [runBundle_finish (op0_of_alu n c w0 s m0 hm) hl hf, hflags, ha]
  rfl

/-- In operation 1 it writes its result beside whatever operation 0 does. -/
theorem runBundle_alu1 (ho : op0 n c m0 w0 s = .done t pc) (ha : aluOf n c m1 w1 s = (v, f))
    (hl : ends = true ∨ longMn m0 = false ∧ longMn m1 = false)
    (hf : (flags0 n c m0 w0 s ||| (aluOf n c m1 w1 s).2) &&& (s.ctx n c).trapen = 0) :
    runBundle n c m0 m1 w0 w1 ends s =
      finish n c m1 w1 v (flags0 n c m0 w0 s ||| f) (pc.getD (s.pc n c + 8)) t := by
  rw [runBundle_finish ho hl hf, ha]

end

/-! ### The integer operations that take one issue (R375) -/

/-- The commands of those operations, each with its result on the registers as they stand. -/
def intRows (n : Fin 96) (c : Nat) (w : W32) (s : State) : List (Instr × Mn × W64) :=
  let a := s.g n c (opRa w)
  let b := s.g n c (opRb w)
  let d := s.g n c (opRd w)
  let x := BitVec.ofInt 64 (opSImm w)
  let z := BitVec.ofNat 64 (opImm w)
  [(.kAdd n, .add, a + b), (.kSub n, .sub, a - b), (.kAnd n, .and_, a &&& b), (.kOr n, .or_, a ||| b), (.kXor n, .xor, a ^^^ b),
   (.kShl n, .shl, a <<< bitsW b 0 6), (.kShr n, .shr, a >>> bitsW b 0 6), (.kSar n, .sar, a.sshiftRight (bitsW b 0 6)),
   (.kRor n, .ror, a.rotateRight (bitsW b 0 6)), (.kSlt n, .slt, if a.toInt < b.toInt then 1 else 0),
   (.kSltu n, .sltu, if a.toNat < b.toNat then 1 else 0), (.kSeq n, .seq, if a = b then 1 else 0),
   (.kMin n, .min, if a.toInt < b.toInt then a else b), (.kMax n, .max, if a.toInt < b.toInt then b else a),
   (.kMinu n, .minu, if a.toNat < b.toNat then a else b), (.kMaxu n, .maxu, if a.toNat < b.toNat then b else a),
   (.kMul n, .mul, a * b), (.kMulh n, .mulh, BitVec.ofInt 64 (a.toInt * b.toInt / 2 ^ 64)),
   (.kMulhu n, .mulhu, BitVec.ofNat 64 (a.toNat * b.toNat / 2 ^ 64)), (.kClz n, .clz, BitVec.ofNat 64 (leadingZeros a)),
   (.kPopc n, .popc, BitVec.ofNat 64 (onesCount a)), (.kCmovnz n, .cmovnz, if b ≠ 0 then a else d),
   (.kCmovz n, .cmovz, if b = 0 then a else d), (.kAddi n, .addi, a + x), (.kAndi n, .andi, a &&& z), (.kOri n, .ori, a ||| z),
   (.kXori n, .xori, a ^^^ z), (.kSlti n, .slti, if a.toInt < x.toInt then 1 else 0),
   (.kSltiu n, .sltiu, if a.toNat < x.toNat then 1 else 0), (.kShi n, .shi, shiftBy (bitsW w 8 2) a (bitsW w 0 6)),
   (.kLdi n, .ldi, x), (.kInsh n, .insh, putBits d (16 * opK w) 16 (opImm w))]

/-- The comparisons of words as comparisons of their values. -/
theorem slt_eq_decide (a b : W64) : a.slt b = decide (a.toInt < b.toInt) := rfl
theorem ult_eq_decide (a b : W64) : a.ult b = decide (a.toNat < b.toNat) := rfl
theorem beq_eq_decide (a b : W64) : (a == b) = decide (a = b) := rfl

/-- A truth value as a word. -/
theorem wBool_decide (p : Prop) [Decidable p] : wBool (decide p) = if p then 1 else 0 := by
  by_cases h : p <;> simp [wBool, h]

/-- Each is an operation of either place, which its command issues. -/
theorem intRows_issue (n : Fin 96) (c : Nat) (w : W32) (s : State) :
    ∀ r ∈ intRows n c w s, r.2.1 ∈ aluMn ∧ exec r.1 s = .next (issue n r.2.1 s) := by
  have mem : ∀ r ∈ intRows n c w s, r.2.1 ∈ aluMn := by
    simp only [intRows, List.forall_mem_cons, List.not_mem_nil, false_implies, implies_true, and_true]
    and_intros <;> decide
  have row : ∀ r ∈ intRows n c w s, exec r.1 s = .next (issue n r.2.1 s) := by
    simp only [intRows, List.forall_mem_cons, List.not_mem_nil, false_implies, implies_true, and_true]
    and_intros <;> rfl
  exact fun r hr => ⟨mem r hr, row r hr⟩

/-- Its result is the row's, and it raises no flag. -/
theorem intRows_alu (n : Fin 96) (c : Nat) (w : W32) (s : State) :
    ∀ r ∈ intRows n c w s, aluOf n c r.2.1 w s = (r.2.2, 0) := by
  simp only [intRows, List.forall_mem_cons, List.not_mem_nil, false_implies, implies_true, and_true, true_and, aluOf, alu,
    slt_eq_decide, ult_eq_decide, beq_eq_decide, wBool_decide, decide_eq_true_eq, Prod.mk.injEq, ne_eq, ite_not]
  and_intros <;> rfl

/-- Settles O26: each row's result is the ALU's, in either place. -/
theorem integerOperationsWriteTheirResult : Obligations.IntegerOperationsWriteTheirResult := by
  intro s n c m0 m1 w0 w1 rows hi h0 h1 hf
  constructor
  · rintro r hr rfl
    obtain ⟨hm, hexec⟩ := intRows_issue n c w0 s r hr
    rw [hexec, issue_of_issues hi (.inl rfl), runBundle_alu0 hi.op0 hm (intRows_alu n c w0 s r hr) (.inr ⟨h0, h1⟩) hf]
  · rintro r hr rfl t pc ho
    obtain ⟨-, hexec⟩ := intRows_issue n c w1 s r hr
    rw [hexec, issue_of_issues hi (.inr rfl), runBundle_alu1 ho (intRows_alu n c w1 s r hr) (.inr ⟨h0, h1⟩) hf]
    rfl

/-! ### The fixed-point, binary64 and conversion operations that take one issue (R377 to R379) -/

/-- The commands of those operations, each with its result and flags on the registers as they stand. -/
def flagResults (n : Fin 96) (c : Nat) (w : W32) (s : State) : List (Instr × Mn × W64 × Nat) :=
  let a := s.g n c (opRa w)
  let b := s.g n c (opRb w)
  let d := s.g n c (opRd w)
  let rm := (s.ctx n c).rm
  [(.kAddv n, .addv, BitVec.ofInt 64 (a.toInt + b.toInt), if -2 ^ 63 ≤ a.toInt + b.toInt ∧ a.toInt + b.toInt < 2 ^ 63 then 0 else fIOV),
   (.kSubv n, .subv, BitVec.ofInt 64 (a.toInt - b.toInt), if -2 ^ 63 ≤ a.toInt - b.toInt ∧ a.toInt - b.toInt < 2 ^ 63 then 0 else fIOV),
   (.kQadd n, .qadd, saturate (a.toInt + b.toInt)), (.kQsub n, .qsub, saturate (a.toInt - b.toInt)),
   (.kQmul n, .qmul, saturate (roundDiv (a.toInt * b.toInt) (2 ^ 32))),
   (.kQshl n, .qshl, saturate (a.toInt * 2 ^ bitsW b 0 6)), (.kQshr n, .qshr, saturate (roundDiv a.toInt (2 ^ bitsW b 0 6))),
   (.kQabs n, .qabs, saturate a.toInt.natAbs), (.kQneg n, .qneg, saturate (-a.toInt)),
   (.kQshli n, .qshli, saturate (a.toInt * 2 ^ bitsW w 0 6)),
   (.kQshri n, .qshri, saturate (roundDiv a.toInt (2 ^ bitsW w 0 6))), (.kFadd n, .fadd, fAdd rm a b),
   (.kFsub n, .fsub, fSub rm a b), (.kFmul n, .fmul, fMul rm a b), (.kFma n, .fma, fMulAdd rm a b d),
   (.kFmin n, .fmin, fMinMax false a b), (.kFmax n, .fmax, fMinMax true a b), (.kFneg n, .fneg, a ^^^ 0x8000000000000000, 0),
   (.kFabs n, .fabs, a &&& 0x7FFFFFFFFFFFFFFF, 0), (.kFeq n, .feq, fCmpEq a b), (.kFlt n, .flt, fCmpLt a b),
   (.kFle n, .fle, fCmpLe a b), (.kFround n, .fround, fRound rm a),
   (.kFcvtFx n, .fcvtFx, roundInt rm a.toInt (-(bitsW w 0 6 : Int)) false), (.kFcvtXf n, .fcvtXf, fToFixed rm a (bitsW w 0 6)),
   (.kFcvtFxu n, .fcvtFxu, roundInt rm a.toNat (-(bitsW w 0 6 : Int)) false)]

/-- Each is an operation of either place, which its command issues. -/
theorem flagResults_issue (n : Fin 96) (c : Nat) (w : W32) (s : State) :
    ∀ r ∈ flagResults n c w s, r.2.1 ∈ aluMn ∧ exec r.1 s = .next (issue n r.2.1 s) := by
  have mem : ∀ r ∈ flagResults n c w s, r.2.1 ∈ aluMn := by
    simp only [flagResults, List.forall_mem_cons, List.not_mem_nil, false_implies, implies_true, and_true]
    and_intros <;> decide
  have row : ∀ r ∈ flagResults n c w s, exec r.1 s = .next (issue n r.2.1 s) := by
    simp only [flagResults, List.forall_mem_cons, List.not_mem_nil, false_implies, implies_true, and_true]
    and_intros <;> rfl
  exact fun r hr => ⟨mem r hr, row r hr⟩

/-- A sum judged for signed overflow is flagged outside the 64-bit range. -/
theorem withIov_eq (v : Int) : withIov v = (BitVec.ofInt 64 v, if -2 ^ 63 ≤ v ∧ v < 2 ^ 63 then 0 else fIOV) := by
  rw [withIov, wOfInt]
  congr 1
  by_cases h : -2 ^ 63 ≤ v ∧ v < 2 ^ 63
  · rw [if_pos h, if_neg (by omega)]
  · rw [if_neg h, if_pos (by omega)]

/-- A left shift multiplies by the power of two. -/
theorem fixShl_eq (a : W64) (k : Nat) : fixShl a k = saturate (a.toInt * 2 ^ k) := by
  rw [fixShl, Int.natCast_pow, Int.cast_ofNat_Int]

/-- Its result and its flags are the row's. -/
theorem flagResults_alu (n : Fin 96) (c : Nat) (w : W32) (s : State) :
    ∀ r ∈ flagResults n c w s, aluOf n c r.2.1 w s = r.2.2 := by
  simp only [flagResults, List.forall_mem_cons, List.not_mem_nil, false_implies, implies_true, and_true, true_and, aluOf, alu,
    withIov_eq, fixShl_eq]
  and_intros <;> rfl

/-- Settles O27: each row's result and flags are the ALU's, in either place. -/
theorem fixedAndFloatOperationsWriteTheirResult : Obligations.FixedAndFloatOperationsWriteTheirResult := by
  intro s n c m0 m1 w0 w1 rows hi h0 h1 hf
  constructor
  · rintro r hr rfl
    obtain ⟨hm, hexec⟩ := flagResults_issue n c w0 s r hr
    rw [hexec, issue_of_issues hi (.inl rfl), runBundle_alu0 hi.op0 hm (flagResults_alu n c w0 s r hr) (.inr ⟨h0, h1⟩) hf]
  · rintro r hr rfl t pc ho
    obtain ⟨-, hexec⟩ := flagResults_issue n c w1 s r hr
    rw [hexec, issue_of_issues hi (.inr rfl), runBundle_alu1 ho (flagResults_alu n c w1 s r hr) (.inr ⟨h0, h1⟩) hf]
    rfl

/-! ### The long operations (R371, R372) -/

/-- The commands of the long operations. -/
def longRows (n : Fin 96) : List (Instr × Mn) :=
  [(.kDiv n, .div), (.kDivu n, .divu), (.kRem n, .rem), (.kRemu n, .remu), (.kQdiv n, .qdiv), (.kFdiv n, .fdiv), (.kFsqrt n, .fsqrt)]

/-- Each is a long operation of either place, which its command issues. -/
theorem longRows_issue (n : Fin 96) (s : State) :
    ∀ r ∈ longRows n, longMn r.2 = true ∧ r.2 ∈ aluMn ∧ exec r.1 s = .next (issue n r.2 s) := by
  have mem : ∀ r ∈ longRows n, longMn r.2 = true ∧ r.2 ∈ aluMn := by
    simp only [longRows, List.forall_mem_cons, List.not_mem_nil, false_implies, implies_true, and_true]
    and_intros <;> decide
  have row : ∀ r ∈ longRows n, exec r.1 s = .next (issue n r.2 s) := by
    simp only [longRows, List.forall_mem_cons, List.not_mem_nil, false_implies, implies_true, and_true]
    and_intros <;> rfl
  exact fun r hr => ⟨(mem r hr).1, (mem r hr).2, row r hr⟩

/-- Their results and flags on the registers as they stand. -/
def longResults (n : Fin 96) (c : Nat) (w : W32) (s : State) : List (Mn × W64 × Nat) :=
  let a := s.g n c (opRa w)
  let b := s.g n c (opRb w)
  let rm := (s.ctx n c).rm
  [(.div, if b = 0 then BitVec.allOnes 64 else if a = 0x8000000000000000 ∧ b = BitVec.allOnes 64 then a
        else BitVec.ofInt 64 (Int.tdiv a.toInt b.toInt),
      if b = 0 then fIDZ else if a = 0x8000000000000000 ∧ b = BitVec.allOnes 64 then fIOV else 0),
    (.divu, if b = 0 then BitVec.allOnes 64 else BitVec.ofNat 64 (a.toNat / b.toNat), if b = 0 then fIDZ else 0),
    (.rem, if b = 0 then a else BitVec.ofInt 64 (Int.tmod a.toInt b.toInt), if b = 0 then fIDZ else 0),
    (.remu, if b = 0 then a else BitVec.ofNat 64 (a.toNat % b.toNat), if b = 0 then fIDZ else 0),
    (.qdiv, fixDiv a b), (.fdiv, fDiv rm a b), (.fsqrt, fSqrt rm a)]

/-- Each stands for an operation of either place. -/
theorem longResults_mem (n : Fin 96) (c : Nat) (w : W32) (s : State) : ∀ r ∈ longResults n c w s, r.1 ∈ aluMn := by
  simp only [longResults, List.forall_mem_cons, List.not_mem_nil, false_implies, implies_true, and_true]
  and_intros <;> decide

/-- The word whose value is least, and the word of −1. -/
theorem toInt_eq_least_iff (a : W64) : a.toInt = -(2 ^ 63 : Nat) ↔ a = 0x8000000000000000 := by
  rw [← BitVec.toInt_inj]
  rfl
theorem toInt_eq_neg_one_iff (b : W64) : b.toInt = -1 ↔ b = BitVec.allOnes 64 := by
  rw [← BitVec.toInt_inj]
  rfl

/-- DIV with its two corners, result and flag apart. -/
theorem intDiv_eq (a b : W64) : intDiv a b =
    (if b = 0 then BitVec.allOnes 64 else if a = 0x8000000000000000 ∧ b = BitVec.allOnes 64 then a
        else BitVec.ofInt 64 (Int.tdiv a.toInt b.toInt),
      if b = 0 then fIDZ else if a = 0x8000000000000000 ∧ b = BitVec.allOnes 64 then fIOV else 0) := by
  simp only [intDiv, toInt_eq_least_iff, toInt_eq_neg_one_iff]
  split
  · rfl
  · split <;> rfl

/-- Their results and flags are the ALU's. -/
theorem longResults_alu (n : Fin 96) (c : Nat) (w : W32) (s : State) :
    ∀ r ∈ longResults n c w s, aluOf n c r.1 w s = r.2 := by
  simp only [longResults, List.forall_mem_cons, List.not_mem_nil, false_implies, implies_true, and_true, true_and, aluOf, alu,
    intDiv_eq, natDiv, intRem, natRem, wOfInt]
  and_intros
  · split <;> rfl
  · split <;> rfl
  · split <;> rfl

/-- Settles O28: a long operation holds its bundle at issue, and the bundle's end writes the ALU's result. -/
theorem longOperationsIssueAndComplete : Obligations.LongOperationsIssueAndComplete := by
  constructor
  · intro s n c m0 m1 w0 w1 hi r hr
    obtain ⟨hlong, hm, hexec⟩ := longRows_issue n s r hr
    constructor
    · rintro rfl
      rw [hexec, issue_of_issues hi (.inl rfl), runBundle_long (op0_of_alu n c w0 s _ hm) (.inl hlong)]
    · rintro t pc ho rfl
      rw [hexec, issue_of_issues hi (.inr rfl), runBundle_long ho (.inr hlong)]
  · intro s n c m0 m1 w0 w1 hb hl hs hk hf rows
    constructor
    · rintro r hr rfl
      rw [exec_longOpComplete_of_bundle hb hl hs hk,
        runBundle_alu0 hb.op0 (longResults_mem n c w0 s r hr) (longResults_alu n c w0 s r hr) (.inl rfl) hf]
    · rintro r hr rfl t pc ho
      rw [exec_longOpComplete_of_bundle hb hl hs hk, runBundle_alu1 ho (longResults_alu n c w1 s r hr) (.inl rfl) hf]
      rfl

end Sys2Proof.Machine

/-! PROOFS about the engines' operations that stand in operation 0 alone (09_kell_instruction_set R380 to R405): memory, control
flow, waits and channels, the engine's ports, and the system operations. -/

namespace Sys2Proof.Machine

/-! ### How a bundle ends with its operation 0 -/

section

variable {s t : State} {n c on ch code addr : Nat} {m0 m1 : Mn} {w0 w1 : W32} {x : W64} {pc : Option Nat} {b : Bool}

/-- A bundle whose operation 0 is done and stands nowhere else moves on to the next one beside its operation 1. -/
theorem issue_ends (hi : s.Issues n c m0 m1 w0 w1) (hm : m0 ∉ aluMn) (hn : m0 ≠ .nop) (hl0 : longMn m0 = false)
    (hl1 : longMn m1 = false) (hf : (aluOf n c m1 w1 s).2 &&& (s.ctx n c).trapen = 0) (ho : op0 n c m0 w0 s = .done t none) :
    issue n m0 s = finish n c m1 w1 (aluOf n c m1 w1 s).1 (aluOf n c m1 w1 s).2 (s.pc n c + 8) t := by
  rw [issue_done hi hm hn hl0 hl1 hf ho, Option.getD_none]

/-- One that moves control goes where it says. -/
theorem issue_jumps {goal : Nat} (hi : s.Issues n c m0 m1 w0 w1) (hm : m0 ∉ aluMn) (hn : m0 ≠ .nop) (hl0 : longMn m0 = false)
    (hl1 : longMn m1 = false) (hf : (aluOf n c m1 w1 s).2 &&& (s.ctx n c).trapen = 0)
    (ho : op0 n c m0 w0 s = .done t (some goal)) :
    issue n m0 s = finish n c m1 w1 (aluOf n c m1 w1 s).1 (aluOf n c m1 w1 s).2 goal t := by
  rw [issue_done hi hm hn hl0 hl1 hf ho, Option.getD_some]

/-- A bundle whose operation 0 waits leaves the context waiting. -/
theorem issue_wait (hi : s.Issues n c m0 m1 w0 w1) (ho : op0 n c m0 w0 s = .wait t on ch x) :
    issue n m0 s = ctxWait n c on ch x t := by
  rw [issue_of_issues hi (.inl rfl), runBundle_wait ho]

/-- A bundle whose operation 0 waits in place, or has more to do, stays as its operation leaves it. -/
theorem issue_stays (hi : s.Issues n c m0 m1 w0 w1) (ho : op0 n c m0 w0 s = .hold t ∨ op0 n c m0 w0 s = .again t) :
    issue n m0 s = t := by
  rw [issue_of_issues hi (.inl rfl)]
  rcases ho with ho | ho <;> simp only [runBundle, ho]

/-- A bundle whose operation 0 faults takes its precise fault. -/
theorem issue_fault (hi : s.Issues n c m0 m1 w0 w1) (ho : op0 n c m0 w0 s = .fault t code addr) :
    issue n m0 s = preciseFault n c code false addr (t.setCtx n c { t.ctx n c with long := false }) := by
  rw [issue_of_issues hi (.inl rfl)]
  simp only [runBundle, ho]

/-- A wait finishes its bundle where its condition holds, and else leaves the context waiting. -/
theorem issue_waitOn (hi : s.Issues n c m0 m1 w0 w1) (hm : m0 ∉ aluMn) (hn : m0 ≠ .nop) (hl0 : longMn m0 = false)
    (hl1 : longMn m1 = false) (hf : (aluOf n c m1 w1 s).2 &&& (s.ctx n c).trapen = 0) (ho : op0 n c m0 w0 s = waitOn b on ch x s) :
    issue n m0 s = if b then finish n c m1 w1 (aluOf n c m1 w1 s).1 (aluOf n c m1 w1 s).2 (s.pc n c + 8) s
      else ctxWait n c on ch x s := by
  cases b with
  | true => rw [issue_ends hi hm hn hl0 hl1 hf ho, if_pos rfl]
  | false => rw [issue_wait hi ho, if_neg Bool.false_ne_true]

/-- A NOP in operation 0 leaves its bundle to operation 1. -/
theorem issue_nop (hi : s.Issues n c .nop m1 w0 w1) (hl : longMn m1 = false)
    (hf : (aluOf n c m1 w1 s).2 &&& (s.ctx n c).trapen = 0) :
    issue n .nop s = finish n c m1 w1 (aluOf n c m1 w1 s).1 (aluOf n c m1 w1 s).2 (s.pc n c + 8) s := by
  have h0 : flags0 n c .nop w0 s = 0 := by rw [flags0, aluOf_nop_flags, ite_self]
  rw [issue_of_issues hi (.inl rfl), runBundle_finish (t := s) (pc := none) rfl (.inr ⟨rfl, hl⟩) (by rwa [h0, Nat.zero_or]), h0,
    Nat.zero_or, Option.getD_none]

end

/-! ### The engine's own memories (R380, R381) -/

section

variable {s : State} {n c : Nat} {w : W32}

/-- A word of an engine memory without a check error reads as it stands. -/
theorem engRead_clear {a : Nat} (h : Tab.get 0 s.ecc a = 0) : engRead n a s = (s, s.memWord a, false) := by
  simp only [engRead, h]

/-- LDL at an allowed address writes the sized value. -/
theorem opLdl_reads (ha : memAddr n c w s % szBytes (opSz w) = 0) (hr : memAddr n c w s + szBytes (opSz w) ≤ 0x10000)
    (he : Tab.get 0 s.ecc (dmemBase n + memAddr n c w s / 8 * 8) = 0) :
    opLdl n c w s = .done (s.setG n c (opRd w)
      (loadValue (opSz w) (s.memWord (dmemBase n + memAddr n c w s / 8 * 8)) (memAddr n c w s % 8))) none := by
  unfold memAddr at *
  simp only [opLdl, localFault_none ha hr, engRead_clear he, Bool.false_eq_true, if_false]

/-- A misaligned LDL faults at its address. -/
theorem opLdl_misaligned (ha : memAddr n c w s % szBytes (opSz w) ≠ 0) :
    opLdl n c w s = .fault s Code.misaligned (memAddr n c w s) := by
  unfold memAddr at *
  simp only [opLdl, localFault_misaligned ha]

/-- STL at an allowed address without a check error writes the low bytes of gRD. -/
theorem opStl_writes (ha : memAddr n c w s % szBytes (opSz w) = 0) (hr : memAddr n c w s + szBytes (opSz w) ≤ 0x10000)
    (he : Tab.get 0 s.ecc (dmemBase n + memAddr n c w s / 8 * 8) = 0) :
    opStl n c w s = .done (engWrite (dmemBase n + memAddr n c w s / 8 * 8) (s.g n c (opRd w) <<< (8 * (memAddr n c w s % 8)))
      ((2 ^ szBytes (opSz w) - 1) * 2 ^ (memAddr n c w s % 8)) s) none := by
  unfold memAddr at *
  simp only [opStl, localFault_none ha hr, engRead_clear he, ite_self]

/-- LDML at an allowed range without a check error writes its words to the registers. -/
theorem opLdml_reads (ha : memAddr n c w s % 8 = 0) (hr : memAddr n c w s + 8 * opN w ≤ 0x10000)
    (he : ∀ i, i < opN w → Tab.get 0 s.ecc (dmemBase n + (memAddr n c w s + 8 * i)) = 0) :
    opLdml n c w s = .done (setGs n c (opRd w)
      ((upFrom 0 (opN w)).map fun i => s.memWord (dmemBase n + (memAddr n c w s + 8 * i))) s) none := by
  unfold memAddr at *
  simp only [opLdml, localFault_none ha hr, Laws.dmemReads_clear n _ _ s he, Bool.false_eq_true, if_false]

/-- STML at an allowed range stores its registers. -/
theorem opStml_writes (ha : memAddr n c w s % 8 = 0) (hr : memAddr n c w s + 8 * opN w ≤ 0x10000) :
    opStml n c w s = .done (dmemWrites n (memAddr n c w s) (s.gs n c (opRd w) (opN w)) s) none := by
  unfold memAddr at *
  simp only [opStml, localFault_none ha hr]

end

/-- Settles O30: each of the four rows at an allowed address, and LDL's fault. -/
theorem localMemoryOperationsAct : Obligations.LocalMemoryOperationsAct := by
  intro s n c m0 m1 w0 w1 hi hl hf a z ends
  refine ⟨?_, ?_, ?_, ?_, ?_⟩
  · rintro rfl ha hr he
    exact congrArg Host.Outcome.next (issue_ends hi (by decide) (by decide) rfl hl hf (opLdl_reads ha hr he))
  · rintro rfl ha hr he
    exact congrArg Host.Outcome.next (issue_ends hi (by decide) (by decide) rfl hl hf (opStl_writes ha hr he))
  · rintro rfl ha hr he
    exact congrArg Host.Outcome.next (issue_ends hi (by decide) (by decide) rfl hl hf (opLdml_reads ha hr he))
  · rintro rfl ha hr
    exact congrArg Host.Outcome.next (issue_ends hi (by decide) (by decide) rfl hl hf (opStml_writes ha hr))
  · rintro rfl ha
    exact congrArg Host.Outcome.next (issue_fault hi (opLdl_misaligned ha))

/-! ### Control flow (R389 to R391) -/

/-- The branches of engine n with the conditions of R389 on the words of their operands. -/
def branchRows (n : Fin 96) (a b : W64) : List (Instr × Mn × Bool) :=
  [(.kBr n, .br, true), (.kBeq n, .beq, a == b), (.kBne n, .bne, a != b), (.kBlt n, .blt, decide (a.toInt < b.toInt)),
   (.kBge n, .bge, decide (b.toInt ≤ a.toInt)), (.kBltu n, .bltu, decide (a.toNat < b.toNat)),
   (.kBgeu n, .bgeu, decide (b.toNat ≤ a.toNat)), (.kBz n, .bz, a == 0), (.kBnz n, .bnz, a != 0)]

/-- Each stands in operation 0 alone and is not long. -/
theorem branchRows_kind (n : Fin 96) (a b : W64) :
    ∀ r ∈ branchRows n a b, r.2.1 ∉ aluMn ∧ r.2.1 ≠ .nop ∧ longMn r.2.1 = false := by
  simp only [branchRows, List.forall_mem_cons, List.not_mem_nil, false_implies, implies_true, and_true]
  and_intros <;> decide

/-- Its command issues it, and it is a branch. -/
theorem branchRows_op (n : Fin 96) (a b : W64) (s : State) :
    ∀ r ∈ branchRows n a b, exec r.1 s = .next (issue n r.2.1 s) ∧ ∀ c w, op0 n c r.2.1 w s = opBranch n c r.2.1 w s := by
  simp only [branchRows, List.forall_mem_cons, List.not_mem_nil, false_implies, implies_true, and_true]
  and_intros <;> intros <;> rfl

/-- It moves control where its condition holds. -/
theorem branchRows_transfers (n : Fin 96) (a b : W64) : ∀ r ∈ branchRows n a b, transfers r.2.1 a b = r.2.2 := by
  simp only [branchRows, List.forall_mem_cons, List.not_mem_nil, false_implies, implies_true, and_true, transfers, slt_eq_decide,
    ult_eq_decide, ← decide_not, Int.not_lt, Nat.not_lt]

theorem jumpTo_inside {a : Int} {s : State} (h0 : 0 ≤ a) (h1 : a ≤ 0x7FF8) : jumpTo a s = .done s (some a.toNat) := by
  rw [jumpTo, if_neg (by omega)]

theorem jumpTo_outside {a : Int} {s : State} (h : a < 0 ∨ 0x7FF8 < a) : jumpTo a s = .fault s Code.localRange 0 := by
  rw [jumpTo, if_pos h]

/-- Settles O32: a branch by its condition, then CALL and JR by where their target lies. -/
theorem controlFlowMovesThePc : Obligations.ControlFlowMovesThePc := by
  intro s n c m0 m1 w0 w1 hi hl hf a b pc goal ends fault
  have jumps {t : State} {a : Nat} (hm : m0 ∉ aluMn) (hn : m0 ≠ .nop) (h0 : longMn m0 = false)
      (ho : op0 n c m0 w0 s = .done t (some a)) : Host.Outcome.next (issue n m0 s) = ends a t :=
    congrArg Host.Outcome.next (issue_jumps hi hm hn h0 hl hf ho)
  have faults {code : Nat} (ho : op0 n c m0 w0 s = .fault s code 0) : Host.Outcome.next (issue n m0 s) = fault code :=
    congrArg Host.Outcome.next (issue_fault hi ho)
  refine ⟨?_, ?_, ?_, ?_, ?_, ?_⟩
  · rintro r hr rfl
    obtain ⟨hm, hn, h0⟩ := branchRows_kind n a b r hr
    obtain ⟨hexec, hop⟩ := branchRows_op n a b s r hr
    have htaken : transfers r.2.1 (s.g n c (opBa w0)) (s.g n c (opBb w0)) = r.2.2 := branchRows_transfers n a b r hr
    have hbranch : op0 n c r.2.1 w0 s = if r.2.2 then jumpTo goal s else .done s none := by
      rw [hop, opBranch, htaken]
      rfl
    rw [hexec]
    refine ⟨fun hno => ?_, fun hyes h1 h2 => ?_, fun hyes hout => ?_⟩
    · exact congrArg Host.Outcome.next (issue_ends hi hm hn h0 hl hf (by rw [hbranch, hno]; rfl))
    · exact jumps hm hn h0 (by rw [hbranch, hyes, if_pos rfl, jumpTo_inside h1 h2])
    · exact faults (by rw [hbranch, hyes, if_pos rfl, jumpTo_outside hout])
  · rintro rfl h1 h2
    exact jumps (by decide) (by decide) rfl (congrArg (linked n c (opRd w0)) (jumpTo_inside h1 h2))
  · rintro rfl hout
    exact faults (congrArg (linked n c (opRd w0)) (jumpTo_outside hout))
  · rintro rfl ha hin
    have hjump : jumpTo (b.toNat : Int) s = .done s (some b.toNat) := jumpTo_inside (by omega) (by omega)
    have hop : opJr n c w0 s = .done (if bitsW w0 0 1 = 1 then s.setG n c (opRd w0) (BitVec.ofNat 64 (pc + 8)) else s)
        (some b.toNat) := by
      rw [opJr, if_neg (Classical.not_not.2 ha), hjump]
      split <;> rfl
    exact jumps (by decide) (by decide) rfl hop
  · rintro rfl ha hout
    have hjump : jumpTo (b.toNat : Int) s = .fault s Code.localRange 0 := jumpTo_outside (by omega)
    have hop : opJr n c w0 s = .fault s Code.localRange 0 := by
      rw [opJr, if_neg (Classical.not_not.2 ha), hjump]
      split <;> rfl
    exact faults hop
  · rintro rfl ha
    exact faults (if_pos ha)

/-! ### Waits and channels (R392 to R394) -/

section

variable {s : State} {n c : Nat} {w : W32}

/-- RECV waits on an empty channel, -/
theorem opRecv_empty (h : s.inCh n (bitsW w 0 3) = []) : opRecv n c w s = .wait s 1 (bitsW w 0 3) 0 := by
  simp only [opRecv, h]

/-- and else takes its oldest token. -/
theorem opRecv_takes {v : W64} {rest : List W64} (h : s.inCh n (bitsW w 0 3) = v :: rest) :
    opRecv n c w s = .done ((showInputs n (s.setEng n { s.eng n with ich := Tab.set [] (s.eng n).ich (bitsW w 0 3) rest })).setG
      n c (opRd w) v) none := by
  simp only [opRecv, h]

/-- SEND to an unbound channel gives its code, -/
theorem opSend_unbound (h : s.flag Fld.engOchDestBound n (bitsW w 0 3) = false) :
    opSend n c w s = .done (s.setG n c (opRd w) (BitVec.ofNat 64 Code.chanNotBound)) none := by
  simp only [opSend, h, Bool.not_false, if_true]

/-- queues its token where there is room, -/
theorem opSend_room (h : s.flag Fld.engOchDestBound n (bitsW w 0 3) = true) (hr : (s.outCh n (bitsW w 0 3)).length < 4) :
    opSend n c w s = .done ((s.setOutCh n (bitsW w 0 3) (s.outCh n (bitsW w 0 3) ++
      [(s.fld Fld.engOchDestTarget n (bitsW w 0 3), s.g n c (opRa w))])).setG n c (opRd w) (BitVec.ofNat 64 Code.ok)) none := by
  simp only [opSend, h, Bool.not_true, Bool.false_eq_true, if_false, Nat.not_le.2 hr]

/-- and on a full one waits, or gives its code in the form that does not wait. -/
theorem opSend_full (h : s.flag Fld.engOchDestBound n (bitsW w 0 3) = true) (hr : 4 ≤ (s.outCh n (bitsW w 0 3)).length) :
    opSend n c w s = if bitsW w 3 1 = 1 then .done (s.setG n c (opRd w) (BitVec.ofNat 64 Code.chanFull)) none
      else .wait s 2 (bitsW w 0 3) 0 := by
  simp only [opSend, h, Bool.not_true, Bool.false_eq_true, if_false, hr, if_true]

end

/-- Settles O33: the six waits by their conditions, then the three channel operations. -/
theorem waitsAndChannelsAct : Obligations.WaitsAndChannelsAct := by
  intro s n c m0 m1 w0 w1 hi hl hf k a ends waits
  have done {t : State} (hm : m0 ∉ aluMn) (hn : m0 ≠ .nop) (h0 : longMn m0 = false)
      (ho : op0 n c m0 w0 s = .done t none) : Host.Outcome.next (issue n m0 s) = ends t :=
    congrArg Host.Outcome.next (issue_ends hi hm hn h0 hl hf ho)
  have stops {on ch : Nat} {t : W64} (ho : op0 n c m0 w0 s = .wait s on ch t) :
      Host.Outcome.next (issue n m0 s) = waits on ch t := congrArg Host.Outcome.next (issue_wait hi ho)
  have judged {b : Bool} {on ch : Nat} {t : W64} (hm : m0 ∉ aluMn) (hn : m0 ≠ .nop) (h0 : longMn m0 = false)
      (ho : op0 n c m0 w0 s = waitOn b on ch t s) :
      Host.Outcome.next (issue n m0 s) = if b then ends s else waits on ch t := by
    rw [issue_waitOn hi hm hn h0 hl hf ho]
    exact apply_ite Host.Outcome.next _ _ _
  refine ⟨?_, ?_, ?_, ?_, ?_, ?_, ?_, ?_, ?_, ?_, ?_, ?_⟩
  · rintro rfl
    refine (judged (by decide) (by decide) rfl rfl).trans ?_
    simp only [bne_iff_ne]
    rfl
  · rintro rfl
    refine (judged (by decide) (by decide) rfl rfl).trans ?_
    simp only [decide_eq_true_eq]
    rfl
  · rintro rfl
    by_cases h : s.flag Fld.engCtxStatWakePend n c = true
    · rw [if_pos h]
      exact done (by decide) (by decide) rfl (if_pos h)
    · rw [if_neg h]
      exact stops (if_neg h)
  · rintro rfl
    refine (judged (by decide) (by decide) rfl rfl).trans ?_
    cases s.evqEmpty n c <;> rfl
  · rintro rfl
    refine (judged (by decide) (by decide) rfl rfl).trans ?_
    simp only [decide_eq_true_eq]
    rfl
  · rintro rfl
    refine (judged (by decide) (by decide) rfl rfl).trans ?_
    simp only [bne_iff_ne, ne_eq, ite_not]
  · rintro rfl h
    exact stops (opRecv_empty h)
  · rintro v rest rfl h
    exact done (by decide) (by decide) rfl (opRecv_takes h)
  · rintro rfl h
    exact done (by decide) (by decide) rfl (opSend_unbound h)
  · rintro rfl h hroom
    exact done (by decide) (by decide) rfl (opSend_room h hroom)
  · rintro rfl h hfull
    have hop := opSend_full (c := c) h hfull
    by_cases hform : bitsW w0 3 1 = 1
    · rw [if_pos hform]
      exact done (by decide) (by decide) rfl (hop.trans (if_pos hform))
    · rw [if_neg hform]
      exact stops (hop.trans (if_neg hform))
  · rintro rfl
    exact done (by decide) (by decide) rfl rfl

/-! ### Translated memory and MCPY (R382 to R387) -/

section

variable {s : State} {n c : Nat} {w : W32}

/-- An ATOM of the local form at an allowed word without a check error exchanges it. -/
theorem opAtom_local (swap : Bool) (hform : bitsW w 2 1 = 1) (ha : (s.g n c (opRa w)).toNat % 8 = 0)
    (hr : (s.g n c (opRa w)).toNat + 8 ≤ 0x10000) (he : Tab.get 0 s.ecc (dmemBase n + (s.g n c (opRa w)).toNat) = 0) :
    let v := s.memWord (dmemBase n + (s.g n c (opRa w)).toNat)
    opAtom n c swap w s = .done ((engWrite (dmemBase n + (s.g n c (opRa w)).toNat)
      (if swap then s.g n c (opRb w) else v + s.g n c (opRb w)) 255 s).setG n c (opRd w) v) none := by
  simp only [opAtom, hform, if_true, localFault_none ha hr, engRead_clear he, Bool.false_eq_true, if_false]

/-- One of the translated form is an access. -/
theorem opAtom_translated (swap : Bool) (hform : bitsW w 2 1 = 0) :
    opAtom n c swap w s = access n c (if swap then .swap else .add) (s.g n c (opRa w)).toNat 1 [s.g n c (opRb w)]
      (some ⟨opRd w, 1, if bitsW w 1 1 = 1 then some (opRd w + 1) else none, false⟩) (fun s => .done s none) s := by
  rw [opAtom, if_neg (by omega)]

/-- A translated MCPY with nothing read ahead issues its read. -/
theorem opMcpy_reads (hk : s.g n c (opRd w) ≠ 0) (hform : bitsW w 0 1 = 0) (hcopied : (s.ctx n c).copied = none)
    (haccs : (s.ctx n c).accs = []) :
    opMcpy n c w s = access n c .read (s.g n c (opRa w)).toNat 1 [] (some ⟨0, 0, none, true⟩) .again s := by
  simp only [opMcpy, hk, hform, hcopied, haccs, List.any_nil, Bool.false_eq_true, if_false, Nat.zero_ne_one]

/-- A local MCPY between allowed words without a check error copies one and counts it. -/
theorem opMcpy_local (hk : s.g n c (opRd w) ≠ 0) (hsrc : bitsW w 0 1 = 1) (hdst : bitsW w 1 1 = 1)
    (ha : (s.g n c (opRa w)).toNat % 8 = 0) (har : (s.g n c (opRa w)).toNat + 8 ≤ 0x10000)
    (hb : (s.g n c (opRb w)).toNat % 8 = 0) (hbr : (s.g n c (opRb w)).toNat + 8 ≤ 0x10000)
    (he : Tab.get 0 s.ecc (dmemBase n + (s.g n c (opRa w)).toNat) = 0) :
    opMcpy n c w s = copyNext n c w (engWrite (dmemBase n + (s.g n c (opRb w)).toNat)
      (s.memWord (dmemBase n + (s.g n c (opRa w)).toNat)) 255 s) := by
  simp only [opMcpy, hk, hsrc, localFault_none ha har, engRead_clear he, copyWrite, hdst, localFault_none hb hbr, Bool.false_eq_true,
    if_false, if_true]

end

/-- Settles O31: an access that may issue does so, and the local forms act at once. -/
theorem translatedAccessesIssue : Obligations.TranslatedAccessesIssue := by
  intro s n c m0 m1 w0 w1 hi hl hf hp va ga xl free ends sp ad
  have done {t : State} (hm : m0 ∉ aluMn) (hn : m0 ≠ .nop) (h0 : longMn m0 = false)
      (ho : op0 n c m0 w0 s = .done t none) : Host.Outcome.next (issue n m0 s) = ends t :=
    congrArg Host.Outcome.next (issue_ends hi hm hn h0 hl hf ho)
  refine ⟨?_, ?_, ?_, ?_, ?_, ?_, ?_, ?_, ?_, ?_⟩
  · rintro rfl ha hx hfree
    have hop : opLd n c w0 s = .done (issued n c .read va 1 []
        (some ⟨opRd w0, 1, if opS w0 then some (opRd w0 + 1) else none, false⟩) sp ad s) none :=
      access_issued ha hx (.inr hfree) hp
    exact done (by decide) (by decide) rfl hop
  · rintro rfl ha hform hx
    have hop : opSt n c w0 s = access n c .write (memAddr n c w0 s) 1 [s.g n c (opRd w0)] none (fun s => .done s none) s := by
      rw [opSt, hform, if_neg Bool.false_ne_true]
    exact done (by decide) (by decide) rfl (hop.trans (access_issued ha hx (.inl rfl) hp))
  · rintro rfl ha hform hx hfree
    have hop : opSt n c w0 s = access n c .writeAck (memAddr n c w0 s) 1 [s.g n c (opRd w0)]
        (some ⟨0, 0, some (opRd w0 + 1), false⟩) (fun s => .done s none) s := by
      rw [opSt, hform, if_pos rfl]
    exact done (by decide) (by decide) rfl (hop.trans (access_issued ha hx (.inr hfree) hp))
  · rintro rfl ha hline hx hfree
    exact done (by decide) (by decide) rfl ((if_neg (Nat.not_lt.2 hline)).trans (access_issued ha hx (.inr hfree) hp))
  · rintro rfl ha hline hx
    exact done (by decide) (by decide) rfl ((if_neg (Nat.not_lt.2 hline)).trans (access_issued ha hx (.inl rfl) hp))
  · rintro swap hm hform ha hx hfree
    have hop := (opAtom_translated (s := s) (n := n) (c := c) swap hform).trans (access_issued ha hx (.inr hfree) hp)
    cases swap <;> cases hm <;> exact done (by decide) (by decide) rfl hop
  · rintro swap hm hform ha hr he
    have hop := opAtom_local (s := s) (n := n) (c := c) swap hform ha hr he
    cases swap <;> cases hm <;> exact done (by decide) (by decide) rfl hop
  · rintro rfl hk
    exact done (by decide) (by decide) rfl (if_pos hk)
  · rintro rfl hk hform hcopied haccs ha hx
    have hroom : ((s.ctx n c).accs.filter fun a => a.slot < 8).length < 8 := by rw [haccs]; decide
    exact congrArg Host.Outcome.next (issue_stays hi
      (.inr ((opMcpy_reads hk hform hcopied haccs).trans (access_issued ha hx (.inr hroom) hp))))
  · rintro rfl hsrc hdst ha har hb hbr he hk t1 t2 t3 t4 t5
    have hop : opMcpy n c w0 s = if t5.g n c (opRd w0) = 0 then .done t5 none else .again t5 :=
      opMcpy_local hk hsrc hdst ha har hb hbr he
    by_cases hlast : t5.g n c (opRd w0) = 0
    · rw [if_pos hlast] at hop ⊢
      exact done (by decide) (by decide) rfl hop
    · rw [if_neg hlast] at hop ⊢
      exact congrArg Host.Outcome.next (issue_stays hi (.inr hop))

/-! ### The engine's ports, block transfers and control registers (R395 to R403) -/

section

variable {s : State} {n c : Nat} {w : W32}

/-- SNAP writes the stamp and the words of its timebases in order. -/
theorem opSnap_eq : opSnap n c w s = .done (setGs n c (opRd w) (BitVec.ofNat 64 (s.dt.toNat / 250 * 250) ::
    (upFrom 0 (snapN w)).flatMap fun i => snapWords (bitsW (s.g n c (opRa w)) (8 * i) 5) s) s) none := by
  simp only [opSnap, Laws.foldl_append_flatMap, List.singleton_append]

/-- TKWAKE gives a pending wake and takes it, or 0. -/
theorem opTkwake_eq : opTkwake n c w s = if s.flag Fld.engCtxStatWakePend n c
    then .done ((takeWake n c s).1.setG n c (opRd w) (BitVec.ofNat 64 ((takeWake n c s).2 + 2 ^ 63))) none
    else .done (s.setG n c (opRd w) 0) none := rfl

/-- XFER START with aligned registers waits while a transfer is under way, -/
theorem opXferStart_waits (h0 : (s.g n c (opRa w + 0)).toNat % 8 = 0) (h1 : (s.g n c (opRa w + 1)).toNat % 8 = 0)
    (h2 : (s.g n c (opRa w + 2)).toNat % 8 = 0) (hst : (s.ctx n c).xfer.st = 1 ∨ (s.ctx n c).xfer.st = 2) :
    opXferStart n c w s = .wait s 6 0 0 := by
  simp only [opXferStart, h0, h1, h2, ne_eq, not_true_eq_false, or_self, if_false, hst, if_true]

/-- and else begins one. -/
theorem opXferStart_begins (h0 : (s.g n c (opRa w + 0)).toNat % 8 = 0) (h1 : (s.g n c (opRa w + 1)).toNat % 8 = 0)
    (h2 : (s.g n c (opRa w + 2)).toNat % 8 = 0) (hst : ¬ ((s.ctx n c).xfer.st = 1 ∨ (s.ctx n c).xfer.st = 2)) :
    let src := (s.g n c (opRa w + 0)).toNat
    let dst := (s.g n c (opRa w + 1)).toNat
    let len := (s.g n c (opRa w + 2)).toNat
    opXferStart n c w s = .done ((s.setJob (ctxJob n c) { on := true, src := src, dst := dst, len := len }).setCtx n c
      { s.ctx n c with xfer := { st := 1, src := src, dst := dst, len := len, pc := s.pc n c } }) none := by
  simp only [opXferStart, h0, h1, h2, ne_eq, not_true_eq_false, or_self, if_false, hst]
  rfl

end

/-- Settles O34: what each service writes and changes. -/
theorem engineServicesAct : Obligations.EngineServicesAct := by
  intro s n c m0 m1 w0 w1 hi hl hf a r q rd x ends
  have done {t : State} (hm : m0 ∉ aluMn) (hn : m0 ≠ .nop) (h0 : longMn m0 = false)
      (ho : op0 n c m0 w0 s = .done t none) : Host.Outcome.next (issue n m0 s) = ends t :=
    congrArg Host.Outcome.next (issue_ends hi hm hn h0 hl hf ho)
  refine ⟨?_, ?_, ?_, ?_, ?_, ?_, ?_, ?_, ?_, ?_, ?_, ?_, ?_, ?_, ?_, ?_, ?_, ?_, ?_, ?_⟩
  · rintro rfl
    exact done (by decide) (by decide) rfl opSnap_eq
  · rintro rfl
    exact done (by decide) (by decide) rfl rfl
  · rintro rfl
    exact done (by decide) (by decide) rfl rfl
  · rintro rfl
    exact done (by decide) (by decide) rfl rfl
  · rintro rfl
    by_cases h : s.flag Fld.engCtxStatWakePend n c = true
    · rw [if_pos h]
      exact done (by decide) (by decide) rfl (opTkwake_eq.trans (if_pos h))
    · rw [if_neg h]
      exact done (by decide) (by decide) rfl (opTkwake_eq.trans (if_neg h))
  · rintro rfl
    exact done (by decide) (by decide) rfl rfl
  · rintro rfl
    exact done (by decide) (by decide) rfl rfl
  · rintro rfl
    by_cases h : s.fld Fld.pinDacCfgOwner (bitsW w0 0 4) = engOwner n
    · exact (done (by decide) (by decide) rfl (if_pos h)).trans (if_pos h).symm
    · exact (done (by decide) (by decide) rfl (if_neg h)).trans (if_neg h).symm
  · rintro rfl h0 h1 h2 hne1 hne2
    exact done (by decide) (by decide) rfl (opXferStart_begins h0 h1 h2 (not_or.2 ⟨hne1, hne2⟩))
  · rintro rfl h0 h1 h2 hst
    exact congrArg Host.Outcome.next (issue_wait hi (opXferStart_waits h0 h1 h2 hst))
  · rintro rfl h0
    exact congrArg Host.Outcome.next (issue_fault hi (if_pos (.inl h0)))
  · rintro rfl
    exact done (by decide) (by decide) rfl rfl
  · rintro rfl
    exact done (by decide) (by decide) rfl rfl
  · rintro rfl
    exact done (by decide) (by decide) rfl rfl
  · rintro rfl
    exact done (by decide) (by decide) rfl rfl
  · rintro rfl
    exact done (by decide) (by decide) rfl rfl
  · rintro rfl
    exact done (by decide) (by decide) rfl rfl
  · rintro rfl
    exact done (by decide) (by decide) rfl rfl
  · rintro rfl
    exact done (by decide) (by decide) rfl rfl
  · rintro rfl
    exact done (by decide) (by decide) rfl rfl

/-! ### System operations (R404, R411) -/

/-- A FENCE waits while a counted access or a posted write of the context is outstanding. -/
theorem opFence_eq (n c : Nat) (s : State) :
    opFence n c s = if (∀ a ∈ (s.ctx n c).accs, 8 ≤ a.slot) ∧ (s.ctx n c).posted = 0 then .done s none else respWait n c s := by
  simp only [opFence, List.all_eq_true, decide_eq_true_eq]

theorem mem_upFrom : ∀ {k a e : Nat}, e ∈ upFrom a k ↔ a ≤ e ∧ e < a + k
  | 0, a, e => by simp [upFrom]
  | k + 1, a, e => by
    rw [upFrom, List.mem_cons, mem_upFrom]
    omega

/-- Does another READY context have the priority of context c? -/
theorem yields_iff (n c : Nat) (s : State) :
    ((upFrom 0 4).any fun d => d != c && s.ctxState n d == 1 && s.fld Fld.engCtxCfgPrio n d == s.fld Fld.engCtxCfgPrio n c) = true ↔
      ∃ e, e < 4 ∧ e ≠ c ∧ s.ctxState n e = 1 ∧ s.fld Fld.engCtxCfgPrio n e = s.fld Fld.engCtxCfgPrio n c := by
  simp only [List.any_eq_true, mem_upFrom, Bool.and_eq_true, bne_iff_ne, beq_iff_eq, Nat.zero_le, true_and, Nat.zero_add, and_assoc]

/-- Settles O35: what each of the seven operations comes to. -/
theorem systemOperationsAct : Obligations.SystemOperationsAct := by
  intro s n c m0 m1 w0 w1 hi hl hf d x quiet ends next
  have done {t : State} (hm : m0 ∉ aluMn) (hn : m0 ≠ .nop) (h0 : longMn m0 = false)
      (ho : op0 n c m0 w0 s = .done t none) : Host.Outcome.next (issue n m0 s) = ends next t :=
    congrArg Host.Outcome.next (issue_ends hi hm hn h0 hl hf ho)
  refine ⟨?_, ?_, ?_, ?_, ?_, ?_, ?_, ?_, ?_⟩
  · rintro rfl
    exact congrArg Host.Outcome.next (issue_nop hi hl hf)
  · rintro rfl hq
    exact done (by decide) (by decide) rfl ((opFence_eq n c s).trans (if_pos hq))
  · rintro rfl hq
    have hop : op0 n c .fence w0 s = respWait n c s := (opFence_eq n c s).trans (if_neg hq)
    by_cases hs : x.stall = true
    · rw [if_pos hs]
      exact congrArg Host.Outcome.next (issue_stays hi (.inl (hop.trans (if_pos hs))))
    · rw [if_neg hs]
      exact congrArg Host.Outcome.next (issue_wait hi (hop.trans (if_neg hs)))
  · rintro rfl hnone
    refine done (by decide) (by decide) rfl (congrArg (Res.done · none) (if_neg fun h => ?_))
    obtain ⟨e, he4, hec, hready, hprio⟩ := (yields_iff n c s).1 h
    exact hnone e he4 hec hready hprio
  · rintro e rfl he4 hec hready hprio
    exact done (by decide) (by decide) rfl
      (congrArg (Res.done · none) (if_pos ((yields_iff n c s).2 ⟨e, he4, hec, hready, hprio⟩)))
  · rintro rfl
    exact done (by decide) (by decide) rfl rfl
  · rintro rfl hepc
    have hjump : jumpTo ((s.ctx n c).epc : Int) s = .done s (some (s.ctx n c).epc) :=
      jumpTo_inside (Int.natCast_nonneg _) (Int.ofNat_le.mpr hepc)
    have hop : op0 n c .rfh w0 s = .done (s.setFlag Fld.engCtxStatInHandler false n c) (some (s.ctx n c).epc) := by
      rw [op0, opRfh, hjump]
    exact congrArg Host.Outcome.next (issue_jumps hi (by decide) (by decide) rfl hl hf hop)
  · rintro rfl
    exact done (by decide) (by decide) rfl rfl
  · rintro rfl
    exact done (by decide) (by decide) rfl rfl

end Sys2Proof.Machine

/-! PROOFS about the setup space as a host reaches it: whole writes, writes by words, and the parallel host port. -/

namespace Sys2Proof.Machine

/-! ### Writers and their links -/

/-- On a link with a privilege an access goes through. -/
theorem State.linked_of_priv {s : State} {w : Writer} (h : s.priv w ≠ 0) (off : Nat) (f : State → State) :
    s.linked w off f = f s := if_neg h

/-- On a link at NONE an access is refused. -/
theorem State.linked_of_none {s : State} {w : Writer} (h : s.priv w = 0) (off : Nat) (f : State → State) :
    s.linked w off f = s.denyLink w := if_pos h

/-- A command that a link with a privilege gives leaves what its access leaves. -/
theorem State.next_linked {s t : State} {w : Writer} {off : Nat} {f : State → State} (h : s.priv w ≠ 0) (hf : f s = t) :
    (Host.Outcome.next (s.linked w off f) : Out) = .next t := by
  rw [State.linked_of_priv h, hf]

/-- The Warden's test reads the privilege. -/
theorem State.warden_iff {s : State} {w : Writer} : s.warden w = true ↔ s.priv w = 2 := beq_iff_eq

/-- The Warden's link has a privilege. -/
theorem State.priv_of_warden {s : State} {w : Writer} (h : s.warden w = true) : s.priv w ≠ 0 := by
  rw [State.warden_iff.mp h]
  decide

theorem State.not_warden_of_supervisor {s : State} {w : Writer} (h : s.priv w = 1) : s.warden w = false := by
  rw [State.warden, h]
  rfl

/-- What is the Warden's is done for the Warden. -/
theorem State.wardenOr_of_warden {s : State} {w : Writer} (h : s.warden w = true) (off : Nat) (f : State → State) :
    s.wardenOr w off f = f s := if_pos h

/-- What is the Warden's is refused to any other writer. -/
theorem State.wardenOr_of_not {s : State} {w : Writer} (h : s.warden w = false) (off : Nat) (f : State → State) :
    s.wardenOr w off f = s.denyWarden w off := by
  rw [State.wardenOr, h]
  rfl

/-- A writer below the Warden that is not at NONE writes as the Supervisor (R455). -/
theorem State.ownerCode_of_supervisor {s : State} {w : Writer} (h : s.priv w = 1) : s.ownerCode w = 1 := by
  rw [State.ownerCode, if_neg (by rw [h]; decide), if_pos h]

/-! ### Whole writes (R8, R34) -/

/-- The value a plain write leaves: where it clears VALID, what clears with it. -/
def plainNew (r : Reg) (w : Writer) (i j : Nat) (v : W64) (s : State) : W64 :=
  if v &&& r.w1c = 0 then r.plain (s.reg r i j) v (s.warden w)
  else r.plain (s.reg r i j) v (s.warden w) &&& ~~~validClears r

/-- A plain write whose writer may change what it changes sets the register. -/
theorem plainWrite_allowed {r : Reg} {w : Writer} {i j : Nat} {v : W64} {s : State}
    (h : s.priv w = 2 ∨ s.priv w = 1 ∧ (r.rww ||| r.rwl = 0 ∨
      r.rw ||| r.w1c ||| r.w1s ≠ 0 ∧ r.touchesRww (s.reg r i j) v = false)) :
    plainWrite r w i j v s = s.setReg r (plainNew r w i j v s) i j := by
  unfold plainWrite plainNew
  refine if_neg ?_
  rcases h with h | ⟨_, h | ⟨hs, ht⟩⟩
  · rw [State.warden_iff.mpr h]; simp
  · rw [h]; simp
  · rw [ht, bne_iff_ne.mpr hs]; simp

/-- The Warden's plain write of a register without W1C bits. -/
theorem plainWrite_of_warden {r : Reg} {w : Writer} {i j : Nat} {v : W64} {s : State} (h : s.warden w = true) (hc : r.w1c = 0) :
    plainWrite r w i j v s = s.setReg r (r.plain (s.reg r i j) v true) i j := by
  rw [plainWrite_allowed (.inl (State.warden_iff.mp h)), plainNew, h, if_pos (by rw [hc]; exact BitVec.and_zero)]

/-- A plain write of another writer that changes what is the Warden's is refused whole. -/
theorem plainWrite_refused {r : Reg} {w : Writer} {i j : Nat} {v : W64} {s : State} (h : s.priv w = 1)
    (ht : r.touchesRww (s.reg r i j) v = true) : plainWrite r w i j v s = s.denyWarden w (r.addr i j) := by
  have hown : (r.rww ||| r.rwl) ≠ 0 := by
    intro h0
    rw [Reg.touchesRww, h0] at ht
    simp at ht
  unfold plainWrite
  refine if_pos ?_
  rw [State.not_warden_of_supervisor h, ht, bne_iff_ne.mpr hown, Bool.or_true]
  rfl

/-- The register at an offset without a meaning of its own takes a plain write. -/
theorem writeAt_plain {w : Writer} {off : Nat} {r : Reg} {i j : Nat} (hg : gregAt off = none)
    (hr : RegMap.find off = some (r, i, j)) (ho : RegOps.all.find? (·.1 == r.base) = none) (v : W64) (s : State) :
    writeAt w off v s = plainWrite r w i j v s := by
  simp only [writeAt, hg, hr, regWrite, ho]

theorem narrowAt_of_find {off : Nat} {r : Reg} {i j : Nat} (hr : RegMap.find off = some (r, i, j)) :
    narrowAt off = !r.wide := by
  rw [narrowAt, hr]

theorem wideAt_of_find {off : Nat} {r : Reg} {i j : Nat} (hg : gregAt off = none) (hr : RegMap.find off = some (r, i, j)) :
    wideAt off = r.wide := by
  rw [wideAt, hg, hr]
  rfl

/-! ### Writes by words (R4, R6) -/

/-- A word of a 32-bit register is its whole write. -/
theorem wordWrite_narrow {w : Writer} {off : Nat} {r : Reg} {i j : Nat} {s : State} (hb : bellAt off = none)
    (hr : RegMap.find off = some (r, i, j)) (hn : r.wide = false) (hp : s.priv w ≠ 0) (v : W32) (merged : Bool) :
    wordWrite w off v merged s = writeAt w off (v.setWidth 64) s := by
  simp only [wordWrite, hb, State.linked_of_priv hp, narrowAt_of_find hr, hn, Bool.not_false, if_true]

/-- The lower half of a 64-bit word. -/
theorem and_low_word (x : W64) : x &&& 0xFFFFFFFF = (x.setWidth 32).setWidth 64 := by
  apply BitVec.eq_of_toNat_eq
  rw [BitVec.toNat_and, BitVec.toNat_setWidth, BitVec.toNat_setWidth, Nat.mod_eq_of_lt (by omega : x.toNat % 2 ^ 32 < 2 ^ 64)]
  exact Nat.and_two_pow_sub_one_eq_mod x.toNat 32

/-- A write of up to eight bytes that enables one word writes that word. -/
theorem exec_registerWrite_word {v x : W64} {hi : Bool} (hx : x = v >>> (32 * b2n hi) &&& 0xFFFFFFFF) (w : Writer)
    (d : BitVec 21) (s : State) :
    ∃ y : W32, y.setWidth 64 = x ∧ exec (.registerWrite w d (if hi then 0xF0 else 0x0F) v) s =
      .next (wordWrite w (8 * d.toNat + 4 * b2n hi) y false s) := by
  cases hi
  · exact ⟨v.setWidth 32, by rw [hx, and_low_word]; simp [b2n], by simp [execRegisterWrite, registerWrite, wordPart, b2n]⟩
  · exact ⟨v.extractLsb' 32 32, by rw [hx, and_low_word]; rfl, by simp [execRegisterWrite, registerWrite, wordPart, b2n]⟩

/-- The word of a 32-bit register without a meaning of its own is a plain write of it. -/
theorem exec_registerWrite_narrow {s : State} {w : Writer} {d : BitVec 21} {v x : W64} {hi : Bool} {off : Nat} {r : Reg}
    {i j : Nat} (hoff : off = 8 * d.toNat + 4 * b2n hi) (hx : x = v >>> (32 * b2n hi) &&& 0xFFFFFFFF)
    (hg : gregAt off = none) (hb : bellAt off = none) (hr : RegMap.find off = some (r, i, j)) (hn : r.wide = false)
    (ho : RegOps.all.find? (·.1 == r.base) = none) (hp : s.priv w ≠ 0) :
    exec (.registerWrite w d (if hi then 0xF0 else 0x0F) v) s = .next (plainWrite r w i j x s) := by
  obtain ⟨y, rfl, he⟩ := exec_registerWrite_word hx w d s
  rw [he, ← hoff, wordWrite_narrow hb hr hn hp, writeAt_plain hg hr ho]

/-- Settles O7: whole writes go by `plainWrite`, words by `wordWrite` and the shadows. -/
theorem setupWritesReachTheirRegister : Obligations.SetupWritesReachTheirRegister := by
  refine ⟨?whole, ?narrow, ?refused, ?part, ?absent, ?atNone, ?low, ?high, ?noLow, ?read⟩
  case whole =>
    intro s w d v r i j hg hr hw ho hp
    have hpriv : s.priv w ≠ 0 := by omega
    rw [exec_registerWrite, execRegisterWrite, registerWrite, if_pos ⟨rfl, (wideAt_of_find hg hr).trans hw⟩,
      State.linked_of_priv hpriv, writeAt_plain hg hr ho, plainWrite_allowed (hp.imp_right (.imp_right .inl))]
    rfl
  case narrow =>
    intro s w d v x hi off r i j hoff hx hg hb hr hn ho hp
    rw [exec_registerWrite_narrow hoff hx hg hb hr hn ho (by omega), plainWrite_allowed hp]
    rfl
  case refused =>
    intro s w d v x hi off r i j hoff hx hg hb hr hn ho hp ht
    rw [exec_registerWrite_narrow hoff hx hg hb hr hn ho (by omega), plainWrite_refused hp ht, State.denyWarden,
      State.ownerCode_of_supervisor hp]
  case part =>
    intro s w d m v hp hb hpos hlt
    rw [exec_registerWrite, execRegisterWrite, registerWrite, if_neg (by omega), Nat.mod_eq_of_lt (by omega),
      Nat.div_eq_of_lt (by omega), wordPart, if_pos rfl, wordPart, if_neg (by omega), if_neg (by omega), hb]
    exact congrArg _ (State.linked_of_priv hp _ _)
  case absent =>
    intro s w d v hp hg hr hb
    have hw : wideAt (8 * d.toNat) = false := by rw [wideAt, hg, hr]; rfl
    have hn : narrowAt (8 * d.toNat) = false := by rw [narrowAt, hr]
    obtain ⟨y, -, he⟩ := exec_registerWrite_word (v := v) (hi := false) rfl w d s
    refine he.trans ?_
    rw [show 4 * b2n false = 0 from rfl, Nat.add_zero, wordWrite, hb]
    simp [State.linked_of_priv hp, hn, hw]
  case atNone =>
    intro s w d v hp hw
    rw [exec_registerWrite, execRegisterWrite, registerWrite, if_pos ⟨rfl, hw⟩, State.linked_of_none hp]
    rfl
  case low =>
    intro s w off v hp hw
    rw [exec_shadowLowWrite, execShadowLowWrite, if_pos hw, State.linked_of_priv hp]
    rfl
  case high =>
    intro s w off v low r i j hp hg hr hw ho hc hf
    rw [exec_shadowHighWrite, execShadowHighWrite, if_pos ((wideAt_of_find hg hr).trans hw),
      State.linked_of_priv (by omega), highWrite, hf]
    simp only [writeAt_plain hg hr ho]
    exact congrArg _ (plainWrite_of_warden (State.warden_iff.mpr hp) hc)
  case noLow =>
    intro s w off v hp hw hf
    rw [exec_shadowHighWrite, execShadowHighWrite, if_pos hw, State.linked_of_priv hp, highWrite, hf]
  case read =>
    intro s w off r i j hp hg hr hw hm hdt hkey
    have hread : readAt off.toNat s = (s, s.reg r i j) := by simp only [readAt, hg, hr, hdt, hkey, if_false]
    have hwide := (wideAt_of_find hg hr).trans hw
    simp only [exec_shadowLowRead, execShadowLowRead, hwide, if_true, wordRead, State.linkedRead, if_neg hp,
      narrowAt_of_find hr, hw, Bool.not_true, Bool.false_eq_true, if_false, hm, hread, and_self, State.answer]

/-! ### The parallel host port (R420 to R425) -/

section
variable {s : State} {a byte off n h : Nat} {bar2 : Bool}

/-- What a half-word write does, by the target its address names and its place in it (R423). -/
theorem phpWrite_at (ha : s.phpAddr a = (bar2, byte)) (ht : phpTarget bar2 byte = (off, n)) (hh : (byte - off) / 2 = h)
    (v lost : Nat) (merged : Bool) : phpWrite a v lost merged s =
      if h = 0 then { s with php := { s.php with held := some (bar2, off, [v]) } }
      else match s.php.held with
        | some (b, o, l) =>
          if b = bar2 ∧ o = off ∧ l.length = h then
            if h + 1 = n then
              phpStore bar2 off (halves (l ++ [v])) lost merged { s with php := { s.php with held := none } }
            else { s with php := { s.php with held := some (bar2, off, l ++ [v]) } }
          else phpOrder s
        | none => phpOrder s := by
  simp only [phpWrite, ha, ht, hh] <;> rfl

/-- A half-word that follows what is held is kept, and the last one writes the whole target. -/
theorem phpWrite_follows (ha : s.phpAddr a = (bar2, byte)) (ht : phpTarget bar2 byte = (off, n)) (hh : (byte - off) / 2 = h)
    (h0 : h ≠ 0) {l : List Nat} (hheld : s.php.held = some (bar2, off, l)) (hlen : l.length = h) (v lost : Nat) (merged : Bool) :
    phpWrite a v lost merged s = if h + 1 = n then
        phpStore bar2 off (halves (l ++ [v])) lost merged { s with php := { s.php with held := none } }
      else { s with php := { s.php with held := some (bar2, off, l ++ [v]) } } := by
  rw [phpWrite_at ha ht hh, if_neg h0, hheld]
  exact if_pos ⟨rfl, rfl, hlen⟩

/-- A half-word write that does not begin a target and does not follow what is held is out of order. -/
theorem phpWrite_outOfOrder (ha : s.phpAddr a = (bar2, byte)) (ht : phpTarget bar2 byte = (off, n)) (hh : (byte - off) / 2 = h)
    (h0 : h ≠ 0) (hl : ∀ l, s.php.held = some (bar2, off, l) → l.length ≠ h) (v lost : Nat) (merged : Bool) :
    phpWrite a v lost merged s = phpOrder s := by
  rw [phpWrite_at ha ht hh, if_neg h0]
  cases hheld : s.php.held with
  | none => rfl
  | some x =>
    refine if_neg ?_
    rintro ⟨rfl, rfl, hlen⟩
    exact hl x.2.2 hheld hlen

/-- A read of a target's lowest half-word reads the target into the shadow. -/
theorem phpRead_lowest (ha : s.phpAddr a = (bar2, byte)) (ht : phpTarget bar2 byte = (off, n)) (hh : (byte - off) / 2 = 0)
    (lost : Nat) : phpRead a lost s = { (phpLoad bar2 off lost s).1 with
      php := { (phpLoad bar2 off lost s).1.php with shadow := some (bar2, off, (phpLoad bar2 off lost s).2) }
      sys := { (phpLoad bar2 off lost s).1.sys with readData := BitVec.ofNat 64 (bitsW (phpLoad bar2 off lost s).2 0 16) } } := by
  simp only [phpRead, ha, ht, hh, if_true]
  rfl

/-- A read of a higher half-word takes the shadow's. -/
theorem phpRead_shadow (ha : s.phpAddr a = (bar2, byte)) (ht : phpTarget bar2 byte = (off, n)) (hh : (byte - off) / 2 = h)
    (h0 : h ≠ 0) {x : W64} (hs : s.php.shadow = some (bar2, off, x)) (lost : Nat) :
    phpRead a lost s = s.answer (BitVec.ofNat 64 (bitsW x (16 * h) 16)) := by
  simp only [phpRead, ha, ht, hh, h0, hs, if_false, and_self, if_true]

/-- A read of a higher half-word without a shadow of its target reads the target afresh. -/
theorem phpRead_afresh (ha : s.phpAddr a = (bar2, byte)) (ht : phpTarget bar2 byte = (off, n)) (hh : (byte - off) / 2 = h)
    (h0 : h ≠ 0) (hs : ∀ x, s.php.shadow ≠ some (bar2, off, x)) (lost : Nat) :
    phpRead a lost s = (phpLoad bar2 off lost s).1.answer (BitVec.ofNat 64 (bitsW (phpLoad bar2 off lost s).2 (16 * h) 16)) := by
  simp only [phpRead, ha, ht, hh, h0, if_false]
  cases hshadow : s.php.shadow with
  | none => rfl
  | some x =>
    refine if_neg ?_
    rintro ⟨rfl, rfl⟩
    exact hs x.2.2 hshadow

end

/-- Settles O37: the branches of a half-word write and read, and the port's own commands. -/
theorem parallelHostPortMovesWords : Obligations.ParallelHostPortMovesWords := by
  refine ⟨fun s a v lost merged => ?_, fun s => ⟨rfl, rfl, rfl⟩, fun s v => rfl, fun s k v hk => ?_⟩
  · intro b t h
    have ha : s.phpAddr a.toNat = (b.1, b.2) := rfl
    have ht : phpTarget b.1 b.2 = (t.1, t.2) := rfl
    have hh : (b.2 - t.1) / 2 = h := rfl
    refine ⟨rfl, fun h0 => ?_, fun l h0 hheld hlen hlt => ?_, fun l h0 hheld hlen hlast => ?_, fun h0 hl => ?_, fun h0 => ?_,
      fun x h0 hs => ?_, fun h0 hs => ?_⟩
    · exact congrArg _ ((phpWrite_at ha ht hh _ _ _).trans (if_pos h0))
    · exact congrArg _ ((phpWrite_follows ha ht hh h0 hheld hlen _ _ _).trans (if_neg (Nat.ne_of_lt hlt)))
    · exact congrArg _ ((phpWrite_follows ha ht hh h0 hheld hlen _ _ _).trans (if_pos hlast))
    · exact congrArg _ (phpWrite_outOfOrder ha ht hh h0 hl _ _ _)
    · exact congrArg _ (phpRead_lowest ha ht h0 _)
    · exact congrArg _ (phpRead_shadow ha ht hh h0 hs _)
    · exact congrArg _ (phpRead_afresh ha ht hh h0 hs _)
  · have hk0 : k.val ≠ 0 := fun h => hk (Fin.ext h)
    refine ⟨fun hbar hpage => ?_, fun hin => ?_⟩
    · exact congrArg _ ((if_neg hk0).trans (if_pos ⟨hbar, hpage⟩))
    · exact congrArg _ ((if_neg hk0).trans (if_neg (by omega)))

end Sys2Proof.Machine

/-! PROOFS about leadership between the halves, the load registers and the alarm register. -/

namespace Sys2Proof.Machine

/-- Two good views: the counts of missing views clear, and the interval is judged by the state, the handover and the claims. -/
theorem viewInterval_good (c d : Bool) (s : State) :
    viewInterval true true c d s =
      let t : State := { s with lead := { s.lead with badWest := 0, badEast := 0 } }
      if s.fld Fld.stwLeadState = 2 then splitGood t
      else if s.lead.handover ≠ 0 then handoverStep t
      else if c != d then (if s.fld Fld.stwLeadState = 0 then t else toAgreed t)
      else disagree t := rfl

/-- A first disagreement holds the device-wide actions (R39, R42). -/
theorem disagree_first {s : State} (h : s.fld Fld.stwLeadState = 0) (hn : s.fld Fld.stwLeadDisagree = 0) :
    disagree s = ((holdActions s).setFld Fld.stwLeadState 1).setFld Fld.stwLeadDisagree 1 := by
  simp only [disagree, h, hn, if_true, Nat.zero_add, Nat.reduceLT]

/-- HANDOVER alone clears none of the register's W1C bits. -/
theorem writeLead_handover {s : State} (hs : s.Regular) {w : Writer} (hw : s.warden w = true)
    (hh : s.flag Fld.stwLeadHandover = false) :
    writeLead w 0x100 s = if s.agreed then
        { s.setFlag Fld.stwLeadHandover true with lead := { s.lead with handover := 1 } }
      else s.setFlag Fld.stwLeadHandoverRefused true := by
  have hkeep : s.reg Reg.stwLead &&& ~~~(((0x100 : W32).setWidth 64) &&& Reg.stwLead.w1c) = s.reg Reg.stwLead := by
    rw [show ~~~(((0x100 : W32).setWidth 64) &&& Reg.stwLead.w1c) = BitVec.allOnes 64 by decide, BitVec.and_allOnes]
  have hbit : bitsW (0x100 : W32) 8 1 = 1 := by decide
  simp only [writeLead, hkeep, State.setReg_reg hs, hbit, hw, hh]
  cases s.agreed <;> rfl

/-- Settles O8. -/
theorem leadCommandsTakeEffect : Obligations.LeadCommandsTakeEffect := by
  refine ⟨fun s c h hh => ?_, fun s c h hn hh => ?_, fun s c h hg => ?_, fun s c h hh => ?_, fun s w hs hw ha hf => ?_,
    fun s w hs hw ha hf => ?_, fun s ha hheld => ?_, fun s ha hh => ?_, fun s h load hs => ?_, fun s w h hp => ?_,
    fun s w bits hw hb hl => ?_, fun s w bits hw hb => ?_⟩
  · have hc : (c != !c) = true := by cases c <;> rfl
    simp only [exec_viewInterval, execViewInterval, viewInterval_good, h, hh, hc]
    rfl
  · simp only [exec_viewInterval, execViewInterval, viewInterval_good, h, hh, bne_self_eq_false]
    exact congrArg _ (disagree_first h hn)
  · simp only [exec_viewInterval, execViewInterval, viewInterval_good, h, if_true]
    exact congrArg _ (if_pos hg)
  · simp only [exec_viewInterval, execViewInterval, viewInterval_good, h, hh]
    simp only [handoverStep]
    rfl
  · refine congrArg _ ((State.linked_of_priv (State.priv_of_warden hw) _ _).trans ?_)
    rw [writeLead_handover hs hw hf, if_pos ha]
  · refine congrArg _ ((State.linked_of_priv (State.priv_of_warden hw) _ _).trans ?_)
    rw [writeLead_handover hs hw hf, ha]
    rfl
  · simp only [exec_deviceActionHoldTimeout, execDeviceActionHoldTimeout, ha, abortHeld, hheld]
    rfl
  · exact congrArg _ (if_pos ⟨ha, hh⟩)
  · have hpeak := State.fld_setFld_apart hs Fld.stwLoadLoad Fld.stwLoadPeak load.val h.val 0 rfl (by decide)
    rw [exec_loadWindow, execLoadWindow, hpeak]
  · exact congrArg _ (State.linked_of_priv hp _ _)
  · refine congrArg _ ((State.linked_of_priv (State.priv_of_warden hw) _ _).trans ?_)
    rw [alarmAck, if_neg hb, State.wardenOr_of_warden hw, hl]
    rfl
  · refine congrArg _ ((State.linked_of_priv (by omega) _ _).trans ?_)
    rw [alarmAck, if_neg hb, State.wardenOr_of_not (State.not_warden_of_supervisor hw)]

end Sys2Proof.Machine

/-! PROOFS about the timebases: what a source leaves, the control commands, and the update. -/

namespace Sys2Proof.Machine

/-! ### Sources (R51 to R72) -/

/-- An edge that no other comes within 25 ns of waits, with its direction and filter-corrected stamp. -/
theorem quadEdge_waits {s : State} {n t : Nat} {onB a b : Bool} (ht : s.tbTakes n 1 = true) (hw : (s.tb n).waitEdge = none)
    (hl : ∀ l c, (s.tb n).lastEdge = some (l, c) → l + 2000 ≤ t / 32 * 32) :
    quadEdge n onB a b t s = s.setTb n { s.tb n with
      lastEdge := some (t / 32 * 32, onB)
      waitEdge := some (t / 32 * 32 - filterDelay (bitsOf (s.fld Fld.tbSrcpValue n) 0 2), if quadUp onB a b then 1 else -1) } := by
  have hcount : countWaiting n s = s := by simp only [countWaiting, hw]
  cases he : (s.tb n).lastEdge with
  | none => simp [quadEdge, ht, he, hcount]
  | some e =>
    have hfar := hl e.1 e.2 he
    simp [quadEdge, ht, he, hcount, Nat.not_lt.mpr hfar]

/-- An edge on the same input within 25 ns of the last is lost, with the one that waits. -/
theorem quadEdge_lost {s : State} {n t l : Nat} {onB a b : Bool} (ht : s.tbTakes n 1 = true)
    (he : (s.tb n).lastEdge = some (l, onB)) (hl : t / 32 * 32 < l + 2000) :
    quadEdge n onB a b t s = raiseFault n 2 2 (lostEdges n (if (s.tb n).waitEdge.isSome then 2 else 1)
      (s.setTb n { s.tb n with lastEdge := some (t / 32 * 32, onB), waitEdge := none })) := by
  simp [quadEdge, ht, he, hl]

/-- An index edge latches the position at its stamp where neither the revolution nor the reference is judged. -/
theorem indexEdge_latched {s : State} {n t : Nat} (ht : s.tbTakes n 1 = true) (hi : s.flag Fld.tbSrcIndexEn n = true)
    (hd : s.pwr.dark = false) (hr : s.fld Fld.tbRevValue n = 0) (hf : s.flag Fld.tbCfgRefOnIndex n = false)
    (hw : (s.tb n).waitEdge = none) :
    indexEdge n t s = (s.tookFree.setReg Reg.tbIdxPos (wOfInt (wrap64 (extrapolate (s.tb n).p (s.tb n).v (s.tb n).a
        (((t / 32 * 32 - filterDelay (bitsOf (s.fld Fld.tbSrcpValue n) 0 2) : Nat) : Int) - (s.tb n).reached) s.freeBit))) n).setTb n
      { s.tb n with lastIndex := some ((s.tb n).taken, (s.tb n).dirUp) } := by
  have hrev (v : W64) : (s.tookFree.setReg Reg.tbIdxPos v n).fld Fld.tbRevValue n = 0 :=
    (State.fld_setReg_ne _ _ _ v (by simp [Reg.addr, Fld.tbRevValue, Reg.tbRev, Reg.tbIdxPos])).trans hr
  have href (v : W64) : (s.tookFree.setReg Reg.tbIdxPos v n).flag Fld.tbCfgRefOnIndex n = false :=
    (State.flag_setReg_ne _ _ _ v (by simp [Reg.addr, Fld.tbCfgRefOnIndex, Reg.tbCfg, Reg.tbIdxPos])).trans hf
  cases hl : (s.tb n).lastIndex <;> simp [indexEdge, ht, hi, hd, hw, hrev, href, hl]

/-- A front's raw values stand apart from every timebase's registers. -/
theorem fld_setAinRaw (s : State) {f : Fld} (hf : f.reg = Reg.pinAinRaw) (v : Nat) (k : Fin 16) {g : Fld} (n : Nat)
    (hg : 0x34100 ≤ g.reg.base ∨ g.reg.addr n 0 < 0x34000) : (s.setFld f v k).fld g n = s.fld g n := by
  refine State.fld_setFld_ne s f g v ?_
  rw [hf]
  simp only [Reg.addr, Reg.pinAinRaw] at hg ⊢
  omega

/-- A front's raw values decide nothing of which timebases take a source. -/
theorem tbTakes_setAinRaw (s : State) {f : Fld} (hf : f.reg = Reg.pinAinRaw) (v : Nat) (k : Fin 16) (n src : Nat) :
    (s.setFld f v k).tbTakes n src = s.tbTakes n src := by
  have keep {g : Fld} (m : Nat) := fld_setAinRaw s hf v k (g := g) m
  have hwake : (s.setFld f v k).wakeTb n = s.wakeTb n := by
    simp only [State.wakeTb, keep (g := Fld.pwrWakeTbEn) 0 (.inr (by decide)), keep (g := Fld.tbCfgSrc) n (.inl (by decide)),
      show upFrom 0 2 = [0, 1] from rfl, List.any_cons, List.any_nil, keep (g := Fld.pwrWakeTbTb) 0 (.inr (by decide)),
      keep (g := Fld.pwrWakeTbTb) 1 (.inr (by decide))]
  simp only [State.tbTakes, State.setFld_pwr, hwake, keep (g := Fld.tbStatState) n (.inl (by decide)),
    keep (g := Fld.tbCfgSrc) n (.inl (by decide))]

/-- Settles O9. -/
theorem sourceCommandsMeasure : Obligations.SourceCommandsMeasure := by
  refine ⟨fun s n onB a b t ht hw hl => ?_, fun s n onB a b t l ht he hl => ?_, fun s n t k ht hw => ?_,
    fun s n t ht hi hd hr hf hw => ?_, fun s k x y t hm => ?_, fun s n t ht => ?_, fun s n d q len ht hlen hg => ?_,
    fun s n st pos seq c len ht hlen hs hc => ?_, fun s n up t ht hl => ?_, fun s k n t hm hn hc => ?_,
    fun s n ht hto hs => ?_, fun s lane n idx seq p v a stamp hn ho => ?_, fun s n ht => ?_⟩
  · exact congrArg _ (quadEdge_waits ht hw hl)
  · exact congrArg _ (quadEdge_lost ht he hl)
  · simp only [exec_quadCountCommit, execQuadCountCommit, ht, if_true, countWaiting, hw]
  · rw [exec_indexEdge, execIndexEdge, indexEdge_latched ht hi hd hr hf hw]
  · have ht (n : Nat) := (tbTakes_setAinRaw (s.setFld Fld.pinAinRawS x.toNat k) (f := Fld.pinAinRawC) rfl y.toNat k n 2).trans
      (tbTakes_setAinRaw s (f := Fld.pinAinRawS) rfl x.toNat k n 2)
    have hain (n : Nat) : ((s.setFld Fld.pinAinRawS x.toNat k).setFld Fld.pinAinRawC y.toNat k).fld Fld.tbSrcAin n =
        s.fld Fld.tbSrcAin n :=
      (fld_setAinRaw _ rfl _ k n (.inl (by decide))).trans (fld_setAinRaw s rfl _ k n (.inl (by decide)))
    simp only [exec_adcSample, execAdcSample, adcSample, hm, beq_self_eq_true, if_true, ht, hain]
  · have h : (s.tbTakes n.val 3 || s.tbTakes n.val 4) = true := by simpa using ht
    exact congrArg _ (if_pos h)
  · subst hlen
    simp [execSsiFrameEnd, ssiFrame, ht, hg]
  · subst hlen
    rw [List.append_assoc] at hc
    simp [execQcsFrameEnd, qcsFrame, ht, hs, hc]
  · simp [execStepEdge, stepEdge, ht]
    cases hl' : (s.tb n.val).lastEdge with
    | none => simp
    | some e => simp [Nat.not_lt.mpr (hl e.1 e.2 hl')]
  · simp [execZeroCrossing, zeroCrossing, hm, hn, takeCrossing, hc]
  · have h : (s.tbTakes n.val 6 || s.tbTakes n.val 7) = true := by simpa using ht
    simp [execTbTimeoutExpiry, h, hto, lasting, hs]
    rfl
  · simp [execTbposMsg, tbpos, hn, takeTether, ho]
  · exact congrArg _ (if_pos ht)

/-! ### Control (R75, R88 to R91) -/

/-- Clearing EN leaves the timebase's state alone. -/
theorem fld_clearTbEn (s : State) (b : Bool) (n : Nat) :
    (s.setFlag Fld.tbCtlEn b n).fld Fld.tbStatState n = s.fld Fld.tbStatState n :=
  State.fld_setFlag_ne s _ _ b (by simp [Reg.addr, Fld.tbStatState, Fld.tbCtlEn, Reg.tbStat, Reg.tbCtl])

/-- A timebase that is neither running nor latched is enabled unless a check refuses it. -/
theorem tbEnable_of_check {s : State} {n : Nat} (h : s.fld Fld.tbStatState n = 0 ∨ s.fld Fld.tbStatState n = 2) :
    tbEnable n s = if enableCheck s n ≠ 0 then s.refuse Reg.tbRefuse (enableCheck s n) n
      else if s.fld Fld.tbStatState n = 0 then startTimebase n (s.setFlag Fld.tbCtlEn true n)
      else (s.setFlag Fld.tbCtlEn true n).setFld Fld.tbStatState 3 n := by
  unfold tbEnable
  exact if_neg (by omega)

/-- One timebase's copies: the words they are taken from stand apart from them. -/
theorem snapOne_eq (s : State) {n : Nat} (hn : n < 32) :
    snapOne s n = (((s.setReg Reg.tbSnapPos (s.reg Reg.tbPos n) n).setReg Reg.tbSnapVel (s.reg Reg.tbVel n) n).setReg
      Reg.tbSnapAcc (s.reg Reg.tbAcc n) n).setReg Reg.tbSnapStat (s.reg Reg.tbStat n) n := by
  have ne (r : Reg) (hb : 0x42100 ≤ r.base) (hs : r.stride = 0x20) : Reg.tbStat.addr n 0 ≠ r.addr n 0 := by
    simp only [Reg.addr, Reg.tbStat, hs]
    omega
  rw [snapOne, State.reg_setReg_ne _ _ _ _ (ne Reg.tbSnapAcc (by decide) rfl),
    State.reg_setReg_ne _ _ _ _ (ne Reg.tbSnapVel (by decide) rfl), State.reg_setReg_ne _ _ _ _ (ne Reg.tbSnapPos (by decide) rfl)]

/-- Settles O10. -/
theorem timebaseControlTakesEffect : Obligations.TimebaseControlTakesEffect := by
  refine ⟨fun s w n hp h hc => ?_, fun s w n hp h hc => ?_, fun s w n hp h hc => ?_, fun s w n hp h => ?_,
    fun s w n hp h => ?_, fun s w n hp h hs hd => ?_, fun s w n hp hd => ?_, fun s w n hp => ?_, fun s w n k v hp he hst hv => ?_,
    fun s w n v hp hst hv hl => ?_, fun s w n v hp ha => ?_, fun s w hp => ?_, fun s n hp hm => ?_, fun s hp => ?_⟩
  · refine State.next_linked hp ?_
    rw [tbEnable_of_check (.inl h), if_neg (Classical.not_not.mpr hc), if_pos h]
  · refine State.next_linked hp ?_
    rw [tbEnable_of_check (.inl h), if_pos hc]
  · refine State.next_linked hp ?_
    rw [tbEnable_of_check (.inr h), if_neg (Classical.not_not.mpr hc), if_neg (by omega)]
  · refine State.next_linked hp ?_
    rw [tbDisable, fld_clearTbEn, if_neg h]
  · exact State.next_linked hp (if_pos h)
  · exact State.next_linked hp ((if_neg hd).trans (if_pos ⟨h, hs⟩))
  · exact State.next_linked hp (if_pos hd)
  · exact State.next_linked hp rfl
  · refine State.next_linked hp ?_
    simp only [tbCfgWrite, hv, he, hst]
    rfl
  · refine State.next_linked hp ?_
    have hlock : ((s.reg Reg.tbCfg n ^^^ Reg.tbCfg.plain (s.reg Reg.tbCfg n) (v.setWidth 64) true) &&& 0x1F080F != 0) = true :=
      bne_iff_ne.mpr hl
    simp only [tbCfgWrite, Fin.val_zero, if_true, hv, hst]
    rw [if_neg (by decide), if_pos (by simpa using hlock), refuseTb]
  · refine State.next_linked hp (if_neg fun h => ?_)
    have h0 : bitsW (s.reg Reg.tbAnaCal n) 31 1 = 0 := bne_eq_false_iff_eq.mp ha
    omega
  · exact State.next_linked hp rfl
  · have hn : n < 32 := by
      have h := (List.mem_filter.mp (hm ▸ List.mem_singleton_self n)).1
      exact Nat.lt_of_lt_of_eq (mem_upFrom.mp h).2 (Nat.zero_add 32)
    exact congrArg _ ((if_neg (by rw [hp]; decide)).trans (by simp only [hm, List.foldl_cons, List.foldl_nil, snapOne_eq s hn]; rfl))
  · exact congrArg _ (if_pos (by rw [hp]; rfl))

end Sys2Proof.Machine

/-! PROOFS about the timebase update (R45, R69, R80): what it publishes for a DIRECT timebase, and the coast limit. -/

namespace Sys2Proof.Machine

/-! ### A fold that acts once -/

/-- A fold whose function changes nothing changes nothing. -/
theorem foldl_fixed {σ : Type} {f : σ → Nat → σ} {s : σ} : ∀ {l : List Nat}, (∀ m ∈ l, f s m = s) → l.foldl f s = s
  | [], _ => rfl
  | m :: l, h => by
    rw [List.foldl_cons, h m List.mem_cons_self]
    exact foldl_fixed fun x hx => h x (List.mem_cons_of_mem _ hx)

/-- A fold whose function acts for one number alone acts once where the list holds that number once. -/
theorem foldl_once {σ : Type} {f : σ → Nat → σ} {n : Nat} {s : σ} : ∀ {l : List Nat}, l.count n = 1 →
    (∀ m ∈ l, m ≠ n → f s m = s ∧ f (f s n) m = f s n) → l.foldl f s = f s n
  | [], hc, _ => absurd hc (by simp)
  | m :: l, hc, hid => by
    rw [List.foldl_cons]
    have htail (x : Nat) (hx : x ∈ l) := hid x (List.mem_cons_of_mem _ hx)
    by_cases hm : m = n
    · subst hm
      rw [List.count_cons_self] at hc
      have hnone : m ∉ l := List.count_eq_zero.mp (by omega)
      exact foldl_fixed fun x hx => (htail x hx fun e => hnone (e ▸ hx)).2
    · rw [List.count_cons_of_ne hm] at hc
      rw [(hid m List.mem_cons_self hm).1]
      exact foldl_once hc htail

/-- A number is once among the numbers of a range that it lies in. -/
theorem count_upFrom {n : Nat} : ∀ {k a : Nat}, a ≤ n → n < a + k → (upFrom a k).count n = 1
  | 0, a, _, h => absurd h (by omega)
  | k + 1, a, ha, h => by
    rw [upFrom]
    by_cases hn : a = n
    · subst hn
      rw [List.count_cons_self, List.count_eq_zero.mpr fun hm => absurd (mem_upFrom.mp hm).1 (by omega)]
    · rw [List.count_cons_of_ne hn, count_upFrom (by omega) (by omega)]

/-- The order of an update, by rank, holds each timebase once. -/
theorem count_byRank {rank : Nat → Nat} {n : Nat} (hr : rank n < 5) (hn : n < 32) :
    ((upFrom 0 5).flatMap fun d => (upFrom 0 32).filter fun m => rank m == d).count n = 1 := by
  have hone (d : Nat) : ((upFrom 0 32).filter fun m => rank m == d).count n = if rank n = d then 1 else 0 := by
    split
    · next h => rw [List.count_filter (by simpa using h), count_upFrom (Nat.zero_le _) (by omega)]
    · next h => exact List.count_eq_zero.mpr fun hm => h (by simpa using (List.mem_filter.mp hm).2)
  rw [show upFrom 0 5 = [0, 1, 2, 3, 4] from rfl]
  simp only [List.flatMap_cons, List.flatMap_nil, List.count_append, hone]
  generalize rank n = r at hr
  match r, hr with
  | 0, _ | 1, _ | 2, _ | 3, _ | 4, _ => rfl
  | k + 5, hk => exact absurd hk (by omega)

/-! ### One timebase at an update -/

/-- A timebase that is OFF does not update. -/
theorem updateOne_off {s : State} {m : Nat} (t : Nat) (h : s.fld Fld.tbStatState m = 0) : updateOne t s m = s := by
  simp only [updateOne, h, if_true]

/-- A timebase that exports nothing sends nothing. -/
theorem exportOne_none {s : State} {m : Nat} (h : s.fld Fld.tbCtlExport m = 0) : exportOne s m = s := by
  simp only [exportOne, h, true_or, if_true]

section
variable {s : State} {n : Nat}

theorem bitOf_zero (b : Nat) : bitOf 0 b = false := by simp [bitOf]

theorem tbStopped_of_noFault (h : s.fld Fld.tbFaultActive n = 0) : s.tbStopped n = false := by
  simp only [State.tbStopped, h, bitOf_zero, Bool.or_self]

theorem tbFail_of_noFault (h : s.fld Fld.tbFaultActive n = 0) : s.tbFail n = none := by
  simp only [State.tbFail, h, bitOf_zero, Bool.false_and]
  split <;> rfl

/-- Without a fault no condition of one is judged. -/
theorem faultSteps_of_noFault (h : s.fld Fld.tbFaultActive n = 0) : (upFrom 0 6).foldl (faultStep n) s = s :=
  foldl_fixed fun b _ => by simp only [faultStep, h, bitOf_zero, Bool.not_false, if_true]

theorem presetStep_none (t : Nat) (h : (s.tb n).presetReq = false) : presetStep n t s = s := by
  simp only [presetStep, h, Bool.not_false, if_true]

theorem applyWrites_none (t : Nat) (direct : Bool) (h : (s.tb n).queued = []) : applyWrites n t direct s = s := by
  simp only [applyWrites, h, dueWrites, List.filter_nil, List.getLast?_nil]

/-- The registers a publication writes for a timebase without a fault: its state's flags, and its position, velocity,
acceleration and stamp. -/
def publishedRegs (n t : Nat) (h : TbHid) (s : State) : State :=
  (((((s.setFlag Fld.tbStatCoasting false n).setFlag Fld.tbStatHeld false n).setReg Reg.tbPos (wOfInt h.p) n).setReg
    Reg.tbVel (wOfInt h.v) n).setReg Reg.tbAcc (wOfInt h.a) n).setReg Reg.tbStamp (BitVec.ofNat 64 (t / 32)) n

/-- A register apart from what a publication writes reads as before. -/
theorem publishedRegs_reg_ne (n t : Nat) (h : TbHid) (s : State) {r : Reg} {i j : Nat} (hp : r.addr i j ≠ Reg.tbPos.addr n 0)
    (hv : r.addr i j ≠ Reg.tbVel.addr n 0) (ha : r.addr i j ≠ Reg.tbAcc.addr n 0) (ht : r.addr i j ≠ Reg.tbStamp.addr n 0)
    (hs : r.addr i j ≠ Reg.tbStat.addr n 0) : (publishedRegs n t h s).reg r i j = s.reg r i j := by
  rw [publishedRegs, State.reg_setReg_ne _ _ _ _ ht, State.reg_setReg_ne _ _ _ _ ha, State.reg_setReg_ne _ _ _ _ hv,
    State.reg_setReg_ne _ _ _ _ hp, State.reg_setFlag_ne _ _ _ _ hs, State.reg_setFlag_ne _ _ _ _ hs]

/-- What a publication leaves in the four registers it is read from. -/
theorem publishedRegs_reg (hs : s.Regular) (t : Nat) (h : TbHid) :
    (publishedRegs n t h s).reg Reg.tbPos n = wOfInt h.p ∧ (publishedRegs n t h s).reg Reg.tbVel n = wOfInt h.v ∧
    (publishedRegs n t h s).reg Reg.tbAcc n = wOfInt h.a ∧
    (publishedRegs n t h s).reg Reg.tbStamp n = BitVec.ofNat 64 (t / 32) := by
  have hflags := (hs.setFlag Fld.tbStatCoasting false n 0).setFlag Fld.tbStatHeld false n 0
  have hpos := hflags.setReg Reg.tbPos (wOfInt h.p) n 0
  have hvel := hpos.setReg Reg.tbVel (wOfInt h.v) n 0
  have hacc := hvel.setReg Reg.tbAcc (wOfInt h.a) n 0
  have ne (r r' : Reg) (hb : r.base ≠ r'.base) (hr : r.stride = r'.stride) : r.addr n 0 ≠ r'.addr n 0 := by
    simp only [Reg.addr, hr]
    omega
  refine ⟨?_, ?_, ?_, State.reg_setReg_self hacc _ _ _ _⟩
  · rw [publishedRegs, State.reg_setReg_ne _ _ _ _ (ne Reg.tbPos Reg.tbStamp (by decide) rfl),
      State.reg_setReg_ne _ _ _ _ (ne Reg.tbPos Reg.tbAcc (by decide) rfl),
      State.reg_setReg_ne _ _ _ _ (ne Reg.tbPos Reg.tbVel (by decide) rfl), State.reg_setReg_self hflags]
  · rw [publishedRegs, State.reg_setReg_ne _ _ _ _ (ne Reg.tbVel Reg.tbStamp (by decide) rfl),
      State.reg_setReg_ne _ _ _ _ (ne Reg.tbVel Reg.tbAcc (by decide) rfl), State.reg_setReg_self hpos]
  · rw [publishedRegs, State.reg_setReg_ne _ _ _ _ (ne Reg.tbAcc Reg.tbStamp (by decide) rfl), State.reg_setReg_self hvel]

/-- A publication writes no other field of a timebase's registers. -/
theorem publishedRegs_fld_ne (n t : Nat) (h : TbHid) (s : State) {f : Fld} {m : Nat} (hb : f.reg.base = Reg.tbCtl.base ∨
    f.reg.base = Reg.tbFault.base ∨ f.reg.base = Reg.tbStat.base ∧ m ≠ n) (hstr : f.reg.stride = 0x100) :
    (publishedRegs n t h s).fld f m = s.fld f m := by
  rw [State.fld, publishedRegs_reg_ne, State.fld]
  all_goals
    simp only [Reg.addr, hstr, Reg.tbPos, Reg.tbVel, Reg.tbAcc, Reg.tbStamp, Reg.tbStat, Reg.tbCtl, Reg.tbFault] at hb ⊢
    omega

/-- What a publication without a fault or jump leaves. -/
def published (n t : Nat) (s : State) : State :=
  (publishedRegs n t (s.tb n) s).setTb n { s.tb n with seen := 0, jumped := false, prevPos := s.reg Reg.tbPos n }

/-- The publication of a timebase without a fault that did not jump. -/
theorem publish_plain (t : Nat) (hf : s.fld Fld.tbFaultActive n = 0) (hj : (s.tb n).jumped = false) :
    publish n t s = published n t s := by
  have hfail : (published n t s).tbFail n = none :=
    tbFail_of_noFault ((publishedRegs_fld_ne n t (s.tb n) s (.inr (.inl rfl)) rfl).trans hf)
  simp only [publish, tbStopped_of_noFault hf, hj, Bool.false_and, Bool.false_eq_true, if_false]
  simp only [State.tb_setReg, State.tb_setFlag]
  split
  · next c h => exact absurd (h.symm.trans hfail) (Option.some_ne_none c)
  · rfl

/-- A DIRECT software timebase with a write in force extrapolates it (R69). -/
theorem directStep_write (t : Nat) {w : SoftWrite} (hw : (s.tb n).write = some w) :
    directStep n t s = { s.setTb n { s.tb n with
        p := wrap64 (extrapolate w.p w.v w.a ((t : Int) - w.t) (Config.freeBit s.freeCount))
        v := wrap64 (extrapolateV w.v w.a ((t : Int) - w.t) (Config.freeBit (s.freeCount + 1)))
        a := w.a, reached := t } with freeCount := s.freeCount + 2 } := by
  simp only [directStep, hw]

/-- The part of a timebase that holds a software write reads back whatever the table. -/
theorem tb_setTb_write (s : State) {x : TbHid} {w : SoftWrite} (h : x.write = some w) : (s.setTb n x).tb n = x :=
  Tab.get_set_listed _ (fun hx => absurd (hx ▸ h) (by simp)) _ _

/-- What the extrapolation leaves in the timebase. -/
theorem directStep_tb (t : Nat) {w : SoftWrite} (hw : (s.tb n).write = some w) :
    (directStep n t s).tb n = { s.tb n with
      p := wrap64 (extrapolate w.p w.v w.a ((t : Int) - w.t) (Config.freeBit s.freeCount))
      v := wrap64 (extrapolateV w.v w.a ((t : Int) - w.t) (Config.freeBit (s.freeCount + 1)))
      a := w.a, reached := t } := by
  rw [directStep_write t hw]
  exact tb_setTb_write s hw

/-- The extrapolation writes no register. -/
theorem directStep_reg (t : Nat) {w : SoftWrite} (hw : (s.tb n).write = some w) (r : Reg) (i j : Nat) :
    (directStep n t s).reg r i j = s.reg r i j := by
  rw [directStep_write t hw]
  rfl

/-- An update of a running DIRECT software timebase with no fault and nothing waiting publishes the write extrapolated. -/
theorem updateOne_direct (t : Nat) {w : SoftWrite} (hst : s.fld Fld.tbStatState n = 1) (hsrc : s.fld Fld.tbCfgSrc n = 7)
    (hd : bitOf (s.fld Fld.tbSrcpValue n) 0 = true) (hf : s.fld Fld.tbFaultActive n = 0) (hw : (s.tb n).write = some w)
    (hq : (s.tb n).queued = []) (hp : (s.tb n).presetReq = false) (hj : (s.tb n).jumped = false) :
    updateOne t s n = published n t (directStep n t s) := by
  have htb := directStep_tb t hw
  have hfault : (directStep n t s).fld Fld.tbFaultActive n = 0 := by
    rw [State.fld, directStep_reg t hw]
    exact hf
  have hpreset := presetStep_none t (s := directStep n t s) (n := n) (by rw [htb]; exact hp)
  have hpub := publish_plain t (s := directStep n t s) hfault (by rw [htb]; exact hj)
  simp [updateOne, hst, hsrc, hd, applyWrites_none t true hq, hpreset, faultSteps_of_noFault hfault,
    tbStopped_of_noFault hfault, hpub]

/-- The update of a device whose one timebase that is not OFF is such a timebase, and which exports nothing. -/
theorem timebaseUpdate_direct {t : Nat} (ht : t = (s.dt.toNat / 250 + 1) * 250) (hn : n < 32)
    (hoff : ∀ m, m < 32 → m ≠ n → s.fld Fld.tbStatState m = 0) (hexp : ∀ m, m < 32 → s.fld Fld.tbCtlExport m = 0)
    {u v : State} (hu : u = { s with dt := BitVec.ofNat 64 t, fine := 0 }) (hv : updateOne (t % 2 ^ 64 * 32) u n = v)
    (hkeep : ∀ (f : Fld) (m : Nat), f.reg.stride = 0x100 → f.reg.base = Reg.tbCtl.base ∨ f.reg.base = Reg.tbStat.base ∧ m ≠ n →
      v.fld f m = s.fld f m) : timebaseUpdate s = v := by
  subst ht hu
  have hupd : ((upFrom 0 5).flatMap fun d => (upFrom 0 32).filter fun m => min 4 (gearDepth { s with
      dt := BitVec.ofNat 64 ((s.dt.toNat / 250 + 1) * 250), fine := 0 } m) == d).foldl
        (updateOne ((s.dt.toNat / 250 + 1) * 250 % 2 ^ 64 * 32))
        { s with dt := BitVec.ofNat 64 ((s.dt.toNat / 250 + 1) * 250), fine := 0 } = v := by
    refine (foldl_once (n := n) (count_byRank (by omega) hn) fun m hm hmn => ?_).trans hv
    obtain ⟨d, _, hmem⟩ := List.mem_flatMap.mp hm
    have hlt : m < 32 := Nat.lt_of_lt_of_eq (mem_upFrom.mp (List.mem_filter.mp hmem).1).2 (Nat.zero_add 32)
    refine ⟨updateOne_off _ (hoff m hlt hmn), updateOne_off _ ?_⟩
    rw [hv, hkeep Fld.tbStatState m rfl (.inr ⟨rfl, hmn⟩)]
    exact hoff m hlt hmn
  have hsend : (upFrom 0 32).foldl exportOne v = v := foldl_fixed fun m hm => exportOne_none (by
    rw [hkeep Fld.tbCtlExport m rfl (.inl rfl)]
    exact hexp m (Nat.lt_of_lt_of_eq (mem_upFrom.mp hm).2 (Nat.zero_add 32)))
  exact (congrArg ((upFrom 0 32).foldl exportOne) hupd).trans hsend

end

/-- A publication writes registers, and of the timebases its own. -/
theorem published_keeps (n t : Nat) (s : State) :
    (published n t s).dt = s.dt ∧ (published n t s).fine = s.fine ∧ (published n t s).mem = s.mem ∧
    (published n t s).sched = s.sched ∧ (published n t s).pending = s.pending ∧ (published n t s).ctxs = s.ctxs ∧
    ∀ m, m ≠ n → (published n t s).tb m = s.tb m := by
  refine ⟨?_, ?_, ?_, ?_, ?_, ?_, fun m hm => (State.tb_setTb_ne _ _ hm).trans ?_⟩
  all_goals simp only [published, publishedRegs, State.setTb, State.setReg_dt, State.setFlag_dt, State.setReg_fine,
    State.setFlag_fine, State.setReg_mem, State.setFlag_mem, State.setReg_sched, State.setFlag_sched, State.setReg_pending,
    State.setFlag_pending, State.setReg_ctxs, State.setFlag_ctxs, State.tb_setReg, State.tb_setFlag]

/-- So does the extrapolation. -/
theorem directStep_keeps {s : State} {n : Nat} (t : Nat) {w : SoftWrite} (hw : (s.tb n).write = some w) :
    (directStep n t s).dt = s.dt ∧ (directStep n t s).fine = s.fine ∧ (directStep n t s).mem = s.mem ∧
    (directStep n t s).sched = s.sched ∧ (directStep n t s).pending = s.pending ∧ (directStep n t s).ctxs = s.ctxs ∧
    ∀ m, m ≠ n → (directStep n t s).tb m = s.tb m := by
  rw [directStep_write t hw]
  exact ⟨rfl, rfl, rfl, rfl, rfl, rfl, fun _ hm => State.tb_setTb_ne _ _ hm⟩

/-- What an update of a DIRECT timebase leaves of the state: registers, memory, slots, queue and the other timebases. -/
theorem published_direct {s : State} {n : Nat} (t : Nat) {w : SoftWrite} (hw : (s.tb n).write = some w) (hs : s.Regular)
    {v : State} (hv : published n t (directStep n t s) = v) :
    v.reg Reg.tbPos n = wOfInt (wrap64 (extrapolate w.p w.v w.a ((t : Int) - w.t) (Config.freeBit s.freeCount))) ∧
    v.reg Reg.tbVel n = wOfInt (wrap64 (extrapolateV w.v w.a ((t : Int) - w.t) (Config.freeBit (s.freeCount + 1)))) ∧
    v.reg Reg.tbAcc n = wOfInt w.a ∧ v.reg Reg.tbStamp n = BitVec.ofNat 64 (t / 32) ∧
    (∀ (r : Reg) (i j : Nat), r.addr i j ≠ Reg.tbPos.addr n 0 → r.addr i j ≠ Reg.tbVel.addr n 0 →
      r.addr i j ≠ Reg.tbAcc.addr n 0 → r.addr i j ≠ Reg.tbStamp.addr n 0 → r.addr i j ≠ Reg.tbStat.addr n 0 →
      v.reg r i j = s.reg r i j) ∧
    v.dt = s.dt ∧ v.fine = s.fine ∧ v.mem = s.mem ∧ v.sched = s.sched ∧ v.pending = s.pending ∧ v.ctxs = s.ctxs ∧
    ∀ m, m ≠ n → v.tb m = s.tb m := by
  subst hv
  have hregular : (directStep n t s).Regular := by
    rw [directStep_write _ hw]
    exact hs
  obtain ⟨hpos, hvel, hacc, hstamp⟩ := publishedRegs_reg (n := n) hregular t ((directStep n t s).tb n)
  have hother (r : Reg) (i j : Nat) (hp : r.addr i j ≠ Reg.tbPos.addr n 0) (hv : r.addr i j ≠ Reg.tbVel.addr n 0)
      (ha : r.addr i j ≠ Reg.tbAcc.addr n 0) (ht : r.addr i j ≠ Reg.tbStamp.addr n 0) (hs : r.addr i j ≠ Reg.tbStat.addr n 0) :=
    publishedRegs_reg_ne n t ((directStep n t s).tb n) (directStep n t s) hp hv ha ht hs
  simp only [directStep_reg t hw] at hother
  have hx := directStep_tb (n := n) t hw
  obtain ⟨hdt, hfine, hmem, hsched, hpending, hctxs, htbs⟩ := directStep_keeps (n := n) t hw
  obtain ⟨hdt', hfine', hmem', hsched', hpending', hctxs', htbs'⟩ := published_keeps n t (directStep n t s)
  exact ⟨hpos.trans (congrArg (fun x => wOfInt x.p) hx), hvel.trans (congrArg (fun x => wOfInt x.v) hx),
    hacc.trans (congrArg (fun x => wOfInt x.a) hx), hstamp, hother, hdt'.trans hdt, hfine'.trans hfine,
    hmem'.trans hmem, hsched'.trans hsched,
    hpending'.trans hpending, hctxs'.trans hctxs, fun m hm => (htbs' m hm).trans (htbs m hm)⟩

/-- Where no event is armed or runs, a timebase's end leaves nothing. -/
theorem endTimebase_empty {s : State} (tb status : Nat) (hs : s.sched.slots = []) (hr : s.sched.runs = []) :
    endTimebase tb status s = s := by
  simp only [endTimebase, State.slotsWith, hs, List.filter_nil, List.map_nil, List.foldl_nil, hr, List.length_nil, endRuns]

/-- The limit of a coasting timebase, where no event is armed or runs (R80). -/
theorem coastLimit_coasting {s : State} {n : Nat} (hstop : s.tbStopped n = true) (hact : s.fld Fld.tbCfgStopAct n = 1)
    (hfailed : (s.tb n).failed = false) (hslots : s.sched.slots = []) (hruns : s.sched.runs = []) :
    coastLimit n s = ((s.tookFree.setTb n { s.tb n with
      goodP := stoppedPos n ((s.tb n).coastAt + 2 ^ s.fld Fld.tbCfgCoastMax n * perMicro) s, failed := true }).setFlag
        Fld.tbStatCoasting false n).setFlag Fld.tbStatHeld true n := by
  simp only [coastLimit, hstop, hact, hfailed, beq_self_eq_true, Bool.not_false, Bool.and_true, Bool.not_true,
    Bool.false_eq_true, if_false]
  split
  · exact endTimebase_empty _ _ hslots hruns
  · rfl

/-- Settles O11: the one timebase that updates publishes its write extrapolated; a coasting one's limit ends no event where none
is armed. -/
theorem timebaseUpdatePublishes : Obligations.TimebaseUpdatePublishes := by
  refine ⟨fun s n w t hr hn hoff hexp hst hsrc hd hf hw hq hp hj hs ht => ?_, fun s n hstop hact hfailed hslots hruns => ?_⟩
  · obtain ⟨v, hv⟩ : ∃ v, updateOne (t % 2 ^ 64 * 32) { s with dt := BitVec.ofNat 64 t, fine := 0 } n = v := ⟨_, rfl⟩
    have hone := updateOne_direct (s := { s with dt := BitVec.ofNat 64 t, fine := 0 }) (t % 2 ^ 64 * 32) hst hsrc hd hf hw hq hp hj
    obtain ⟨hpos, hvel, hacc, hstamp, hother, hdt, hfine, hmem, hsched, hpending, hctxs, htbs⟩ :=
      published_direct (s := { s with dt := BitVec.ofNat 64 t, fine := 0 }) _ hw hs (hone.symm.trans hv)
    have hkeep (f : Fld) (m : Nat) (hstr : f.reg.stride = 0x100)
        (hb : f.reg.base = Reg.tbCtl.base ∨ f.reg.base = Reg.tbStat.base ∧ m ≠ n) : v.fld f m = s.fld f m := by
      rw [State.fld, hother]
      · rfl
      all_goals
        simp only [Reg.addr, hstr, Reg.tbPos, Reg.tbVel, Reg.tbAcc, Reg.tbStamp, Reg.tbStat, Reg.tbCtl] at hb ⊢
        omega
    refine ⟨v, ?_, hdt, hfine, hpos, hvel, hacc, ?_, hother, hmem, hsched, hpending, hctxs, htbs⟩
    · exact congrArg _ ((if_pos hr).trans (timebaseUpdate_direct ht hn hoff hexp rfl hv hkeep))
    · rw [hstamp, Nat.mul_div_cancel _ (by decide)]
  · exact congrArg _ (coastLimit_coasting hstop hact hfailed hslots hruns)

end Sys2Proof.Machine

/-! PROOFS about the event scheduler: its commands and its registers. -/

namespace Sys2Proof.Machine

/-! ### A scheduler with one slot in use -/

section
variable {s : State} {n : Nat} {x : Slot}

/-- The one slot in use reads as it is listed. -/
theorem slot_of_only (h : s.sched.slots = [(n, x)]) : s.slot n = x := by
  rw [State.slot, h]
  simp [Tab.get]

/-- Which slots a test picks, where one is in use. -/
theorem slotsWith_of_only (h : s.sched.slots = [(n, x)]) (p : Slot → Bool) :
    s.slotsWith p = if p x then [n] else [] := by
  rw [State.slotsWith, h, List.filter_cons, List.filter_nil]
  cases p x <;> rfl

/-- An armed event alone in the scheduler: a publication serves its candidate (R112, R113). -/
theorem schedPublication_of_only {c : Cand} (h : s.sched.slots = [(n, x)]) (hst : x.st = 1) (ha : x.atOnce = false)
    (hoff : s.tbOff (evTb x.w3) = false) (hc : candidate s n = some c) : schedPublication s = serve s c := by
  simp [schedPublication, slotsWith_of_only h, hst, ha, hoff, hc, insertCand]

/-- With no slot in the horizon a candidate finds room in it. -/
theorem serve_of_only {c : Cand} (h : s.sched.slots = [(n, x)]) (hst : x.st = 1) (hn : c.slot = n) (hcr : c.crossed = false)
    (hfar : (s.pub (evTb x.w3)).inst + 8000 ≤ c.tc) :
    serve s c =
      let y := { x with pred := some c.tc, rising := c.rising, known := true, waited := false }
      if c.tc < (s.pub (evTb x.w3)).inst + 16000 then
        if y.expired c.tc then (completeUnfired n y Code.expired s).freeSlot n
        else if s.hasRoom x.w3 then (queueMove s x.w3 true).setSlot n { y with st := 3 }
        else s.setSlot n { y with st := 2, late := 4 }
      else s.setSlot n { y with st := 2 } := by
  have hcount : countSlots s.sched.slots (n / 2048) (fun y => y.st == 2) = 0 := by
    simp [countSlots, h, hst]
  simp [serve, hn, slot_of_only h, hcount, hcr, Nat.not_lt.mpr hfar]

/-- A committed event alone in the scheduler meets no rival: it acts at its placed instant (R119, R123). -/
theorem fireSlot_of_only {t : Nat} (h : s.sched.slots = [(n, x)]) (hw : s.asleep = false) (hst : x.st = 3)
    (ha : x.atOnce = false) (hp : x.pred = some t) (a : Nat) : fireSlot n a s = act n x t (queueMove s x.w3 false) := by
  have hmeets : meets s n x t = [] := by simp [meets, h]
  simp [fireSlot, slot_of_only h, hst, hw, ha, hp, hmeets, collideLosers]

end

/-- The one run under way is taken out and ended where the test picks it. -/
theorem endSlotRun_of_only {s : State} {r : Run} {p : Run → Bool} (h : s.sched.runs = [r]) (hp : p r = true) (t : Nat)
    (limit : Bool) : endSlotRun p t limit s = endRun r t none limit { s with sched := { s.sched with runs := [] } } := by
  simp only [endSlotRun, h, takeRun, hp, if_true]

/-- A run of a pulse ends as one. -/
theorem endRun_pulse {r : Run} (h : evAction r.img.w3 = 3) (t : Nat) (status : Option Nat) (limit : Bool) (s : State) :
    endRun r t status limit s = endPulse r t status limit s := if_neg (by rw [h]; decide)

/-- A run of a capture ends as a window. -/
theorem endRun_window {r : Run} (h : evAction r.img.w3 = 7) (t : Nat) (status : Option Nat) (limit : Bool) (s : State) :
    endRun r t status limit s = endWindow r status limit s := if_pos h

/-- Settles O12. -/
theorem schedulerEventsTakeEffect : Obligations.SchedulerEventsTakeEffect := by
  refine ⟨?arm, ?cancel, ?reply, ?horizon, ?commit, ?set, ?dac, ?pulse, ?width, ?expiry, ?edge, ?window, ?token, ?measured,
    ?swap, ?aged⟩
  case arm =>
    intro s k p cmd w0 w1 w2 w3 hr hm hop hres
    simp [execFabricArm, State.chanBlocked, hr, hm, hop, channelArm, hres]
  case cancel =>
    intro s k p cmd hr hc hm hop h4 h28
    simp [execFabricCancel, State.chanBlocked, hr, hm, channelToken, hc, hop, channelCancel, h4, h28]
  case reply =>
    intro s k
    rfl
  case horizon =>
    intro s n x c hw h hst ha hoff hc hn hcr hfar
    rw [exec_schedPublication, execSchedPublication, if_neg (by rw [hw]; decide), schedPublication_of_only h hst ha hoff hc,
      serve_of_only h hst hn hcr (by omega)]
    exact congrArg _ (if_neg (by omega))
  case commit =>
    intro s n x c hw h hst ha hd hoff hc hn hcr hnear hfar hroom
    rw [exec_schedPublication, execSchedPublication, if_neg (by rw [hw]; decide), schedPublication_of_only h hst ha hoff hc,
      serve_of_only h hst hn hcr hnear]
    simp [hfar, Slot.expired, hd, hroom]
  case set =>
    intro s n x t a hw h hst ha hp hact
    rw [exec_eventFire, execEventFire, fireSlot_of_only h hw hst ha hp]
    simp only [act, hact, fireLevel, if_true]
  case dac =>
    intro s n x t a hw h hst ha hp hact
    rw [exec_eventFire, execEventFire, fireSlot_of_only h hw hst ha hp]
    simp [act, hact, fireDac, queueMove, onLine]
  case pulse =>
    intro s n t r h hn hact
    rw [exec_pulseEnd, execPulseEnd, endSlotRun_of_only h (by simp [hn, hact]), endRun_pulse hact]
  case width =>
    intro s n t r h hn hu hact
    rw [exec_widthLimitExpiry, execWidthLimitExpiry, endSlotRun_of_only h (by simp [hn, hu]), endRun_pulse hact]
  case expiry =>
    intro s n hst hd
    exact congrArg _ (if_pos ⟨.inl hst, hd⟩)
  case edge =>
    intro s k rising t ho he
    simp [execCaptureEdge, captureEdge, ho, he]
  case window =>
    intro s k r h hact hk
    rw [exec_captureWindowClose, execCaptureWindowClose, endSlotRun_of_only h (by simp [hk, hact]), endRun_window hact]
  case token =>
    intro s k w rest ht hb hr
    simp [execEventTokenDrain, tokenDrain, ht, hb, hr]
  case measured =>
    intro s u h
    exact congrArg _ (if_pos h)
  case swap =>
    intro s u h hm hs
    simp [execCalRoleSwap, calSwap, h, hm, hs]
  case aged =>
    intro s u
    rfl

end Sys2Proof.Machine

/-! PROOFS about the scheduler's registers (R145 to R152). -/

namespace Sys2Proof.Machine

/-- Settles O13: each register's refusals in turn, then its write. -/
theorem schedulerRegisterCommandsTakeEffect : Obligations.SchedulerRegisterCommandsTakeEffect := by
  refine ⟨fun s w v hp hm hgo => ?_, fun s w v hp hm => ?_, fun s w h v hp h0 h8 h17 => ?_, fun s w h v hp hbad => ?_,
    fun s w h hp => ?_, fun s w n hp => ?_, fun s x hc hx => ?_, fun s w n v hp ho hl hport hb => ?_,
    fun s w n v hp ho hl hport hb hlock => ?_, fun s w k v hp ho he hport => ?_⟩
  · refine State.next_linked (by omega) ?_
    simp only [evtKill, State.warden_iff.mpr hp, Bool.not_true, Bool.false_eq_true, false_and, if_false, Nat.ne_of_lt hm, hgo, if_true]
  · refine State.next_linked (by omega) ?_
    simp only [evtKill, State.warden_iff.mpr hp, Bool.not_true, Bool.false_eq_true, false_and, if_false, hm, if_true, refuseEvt]
  · refine State.next_linked hp ((if_neg (by omega)).trans (if_neg ?_))
    omega
  · exact State.next_linked hp (if_pos hbad)
  · exact State.next_linked hp rfl
  · exact State.next_linked hp rfl
  · subst hx
    exact congrArg _ (if_neg (by rw [hc]; decide))
  · refine State.next_linked (by omega) ?_
    simp only [lineCfgWrite, State.warden_iff.mpr hp, Bool.not_true, Bool.false_eq_true, false_and, if_false, ho, hb]
    exact if_neg (by omega)
  · refine State.next_linked (by omega) ?_
    simp only [lineCfgWrite, State.warden_iff.mpr hp, Bool.not_true, Bool.false_eq_true, false_and, if_false, ho, hb, true_and, refuseEvt]
    rw [if_neg (by omega), if_pos hlock]
  · refine State.next_linked (by omega) ?_
    simp only [capCfgWrite, State.warden_iff.mpr hp, Bool.not_true, Bool.false_eq_true, false_and, if_false, ho, refuseEvt]
    rw [if_neg (c := bitsW (v.setWidth 64) 9 2 = 3 ∨ _) (by omega)]

end Sys2Proof.Machine

/-! PROOFS about the fabric: cells, resets and arbiters. -/

namespace Sys2Proof.Machine

section
variable {s : State} {n : Nat}

/-- A FUNCTION cell that runs takes its inputs (R164). -/
theorem cellToken_function (hr : s.cellReset n = false) (hf : s.frozen (cellSector n) = false) (hm : cellMode (s.cellCfg n) = 0)
    (a b c d : Option Bool) : cellToken n a b c d s = s.setCell n (functionCell (s.cellCfg n) a b c d (s.cell n)) := by
  simp only [cellToken, hr, hf, hm, Bool.or_self, Bool.false_eq_true, if_false]

/-- A STEER cell that runs takes its inputs (R165 to R168). -/
theorem cellToken_steer (hr : s.cellReset n = false) (hf : s.frozen (cellSector n) = false) (hm : cellMode (s.cellCfg n) = 1)
    (a b c d : Option Bool) : cellToken n a b c d s = s.setCell n (steerCell (s.cellCfg n) s.now a b c d (s.cell n)) := by
  simp only [cellToken, hr, hf, hm, Bool.or_self, Bool.false_eq_true, if_false]

/-- A FUNCTION cell with its inputs complete and its outputs empty computes its table. -/
theorem functionCell_fires {r : W64} {a b c d : Option Bool} {x : CellHid} (hu : usedValid (cellUse r) a b c d = true)
    (hy : x.y = none) (hz : x.z = none) :
    functionCell r a b c d x =
      let i := tableIndex (cellUse r) (a.getD false) (b.getD false) (c.getD false) (d.getD false)
      { x with y := some (bitOf (cellParam r) i), z := if cellZen r then some (bitOf (cellParam r) (16 + i)) else none } := by
  simp [functionCell, hu, hy, hz]

/-- One with an input missing or an output held keeps all. -/
theorem functionCell_waits {r : W64} {a b c d : Option Bool} {x : CellHid}
    (h : usedValid (cellUse r) a b c d = false ∨ x.y.isSome = true ∨ x.z.isSome = true) : functionCell r a b c d x = x :=
  if_pos (h.imp_left fun hu => by rw [hu]; rfl)

/-- A CLOCKED cell whose reset synchroniser has seen three edges takes its table's value (R173, R174). -/
theorem clockEdge_takes (hr : s.cellReset n = false) (hf : s.frozen (cellSector n) = false) (hm : cellMode (s.cellCfg n) = 3)
    (hh : s.flag Fld.stwSecHoldWrHeld (cellSector n) = false) (he : 3 ≤ (s.cell n).edges)
    (hq : bitOf (cellParam (s.cellCfg n)) 18 = false) (hk : bitsOf (cellParam (s.cellCfg n)) 19 3 ≠ 4) (a b c d : Bool) :
    clockEdge n a b c d s = s.setCell n { s.cell n with
      levels := b2n (bitOf (cellParam (s.cellCfg n)) (tableIndex (cellUse (s.cellCfg n)) a b c d)) } := by
  have hcount : ¬(bitsOf (cellParam (s.cellCfg n)) 19 3 < 4 ∧ (s.cell n).edges < 3) := by omega
  simp [clockEdge, hr, hf, hm, hh, hcount, hq, bne_iff_ne.mpr hk]

/-- A bundled stage out of reset, with empty outputs and no write hold, takes its levels (R169). -/
theorem bundled_takes (hr : s.cellReset n = false) (hf : s.frozen (cellSector n) = false) (hm : cellMode (s.cellCfg n) = 2)
    (hh : s.flag Fld.stwSecHoldWrHeld (cellSector n) = false) (hy : (s.cell n).y = none) (hz : (s.cell n).z = none)
    (hk : bitsOf (cellParam (s.cellCfg n)) 0 2 ≠ 3) (a b c d : Bool) :
    bundled n (some a) (some b) (some c) (some d) s = s.setCell n (
      let k := bitsOf (cellParam (s.cellCfg n)) 0 2
      if k = 1 then { s.cell n with y := some a, z := some b }
      else { s.cell n with levels := b2n a + 2 * b2n b + 4 * b2n c + (if k = 2 then 8 * b2n d else 0) + 16 }) := by
  have hlt : bitsOf (cellParam (s.cellCfg n)) 0 2 < 4 := Nat.mod_lt _ (by decide)
  have hfree : ¬(s.cellReset n = true ∨ s.frozen (cellSector n) = true ∨ cellMode (s.cellCfg n) ≠ 2) := by
    rw [hr, hf, hm]
    decide
  have hcases : bitsOf (cellParam (s.cellCfg n)) 0 2 = 0 ∨ bitsOf (cellParam (s.cellCfg n)) 0 2 = 1 ∨
      bitsOf (cellParam (s.cellCfg n)) 0 2 = 2 := by omega
  refine (if_neg hfree).trans ?_
  rcases hcases with hkind | hkind | hkind
  · simp [hkind, hh]
  · simp [hkind, hh, hy, hz]
  · simp [hkind, usedValid]

end

/-- Settles O14. -/
theorem cellsActOnTheirInputs : Obligations.CellsActOnTheirInputs := by
  refine ⟨?fires, ?waits, ?split, ?select, ?merge, ?sample, ?gate, ?level, ?source, ?bundle, ?edge, ?firstEdges, ?ack⟩
  case fires =>
    intro s n a b c d hr hf hm hu hy hz
    rw [exec_cellToken, execCellToken, cellToken_function hr hf hm, functionCell_fires hu hy hz]
  case waits =>
    intro s n a b c d hr hf hm h
    rw [exec_cellToken, execCellToken, cellToken_function hr hf hm, functionCell_waits h]
  case split =>
    intro s n v sel c d hr hf hm hk hy hz
    rw [exec_cellToken, execCellToken, cellToken_steer hr hf hm]
    simp [steerCell, hk, hy, hz]
  case select =>
    intro s n u v sel d hr hf hm hk hy
    rw [exec_cellToken, execCellToken, cellToken_steer hr hf hm]
    cases sel <;> simp [steerCell, hk, hy]
  case merge =>
    intro s n a c v b d hr hf hm hk hy h
    rw [exec_cellToken, execCellToken, cellToken_steer hr hf hm]
    rcases h with rfl | ⟨rfl, rfl⟩ <;> simp [steerCell, hk, hy]
  case sample =>
    intro s n v l b c hr hf hm hk hy
    rw [exec_cellToken, execCellToken, cellToken_steer hr hf hm]
    simp [steerCell, hk, hy]
  case gate =>
    intro s n v l b c hr hf hm hk hy
    rw [exec_cellToken, execCellToken, cellToken_steer hr hf hm]
    simp [steerCell, hk, hy]
  case level =>
    intro s n v b c d hr hf hm hk hl hs
    rw [exec_cellToken, execCellToken, cellToken_steer hr hf hm]
    simp [steerCell, hk, driveLevel, hl, hs]
  case source =>
    intro s n a b c d hr hf hm hk hy
    rw [exec_cellToken, execCellToken, cellToken_steer hr hf hm]
    simp [steerCell, hk, hy]
  case bundle =>
    intro s n a b c d hr hf hm hh hy hz hk
    rw [exec_bundledTransfer, execBundledTransfer, bundled_takes hr hf hm hh hy hz hk]
  case edge =>
    intro s n a b c d hr hf hm hh he hq hk
    rw [exec_activeClockEdge, execActiveClockEdge, clockEdge_takes hr hf hm hh he hq hk]
  case firstEdges =>
    intro s n a b c d hr hf hm hh he hk
    simp [execActiveClockEdge, clockEdge, hr, hf, hm, hh, he, hk]
  case ack =>
    intro s n onZ hf
    simp [execHandshakeWord, hf]

/-- Settles O15. -/
theorem fabricResetsAndArbitersAct : Obligations.FabricResetsAndArbitersAct := by
  refine ⟨fun s w sec on hp hd ha => ?_, fun s w sec on hp hd => ?_, fun s c h0 h1 => ?_, fun s c h1 h0 => ?_,
    fun s k side hf hc h => ?_, fun s k hf hc h => ?_, fun s k hf hc h => ?_⟩
  · refine State.next_linked hp (if_neg ?_)
    rw [hd, ha]
    cases on <;> decide
  · refine State.next_linked hp (if_pos ?_)
    rw [hd]
    rfl
  · simp [execCellResetInput, cellRi, h0, h1]
  · simp [execCellResetInput, cellRi, h0, h1]
  · cases side <;> simp [execArbiterRequest, hf, hc, h, Arb.grant]
  · simp [execArbiterRequest, hf, hc, h, Arb.grant]
  · simp [execArbiterRelease, hf, hc, h, Arb.grant]

end Sys2Proof.Machine

/-! PROOFS about the spine: acceptance, delivery, time limits and registers. -/

namespace Sys2Proof.Machine

/-! ### Acceptance (R211, R217, R218) -/

section
variable {s : State} {p : Nat} {op : TOp} {h : W64} {data : List W64}

/-- What an accepted transaction leaves: a pool entry, its TAG if it is answered, and its place behind those before it. -/
def acceptedAt (p : Nat) (op : TOp) (h : W64) (data : List W64) (s : State) : State :=
  let a := s.occupy p
  let b := if op.answered then a.setPortTags p (a.portTags p ++ [hdrTag h]) else a
  b.putTrans { port := p, master := p, owner := 2, tag := hdrTag h, op := op, len := hdrLen h
               addr := if op = .msg then bitsW h 16 16 else hdrAddr h, space := if op = .msg then .dev else .virt
               asid := b.fld Fld.wtuFabAsid p, priv := b.fld Fld.wtuFabPriv p
               va := if op = .msg then bitsW h 16 16 else hdrAddr h, marked := false, data := data, asker := .port p }

/-- A transaction whose header passes its checks is accepted whole. -/
theorem spineAccept_passes (hc : hdrCheck op h = Code.ok)
    (hm : op = .msg → bitsW h 16 16 < 0x300 ∨ 0x400 ≤ bitsW h 16 16 ∧ bitsW h 16 16 < 0x420) :
    spineAccept p op h data s = acceptedAt p op h data s := by
  have hres : ¬(op = .msg ∧ (!decide (bitsW h 16 16 < 0x300 ∨ 0x400 ≤ bitsW h 16 16 ∧ bitsW h 16 16 < 0x420)) = true) :=
    fun ⟨hop, hout⟩ => by simp [hm hop] at hout
  simp only [spineAccept, hc, hres, and_false, if_false, ne_eq, not_true]
  rfl

/-- One whose header fails is answered with the check's code, or counted. -/
theorem spineAccept_refused (hc : hdrCheck op h ≠ Code.ok) :
    spineAccept p op h data s = if op.answered then
        ((s.occupy p).setPortTags p (s.portTags p ++ [hdrTag h])).putRsp ⟨p, hdrTag h, hdrCheck op h, false, [], .port p⟩
      else s.bump Fld.stwSportCntRefused p := by
  simp only [spineAccept, hc, false_and, if_false, ne_eq, not_false_eq_true, if_true]
  rfl

/-- A header's code is one of the six operations'. -/
theorem opCode_range (op : TOp) : 1 ≤ opCode op ∧ opCode op ≤ 6 := by cases op <;> decide

/-- A whole transaction offered at a port that is not held back is judged as soon as it finds room and a free TAG. -/
theorem spineOffer_judged (hop : hdrOp h = opCode op) (hlen : data.length = opWords op (hdrLen h)) (hmute : s.mute p = false)
    (hheld : s.heldAt p = []) (hhold : op = .write ∨ op = .writeAck → s.flag Fld.stwSecHoldWrHeld p = false) :
    spineOffer p op h data s = if s.canAdmit p op h then spineAccept p op h data s
      else (if s.poolRoom p then s else s.bump Fld.stwSportCntPoolWait p).setHeld p (h :: data) := by
  have hfree : ¬((op = .write ∨ op = .writeAck) ∧ s.flag Fld.stwSecHoldWrHeld p = true) := fun ⟨hw, hf⟩ => by
    rw [hhold hw] at hf
    exact absurd hf (by decide)
  cases hadmit : s.canAdmit p op h <;> simp [spineOffer, hop, hlen, hmute, hheld, hfree, hadmit, opCode_range]

/-- Room and a free TAG admit a header. -/
theorem canAdmit_of_room (hr : s.poolRoom p = true) (ht : (s.portTags p).contains (hdrTag h) = false) :
    s.canAdmit p op h = true := by
  rw [State.canAdmit, hr, ht, Bool.and_false]
  rfl

end

/-- Settles O16: what is offered where there is room is judged, and what is judged is accepted, answered or discarded. -/
theorem spineTakesTransactions : Obligations.SpineTakesTransactions := by
  refine ⟨fun s p h v data => ?_, fun s p h hmute hheld hroom hop => ?_, fun s p h data op hheld hop hroom htag => ?_⟩
  · intro take hmute hheld hroom htag
    have accepts (op : TOp) {ws : List W64} (hop : hdrOp h = opCode op) (hlen : ws.length = opWords op (hdrLen h))
        (hhold : op = .write ∨ op = .writeAck → s.flag Fld.stwSecHoldWrHeld p = false) :
        spineOffer p op h ws s = spineAccept p op h ws s := by
      rw [spineOffer_judged hop hlen hmute hheld hhold, canAdmit_of_room hroom htag, if_pos rfl]
    refine ⟨fun hop hc => ?_, fun hop hc hlen hh => ?_, fun hop hc hlen hh => ?_, fun hop hc => ?_, fun hop hc => ?_,
      fun hop hc ht => ?_, fun hop hc => ?_, fun hop hc hlen hh => ?_⟩
    · exact congrArg _ ((accepts .read hop rfl (by simp)).trans (spineAccept_passes hc (by simp)))
    · exact congrArg _ ((accepts .write hop hlen fun _ => hh).trans (spineAccept_passes hc (by simp)))
    · exact congrArg _ ((accepts .writeAck hop hlen fun _ => hh).trans (spineAccept_passes hc (by simp)))
    · exact congrArg _ ((accepts .add hop rfl (by simp)).trans (spineAccept_passes hc (by simp)))
    · exact congrArg _ ((accepts .swap hop rfl (by simp)).trans (spineAccept_passes hc (by simp)))
    · exact congrArg _ ((accepts .msg hop rfl (by simp)).trans (spineAccept_passes hc fun _ => ht))
    · exact congrArg _ ((accepts .read hop rfl (by simp)).trans (spineAccept_refused hc))
    · exact congrArg _ ((accepts .write hop hlen fun _ => hh).trans (spineAccept_refused hc))
  · have hwait : s.canAdmit p .read h = false := by rw [State.canAdmit, hroom, Bool.false_and]
    rw [exec_spineRead, execSpineRead, spineOffer_judged (op := .read) hop rfl hmute hheld (by simp), hwait, hroom]
    rfl
  · simp only [exec_spineHeaderAdmit, execSpineHeaderAdmit, spineAdmit, hheld, hop, canAdmit_of_room hroom htag, if_true]

/-! ### Delivery (R215, R216, R224) -/

section
variable {s : State} {k lost : Nat} {t t' : Trans}

/-- A translated transaction that follows no other is taken off the list and presented. -/
theorem deliver_presents {sp : Space} {a : Nat} (taken : Bool) (ht : s.trans[k]? = some t)
    (hx : translateTrans t s = (t', .ok sp a)) (hf : mustFollow s (s.trans.take k) { t' with space := sp, addr := a } = false)
    {u : State} (hp : present { t' with space := sp, addr := a } taken (s.dropTrans k) = some u) :
    deliver k lost taken s = lostContests t'.master lost u := by
  simp only [deliver, ht, hx, hf, hp, Bool.false_eq_true, if_false]

/-- One that faults is recorded and ended. -/
theorem deliver_fault {code : Nat} (taken : Bool) (ht : s.trans[k]? = some t) (hx : translateTrans t s = (t', .fault code))
    (hf : mustFollow s (s.trans.take k) t' = false) : deliver k lost taken s = transFault t' code (s.dropTrans k) := by
  simp only [deliver, ht, hx, hf, Bool.false_eq_true, if_false]

/-- A transaction that is not virtual has its address already. -/
theorem translateTrans_dev (h : t.space = .dev) (s : State) : translateTrans t s = (t, .ok t.space t.addr) :=
  if_pos (by rw [h]; decide)

/-- A device access that is no message is performed at its target. -/
theorem present_dev (h : t.space = .dev) (ho : t.op ≠ .msg) (taken : Bool) (s : State) :
    present t taken s = deliverDev t taken s := by
  simp only [present, h, ho, if_false]

/-- A read of one word of a data memory without a check error answers with the word. -/
theorem deliverDev_dmemRead {n o : Nat} (hd : targetOf t.addr = .dmem n o) (ho : t.op = .read) (hl : t.len = 1)
    (he : Tab.get 0 s.ecc (dmemBase n + o) = 0) (taken : Bool) :
    deliverDev t taken s = some (s.putRsp ⟨t.port, t.tag, Code.ok, true, [s.memWord (dmemBase n + o)], t.asker⟩) := by
  simp [deliverDev, hd, ho, hl, engTake, upFrom, engRead, he, delivered, TOp.answered]

/-- A posted write of one word of a data memory is done, and its pool entry free. -/
theorem deliverDev_dmemWrite {n o : Nat} {v : W64} {p : Nat} (hd : targetOf t.addr = .dmem n o) (ho : t.op = .write)
    (hv : t.data = [v]) (ha : t.asker = .port p) (hm : t.master < 176) (taken : Bool) :
    deliverDev t taken s = some ((engWrite (dmemBase n + o) v 255 s).release t.port) := by
  simp [deliverDev, hd, ho, hv, ha, engTake, upFrom, delivered, TOp.answered, Nat.not_le.mpr hm, postedDone, wordAt]

end

/-- Settles O17. -/
theorem spineDeliversAndKeepsCount : Obligations.SpineDeliversAndKeepsCount := by
  refine ⟨fun s k lost taken t t' sp a u ht hx hf hp => ?_, fun s k lost taken t t' code ht hx hf => ?_,
    fun s k taken t n o p ht hs hd ho hl ha he hf => ?_, fun s k taken t n o p v ht hs hd ho hv ha hm hf => ?_,
    fun s sec tag i hi hsec htag hw => ?_, fun s w p hp => ⟨?_, ?_, ?_⟩, fun s w c v hp => ?_⟩
  · exact congrArg _ (deliver_presents taken ht hx hf hp)
  · exact congrArg _ (deliver_fault taken ht hx hf)
  · have hread := deliverDev_dmemRead (s := s.dropTrans k) hd ho hl he taken
    rw [ha] at hread
    have hp := (present_dev hs (by rw [ho]; decide) taken (s.dropTrans k)).trans hread
    exact congrArg _ ((deliver_presents taken ht (translateTrans_dev hs s) hf hp).trans (if_pos rfl))
  · have hwrite := deliverDev_dmemWrite (s := s.dropTrans k) hd ho hv ha hm taken
    have hp := (present_dev hs (by rw [ho]; decide) taken (s.dropTrans k)).trans hwrite
    exact congrArg _ ((deliver_presents taken ht (translateTrans_dev hs s) hf hp).trans (if_pos rfl))
  · simp [execSportTimeout, sportTimeout, hi, hsec, htag, hw]
  · exact State.next_linked hp rfl
  · exact State.next_linked hp rfl
  · exact State.next_linked hp rfl
  · exact State.next_linked hp rfl

end Sys2Proof.Machine

/-! PROOFS about banks: accesses, ownership, retention and counters. -/

namespace Sys2Proof.Machine

/-! ### Accesses (R238 to R250) -/

section
variable {s : State} {b : Nat}

/-- An access no contest of which was lost counts none. -/
theorem lostContests_zero (m : Nat) (s : State) : lostContests m 0 s = s := if_pos rfl

/-- A good word reads without a record. -/
theorem bankRead_good {k side : Nat} (h : s.badBytes b k = 0) : bankRead b k side s = (s, s.memWord (bankAddr b k), false) := by
  simp only [bankRead, h, if_true, bne_self_eq_false]

/-- A bank that may serve performs a read, and a write of its owner. -/
theorem bankTake_performs {a : BankAcc}
    (ho : a.op = .read ∨ s.bankOwned b a.owner a.sector = true ∧ s.flag Fld.bnkStatDraining b = false)
    (hl : s.bankLoading b = false) (hq : s.flag Fld.bnkStatQbound b = false) (hm : b ∉ s.hea.moving)
    (hp : s.fld Fld.bnkStatPstate b = 0) : bankTake b a s = bankPerform b a s := by
  rcases ho with ho | ⟨ho, hd⟩
  · simp [bankTake, ho, hl, hq, hm, hp]
  · simp [bankTake, ho, hd, hl, hq, hm, hp]

/-- A whole request that passes the local port's checks is taken by its bank, unless its sector holds it back (R239). -/
theorem localPort_takes {op : TOp} {h : W64} {data : List W64} (hop : hdrOp h = opCode op) (hm : op ≠ .msg)
    (hlen : data.length = opWords op (hdrLen h)) (hf : s.frozen (b / 16) = false)
    (hh : op = .read ∨ s.flag Fld.stwSecHoldWrHeld (b / 16) = false) (hc : localCheck op h = Code.ok) {t : State} {st : Nat}
    {d : Option (List W64)} (ht : bankTake b ⟨0, 2, b / 16, op, bitsW h 16 9, hdrLen h, data⟩ s = (t, .done st d)) :
    localPort b op h data 0 s = localAnswer b op (hdrTag h) st d t := by
  have hknown : 1 ≤ hdrOp h ∧ hdrOp h ≤ 5 := by
    rw [hop]
    cases op with
    | msg => exact absurd rfl hm
    | _ => decide
  have hgoes : (s.frozen (b / 16) || (op.writes && s.flag Fld.stwSecHoldWrHeld (b / 16))) = false := by
    rcases hh with rfl | hh
    · rw [hf]; rfl
    · rw [hf, hh, Bool.and_false]; rfl
  unfold localPort
  rw [if_neg (fun x => x.2 hop), if_neg (by simp [hknown]), if_neg (Classical.not_not.mpr hlen), hgoes]
  simp only [Bool.false_eq_true, if_false, hc, ne_eq, not_true, ht, lostContests_zero]

end

/-- A posted operation is not answered. -/
theorem localAnswer_posted {op : TOp} (h : op.answered = false) (b tag status : Nat) (d : Option (List W64)) (s : State) :
    localAnswer b op tag status d s = s := if_neg (by rw [h]; decide)

/-! ### The host's accesses (R33 to R35) -/

/-- A word of an engine's memory without a check error reads plainly. -/
theorem engRead_clean {n a : Nat} {s : State} (h : Tab.get 0 s.ecc a = 0) : engRead n a s = (s, s.memWord a, false) := by
  simp only [engRead, h]

/-- A host read on a link with a privilege delivers the word at its offset. -/
theorem exec_hostBar2Read_word {s : State} {w : Writer} {word : BitVec 22} {v : W64} (hp : s.priv w ≠ 0)
    (hr : hostRead (8 * word.toNat) s = (s, v)) :
    exec (.hostBar2Read w word 0) s = .next { s with sys := { s.sys with readData := v } } := by
  simp only [exec_hostBar2Read, execHostBar2Read, hp, if_false, Fin.val_zero, lostContests_zero, hr]

/-- A host write on a link with a privilege is made under its owner code. -/
theorem exec_hostBar2Write_word {s : State} {w : Writer} (hp : s.priv w ≠ 0) (word : BitVec 22) (v : W64) (mask : Byte) :
    exec (.hostBar2Write w word v mask 0) s = .next (hostWrite (8 * word.toNat) v mask.toNat (s.ownerCode w) s) := by
  simp only [exec_hostBar2Write, execHostBar2Write, hp, if_false, Fin.val_zero, lostContests_zero]

/-- Settles O18. -/
theorem bankAccessesAct : Obligations.BankAccessesAct := by
  refine ⟨fun s b hl hq hm hp hf => ⟨fun h hop hc hlen hb => ?_, fun h v data ack ho hd hh => ⟨fun hop hc hlen => ?_,
      fun hop hc hb => ?_, fun hop hc hb => ?_⟩⟩, fun s b h data hf hh ho hop hc hlen => ?_,
    fun s w word hp => ⟨fun b k ht hl hq hst hb => ?_, fun n o ht he => ?_, fun n o ht he => ?_⟩, fun s w word hp => ?_,
    fun s w word v mask hp => ⟨fun b k ht hl hq hd hst ho => ?_, fun n o ht hst => ?_, fun n o ht hst => ?_, fun n o ht => ?_⟩⟩
  · refine congrArg _ (localPort_takes (op := .read) hop (by decide) rfl hf (.inl rfl) hc ?_)
    rw [bankTake_performs (.inl rfl) hl hq hm hp]
    simp [bankPerform, hlen, bankReads, bankRead_good hb]
  · have takes {op : TOp} (h2 : op = .write ∨ op = .writeAck) : bankTake b ⟨0, 2, b / 16, op, bitsW h 16 9, hdrLen h, data⟩ s =
        (bankWrites b (bitsW h 16 9) data s, .done Code.ok none) := by
      rw [bankTake_performs (.inr ⟨ho, hd⟩) hl hq hm hp]
      rcases h2 with rfl | rfl <;> rfl
    cases ack
    · refine congrArg _ ((localPort_takes (op := .write) hop (by decide) hlen hf (.inr hh) hc (takes (.inl rfl))).trans ?_)
      exact localAnswer_posted rfl _ _ _ _ _
    · exact congrArg _ (localPort_takes (op := .writeAck) hop (by decide) hlen hf (.inr hh) hc (takes (.inr rfl)))
  · refine congrArg _ (localPort_takes (op := .add) hop (by decide) rfl hf (.inr hh) hc ?_)
    rw [bankTake_performs (.inr ⟨ho, hd⟩) hl hq hm hp]
    simp [bankPerform, bankRead_good hb, wordAt]
  · refine congrArg _ (localPort_takes (op := .swap) hop (by decide) rfl hf (.inr hh) hc ?_)
    rw [bankTake_performs (.inr ⟨ho, hd⟩) hl hq hm hp]
    simp [bankPerform, bankRead_good hb, wordAt]
  · have ht : bankTake b ⟨0, 2, b / 16, .write, bitsW h 16 9, hdrLen h, data⟩ s =
        ((s.deny Code.notOwner 2 1 b).bump Fld.bnkCntDropped b, .done Code.notOwner none) := by
      simp [bankTake, ho, bankDropped]
    refine congrArg _ ((localPort_takes (op := .write) hop (by decide) hlen hf (.inr hh) hc ht).trans ?_)
    exact localAnswer_posted rfl _ _ _ _ _
  · exact exec_hostBar2Read_word hp (by simp [hostRead, ht, hst, hl, hq, bankRead_good hb])
  · exact exec_hostBar2Read_word hp (by simp [hostRead, ht, engRead_clean he])
  · exact exec_hostBar2Read_word hp (by simp [hostRead, ht, engRead_clean he])
  · exact congrArg _ (if_pos hp)
  · rw [exec_hostBar2Write_word hp]
    simp [hostWrite, ht, hst, hl, ho, hq, hd]
  · rw [exec_hostBar2Write_word hp]
    simp [hostWrite, ht, hst]
  · rw [exec_hostBar2Write_word hp]
    simp [hostWrite, ht, hst, imemBusy]
  · rw [exec_hostBar2Write_word hp]
    simp [hostWrite, ht]

/-! ### Ownership, retention and counters (R248 to R256, R274 to R280) -/

/-- What only the Warden may do is refused to a Supervisor, in WTU_DENY (R453, R455). -/
theorem State.wardenOr_of_supervisor {s : State} {w : Writer} (h : s.priv w = 1) (off : Nat) (f : State → State) :
    s.wardenOr w off f = s.deny Code.wardenOnly 1 0 (off / 2 ^ 12) := by
  rw [State.wardenOr_of_not (State.not_warden_of_supervisor h), State.denyWarden, State.ownerCode_of_supervisor h]

/-- Settles O19. -/
theorem bankControlsAct : Obligations.BankControlsAct := by
  refine ⟨fun s w b v hp => ?_, fun s w b v hp => ⟨?_, ?_⟩, fun s w b hp => ?_, fun s b => rfl,
    fun s w b hp hr => ⟨fun hq => ?_, fun hq hst => ?_⟩, fun s w b hp hr hst => ?_, fun s b hd => ⟨fun hst => ?_, fun hst => ?_⟩,
    fun s b hst => ?_, fun s w b hp => ?_, fun s w hp => ?_⟩
  · refine State.next_linked (by omega) ((State.wardenOr_of_warden (State.warden_iff.mpr hp) _ _).trans ?_)
    simp
  · exact State.next_linked (by omega) (State.wardenOr_of_supervisor hp _ _)
  · exact State.next_linked (by omega) (State.wardenOr_of_supervisor hp _ _)
  · exact State.next_linked (by omega) (State.wardenOr_of_warden (State.warden_iff.mpr hp) _ _)
  · refine State.next_linked hp ?_
    simp [bankSleep, hr, hq]
  · refine State.next_linked hp ?_
    simp [bankSleep, hr, hq, hst]
  · refine State.next_linked hp ?_
    simp [bankWake, hr, hst]
  · simp [execBankEntryDone, bankEntered, hd, hst]
  · simp [execBankEntryDone, bankEntered, hd, hst]
  · simp [execBankWakeDone, bankWoken, hst]
  · exact State.next_linked hp rfl
  · exact State.next_linked hp rfl

end Sys2Proof.Machine

/-! PROOFS about queue controllers: the fabric ends, the window, and the controls. -/

namespace Sys2Proof.Machine

/-! ### The window (R260 to R264) -/

section
variable {s : State} {q : Nat}

/-- A push offset of the window: the last word ends its item at PUSH_END alone (R262). -/
def pushOffset (last : Bool) : Nat := if last then 0x40 else 0x00

/-- A write at a push offset is a push. -/
theorem windowTake_push (q owner : Nat) (last ack : Bool) (data : List W64) (s : State) (len : Nat) :
    windowTake q owner (pushOffset last) len (if ack then .writeAck else .write) data s =
      windowPush q owner last (if ack then .writeAck else .write) data s := by
  cases last <;> cases ack <;> rfl

/-- A read of one word at POP, or of two at POP_TAGGED, is a pop. -/
theorem windowTake_pop (q owner : Nat) (tagged : Bool) (s : State) :
    windowTake q owner (if tagged then 0xC0 else 0x80) (if tagged then 2 else 1) .read [] s = windowPop q owner tagged s := by
  cases tagged <;> rfl

/-- A push by the end's owner into a running queue whose words have room enters them. -/
theorem windowPush_room {last : Bool} {op : TOp} {data : List W64} (hp : s.flag Fld.queCfgProdPort q = true)
    (ho : s.fld Fld.queCfgProdOwner q = 2) (hr : s.fld Fld.queStatState q = 1)
    (hw : s.flag Fld.stwSecHoldWrHeld (queSector q) = false) (hh : s.queHeld q = false) (hroom : data.length ≤ s.queRoom q) :
    windowPush q 2 last op data s = (queSettle q (queEnterAll q last data s), .done Code.ok none) := by
  simp [windowPush, hp, ho, hr, hw, hh, Nat.not_lt.mpr hroom]

/-- A posted push without room is discarded, counted and shown. -/
theorem windowPush_full {last : Bool} {data : List W64} (hp : s.flag Fld.queCfgProdPort q = true)
    (ho : s.fld Fld.queCfgProdOwner q = 2) (hr : s.fld Fld.queStatState q = 1)
    (hw : s.flag Fld.stwSecHoldWrHeld (queSector q) = false) (hh : s.queHeld q = false) (hroom : s.queRoom q < data.length) :
    windowPush q 2 last .write data s =
      ((s.bump Fld.queCntDropped q).setFlag Fld.queStatOverflow true q, .done Code.queFull none) := by
  simp [windowPush, hp, ho, hr, hw, hh, hroom]

/-- A window pop by the end's owner of a running queue. -/
theorem windowPop_runs (hp : s.flag Fld.queCfgConsPort q = true) (ho : s.fld Fld.queCfgConsOwner q = 2)
    (hr : s.fld Fld.queStatState q = 1) (hh : s.queHeld q = false) (tagged : Bool) :
    windowPop q 2 tagged s =
      let p := (queLeave q s).2
      (queSettle q (queLeave q s).1,
        .done (if p.under then Code.queUnderrun else if p.poison then Code.poisoned else Code.ok)
          (some (if tagged then [p.data, tagWord p ((queLeave q s).1.fld Fld.queStatFill q)] else [p.data]))) := by
  simp [windowPop, hp, ho, hr, hh]

/-- An access at the local window that its queue answers at once. -/
theorem localWindow_answers {off tag len : Nat} {op : TOp} {data : List W64} {t : State} {st : Nat} {d : Option (List W64)}
    (hf : s.frozen (queSector q) = false) (ht : windowTake q 2 off len op data s = (t, .done st d)) :
    localWindow q off op tag len data s = if op.answered then { t with spine := { t.spine with
        out := Tab.set [] t.spine.out (1386 + q) (rspWords ⟨1386 + q, tag, st, d.isSome, d.getD [], .none⟩) } } else t := by
  simp [localWindow, hf, ht]

end

/-- The push commands, by the offset they write at. -/
theorem exec_quePushes (q : Fin 160) (last ack : Bool) (tag : Byte) {v : W64} {vs : List W64} (hlen : vs.length < 8) (s : State) :
    exec (if last then .quePushEnd q ack tag (v :: vs) else .quePush q ack tag (v :: vs)) s = .next (
      localWindow q (pushOffset last) (if ack then .writeAck else .write) tag.toNat (v :: vs).length (v :: vs) s) := by
  have hsize : ¬(v :: vs = [] ∨ 8 < (v :: vs).length) := by
    rintro (hnil | hlong)
    · exact List.cons_ne_nil v vs hnil
    · rw [List.length_cons] at hlong
      omega
  cases last <;> exact congrArg _ (if_neg hsize)

/-- Settles O20. -/
theorem queueEndsPushAndPop : Obligations.QueueEndsPushAndPop := by
  refine ⟨fun s q v last hp hh hf => ?_, fun s q hc hw hf => ⟨?_, fun hr hh => ?_⟩,
    fun s q last ack tag v vs hf hlen hp ho hr hw hh => ⟨fun hroom => ?_, fun hroom => ?_⟩,
    fun s q tag hf hc ho hr hh => ?_⟩
  · simp [execQpush, hp, hh, hf]
  · simp [execQpopWait, hc, hw, hf]
  · simp [execQpopNow, hc, hw, hf, hr, hh]
  · have ht := (windowTake_push q 2 last ack (v :: vs) s (v :: vs).length).trans
      (windowPush_room hp ho hr hw hh (by rw [List.length_cons]; omega))
    rw [exec_quePushes q last ack tag hlen, localWindow_answers hf ht]
    cases ack <;> rfl
  · have ht := (windowTake_push q 2 last false (v :: vs) s (v :: vs).length).trans
      (windowPush_full hp ho hr hw hh (by rw [List.length_cons]; omega))
    rw [exec_quePushes q last false tag hlen, localWindow_answers hf ht]
    rfl
  · intro p code t answer
    have hpop := (windowTake_pop q 2 false s).trans (windowPop_runs hc ho hr hh false)
    have htagged := (windowTake_pop q 2 true s).trans (windowPop_runs hc ho hr hh true)
    exact ⟨congrArg _ ((localWindow_answers hf hpop).trans (if_pos rfl)),
      congrArg _ ((localWindow_answers hf htagged).trans (if_pos rfl))⟩

/-! ### Controls (R266, R267, R271, R272, R281) -/

/-- Settles O21. -/
theorem queueControlsAct : Obligations.QueueControlsAct := by
  refine ⟨fun s w q hp hst he => ?_, fun s w q hp hst => ?_, fun s q hst he => ?_, fun s w q hp hst => ?_, fun s q hst => ?_,
    fun s w q hp hr => ?_, fun s w q v hp => ⟨fun hbad => ?_, fun hlow hhigh => ?_⟩, fun s w q v hp h2 h10 => ?_,
    fun s w q hp => ?_⟩
  · refine State.next_linked hp ?_
    simp [queEnable, hst, he, queBegin]
  · refine State.next_linked hp ?_
    simp only [queEnable, hst]
  · exact congrArg _ (if_pos ⟨hst, he⟩)
  · refine State.next_linked hp ?_
    simp only [queDisable, hst]
  · exact congrArg _ (if_neg (by omega))
  · exact State.next_linked hp (if_neg (by rw [hr]; decide))
  · exact State.next_linked hp (if_pos hbad)
  · refine State.next_linked hp ((if_neg (by omega)).trans (if_neg (by omega)))
  · refine State.next_linked hp ?_
    simp [queCfgWrite, h2, h10]
  · exact State.next_linked hp rfl

end Sys2Proof.Machine

/-! PROOFS about clock gates, crossings and the clock counters (07_crossings_and_clocks). -/

namespace Sys2Proof.Machine

variable {s : State} {w : Writer}

/-- An ON write restarts a stopped clock. -/
theorem gateWrite_on {g idle : Nat} (h : ((s.setFld Fld.clkGateMode 0 g).setFld Fld.clkGateIdle idle g).fld Fld.clkGateState g = 1) :
    gateWrite g 0 idle s = ((s.setFld Fld.clkGateMode 0 g).setFld Fld.clkGateIdle idle g).setFld Fld.clkGateState 0 g := by
  simp [gateWrite, gateRun, h]

/-- An AUTO write of a domain that was ON and runs leaves the clock alone. -/
theorem gateWrite_auto {g idle : Nat} (hm : s.fld Fld.clkGateMode g = 0)
    (h : ((s.setFld Fld.clkGateMode 1 g).setFld Fld.clkGateIdle idle g).fld Fld.clkGateState g = 0) :
    gateWrite g 1 idle s = (s.setFld Fld.clkGateMode 1 g).setFld Fld.clkGateIdle idle g := by
  simp [gateWrite, hm, h]

/-- An OFF write of a running domain whose units are stopped begins its stop. -/
theorem gateWrite_off {g idle : Nat} (hs : s.gateStopped g = true)
    (h : ((s.setFld Fld.clkGateMode 2 g).setFld Fld.clkGateIdle idle g).fld Fld.clkGateState g = 0) :
    gateWrite g 2 idle s = ((s.setFld Fld.clkGateMode 2 g).setFld Fld.clkGateIdle idle g).setFld Fld.clkGateState 2 g := by
  simp [gateWrite, hs, h]

/-- An OFF write of a domain whose units are not stopped is refused. -/
theorem gateWrite_off_busy {g idle : Nat} (hs : s.gateStopped g = false) :
    gateWrite g 2 idle s = s.refuse Reg.clkRefuse Code.clkGateBusy (0 + 8 * g) := by
  simp [gateWrite, hs, clkRefused]

/-- A wake of a stopped AUTO domain starts its clock and counts. -/
theorem gateWake_stopped {g : Nat} (hm : s.fld Fld.clkGateMode g = 1) (h : s.fld Fld.clkGateState g = 1) :
    gateWake g s = (s.setFld Fld.clkGateState 0 g).bump Fld.clkXingCntWakes (gateCrossing g) := by
  simp [gateWake, gateRun, hm, h]

/-- A wake that meets the stop of an AUTO domain latches the start and counts. -/
theorem gateWake_stopping {g : Nat} (hm : s.fld Fld.clkGateMode g = 1) (h : s.fld Fld.clkGateState g = 2) :
    gateWake g s = (s.setFld Fld.clkGateState 3 g).bump Fld.clkXingCntWakes (gateCrossing g) := by
  simp [gateWake, gateRun, hm, h]

/-- Settles O23. -/
theorem clockGatesAndCrossingsAct : Obligations.ClockGatesAndCrossingsAct := by
  refine ⟨fun s w g idle hp => ⟨fun h => ?_, fun hm h => ?_, fun hs h => ?_, fun hs => ?_⟩,
    fun s g hm => ⟨fun hst hi => ?_, fun hst => ?_, fun hst => ?_⟩, fun s g hst => ?_, fun s x hx => ?_,
    fun s x items hx hi => ?_, fun s w hp => ⟨?_, ?_⟩⟩
  · exact State.next_linked hp (gateWrite_on h)
  · exact State.next_linked hp (gateWrite_auto hm h)
  · exact State.next_linked hp (gateWrite_off hs h)
  · exact State.next_linked hp (gateWrite_off_busy hs)
  · exact congrArg _ (if_pos ⟨hm, hst, hi⟩)
  · exact congrArg _ (gateWake_stopped hm hst)
  · exact congrArg _ (gateWake_stopping hm hst)
  · rcases hst with hst | hst <;> simp [execClkGateStopDone, hst]
  · simp [execCrossingRelease, crossingRelease, hx]
  · have hn : items.toNat ≠ 0 := fun h => hi (BitVec.eq_of_toNat_eq h)
    simp only [exec_crossingRelease, execCrossingRelease, crossingRelease, List.contains_eq_mem, hx, decide_true, Bool.not_true,
      Bool.false_eq_true, if_false, hn]
    rfl
  · exact State.next_linked hp rfl
  · exact State.next_linked hp rfl

end Sys2Proof.Machine

/-! PROOFS about the engines and their contexts (08_motion_engines): starting and stopping, switches, timers and faults, the
context registers, the channels and the completion buffers. -/

namespace Sys2Proof.Machine

variable {s : State} {w : Writer} {n c : Nat}

/-! ### Engines (R354, R355) -/

/-- An engine that is OFF runs after EN = 1. -/
theorem engineEnable_off (hr : s.flag Fld.engStatRetired n = false)
    (h : (s.setFlag Fld.engCtlEn true n).fld Fld.engStatState n = 0) :
    engineEnable n s = engineRun n (s.setFlag Fld.engCtlEn true n) := by
  simp [engineEnable, hr, h]

/-- EN = 1 on a stopping engine is latched. -/
theorem engineEnable_stopping (hr : s.flag Fld.engStatRetired n = false)
    (h : (s.setFlag Fld.engCtlEn true n).fld Fld.engStatState n = 2) :
    engineEnable n s = (s.setFlag Fld.engCtlEn true n).setFld Fld.engStatState 3 n := by
  simp [engineEnable, hr, h]

/-- EN = 0 on a running engine stops its contexts. -/
theorem engineDisable_run (h : (s.setFlag Fld.engCtlEn false n).fld Fld.engStatState n = 1) :
    engineDisable n s =
      (upFrom 0 4).foldl (fun s c => ctxStop n c s) ((s.setFlag Fld.engCtlEn false n).setFld Fld.engStatState 2 n) := by
  simp [engineDisable, h]

/-- A quiet stopping engine is OFF at its stop's end. -/
theorem engineStopDone_quiet (h : s.fld Fld.engStatState n = 2) (hq : s.engQuiet n = true) :
    engineStopDone n s = ((upFrom 0 4).foldl (fun s c => abortXfer n c s) s).setFld Fld.engStatState 0 n := by
  simp [engineStopDone, h, hq]

/-! ### Contexts (R331 to R337, R354) -/

/-- START makes an OFF context READY, its bundle count at 0. -/
theorem ctxStart_off (hr : s.flag Fld.engStatRetired n = false) (h : s.ctxState n c = 0) :
    ctxStart n c s = (let t := s.setCtx n c { s.ctx n c with bundles := 0 }
      (t.setCtxState n c 1).setCtx n c { t.ctx n c with wdogAt := t.now }) := by
  simp [ctxStart, hr, h]

/-- START makes a STOPPED context READY. -/
theorem ctxStart_stopped (hr : s.flag Fld.engStatRetired n = false) (h : s.ctxState n c = 4) :
    ctxStart n c s = (s.setCtxState n c 1).setCtx n c { s.ctx n c with wdogAt := s.now } := by
  simp [ctxStart, hr, h]

/-- START makes a FAULTED context READY, its fault and its handler left behind. -/
theorem ctxStart_faulted (hr : s.flag Fld.engStatRetired n = false) (h : s.ctxState n c = 5) :
    ctxStart n c s = (let t := (s.setFlag Fld.engCtxStatFaultPend false n c).setFlag Fld.engCtxStatInHandler false n c
      (t.setCtxState n c 1).setCtx n c { t.ctx n c with wdogAt := t.now }) := by
  simp [ctxStart, hr, h]

/-- START on a stopping context is latched. -/
theorem ctxStart_stopping (hr : s.flag Fld.engStatRetired n = false) (h : s.ctxState n c = 6) :
    ctxStart n c s = s.setCtxState n c 7 := by
  simp [ctxStart, hr, h]

/-- STOP takes a READY or WAITING context off the engine. -/
theorem ctxStop_idle (h : s.ctxState n c = 1 ∨ s.ctxState n c = 3) : ctxStop n c s = leaveEngine n c 4 s := by
  rcases h with h | h <;> simp [ctxStop, h]

/-- STOP lets a running context reach its boundary, and takes a latched start back. -/
theorem ctxStop_running (h : s.ctxState n c = 2 ∨ s.ctxState n c = 7) : ctxStop n c s = s.setCtxState n c 6 := by
  rcases h with h | h <;> simp [ctxStop, h]

/-- A context that is not stopping is not settled. -/
theorem settleStop_other (h : s.ctxState n c < 6) : settleStop n c s = s := by
  unfold settleStop
  split
  · omega
  · omega
  · rfl

/-- With no running context the chosen one runs. -/
theorem contextSwitch_idle {d : Nat} (hst : s.fld Fld.engStatState n = 1) (hc : s.engClocked n = true)
    (hd : s.nextCtx n (s.curCtx n) = some d) (h : s.ctxState n (s.curCtx n) < 6) (h2 : s.ctxState n (s.curCtx n) ≠ 2) :
    contextSwitch n s = s.setCtxState n d 2 := by
  simp [contextSwitch, settleStop_other h, hst, hc, hd, h2]

/-- The chosen context takes the engine from a running one of lower priority only. -/
theorem contextSwitch_running {d : Nat} (hst : s.fld Fld.engStatState n = 1) (hc : s.engClocked n = true)
    (hd : s.nextCtx n (s.curCtx n) = some d) (h : s.ctxState n (s.curCtx n) = 2) :
    contextSwitch n s = if s.fld Fld.engCtxCfgPrio n (s.curCtx n) < s.fld Fld.engCtxCfgPrio n d then
      (leaveEngine n (s.curCtx n) 1 s).setCtxState n d 2 else s := by
  simp [contextSwitch, settleStop_other (show s.ctxState n (s.curCtx n) < 6 by omega), hst, hc, hd, h]

/-- Settles O24. -/
theorem enginesAndContextsStartAndStop : Obligations.EnginesAndContextsStartAndStop := by
  refine ⟨fun s w n hp hr => ⟨fun h => ?_, fun h => ?_⟩, fun s w n hp hr => ?_, fun s w n hp h => ?_, fun s n h hq => ?_,
    fun s w n hp => ?_, fun s w n c hp hr => ⟨fun h => ?_, fun h => ?_, fun h => ?_, fun h => ?_⟩,
    fun s w n c hp => ⟨fun h => ?_, fun h => ?_⟩, fun s n d hst hc hd => ⟨fun h h2 => ?_, fun h => ?_⟩,
    fun s n h hc hf hl => ?_, fun s n c hk hst hat => ?_, fun s n c ht => ?_, fun s n hl h hc => ?_⟩
  · exact State.next_linked hp (engineEnable_off hr h)
  · exact State.next_linked hp (engineEnable_stopping hr h)
  · exact State.next_linked hp (if_pos hr)
  · exact State.next_linked hp (engineDisable_run h)
  · rw [exec_engineStopDone, execEngineStopDone, engineStopDone_quiet h hq]
  · exact State.next_linked hp rfl
  · exact State.next_linked hp (ctxStart_off hr h)
  · exact State.next_linked hp (ctxStart_stopped hr h)
  · exact State.next_linked hp (ctxStart_faulted hr h)
  · exact State.next_linked hp (ctxStart_stopping hr h)
  · exact State.next_linked hp (ctxStop_idle h)
  · exact State.next_linked hp (ctxStop_running h)
  · exact congrArg _ (contextSwitch_idle hst hc hd h h2)
  · exact congrArg _ (contextSwitch_running hst hc hd h)
  · simp [execFaultDelivery, faultDelivery, h, hc, hf, hl]
  · exact congrArg _ (if_pos ⟨hk, hst, hat⟩)
  · exact congrArg _ (if_pos ht)
  · simp [execLongOpComplete, longComplete, hl, h, hc]

/-! ### Context registers (R357, R360) -/

/-- A write of ENG_CTX_CFG by the Warden meets the lock of R360 alone. -/
theorem ctxCfgWrite_warden {v : W32} (hw : s.priv w = 2) :
    ctxCfgWrite w n c v s = (let old := s.reg Reg.engCtxCfg n c
      if (bitsW v 2 9 ≠ bitsW old 2 9 ∨ bitsW v 13 1 ≠ bitsW old 13 1) ∧ s.ctxIdle n c = false then
        s.refuse Reg.engRefuse Code.engBusy c n
      else s.setReg Reg.engCtxCfg (Reg.engCtxCfg.plain old (v.setWidth 64) false) n c) := by
  simp [ctxCfgWrite, State.warden_iff.2 hw]

/-- A write of ENG_CTX_CFG below the Warden that would name a CLASS 1 space is refused. -/
theorem ctxCfgWrite_class1 {v : W32} (hw : s.priv w = 1) (hcl : s.flag Fld.wtuSpaceClass (bitsW v 3 8) = true)
    (hne : bitsW v 3 8 ≠ bitsW (s.reg Reg.engCtxCfg n c) 3 8) :
    ctxCfgWrite w n c v s = s.deny Code.wardenOnly 1 0 (Reg.engCtxCfg.addr n c / 2 ^ 12) := by
  simp [ctxCfgWrite, State.not_warden_of_supervisor hw, hcl, hne, State.denyWarden, State.ownerCode_of_supervisor hw]

/-! ### Channels, completion buffers and responses (R341, R347, R349, R383) -/

/-- A message for an engine's channel with room enters it at once. -/
theorem present_engineMsg {t : Trans} (ho : t.op = .msg) (hv : t.va < 0x300) (hsp : t.space = .dev)
    (hq : (s.eng (t.va / 8)).inq = []) (hl : (s.inCh (t.va / 8) (t.va % 8)).length < 4) (taken : Bool) :
    present t taken s = some (delivered t Code.ok none (tokenIn (t.va / 8) (t.va % 8) (wordAt t.data 0) s)) := by
  simp only [present, hsp, ho, deliverMsg, hv, engineMsg, hq, hl, if_true, and_self, Option.map_some]

/-- The only queued token of an engine enters its channel. -/
theorem engineMsgAdmit_last {k : Nat} {v : W64} (hq : (s.eng n).inq = [(k, v)]) (hl : (s.inCh n k).length < 4) :
    engineMsgAdmit n s = tokenIn n k v (s.setEng n { s.eng n with inq := [] }) := by
  simp [engineMsgAdmit, hq, Nat.not_le.mpr hl]

/-- An output channel's oldest token goes to the spine while the group port has room. -/
theorem outputDrain_room {k dest : Nat} {v : W64} {rest : List (Nat × W64)} (ho : s.outCh n k = (dest, v) :: rest)
    (hr : s.poolRoom (90 + n / 8) = true) : outputDrain n k s = (
      let t := ((s.setOutCh n k rest).occupy (90 + n / 8)).putTrans
        { port := 90 + n / 8, master := 80 + n, owner := 0x10 + n, tag := 0, op := .msg, len := 1
          addr := if 0x1000 ≤ dest then 8 * n + k else dest, space := .dev, asid := 0, priv := 0, va := dest
          marked := false, data := [v], asker := .none }
      (upFrom 0 4).foldl (fun t c => if (t.ctx n c).waitCh = k then t.wakeCtx n c 2 else t) t) := by
  simp only [outputDrain, ho, hr, Bool.not_true, Bool.false_eq_true, if_false, engOwner]

/-- The buffered completion that is ready is written to its queue. -/
theorem evqDrain_writes {ws : List W64} (hr : evqReady n s = some (c, ws))
    (he : (s.setEng n { s.eng n with evqBuf := (s.eng n).evqBuf.erase (c, ws) }).flag Fld.engCtxEvqEn n c = true) :
    evqDrain n s = evqWrite n c ws (s.setEng n { s.eng n with evqBuf := (s.eng n).evqBuf.erase (c, ws) }) := by
  simp only [evqDrain, hr, he, if_true]

/-- The answer of a context's only access, a load of one register without a status register: the register takes the word and
is no longer pending. -/
theorem accessResponse_load {k : Nat} {r : Rsp} {a : Acc} {v : W64} (hk : s.rsps[k]? = some r) (ha : r.asker = .context n c)
    (hst : r.status = Code.ok) (hd : r.hasData = true) (hdata : r.data = [v])
    (hctx : (({ s with rsps := dropAt s.rsps k } : State).release r.port).ctx n c = { accs := [a], pend := [a.dst] })
    (hsl : a.slot = r.tag) (hcp : a.copy = false) (hcnt : a.count = 1) (hreg : a.stReg = none) :
    accessResponse k s = (let t := ({ s with rsps := dropAt s.rsps k } : State).release r.port
      ((showPending n c (t.setCtx n c {})).setG n c a.dst v).wakeCtx n c 7) := by
  simp [accessResponse, hk, ha, hctx, hsl, hcp, hcnt, hreg, hd, hdata, hst, regRange, upFrom, setGs]

/-- Settles O25. -/
theorem contextRegistersAndChannelsAct : Obligations.ContextRegistersAndChannelsAct := by
  refine ⟨fun s w n c v hp => ?_, fun s w n c v hw => ?_, fun s w n c v hw hcl hne => ?_, fun s w n c v hp => ?_,
    fun s w n c v hp => ?_, fun s w n c r v hp hi => ⟨?_, ?_⟩, fun s w n c r v hp hi => ?_, fun s w n k v hp => ?_,
    fun s k t hk ho hv hsp hm hq hl => ?_, fun s n k v hq hl => ?_, fun s n k dest v rest ho hr => ?_,
    fun s n c ws hr he => ?_, fun s k r n c a v hk ha hst hd hdata hctx hsl hcp hcnt hreg => ?_⟩
  · exact State.next_linked hp rfl
  · exact State.next_linked (State.priv_of_warden (State.warden_iff.2 hw)) (ctxCfgWrite_warden hw)
  · exact State.next_linked (by rw [hw]; decide) (ctxCfgWrite_class1 hw hcl hne)
  · exact State.next_linked hp rfl
  · exact State.next_linked hp rfl
  · exact State.next_linked hp (if_pos hi)
  · exact State.next_linked hp (if_pos hi)
  · exact State.next_linked hp (if_neg (by simp [hi]))
  · refine State.next_linked hp ?_
    simp [ochDestWrite]
  · have hp := present_engineMsg (s := s.dropTrans k) ho hv hsp hq hl false
    simp only [exec_engineTokenIn, execEngineTokenIn, engineTokenIn, hk, ho, hv, and_self, if_true]
    rw [deliver_presents false hk (translateTrans_dev hsp s) hm hp, lostContests_zero]
  · rw [exec_engineMsgAdmit, execEngineMsgAdmit, engineMsgAdmit_last hq hl]
  · rw [exec_outputChannelDrain, execOutputChannelDrain, outputDrain_room ho hr]
  · rw [exec_evqBufferDrain, execEvqBufferDrain, evqDrain_writes hr he]
  · rw [exec_accessResponse, execAccessResponse, accessResponse_load hk ha hst hd hdata hctx hsl hcp hcnt hreg]

end Sys2Proof.Machine

/-! PROOFS about translation and protection (11_translation_and_protection): the walker, invalidation, address spaces, host links
and the lifetime settings. -/

namespace Sys2Proof.Machine

variable {s : State} {w : Writer}

/-! ### Walks (R467, R472) -/

section
variable {k : Nat} {x : Walk} {first own : W64} {err : Bool}

/-- A walk's read of a host table fails with the read, and where the link is down. -/
theorem tableEntries_host_fails (hd : x.dev = false) (h : err = true ∨ s.flag Fld.rngLinkUp = false) :
    tableEntries x first own err s = (s, none) := by
  have hfail : (err || !s.flag Fld.rngLinkUp) = true := by simpa using h
  simp only [tableEntries, hd, hfail, Bool.false_eq_true, if_false, if_true]

/-- The entries of a host table are what its read brings. -/
theorem tableEntries_host_read (hd : x.dev = false) (he : err = false) (hu : s.flag Fld.rngLinkUp = true) :
    tableEntries x first own err s = (s, some (first, own)) := by
  simp [tableEntries, hd, he, hu]

/-- A read that brought no entries ends its walk. -/
theorem tableRead_none (hk : s.wtu.walks[k]? = some x) (hd : x.dev = false)
    (hr : ¬(s.flag Fld.rngLinkUp = true ∧ s.sys.retraining = true)) (ht : tableEntries x first own err s = (s, none)) :
    tableRead k first own err s = walkDone k x (.fault Code.tblReadErr) s := by
  have hgo : (s.flag Fld.rngLinkUp && s.sys.retraining) = false := by simpa using hr
  simp only [tableRead, hk, hd, Bool.not_false, Bool.true_and, hgo, Bool.false_eq_true, if_false, ht]

section
variable (hk : s.wtu.walks[k]? = some x) (hd : x.dev = false) (hr : ¬(s.flag Fld.rngLinkUp = true ∧ s.sys.retraining = true))
  (ht : tableEntries x first own err s = (s, some (first, own)))
include hk hd hr ht

/-- An entry that names a table moves the walk a level down. -/
theorem tableRead_table {t : Nat} {dev : Bool}
    (he : (if x.level = 0 then lowestEntry first own else upperEntry x.level own) = .table t dev) :
    tableRead k first own err s = s.walkOn k x t dev := by
  have hgo : (s.flag Fld.rngLinkUp && s.sys.retraining) = false := by simpa using hr
  simp only [tableRead, hk, hd, Bool.not_false, Bool.true_and, hgo, Bool.false_eq_true, if_false, ht, he]

/-- A leaf ends the walk. -/
theorem tableRead_leaf {size frame : Nat} {r w u dev : Bool}
    (he : (if x.level = 0 then lowestEntry first own else upperEntry x.level own) = .leaf size frame r w u dev) :
    tableRead k first own err s = walkDone k x (.leaf size frame r w u dev) s := by
  have hgo : (s.flag Fld.rngLinkUp && s.sys.retraining) = false := by simpa using hr
  simp only [tableRead, hk, hd, Bool.not_false, Bool.true_and, hgo, Bool.false_eq_true, if_false, ht, he]

/-- A bad entry ends the walk with its fault. -/
theorem tableRead_fault {code : Nat}
    (he : (if x.level = 0 then lowestEntry first own else upperEntry x.level own) = .fault code) :
    tableRead k first own err s = walkDone k x (.fault code) s := by
  have hgo : (s.flag Fld.rngLinkUp && s.sys.retraining) = false := by simpa using hr
  simp only [tableRead, hk, hd, Bool.not_false, Bool.true_and, hgo, Bool.false_eq_true, if_false, ht, he]

end
end

/-! ### Invalidation (R470, R471) -/

/-- A mode below 3 reads back from the word an invalidation command writes. -/
theorem bitsW_invWord_mode (mode : Nat) (hm : mode < 3) (asid : Byte) : bitsW (invWord mode asid) 0 2 = mode := by
  have := asid.isLt
  simp only [invWord, bitsW, bitsOf, BitVec.toNat_ofNat]
  omega

/-- The word an invalidation command writes has GO set. -/
theorem bitsW_invWord_go (mode : Nat) (hm : mode < 3) (asid : Byte) : bitsW (invWord mode asid) 31 1 = 1 := by
  have := asid.isLt
  simp only [invWord, bitsW, bitsOf, BitVec.toNat_ofNat]
  omega

/-- The word an invalidation command writes fits its 32 bits. -/
theorem invWord_setWidth (mode : Nat) (hm : mode < 3) (asid : Byte) :
    (invWord mode asid).setWidth 64 = BitVec.ofNat 64 (mode + asid.toNat * 2 ^ 8 + 2 ^ 31) := by
  have := asid.isLt
  apply BitVec.eq_of_toNat_eq
  simp only [invWord, BitVec.toNat_setWidth, BitVec.toNat_ofNat]
  omega

/-- While GO reads 1 an invalidation write changes nothing. -/
theorem invWrite_running (hw : s.priv w = 2) (hg : s.flag Fld.wtuInvGo = true) (v : W32) : invWrite w v s = s := by
  rw [invWrite, State.wardenOr_of_warden (State.warden_iff.2 hw), if_pos (.inl hg)]

/-- A legal invalidation begins where none runs. -/
theorem invWrite_begins (hw : s.priv w = 2) (hg : s.flag Fld.wtuInvGo = false) {mode : Nat} (hm : mode < 3) (asid : Byte) :
    invWrite w (invWord mode asid) s = (
      let t := s.setReg Reg.wtuInv (Reg.wtuInv.plain (s.reg Reg.wtuInv) (BitVec.ofNat 64 (mode + asid.toNat * 2 ^ 8 + 2 ^ 31)) true)
      ((t.setFlag Fld.wtuInvDone false).setFlag Fld.wtuInvGo true).invalidate) := by
  have hlegal : ¬(s.flag Fld.wtuInvGo = true ∨ bitsW (invWord mode asid) 0 2 = 3) := by
    rw [hg, bitsW_invWord_mode mode hm]
    simp only [Bool.false_eq_true, false_or]
    omega
  rw [invWrite, State.wardenOr_of_warden (State.warden_iff.2 hw), if_neg hlegal]
  simp only [bitsW_invWord_go mode hm, invWord_setWidth mode hm, Nat.one_ne_zero, if_false]

/-- A write of WTU_SPACE with a root where it may lie is taken. -/
theorem spaceWrite_takes (hw : s.priv w = 2) {a : Nat} {v : W64}
    (h : bitsW (Reg.wtuSpace.plain (s.reg Reg.wtuSpace a) v true) 1 1 = 0 ∨
      bitsW (Reg.wtuSpace.plain (s.reg Reg.wtuSpace a) v true) 12 40 * 4096 < 0x500000) :
    spaceWrite w a v s = (s.setReg Reg.wtuSpace (Reg.wtuSpace.plain (s.reg Reg.wtuSpace a) v true) a).invalidateSpace a := by
  rw [spaceWrite, State.wardenOr_of_warden (State.warden_iff.2 hw)]
  exact if_neg (by omega)

/-- Settles O38. -/
theorem translationWalksAndInvalidationAct : Obligations.TranslationWalksAndInvalidationAct := by
  refine ⟨fun s k x first own err hk hd hr => ?_, fun s w asid hw r hmem => ?_, fun s hg hwalks htrans => ?_,
    fun s w a v hw => ?_⟩
  · intro e
    simp only [exec_tableReadDone, execTableReadDone]
    refine ⟨fun hfail => ?_, fun herr hup => ?_⟩
    · rw [tableRead_none hk hd hr (tableEntries_host_fails hd hfail)]
    · have ht := tableEntries_host_read (s := s) (first := first) (own := own) hd herr hup
      refine ⟨fun t dev he => ?_, fun size frame r w u dev he => ?_, fun code he => ?_⟩
      · rw [tableRead_table hk hd hr ht he, State.walkOn]
      · rw [tableRead_leaf hk hd hr ht he]
      · rw [tableRead_fault hk hd hr ht he]
  · have hp : s.priv w ≠ 0 := by rw [hw]; decide
    simp only [List.mem_cons, List.not_mem_nil, or_false] at hmem
    rcases hmem with rfl | rfl | rfl
    all_goals exact ⟨fun hg => State.next_linked hp (invWrite_running hw hg _),
      fun hg => State.next_linked hp (invWrite_begins hw hg (by decide) asid)⟩
  · have hw : s.wtu.walks.any (·.atGo) = false := by simpa using hwalks
    have ht : s.trans.any (·.marked) = false := by simpa using htrans
    simp only [exec_invalidateDone, execInvalidateDone, hg, hw, ht, Bool.not_false, Bool.and_self, if_true]
  · intro new hroot
    exact State.next_linked (by rw [hw]; decide) (spaceWrite_takes hw hroot)

/-! ### Host links and lifetime settings (R452, R475 to R481) -/

/-- Some link is left at Warden privilege if the new one is, or another one already. -/
theorem State.wardenLeft_iff {l p : Nat} (hl : l < 3) :
    s.wardenLeft l p = true ↔ p = 2 ∨ ∃ k, k < 3 ∧ k ≠ l ∧ s.fld Fld.wtuLinkPriv k = 2 := by
  simp only [State.wardenLeft, List.any_eq_true, mem_upFrom, beq_iff_eq]
  constructor
  · rintro ⟨k, hk, h⟩
    by_cases hkl : k = l
    · rw [if_pos hkl] at h
      exact .inl h
    · rw [if_neg hkl] at h
      exact .inr ⟨k, by omega, hkl, h⟩
  · rintro (h | ⟨k, hk, hkl, h⟩)
    · exact ⟨l, by omega, by rw [if_pos rfl, h]⟩
    · exact ⟨k, by omega, by rw [if_neg hkl, h]⟩

section
variable {l p : Nat} (hw : s.priv w = 2)
include hw

/-- The JTAG link of a device with debug disabled is refused. -/
theorem linkPrivWrite_spent (h : l = 2 ∧ s.flag Fld.wtuDebugDisable = true) :
    linkPrivWrite w l p s = s.deny Code.lifeSpent 0 6 l := by
  rw [linkPrivWrite, State.wardenOr_of_warden (State.warden_iff.2 hw), State.ownerCode_of_warden hw]
  exact if_pos h

/-- The undefined privilege is refused. -/
theorem linkPrivWrite_bad (h : ¬(l = 2 ∧ s.flag Fld.wtuDebugDisable = true)) (hp : p = 3) :
    linkPrivWrite w l p s = s.deny Code.ownerBad 0 6 l := by
  rw [linkPrivWrite, State.wardenOr_of_warden (State.warden_iff.2 hw), State.ownerCode_of_warden hw]
  exact (if_neg h).trans (if_pos hp)

/-- A privilege that leaves no link the Warden's is refused. -/
theorem linkPrivWrite_last (h : ¬(l = 2 ∧ s.flag Fld.wtuDebugDisable = true)) (hp : p ≠ 3) (hl : s.wardenLeft l p = false) :
    linkPrivWrite w l p s = s.deny Code.wardenLast 0 6 l := by
  rw [linkPrivWrite, State.wardenOr_of_warden (State.warden_iff.2 hw), State.ownerCode_of_warden hw]
  exact (if_neg h).trans ((if_neg hp).trans (if_pos (by rw [hl]; rfl)))

/-- Any other privilege is taken. -/
theorem linkPrivWrite_takes (h : ¬(l = 2 ∧ s.flag Fld.wtuDebugDisable = true)) (hp : p ≠ 3) (hl : s.wardenLeft l p = true) :
    linkPrivWrite w l p s = s.setFld Fld.wtuLinkPriv p l := by
  rw [linkPrivWrite, State.wardenOr_of_warden (State.warden_iff.2 hw)]
  exact (if_neg h).trans ((if_neg hp).trans (if_neg (by rw [hl]; decide)))

variable (hb : s.flag Fld.wtuLifeStatLifeBusy = false)
include hb

/-- A commit to an empty slot takes the staged key and clears the staging words. -/
theorem keyCommit_empty {k : Nat} (hset : s.flag Fld.wtuKeyCtlSet k = false) :
    keyCommit w k s = (upFrom 0 8).foldl (fun s i => s.setReg Reg.wtuKeyData 0 i) (
      let t := ((lifeTake Reg.wtuKeyCtl k (s.slotKey k) s).setFlag Fld.wtuKeyCtlSet true k).setFld Fld.wtuKeyCtlKcv
        (keyCheck s.stagedKey) k
      { t with wtu := { t.wtu with keys := Tab.set [] t.wtu.keys k s.stagedKey } }) := by
  simp only [keyCommit, State.wardenOr_of_warden (State.warden_iff.2 hw), hb, hset, Bool.false_eq_true, false_and, if_false]

/-- A commit of a slot's own key clears the staging words only. -/
theorem keyCommit_same {k : Nat} (hset : s.flag Fld.wtuKeyCtlSet k = true) (hk : s.slotKey k = s.stagedKey) :
    keyCommit w k s = (upFrom 0 8).foldl (fun s i => s.setReg Reg.wtuKeyData 0 i) s := by
  simp only [keyCommit, State.wardenOr_of_warden (State.warden_iff.2 hw), hb, hset, hk, Bool.false_eq_true, if_false, and_self,
    if_true]

/-- BOOT_LOCK takes another value up to 4 while a change remains. -/
theorem bootLockWrite_takes {v : Nat} (hv : v ≤ 4) (hne : v ≠ s.fld Fld.wtuBootLockLock) (hr : s.fld Fld.wtuBootLockRemain ≠ 0) :
    bootLockWrite w v s = (let t := lifeTake Reg.wtuBootLock 0 [] s
      (t.setFld Fld.wtuBootLockRemain (t.fld Fld.wtuBootLockRemain - 1)).setFld Fld.wtuBootLockLock v) := by
  simp only [bootLockWrite, State.wardenOr_of_warden (State.warden_iff.2 hw), hb, Nat.not_lt.mpr hv, hne, hr, Bool.false_eq_true,
    if_false]

/-- Debug is disabled once, and the JTAG link falls to NONE. -/
theorem debugWrite_disables (hd : s.flag Fld.wtuDebugDisable = false) (hr : s.flag Fld.wtuDebugRemain = true)
    (hl : s.wardenLeft 2 0 = true) : debugWrite w true s =
      (((lifeTake Reg.wtuDebug 0 [] s).setFlag Fld.wtuDebugRemain false).setFlag Fld.wtuDebugDisable true).setFld
        Fld.wtuLinkPriv 0 2 := by
  simp only [debugWrite, State.wardenOr_of_warden (State.warden_iff.2 hw), hb, hd, hr, hl, Bool.not_true, Bool.false_eq_true,
    Bool.true_eq_false, if_false]

end

/-- Settles O40. -/
theorem linkAndLifetimeWritesAct : Obligations.LinkAndLifetimeWritesAct := by
  refine ⟨fun s w l v hw => ?_, fun s w hw hb => ?_, fun s w hp => State.next_linked hp rfl, fun s => rfl⟩
  · have hp : s.priv w ≠ 0 := by rw [hw]; decide
    have hleft := State.wardenLeft_iff (s := s) (p := bitsW v 0 2) l.isLt
    have hjtag : l = 2 ↔ l.val = 2 := Fin.ext_iff
    intro p no
    rw [hjtag]
    refine ⟨fun h2 hd => State.next_linked hp (linkPrivWrite_spent hw ⟨h2, hd⟩), fun h => ⟨fun h3 => ?_, fun h3 h2 hnone => ?_,
      fun h3 hsome => ?_⟩⟩
    · exact State.next_linked hp (linkPrivWrite_bad hw h h3)
    · refine State.next_linked hp (linkPrivWrite_last hw h h3 (Bool.eq_false_iff.2 fun ht => ?_))
      rcases hleft.1 ht with h' | ⟨k, hk, hkl, hv⟩
      · exact h2 h'
      · exact hnone k hk hkl hv
    · exact State.next_linked hp (linkPrivWrite_takes hw h h3 (hleft.2 hsome))
  · have hp : s.priv w ≠ 0 := by rw [hw]; decide
    refine ⟨fun k => ⟨fun hset => ?_, fun hset hk => ?_⟩, fun v hv hne hr => ?_, fun hd hr hl => ?_⟩
    · exact State.next_linked hp (keyCommit_empty hw hb hset)
    · exact State.next_linked hp (keyCommit_same hw hb hset hk)
    · exact State.next_linked hp (bootLockWrite_takes hw hb hv hne hr)
    · exact State.next_linked hp (debugWrite_disables hw hb hd hr ((State.wardenLeft_iff (by decide)).2
        (.inr ⟨0, by decide, by decide, hl⟩)))

end Sys2Proof.Machine

/-! PROOFS about descriptors and movers (10_host_link_and_rings): how a ring's oldest descriptor starts, and how a transfer ends. -/

namespace Sys2Proof.Machine

/-! ### The rows -/

section
variable {s t : State} {n : Nat} {d : List W64}

/-- A descriptor whose checks pass goes by its operation's row. -/
theorem descRow_of_check (hc : descCheck n d t = Code.ok) : descRow d = descOp d := by
  have hdef : (descFields (descOp d) (t.extended n)).isSome = true := by
    cases hf : descFields (descOp d) (t.extended n) with
    | none =>
      simp only [descCheck, hf] at hc
      exact absurd hc (by decide)
    | some fields => rfl
  refine if_pos ?_
  cases hx : t.extended n <;> rw [hx] at hdef <;> simp [hdef]

/-- A job as a descriptor's start leaves it. -/
theorem job_descStart (hwf : Tab.wf {} s.jobs = true) (r : RingHid) (x : Job) :
    (showServed n ((s.setRing n r).setJob n x)).job n = x := by
  rw [State.job, Laws.showServed_jobs]
  exact Laws.job_setJob_self hwf n x


end

/-! ### What each descriptor begins (R433 to R437, R494) -/

section
variable {s : State} {n lost : Nat} {d : List W64} {a : Nat → Nat} (hd : (s.job n).desc = d)
  (ha : descArg d (s.extended n) = a)
include hd

/-- NOP completes. -/
theorem descBegin_nop (h : descOp d = 0) : descBegin n lost s = completeDesc n Code.ok s := by
  simp only [descBegin, hd, h]

include ha

/-- COPY sets its transfer, and its mover serves a chunk. -/
theorem descBegin_copy (h : descOp d = 1) : descBegin n lost s =
    jobChunk n lost (setTransfer n (a 0) (a 1) (if s.extended n then a 2 else 8 * (if a 2 = 0 then 65536 else a 2)) s) := by
  simp only [descBegin, hd, h, ha]

/-- MSG sends its token. -/
theorem descBegin_msg (h : descOp d = 2) : descBegin n lost s = descToken n (a 0) (BitVec.ofNat 64 (a 1)) s := by
  simp only [descBegin, hd, h, ha]

/-- ARM_SHORT of a valid event is answered by the scheduler. -/
theorem descBegin_armShort (h : descOp d = 3) (hv : bitOf (a 0) 19 = true) : descBegin n lost s = (
    let r := armEvent (.ring n) (s.jobOwner n) (BitVec.ofNat 64 (a 1)) 0 0 (BitVec.ofNat 64 (a 0)) s
    descReply n r.2.1 r.2.2 r.1) := by
  simp only [descBegin, hd, h, ha, hv, Bool.not_true, Bool.false_eq_true, if_false]

/-- ARM_SHORT without its valid bit is refused. -/
theorem descBegin_armShort_refused (h : descOp d = 3) (hv : bitOf (a 0) 19 = false) : descBegin n lost s = (
    let r := refusedArm (.ring n) Code.badEvent (BitVec.ofNat 64 (a 0)) s
    descReply n Code.badEvent r.2 r.1) := by
  simp only [descBegin, hd, h, ha, hv, Bool.not_false, if_true]

/-- ARM_INLINE is answered by the scheduler. -/
theorem descBegin_armInline (h : descOp d = 4) : descBegin n lost s = (
    let r := armEvent (.ring n) (s.jobOwner n) (BitVec.ofNat 64 (a 1)) (BitVec.ofNat 64 (a 0)) (BitVec.ofNat 64 (a 2))
      (BitVec.ofNat 64 (a 3)) s
    descReply n r.2.1 r.2.2 r.1) := by
  simp only [descBegin, hd, h, ha]

/-- ARM_IMG sets its transfer of images. -/
theorem descBegin_armImg (h : descOp d = 5) : descBegin n lost s =
    jobChunk n lost (setTransfer n (a 0) (a 1) (32 * (if a 2 = 0 then 256 else a 2)) s) := by
  simp only [descBegin, hd, h, ha]

/-- CANCEL is answered by the scheduler. -/
theorem descBegin_cancel (h : descOp d = 6) : descBegin n lost s = (
    let r := cancelBy (.ring n) (a 0) s
    descReply n r.2 (a 0) r.1) := by
  simp only [descBegin, hd, h, ha]

/-- TB_WRITE sets the transfer of its record. -/
theorem descBegin_tbWrite (h : descOp d = 7) : descBegin n lost s = jobChunk n lost (setTransfer n (a 2) 0 32 s) := by
  simp only [descBegin, hd, h, ha]

/-- LOAD sets the transfer of its stream. -/
theorem descBegin_load (h : descOp d = 8) : descBegin n lost s = jobChunk n lost (setTransfer n (a 0) 0 (a 1) s) := by
  simp only [descBegin, hd, h, ha]

/-- SHEET waits for the capture. -/
theorem descBegin_sheet (h : descOp d = 9) : descBegin n lost s = setTransfer n 0 (a 0) 3456 s := by
  simp only [descBegin, hd, h, ha]

end

/-! ### Starts and continuations (R432, R437) -/

section
variable {s : State} {n row lost : Nat} {more : State → State}

/-- A row whose operation is under way goes on with it. -/
theorem descStep_on (hn : n < 64) (hon : (s.job n).on = true) (ho : descOp (s.job n).desc = row) :
    descStep n row lost more s = jobChunk n lost s := by
  rw [descStep, if_pos hon, if_pos (by rw [Job.op, if_pos hn, ho])]

/-- A transfer of an engine whose bytes are all done ends. -/
theorem jobLine_xferDone {n c : Nat} (hc : c < 4) (hon : (s.job (64 + 4 * n + c)).on = true) (hx : (s.ctx n c).xfer.st = 1)
    (ha : (s.job (64 + 4 * n + c)).await = false) (hp : (s.job (64 + 4 * n + c)).put = false)
    (hl : (s.job (64 + 4 * n + c)).len ≤ (s.job (64 + 4 * n + c)).done) :
    jobLine (64 + 4 * n + c) lost s =
      (showMover (s.jobMover (64 + 4 * n + c)) (endXfer n c (s.job (64 + 4 * n + c)).status s), .over) := by
  have hge : ¬64 + 4 * n + c < 64 := by omega
  have heng : jobEng (64 + 4 * n + c) = n := by rw [jobEng]; omega
  have hctx : jobCtx (64 + 4 * n + c) = c := by rw [jobCtx]; omega
  simp [jobLine, jobDone, endJob, Job.op, State.jobStalled, hge, heng, hctx, hon, hx, ha, hp, hl]

end

/-- Settles O41. -/
theorem descriptorsStart : Obligations.DescriptorsStart := by
  refine ⟨fun s n i d rest lost hwf hoff hfetched hrun hgo hrec hfence => ?_, fun s n lost hon r hr ho => ?_,
    fun s n c lost => ?_⟩
  · intro t ext a w reply
    have hdesc : (t.job n).desc = d := by rw [job_descStart hwf]
    have hrow {row lost : Nat} (hd : descRow d = row) := Laws.descStep_start (lost := lost) (more := id)
      hoff hfetched hd hrun hgo hrec hfence
    refine ⟨fun r hr hd hbad => ?_, fun hc => ?_⟩
    · simp only [List.mem_cons, List.not_mem_nil, or_false] at hr
      rcases hr with rfl | rfl | rfl | rfl | rfl | rfl | rfl | rfl | rfl | rfl
      all_goals exact congrArg Host.Outcome.next ((hrow hd).trans (if_pos hbad))
    · have hbegin {row lost : Nat} (ho : descOp d = row) (hlt : row < 0x40) : descStep n row lost id s = descBegin n lost t :=
        (hrow ((descRow_of_check hc).trans ho)).trans ((if_neg (Classical.not_not.2 hc)).trans (if_pos hlt))
      refine ⟨fun ho => ?_, fun ho => ?_, fun ho ht => ?_, fun ho h1 h2 h3 => ?_, fun ho hv => ?_, fun ho hv => ?_, fun ho => ?_,
        fun ho => ?_, fun ho => ?_, fun ho => ?_, fun ho => ?_, fun ho => ?_⟩
      · rw [exec_descNop, execDescNop, hbegin ho (by decide), descBegin_nop hdesc ho]
      · rw [exec_descCopy, execDescCopy, hbegin ho (by decide), descBegin_copy hdesc rfl ho]
      · rw [exec_descMsg, execDescMsg, hbegin ho (by decide), descBegin_msg hdesc rfl ho, Laws.descToken_plain _ _ _ _ ht]
      · rw [exec_descMsg, execDescMsg, hbegin ho (by decide), descBegin_msg hdesc rfl ho, Laws.descToken_none _ _ _ _ h1 h2 h3]
      · rw [exec_armShort, execArmShort, hbegin ho (by decide), descBegin_armShort hdesc rfl ho hv]
        rfl
      · rw [exec_armShort, execArmShort, hbegin ho (by decide), descBegin_armShort_refused hdesc rfl ho hv]
        rfl
      · rw [exec_armInline, execArmInline, hbegin ho (by decide), descBegin_armInline hdesc rfl ho]
        rfl
      · rw [exec_armImg, execArmImg, hbegin ho (by decide), descBegin_armImg hdesc rfl ho]
      · rw [exec_descCancel, execDescCancel, hbegin ho (by decide), descBegin_cancel hdesc rfl ho]
        rfl
      · rw [exec_tbWrite, execTbWrite, hbegin ho (by decide), descBegin_tbWrite hdesc rfl ho]
      · rw [exec_descLoad, execDescLoad, hbegin ho (by decide), descBegin_load hdesc rfl ho]
      · rw [exec_descSheet, execDescSheet, hbegin ho (by decide), descBegin_sheet hdesc rfl ho]
  · simp only [List.mem_cons, List.not_mem_nil, or_false] at hr
    rcases hr with rfl | rfl | rfl | rfl
    all_goals exact congrArg Host.Outcome.next (descStep_on n.isLt hon ho)
  · intro j hon hx ha hp hl
    have hjob : (showServed j s).job j = s.job j := by rw [State.job, Laws.showServed_jobs]; rfl
    have hctx : (showServed j s).ctx n c = s.ctx n c := by rw [State.ctx, Laws.showServed_ctxs]; rfl
    have hline := jobLine_xferDone (s := showServed j s) (n := n) (lost := lost) c.isLt (by rw [hjob]; exact hon)
      (by rw [hctx]; exact hx) (by rw [hjob]; exact ha) (by rw [hjob]; exact hp) (by rw [hjob]; exact hl)
    rw [exec_xferEnd, execXferEnd, jobChunk, jobRun, hline, hjob]

end Sys2Proof.Machine

/-! PROOFS about what movers wait for (10_host_link_and_rings): descriptor fetches, the host's completions, the spine's responses,
and the contact sheet. -/

namespace Sys2Proof.Machine

/-! ### Fetches (R431) -/

/-- An address that needs no walk leaves the state of a mover's path as it is. -/
theorem moverXl_known {s : State} {k m asid priv : Nat} {op : TOp} {va : Nat} {x : Xl}
    (h : s.translate (moverCaches m) asid priv op va = x) (hx : x ≠ .miss) : moverXl k m asid priv op va s = (s, x) := by
  unfold moverXl
  split
  · next hm => exact absurd (h.symm.trans hm) hx
  · rw [h]

/-- The address of ring n's next descriptor. -/
def State.nextDesc (s : State) (n : Nat) : Nat :=
  s.fld Fld.rngBaseAddr n + 8 * (if s.extended n then 4 else 2) * s.fld Fld.rngIdxDevIdx n

/-- Where a ring's next descriptor lies, as its mover's path translates it. -/
def State.descXl (s : State) (n : Nat) : Xl :=
  s.translate (moverCaches (s.ringMover n)) (s.fld Fld.rngOwnAsid n) (s.fld Fld.rngOwnPriv n) .read (s.nextDesc n)

section
variable {s : State} {n lost : Nat} (ho : s.ringOpen n 0 = true) (hgo : s.ringsGo = true)
  (hidx : s.fld Fld.rngIdxHostIdx n % s.ringSize n ≠ s.fld Fld.rngIdxDevIdx n) (hf : (s.ring n).fetching = false)
  (hrec : (s.ring n).record = none) (hroom : (s.ring n).fetched.length < 8)
include ho hgo hidx hf hrec hroom

/-- Nothing holds the fetch back. -/
theorem fetch_goes : (!s.ringOpen n 0 || !s.ringsGo || s.fld Fld.rngIdxHostIdx n % s.ringSize n == s.fld Fld.rngIdxDevIdx n ||
    (s.ring n).fetching || (s.ring n).record.isSome || decide (8 ≤ (s.ring n).fetched.length)) = false := by
  simp [ho, hgo, hidx, hf, hrec, hroom]

/-- A ring with an unread descriptor and room for it reads it from host memory. -/
theorem descFetch_host {a : Nat} (hx : s.descXl n = .ok .host a) (hup : s.flag Fld.rngLinkUp = true)
    (hrt : s.sys.retraining = false) : descFetch n lost s = (
      let t := s.setFld Fld.rngIdxDevIdx ((s.fld Fld.rngIdxDevIdx n + 1) % s.ringSize n) n
      let t := { t with hostOut := t.hostOut ++
        [HostOut.read a (if s.extended n then 4 else 2) (102 + s.ringMover n / 16) 0 (.record n)] }
      t.setRing n { s.ring n with fetching := true }) := by
  have hxl (k : Nat) := moverXl_known (k := k) hx (by simp)
  simp only [State.nextDesc] at hxl
  simp only [descFetch, fetch_goes ho hgo hidx hf hrec hroom, hxl, hup, hrt, Bool.not_true, Bool.false_eq_true, if_false]

/-- Without a link the ring stops. -/
theorem descFetch_linkDown {a : Nat} (hx : s.descXl n = .ok .host a) (hup : s.flag Fld.rngLinkUp = false) :
    descFetch n lost s = ringError n Code.linkDown s := by
  have hxl (k : Nat) := moverXl_known (k := k) hx (by simp)
  simp only [State.nextDesc] at hxl
  simp only [descFetch, fetch_goes ho hgo hidx hf hrec hroom, hxl, hup, Bool.not_false, Bool.false_eq_true, if_false, if_true]

/-- An address that faults stops the ring. -/
theorem descFetch_fault {code : Nat} (hx : s.descXl n = .fault code) : descFetch n lost s =
    ringError n Code.fetchFault (s.xlFault code (s.fld Fld.rngOwnAsid n) (s.nextDesc n) (176 + s.ringMover n)
      (s.fld Fld.rngOwnPriv n) false) := by
  have hxl (k : Nat) := moverXl_known (k := k) hx (by simp)
  simp only [State.nextDesc] at hxl
  simp only [descFetch, fetch_goes ho hgo hidx hf hrec hroom, hxl, State.nextDesc, Bool.false_eq_true, if_false]

end

/-! ### Answers (R212, R438) -/

section
variable {s : State} {k words port tag ad : Nat} {who : Asker} {ok : Bool} {data : List W64}

/-- A completion for a spine port or a context is set out as its response. -/
theorem hostCompletion_response (hk : s.hostOut[k]? = some (.read ad words port tag who)) (hl : ok = true → data.length = words)
    (hw : (∃ p, who = .port p) ∨ ∃ n c, who = .context n c) :
    hostCompletion k ok data s = ({ s with hostOut := dropAt s.hostOut k } : State).putRsp
      ⟨port, tag, if ok then Code.ok else Code.hostErr, ok, data, who⟩ := by
  have hlen : ¬(ok = true ∧ data.length ≠ words) := fun h => h.2 (hl h.1)
  rcases hw with ⟨p, rfl⟩ | ⟨n, c, rfl⟩ <;> simp only [hostCompletion, hk, hlen, if_false]

/-- A completion for a mover or a ring goes to its line or its fetch. -/
theorem hostCompletion_mover (hk : s.hostOut[k]? = some (.read ad words port tag who)) (hl : ok = true → data.length = words)
    (hw : (∃ j, who = .mover j) ∨ ∃ n, who = .record n) :
    hostCompletion k ok data s = moverAnswer who (if ok then Code.ok else Code.hostErr) (if ok then data else [])
      { s with hostOut := dropAt s.hostOut k } := by
  have hlen : ¬(ok = true ∧ data.length ≠ words) := fun h => h.2 (hl h.1)
  rcases hw with ⟨j, rfl⟩ | ⟨n, rfl⟩ <;> simp only [hostCompletion, hk, hlen, if_false]

end

section
variable {s : State} {sec tag status : Nat} {data : List W64}

/-- A fabric answer that matches no waiting request is counted. -/
theorem fabricAnswer_none (h : (s.spine.inbound.find? fun i => i.sector == sec && i.tag == tag && i.wants) = none) :
    fabricAnswer sec tag status data s = s.bump Fld.stwSportCntDiscard sec := by
  simp only [fabricAnswer, h]

/-- A fabric answer for a mover goes to its line. -/
theorem fabricAnswer_mover {i : Inb} {j : Nat}
    (h : (s.spine.inbound.find? fun i => i.sector == sec && i.tag == tag && i.wants) = some i) (ha : i.asker = .mover j) :
    fabricAnswer sec tag status data s =
      moverAnswer i.asker status data { s with spine := { s.spine with inbound := s.spine.inbound.erase i } } := by
  simp only [fabricAnswer, h, ha]

/-- A fabric answer for a context is set out as its response. -/
theorem fabricAnswer_context {i : Inb} {n c : Nat}
    (h : (s.spine.inbound.find? fun i => i.sector == sec && i.tag == tag && i.wants) = some i) (ha : i.asker = .context n c) :
    fabricAnswer sec tag status data s =
      ({ s with spine := { s.spine with inbound := s.spine.inbound.erase i } } : State).putRsp
        ⟨i.port, i.mtag, status, data != [], data, i.asker⟩ := by
  simp only [fabricAnswer, h, ha]

variable {k : Nat} {r : Rsp}

/-- A response on its way to a mover reaches it. -/
theorem moverRespond_mover {j : Nat} (hk : s.rsps[k]? = some r) (ha : r.asker = .mover j) :
    moverRespond k s = moverAnswer r.asker r.status r.data { s with rsps := dropAt s.rsps k } := by
  simp only [moverRespond, hk, ha]

/-- A response no one wants is dropped. -/
theorem moverRespond_none (hk : s.rsps[k]? = some r) (ha : r.asker = .none) :
    moverRespond k s = { s with rsps := dropAt s.rsps k } := by
  simp only [moverRespond, hk, ha]

end

/-! ### The contact sheet (R446) -/

/-- The SHEET descriptors that wait take the sheet's words. -/
def takeSheets (s : State) : State :=
  (upFrom 0 64).foldl (fun t n => if (t.job n).on && (t.job n).op n == 9 && (t.job n).done == 0 && (t.job n).acc == [] &&
    !(t.job n).put then t.setJob n { t.job n with acc := sheetWords 0 s } else t) s

/-- A capture at an update instant of a device that is awake: the waiting descriptors first, then the sheet that is due. -/
theorem sheetCapture_instant {s : State} (hdt : s.dt.toNat % 250 = 0) (ha : s.asleep = false) :
    sheetCapture s = if (takeSheets s).sheetDue then intervalSheet (takeSheets s) else takeSheets s :=
  if_neg (by simp [hdt, ha])

/-- Has the last interval sheet not all been issued? -/
def State.sheetBusy (s : State) : Bool :=
  s.trans.any (fun t => t.asker == Asker.sheet)
    || s.wtu.walks.any fun w => match w.who with | .trans t => t.asker == Asker.sheet | _ => false

/-- A sheet that is due while the last is not all issued is skipped. -/
theorem intervalSheet_skipped {s : State} (h : s.sheetBusy = true) :
    intervalSheet s = (s.bump Fld.rngSheetStatSkipped).notice Code.sheetSkipped 0 := if_pos h

/-- A sheet that is due is counted and posted. -/
theorem intervalSheet_posts {s : State} (h : s.sheetBusy = false) : intervalSheet s = (
    let seq := (s.fld Fld.rngSheetStatSeq + 1) % 2 ^ 32
    let t := s.setFld Fld.rngSheetStatSeq seq
    postSheet (t.fld Fld.rngSheetBaseAsid) (t.fld Fld.rngSheetBaseAddr + 0x1000 * (seq % 2)) 54 (sheetWords seq t) t) :=
  if_neg (show ¬s.sheetBusy = true by rw [h]; decide)

/-- What a capture leaves after the waiting descriptors have taken their words. -/
theorem capture_cases {u : State} {o : Out} (h : o = .next (if u.sheetDue then intervalSheet u else u)) :
    (u.sheetDue = false → o = .next u) ∧
    (u.sheetDue = true → u.sheetBusy = true → o = .next ((u.bump Fld.rngSheetStatSkipped).notice Code.sheetSkipped 0)) ∧
    (u.sheetDue = true → u.sheetBusy = false → o = .next (
      let seq := (u.fld Fld.rngSheetStatSeq + 1) % 2 ^ 32
      let t := u.setFld Fld.rngSheetStatSeq seq
      postSheet (t.fld Fld.rngSheetBaseAsid) (t.fld Fld.rngSheetBaseAddr + 0x1000 * (seq % 2)) 54 (sheetWords seq t) t)) := by
  refine ⟨fun hd => ?_, fun hd hb => ?_, fun hd hb => ?_⟩
  · rw [h, if_neg (by rw [hd]; decide)]
  · rw [h, if_pos hd, intervalSheet_skipped hb]
  · rw [h, if_pos hd, intervalSheet_posts hb]

/-- Settles O42. -/
theorem moversReadAnswersAndSheets : Obligations.MoversReadAnswersAndSheets := by
  refine ⟨fun s n lost ho hgo => ?_, fun s k ok data ad words port tag who hk hl => ?_, fun s k sec tag status data hfz => ?_,
    fun s k sec tag status data r hk => ⟨fun ⟨j, ha⟩ => ?_, fun ha => ?_⟩, fun s hdt ha => ?_⟩
  · intro i k m va x hidx hf hrec hroom
    refine ⟨fun a hx hup hrt => ?_, fun a hx hup => ?_, fun code hx => ?_⟩
    · exact congrArg Host.Outcome.next (descFetch_host ho hgo hidx hf hrec hroom hx hup hrt)
    · exact congrArg Host.Outcome.next (descFetch_linkDown ho hgo hidx hf hrec hroom hx hup)
    · exact congrArg Host.Outcome.next (descFetch_fault ho hgo hidx hf hrec hroom hx)
  · exact ⟨fun hw => congrArg Host.Outcome.next (hostCompletion_response hk hl hw),
      fun hw => congrArg Host.Outcome.next (hostCompletion_mover hk hl hw)⟩
  · have hexec : exec (.spineResponse true k sec tag status data) s =
        .next (fabricAnswer sec tag.toNat status.toNat (data.take 8) s) := by
      rw [exec_spineResponse, execSpineResponse, if_pos rfl, hfz]
      rfl
    rw [hexec]
    refine ⟨fun hw => ?_, fun i hw => ⟨fun ⟨j, ha⟩ => ?_, fun ⟨n, c, ha⟩ => ?_⟩⟩
    · rw [fabricAnswer_none hw]
    · rw [fabricAnswer_mover hw ha]
    · rw [fabricAnswer_context hw ha]
  · exact congrArg Host.Outcome.next (moverRespond_mover hk ha)
  · exact congrArg Host.Outcome.next (moverRespond_none hk ha)
  · have hcap : exec .sheetCapture s =
        .next (if (takeSheets s).sheetDue then intervalSheet (takeSheets s) else takeSheets s) := by
      rw [exec_sheetCapture, execSheetCapture, sheetCapture_instant hdt ha]
    exact capture_cases hcap

end Sys2Proof.Machine

/-! PROOFS about rings as the host drives them (10_host_link_and_rings): doorbells, vectors, the link's events, enabling, stopping
and settings. -/

namespace Sys2Proof.Machine

/-! ### Doorbells and vectors (R429, R430, R445) -/

section
variable {s : State} {n : Nat} {v : W32} {merged : Bool}

/-- The state in which a doorbell is judged: a merge is counted first. -/
def merge (n : Nat) (merged : Bool) (s : State) : State := if merged then s.bump Fld.rngCntDbMerged n else s

/-- A write that is not the doorbell's four bytes is an access error. -/
theorem doorbell_other {off : Nat} {full : Bool} (h : off ≠ 0 ∨ full = false) :
    doorbell n off full v merged s = s.accessError :=
  if_pos (by simpa using h)

/-- An index within the ring moves HOST_IDX. -/
theorem doorbell_moves (h : bitsW v 0 16 < (merge n merged s).ringSize n) : doorbell n 0 true v merged s = (
    let t := (merge n merged s).setFld Fld.rngIdxHostIdx (bitsW v 0 16) n
    if t.ringOpen n 1 then ringRoom n t else t) :=
  if_neg fun hb => absurd hb.1 (Nat.not_le.mpr h)

/-- An index beyond the ring stops a running or stalled one. -/
theorem doorbell_range (h : (merge n merged s).ringSize n ≤ bitsW v 0 16)
    (hst : s.fld Fld.rngStatState n = 1 ∨ s.fld Fld.rngStatState n = 4) :
    doorbell n 0 true v merged s = ringError n Code.dbRange (merge n merged s) :=
  if_pos ⟨h, hst⟩

end

/-! ### A function level reset (R419) -/

/-- The register at an address holds its cold value. -/
def State.ColdAt (s : State) (a : Nat) : Prop := Tab.get 0 s.regs a = 0

section
variable {s : State}

/-- A register whose address is cold reads its cold value. -/
theorem State.ColdAt.reg {r : Reg} {i j : Nat} (h : s.ColdAt (r.addr i j)) : s.reg r i j = r.coldAt i := by
  rw [State.reg, h]
  exact BitVec.zero_xor

/-- What is cold is so in every state with the same registers. -/
theorem State.ColdAt.of_regs {t : State} {a : Nat} (h : s.ColdAt a) (hr : t.regs = s.regs) : t.ColdAt a := by
  rw [State.ColdAt, hr]
  exact h

/-- What is cold stays so where a range goes cold. -/
theorem State.ColdAt.coldRange {a : Nat} (h : s.ColdAt a) (lo hi : Nat) : (s.coldRange lo hi).ColdAt a := by
  have hget := Laws.Tab_get_filter (0 : W64) (fun k => k < lo || hi ≤ k) a s.regs
  refine hget.trans ?_
  rw [h]
  split <;> rfl

/-- A range gone cold is cold. -/
theorem State.coldAt_coldRange {a lo hi : Nat} (h1 : lo ≤ a) (h2 : a < hi) (s : State) : (s.coldRange lo hi).ColdAt a := by
  have hget := Laws.Tab_get_filter (0 : W64) (fun k => k < lo || hi ≤ k) a s.regs
  refine hget.trans (if_neg ?_)
  simp only [Bool.or_eq_true, decide_eq_true_eq]
  omega

/-- What is cold stays so under a write of another register. -/
theorem State.ColdAt.setReg {a : Nat} (h : s.ColdAt a) {r : Reg} {i j : Nat} (hne : a ≠ r.addr i j) (v : W64) :
    (s.setReg r v i j).ColdAt a :=
  (Tab.get_set_ne _ _ hne _).trans h

/-- After a function level reset the rings' registers and the MSI-X table are cold, RNG_LINK apart. -/
theorem functionReset_coldAt {a : Nat} (h : (0x110000 ≤ a ∧ a < 0x112400) ∨ (0x118000 ≤ a ∧ a < 0x119020))
    (hl : a ≠ Reg.rngLink.addr 0 0) : (functionReset s).ColdAt a := by
  unfold functionReset
  extract_lets link u1 u2 u3 u4 u5
  have h3 : u3.ColdAt a := by
    rcases h with ⟨h1, h2⟩ | ⟨h1, h2⟩
    · exact (State.coldAt_coldRange h1 h2 _).coldRange _ _
    · exact State.coldAt_coldRange h1 h2 _
  have h4 : u4.ColdAt a := h3.coldRange _ _
  clear_value u4
  have h5 : u5.ColdAt a := h4.of_regs rfl
  exact h5.setReg hl _

/-- It leaves no hidden part of a ring. -/
theorem functionReset_rings : (functionReset s).rings = [] := by
  unfold functionReset
  extract_lets link u1 u2 u3 u4 u5
  exact State.setReg_rings u5 _ _ _ _

/-- A register of a ring's block reads its cold value after a function level reset. -/
theorem functionReset_reg {r : Reg} {k n : Nat} (hb : r.base = 0x110000 + k) (hs : r.stride = 0x40) (hk : k < 0x40)
    (hn : n < 64) : (functionReset s).reg r n = r.coldAt n := by
  have haddr : r.addr n 0 = 0x110000 + k + n * 0x40 := by rw [Reg.addr, hb, hs, Nat.zero_mul, Nat.add_zero]
  refine (functionReset_coldAt (.inl ?_) ?_).reg
  · omega
  · simp only [Reg.addr, Reg.rngLink] at haddr ⊢
    omega

/-- A register of the MSI-X table reads its cold value after a function level reset. -/
theorem functionReset_msix {r : Reg} {k v : Nat} (hb : r.base = 0x118000 + k) (hs : r.stride = 0x10) (hk : k < 0x10)
    (hv : v < 256) : (functionReset s).reg r v = r.coldAt v := by
  have haddr : r.addr v 0 = 0x118000 + k + v * 0x10 := by rw [Reg.addr, hb, hs, Nat.zero_mul, Nat.add_zero]
  refine (functionReset_coldAt (.inr ?_) ?_).reg
  · omega
  · simp only [Reg.addr, Reg.rngLink] at haddr ⊢
    omega

end

/-- A vector's moderation time is over: what was counted is signalled. -/
theorem vectorTimer_raises {s : State} {n : Nat} (ht : s.fld Fld.rngModTime n ≠ 0) (hc : (s.ring n).modCount ≠ 0)
    (hn : (s.ring n).modAt + s.fld Fld.rngModTime n * 80000 ≤ s.now) :
    vectorTimer n s = (s.setRing n { s.ring n with modCount := 0 }).raiseVector (s.fld Fld.rngCfgVec n) :=
  if_neg (by omega)

/-- Settles O43. -/
theorem doorbellsVectorsAndLinkEventsAct : Obligations.DoorbellsVectorsAndLinkEventsAct := by
  refine ⟨fun s n off full v merged => ?_, fun s n ht hc hn => ?_, fun s => ⟨fun hup => ?_, fun rate width => rfl, rfl, ?_⟩⟩
  · intro u i t
    refine ⟨fun h => ?_, fun h => ?_, fun h hst => ?_⟩
    · have hoff : off.val ≠ 0 ∨ full = false := h.imp_left fun hne h0 => hne (Fin.ext h0)
      exact congrArg Host.Outcome.next (doorbell_other hoff)
    · exact congrArg Host.Outcome.next (doorbell_moves h)
    · exact congrArg Host.Outcome.next (doorbell_range h hst)
  · exact congrArg Host.Outcome.next (vectorTimer_raises ht hc hn)
  · exact congrArg Host.Outcome.next (if_pos hup)
  · refine ⟨functionReset s, rfl, functionReset_rings, fun n => ⟨?_, ?_, ?_, ?_, ?_, ?_⟩, fun v => ⟨?_, ?_⟩⟩
    · exact functionReset_reg (k := 0x8) rfl rfl (by decide) n.isLt
    · exact functionReset_reg (k := 0x10) rfl rfl (by decide) n.isLt
    · exact functionReset_reg (k := 0x14) rfl rfl (by decide) n.isLt
    · exact functionReset_reg (k := 0x18) rfl rfl (by decide) n.isLt
    · exact functionReset_reg (k := 0x0) rfl rfl (by decide) n.isLt
    · exact functionReset_reg (k := 0xC) rfl rfl (by decide) n.isLt
    · have hmask : (functionReset s).reg Reg.msixCtrl v = Reg.msixCtrl.coldAt v :=
        functionReset_msix (k := 0xC) rfl rfl (by decide) v.isLt
      have hcold : Reg.msixCtrl.coldAt v = 1 := rfl
      rw [State.flag, State.fld, Fld.msixCtrlMask, hmask, hcold]
      rfl
    · exact functionReset_msix (k := 0x0) rfl rfl (by decide) v.isLt

/-! ### Starting and stopping (R438 to R441) -/

section
variable {s : State} {n : Nat}

/-- EN = 1 starts a ring that is OFF or in ERROR. -/
theorem ringEnable_starts (h : (s.setFlag Fld.rngCtlEn true n).fld Fld.rngStatState n = 0 ∨
    (s.setFlag Fld.rngCtlEn true n).fld Fld.rngStatState n = 5) : ringEnable n s = ringStart n (s.setFlag Fld.rngCtlEn true n) := by
  rcases h with h | h <;> simp only [ringEnable, h]

/-- EN = 1 on a stopping ring is latched. -/
theorem ringEnable_stopping (h : (s.setFlag Fld.rngCtlEn true n).fld Fld.rngStatState n = 2) :
    ringEnable n s = (s.setFlag Fld.rngCtlEn true n).setFld Fld.rngStatState 3 n := by
  simp only [ringEnable, h]

/-- EN = 0 changes nothing else of a ring that is OFF and is no completion ring. -/
theorem ringDisable_off (h : (s.setFlag Fld.rngCtlEn false n).fld Fld.rngStatState n = 0)
    (ht : (s.setFlag Fld.rngCtlEn false n).fld Fld.rngCfgType n ≠ 1) : ringDisable n s = s.setFlag Fld.rngCtlEn false n := by
  simp only [ringDisable, h, ht, if_true, if_false]

/-- EN = 0 begins the stop of any other ring that is no completion ring. -/
theorem ringDisable_stops (h : (s.setFlag Fld.rngCtlEn false n).fld Fld.rngStatState n ≠ 0)
    (ht : ((s.setFlag Fld.rngCtlEn false n).setFld Fld.rngStatState 2 n).fld Fld.rngCfgType n ≠ 1) :
    ringDisable n s = (s.setFlag Fld.rngCtlEn false n).setFld Fld.rngStatState 2 n := by
  simp only [ringDisable, h, ht, if_false]

/-- A ring without fetched descriptors has none to cancel. -/
theorem cancelFetched_empty (h : (s.ring n).fetched = []) (k : Nat) : cancelFetched n k s = s := by
  cases k with
  | zero => rfl
  | succ k => simp only [cancelFetched, h]

/-- A stopping ring with nothing under way is OFF, and one with a latched start restarts. -/
theorem ringStopDone_quiet (hst : s.fld Fld.rngStatState n = 2 ∨ s.fld Fld.rngStatState n = 3) (hf : (s.ring n).fetching = false)
    (hr : (s.ring n).record = none) (hq : (s.ring n).fetched = []) (hj : (s.job n).on = false) :
    ringStopDone n s = if s.fld Fld.rngStatState n = 3 then ringStart n (s.setFld Fld.rngStatState 0 n)
      else s.setFld Fld.rngStatState 0 n := by
  simp [ringStopDone, hst, hf, hr, hj, cancelFetched_empty hq, hq]

end

/-! ### Settings (R446, R449, R457, R458) -/

section
variable {s : State} {w : Writer} {n : Nat}

/-- A ring's register written by another than its owner is refused and recorded. -/
theorem State.ringOwned_other (ho : s.ownerCode w ≠ s.fld Fld.rngOwnOwner n) (f : State → State) :
    s.ringOwned w n f = (s.deny Code.notOwner (s.ownerCode w) 3 n).refuse Reg.rngRefuse Code.notOwner n := if_neg ho

/-- A ring's register written by its owner. -/
theorem next_ringOwned (hp : s.priv w ≠ 0) (ho : s.ownerCode w = s.fld Fld.rngOwnOwner n) {off : Nat} {f : State → State} {t : State}
    (hf : f s = t) :
    (.next (s.linked w off fun s => s.ringOwned w n f) : Out) = .next t := by
  rw [Laws.owned hp ho, hf]

/-- The value of RNG_CFG that a write leaves. -/
def ringCfgNew (n : Nat) (v : W32) (s : State) : W64 := Reg.rngCfg.plain (s.reg Reg.rngCfg n) (v.setWidth 64) false

/-- A value of RNG_CFG that is allowed: TYPE below 3, SIZE from 4 to 16. -/
def RingCfgLegal (new : W64) : Prop := bitsW new 0 2 ≠ 3 ∧ 4 ≤ bitsW new 3 5 ∧ bitsW new 3 5 ≤ 16

/-- An illegal value of RNG_CFG is refused. -/
theorem ringCfgWrite_bad {v : W32} (h : ¬RingCfgLegal (ringCfgNew n v s)) :
    ringCfgWrite n v s = s.refuse Reg.rngRefuse Code.ringBadCfg n :=
  if_pos (by unfold RingCfgLegal ringCfgNew at h; omega)

/-- A legal value of RNG_CFG is taken while the ring is OFF. -/
theorem ringCfgWrite_off {v : W32} (h : RingCfgLegal (ringCfgNew n v s)) (hst : s.fld Fld.rngStatState n = 0) :
    ringCfgWrite n v s = s.setReg Reg.rngCfg (ringCfgNew n v s) n :=
  (if_neg (by unfold RingCfgLegal ringCfgNew at h; omega)).trans (if_neg (by simp [State.ringOff, hst]))

/-- A changed locked field of RNG_CFG is refused unless the ring is OFF. -/
theorem ringCfgWrite_busy {v : W32} (h : RingCfgLegal (ringCfgNew n v s)) (hst : s.fld Fld.rngStatState n ≠ 0)
    (hne : s.reg Reg.rngCfg n &&& ~~~(maskW 20 8) ≠ ringCfgNew n v s &&& ~~~(maskW 20 8)) :
    ringCfgWrite n v s = s.refuse Reg.rngRefuse Code.ringBusy n :=
  (if_neg (by unfold RingCfgLegal ringCfgNew at h; omega)).trans (if_pos ⟨by simp [State.ringOff, hst], hne⟩)

/-- An aligned base is taken while the ring is OFF. -/
theorem ringBaseWrite_off {v : W64} (h : bitsW (Reg.rngBase.plain (s.reg Reg.rngBase n) v false) 0 6 = 0)
    (hst : s.fld Fld.rngStatState n = 0) :
    ringBaseWrite n v s = s.setReg Reg.rngBase (Reg.rngBase.plain (s.reg Reg.rngBase n) v false) n :=
  (if_neg (Classical.not_not.2 h)).trans (if_neg (by simp [State.ringOff, hst]))

/-- An owner code that no ring may have is refused. -/
theorem ringOwnWrite_bad {v : W32} (hw : s.priv w = 2)
    (h : 1 < bitsW (Reg.rngOwn.plain (s.reg Reg.rngOwn n) (v.setWidth 64) true) 0 8) :
    ringOwnWrite w n v s = (s.deny Code.ownerBad 0 3 n).refuse Reg.rngRefuse Code.ownerBad n := by
  rw [ringOwnWrite, State.wardenOr_of_warden (State.warden_iff.2 hw), State.ownerCode_of_warden hw]
  exact if_pos h

/-- A legal owner is taken while the ring is OFF. -/
theorem ringOwnWrite_off {v : W32} (hw : s.priv w = 2)
    (h : bitsW (Reg.rngOwn.plain (s.reg Reg.rngOwn n) (v.setWidth 64) true) 0 8 ≤ 1)
    (h3 : bitsW (Reg.rngOwn.plain (s.reg Reg.rngOwn n) (v.setWidth 64) true) 16 2 ≠ 3) (hst : s.fld Fld.rngStatState n = 0) :
    ringOwnWrite w n v s = s.setReg Reg.rngOwn (Reg.rngOwn.plain (s.reg Reg.rngOwn n) (v.setWidth 64) true) n := by
  rw [ringOwnWrite, State.wardenOr_of_warden (State.warden_iff.2 hw)]
  exact (if_neg (Nat.not_lt.mpr h)).trans ((if_neg h3).trans (if_neg (by simp [State.ringOff, hst])))

/-- An interval outside its range is refused. -/
theorem sheetCfgWrite_bad {v : W32} (h : bitsW (Reg.rngSheetCfg.plain (s.reg Reg.rngSheetCfg) (v.setWidth 64) false) 0 20 < 10 ∨
    1000000 < bitsW (Reg.rngSheetCfg.plain (s.reg Reg.rngSheetCfg) (v.setWidth 64) false) 0 20) :
    sheetCfgWrite v s = s.refuse Reg.rngRefuse Code.ringBadCfg 0 := if_pos h

/-- The sheet's settings with an interval in its range are taken; a newly set EN restarts the counts. -/
theorem sheetCfgWrite_takes {v : W32} (h1 : 10 ≤ bitsW (Reg.rngSheetCfg.plain (s.reg Reg.rngSheetCfg) (v.setWidth 64) false) 0 20)
    (h2 : bitsW (Reg.rngSheetCfg.plain (s.reg Reg.rngSheetCfg) (v.setWidth 64) false) 0 20 ≤ 1000000) :
    sheetCfgWrite v s = (if bitsW (Reg.rngSheetCfg.plain (s.reg Reg.rngSheetCfg) (v.setWidth 64) false) 20 1 = 1 ∧
      s.flag Fld.rngSheetCfgEn = false then s.setReg Reg.rngSheetStat 0 else s).setReg Reg.rngSheetCfg
        (Reg.rngSheetCfg.plain (s.reg Reg.rngSheetCfg) (v.setWidth 64) false) := by
  refine (if_neg (by omega)).trans ?_
  simp only [Bool.not_eq_true']

end

/-- Settles O44. -/
theorem ringsStartStopAndTakeSettings : Obligations.RingsStartStopAndTakeSettings := by
  refine ⟨fun s w n hp ho => ?_, fun s n hf hr hq hj => ⟨fun hst => ?_, fun hst => ?_⟩, fun s w n v hp => ?_,
    fun s w n v hw => ?_, fun s w v hp => ?_⟩
  · intro on off
    refine ⟨fun h => ?_, fun h => ?_, fun h ht => ?_, fun h ht => ?_, fun h => ⟨?_, ?_⟩, fun h => ⟨?_, ?_⟩, ?_⟩
    · exact next_ringOwned hp ho (ringEnable_starts h)
    · exact next_ringOwned hp ho (ringEnable_stopping h)
    · exact next_ringOwned hp ho (ringDisable_off h ht)
    · exact next_ringOwned hp ho (ringDisable_stops h ht)
    · exact next_ringOwned hp ho (if_pos h)
    · exact next_ringOwned hp ho (if_pos h)
    · exact next_ringOwned hp ho (if_neg h)
    · exact next_ringOwned hp ho (if_neg h)
    · exact next_ringOwned hp ho rfl
  · rw [exec_ringStopDone, execRingStopDone, ringStopDone_quiet (.inl hst) hf hr hq hj, if_neg (by rw [hst]; decide)]
  · rw [exec_ringStopDone, execRingStopDone, ringStopDone_quiet (.inr hst) hf hr hq hj, if_pos hst]
  · intro old new legal base
    refine ⟨fun ho b => ?_, fun ho => ⟨fun h => ?_, fun h hst => ?_, fun h hst hne => ?_, fun h hst => ?_⟩⟩
    · exact State.next_linked hp (State.ringOwned_other ho _)
    · exact next_ringOwned hp ho (ringCfgWrite_bad h)
    · exact next_ringOwned hp ho (ringCfgWrite_off h hst)
    · exact next_ringOwned hp ho (ringCfgWrite_busy h hst hne)
    · exact next_ringOwned hp ho (ringBaseWrite_off h hst)
  · have hp : s.priv w ≠ 0 := by rw [hw]; decide
    exact ⟨fun h => State.next_linked hp (ringOwnWrite_bad hw h),
      fun h h3 hst => State.next_linked hp (ringOwnWrite_off hw h h3 hst)⟩
  · exact ⟨fun h1 h2 => State.next_linked hp (sheetCfgWrite_takes h1 h2), fun h => State.next_linked hp (sheetCfgWrite_bad h)⟩

end Sys2Proof.Machine

/-! PROOFS about loads as they begin and as they are controlled (12_configuration): the leader's checks, LDR_CTL, configuration checks
and readback. -/

namespace Sys2Proof.Machine

variable {s : State} {w : Writer}

/-! ### The leader (R498) -/

section
variable (hst : (ldrRefill s).ldrState = 1) (hh : (ldrRefill s).loadHeld = false) (hl : 128 ≤ (ldrRefill s).ldr.raw.length)
include hst hh hl

/-- A whole leader of a loader that is not held is judged. -/
theorem leader_judged : leader s = (
    let u := ldrRefill s
    let l := u.ldr.raw.take 128
    if leaderRefusal l u = 0 then leaderAccepted l u else leaderRefused (leaderRefusal l u) l u) :=
  if_neg (by rw [hst, hh]; simp only [ne_eq, not_true, Bool.false_eq_true, false_or]; omega)

/-- A leader that no check refuses begins the body. -/
theorem leader_accepts (h : leaderRefusal ((ldrRefill s).ldr.raw.take 128) (ldrRefill s) = 0) :
    leader s = leaderAccepted ((ldrRefill s).ldr.raw.take 128) (ldrRefill s) :=
  (leader_judged hst hh hl).trans (if_pos h)

/-- A leader that a check refuses is refused with its code. -/
theorem leader_refuses {code : Nat} (h : leaderRefusal ((ldrRefill s).ldr.raw.take 128) (ldrRefill s) = code) (hc : code ≠ 0) :
    leader s = leaderRefused code ((ldrRefill s).ldr.raw.take 128) (ldrRefill s) := by
  subst h
  exact (leader_judged hst hh hl).trans (if_neg hc)

end

/-- The first check is on the leader's own form. -/
theorem leaderRefusal_form {l : List Byte} (h : leaderForm l = false) : leaderRefusal l s = Code.leaderBad :=
  if_pos (by rw [h]; rfl)

/-- The second is on the identity. -/
theorem leaderRefusal_identity {l : List Byte} (h : leaderForm l = true) (hi : leaderIdentity l s = false) :
    leaderRefusal l s = Code.idMismatch :=
  (if_neg (by rw [h]; decide)).trans (if_pos (by rw [hi]; rfl))

/-- A PARTIAL stream below the security version is refused; the source lock is not for it. -/
theorem leaderRefusal_svn {l : List Byte} (h : leaderForm l = true) (hi : leaderIdentity l s = true) (hc : leaderNum l 6 1 = 1)
    (hv : leaderNum l 16 2 < s.fld Fld.wtuSvnSvn) : leaderRefusal l s = Code.svnOld :=
  (if_neg (by rw [h]; decide)).trans ((if_neg (by rw [hi]; decide)).trans ((if_neg (by rw [hc]; simp)).trans (if_pos hv)))

/-! ### Control, checks and readback (R533 to R536) -/

/-- A bit of a loader's register that is the Warden's alone, written by the Warden. -/
theorem next_linked_wardenOr (hw : s.priv w = 2) {off off' : Nat} {f : State → State} {t : State} (hf : f s = t) :
    (.next (s.linked w off fun s => s.wardenOr w off' f) : Out) = .next t := by
  rw [State.linked_wardenOr hw, hf]

/-- Sectors that a failed PARTIAL load left held leave by the leader's steps. -/
theorem loadDiscard_leaves (hl : s.loading = false) (h0 : s.heldMask ≠ 0) (h1 : s.heldMask ≠ 2 ^ 80 - 1) :
    loadDiscard s = { s.setHeldMask 0 with
      ldr := { s.ldr with entered := maskSectors s.heldMask, steps := leaderSteps s.leaderBytes } } :=
  if_neg (by rw [hl]; simp only [Bool.false_eq_true, false_or]; omega)

/-- A check asked for during a load is refused. -/
theorem configCheck_refused (hc : s.ldr.check = false) (hl : (s.setFlag Fld.ldrCheckDone false).loading = true) :
    configCheck s = ((s.setFlag Fld.ldrCheckDone false).setFlag Fld.ldrCheckRefused true).setFlag Fld.ldrCheckDone true :=
  (if_neg (by rw [hc]; decide)).trans (if_pos hl)

/-- A check begins outside a load. -/
theorem configCheck_begins (hc : s.ldr.check = false) (hl : (s.setFlag Fld.ldrCheckDone false).loading = false) :
    configCheck s = (
      let u := ((s.setFlag Fld.ldrCheckDone false).setFlag Fld.ldrCheckRefused false).setFlag Fld.ldrCheckGo true
      { u with ldr := { u.ldr with check := true } }) :=
  (if_neg (by rw [hc]; decide)).trans (if_neg (by rw [hl]; decide))

section
variable (hw : s.priv w = 2) {v : W32}
include hw

/-- A write of LDR_RB_SEL without GO sets its fields. -/
theorem rbSelWrite_select (hg : bitsW v 31 1 = 0) :
    rbSelWrite w v s = s.setReg Reg.ldrRbSel (Reg.ldrRbSel.plain (s.reg Reg.ldrRbSel) (v.setWidth 64) true) := by
  simp only [rbSelWrite, State.warden_iff.2 hw, hg, Bool.not_true, Bool.false_eq_true, Nat.zero_ne_one, if_false]

/-- A write of LDR_RB_SEL with GO copies the frame it names. -/
theorem rbSelWrite_go (hg : bitsW v 31 1 = 1) : rbSelWrite w v s = readback
    ((s.setReg Reg.ldrRbSel (Reg.ldrRbSel.plain (s.reg Reg.ldrRbSel) (v.setWidth 64) true)).setFlag Fld.ldrRbSelDone false) := by
  rw [rbSelWrite, State.warden_iff.2 hw]
  exact if_pos hg

end

/-- A check's end outside a warm start's own check is the check's alone. -/
theorem configCheckDone_plain (hc : s.ldr.check = true) (h : s.ldr.bare = false ∨ s.ldrState ≠ 3) :
    configCheckDone s = checkDone s := by
  have hstart : (s.ldr.bare && s.ldrState == 3) = false := by
    rcases h with h | h
    · rw [h, Bool.false_and]
    · rw [beq_eq_false_iff_ne.2 h, Bool.and_false]
  simp only [configCheckDone, hc, hstart, Bool.not_true, Bool.not_false, Bool.false_eq_true, if_false, if_true]

/-- A warm start's check goes on to GATE, or loads an image. -/
theorem configCheckDone_start (hc : s.ldr.check = true) (hb : s.ldr.bare = true) (hst : s.ldrState = 3) :
    configCheckDone s =
      if (checkDone s).fld Fld.ldrCheckFails = 0 then gateWait (checkDone s) else checkLoads (checkDone s) := by
  simp only [configCheckDone, hc, hb, hst, Bool.not_true, Bool.false_eq_true, if_false, beq_self_eq_true, Bool.and_self]

/-- Settles O45. -/
theorem loaderControlsAct : Obligations.LoaderControlsAct := by
  refine ⟨fun s => ?_, fun s w hw => ⟨fun hl => ?_, fun hl => ?_, fun hl h0 h1 => ?_, fun hc => ?_, fun v => ?_⟩,
    fun s hc => ⟨fun h => ?_, fun hb hst => ?_⟩⟩
  · intro u l hst hh hl
    refine ⟨fun h => ?_, fun h => ?_, fun h => ?_, fun h hi => ?_, fun h hi hcls hv => ?_⟩
    · exact congrArg Host.Outcome.next (leader_accepts hst hh hl h)
    · exact congrArg Host.Outcome.next (leader_refuses hst hh hl rfl h)
    · exact congrArg Host.Outcome.next (leader_refuses hst hh hl (leaderRefusal_form h) (by decide))
    · exact congrArg Host.Outcome.next (leader_refuses hst hh hl (leaderRefusal_identity h hi) (by decide))
    · exact congrArg Host.Outcome.next (leader_refuses hst hh hl (leaderRefusal_svn h hi hcls hv) (by decide))
  · exact next_linked_wardenOr hw (if_pos hl)
  · exact next_linked_wardenOr hw (if_neg (by rw [hl]; decide))
  · exact next_linked_wardenOr hw (loadDiscard_leaves hl h0 h1)
  · intro t
    exact ⟨fun hl => next_linked_wardenOr hw (configCheck_refused hc hl),
      fun hl => next_linked_wardenOr hw (configCheck_begins hc hl)⟩
  · have hp : s.priv w ≠ 0 := by rw [hw]; decide
    exact ⟨fun hg => State.next_linked hp (rbSelWrite_select hw hg), fun hg => State.next_linked hp (rbSelWrite_go hw hg)⟩
  · exact congrArg Host.Outcome.next (configCheckDone_plain hc h)
  · exact congrArg Host.Outcome.next (configCheckDone_start hc hb hst)

end Sys2Proof.Machine

/-! PROOFS about a stream's body (12_configuration): records, segments, the trailer, and the start-up steps that follow. -/

namespace Sys2Proof.Machine

/-! ### Records (R502, R503) -/

/-- The header of the body's next record. -/
def State.header (u : State) : W64 := wordAt (wordsLE 1 u.body) 0

/-- The bytes left in the open section, or in the body. -/
def State.recordLeft (u : State) : Nat :=
  match u.ldr.sect with | some (l, _) => l | none => u.leaderField 32 8 - u.ldr.body

section
variable {s u : State} {ty : Nat} {form : W64 → State → Bool} {size : W64 → Nat} {apply : W64 → List Byte → State → Applied}
  (hu : ldrRefill s = u) (ha : u.mayApply = true) (he : u.ldr.ended = false) (hb : u.ldr.body < u.leaderField 32 8)
  (h8 : 8 ≤ u.body.length) (ht : bitsW u.header 0 8 = ty)
include hu ha he hb h8 ht

/-- Where records may be applied and the next one's header is of the type, it is judged, waited for, taken or applied. -/
theorem record_judged : record ty form size apply s =
    if bitsW u.header 8 8 ≠ 0 || !form u.header u || decide (u.recordLeft < 8 + size u.header) then badRecord u
    else if u.body.length < 8 + size u.header then u
    else if !u.recordMine then bodyTake (8 + size u.header) u
    else
      let a := apply u.header ((u.body.take (8 + size u.header)).drop 8) u
      if a.2.1 = 0 then bodyTake (8 + size u.header) a.1 else loadFails a.2.1 a.2.2 a.1 := by
  have hgo : (!u.mayApply || u.ldr.ended) = false := by rw [ha, he]; rfl
  have hhere : ¬(u.body.length < 8 ∨ bitsW u.header 0 8 ≠ ty) := by omega
  rw [record, hu]
  exact (if_neg (by rw [hgo]; decide)).trans ((if_neg (Nat.not_le.mpr hb)).trans (if_neg hhere))

/-- A record that breaks the rules of its form or length ends the load. -/
theorem record_bad (h : bitsW u.header 8 8 ≠ 0 ∨ form u.header u = false ∨ u.recordLeft < 8 + size u.header) :
    record ty form size apply s = badRecord u :=
  (record_judged hu ha he hb h8 ht).trans (if_pos (by simpa [or_assoc] using h))

variable (h0 : bitsW u.header 8 8 = 0) (hf : form u.header u = true) (hl : 8 + size u.header ≤ u.recordLeft)
  (hn : 8 + size u.header ≤ u.body.length)
include h0 hf hl hn

/-- A whole record of another device's section is only taken. -/
theorem record_other (hm : u.recordMine = false) : record ty form size apply s = bodyTake (8 + size u.header) u :=
  (record_judged hu ha he hb h8 ht).trans ((if_neg (by simp [h0, hf, hl])).trans ((if_neg (Nat.not_lt.mpr hn)).trans
    (if_pos (by rw [hm]; rfl))))

/-- A whole record of this device is applied and its bytes taken, or ends the load with its refusal. -/
theorem record_applies (hm : u.recordMine = true) : record ty form size apply s = (
    let a := apply u.header ((u.body.take (8 + size u.header)).drop 8) u
    if a.2.1 = 0 then bodyTake (8 + size u.header) a.1 else loadFails a.2.1 a.2.2 a.1) :=
  (record_judged hu ha he hb h8 ht).trans ((if_neg (by simp [h0, hf, hl])).trans ((if_neg (Nat.not_lt.mpr hn)).trans
    (if_neg (by rw [hm]; decide))))

end

section
variable {s u : State}

/-- A header of an undefined type ends the load. -/
theorem recordNop_undefined (hu : ldrRefill s = u) (ha : u.mayApply = true) (he : u.ldr.ended = false) (h8 : 8 ≤ u.body.length)
    (h : 6 < bitsW u.header 0 8) : recordNop s = badRecord u := by
  have hty : 6 < bitsW (wordAt (wordsLE 1 u.body) 0) 0 8 := h
  rw [recordNop, hu]
  exact if_pos (by simp only [ha, he, h8, hty, decide_true, Bool.not_false, Bool.and_self])

/-- A defined header goes by the row of NOP as by the others. -/
theorem recordNop_defined (hu : ldrRefill s = u) (h : bitsW u.header 0 8 ≤ 6) :
    recordNop s = record 0 (fun h _ => h == 0) (fun _ => 0) (fun _ _ s => (s, 0, 0)) s := by
  have hty : ¬6 < bitsW (wordAt (wordsLE 1 u.body) 0) 0 8 := Nat.not_lt.mpr h
  rw [recordNop, hu]
  exact if_neg (by rw [decide_eq_false hty, Bool.and_false]; decide)

end

/-! ### Sections and END (R510, R523) -/

section
variable {s u : State} (hu : ldrRefill s = u) (ha : u.mayApply = true) (he : u.ldr.ended = false)
  (hb : u.ldr.body < u.leaderField 32 8) (h8 : 8 ≤ u.body.length)

/-- Records are applied in BODY only. -/
theorem ldrState_of_mayApply (ha : u.mayApply = true) : u.ldrState = 2 := by
  simp only [State.mayApply, Bool.and_eq_true, beq_iff_eq] at ha
  obtain ⟨⟨⟨hst, -⟩, -⟩, -⟩ := ha
  exact hst

/-- Taking bytes of the body leaves the registers. -/
theorem bodyTake_regs (k : Nat) (s : State) : (bodyTake k s).regs = s.regs := by
  unfold bodyTake ldrEat
  dsimp only
  split <;> rfl

/-- Taking bytes of the body leaves LDR_STAT. -/
theorem ldrState_bodyTake (k : Nat) (s : State) : (bodyTake k s).ldrState = s.ldrState := by
  simp only [State.ldrState, State.fld, State.reg, bodyTake_regs]

/-- Taking bytes of the body leaves the leader. -/
theorem leaderField_bodyTake (k : Nat) (s : State) (a n : Nat) : (bodyTake k s).leaderField a n = s.leaderField a n := by
  simp only [State.leaderField, State.leaderBytes, State.reg, bodyTake_regs]

/-- The checks at END change nothing. -/
theorem endApply_state (u : State) : (endApply u).1 = u := by
  unfold endApply
  dsimp only
  split
  · rfl
  · split <;> rfl

/-- Without an open section the records are this device's. -/
theorem recordMine_of_none (h : u.ldr.sect = none) : u.recordMine = true := by rw [State.recordMine, h]

/-- Without an open section the rest of the body is left. -/
theorem recordLeft_of_none (h : u.ldr.sect = none) : u.recordLeft = u.leaderField 32 8 - u.ldr.body := by rw [State.recordLeft, h]

include hu ha he hb h8

/-- A SECTION opens its bytes. -/
theorem sectionOpen_opens (ht : bitsW u.header 0 8 = 5) (h0 : bitsW u.header 8 8 = 0) (hf : sectionForm u.header u = true) :
    sectionOpen s = (let t := bodyTake 8 u
      if bitsW u.header 24 40 = 0 then t
      else { t with ldr := { t.ldr with sect := some (bitsW u.header 24 40, bitsW u.header 16 4 == t.fld Fld.ldrChainIndex) } }) := by
  obtain ⟨hsect, hroom⟩ : u.ldr.sect = none ∧ u.ldr.body + 8 + bitsW u.header 24 40 ≤ u.leaderField 32 8 := by
    simp only [sectionForm, Bool.and_eq_true, decide_eq_true_eq, Option.isNone_iff_eq_none] at hf
    exact ⟨hf.1.1.1.2, hf.2⟩
  have hleft := recordLeft_of_none hsect
  have hrec : record 5 sectionForm (fun _ => 0) (fun _ _ s => (s, 0, 0)) s = bodyTake 8 u :=
    record_applies hu ha he hb h8 ht h0 hf (by omega) h8 (recordMine_of_none hsect)
  have hst : (bodyTake 8 u).ldrState = 2 := (ldrState_bodyTake 8 u).trans (ldrState_of_mayApply ha)
  rw [sectionOpen, hu, hrec]
  by_cases hl : bitsW u.header 24 40 = 0
  · exact (if_neg fun h => h.2.2 hl).trans (if_pos hl).symm
  · exact (if_pos ⟨hst, Laws.bodyTake_body 8 u, hl⟩).trans (if_neg hl).symm

/-- END's record, applied: the stream's last checks judge it. -/
theorem record_end (ht : bitsW u.header 0 8 = 6) (hf : endForm u.header u = true) :
    record 6 endForm (fun _ => 0) (fun _ _ s => endApply s) s =
      if (endApply u).2.1 = 0 then bodyTake 8 u else loadFails (endApply u).2.1 (endApply u).2.2 u := by
  obtain ⟨⟨hh, hsect⟩, hroom⟩ : (u.header = 6 ∧ u.ldr.sect = none) ∧ u.ldr.body + 8 = u.leaderField 32 8 := by
    simpa only [endForm, Bool.and_eq_true, beq_iff_eq, Option.isNone_iff_eq_none] using hf
  have hleft := recordLeft_of_none hsect
  have hrec := record_applies (apply := fun _ _ s => endApply s) hu ha he hb h8 ht (by rw [hh]; decide) hf
    (size := fun _ => 0) (by omega) h8 (recordMine_of_none hsect)
  simpa only [endApply_state] using hrec

/-- END runs the stream's last checks and ends the body. -/
theorem endRecord_ends (ht : bitsW u.header 0 8 = 6) (hf : endForm u.header u = true) (hc : (endApply u).2.1 = 0) :
    endRecord s = (let t := (bodyTake 8 u).setLdrState 3
      { t with ldr := { t.ldr with ended := true } }) := by
  have hroom : u.ldr.body + 8 = u.leaderField 32 8 := by
    simp only [endForm, Bool.and_eq_true, beq_iff_eq] at hf
    exact hf.2
  have hbody : s.ldr.body = u.ldr.body := by rw [← hu, Laws.ldrRefill_body]
  rw [endRecord, record_end hu ha he hb h8 ht hf, if_pos hc]
  refine if_pos ⟨(ldrState_bodyTake 8 u).trans (ldrState_of_mayApply ha), ?_, ?_⟩
  · rw [Laws.bodyTake_body, leaderField_bodyTake, hroom]
  · rw [Laws.bodyTake_body, hbody]
    omega

/-- A stream that its last checks refuse ends its load. -/
theorem endRecord_fails (ht : bitsW u.header 0 8 = 6) (hf : endForm u.header u = true) (hc : (endApply u).2.1 ≠ 0)
    (hst : (loadFails (endApply u).2.1 (endApply u).2.2 u).ldrState ≠ 2) :
    endRecord s = loadFails (endApply u).2.1 (endApply u).2.2 u := by
  rw [endRecord, record_end hu ha he hb h8 ht hf, if_neg hc]
  exact if_neg fun h => hst h.1

end

/-! ### Segments and the trailer (R506, R514, R515) -/

section
variable {s u : State} (hu : ldrRefill s = u) (hh : u.loadHeld = false)
include hu hh

/-- A whole encrypted segment is decrypted and passed on if its tag holds; else the load ends. -/
theorem segmentTag_whole {n : Nat} (hn : n = min 262144 (u.leaderField 32 8 - 262144 * u.ldr.seg)) (hst : u.ldrState = 2)
    (henc : u.ldrEnc = true) (h0 : n ≠ 0) (hl : n + 16 ≤ u.ldr.raw.length) : segmentTag s = (
      let i := u.ldr.seg
      let key := if i = 0 then u.streamKey else nextKey u.ldr.key i
      let aad := (if i = 0 then u.leaderBytes else []) ++ bytesLE 4 i ++ (u.leaderBytes.drop 20).take 4
      let o := gcmOpen key (segmentIv ((u.leaderBytes.drop 40).take 12) i) aad (u.ldr.raw.take n) ((u.ldr.raw.drop n).take 16)
      if o.2 then
        let t := ldrEat (n + 16) u
        { t with ldr := { t.ldr with plain := t.ldr.plain ++ o.1, seg := i + 1, key := key } }
      else loadFails Code.tagFail 0 u) := by
  have hgo : (u.ldrState ≠ 2 || !u.ldrEnc || u.loadHeld || n == 0 || decide (u.ldr.raw.length < n + 16)) = false := by
    simp [hst, henc, hh, h0, hl]
  subst hn
  rw [segmentTag, hu]
  exact if_neg (by rw [hgo]; decide)

section
variable (hst : u.ldrState = 3) (hbare : u.ldr.bare = false) (hl : 8 ≤ u.ldr.raw.length)
include hst hbare hl

/-- A whole trailer is judged. -/
theorem trailer_judged : trailer s = (
    let w := wordAt (wordsLE 1 u.ldr.raw) 0
    if bitsW w 0 32 ≠ crcEnd u.ldr.crc ∨ bitsW w 32 32 ≠ 0xC0F16E0D then loadFails Code.crcFail 0 u
    else
      let t := { u with ldr := { u.ldr with raw := u.ldr.raw.drop 8 } }
      let t := forwardEnd (t.setFlag Fld.arcSlotLoading false t.ldr.slot)
      if t.ldrPartial then exitBegins t else gateWait t) := by
  have hgo : (u.ldrState ≠ 3 || u.ldr.bare || u.loadHeld || decide (u.ldr.raw.length < 8)) = false := by
    simp [hst, hbare, hh, hl]
  rw [trailer, hu]
  exact if_neg (by rw [hgo]; decide)

end
end

/-- Settles O46. -/
theorem recordsOfAStreamAct : Obligations.RecordsOfAStreamAct := by
  refine ⟨fun s => ?_, fun s => ?_, fun s => ?_⟩
  · intro u h left ha he hb h8
    refine ⟨fun h6 => ?_, fun r hr ht => ?_, fun ht h0 hf => ?_, fun ht hf => ⟨fun hc => ?_, fun hc hst => ?_⟩⟩
    · exact congrArg Host.Outcome.next (recordNop_undefined rfl ha he h8 h6)
    · have hexec : exec r.1 s = .next (record r.2.1 r.2.2.1 r.2.2.2.1 r.2.2.2.2 s) := by
        simp only [List.mem_cons, List.not_mem_nil, or_false] at hr
        rcases hr with rfl | rfl | rfl | rfl | rfl
        · exact congrArg Host.Outcome.next (recordNop_defined rfl (Nat.le_trans (Nat.le_of_eq ht) (Nat.zero_le 6)))
        · rfl
        · rfl
        · rfl
        · rfl
      intro n
      rw [hexec]
      refine ⟨fun hbad => ?_, fun h0 hf hl hn => ⟨fun hm => ?_, fun hm => ?_⟩⟩
      · exact congrArg Host.Outcome.next (record_bad rfl ha he hb h8 ht hbad)
      · exact congrArg Host.Outcome.next (record_other rfl ha he hb h8 ht h0 hf hl hn hm)
      · exact congrArg Host.Outcome.next (record_applies rfl ha he hb h8 ht h0 hf hl hn hm)
    · exact congrArg Host.Outcome.next (sectionOpen_opens rfl ha he hb h8 ht h0 hf)
    · exact congrArg Host.Outcome.next (endRecord_ends rfl ha he hb h8 ht hf hc)
    · exact congrArg Host.Outcome.next (endRecord_fails rfl ha he hb h8 ht hf hc hst)
  · intro u i n hst henc hh h0 hl key aad o
    exact congrArg Host.Outcome.next (segmentTag_whole rfl hh rfl hst henc h0 hl)
  · intro u w hst hbare hh hl
    have hjudged := trailer_judged (s := s) rfl hh hst hbare hl
    refine ⟨fun hbad => ?_, fun hcrc hmark => ?_⟩
    · exact congrArg Host.Outcome.next (hjudged.trans (if_pos hbad))
    · exact congrArg Host.Outcome.next (hjudged.trans (if_neg fun hbad => hbad.elim (· hcrc) (· hmark)))

/-! ### Ends and stalls (R495) -/

section
variable {s : State}

/-- A source that ends while its stream has bytes to come ends the load. -/
theorem sourceEnds_short {source : Nat} (h : (ldrRefill s).streamShort = true) (hs : source = (ldrRefill s).ldrSource)
    (hi : source ≠ 1 ∨ (Tab.get [] (ldrRefill s).arc.images (ldrRefill s).ldr.slot).length ≤ (ldrRefill s).ldr.slotAt) :
    sourceEnds source s = showHealth (ldrFail Code.streamShort (ldrRefill s)) :=
  if_neg (by rw [h]; simp only [Bool.not_true, Bool.false_eq_true, false_or]; omega)

/-- A source that has delivered nothing in time while the loader has room ends the load. -/
theorem streamStall_room (h : s.streamShort = true) (hh : s.loadHeld = false) (hr : s.ldrRoom ≠ 0) :
    streamStall s = showHealth (ldrFail Code.streamStall s) :=
  if_neg (by rw [h, hh]; simp [hr])

/-! ### GATE and the start-up steps (R519 to R521, R531) -/

/-- GATE high begins the steps in their order. -/
theorem gateHigh_begins (hst : s.ldrState = 4) (hh : s.stepsHeld = false) : gateHigh s = (
    let t := (upFrom 0 80).foldl showTaps ((s.setFlag Fld.ldrStatGateIn true).setLdrState 5)
    let t := if t.phase = 0 then t else t.setPhase 8
    { t with ldr := { t.ldr with steps := t.ldr.order, wave := 0 } }) :=
  if_neg (by rw [hst, hh]; decide)

/-- GATE high means nothing outside the state that waits for it. -/
theorem gateHigh_other (hst : s.ldrState ≠ 4) : gateHigh s = s :=
  if_pos (by simp [hst])

/-- RESETS without a wave releases every cell at once. -/
theorem startupResets_atOnce (hn : s.nextStep = 3) (hw : s.ldr.wave = 0) (hp : s.wavePeriod = 0) :
    startupResets s = stepDone (resetsStart (s.stepSectors.foldl resetLifted s)) :=
  (if_neg fun h => h.elim (· hn) (· hw)).trans (if_pos hp)

/-- RESETS under a wave releases the first column. -/
theorem startupResets_wave (hn : s.nextStep = 3) (hw : s.ldr.wave = 0) (hp : s.wavePeriod ≠ 0) :
    startupResets s = (let t := columnLifted 0 s
      { t with ldr := { t.ldr with wave := 1 } }) :=
  (if_neg fun h => h.elim (· hn) (· hw)).trans (if_neg hp)

/-- The next column but the last. -/
theorem resetColumn_next (hn : s.nextStep = 3) (hw : s.ldr.wave ≠ 0) (h9 : s.ldr.wave < 9) :
    resetColumn s = (let t := columnLifted s.ldr.wave s
      { t with ldr := { t.ldr with wave := s.ldr.wave + 1 } }) :=
  (if_neg fun h => h.elim (· hn) hw).trans (if_neg (Nat.not_le.mpr h9))

/-- The last column completes the step. -/
theorem resetColumn_last (hn : s.nextStep = 3) (h9 : 9 ≤ s.ldr.wave) :
    resetColumn s = stepDone (resetsStart (columnLifted s.ldr.wave s)) :=
  (if_neg fun h => h.elim (· hn) (by omega)).trans (if_pos h9)

end

/-- Settles O47. -/
theorem streamsEndAndStartUpStepsRun : Obligations.StreamsEndAndStartUpStepsRun := by
  refine ⟨fun s source => ?_, fun s h hh hr => ?_, fun s hst => ⟨?_, fun hh => ?_⟩, fun s hst => ⟨?_, ?_⟩, fun s hn => ?_,
    fun s hn hb => ?_, fun s hn => ⟨fun hw hp => ?_, fun hw hp => ?_, fun hw h9 => ?_, fun h9 => ?_⟩⟩
  · intro u h hs hi
    have hi' : source.val ≠ 1 ∨ (Tab.get [] u.arc.images u.ldr.slot).length ≤ u.ldr.slotAt :=
      hi.imp_left fun hne h1 => hne (Fin.ext h1)
    exact congrArg Host.Outcome.next (sourceEnds_short h hs hi')
  · exact congrArg Host.Outcome.next (streamStall_room h hh hr)
  · exact congrArg Host.Outcome.next (if_pos hst)
  · exact congrArg Host.Outcome.next (gateHigh_begins hst hh)
  · exact congrArg Host.Outcome.next (if_neg hst)
  · exact congrArg Host.Outcome.next (gateHigh_other hst)
  · intro t
    exact congrArg Host.Outcome.next (if_neg (Classical.not_not.2 hn))
  · exact congrArg Host.Outcome.next (if_neg fun h => h.elim (· hn) hb)
  · exact congrArg Host.Outcome.next (startupResets_atOnce hn hw hp)
  · exact congrArg Host.Outcome.next (startupResets_wave hn hw hp)
  · exact congrArg Host.Outcome.next (resetColumn_next hn hw h9)
  · exact congrArg Host.Outcome.next (resetColumn_last hn h9)

end Sys2Proof.Machine

/-! PROOFS about the archive's descriptors (13_archive): checks, refusals, and how the rows start. -/

namespace Sys2Proof.Machine

/-! ### Refusals (R555, R567) -/

section
variable {t : State} {n lost : Nat}

/-- Where the controller does not run, an operation of good values is refused with ARC_OFF. -/
theorem arcRefusal_off (hv : arcValuesBad n t = false) (hst : t.fld Fld.arcStatState ≠ 1) : arcRefusal n t = Code.arcOff :=
  (if_neg (by rw [hv]; decide)).trans (if_pos hst)

/-- A refused operation completes with its refusal. -/
theorem arcBegin_refused (h : arcRefusal n t ≠ 0) : arcBegin n lost t = completeDesc n (arcRefusal n t) t := if_pos h

/-! ### What each operation begins (R558 to R568) -/

section
variable (hn : n < 64) (hr : arcRefusal n t = 0)
include hn

/-- The operation of a ring's job is its descriptor's. -/
theorem op_of_descOp {op : Nat} (ho : descOp (t.job n).desc = op) : (t.job n).op n = op := by rw [Job.op, if_pos hn, ho]

include hr

/-- ARC_READ enters the queue with its transfer to memory. -/
theorem arcBegin_read (ho : descOp (t.job n).desc = 0x40) :
    arcBegin n lost t = enqueue n (setTransfer n 0 (t.arcArg n 0) (4096 * t.arcCount n) t) := by
  simp only [arcBegin, hr, op_of_descOp hn ho, ne_eq, not_true, if_false]

/-- ARC_WRITE sets its transfer from memory, and its mover serves a chunk. -/
theorem arcBegin_write (ho : descOp (t.job n).desc = 0x41) :
    arcBegin n lost t = jobChunk n lost (enqueue n (setTransfer n (t.arcArg n 0) 0 (4096 * t.arcCount n) t)) := by
  simp only [arcBegin, hr, op_of_descOp hn ho, ne_eq, not_true, if_false]

/-- REC_READ enters the queue with its transfer to memory. -/
theorem arcBegin_recRead (ho : descOp (t.job n).desc = 0x43) :
    arcBegin n lost t = enqueue n (setTransfer n 0 (t.arcArg n 0) (t.arcArg n 2) t) := by
  simp only [arcBegin, hr, op_of_descOp hn ho, ne_eq, not_true, if_false]

/-- REC_WRITE and IMG_WRITE set their transfer from memory, and their mover serves a chunk. -/
theorem arcBegin_collects (ho : descOp (t.job n).desc = 0x44 ∨ descOp (t.job n).desc = 0x47) :
    arcBegin n lost t = jobChunk n lost (enqueue n (setTransfer n (t.arcArg n 0) 0 (t.arcArg n 2) t)) := by
  rcases ho with ho | ho <;> simp only [arcBegin, hr, op_of_descOp hn ho, ne_eq, not_true, if_false]

/-- IMG_OPEN opens the staging and completes. -/
theorem arcBegin_open (ho : descOp (t.job n).desc = 0x46) : arcBegin n lost t = completeDesc n Code.ok
    (showStaging { t with arc := { t.arc with staging := some (n, t.arcArg n 0, t.arcArg n 1, []) } }) := by
  simp only [arcBegin, hr, op_of_descOp hn ho, ne_eq, not_true, if_false]

/-- IMG_READ enters the queue with its transfer to memory. -/
theorem arcBegin_imgRead (ho : descOp (t.job n).desc = 0x49) :
    arcBegin n lost t = enqueue n (setTransfer n 0 (t.arcArg n 0) (t.arcArg n 3) t) := by
  simp only [arcBegin, hr, op_of_descOp hn ho, ne_eq, not_true, if_false]

/-- SLOT_SELECT enters the queue and raises the slot change. -/
theorem arcBegin_select (ho : descOp (t.job n).desc = 0x4A) : arcBegin n lost t = (enqueue n t).raiseAction .slotChange := by
  simp only [arcBegin, hr, op_of_descOp hn ho, ne_eq, not_true, if_false]

/-- ARC_TRIM, REC_DELETE, IMG_COMMIT and FORMAT enter the queue. -/
theorem arcBegin_queued {op : Nat} (h : op ∈ [0x42, 0x45, 0x48, 0x4C]) (ho : descOp (t.job n).desc = op) :
    arcBegin n lost t = enqueue n t := by
  simp only [List.mem_cons, List.not_mem_nil, or_false] at h
  rcases h with rfl | rfl | rfl | rfl <;> simp only [arcBegin, hr, op_of_descOp hn ho, ne_eq, not_true, if_false]

/-- LOAD_SLOT starts a load of its slot. -/
theorem arcBegin_loadSlot (ho : descOp (t.job n).desc = 0x4B) : arcBegin n lost t = (let u := ldrFromSlot (t.arcArg n 0) (enqueue n t)
    u.setJob n { u.job n with count := u.ldr.gen + 1 }) := by
  simp only [arcBegin, hr, op_of_descOp hn ho, ne_eq, not_true, if_false]

end
end

/-- A failed load ends the LOAD_SLOT that is under way with the loader's code. -/
theorem loadSlot_failed {s : State} {n : Nat} (hon : (s.job n).on = true) (ho : (s.job n).op n = 0x4B)
    (hv : ((ldrRefill (jobChunk n 0 s)).job n).on = true) (hvo : ((ldrRefill (jobChunk n 0 s)).job n).op n = 0x4B)
    (hg : ((ldrRefill (jobChunk n 0 s)).job n).count ≠ (ldrRefill (jobChunk n 0 s)).ldr.gen + 1) :
    loadSlot n s = completeDesc n ((ldrRefill (jobChunk n 0 s)).fld Fld.ldrErrCode) (ldrRefill (jobChunk n 0 s)) := by
  rw [loadSlot, descStep, if_pos hon, if_pos ho]
  exact (if_neg (by rw [hv, hvo]; decide)).trans (if_pos hg)

/-- Settles O48. -/
theorem archiveDescriptorsStart : Obligations.ArchiveDescriptorsStart := by
  refine ⟨fun s n i d rest lost hwf hoff hfetched hrun hgo hrec hfence => ?_, fun s n hon ho hv hvo hg => ?_⟩
  · intro t a done
    have hdesc : (t.job n).desc = d := by rw [job_descStart hwf]
    have harg (k : Nat) : t.arcArg n k = a k := by rw [State.arcArg, hdesc]
    have hrow {row lost : Nat} (hd : descRow d = row) := Laws.descStep_start (lost := lost) (more := arcBegin n lost)
      hoff hfetched hd hrun hgo hrec hfence
    have hbegin {row lost : Nat} (hc : descCheck n d t = Code.ok) (hd : descRow d = row) (hge : 0x40 ≤ row) :
        descStep n row lost (arcBegin n lost) s = arcBegin n lost t :=
      (hrow hd).trans ((if_neg (Classical.not_not.2 hc)).trans (if_neg (Nat.not_lt.mpr hge)))
    refine ⟨fun r hr hd => ?_, fun hc href => ?_⟩
    · obtain ⟨lost', hexec, hge⟩ : ∃ lost', exec r.1 s = .next (arcRow n r.2 lost' s) ∧ 0x40 ≤ r.2 := by
        simp only [List.mem_cons, List.not_mem_nil, or_false] at hr
        rcases hr with rfl | rfl | rfl | rfl | rfl | rfl | rfl | rfl | rfl | rfl | rfl | rfl
        all_goals exact ⟨_, rfl, Nat.le_of_ble_eq_true rfl⟩
      rw [hexec, arcRow]
      refine ⟨fun hbad => ?_, fun hc hv hst => ?_, fun hc href => ?_⟩
      · rw [hrow hd]
        exact congrArg (fun u => Host.Outcome.next (arcFinish n u)) (if_pos hbad)
      · rw [hbegin hc hd hge, arcBegin_refused (by rw [arcRefusal_off hv hst]; decide), arcRefusal_off hv hst]
      · rw [hbegin hc hd hge, arcBegin_refused href]
    · have hd {op : Nat} (ho : descOp d = op) : descOp (t.job n).desc = op ∧ descRow d = op :=
        ⟨by rw [hdesc, ho], (descRow_of_check hc).trans ho⟩
      refine ⟨fun ho => ?_, fun ho => ?_, fun ho => ?_, fun ho => ?_, fun ho => ?_, fun ho => ?_, fun ho => ?_, fun ho => ?_,
        fun r hr ho => ?_, fun ho => ?_⟩
      · rw [exec_arcRead, execArcRead, arcRow, hbegin hc (hd ho).2 (by decide), arcBegin_read n.isLt href (hd ho).1, harg]
      · rw [exec_arcWrite, execArcWrite, arcRow, hbegin hc (hd ho).2 (by decide), arcBegin_write n.isLt href (hd ho).1, harg]
      · rw [exec_recRead, execRecRead, arcRow, hbegin hc (hd ho).2 (by decide), arcBegin_recRead n.isLt href (hd ho).1, harg, harg]
      · rw [exec_recWrite, execRecWrite, arcRow, hbegin hc (hd ho).2 (by decide),
          arcBegin_collects n.isLt href (.inl (hd ho).1), harg, harg]
      · rw [exec_imgOpen, execImgOpen, arcRow, hbegin hc (hd ho).2 (by decide), arcBegin_open n.isLt href (hd ho).1, harg, harg]
      · rw [exec_imgWrite, execImgWrite, arcRow, hbegin hc (hd ho).2 (by decide),
          arcBegin_collects n.isLt href (.inr (hd ho).1), harg, harg]
      · rw [exec_imgRead, execImgRead, arcRow, hbegin hc (hd ho).2 (by decide), arcBegin_imgRead n.isLt href (hd ho).1, harg, harg]
      · rw [exec_slotSelect, execSlotSelect, arcRow, hbegin hc (hd ho).2 (by decide), arcBegin_select n.isLt href (hd ho).1]
      · obtain ⟨lost', hexec, hge, hmem⟩ : ∃ lost', exec r.1 s = .next (arcRow n r.2 lost' s) ∧ 0x40 ≤ r.2 ∧
            r.2 ∈ [0x42, 0x45, 0x48, 0x4C] := by
          simp only [List.mem_cons, List.not_mem_nil, or_false] at hr
          rcases hr with rfl | rfl | rfl | rfl
          all_goals exact ⟨_, rfl, Nat.le_of_ble_eq_true rfl, by simp⟩
        rw [hexec, arcRow, hbegin hc (hd ho).2 hge, arcBegin_queued n.isLt href hmem (hd ho).1]
      · rw [exec_loadSlot, execLoadSlot, loadSlot, hbegin hc (hd ho).2 (by decide), arcBegin_loadSlot n.isLt href (hd ho).1, harg]
  · exact congrArg Host.Outcome.next (loadSlot_failed hon ho hv hvo hg)

end Sys2Proof.Machine

/-! PROOFS about the archive's array and its care (13_archive): what an operation of the array leaves and what it served, the patrol,
starting and stopping, and the settings. -/

namespace Sys2Proof.Machine

/-! ### Blocks (R551 to R555) -/

section
variable {s : State} {b : Nat}

/-- A correctable read that makes no refresh due adds to its block's count and its worst. -/
theorem judgeRead_plain {bits : Nat} (hb : bits ≤ 72)
    (h : ¬(s.fld Fld.arcCfgRdLimit * 1000 ≤ (s.block b).reads + 1 ∨ s.fld Fld.arcCfgRefreshBits ≤ bits)) :
    judgeRead b bits s = (
      let t := s.setBlock b { s.block b with reads := (s.block b).reads + 1, worst := max (s.block b).worst bits }
      if t.fld Fld.arcWearWorst < bits then t.setFld Fld.arcWearWorst bits else t) := by
  have hcfg (v : Nat) (t : State) : ¬((t.setFld Fld.arcWearWorst v).fld Fld.arcCfgRdLimit * 1000 ≤ (s.block b).reads + 1 ∨
      (t.setFld Fld.arcWearWorst v).fld Fld.arcCfgRefreshBits ≤ bits) ↔
      ¬(t.fld Fld.arcCfgRdLimit * 1000 ≤ (s.block b).reads + 1 ∨ t.fld Fld.arcCfgRefreshBits ≤ bits) := by
    rw [State.fld_setFld_ne t _ _ _ (by decide), State.fld_setFld_ne t _ _ _ (by decide)]
  simp only [judgeRead, Nat.not_lt.mpr hb, if_false]
  split
  · exact if_neg ((hcfg _ _).2 h)
  · exact if_neg h

/-- A failed erase retires its block. -/
theorem nandBlock_erase_failed {b : BitVec 24} (h : (s.block b.toNat).bad = false) :
    nandBlock (.erase b false) s = some (retireBlock b.toNat s) := by
  simp only [nandBlock, h, Bool.false_eq_true, if_false]

/-- A failed program retires its block. -/
theorem nandBlock_program_failed {b : BitVec 24} (h : (s.block b.toNat).bad = false) (hm : s.mayProgram b.toNat = true) :
    nandBlock (.program b false) s = some (retireBlock b.toNat s) := by
  simp only [nandBlock, h, hm, Bool.not_true, Bool.or_self, Bool.false_eq_true, if_false]

/-- A good erase adds one to its block's count. -/
theorem nandBlock_erase_done {b : BitVec 24} (h : (s.block b.toNat).bad = false) :
    nandBlock (.erase b true) s = some (s.setBlock b.toNat { erases := (s.block b.toNat).erases + 1 }) := by
  simp only [nandBlock, h, Bool.false_eq_true, if_false, if_true]

end

section
variable {s u : State} {op : NandOp} (hb : nandBlock op s = some u)
include hb

/-- An operation that failed completes nothing. -/
theorem nandDone_failed (ho : nandOk op = false) (use : NandUse) : nandDone op use s = showArc u := by
  simp only [nandDone, hb, ho, Bool.not_false, if_true]

section
variable (ho : nandOk op = true)
include ho

/-- Background work leaves what its block says. -/
theorem nandDone_background : nandDone op .background s = showArc u := by
  simp only [nandDone, hb, ho, Bool.not_true, Bool.false_eq_true, if_false]

/-- An operation for a job goes on with it. -/
theorem nandDone_job (n : Fin 64) : nandDone op (.job n) s = showArc (arcJob n (nandBits op) u) := by
  simp only [nandDone, hb, ho, Bool.not_true, Bool.false_eq_true, if_false]

/-- An operation for an image goes on with it. -/
theorem nandDone_image : nandDone op .image s = showArc (imageRead (nandBits op) u) := by
  simp only [nandDone, hb, ho, Bool.not_true, Bool.false_eq_true, if_false]

/-- An operation for a record goes on with it. -/
theorem nandDone_record (key : Fin 6) : nandDone op (.record key) s = showArc (recordDone key u) := by
  simp only [nandDone, hb, ho, Bool.not_true, Bool.false_eq_true, if_false]

/-- An operation for the controller's start goes on with it. -/
theorem nandDone_start (present ignored : BitVec 4) (page pages : Fin 16) (luns : Fin 8) (blocks : BitVec 24) (modes : BitVec 3)
    (copies : Fin 9) : nandDone op (.start present ignored page pages luns blocks modes copies) s = showArc
      (arcStarted present.toNat ignored.toNat page pages luns blocks.toNat modes.toNat copies u) := by
  simp only [nandDone, hb, ho, Bool.not_true, Bool.false_eq_true, if_false]

end
end

/-! ### Jobs (R550, R551, R558 to R568) -/

/-- The words of a data sector are 512. -/
theorem sectorWords_length (u : State) (lba : Nat) : (u.sectorWords lba).length = 512 := by
  rw [State.sectorWords, List.length_map, Laws.upFrom_length]

/-- A correctable sector is delivered as it stands. -/
theorem nandDeliver_good {n bits : Nat} (h : bits ≤ 72) (at' : Nat) (ws : List W64) (u : State) :
    nandDeliver n at' bits ws u = u.setJob n { u.job n with acc := (u.job n).acc ++ ws, count := (u.job n).count + 1 } := by
  simp [nandDeliver, Nat.not_lt.mpr h]

/-- An uncorrectable one is delivered in free words, the first with its place as RESULT. -/
theorem nandDeliver_bad {n bits : Nat} (h : 72 < bits) (at' : Nat) (ws : List W64) (u : State) :
    nandDeliver n at' bits ws u = ({ u with freeCount := u.freeCount + ws.length } : State).setJob n
      { u.job n with
        acc := (u.job n).acc ++ (upFrom u.freeCount ws.length).map Config.freeWord
        count := (u.job n).count + 1
        status := if (u.job n).status = Code.ok then Code.arcUncorrectable else (u.job n).status
        result := if (u.job n).status = Code.ok then BitVec.ofNat 64 at' else (u.job n).result } := by
  simp only [nandDeliver, freeWords, h, if_true, decide_true, Bool.true_and, beq_iff_eq]
  rfl

section
variable {u : State} {n bits : Nat} (hon : (u.job n).on = true) (hq : u.arc.queue.contains n = true) (hw : u.arcWaits n = false)
  (hs : u.jobStalled n = false)
include hon hq hw hs

/-- A job that is its queue's next is not held back. -/
theorem arcJob_goes : (!(u.job n).on || !u.arc.queue.contains n || u.arcWaits n || u.jobStalled n) = false := by
  rw [hon, hq, hw, hs]
  rfl

/-- ARC_READ with words to deliver and room for them takes the sector read. -/
theorem arcJob_read (ho : (u.job n).op n = 0x40) (hc : (u.job n).count < u.arcCount n) (hl : (u.job n).acc.length < 1024) :
    arcJob n bits u = arcFinish n (nandDeliver n (u.arcArg n 1 + (u.job n).count) bits
      (u.sectorWords (u.arcArg n 1 + (u.job n).count)) u) := by
  simp only [arcJob, arcJob_goes hon hq hw hs, ho, Bool.false_eq_true, if_false]
  exact if_neg (by omega)

/-- ARC_WRITE writes a full sector whole. -/
theorem arcJob_write (ho : (u.job n).op n = 0x41) (hl : 512 ≤ (u.job n).acc.length) :
    arcJob n bits u = arcFinish n ((putSector (u.arcArg n 1 + (u.job n).count) ((u.job n).acc.take 512) u).setJob n
      { u.job n with acc := (u.job n).acc.drop 512, count := (u.job n).count + 1,
                     result := BitVec.ofNat 64 ((u.job n).count + 1) }) := by
  simp only [arcJob, arcJob_goes hon hq hw hs, ho, Nat.not_lt.mpr hl, Bool.false_eq_true, if_false]

/-- ARC_TRIM clears its sectors. -/
theorem arcJob_trim (ho : (u.job n).op n = 0x42) :
    arcJob n bits u = completeDesc n Code.ok { u with arc := { u.arc with
      data := u.arc.data.filter fun e => e.1 < 512 * u.arcArg n 0 || 512 * u.arcArg n 0 + 512 * u.arcCount n ≤ e.1 } } := by
  simp only [arcJob, arcJob_goes hon hq hw hs, ho, Bool.false_eq_true, if_false]

/-- REC_READ of no record says so. -/
theorem arcJob_recNone (ho : (u.job n).op n = 0x43) (hc : (u.job n).count = 0) (hr : Tab.get [] u.arc.recs (u.arcArg n 1) = []) :
    arcJob n bits u = completeDesc n Code.arcNoRecord u := by
  simp only [arcJob, arcJob_goes hon hq hw hs, ho, hc, hr, Bool.false_eq_true, ne_eq, not_true, if_false, if_true]

/-- REC_WRITE stores its whole record where it has room. -/
theorem arcJob_recWrite (ho : (u.job n).op n = 0x44) (hl : (u.job n).len ≤ (u.job n).done)
    (hf : u.recordFits (u.arcArg n 1) (u.job n).acc.length = true) :
    arcJob n bits u = completeDesc n (u.job n).status (setRecord (u.arcArg n 1) (u.job n).acc u) := by
  simp only [arcJob, arcJob_goes hon hq hw hs, ho, Nat.not_lt.mpr hl, hf, Bool.not_true, Bool.false_eq_true, if_false]

/-- REC_WRITE without room says so. -/
theorem arcJob_recFull (ho : (u.job n).op n = 0x44) (hl : (u.job n).len ≤ (u.job n).done)
    (hf : u.recordFits (u.arcArg n 1) (u.job n).acc.length = false) : arcJob n bits u = completeDesc n Code.arcRecFull u := by
  simp only [arcJob, arcJob_goes hon hq hw hs, ho, Nat.not_lt.mpr hl, hf, Bool.not_false, Bool.false_eq_true, if_false, if_true]

/-- REC_DELETE clears its record. -/
theorem arcJob_recDelete (ho : (u.job n).op n = 0x45) :
    arcJob n bits u = completeDesc n Code.ok (setRecord (u.arcArg n 0) [] u) := by
  simp only [arcJob, arcJob_goes hon hq hw hs, ho, Bool.false_eq_true, if_false]

/-- IMG_COMMIT of bad bytes says so. -/
theorem arcJob_imageBad (ho : (u.job n).op n = 0x48) {r k len : Nat} {bs : List Byte}
    (hst : u.arc.staging = some (r, k, len, bs)) (hl : u.flag Fld.arcSlotLoading k = false) (hi : imageOk len bs u = false) :
    arcJob n bits u = completeDesc n Code.arcImageBad u := by
  simp only [arcJob, arcJob_goes hon hq hw hs, ho, commitImage, hst, hl, hi, Bool.not_false, Bool.false_eq_true, if_false, if_true]

end

/-! ### Records and the start (R561, R569) -/

section
variable {u : State}

/-- The stewards' supply record is stored and its action ends. -/
theorem recordDone_supply (hrun : u.lead.underWay.contains .recordSupply = true) (ha : u.archiveOk = true) :
    recordDone 4 u = setRecord 4 u.supplyWords (u.dropAction .recordSupply) := by
  simp only [recordDone, hrun, ha, Bool.and_self, if_true]

/-- A start that finds no medium runs without one. -/
theorem arcStarted_none (hs : u.arc.starting = true) (ignored page pages luns blocks modes copies : Nat) :
    arcStarted 0 ignored page pages luns blocks modes copies u =
      arcRuns Code.arcNoMedium ((u.setFld Fld.arcStatCePresent 0).setFld Fld.arcStatCeIgnored ignored) := by
  simp only [arcStarted, hs, Bool.not_true, Bool.false_eq_true, if_false, if_true]

/-- Where no start is under way its end changes nothing. -/
theorem arcStarted_idle (hs : u.arc.starting = false) (present ignored page pages luns blocks modes copies : Nat) :
    arcStarted present ignored page pages luns blocks modes copies u = u := by
  simp only [arcStarted, hs, Bool.not_false, if_true]

end

/-- Settles O49. -/
theorem arrayOperationsServeTheirJobs : Obligations.ArrayOperationsServeTheirJobs := by
  refine ⟨fun s b bits hbits => ?_, fun s b use hb => ⟨?_, fun hm => ?_, ?_⟩, fun s u op n hb ho hon hq hw hs => ?_,
    fun s u op hb ho => ⟨?_, fun h72 hl => ?_, fun hrun ha => ?_, fun hs => ?_, fun hs => ?_⟩⟩
  · intro x h t
    have hread : nandBlock (.read b bits) s = some (judgeRead b.toNat bits.toNat s) := rfl
    rw [exec_nandOpDone, execNandOpDone, nandDone_background hread rfl, judgeRead_plain hbits h]
  · rw [exec_nandOpDone, execNandOpDone, nandDone_failed (nandBlock_erase_failed hb) rfl]
  · rw [exec_nandOpDone, execNandOpDone, nandDone_failed (nandBlock_program_failed hb hm) rfl]
  · rw [exec_nandOpDone, execNandOpDone, nandDone_background (nandBlock_erase_done hb) rfl]
  · intro x a done
    have hexec : exec (.nandOpDone op (.job n)) s = done (arcJob n (nandBits op) u) :=
      congrArg Host.Outcome.next (nandDone_job hb ho n)
    rw [hexec]
    refine ⟨fun hop hc hl => ⟨fun h72 => ?_, fun h72 => ?_⟩, fun hop hl => ?_, fun hop => ?_, fun hop hc hr => ?_,
      fun hop hl => ⟨fun hf => ?_, fun hf => ?_⟩, fun hop => ?_, fun r k len bs hop hst hl hi => ?_⟩
    · rw [arcJob_read hon hq hw hs hop hc hl, nandDeliver_good h72]
    · rw [arcJob_read hon hq hw hs hop hc hl, nandDeliver_bad h72, sectorWords_length]
    · rw [arcJob_write hon hq hw hs hop hl]
    · rw [arcJob_trim hon hq hw hs hop]
    · rw [arcJob_recNone hon hq hw hs hop hc hr]
    · rw [arcJob_recWrite hon hq hw hs hop hl hf]
    · rw [arcJob_recFull hon hq hw hs hop hl hf]
    · rw [arcJob_recDelete hon hq hw hs hop]
    · rw [arcJob_imageBad hon hq hw hs hop hst hl hi]
  · rw [exec_nandOpDone, execNandOpDone, nandDone_background hb ho]
  · rw [exec_nandOpDone, execNandOpDone, nandDone_image hb ho, imageRead, if_pos ⟨h72, hl⟩]
  · exact congrArg Host.Outcome.next ((nandDone_record hb ho 4).trans (congrArg showArc (recordDone_supply hrun ha)))
  · intro ignored page pages luns blocks modes copies
    exact congrArg Host.Outcome.next ((nandDone_start hb ho ..).trans (congrArg showArc (arcStarted_none hs ..)))
  · intro present ignored page pages luns blocks modes copies
    exact congrArg Host.Outcome.next ((nandDone_start hb ho ..).trans (congrArg showArc (arcStarted_idle hs ..)))

/-! ### The patrol (R554) -/

section
variable {s : State}

/-- The controller is in use where it runs without a fault. -/
theorem State.arcRunning_iff : s.arcRunning = true ↔ s.fld Fld.arcStatState = 1 ∧ s.arc.fault = 0 := by
  simp only [State.arcRunning, Bool.and_eq_true, beq_iff_eq]

/-- A patrol's read is judged like any other; the last ends the pass. -/
theorem patrolRead_runs (hr : s.arcRunning = true) (hp : s.flag Fld.arcStatPatrol = true ∨ s.flag Fld.arcCfgPatrolDays = true)
    (b bits : Nat) (last : Bool) : patrolRead b bits last s = (
      let t := showArc (judgeRead b bits (s.setFlag Fld.arcStatPatrol true))
      if last then { (t.setFlag Fld.arcStatPatrol false).bump Fld.arcCntPatrolPasses with arc := { t.arc with patrolAt := 0 } }
      else { t with arc := { t.arc with patrolAt := t.arc.patrolAt + 1 } }) := by
  have hgo : (!s.arcRunning || (!s.flag Fld.arcStatPatrol && !s.flag Fld.arcCfgPatrolDays)) = false := by
    rcases hp with hp | hp <;> simp [hr, hp]
  exact if_neg (by rw [hgo]; decide)

/-! ### Starting and stopping (R570) -/

/-- EN shows nothing of the controller's state. -/
theorem arcState_setEn (b : Bool) : (s.setFlag Fld.arcCtlEn b).fld Fld.arcStatState = s.fld Fld.arcStatState :=
  State.fld_setFlag_ne s _ _ _ (by decide)

/-- EN = 1 starts a controller that is OFF. -/
theorem archiveEnable_off (h : s.fld Fld.arcStatState = 0) : archiveEnable s = (let t := s.setFlag Fld.arcCtlEn true
    { t with arc := { t.arc with starting := true } }) := by
  simp only [archiveEnable, arcState_setEn, h]

/-- EN = 1 on a running controller is only shown. -/
theorem archiveEnable_run (h : s.fld Fld.arcStatState = 1) : archiveEnable s = s.setFlag Fld.arcCtlEn true := by
  simp only [archiveEnable, arcState_setEn, h]

/-- EN = 1 on a stopping controller is latched. -/
theorem archiveEnable_stopping (h : s.fld Fld.arcStatState = 2) :
    archiveEnable s = (s.setFlag Fld.arcCtlEn true).setFld Fld.arcStatState 3 := by
  simp only [archiveEnable, arcState_setEn, h]

/-- EN = 0 ends the start of a controller that is OFF. -/
theorem archiveDisable_off (h : s.fld Fld.arcStatState = 0) : archiveDisable s = (let t := s.setFlag Fld.arcCtlEn false
    { t with arc := { t.arc with starting := false } }) := by
  simp only [archiveDisable, arcState_setEn, h]

/-- EN = 0 makes a running controller, or a latched start, stopping. -/
theorem archiveDisable_stops (h : s.fld Fld.arcStatState = 1 ∨ s.fld Fld.arcStatState = 3) :
    archiveDisable s = (s.setFlag Fld.arcCtlEn false).setFld Fld.arcStatState 2 := by
  rcases h with h | h <;> simp only [archiveDisable, arcState_setEn, h]

/-! ### Settings (R547, R572) -/

section
variable {v : W32}

/-- An interface setting within its ranges that the medium supports, or that AUTO judges, is taken. -/
theorem arcIfWrite_takes (hi : bitsW (Reg.arcIf.plain (s.reg Reg.arcIf) (v.setWidth 64) false) 0 2 ≠ 3)
    (hc : bitsW (Reg.arcIf.plain (s.reg Reg.arcIf) (v.setWidth 64) false) 2 5 ≤ 16)
    (h0 : bitsW (Reg.arcIf.plain (s.reg Reg.arcIf) (v.setWidth 64) false) 0 2 = 0 →
      4 ≤ bitsW (Reg.arcIf.plain (s.reg Reg.arcIf) (v.setWidth 64) false) 2 5)
    (h1 : bitsW (Reg.arcIf.plain (s.reg Reg.arcIf) (v.setWidth 64) false) 0 2 = 1 →
      3 ≤ bitsW (Reg.arcIf.plain (s.reg Reg.arcIf) (v.setWidth 64) false) 2 5)
    (hm : bitsW (Reg.arcIf.plain (s.reg Reg.arcIf) (v.setWidth 64) false) 7 1 = 1 ∨ s.arc.modes = 0 ∨
      bitOf s.arc.modes (bitsW (Reg.arcIf.plain (s.reg Reg.arcIf) (v.setWidth 64) false) 0 2) = true) :
    arcIfWrite v s = s.setReg Reg.arcIf (Reg.arcIf.plain (s.reg Reg.arcIf) (v.setWidth 64) false) := by
  refine (if_neg (by omega)).trans (if_neg fun hbad => ?_)
  obtain ⟨hauto, hmodes, hbit⟩ := hbad
  rcases hm with hm | hm | hm
  · exact absurd hauto (by simp [hm])
  · exact hmodes hm
  · rw [hm] at hbit
    exact absurd hbit (by decide)

end
end

/-- Settles O50. -/
theorem archiveCareAndSettings : Obligations.ArchiveCareAndSettings := by
  refine ⟨fun s b bits hst hf => ?_, fun s h => ?_, fun s w hp => ?_, fun s hst => ?_, fun s w v hp => ?_, fun s w v hp => ?_⟩
  · have hr := State.arcRunning_iff.2 ⟨hst, hf⟩
    refine ⟨fun hp => ?_, fun w hp => ?_, ?_⟩
    · exact ⟨congrArg Host.Outcome.next (patrolRead_runs hr hp _ _ false),
        congrArg Host.Outcome.next (patrolRead_runs hr hp _ _ true)⟩
    · exact State.next_linked hp (if_pos hr)
    · exact congrArg Host.Outcome.next (if_pos hr)
  · have hr : ¬s.arcRunning = true := fun hr => by
      obtain ⟨hst, hf⟩ := State.arcRunning_iff.1 hr
      exact h.elim (· hf) (· hst)
    exact ⟨congrArg Host.Outcome.next (if_neg hr), fun w hp => State.next_linked hp (if_neg hr)⟩
  · intro up dn
    refine ⟨fun h => ⟨?_, ?_⟩, fun h => ⟨?_, ?_⟩, fun h => ?_, fun h => ?_⟩
    · exact State.next_linked hp (archiveEnable_off h)
    · exact State.next_linked hp (archiveDisable_off h)
    · exact State.next_linked hp (archiveEnable_run h)
    · exact State.next_linked hp (archiveDisable_stops (.inl h))
    · exact State.next_linked hp (archiveEnable_stopping h)
    · exact State.next_linked hp (archiveDisable_stops (.inr h))
  · exact congrArg Host.Outcome.next (if_neg (by omega))
  · refine ⟨⟨fun hi hc h0 h1 hm => ?_, fun hbad => ?_⟩, ⟨fun h0 h72 hl => ?_, fun hbad => ?_⟩, ?_⟩
    · exact State.next_linked hp (arcIfWrite_takes hi hc h0 h1 hm)
    · exact State.next_linked hp (if_pos hbad)
    · exact State.next_linked hp (if_neg (by omega))
    · exact State.next_linked hp (if_pos hbad)
    · exact State.next_linked hp rfl
  · have hdeny (off : Nat) (f : State → State) :
        (.next (s.linked w off f) : Out) = .next (s.deny Code.wardenOnly 0xFF 6 (writerLink w)) :=
      congrArg Host.Outcome.next (State.linked_of_none hp off f)
    exact ⟨hdeny .., hdeny .., hdeny .., hdeny .., hdeny .., hdeny ..⟩

end Sys2Proof.Machine

/-! PROOFS about the supply, the rails and the temperature (15_power). -/

namespace Sys2Proof.Machine

variable {s : State} {w : Writer}

/-! ### Supervision (R629, R630) -/

/-- A device that neither is in DARK nor enters it, and is supplied, enters it at once. -/
theorem enterDarkNow_enters (trip : Bool) (hd : s.pwr.dark = false) (ho : s.pwr.off = false) (he : s.pwr.entering ≠ 3) :
    enterDarkNow trip s = enterPower 3 trip (s.dropAction .power) :=
  if_neg (by simp [hd, ho, he])

/-- A measured VSUP shown, with LOW judged. -/
def vsupShown (v : Nat) (s : State) : State :=
  (s.setFld Fld.pwrSupVsup v).setFlag Fld.pwrSupLow (decide (v < s.fld Fld.pwrSupLowThr))

/-- A measurement without a rise of LOW is only shown. -/
theorem supplyLow_quiet {v : Nat} (h : decide (v < s.fld Fld.pwrSupLowThr) = false ∨ s.flag Fld.pwrSupLow = true) :
    supplyLow v s = vsupShown v s := by
  refine if_neg fun hrise => ?_
  obtain ⟨hlow, hwas⟩ := hrise
  rcases h with h | h
  · exact absurd hlow (of_decide_eq_false h)
  · rw [h] at hwas
    exact absurd hwas (by decide)

/-- A rise of LOW raises its alarm, and with LOW_ACT enters DARK. -/
theorem supplyLow_rises {v : Nat} (hl : decide (v < s.fld Fld.pwrSupLowThr) = true) (hw : s.flag Fld.pwrSupLow = false) :
    supplyLow v s = (let u := (vsupShown v s).alarm 8 Code.supplyLow 0
      if u.flag Fld.pwrSupLowAct then enterDarkNow false u else u) := by
  refine if_pos ?_
  simpa [hw] using hl

/-- The state in which a temperature reading is judged: TEMP and PEAK show it. -/
def tempShown (m : Nat) (s : State) : State :=
  let t := s.setFld Fld.pwrTempTemp m
  if t.fld Fld.pwrTempPeak < m then t.setFld Fld.pwrTempPeak m else t

/-- HOT as a reading leaves it, with the alarm of its rise. -/
def hotShown (m : Nat) (t : State) : State :=
  let u := t.setFlag Fld.pwrTempHot (decide (2 * (t.fld Fld.pwrTempHotThr + 64) ≤ m))
  if 2 * (t.fld Fld.pwrTempHotThr + 64) ≤ m ∧ !t.flag Fld.pwrTempHot then u.alarm 7 Code.dieHot 0 else u

/-- The alarm is raised where HOT is set and was not. -/
theorem hotShown_eq (m : Nat) (t : State) : hotShown m t = (
    let hot := decide (2 * (t.fld Fld.pwrTempHotThr + 64) ≤ m)
    let u := t.setFlag Fld.pwrTempHot hot
    if hot = true ∧ t.flag Fld.pwrTempHot = false then u.alarm 7 Code.dieHot 0 else u) := by
  simp only [hotShown, decide_eq_true_eq, Bool.not_eq_true']

/-- What a reading leaves before it is judged against the maximum. -/
def tempCapped (west east : Nat) (s : State) : State :=
  tempCap 1 east (tempCap 0 west (hotShown (max west east) (tempShown (max west east) s)))

section
variable {west east : Nat} {v : State} (hv : tempCapped west east s = v)
include hv

/-- A reading judged against the maximum. -/
theorem tempUpdate_judged {run : Nat}
    (hr : (if 2 * (v.maxTemp + 10 + 64) ≤ max west east then min 2 (v.pwr.hot + 1) else 0) = run) :
    tempUpdate west east s = if run = 2 then enterDarkNow true { v with pwr := { v.pwr with hot := run } }
      else { v with pwr := { v.pwr with hot := run } } := by
  subst hr hv
  rfl

/-- Below 10 °C above the maximum the count of readings begins anew. -/
theorem tempUpdate_cool (h : max west east < 2 * (v.maxTemp + 10 + 64)) :
    tempUpdate west east s = { v with pwr := { v.pwr with hot := 0 } } :=
  tempUpdate_judged hv (run := 0) (if_neg (Nat.not_le.mpr h))

/-- A first reading beyond it is counted. -/
theorem tempUpdate_first (h : 2 * (v.maxTemp + 10 + 64) ≤ max west east) (h0 : v.pwr.hot = 0) :
    tempUpdate west east s = { v with pwr := { v.pwr with hot := 1 } } :=
  tempUpdate_judged hv (run := 1) ((if_pos h).trans (by rw [h0]; rfl))

/-- A second one enters DARK by a trip. -/
theorem tempUpdate_trips (h : 2 * (v.maxTemp + 10 + 64) ≤ max west east) (h0 : v.pwr.hot ≠ 0) :
    tempUpdate west east s = enterDarkNow true { v with pwr := { v.pwr with hot := 2 } } :=
  tempUpdate_judged hv (run := 2) ((if_pos h).trans (by omega))

end

/-! ### The rails (R622 to R628) -/

section
variable {h b : Nat}

/-- The intervals in a row with BACKLOG below DOWN. -/
def backlogRun (h b : Nat) (t : State) : Nat := if b < 10 * t.fld Fld.pwrVfabDown h then Tab.get 0 t.pwr.downs h + 1 else 0

/-- The run of such intervals kept; at 100 it begins anew. -/
def runKept (h b : Nat) (t : State) : State :=
  { t with pwr := { t.pwr with downs := Tab.set 0 t.pwr.downs h (if backlogRun h b t = 100 then 0 else backlogRun h b t) } }

/-- Does half h's rail stay where it is: outside RUN, under a fixed policy, or while it slews? -/
def RailStill (h : Nat) (u : State) : Prop :=
  u.railFree = false ∨ u.fld Fld.pwrVfabPolicy h = 0 ∨ u.flag Fld.pwrRailSlewing h = true

/-- So the model asks it. -/
theorem railStill_iff {u : State} : ((!u.railFree) = true ∨ u.fld Fld.pwrVfabPolicy h = 0 ∨ u.flag Fld.pwrRailSlewing h = true) ↔
    RailStill h u :=
  or_congr (by rw [Bool.not_eq_true']) Iff.rfl

/-- The rail of half h at a value within its bounds. -/
def railPut (h x : Nat) (u : State) : State :=
  u.setFld Fld.pwrRailVfab (max (u.railBounds h).1 (min (u.railBounds h).2 x)) h

variable {t : State} (ht : s.setFld Fld.pwrRailBacklog b h = t)
include ht

/-- A rail that stays is not moved. -/
theorem backlogInterval_still (hs : RailStill h (runKept h b t)) : backlogInterval h b s = runKept h b t := by
  subst ht
  exact if_pos (railStill_iff.2 hs)

variable (hs : ¬RailStill h (runKept h b t))
include hs

/-- An interval above UP raises a free rail by 15 mV. -/
theorem backlogInterval_rises (hu : 10 * t.fld Fld.pwrVfabUp h < b) :
    backlogInterval h b s = railPut h ((runKept h b t).fld Fld.pwrRailVfab h + 3) (runKept h b t) := by
  subst ht
  exact (if_neg (mt railStill_iff.1 hs)).trans (if_pos hu)

/-- The hundredth in a row below DOWN lowers it by one step. -/
theorem backlogInterval_falls (hu : b ≤ 10 * t.fld Fld.pwrVfabUp h) (hr : backlogRun h b t = 100) :
    backlogInterval h b s = railPut h ((runKept h b t).fld Fld.pwrRailVfab h - 1) (runKept h b t) := by
  subst ht
  exact (if_neg (mt railStill_iff.1 hs)).trans ((if_neg (Nat.not_lt.mpr hu)).trans (if_pos hr))

/-- Any other interval leaves it. -/
theorem backlogInterval_keeps (hu : b ≤ 10 * t.fld Fld.pwrVfabUp h) (hr : backlogRun h b t ≠ 100) :
    backlogInterval h b s = runKept h b t := by
  subst ht
  exact (if_neg (mt railStill_iff.1 hs)).trans ((if_neg (Nat.not_lt.mpr hu)).trans (if_neg hr))

end

/-! ### Settings (R622, R627, R628, R641) -/

section
variable {b : Nat}

/-- The levels of a VBANK output as a write leaves them: a change begins its slew. -/
def vbankSet (b level on : Nat) (s : State) : State :=
  let t := (s.setFld Fld.pwrVbankLevel level b).setFld Fld.pwrVbankDarkOn on b
  if level ≠ s.fld Fld.pwrVbankLevel b then (t.setFlag Fld.pwrVbankSlewing true b).setFlag Fld.pwrVbankOk false b else t

/-- A legal level is the Warden's to write; SAVE then writes the supply record. -/
theorem vbankWrite_warden (hw : s.priv w = 2) {v : W32} (hl : bitsW v 0 2 ≠ 3) : vbankWrite w b v s =
    if bitsW v 3 1 = 1 then vbankSave (vbankSet b (bitsW v 0 2) (bitsW v 2 1) s) else vbankSet b (bitsW v 0 2) (bitsW v 2 1) s := by
  rw [vbankWrite, State.warden_iff.2 hw]
  exact (if_neg (by simp)).trans (if_neg hl)

/-- A field's value fits its width. -/
theorem State.fld_lt (s : State) (f : Fld) (i j : Nat) : s.fld f i j < 2 ^ f.len := Nat.mod_lt _ (Nat.two_pow_pos _)

/-- The word SAVE writes holds the present settings. -/
theorem saveWord_fields {level on : Nat} (hl : level < 4) (ho : on < 2) :
    bitsW (BitVec.ofNat 32 (level + 4 * on + 8)) 0 2 = level ∧ bitsW (BitVec.ofNat 32 (level + 4 * on + 8)) 2 1 = on ∧
      bitsW (BitVec.ofNat 32 (level + 4 * on + 8)) 3 1 = 1 := by
  simp only [bitsW, bitsOf, BitVec.toNat_ofNat]
  omega

/-- SAVE under the present settings. -/
theorem vbankWrite_save (hw : s.priv w = 2) (hl : s.fld Fld.pwrVbankLevel b ≠ 3) :
    vbankWrite w b (BitVec.ofNat 32 (s.fld Fld.pwrVbankLevel b + 4 * s.fld Fld.pwrVbankDarkOn b + 8)) s =
      vbankSave (vbankSet b (s.fld Fld.pwrVbankLevel b) (s.fld Fld.pwrVbankDarkOn b) s) := by
  obtain ⟨hlevel, hon, hsave⟩ := saveWord_fields (State.fld_lt s Fld.pwrVbankLevel b 0) (State.fld_lt s Fld.pwrVbankDarkOn b 0)
  rw [vbankWrite_warden hw (by rw [hlevel]; exact hl), if_pos hsave, hlevel, hon]

/-- The end of a half's slew puts its rail at its aim. -/
theorem railSlewDone_half {h : Nat} (hh : h < 2) (ha : Tab.get 0 s.pwr.aim h ≠ 0) : railSlewDone h s = (
    let t := s.setFld Fld.pwrRailVfab (Tab.get 0 s.pwr.aim h - 1) h
    ({ t with pwr := { t.pwr with aim := Tab.set 0 t.pwr.aim h 0 } } : State).setFlag Fld.pwrRailSlewing false h) := by
  simp only [railSlewDone, hh, ha, if_true, if_false]

/-- The end of a slewing output's slew shows it. -/
theorem railSlewDone_bank (hs : s.flag Fld.pwrVbankSlewing b = true) : railSlewDone (2 + b) s =
    (s.setFlag Fld.pwrVbankSlewing false b).setFlag Fld.pwrVbankOk (!(s.pwr.dark && !s.flag Fld.pwrVbankDarkOn b)) b := by
  simp only [railSlewDone, show ¬2 + b < 2 by omega, Nat.add_sub_cancel_left, hs, if_true, if_false]

/-- An output that does not slew has no slew to end. -/
theorem railSlewDone_idle (hs : s.flag Fld.pwrVbankSlewing b = false) : railSlewDone (2 + b) s = s := by
  simp only [railSlewDone, show ¬2 + b < 2 by omega, Nat.add_sub_cancel_left, hs, Bool.false_eq_true, if_false]

end

/-- Settles O54. -/
theorem railsSupplyAndTemperatureAct : Obligations.RailsSupplyAndTemperatureAct := by
  refine ⟨fun s v => ?_, fun s => rfl, fun s west east => ?_, fun s h b => ?_, fun s h k => rfl, fun s w h v hp => ?_,
    fun s w b v hw hl => ?_, fun s w b hw hl => ?_, fun s w v hp => ⟨fun h1 h2 => ?_, fun h => ?_, ?_⟩,
    fun s => ⟨fun h ha => ?_, fun b hs => ?_, fun b hs => ?_⟩⟩
  · intro was low t
    refine ⟨fun h => ?_, fun hl hw => ?_⟩
    · exact congrArg Host.Outcome.next (supplyLow_quiet h)
    · intro u
      have hrise : exec (.supplyLowDetect v) s = .next (if u.flag Fld.pwrSupLowAct then enterDarkNow false u else u) :=
        congrArg Host.Outcome.next (supplyLow_rises hl hw)
      refine ⟨fun ha => ?_, fun ha hd ho he => ?_⟩
      · rw [hrise, if_neg (by rw [ha]; decide)]
      · rw [hrise, if_pos ha, enterDarkNow_enters false hd ho he]
  · intro m t t' hot u u' v limit
    have hv : tempCapped west.toNat east.toNat s = v :=
      congrArg (fun u => tempCap 1 east.toNat (tempCap 0 west.toNat u)) (hotShown_eq m t')
    refine ⟨fun h => ?_, fun h h0 => ?_, fun h h0 => ?_⟩
    · exact congrArg Host.Outcome.next (tempUpdate_cool hv h)
    · exact congrArg Host.Outcome.next (tempUpdate_first hv h h0)
    · exact congrArg Host.Outcome.next (tempUpdate_trips hv h h0)
  · intro t run u still put
    refine ⟨fun hs => ?_, fun hs hu => ?_, fun hs hu hr => ?_, fun hs hu hr => ?_⟩
    · exact congrArg Host.Outcome.next (backlogInterval_still rfl hs)
    · exact congrArg Host.Outcome.next (backlogInterval_rises rfl hs hu)
    · exact congrArg Host.Outcome.next (backlogInterval_falls rfl hs hu hr)
    · exact congrArg Host.Outcome.next (backlogInterval_keeps rfl hs hu hr)
  · intro policy level mx bad
    exact ⟨fun hb => State.next_linked hp (if_pos hb), fun hb => State.next_linked hp (if_neg hb)⟩
  · have hp : s.priv w ≠ 0 := by rw [hw]; decide
    intro t u
    have hwrite : exec (.vbankWrite w b v) s = .next (if bitsW v 3 1 = 1 then vbankSave u else u) :=
      State.next_linked hp (vbankWrite_warden hw hl)
    refine ⟨fun hs => ?_, fun hs ha => ?_, fun hs ha => ?_⟩
    · rw [hwrite, if_neg (by rw [hs]; decide)]
    · rw [hwrite, if_pos hs, vbankSave, if_pos ha]
    · rw [hwrite, if_pos hs, vbankSave, if_neg (by rw [ha]; decide), pwrRefused]
  · have hp : s.priv w ≠ 0 := by rw [hw]; decide
    intro u
    refine State.next_linked hp ((vbankWrite_save hw hl).trans ?_)
    rw [vbankSet, if_neg (Classical.not_not.2 rfl), vbankSave]
    rfl
  · exact State.next_linked hp (if_neg (by omega))
  · exact State.next_linked hp (if_pos h)
  · exact State.next_linked hp rfl
  · exact congrArg Host.Outcome.next (railSlewDone_half h.isLt ha)
  · exact congrArg Host.Outcome.next (railSlewDone_bank hs)
  · exact congrArg Host.Outcome.next (railSlewDone_idle hs)

end Sys2Proof.Machine


/-! PROOFS about the field ports, the DAC outputs and the analog fronts (16_field_ports R644 to R662): the checks of a port's
settings before the value, the owner's writes, inputs and slices, and SAVE. -/

namespace Sys2Proof.Machine

/-! ### What the Warden alone may write -/

/-- A write that is the Warden's alone, by a link at Supervisor, is denied. -/
theorem next_linked_wardenOr_supervisor {s : State} {w : Writer} {off off' : Nat} {f : State → State} (hp : s.priv w = 1) :
    (.next (s.linked w off fun s => s.wardenOr w off' f) : Out) = .next (s.denyWarden w off') :=
  State.next_linked (by rw [hp]; decide) (State.wardenOr_of_not (State.not_warden_of_supervisor hp) _ _)

/-! ### The settings of a port (R645, R648, R657) -/

section
variable {s : State} {w : Writer} {n : Fin 144} {v : W32}

/-- Values of PIN_CFG that meet a refusal are refused with its code. -/
theorem pinCfgWrite_refused (hw : s.priv w = 2)
    (hc : portRefusal n (v.toNat % 2 ^ 25) (s.portReg Reg.pinMux n) (s.portReg Reg.pinOvl n) (s.fld Fld.pinOwnOwner n) ≠ 0) :
    exec (.pinCfgWrite w n v) s = .next (s.refuse Reg.pinRefuse (portRefusal n (v.toNat % 2 ^ 25) (s.portReg Reg.pinMux n)
      (s.portReg Reg.pinOvl n) (s.fld Fld.pinOwnOwner n)) n 0 0) :=
  next_linked_wardenOr hw (if_pos hc)

/-- Does a PIN_MUX or a PIN_OVL value use its port (R645)? -/
theorem portUsed_iff (mux ovl : Nat) :
    (muxFn mux false != 0 || muxFn mux true != 0 || bitOf ovl 5 || bitOf ovl 11) = true ↔
      muxFn mux false ≠ 0 ∨ muxFn mux true ≠ 0 ∨ bitOf ovl 5 = true ∨ bitOf ovl 11 = true := by
  simp only [Bool.or_eq_true, bne_iff_ne, or_assoc]

/-- DIFF and OD of a port in use are locked. -/
theorem pinCfgWrite_busy (hw : s.priv w = 2)
    (hc : portRefusal n (v.toNat % 2 ^ 25) (s.portReg Reg.pinMux n) (s.portReg Reg.pinOvl n) (s.fld Fld.pinOwnOwner n) = 0)
    (hb : bitsOf (s.portReg Reg.pinCfg n) 0 2 ≠ bitsOf (v.toNat % 2 ^ 25) 0 2)
    (hu : muxFn (s.portReg Reg.pinMux n) false ≠ 0 ∨ muxFn (s.portReg Reg.pinMux n) true ≠ 0 ∨
      bitOf (s.portReg Reg.pinOvl n) 5 = true ∨ bitOf (s.portReg Reg.pinOvl n) 11 = true) :
    exec (.pinCfgWrite w n v) s = .next (s.refuse Reg.pinRefuse Code.pinBusy n 0 0) :=
  next_linked_wardenOr hw ((if_neg (Classical.not_not.2 hc)).trans (if_pos ⟨hb, (portUsed_iff _ _).2 hu⟩))

/-- Otherwise PIN_CFG takes the value, and a changed DIFF its effect. -/
theorem pinCfgWrite_taken (hw : s.priv w = 2)
    (hc : portRefusal n (v.toNat % 2 ^ 25) (s.portReg Reg.pinMux n) (s.portReg Reg.pinOvl n) (s.fld Fld.pinOwnOwner n) = 0)
    (hb : ¬(bitsOf (s.portReg Reg.pinCfg n) 0 2 ≠ bitsOf (v.toNat % 2 ^ 25) 0 2 ∧
      (muxFn (s.portReg Reg.pinMux n) false ≠ 0 ∨ muxFn (s.portReg Reg.pinMux n) true ≠ 0 ∨
        bitOf (s.portReg Reg.pinOvl n) 5 = true ∨ bitOf (s.portReg Reg.pinOvl n) 11 = true))) :
    exec (.pinCfgWrite w n v) s = .next (let t := s.setReg Reg.pinCfg (BitVec.ofNat 64 (v.toNat % 2 ^ 25)) n
      showPin n (if bitOf (s.portReg Reg.pinCfg n) 0 = bitOf (v.toNat % 2 ^ 25) 0 then t
        else diffChanged n (bitOf (v.toNat % 2 ^ 25) 0) t)) :=
  next_linked_wardenOr hw ((if_neg (Classical.not_not.2 hc)).trans (if_neg fun h => hb ⟨h.1, (portUsed_iff _ _).1 h.2⟩))

/-- What a write of another PIN_MUX value leaves: a switch that waits for its edge, but for a pin that nothing drives. -/
def muxWritten (n : Nat) (new : Nat) (s : State) : State :=
  let t := s.setReg Reg.pinMux (BitVec.ofNat 64 new) n
  if !t.outsDone || t.flag Fld.pinStatSleep n then t
  else (t.setFlag Fld.pinStatSwitching true n).setFlag Fld.pinStatSafe
    (t.portFabric n && (t.flag Fld.stwSecHoldOutHeld (homeSector n) || t.flag Fld.stwSecHoldDark (homeSector n))) n

/-- An allowed value of PIN_MUX other than the standing one. -/
theorem pinMuxWrite_taken (hw : s.priv w = 2)
    (hc : portRefusal n (s.portReg Reg.pinCfg n) (v.toNat % 2 ^ 24) (s.portReg Reg.pinOvl n) (s.fld Fld.pinOwnOwner n) = 0)
    (hn : v.toNat % 2 ^ 24 ≠ s.portReg Reg.pinMux n) :
    exec (.pinMuxWrite w n v) s = .next (muxWritten n (v.toNat % 2 ^ 24) s) :=
  next_linked_wardenOr hw ((if_neg (Classical.not_not.2 hc)).trans (if_neg hn))

/-- A pin in the safe state before OUTS, or asleep, switches nothing. -/
theorem muxWritten_quiet {t : State} {n new : Nat} (ht : s.setReg Reg.pinMux (BitVec.ofNat 64 new) n = t)
    (h : t.outsDone = false ∨ t.flag Fld.pinStatSleep n = true) : muxWritten n new s = t := by
  rw [muxWritten, ht, if_pos]
  rcases h with h | h <;> simp [h]

/-- Every other pin waits for its switch's edge. -/
theorem muxWritten_switch {t : State} {n new : Nat} (ht : s.setReg Reg.pinMux (BitVec.ofNat 64 new) n = t)
    (ho : t.outsDone = true) (hs : t.flag Fld.pinStatSleep n = false) :
    muxWritten n new s = (t.setFlag Fld.pinStatSwitching true n).setFlag Fld.pinStatSafe
      (t.portFabric n && (t.flag Fld.stwSecHoldOutHeld (homeSector n) || t.flag Fld.stwSecHoldDark (homeSector n))) n := by
  rw [muxWritten, ht, if_neg (by rw [ho, hs]; decide)]

/-- The test of an owner against both functions of a port (R657). -/
theorem fnsAllowed_iff (owner mux : Nat) :
    (!fnAllowed owner (muxFn mux false) || !fnAllowed owner (muxFn mux true)) = true ↔
      ¬(fnAllowed owner (muxFn mux false) = true ∧ fnAllowed owner (muxFn mux true) = true) := by
  rw [← Bool.not_and, Bool.not_eq_true', ← Bool.not_eq_true, Bool.and_eq_true]

/-- A code of no owner is refused in both records. -/
theorem pinOwnWrite_bad (hw : s.priv w = 2) (ho : ownerValid (bitsW v 0 8) = false) :
    exec (.pinOwnWrite w n v) s =
      .next ((s.deny Code.ownerBad (s.ownerCode w) 4 n).refuse Reg.pinRefuse Code.ownerBad n 0 0) :=
  next_linked_wardenOr hw (if_pos (by rw [ho]; rfl))

/-- An owner that the port's functions do not allow is refused. -/
theorem pinOwnWrite_misfit (hw : s.priv w = 2) (ho : ownerValid (bitsW v 0 8) = true)
    (hf : ¬(fnAllowed (bitsW v 0 8) (muxFn (s.portReg Reg.pinMux n) false) = true ∧
      fnAllowed (bitsW v 0 8) (muxFn (s.portReg Reg.pinMux n) true) = true)) :
    exec (.pinOwnWrite w n v) s = .next (s.refuse Reg.pinRefuse Code.pinFnOwner n 0 0) :=
  next_linked_wardenOr hw ((if_neg (by rw [ho]; decide)).trans (if_pos ((fnsAllowed_iff _ _).2 hf)))

/-- An owner that fits is taken. -/
theorem pinOwnWrite_taken (hw : s.priv w = 2) (ho : ownerValid (bitsW v 0 8) = true)
    (hf : fnAllowed (bitsW v 0 8) (muxFn (s.portReg Reg.pinMux n) false) = true ∧
      fnAllowed (bitsW v 0 8) (muxFn (s.portReg Reg.pinMux n) true) = true) :
    exec (.pinOwnWrite w n v) s = .next (s.setFld Fld.pinOwnOwner (bitsW v 0 8) n) :=
  next_linked_wardenOr hw ((if_neg (by rw [ho]; decide)).trans (if_neg fun h => (fnsAllowed_iff _ _).1 h hf))

/-! ### The owner's writes and the PWM generator (R649, R657) -/

/-- The owner's write is done. -/
theorem State.portOwned_owner (h : s.ownerCode w = s.fld Fld.pinOwnOwner n) (f : State → State) : s.portOwned w n f = f s :=
  if_pos h

/-- Anyone else's is refused in both records. -/
theorem State.portOwned_other (h : s.ownerCode w ≠ s.fld Fld.pinOwnOwner n) (f : State → State) : s.portOwned w n f =
    (s.deny Code.notOwner (s.ownerCode w) 4 n).refuse Reg.pinRefuse Code.notOwner n 0 0 := if_neg h

end

/-- Settles O55: every write is judged by the refusals of R645 and R657 before its value is taken. -/
theorem portSettingsFollowTheirChecks : Obligations.PortSettingsFollowTheirChecks := by
  refine ⟨fun s w n v hw => ⟨⟨?_, ?_, ?_⟩, ⟨?_, ?_, ?_, ?_⟩, ⟨?_, ?_⟩, ⟨?_, ?_, ?_⟩⟩, fun s w n v hp => ⟨?_, ?_, ?_, ?_⟩,
    fun s w n v hp => ⟨fun ho => ⟨?_, ?_⟩, fun ho => ⟨?_, ?_, ?_⟩⟩, fun s n => ⟨?_, ?_, ?_, ?_, ?_⟩⟩
  · exact pinCfgWrite_refused hw
  · exact fun hc hb => pinCfgWrite_busy hw hc hb.1 hb.2
  · exact pinCfgWrite_taken hw
  · exact fun hc => next_linked_wardenOr hw (if_pos hc)
  · exact fun hc hn => next_linked_wardenOr hw ((if_neg (Classical.not_not.2 hc)).trans (if_pos hn))
  · exact fun hc hn hq => (pinMuxWrite_taken hw hc hn).trans (congrArg Host.Outcome.next (muxWritten_quiet rfl hq))
  · exact fun hc hn ho hs => (pinMuxWrite_taken hw hc hn).trans (congrArg Host.Outcome.next (muxWritten_switch rfl ho hs))
  · exact fun hc => next_linked_wardenOr hw (if_pos hc)
  · exact fun hc => next_linked_wardenOr hw (if_neg (Classical.not_not.2 hc))
  · exact pinOwnWrite_bad hw
  · exact pinOwnWrite_misfit hw
  · exact pinOwnWrite_taken hw
  iterate 4 exact next_linked_wardenOr_supervisor hp
  · exact State.next_linked hp (State.portOwned_other ho _)
  · exact State.next_linked hp (State.portOwned_other ho _)
  · exact State.next_linked hp (State.portOwned_owner ho _)
  · exact fun hv => State.next_linked hp ((State.portOwned_owner ho _).trans (if_pos hv))
  · exact fun h2 hh => State.next_linked hp ((State.portOwned_owner ho _).trans (if_neg (by omega)))
  · exact fun h => congrArg Host.Outcome.next (if_pos h)
  · exact fun h => congrArg Host.Outcome.next (if_neg (by rw [h]; decide))
  · exact fun h => congrArg Host.Outcome.next (if_pos h)
  · exact fun h2 h => congrArg Host.Outcome.next ((if_neg (by omega)).trans (if_pos h))
  · exact fun h2 h => congrArg Host.Outcome.next ((if_neg (by omega)).trans (if_neg (by omega)))

/-! ### Inputs and driver slices (R651, R653, R658) -/

section
variable {s : State} {n : Nat}

/-- The level a receiver's filter gives: the pad's where the device drives it. -/
def State.heardLevel (s : State) (n : Nat) (b level : Bool) : Bool :=
  match s.pad n b with
  | .level x => x
  | _ => level || (!b && s.flag Fld.pinStatLineFault n)

/-- A pin with a receiver takes the level its filter gives, with its instant where it changes. -/
theorem inputChange_receiver {b level : Bool} (hd : b = true → s.flag Fld.pinCfgDiff n = false) : inputChange n b level s =
    showPin n (if (if b then (s.pin n).levelB else (s.pin n).levelA) = s.heardLevel n b level then s else s.setPin n
      (if b then { s.pin n with levelB := s.heardLevel n b level, sinceB := s.now }
        else { s.pin n with levelA := s.heardLevel n b level, sinceA := s.now })) :=
  if_neg (by
    cases b
    · exact Bool.false_ne_true
    · rw [hd rfl]; decide)

/-- LINE_FAULT's rise on a differential port. -/
theorem lineFault_rise (hd : s.flag Fld.pinCfgDiff n = true) (hf : s.flag Fld.pinStatLineFault n = false) : lineFault n true s =
    showOpen (inputChange n false true
      ((s.setFlag Fld.pinStatLineFault true n).noticeIf s.pinNotes Code.pinLineFault n)) := by
  simp only [lineFault, hd, hf, Bool.not_true, Bool.false_eq_true, if_true, if_false]

/-- LINE_FAULT's end on a differential port. -/
theorem lineFault_end (hd : s.flag Fld.pinCfgDiff n = true) :
    lineFault n false s = showOpen (s.setFlag Fld.pinStatLineFault false n) := by
  simp only [lineFault, hd, Bool.not_true, Bool.false_eq_true, if_false]

end

/-- An overload of a driven pin is shown, with its notice. -/
theorem sliceCheck_overload {s : State} {n : Nat} {b : Bool} (hr : s.pad n b ≠ .released) : sliceCheck n b true s =
    (s.setFlag (if b then Fld.pinStatOverloadB else Fld.pinStatOverloadA) true n).noticeIf s.pinNotes Code.pinOverload n := by
  rw [sliceCheck, if_neg hr, if_pos rfl]

/-- A mismatch of a driven pin without an overload is an immediate trigger. -/
theorem sliceCheck_mismatch {s : State} {n : Nat} {b : Bool} (hr : s.pad n b ≠ .released) : sliceCheck n b false s =
    trigger 7 5 (n / 8) (n % 8 + 8 * b2n b) false false s := by
  rw [sliceCheck, if_neg hr, if_neg Bool.false_ne_true]

/-! ### DAC outputs, analog fronts and SAVE (R656, R659 to R662) -/

/-- The word SAVE writes holds the present NOTE_EN, SAVE, and no CNT_CLR. -/
theorem pinSaveWord_fields {e : Nat} (he : e < 2) : bitsW (BitVec.ofNat 32 (e + 4)) 0 1 = e ∧
    bitsW (BitVec.ofNat 32 (e + 4)) 1 1 = 0 ∧ bitsW (BitVec.ofNat 32 (e + 4)) 2 1 = 1 := by
  simp only [bitsW, bitsOf, BitVec.toNat_ofNat]
  omega

section
variable {s : State} {w : Writer}

/-- SAVE beside the present NOTE_EN, by the Warden. -/
theorem pinGctlWrite_save (hw : s.priv w = 2) : pinGctlWrite w (BitVec.ofNat 32 (s.fld Fld.pinGctlNoteEn + 4)) s =
    pinSave (s.setFld Fld.pinGctlNoteEn (s.fld Fld.pinGctlNoteEn)) := by
  obtain ⟨hnote, hclr, hsave⟩ := pinSaveWord_fields (State.fld_lt s Fld.pinGctlNoteEn 0 0)
  simp only [pinGctlWrite, hnote, hclr, hsave, State.warden_iff.2 hw, Bool.not_true, Bool.false_eq_true, and_false,
    Nat.zero_ne_one, if_true, if_false]

/-- SAVE is the Warden's. -/
theorem pinGctlWrite_save_denied (hp : s.priv w = 1) :
    pinGctlWrite w (BitVec.ofNat 32 (s.fld Fld.pinGctlNoteEn + 4)) s = s.denyWarden w Reg.pinGctl.base := by
  obtain ⟨-, -, hsave⟩ := pinSaveWord_fields (State.fld_lt s Fld.pinGctlNoteEn 0 0)
  exact if_pos ⟨hsave, by rw [State.not_warden_of_supervisor hp]; rfl⟩

end

/-- Settles O56. -/
theorem inputsSlicesAndConvertersAct : Obligations.InputsSlicesAndConvertersAct := by
  refine ⟨fun s n b level hd => ⟨fun h => ?_, fun h => ?_⟩, fun s n level hd => ?_, fun s n b => ⟨fun h => ?_, fun h => ?_⟩,
    fun s n on hd => ?_, fun s n hd => ⟨?_, fun hf => ?_⟩, fun s n b overload => ⟨fun hr => ?_, fun hr => ⟨?_, ?_⟩⟩,
    fun s w k v hp => ⟨fun ho => ?_, fun ho => ?_⟩,
    fun s w k v hw => ⟨⟨fun ho => ?_, fun ho hb => ?_, fun ho hb => ?_⟩, ⟨fun hm => ?_, fun hm hb => ?_, fun hm hb => ?_⟩⟩,
    fun s w => ⟨fun hw => ⟨fun ha => ?_, fun ha => ?_⟩, fun hp => ?_, fun hp => ?_⟩⟩
  · exact congrArg Host.Outcome.next ((inputChange_receiver hd).trans (congrArg (showPin n) (if_pos h)))
  · exact congrArg Host.Outcome.next ((inputChange_receiver hd).trans (congrArg (showPin n) (if_neg h)))
  · exact congrArg Host.Outcome.next (if_pos (by rw [hd]; rfl))
  · exact congrArg Host.Outcome.next (if_pos h)
  · exact congrArg Host.Outcome.next (if_neg (Nat.not_lt.2 h))
  · exact congrArg Host.Outcome.next (if_pos (by rw [hd]; rfl))
  · exact congrArg Host.Outcome.next (lineFault_end hd)
  · exact congrArg Host.Outcome.next (lineFault_rise hd hf)
  · exact congrArg Host.Outcome.next (if_pos hr)
  · exact congrArg Host.Outcome.next (sliceCheck_overload hr)
  · exact congrArg Host.Outcome.next (sliceCheck_mismatch hr)
  · exact State.next_linked hp (if_pos ho)
  · exact State.next_linked hp (if_neg ho)
  · exact next_linked_wardenOr hw (if_pos (by rw [ho]; rfl))
  · exact next_linked_wardenOr hw ((if_neg (by rw [ho]; decide)).trans (if_pos hb))
  · exact next_linked_wardenOr hw ((if_neg (by rw [ho]; decide)).trans (if_neg hb))
  · exact next_linked_wardenOr hw (if_pos hm)
  · exact next_linked_wardenOr hw ((if_neg hm).trans (if_pos hb))
  · exact next_linked_wardenOr hw ((if_neg hm).trans (if_neg hb))
  · exact State.next_linked (by rw [hw]; decide) ((pinGctlWrite_save hw).trans (if_pos ha))
  · exact State.next_linked (by rw [hw]; decide) ((pinGctlWrite_save hw).trans (if_neg (by rw [ha]; decide)))
  · exact State.next_linked (by rw [hp]; decide) (pinGctlWrite_save_denied hp)
  · exact State.next_linked hp rfl

end Sys2Proof.Machine


/-! PROOFS about the tether and fabric lanes (16_field_ports R663 to R671): control, alignment and loss, IDENT and TIME, the
stream link, and the words of the fabric lanes. -/

namespace Sys2Proof.Machine

/-! ### Control and alignment (R663, R664, R671) -/

/-- The value a write leaves in PIN_LANE_CFG: a tether lane has one PCS. -/
def laneCfgNew (l : Nat) (v : W32) : Nat :=
  if l < 2 then v.toNat % 2 ^ 24 - bitsOf (v.toNat % 2 ^ 24) 4 1 * 2 ^ 4 else v.toNat % 2 ^ 24

/-- The queues a lane's value names: a tether lane needs none. -/
def State.laneQueues (s : State) (l new : Nat) : Bool :=
  l < 2 || (s.txQueue (bitsOf new 8 8) && s.rxQueue (bitsOf new 16 8) (bitOf new 4))

/-- A value that would enable a lane with no rate or without its queues. -/
def State.LaneBad (s : State) (l new : Nat) : Prop :=
  bitOf new 3 = true ∧ bitOf (s.reg Reg.pinLaneCfg l).toNat 3 = false ∧
    (bitsOf new 0 3 = 0 ∨ bitsOf new 0 3 = 7 ∨ s.laneQueues l new = false)

/-- A value that changes a locked field of a lane that is not OFF. -/
def State.LaneBusy (s : State) (l new : Nat) : Prop :=
  s.fld Fld.pinLaneStatState l ≠ 0 ∧ (bitsOf (s.reg Reg.pinLaneCfg l).toNat 0 3, bitsOf (s.reg Reg.pinLaneCfg l).toNat 4 1,
    bitsOf (s.reg Reg.pinLaneCfg l).toNat 8 16) ≠ (bitsOf new 0 3, bitsOf new 4 1, bitsOf new 8 16)

section
variable {s : State} {w : Writer} {l : Nat} {v : W32}

/-- The check of a lane's rate and queues, as the model decides it. -/
theorem State.laneBad_iff (s : State) (l new : Nat) :
    (bitOf new 3 && !bitOf (s.reg Reg.pinLaneCfg l).toNat 3 &&
      (bitsOf new 0 3 == 0 || bitsOf new 0 3 == 7 || !s.laneQueues l new)) = true ↔ s.LaneBad l new := by
  simp only [State.LaneBad, Bool.and_eq_true, Bool.or_eq_true, Bool.not_eq_true', beq_iff_eq, and_assoc, or_assoc]

/-- A lane without a rate or its queues is not enabled. -/
theorem laneCfgWrite_bad (hw : s.priv w = 2) (hb : s.LaneBad l (laneCfgNew l v)) :
    laneCfgWrite w l v s = s.refuse Reg.pinRefuse Code.pinBadCfg l 0 3 :=
  (State.wardenOr_of_warden (State.warden_iff.2 hw) _ _).trans (if_pos ((s.laneBad_iff l _).2 hb))

/-- A lane that is not OFF keeps its locked fields. -/
theorem laneCfgWrite_busy (hw : s.priv w = 2) (hb : ¬s.LaneBad l (laneCfgNew l v)) (hl : s.LaneBusy l (laneCfgNew l v)) :
    laneCfgWrite w l v s = s.refuse Reg.pinRefuse Code.pinBusy l 0 3 :=
  (State.wardenOr_of_warden (State.warden_iff.2 hw) _ _).trans
    ((if_neg (mt (s.laneBad_iff l _).1 hb)).trans (if_pos hl))

/-- Otherwise the value is taken, and EN switches the lane where it changes. -/
theorem laneCfgWrite_taken (hw : s.priv w = 2) (hb : ¬s.LaneBad l (laneCfgNew l v)) (hl : ¬s.LaneBusy l (laneCfgNew l v)) :
    laneCfgWrite w l v s = (let t := s.setReg Reg.pinLaneCfg (BitVec.ofNat 64 (laneCfgNew l v)) l
      if bitOf (laneCfgNew l v) 3 = bitOf (s.reg Reg.pinLaneCfg l).toNat 3 then t
        else laneSwitch l (bitOf (laneCfgNew l v) 3) t) :=
  (State.wardenOr_of_warden (State.warden_iff.2 hw) _ _).trans
    ((if_neg (mt (s.laneBad_iff l _).1 hb)).trans (if_neg hl))

/-- A rising EN trains an OFF lane, unless asleep, and lets a stopping one start again. -/
theorem laneSwitch_on (l : Nat) (t : State) : laneSwitch l true t =
    if t.fld Fld.pinLaneStatState l = 0 then (if t.asleep then t else laneTrain l t)
      else if t.fld Fld.pinLaneStatState l = 3 then setLaneState l 4 t else t :=
  (Laws.laneSwitch_eq l true t).trans (if_pos rfl)

/-- A falling EN stops a lane that runs. -/
theorem laneSwitch_off (l : Nat) (t : State) : laneSwitch l false t =
    if t.fld Fld.pinLaneStatState l = 0 ∨ t.fld Fld.pinLaneStatState l = 3 then t else setLaneState l 3 t :=
  (Laws.laneSwitch_eq l false t).trans (if_neg Bool.false_ne_true)

/-- LANE_ENABLE and LANE_DISABLE write PIN_LANE_CFG with their EN. -/
theorem exec_laneWrite {l : Fin 4} {r : Instr × W32}
    (hr : r ∈ ([(.laneEnable w l v, v ||| 8), (.laneDisable w l v, v &&& ~~~8)] : List (Instr × W32))) :
    exec r.1 s = .next (s.linked w (Reg.pinLaneCfg.addr l.val 0) (laneCfgWrite w l.val r.2)) := by
  simp only [List.mem_cons, List.not_mem_nil, or_false] at hr
  rcases hr with rfl | rfl <;> rfl

/-- The stop's end of a lane that does not start again. -/
theorem laneStopDone_stop (h : s.fld Fld.pinLaneStatState l = 3) : laneStopDone l s = laneHalt l s := by
  simp only [laneStopDone, h]

/-- The stop's end of a lane that starts again. -/
theorem laneStopDone_pend (h : s.fld Fld.pinLaneStatState l = 4) : laneStopDone l s = laneTrain l (laneHalt l s) := by
  simp only [laneStopDone, h]

/-- A fabric lane that has its footing is ALIGNED. -/
theorem laneLock_fabric (h : s.fld Fld.pinLaneStatState l = 1) (hl : 2 ≤ l) :
    laneLock l s = setLaneState l 2 (s.setLane l { s.lane l with locked := true }) := by
  simp only [laneLock, laneAligned, h, hl, show ¬l = 1 by omega, ne_eq, not_true_eq_false, if_true, if_false]

/-- A tether lane that has its footing waits for the IDENTs. -/
theorem laneLock_tether (h : s.fld Fld.pinLaneStatState l = 1) (hl : l < 2) :
    laneLock l s = tetherAligns l (s.setLane l { s.lane l with locked := true }) := by
  simp only [laneLock, h, show ¬2 ≤ l by omega, ne_eq, not_true_eq_false, if_false]

/-- The link of a lane that trains or is ALIGNED is lost: it trains again. -/
theorem laneLost_running (h : s.fld Fld.pinLaneStatState l = 1 ∨ s.fld Fld.pinLaneStatState l = 2) : laneLost l s =
    laneClockGone l (laneCode l Code.laneDown ((laneTrain l s).bump Fld.pinLaneCntRetrains l)) :=
  if_neg fun ⟨h1, h2⟩ => h.elim h1 h2

/-- A lane that does not run has no link to lose. -/
theorem laneLost_idle (h1 : s.fld Fld.pinLaneStatState l ≠ 1) (h2 : s.fld Fld.pinLaneStatState l ≠ 2) : laneLost l s = s :=
  if_pos ⟨h1, h2⟩

/-! ### IDENT and TIME (R664, R665, R667) -/

/-- A lane that does not receive takes no IDENT. -/
theorem ident_deaf {index : Nat} {ack good : Bool} (h : s.laneHears l = false) : ident l index ack good s = s :=
  if_pos (by rw [h]; rfl)

/-- A bad IDENT is counted. -/
theorem ident_damaged {index : Nat} {ack : Bool} (h : s.laneHears l = true) :
    ident l index ack false s = s.bump Fld.pinLaneCntCrcErr l := by
  rw [ident, if_neg (by rw [h]; decide), if_pos (by rfl), badMessage]

/-- What a good IDENT notes on its lane. -/
def identNoted (l index : Nat) (ack : Bool) (s : State) : State :=
  let t := s.setFld Fld.pinLaneStatPeerIndex index l
  t.setLane l { t.lane l with heard := true, acked := (t.lane l).acked || ack }

/-- A good IDENT, and the place in the chain it gives a follower. -/
theorem ident_good {index : Nat} {ack : Bool} (h : s.laneHears l = true) : ident l index ack true s =
    tetherAligns l (let t := identNoted l index ack s
      if l = 0 ∧ t.follower then (if t.beyondChain then pullGate t else t.setFld Fld.ldrChainIndex (index % 16 + 1)) else t) := by
  rw [ident, if_neg (by rw [h]; decide), if_neg (by decide)]
  rfl

/-- OFS_VALID that stood is lost. -/
theorem offsetLost_valid {t : State} (ht : s.setLane l { s.lane l with good := 0 } = t)
    (h : t.flag Fld.pinLaneStatOfsValid l = true) :
    offsetLost l s = laneCode l Code.ofsLost (t.setFlag Fld.pinLaneStatOfsValid false l) := by
  rw [offsetLost, ht, if_pos h]

/-- Without OFS_VALID the good exchanges alone are forgotten. -/
theorem offsetLost_invalid {t : State} (ht : s.setLane l { s.lane l with good := 0 } = t)
    (h : t.flag Fld.pinLaneStatOfsValid l = false) : offsetLost l s = t := by
  rw [offsetLost, ht, if_neg (by rw [h]; decide)]

/-- A lane that is not ALIGNED takes no TIME. -/
theorem timeMsg_unaligned {tSend tEcho tRecv d : W64} {good : Bool} (h : s.fld Fld.pinLaneStatState l ≠ 2) :
    timeMsg l tSend tEcho tRecv d good s = s := if_pos h

/-- A bad TIME is counted. -/
theorem timeMsg_damaged {tSend tEcho tRecv d : W64} (h : s.fld Fld.pinLaneStatState l = 2) :
    timeMsg l tSend tEcho tRecv d false s = s.bump Fld.pinLaneCntCrcErr l := by
  rw [timeMsg, if_neg (Classical.not_not.2 h), if_pos (by rfl), badMessage]

/-- A good TIME without an echo is noted. -/
theorem timeMsg_first {tSend tEcho tRecv d : W64} (h : s.fld Fld.pinLaneStatState l = 2) (he : tEcho = 0) :
    timeMsg l tSend tEcho tRecv d true s = s.setLane l { s.lane l with echo := tSend, recv := d } := by
  rw [timeMsg, if_neg (Classical.not_not.2 h), if_neg (by decide)]
  exact if_pos he

/-- A good TIME with an echo gives the offset and the delay. -/
theorem timeMsg_echoed {tSend tEcho tRecv d : W64} (h : s.fld Fld.pinLaneStatState l = 2) (he : tEcho ≠ 0) :
    timeMsg l tSend tEcho tRecv d true s = (
      let t := s.setLane l { s.lane l with echo := tSend, recv := d }
      let o := half (posDiff tRecv tEcho + posDiff tSend d) t
      let y := half (posDiff d tEcho - posDiff tSend tRecv) o.1
      let u := y.1.setReg Reg.pinLaneDly (BitVec.ofInt 32 y.2 |>.setWidth 64) l
      exchange l d.toNat (o.2 - signed 16 (u.fld Fld.pinLaneAsymAsym l)) u) := by
  rw [timeMsg, if_neg (Classical.not_not.2 h), if_neg (by decide)]
  exact if_neg he

end

/-- Settles O57. -/
theorem lanesTrainLoseAndKeepTime : Obligations.LanesTrainLoseAndKeepTime := by
  refine ⟨fun s w l v hw r hr => ⟨fun hb => ?_, fun hb hl => ?_, fun hb hl =>
      ⟨fun he => ?_, fun hon ho => ?_, fun hoff ho => ?_⟩⟩,
    fun s l => ⟨fun h => ?_, fun h => ?_, fun h => ?_, fun h => ⟨fun hl => ?_, fun hl => ?_⟩,
      fun codes => ⟨fun h => ?_, fun h1 h2 => ?_⟩⟩,
    fun s l id index ack => ⟨fun h good => ?_, fun h => ⟨?_, fun hf => ?_, fun hl hf => ?_⟩⟩,
    fun s l => ⟨fun h hk => ?_, fun h => ?_, fun h => ?_, fun h => ?_, fun h => ?_, fun h => ?_⟩,
    fun s l tSend tEcho tRecv d => ⟨fun h good => ?_, fun h => ⟨?_, fun he => ?_, fun he => ?_⟩⟩⟩
  · exact (exec_laneWrite hr).trans (State.next_linked (by rw [hw]; decide) (laneCfgWrite_bad hw hb))
  · exact (exec_laneWrite hr).trans (State.next_linked (by rw [hw]; decide) (laneCfgWrite_busy hw hb hl))
  · exact (exec_laneWrite hr).trans (State.next_linked (by rw [hw]; decide) ((laneCfgWrite_taken hw hb hl).trans (if_pos he)))
  · have hon' : bitOf (laneCfgNew l r.2) 3 = true := hon
    refine (exec_laneWrite hr).trans (State.next_linked (by rw [hw]; decide) ((laneCfgWrite_taken hw hb hl).trans ?_))
    rw [hon', ho]
    exact (if_neg (by decide)).trans (laneSwitch_on _ _)
  · have hoff' : bitOf (laneCfgNew l r.2) 3 = false := hoff
    refine (exec_laneWrite hr).trans (State.next_linked (by rw [hw]; decide) ((laneCfgWrite_taken hw hb hl).trans ?_))
    rw [hoff', ho]
    exact (if_neg (by decide)).trans (laneSwitch_off _ _)
  · exact congrArg Host.Outcome.next (laneStopDone_stop h)
  · exact congrArg Host.Outcome.next (laneStopDone_pend h)
  · exact congrArg Host.Outcome.next (if_pos h)
  · exact congrArg Host.Outcome.next (laneLock_fabric h hl)
  · exact congrArg Host.Outcome.next (laneLock_tether h hl)
  · exact congrArg Host.Outcome.next (laneLost_running h)
  · exact congrArg Host.Outcome.next (laneLost_idle h1 h2)
  · exact congrArg Host.Outcome.next (ident_deaf h)
  · exact congrArg Host.Outcome.next (ident_damaged h)
  · refine congrArg Host.Outcome.next ((ident_good h).trans (congrArg (tetherAligns l) (if_neg fun hc => ?_)))
    rcases hf with hl | hf
    · exact absurd hc.1 (by rw [hl]; decide)
    · exact Bool.false_ne_true (hf.symm.trans hc.2)
  · exact congrArg Host.Outcome.next ((ident_good h).trans (congrArg (tetherAligns l) (if_pos ⟨hl, hf⟩)))
  · exact congrArg Host.Outcome.next (if_pos ⟨h, hk⟩)
  · exact congrArg Host.Outcome.next (if_neg fun hc => h hc.1)
  · exact congrArg Host.Outcome.next (if_pos h)
  · exact congrArg Host.Outcome.next (if_neg h)
  · exact congrArg Host.Outcome.next (offsetLost_valid rfl h)
  · exact congrArg Host.Outcome.next (offsetLost_invalid rfl h)
  · exact congrArg Host.Outcome.next (timeMsg_unaligned h)
  · exact congrArg Host.Outcome.next (timeMsg_damaged h)
  · exact congrArg Host.Outcome.next (timeMsg_first h he)
  · exact congrArg Host.Outcome.next (timeMsg_echoed h he)

/-! ### The stream link (R668) -/

section
variable {s : State} {seq : Nat} {data : List Byte}

/-- No stream is taken off an unaligned lane, nor beyond the chain's end. -/
theorem stream_closed {good : Bool} (h : s.aligned 0 = false ∨ s.beyondChain = true) : stream seq data good s = s :=
  if_pos (h.imp_left fun ha => by rw [ha]; rfl)

/-- The condition under which STREAM messages are heard. -/
theorem stream_open (ha : s.aligned 0 = true) (hb : s.beyondChain = false) :
    ¬((!s.aligned 0) = true ∨ s.beyondChain = true) := by
  rw [ha, hb]
  decide

/-- A damaged STREAM message is counted and answered with NAK. -/
theorem stream_damaged (ha : s.aligned 0 = true) (hb : s.beyondChain = false) :
    stream seq data false s = sendAck true (s.bump Fld.pinLaneCntCrcErr 0) :=
  (if_neg (stream_open ha hb)).trans (if_pos (.inl rfl))

/-- A well-formed STREAM message is judged by its place and the room. -/
theorem stream_good (ha : s.aligned 0 = true) (hb : s.beyondChain = false) (hd : data ≠ []) (hl : data.length ≤ 256) :
    stream seq data true s = if seq ≠ (s.lane 0).expect ∨ 16 ≤ (s.lane 0).bufs.length then sendAck true s
      else streamServe (s.setLane 0 { s.lane 0 with
        bufs := (s.lane 0).bufs ++ [data], expect := ((s.lane 0).expect + 1) % 2 ^ 16 }) := by
  refine (if_neg (stream_open ha hb)).trans (if_neg ?_)
  rintro (hg | hn | hlong)
  · exact Bool.false_ne_true hg
  · exact hd hn
  · omega

/-- EOS on an unaligned lane is not heard. -/
theorem eosMsg_unaligned {good : Bool} (h : s.aligned 0 = false) : eosMsg good s = s := if_pos (by rw [h]; rfl)

/-- A bad EOS is counted. -/
theorem eosMsg_damaged (h : s.aligned 0 = true) : eosMsg false s = s.bump Fld.pinLaneCntCrcErr 0 :=
  (if_neg (by rw [h]; decide)).trans (if_pos rfl)

/-- EOS ends the stream once the loader has taken the buffers. -/
theorem eosMsg_good (h : s.aligned 0 = true) : eosMsg true s = streamTake 40 (s.setLane 0 { s.lane 0 with eos := true }) :=
  (if_neg (by rw [h]; decide)).trans (if_neg Bool.false_ne_true)

/-- The receiver's timer answers an active stream. -/
theorem ackSend_active {t : State} (ht : streamTake 40 s = t) (ha : t.aligned 0 = true)
    (h : (t.lane 0).active = true ∨ (t.lane 0).bufs ≠ []) : ackSend s = sendAck false t := by
  rw [ackSend, ht, if_pos ⟨ha, h⟩]

/-- On an unaligned lane it sends nothing. -/
theorem ackSend_unaligned {t : State} (ht : streamTake 40 s = t) (ha : t.aligned 0 = false) : ackSend s = t := by
  rw [ackSend, ht, if_neg fun h => Bool.false_ne_true (ha.symm.trans h.1)]

variable {credits : Nat} {nak : Bool}

/-- An ACK is not heard on a lane that does not receive. -/
theorem ack_deaf {good : Bool} (h : s.laneHears 1 = false) : ack seq credits nak good s = s := if_pos (by rw [h]; rfl)

/-- A bad ACK is counted. -/
theorem ack_damaged (h : s.laneHears 1 = true) : ack seq credits nak false s = s.bump Fld.pinLaneCntCrcErr 1 :=
  (if_neg (by rw [h]; decide)).trans (if_pos rfl)

/-- What an ACK leaves unacknowledged. -/
def ackLeft (seq : Nat) (unacked : List (Nat × List Byte)) : List (Nat × List Byte) :=
  match unacked.findIdx? fun e => e.1 == seq with
  | some i => unacked.drop (i + 1)
  | none => unacked

/-- A good ACK drops what it acknowledges, grants its credits, and with NAK sends the rest again. -/
theorem ack_good {t : State}
    (ht : s.setLane 1 { s.lane 1 with unacked := ackLeft seq (s.lane 1).unacked, credits := credits } = t)
    (h : s.laneHears 1 = true) : ack seq credits nak true s = streamPump 32 (if nak then resend t else t) := by
  subst ht
  exact (if_neg (by rw [h]; decide)).trans (if_neg Bool.false_ne_true)

end

/-! ### Fabric words (R670, R671) -/

/-- A word of fabric lane `l` as it enters its queue. -/
def wordTaken (wide : Bool) (v : W64) : W64 := if wide then v else v &&& maskW 0 38

section
variable {s : State} {l sync : Nat} {v : W64}

/-- An unaligned lane receives nothing. -/
theorem wordRx_unaligned (h : s.aligned l = false) : wordRx l v sync s = s := if_pos (by rw [h]; rfl)

/-- A block with a bad sync header is a code error. -/
theorem wordRx_badSync (h : s.aligned l = true) (hw : s.flag Fld.pinLaneCfgPcs l = true) (hs : sync = 0 ∨ sync = 3) :
    wordRx l v sync s = s.bump Fld.pinLaneCntCodeErr l :=
  (if_neg (by rw [h]; decide)).trans (if_pos ⟨hw, hs⟩)

/-- A good word is dropped as idle, enters its queue, or is lost. -/
theorem wordRx_good (h : s.aligned l = true) (hg : ¬(s.flag Fld.pinLaneCfgPcs l = true ∧ (sync = 0 ∨ sync = 3))) :
    wordRx l v sync s = (
      let wide := s.flag Fld.pinLaneCfgPcs l
      let q := s.fld Fld.pinLaneCfgQrx l
      let control := wide && sync == 2
      let x := wordTaken wide v
      if s.flag Fld.pinLaneCfgDropIdle l && idleWord wide x control then s
      else if s.queRuns q ∧ (s.flag Fld.queStatCutPend q ∨ 0 < s.queRoom q) then queSettle q (queEnter q x control s)
      else
        let t := (s.bump Fld.pinLaneCntRxDrop l).bump Fld.clkXingCntOverrun (21 + l)
        laneCode l Code.laneRxDrop (t.noticeIf t.clkNotes Code.xingOverrun (21 + l))) :=
  (if_neg (by rw [h]; decide)).trans (if_neg hg)

/-- The transmitter takes the next word of its queue. -/
theorem wordTx_word {q : Nat} (hq : s.fld Fld.pinLaneCfgQtx l = q) (ha : s.aligned l = true) (hr : s.queRuns q = true)
    (he : s.flag Fld.queStatEmpty q = false) : wordTx l s = (queSettle q (queLeave q s).1).sendLane l
      ⟨0, bytesLE 8 (queLeave q s).2.data.toNat ++
        bytesLE 1 (b2n ((queLeave q s).2.last && (queLeave q s).1.flag Fld.pinLaneCfgPcs l))⟩ := by
  subst hq
  exact if_pos ⟨ha, hr, by rw [he]; rfl⟩

/-- It sends nothing but idle otherwise. -/
theorem wordTx_idle {q : Nat} (hq : s.fld Fld.pinLaneCfgQtx l = q)
    (h : s.aligned l = false ∨ s.queRuns q = false ∨ s.flag Fld.queStatEmpty q = true) : wordTx l s = s := by
  subst hq
  refine if_neg fun ⟨ha, hr, he⟩ => ?_
  rcases h with h | h | h
  · exact Bool.false_ne_true (h.symm.trans ha)
  · exact Bool.false_ne_true (h.symm.trans hr)
  · rw [h] at he
    exact Bool.false_ne_true he

end

/-- A block's sync header is good: what the obligation says of it, as the model decides it. -/
theorem goodSync_iff {wide : Bool} {sync : BitVec 2} :
    (wide = false ∨ (sync ≠ 0 ∧ sync ≠ 3)) ↔ ¬(wide = true ∧ (sync.toNat = 0 ∨ sync.toNat = 3)) := by
  revert wide sync
  decide

/-- Settles O58. -/
theorem streamsAndWordsCrossTheLanes : Obligations.StreamsAndWordsCrossTheLanes := by
  refine ⟨fun s seq data => ⟨fun h good => ?_, fun ha hb => ⟨?_, fun hd hl => ⟨fun h => ?_, fun h1 h2 => ?_⟩⟩⟩,
    fun s total => ⟨fun h good => ?_, fun h => ⟨?_, ?_⟩⟩,
    fun s => ⟨fun ha h => ?_, fun ha => ?_, fun ha => ?_, fun ha => ?_⟩,
    fun s seq credits nak => ⟨fun h good => ?_, fun h => ⟨?_, ?_⟩⟩,
    fun s l v sync => ⟨fun ha => ?_, fun ha => ⟨fun hg => ?_, fun hg hd hi => ?_,
      fun hg hd => ⟨fun hr hroom => ?_, fun hr => ?_⟩⟩⟩,
    fun s l => ⟨fun ha hr he => ?_, fun h => ?_⟩⟩
  · exact congrArg Host.Outcome.next (stream_closed h)
  · exact congrArg Host.Outcome.next (stream_damaged ha hb)
  · exact congrArg Host.Outcome.next ((stream_good ha hb hd hl).trans (if_pos h))
  · exact congrArg Host.Outcome.next ((stream_good ha hb hd hl).trans (if_neg (by omega)))
  · exact congrArg Host.Outcome.next (eosMsg_unaligned h)
  · exact congrArg Host.Outcome.next (eosMsg_damaged h)
  · exact congrArg Host.Outcome.next (eosMsg_good h)
  · exact congrArg Host.Outcome.next (ackSend_active rfl ha h)
  · exact congrArg Host.Outcome.next (ackSend_unaligned rfl ha)
  · exact congrArg Host.Outcome.next (if_pos ha)
  · exact congrArg Host.Outcome.next (if_neg (by rw [ha]; decide))
  · exact congrArg Host.Outcome.next (ack_deaf h)
  · exact congrArg Host.Outcome.next (ack_damaged h)
  · exact congrArg Host.Outcome.next (ack_good rfl h)
  · exact congrArg Host.Outcome.next (wordRx_unaligned ha)
  · obtain ⟨hw, hs⟩ := Classical.not_not.1 (mt goodSync_iff.2 hg)
    exact congrArg Host.Outcome.next (wordRx_badSync ha hw hs)
  · exact congrArg Host.Outcome.next ((wordRx_good ha (goodSync_iff.1 hg)).trans
      (if_pos (Bool.and_eq_true_iff.2 ⟨hd, hi⟩)))
  · refine congrArg Host.Outcome.next ((wordRx_good ha (goodSync_iff.1 hg)).trans
      ((if_neg fun hc => ?_).trans (if_pos ⟨hr, .inr hroom⟩)))
    obtain ⟨hc1, hc2⟩ := Bool.and_eq_true_iff.1 hc
    exact hd.elim (fun h => Bool.false_ne_true (h.symm.trans hc1)) fun h => Bool.false_ne_true (h.symm.trans hc2)
  · refine congrArg Host.Outcome.next ((wordRx_good ha (goodSync_iff.1 hg)).trans
      ((if_neg fun hc => ?_).trans (if_neg fun hc => Bool.false_ne_true (hr.symm.trans hc.1))))
    obtain ⟨hc1, hc2⟩ := Bool.and_eq_true_iff.1 hc
    exact hd.elim (fun h => Bool.false_ne_true (h.symm.trans hc1)) fun h => Bool.false_ne_true (h.symm.trans hc2)
  · exact congrArg Host.Outcome.next (wordTx_word rfl ha hr he)
  · exact congrArg Host.Outcome.next (wordTx_idle rfl h)

end Sys2Proof.Machine


/-! PROOFS about the test access port (17_electrical_and_package R700 to R704): what a Quemos instruction answers with the debug
port disabled and without, and the three instructions' own answers. -/

namespace Sys2Proof.Machine

section
variable {s t : State} {ir : Nat} {f : State → State}

/-- With the debug port disabled a Quemos instruction answers DEBUG_OFF and acts on nothing. -/
theorem quemos_off (ht : jtagInstr ir s = t) (h : t.flag Fld.wtuDebugDisable = true) : quemos ir f s = debugOff t := by
  rw [quemos, ht, if_pos h]

/-- Otherwise it is performed. -/
theorem quemos_on (ht : jtagInstr ir s = t) (h : t.flag Fld.wtuDebugDisable = false) : quemos ir f s = f t := by
  rw [quemos, ht, if_neg (by rw [h]; exact Bool.false_ne_true)]

/-! ### CFG_LOAD and CFG_READ (R702) -/

variable {bs : List Byte}

/-- The stream of a link below the Warden opens no source. -/
theorem cfgLoad_denied (h : t.priv .jtag ≠ 2) : cfgLoad bs t = (
    let r := t.deny Code.wardenOnly (t.ownerCode .jtag) 6 2
    r.setJtag { r.jtag with code := Code.wardenOnly }) :=
  if_pos (by rw [Bool.not_eq_true', ← Bool.not_eq_true, State.warden_iff]; exact h)

/-- The Warden's test, as CFG_LOAD makes it. -/
theorem State.warden_passes {w : Writer} (h : t.priv w = 2) : ¬(!t.warden w) = true := by
  rw [State.warden_iff.2 h]
  decide

/-- A scan without whole bytes only shows the stream's code. -/
theorem cfgLoad_empty (h : t.priv .jtag = 2) (hb : bs = []) :
    cfgLoad bs t = t.setJtag { t.jtag with code := t.streamCode } :=
  (if_neg (State.warden_passes h)).trans (if_pos hb)

/-- What a scan leaves of an offer that the loader judged. -/
def cfgOffered (r : State) : Took → State
  | .took _ => r.setJtag { r.jtag with opened := true, code := r.streamCode }
  | .beyond => r.setJtag { r.jtag with code := r.streamCode }
  | .refused c => r.setJtag { r.jtag with code := c }

/-- The Warden's bytes are offered to the loader as source 3. -/
theorem cfgLoad_offer (h : t.priv .jtag = 2) (hb : bs ≠ []) :
    cfgLoad bs t = cfgOffered (ldrOffer 3 none t.jtag.opened bs t).1 (ldrOffer 3 none t.jtag.opened bs t).2 := by
  refine ((if_neg (State.warden_passes h)).trans (if_neg hb)).trans ?_
  generalize ldrOffer 3 none t.jtag.opened bs t = o
  obtain ⟨r, k | _ | c⟩ := o <;> rfl

variable {sel : Nat}

/-- A frame that may be read is copied. -/
theorem cfgRead_copied (h : t.readbackCause (bitsOf sel 0 7) (bitsOf sel 7 9) = 0) : cfgRead sel t = t.setJtag
    { t.jtag with code := Code.ok, refused := false, cause := 0, frame := t.frameWords (bitsOf sel 0 7) (bitsOf sel 7 9) 1 } := by
  simp only [cfgRead, h, bne_self_eq_false, if_true]

/-- A frame that may not gives zeros, with the refusal's cause. -/
theorem cfgRead_refused (h : t.readbackCause (bitsOf sel 0 7) (bitsOf sel 7 9) ≠ 0) : cfgRead sel t = t.setJtag
    { t.jtag with
      code := Code.ok, refused := true, cause := t.readbackCause (bitsOf sel 0 7) (bitsOf sel 7 9),
      frame := List.replicate 64 0 } := by
  simp only [cfgRead, h, bne_iff_ne.2 h, if_false]

/-! ### SETUP_RW (R702) -/

/-- On a link at NONE a word of BAR2 reads 0, and the link is denied. -/
theorem setupRead_none {off lost : Nat} (h : t.priv .jtag = 0) : setupRead true off lost t = (t.denyLink .jtag, 0) :=
  (if_neg (by decide)).trans (if_pos h)

end

/-- Settles O59. -/
theorem theTestPortAnswers : Obligations.TheTestPortAnswers := by
  refine ⟨fun s balls shifted code => ⟨rfl, rfl, rfl, rfl, rfl⟩, fun s bs sel bar2 word v lost =>
    ⟨fun h => ?_, fun h => ?_, fun h => ⟨?_, ?_⟩, fun h => ⟨fun hp => ?_, fun hp hb => ?_,
      fun hp hb => ⟨fun k hk => ?_, fun hk => ?_, fun c hk => ?_⟩⟩,
      fun h => ⟨fun hc => ?_, fun hc => ?_⟩, fun h => ⟨?_, ?_, fun hp hb => ?_⟩⟩⟩
  iterate 4 exact congrArg Host.Outcome.next (quemos_off rfl h)
  · exact congrArg Host.Outcome.next ((quemos_on rfl h).trans (cfgLoad_denied hp))
  · exact congrArg Host.Outcome.next ((quemos_on rfl h).trans (cfgLoad_empty hp hb))
  · exact congrArg Host.Outcome.next (((quemos_on rfl h).trans (cfgLoad_offer hp hb)).trans (congrArg (cfgOffered _) hk))
  · exact congrArg Host.Outcome.next (((quemos_on rfl h).trans (cfgLoad_offer hp hb)).trans (congrArg (cfgOffered _) hk))
  · exact congrArg Host.Outcome.next (((quemos_on rfl h).trans (cfgLoad_offer hp hb)).trans (congrArg (cfgOffered _) hk))
  · exact congrArg Host.Outcome.next ((quemos_on rfl h).trans (cfgRead_copied hc))
  · exact congrArg Host.Outcome.next ((quemos_on rfl h).trans (cfgRead_refused hc))
  · exact congrArg Host.Outcome.next (quemos_on rfl h)
  · exact congrArg Host.Outcome.next (quemos_on rfl h)
  · subst hb
    refine congrArg Host.Outcome.next ((quemos_on rfl h).trans ?_)
    dsimp only
    rw [setupRead_none hp, if_pos hp]
    rfl

end Sys2Proof.Machine
